-- ==== Sys2Proof/Word.lean ====
section
/-! DEFINITION. The word types of the part and their plainest arithmetic: 32-bit heath and window words, bytes,
saturating and wrapping counters, signed views.  Nothing here depends on a rule of the spec. -/

namespace Sys2Proof

/-- A 32-bit register, heath or queue word. -/
abbrev Word := BitVec 32

/-- A byte of a frame, message or line. -/
abbrev Byte := BitVec 8

/-- `n` as a 32-bit word, modulo 2³². -/
def word (n : Nat) : Word := BitVec.ofNat 32 n

/-- `n` as a byte, modulo 2⁸. -/
def byte (n : Nat) : Byte := BitVec.ofNat 8 n

/-- One as a number when the flag holds. -/
def bit (b : Bool) : Nat := if b then 1 else 0

/-- `a + n`, held at the largest value of a `w`-bit counter. -/
def satAdd (w a n : Nat) : Nat := min (2 ^ w - 1) (a + n)

/-- `a + n` on a `w`-bit counter that wraps. -/
def wrapAdd (w a n : Nat) : Nat := (a + n) % 2 ^ w

/-- The value of the `w`-bit pattern `n` read as two's complement. -/
def signed (w n : Nat) : Int := if n % 2 ^ w < 2 ^ (w - 1) then (n % 2 ^ w : Nat) else (n % 2 ^ w : Nat) - (2 ^ w : Nat)

/-- The `w`-bit two's-complement pattern of `i`. -/
def unsigned (w : Nat) (i : Int) : Nat := (i % (2 ^ w : Nat)).toNat

/-- Bits `hi` down to `lo` of `n`. -/
def bitsOf (n hi lo : Nat) : Nat := (n / 2 ^ lo) % 2 ^ (hi + 1 - lo)

/-- `f` applied `n` times. -/
def iter {α : Type} (f : α → α) : Nat → α → α
  | 0, a => a
  | n + 1, a => iter f n (f a)

end Sys2Proof
end

