-- ==== Sys2Proof/Syntax.lean ====
section
/-! DEFINITION. The commands of the part: one constructor of `Instr` for each row of the operation table, with what the
outside brings to it (a beat of the Alisk port, a received frame, a measurement) as its operands. -/

namespace Sys2Proof

/-- How much of a beat a command brings: the whole of it on one edge; the edge on which its 0xA5 begins, where a read samples
what it returns (R11, R81); or the edge of its point of effect, of a beat that began on an earlier edge (R53). -/
inductive BeatPart where
  | whole
  | starts
  | ends
  deriving DecidableEq, Repr

/-- One beat of an Alisk frame as the host drives it (R41 to R46, R49, R50): the frame's command byte, whether the beat is
the first and the last of its frame, the host's data, tag and CRC byte, and, for a 2-wire read, whether the host
acknowledges the CRC byte.  `part` tells how much of the beat the command brings, `early` that the frame began before the port
was ready (R63), and `addr` the 7-bit address that a 2-wire frame carries (R49). -/
structure Beat where
  cmd : Byte
  first : Bool
  last : Bool
  data : Word
  tag : Byte
  crc : Byte
  ack : Bool
  part : BeatPart := .whole
  early : Bool := false
  addr : BitVec 7 := 0x58#7
  deriving DecidableEq, Repr

/-- Why a 2-wire frame ends early (R50, R52, R62). -/
inductive BusEnd where
  | nack        -- the host does not acknowledge a byte the part has sent
  | stop        -- a STOP
  | start       -- a START
  | noRestart   -- bytes where a read frame expects a repeated START (R62)
  | leadNack    -- a burst read ended at the lead byte of a further beat (R52)
  | noCommand   -- an address+R without a read command before it in the transaction (R50)
  deriving DecidableEq, Repr

/-- What an uplink's engine and sampler report of the tick just closed (R118, R126): powers in 0.01 dBm, the longest
stretch out of lock in cycles, the received rate, and the errored blocks, invalid sync headers and errored PRBS31 bits of
the tick (every bit, while the checker has not found the pattern). -/
structure UplinkTick where
  rxPwr : Int
  txPwr : Int
  temp : Int
  bias : Nat
  rxPpm : Int
  unlock : Nat
  badSh : Nat
  errBlk : Nat
  prbsErr : Nat
  fecCor : Nat
  fecCw : Nat
  fecUnc : Nat
  deriving DecidableEq, Repr

/-- The overhead of an OTU2 frame, columns 1 to 16 of rows 1 to 4 in line order, with the BIP-8 parity over its OPU2 (R112). -/
structure OtnOh where
  bytes : List Byte
  opu : Byte
  deriving DecidableEq, Repr

/-- A received OTU2 frame (R112, R113): its overhead after descrambling as the line brings it, and as the FEC leaves it, and what
the FEC counts: corrected bits, codewords with a correction, and uncorrectable ones. -/
structure OtnFrame where
  line : OtnOh
  fixed : OtnOh
  fecCor : Nat
  fecCw : Nat
  fecUnc : Nat
  deriving DecidableEq, Repr

/-- How much of a received client frame a command brings: all of it, its beginning, a further part, or its end. -/
inductive Piece where
  | whole
  | first
  | more
  | last
  deriving DecidableEq, Repr

/-- A received GFP-F frame (R141, R142): errored bits of its core header (0, 1, or more), its fields, whether its tHEC
and eHEC are correct, whether its pFCS is, and the bytes of the client frame that the command brings. -/
structure GfpFrame where
  core : Nat
  pli : Nat
  pti : Nat
  pfi : Bool
  exi : Nat
  hecOk : Bool
  cid : Nat
  fcsOk : Bool
  client : List Byte
  part : Piece := .whole
  deriving DecidableEq, Repr

/-- A received Ethernet frame from the destination address to the FCS, whether its FCS is right, how many cycles before the
command its first bit after the SFD crossed the optical interface (R143, R309), how much of the frame the bytes are, and whether a
block of an uncorrectable codeword stands in it (R115). -/
structure EtherFrame where
  bytes : List Byte
  fcsOk : Bool
  ago : Nat
  part : Piece := .whole
  errored : Bool := false
  deriving DecidableEq, Repr

/-- What reaches the machines of the Ethernet PCS (BLOCK_LOCK_CHANGE): a change that one of them has made, sync headers in turn
(whether each is valid), columns without a fault sequence and the sequence after them, local (`true`), remote, or none, and RS-FEC
codewords in turn (whether each is correctable). -/
inductive PcsEvent where
  | blockLock (gained : Bool)
  | localFault (present : Bool)
  | remoteFault (present : Bool)
  | fecAlign (gained : Bool)
  | headers (valid : List Bool)
  | columns (n : Nat) (seq : Option Bool)
  | codewords (good : List Bool)
  deriving DecidableEq, Repr

/-- An upstream frame start on a drop (R172 to R177): its 80 header bytes after descrambling (bytes 0 to 7 as on the
line), bytes 8 to L − 1 of the frame before it as they came on the line where that frame was received, what a copper receiver in LISTEN
decodes as the first 80 bytes of the lit twin's downstream frame (R215), and how many cycles before the command its first symbol
crossed the pin. -/
structure UpHeader where
  bytes : List Byte
  line : Option (List Byte)
  down : List Byte
  ago : Nat
  deriving DecidableEq, Repr

/-- A block of a drop run that takes part in a message: which producer it belongs to. -/
inductive SmallKind where
  | management
  | sensor
  | timing
  deriving DecidableEq, Repr

/-- What a drop's front end reports of the tick just closed (R219, R220): received power and, on fibre, transmitted power in
0.01 dBm (on copper `txPwr` is the pair loss in 0.1 dB), echo return loss in 0.1 dB, the SNR code, the longest stretch out
of lock in cycles, and the barrier's report. -/
structure DropTick where
  pwr : Int
  txPwr : Int
  erl : Nat
  temp : Int
  bias : Nat
  snr : Nat
  unlock : Nat
  leak : Bool
  deriving DecidableEq, Repr

/-- Measurements of one tick for the references and the DPLLs (R32, R322 to R324): for each reference the measured frequency
in 10⁻¹², where one was made; whether the clock inputs REFIN0 and REFIN1 had an edge in every 1,000 cycles; the phase in
1/16 ns of the reference that SYS follows against the core clock, where it was measured; and the core clock against the
in-package oscillator over the tick, in 10⁻¹². -/
structure LoopTick where
  fmeas : List (Option Int)
  active : List Bool
  sysPh : Option Int
  core : Int
  deriving DecidableEq, Repr

/-- What the twin's mirror stream says of one bank word: address and value (R388). -/
abbrev BankRun := Nat × Word

/-- The tick record of R387 as a shadow receives it: the line tick, the lit part's local time less the part's own in ns (from
SEC, TICKSEC and the lane markers), the last step (M, R) with the line tick of its boundary, INUSE, STATE, GENLIVE and GENNEXT
of each drop from D0 on, the last SEQ sent before cycle index 0, the oldest SEQ in flight, the live bank's tag, whether its
digest equals that of the part's own live bank, and the handover boundary where one is announced. -/
structure TickRec where
  lineTick : Nat
  /-- [DESIGN CHOICE, log 62] -/
  diff : Int
  step : Option (Int × Int × Nat)
  drops : List (Bool × Fin 4 × Nat × Nat)
  lastSeq : Nat
  oldest : Option Nat
  tag : Byte
  /-- [DESIGN CHOICE, log 54] -/
  same : Bool
  handover : Option Nat
  deriving DecidableEq, Repr

/-- The commands.  Each constructor stands for one row of the operation table, and its docstring names the rule. [DESIGN CHOICE, log 4] -/
inductive Instr where
  /-- VIN_RISE, R438: from cold, the I/O rail still up, the VIO_SEL strap and the VIO pin in mV. -/
  | vinRise (cold railUp vioSel : Bool) (vioMv : Nat)
  /-- POWER_ON, R439: the VIO pin in mV at the end of S1. -/
  | powerOn (vioMv : Nat)
  /-- RAILS_READY, R439. -/
  | railsReady
  /-- S2_RESTART, R455. -/
  | s2Restart
  /-- CORE_RESET_RELEASE, R38: straps, BOOTTIME, memories whose check failed (fault rows), barriers that failed. -/
  | coreResetRelease (mode : Bool) (adr : Fin 8) (twnId : Bool) (boot : Nat) (badMem : List (Fin 384)) (badBar : List (Fin 96))
  /-- BROWN_OUT, R444. -/
  | brownOut
  /-- PIN_RESET, R445: ns for which RST_N has been low. -/
  | pinReset (lowNs : Nat)
  /-- RST_N_HIGH, R445. -/
  | rstNHigh
  /-- TAP_RESET, R441. -/
  | tapReset
  /-- TAP_INSTRUCTION, R454, R480: the instruction register's new value, and the boundary register's cells as the tester has them scanned. -/
  | tapInstruction (op : Byte) (cells : BitVec 237)
  /-- VIO_LOSS, R481. -/
  | vioLoss
  /-- VIO_RETURN, R481. -/
  | vioReturn
  /-- PORT_READY, R63. -/
  | portReady
  /-- TICK_BOUNDARY, R21: input energy of the tick in nJ, and line bits carried in it (R424, R425). -/
  | tickBoundary (energy lineBits : Nat)
  /-- SLEW_EDGE, R20: adds 2 (else 0). -/
  | slewEdge (add2 : Bool)
  /-- BUDGET, R37: block codes of Table 1.3. -/
  | budget (codes : List (Fin 16))
  /-- BEAT_ABORT, R48. -/
  | beatAbort (cmd : Byte) (first : Bool)
  /-- BURST_END, R48. -/
  | burstEnd
  /-- START_STOP_CONDITION, R52. -/
  | startStopCondition (how : BusEnd) (cmd : Byte) (first : Bool)
  /-- SDA_RELEASE, R52. -/
  | sdaRelease
  /-- STRETCH_RELEASE, R51. -/
  | stretchRelease
  /-- STRETCH_TIMEOUT, R51. -/
  | stretchTimeout
  /-- QDATA_STALL_END, R42. -/
  | qdataStallEnd
  /-- INVALID_INDEX_ACCESS, R15. -/
  | invalidIndexAccess (b : Beat)
  /-- REGISTER_WRITE, R53. -/
  | registerWrite (b : Beat)
  /-- WARM_RESET_REQUEST, R69. -/
  | warmResetRequest (b : Beat)
  /-- WARM_RESET_ACTIONS, R70. -/
  | warmResetActions
  /-- WARM_RESET_COMPLETE, R69. -/
  | warmResetComplete
  /-- CLAIM_LIT, R395. -/
  | claimLit (b : Beat) (peerHigh : Bool)
  /-- YIELD_TO_SHADOW, R401. -/
  | yieldToShadow (b : Beat)
  /-- LEAVE_PAIR, R402. -/
  | leavePair (b : Beat)
  /-- SOFTWARE_INTERRUPT, R68. -/
  | softwareInterrupt (b : Beat)
  /-- HDATA_READ, R71. -/
  | hdataRead (b : Beat)
  /-- HDATA_WRITE, R71. -/
  | hdataWrite (b : Beat)
  /-- SCHEMA_LOCK, R98. -/
  | schemaLock (b : Beat)
  /-- REVERT_REQUEST, R97. -/
  | revertRequest (b : Beat)
  /-- REVERT_PERFORM, R97. -/
  | revertPerform
  /-- SNAPREQ, R100. -/
  | snapreq (b : Beat)
  /-- SNAPSHOT, R100. -/
  | snapshot
  /-- COMMIT_REQUEST, R72. -/
  | commitRequest (b : Beat)
  /-- COMMIT_VERDICT, R93. -/
  | commitVerdict
  /-- COMMIT_APPLY, R73. -/
  | commitApply
  /-- ICAUSE_CLEAR, R75. -/
  | icauseClear (b : Beat)
  /-- RE_ARM_GAP_END, R79. -/
  | reArmGapEnd
  /-- GLINT_READ, R81. -/
  | glintRead (b : Beat)
  /-- QUEUE_SELECT, R82. -/
  | queueSelect (b : Beat)
  /-- FLUSH, R270. -/
  | flush (b : Beat)
  /-- REPLAY, R54. -/
  | replay (b : Beat)
  /-- QDATA_READ, R42. -/
  | qdataRead (b : Beat)
  /-- QDATA_WRITE, R260. -/
  | qdataWrite (b : Beat)
  /-- HEATH_SCRUB, R483: bank 0 staged or 1 live, address, errored bits found beyond those already known. -/
  | heathScrub (bank : Fin 2) (addr : Nat) (fresh : Fin 3)
  /-- UPLINK_INTEGRATION, R118. -/
  | uplinkIntegration (u : Fin 4) (t : UplinkTick)
  /-- OTN_FRAME, R112. -/
  | otnFrame (u : Fin 4) (f : OtnFrame)
  /-- GFP_FRAME_RX, R142. -/
  | gfpFrameRx (u : Fin 4) (f : GfpFrame)
  /-- ETHERNET_FRAME_RX, R143. -/
  | ethernetFrameRx (u : Fin 4) (f : EtherFrame)
  /-- SCHEDULER_CREDIT_REFILL, R146. -/
  | schedulerCreditRefill
  /-- UPSTREAM_ITEM_SENT, R145. -/
  | upstreamItemSent (u : Fin 4)
  /-- HOLD_OFF_EXPIRY, R151: SF-W, SF-P, SD-W or SD-P. -/
  | holdOffExpiry (p : Fin 2) (which : Fin 4)
  /-- SELECTOR_MOVE, R152. -/
  | selectorMove (p : Fin 2)
  /-- WAIT_TO_RESTORE_END, R153. -/
  | waitToRestoreEnd (p : Fin 2)
  /-- FOPNR, R157. -/
  | fopnr (p : Fin 2)
  /-- UPSTREAM_HEADER_RX, R172. -/
  | upstreamHeaderRx (d : Fin 96) (h : UpHeader)
  /-- SLOT_MAP_OFFER, R188. -/
  | slotMapOffer (d : Fin 96)
  /-- APPLY_NEXT, R188. -/
  | applyNext (d : Fin 96)
  /-- GENERATION_APPLY, R188. -/
  | generationApply (d : Fin 96)
  /-- SMFLT, R190. -/
  | smflt (d : Fin 96)
  /-- AUDIO_BLOCK_RX, R183: block index in the frame echoing `echo`, and its 20 bytes. -/
  | audioBlockRx (d : Fin 96) (blk : Nat) (echo : Nat) (bytes : List Byte)
  /-- SMALL_BLOCK_MESSAGE, R184: blocks of a run in the frame echoing `echo`, each with its index and its 20 bytes. -/
  | smallBlockMessage (d : Fin 96) (kind : SmallKind) (echo : Nat) (blocks : List (Nat × List Byte))
  /-- MANAGEMENT_MESSAGE, R175: the MTYPE 0x01 fields (header bytes 37 to 67) that arrive, up to the EOP. -/
  | managementMessage (d : Fin 96) (chunks : List (List Byte))
  /-- DROP_GFP_FRAME, R182. -/
  | dropGfpFrame (d : Fin 96) (f : GfpFrame)
  /-- SILENT_END, R207: the noise measured, in −1 dBm. -/
  | silentEnd (d : Fin 96) (noise : Byte)
  /-- QUIETEC_END, R207. -/
  | quietecEnd (d : Fin 96)
  /-- ANSWER_RX, R204, R205, R207: training frame bytes 0 to 47, and the part's own SNR code. -/
  | answerRx (d : Fin 96) (bytes : List Byte) (snr : Byte)
  /-- CALL_TIMEOUT, R207. -/
  | callTimeout (d : Fin 96)
  /-- PREP_END, R208. -/
  | prepEnd (d : Fin 96)
  /-- PROBE_JUDGEMENT, R208: the part's own SNR code over the probe. -/
  | probeJudgement (d : Fin 96) (snr : Byte)
  /-- SELECT_END, R207. -/
  | selectEnd (d : Fin 96)
  /-- DROP_UP, R207. -/
  | dropUp (d : Fin 96)
  /-- SYNC_TIMEOUT, R225. -/
  | syncTimeout (d : Fin 96)
  /-- RETRY, R207. -/
  | retry (d : Fin 96)
  /-- RETRAIN, R214. -/
  | retrain (d : Fin 96)
  /-- DROP_DEFECT_JUDGEMENT, R220. -/
  | dropDefectJudgement (d : Fin 96) (t : DropTick)
  /-- DROP_OFF, R223. -/
  | dropOff (d : Fin 96)
  /-- SCRUBBER_READ, R232: bank, and a word of the cell with errored bits found beyond those already known. -/
  | scrubberRead (bank : Fin 16) (wrd : Fin 8) (fresh : Fin 3)
  /-- LOCK_BREAK, R236: master and target. -/
  | lockBreak (m : Fin 8) (t : Fin 19)
  /-- DEFAULT_TARGET_ACCESS, R238: master, and whether it wrote. -/
  | defaultTargetAccess (m : Fin 8) (wr : Bool)
  /-- GROOMING_MOVES, R239. -/
  | groomingMoves
  /-- ITEM_COMMIT, R256: queue, KIND and UNIT. -/
  | itemCommit (q : Fin 8) (kind : Fin 16) (unit : Byte)
  /-- DOWNWARD_ITEM_CONSUME, R262: the consumer begins the item, or takes its last byte. -/
  | downwardItemConsume (q : Fin 4) (done : Bool)
  /-- LEVEL, R267. -/
  | level
  /-- AUDIO_EXCHANGE, R281: for each port, what a master receive side sampled of its data pin in the tick before (R277). -/
  | audioExchange (pins : List (List Bool))
  /-- SLAVE_RX_FRAME, R278: the bit periods of the frame and its data bits. -/
  | slaveRxFrame (p : Fin 8) (periods : Nat) (frame : List Bool)
  /-- SLAVE_TX_FRAME_START, R278: the bit periods of the frame just ended. -/
  | slaveTxFrameStart (p : Fin 8) (periods : Nat)
  /-- STEP, R298. -/
  | step
  /-- CAPTURE_EVENT, R302: unit, and the pins that have an edge on this cycle, each with whether it rises.  The active edges of the
  part's own outputs are the part's to know. -/
  | captureEvent (n : Fin 4) (srcs : List (Fin 15 × Bool))
  /-- ACTIVE_EDGE, R303. -/
  | activeEdge (o : Fin 8)
  /-- PULSE_END, R303: TOUT0 to TOUT7, or PPS_OUT as 8. -/
  | pulseEnd (o : Fin 9)
  /-- PPS_PULSE, R308. -/
  | ppsPulse
  /-- PTP_TRANSMIT, R310. -/
  | ptpTransmit
  /-- LOOP_FILTER_UPDATE, R331. -/
  | loopFilterUpdate (t : LoopTick)
  /-- REFERENCE_PULSE, R322: REF5 (false) or REF7, cycles before the command, and the interval's oscillator ns. -/
  | referencePulse (ref7 : Bool) (ago : Nat) (oscNs : Nat)
  /-- DPLL_WAIT_TO_RESTORE_END, R328. -/
  | dpllWaitToRestoreEnd (c : Fin 2)
  /-- SWITCH_COMPLETE, R329: the target's phase against the output, in 1/16 ns. -/
  | switchComplete (c : Fin 2) (phase : Int)
  /-- FAULT_EVENT, R350: the sources raised on one edge, and whether a level source's condition stands. -/
  | faultEvent (srcs : List (Fin 384)) (present : Bool)
  /-- WATCH, R356. -/
  | watch
  /-- COUNT_WINDOW_TUMBLE, R351. -/
  | countWindowTumble (src : Fin 384)
  /-- AUTOMATIC_RECOVERY, R363. -/
  | automaticRecovery
  /-- INJECTION_LAND, R367: the heath or queue-RAM address or meadow cell that the landing access writes. -/
  | injectionLand (addr : Nat)
  /-- LINK_UP, R383: the peer's compatibility word. -/
  | linkUp (compat : Word)
  /-- LINK_DOWN, R383. -/
  | linkDown
  /-- LANE_MARKER, R385: the stamps a, t, a′, t′ in 1/16 ns, the marker's compatibility word, the peer's role, and whether the
  peer reports that it is armed. -/
  | laneMarker (a t a' t' : Int) (compat : Word) (peerRole : Fin 3) (peerArmed : Bool)
  /-- TICK_RECORD, R387. -/
  | tickRecord (r : TickRec)
  /-- BANK_RUNS_APPLY, R388: the runs received, the commit's tag, and whether they are a full copy. -/
  | bankRunsApply (runs : List BankRun) (tag : Byte) (full : Bool)
  /-- ADD, R387, R391: SEQ, TRIB row, direction, client length, line tick and cycle index of the commit, first cell, first-byte
  stamp, client FCS. -/
  | add (seq : Nat) (trib : Byte) (up : Bool) (len lineTick idx cell : Nat) (stamp crc : Word)
  /-- RETIRE, R391. -/
  | retire (seq : Nat) (delivered : Bool)
  /-- CUT, R387: the last SEQ sent, and the line tick and cycle index of the cut. -/
  | cut (seq lineTick idx : Nat)
  /-- ATTACH, R394: the full bank copy and its tag. -/
  | attach (runs : List BankRun) (tag : Byte)
  /-- ARMED, R380. -/
  | armed
  /-- TENTATIVE_CLAIM_END, R395. -/
  | tentativeClaimEnd (peerHigh : Bool)
  /-- TENTATIVE_CLAIM_LOST, R395. -/
  | tentativeClaimLost
  /-- ROLE_CLASH, R396. -/
  | roleClash
  /-- PEER_CLAIM_LOSS, R397. -/
  | peerClaimLoss
  /-- SHADOW_LIGHTS, R398. -/
  | shadowLights
  /-- LIT_STEP_DOWN, R400. -/
  | litStepDown
  /-- CLAIM_RESUME, R400. -/
  | claimResume
  /-- HANDOVER, R401. -/
  | handover
  /-- HANDOVER_TIMEOUT, R401. -/
  | handoverTimeout
  /-- RELEASE_NOTICE, R402. -/
  | releaseNotice
  /-- POWER_PLAN, R417: the 16 sensor readings in 0.01 °C, VIN and VIO in mV, input power in 10 mW, and whether an in-package
  regulator is out of regulation. -/
  | powerPlan (tsens : List Int) (vin vio pin : Nat) (regFlt : Bool)
  /-- NIGHT_WAKE, R417. -/
  | nightWake
  /-- DARK_WAKE, R419. -/
  | darkWake
  /-- BLOCK_LOCK_CHANGE, R118. -/
  | blockLockChange (u : Fin 4) (e : PcsEvent)
  /-- SCHEDULED_WAKE, R414. -/
  | scheduledWake (blk : Nat)
  /-- POWER_STATE_ENTRY, R414: 1 DIM, 2 DUSK, 3 DARK. -/
  | powerStateEntry (blk : Nat) (st : Fin 4)
  /-- HANDOVER_REQUEST, R401. -/
  | handoverRequest
  /-- FULL_COPY_REQUEST, R388. -/
  | fullCopyRequest
  deriving DecidableEq, Repr

end Sys2Proof
end

