-- ==== Sys2Proof/Decode.lean ====
section
/-! DEFINITION. Words that spell commands.  No row of the operation table gives bits: a command is not a word. -/

namespace Sys2Proof

/-- The command that a word of `nbits` bits spells: none, since no row of the operation table has bits. [DESIGN CHOICE, log 9] -/
def decodeTableWord (_nbits _w : Nat) : Option Instr := none

end Sys2Proof
end

