-- ==== Sys2Proof/Config.lean ====
section
/-! DEFINITION. What one run of the model fixes once: the part's constants (R3, R4, R21, R22) and the free values.
A free value is opaque: nothing in Lean can prove a value of it, so every statement holds for every choice. -/

namespace Sys2Proof.Config

/-- Cycles in a tick (R21). -/
def tickCycles : Nat := 125000
/-- Ticks in a superframe (R22). -/
def superTicks : Nat := 8
/-- Ticks in a second of local time (R22). -/
def secTicks : Nat := 8000
/-- Nanoseconds in a second (R295). -/
def secNs : Nat := 1000000000
/-- First cycle index of the commit fence (R34). -/
def fence : Nat := 123000
/-- The last cycle index of a tick. -/
def lastIdx : Nat := 124999

/-- FREE VALUE.  The `n`-th value that the spec leaves open, drawn by advancing the counter `Chip.free`. [DESIGN CHOICE, log 5] -/
opaque freeNat : Nat → Nat

/-- FREE VALUES.  The loop filters, of which the spec gives the order, the bandwidth and the peaking but no coefficient (R331): the
integrator after a phase measurement, and the output it and the measurement give, at a bandwidth code; and the integrator after a
frequency error taken from REF6 (R323). [DESIGN CHOICE, log 91] -/
opaque loopInteg : (code : Nat) → (integ e : Int) → Int
opaque loopOut : (code : Nat) → (integ e : Int) → Int
opaque loopFreq : (code : Nat) → (integ f : Int) → Int

/-- FREE VALUE.  Whether the block that owns a live heath word reads it as a tick opens: the spec names the read among those that
check a word, and no time for it (R108). [DEDUCED, log 24] -/
opaque blockReads : (draw addr : Nat) → Bool

/-- FREE VALUE.  Where the grooming reserve keeps block `b` of drop `d` in buffer `buf`: the spec gives the buffers and no layout (R239,
R247). [DESIGN CHOICE, log 29] -/
opaque reserveSlot : (buf d b : Nat) → Nat

/-- FREE VALUE.  The outcome at RST_N low times between 100 ns and 1 µs (R445): recognised or ignored. [DESIGN CHOICE, log 10] -/
opaque rstBetween : Nat → Bool

end Sys2Proof.Config
end

