-- ==== Sys2Proof/Machine/State.lean ====
section
/-! DEFINITION. The state of the part: local clock, window registers, heath banks, and the hidden state of every
block, as plain data.  A default value of a field is its value at `State.reset`. -/

namespace Sys2Proof.Machine

/-! ### Heath words -/

/-- What a heath word of a non-direct table holds (R89). -/
inductive WKind where
  | st      -- configuration fields, staged and live
  | status  -- RO and RC fields, live and snapshot
  deriving DecidableEq, Repr

/-- One range of heath words of a table with one layout: rows `rLo` to `rHi` (only even rows when `par` is 0, only odd
rows when it is 1), words `wLo` to `wHi`, the field bits, the read-clear bits and the reset value. -/
structure WSpec where
  rLo : Nat
  rHi : Nat
  par : Nat
  wLo : Nat
  wHi : Nat
  kind : WKind
  mask : Word
  rc : Word
  reset : Word
  deriving DecidableEq, Repr

/-- A heath field: its table, its word and its bits. -/
structure Fld where
  tab : Nat
  wrd : Nat
  hi : Nat
  lo : Nat
  deriving DecidableEq, Repr

/-- One copy of the heath words: (address in HADDR form, word), addresses strictly rising, no word equal to its reset
value; an unlisted word reads its reset value (R109). -/
abbrev Bank := List (Nat × Word)

/-! ### Local clock -/

/-- The tick grid and the local clock (R21, R22, R295, R296).  `ticks` is the tick number before its 32-bit wrap, `evc` the event
count before its 64-bit wrap, and `edges` the core-clock edges since release. -/
structure Clock where
  ticks : Nat := 0
  sec : Nat := 0
  ns : Nat := 0
  evc : Nat := 0
  edges : Nat := 0
  /-- Slew edges made so far in the present tick, adding 2 and adding 0. -/
  up : Nat := 0
  dn : Nat := 0
  /-- Slew edges of the last complete tick (SLEWUP, SLEWDN). -/
  lastUp : Nat := 0
  lastDn : Nat := 0
  /-- Core-clock edges since the last slew edge, saturating at 1,000 (R20). -/
  sinceSlew : Nat := 1000
  /-- The present edge added 2: it skipped one local nanosecond (R303). -/
  skip : Bool := false
  deriving DecidableEq, Repr

/-- An output pin behind the four edges of R78 and R353: its level, and the levels on their way to it with the core-clock edge
(`Clock.edges`) on which each reaches the pin. -/
structure Pin where
  level : Bool
  sched : List (Nat × Bool) := []
  deriving DecidableEq, Repr

/-! ### Start-up, reset and supply -/

/-- Where the part stands in Sequence 17.1. -/
inductive Phase where
  | off    -- VIN below 10.4 V, or tripped by a brown-out (R444)
  | s1     -- I/O rail (R439)
  | s2     -- rails and oscillator
  | hold   -- held before S3 by RST_N or the TAP (R445, R454)
  | s3     -- initialisation
  | run    -- core reset released (R38)
  | halted -- the core clock has stopped and WATCH has acted (R356)
  deriving DecidableEq, Repr

/-- The boundary-scan TAP (R441, R479, R480). -/
structure Tap where
  /-- The instruction register (R479). -/
  ir : Byte := 0x01#8
  /-- The boundary register's 237 cells, cell 0 nearest TDO (R480). [DESIGN CHOICE, log 77] -/
  cells : BitVec 237 := 0
  deriving DecidableEq, Repr

/-- Start-up state: phase, reset kind, straps and the words GLOBAL row 1 reports from them. [DESIGN CHOICE, log 11] -/
structure Boot where
  phase : Phase := .run
  /-- RSTCAUSE: 1 cold power-on, 2 brown-out, 3 pin reset (R451). -/
  cause : Nat := 1
  /-- The RSTCAUSE that the next release reports. -/
  nextCause : Nat := 1
  rstLow : Bool := false
  ioRailUp : Bool := true
  vioStrap : Bool := false
  vioExt : Bool := false
  bootTime : Nat := 0
  s2Restarts : Nat := 0
  warms : Nat := 0
  suShade : Bool := true
  /-- Optical power shut down and outputs released by the WATCH path (R356, R444). -/
  watchShade : Bool := false
  tap : Tap := {}
  deriving DecidableEq, Repr

/-! ### Alisk port -/

/-- What an Alisk access waits for (R42, R51). -/
inductive Stall where
  | none
  | read     -- 4-wire or 2-wire QDATA read, no word
  | write    -- 4-wire QDATA write, no room
  | stretch  -- 2-wire QDATA write, ALK_SCK held low
  deriving DecidableEq, Repr

/-- What the part sent in the last beat: the byte of the command position (R46), lead, data, tag, CRC and, in 2-wire mode, its
acknowledge. -/
structure Reply where
  command : Byte := 0xFF#8
  lead : Byte := 0xFF#8
  data : Word := 0#32
  tag : Byte := 0#8
  crc : Byte := 0#8
  ack : Bool := false
  deriving DecidableEq, Repr

/-- One word of the queue RAM with its tag bits and the errored bits it is known to hold (R272). -/
structure QWord where
  data : Word
  eop : Bool
  vcnt : Nat
  err : Nat := 0
  deriving DecidableEq, Repr

/-- What a read beat has begun to return, sampled on the edge of its 0xA5 (R11, R42, R54, R81): an index from 0xC to 0xF; a window
register; a heath word with its address; a heath error with its code; a QDATA access that is refused; the replay copy; or the next
word of a queue, with whether a replay request stands that no copy can serve. -/
inductive Given where
  | bad
  | reg (idx : Nat)
  | heath (addr : Nat) (data : Word)
  | heathErr (code : Nat)
  | refused
  | copy
  | word (w : QWord) (asked : Bool)
  deriving DecidableEq, Repr

/-- The Alisk serial port (chapter 2): straps, frame in progress, error history and the counters of Table 2.7. -/
structure Port where
  twoWire : Bool := false
  adr : Nat := 0
  ready : Bool := false
  /-- VIO lost: the SIG balls are at high impedance (R481). -/
  vioLost : Bool := false
  inFrame : Bool := false
  /-- ALK_SS_N is low in a 4-wire frame that the part serves: ALK_SDO is driven (R39, R47). -/
  selected : Bool := false
  cmd : Byte := 0#8
  idx : Nat := 0
  /-- The present frame has a beat that failed to take effect (R55). -/
  curErr : Bool := false
  prevErr : Bool := false
  /-- The last beat of the present frame to end took effect (R48, R52). -/
  beatDone : Bool := false
  idxCounted : Bool := false
  stall : Stall := .none
  /-- The beat that waits in the stall. -/
  held : Option Beat := none
  /-- A beat is open: it has begun and has not reached its point of effect. -/
  opened : Bool := false
  /-- What the open read beat returns. -/
  given : Given := .bad
  reply : Reply := {}
  /-- Samples that later beats of the same burst return (R32, R297, R81). -/
  tickSample : List Word := []
  timeSample : List Word := []
  tsecSample : List Word := []
  crcFail : Nat := 0
  aborts : Nat := 0
  idxErrs : Nat := 0
  stretchTo : Nat := 0
  sdaFree : Nat := 0
  replays : Nat := 0
  frames : Nat := 0
  deriving DecidableEq, Repr

/-! ### Window registers, DIR and the snapshot words of GLOBAL -/

/-- A warm reset in progress (R69): none, waiting for the boundary of the actions, or between actions and completion. -/
inductive Warm where
  | idle
  | asked
  | acted
  deriving DecidableEq, Repr

/-- The window registers (chapter 3) and the commit in progress (R72 to R74, R93, R95). -/
structure Window where
  hainc : Bool := false
  fovr : Bool := false
  haddr : Word := 0#32
  warm : Warm := .idle
  /-- Tick boundaries still to pass until the next step of the warm reset. -/
  warmIn : Nat := 0
  icause : Word := 0#32
  imask : Word := 0x0003FFFF#32
  glint : Word := 0#32
  tsec : Word := 0#32
  /-- ICAUSE bits set on core-clock edge `setNo`: a clear on that edge loses to them (R14). -/
  setBits : Word := 0#32
  setNo : Nat := 0
  /-- EVC of the last assertion. -/
  glintEvc : Nat := 0
  glmulti : Bool := false
  /-- The INT_N pin: `true` is asserted (low). -/
  intn : Pin := { level := false }
  /-- EVC at which the re-arm gap ends, while it runs (R79). -/
  gapEnd : Option Nat := none
  qid : Nat := 0
  pend : Bool := false
  defer : Bool := false
  /-- Tick boundaries still to pass until the pending commit's own. -/
  commitIn : Nat := 0
  /-- The pending request was accepted in the fence with FOVR = 1 (R74). -/
  fenceReject : Bool := false
  verdict : Option Nat := none
  rej : Bool := false
  rejCause : Nat := 0
  lastTag : Nat := 0
  appTag : Nat := 0
  deriving DecidableEq, Repr

/-- DIR row 0 and GLOBAL row 0 words 4 to 7 (R37, R104, R106). -/
structure Dir where
  slock : Bool := false
  hostSchema : Nat := 0
  /-- Cycle index of the present tick at which HOSTSCHEMA was last written at 124,996 or later, with the values before. -/
  lateSchema : Option (Bool × Nat) := none
  revPend : Bool := false
  /-- The revert, or a snapshot, is due on the present boundary edge. [DEDUCED, log 20] -/
  revDue : Bool := false
  /-- [DEDUCED, log 20] -/
  snapDue : Bool := false
  /-- SNAPPEND stood at the end of the tick that closed: the snapshot due answers that request. -/
  reqDue : Bool := false
  view : Bool := false
  rejAddr : Word := 0xFFFFFFFF#32
  applied : Nat := 0
  rejected : Nat := 0
  eccFix : Nat := 0
  snapPend : Bool := false
  snapView : Bool := false
  snapSec : Bool := true
  snapTick : Nat := 0
  snapSeq : Nat := 0
  budgetBlk : Nat := 0
  coreOfs : Nat := 0
  /-- Block codes that have overrun in the present tick (R37). -/
  budgetNow : List Nat := []
  deriving DecidableEq, Repr

/-- A rule violation that stands in the staged bank: its cause code, what breaks it and the staged write that made it
(R93, R94). -/
structure Standing where
  cause : Nat
  key : Nat
  addr : Nat
  deriving DecidableEq, Repr

/-- A heath word known to hold errored bits: bank (0 staged, 1 live, 2 snapshot), address, bits (1 or 2). -/
structure Upset where
  bank : Nat
  addr : Nat
  bits : Nat
  /-- An uncorrectable word that a read has met (R108). -/
  found : Bool := false
  deriving DecidableEq, Repr

/-- A counter record that a snapshot has made due (R149, R248, R259): the cycle index of the edge that takes its first byte, its
producer and its body. -/
structure RecDue where
  start : Nat
  kind : Nat
  unit : Nat
  bytes : List Byte
  /-- The crossbar's peaks that the record reports: they count on where it cannot be written. -/
  peaks : Nat × Nat := (0, 0)
  deriving DecidableEq, Repr

/-- The heath RAM (chapter 4). -/
structure Heath where
  staged : Bank := []
  live : Bank := []
  status : Bank := []
  /-- The status words as the tick that the last boundary closed left them (R100). -/
  statusEnd : Bank := []
  /-- Counter records as that tick left them: TRIB row, or 256 for the crossbar, and their words after word 1 (R149, R248). [DEDUCED, log 21] -/
  recEnd : List (Nat × List Nat) := []
  snap : Bank := []
  standing : List Standing := []
  upsets : List Upset := []
  /-- Bits of status words that events have set on the present edge: a read that clears them loses to the events (R14). -/
  setNow : List (Nat × Word) := []
  /-- Counter records of the last snapshot still to be written (R149, R248). -/
  recDue : List RecDue := []
  /-- A word was corrected in the present tick (source 243). -/
  fixedNow : Bool := false
  deriving DecidableEq, Repr

/-! ### Fault collector -/

/-- Hidden state of the fault collector (chapter 14).  FSRC, FGRP and FHIST status words stand in the status bank. -/
structure Collector where
  /-- Sources whose FLT is 1, and sources whose condition is present. -/
  flt : List Nat := []
  cond : List Nat := []
  /-- Entries each group has written since power-on reset (R360). -/
  seq : Vector Nat 24 := Vector.replicate 24 0
  /-- Tick count at which each COUNT source's window opened, where it is not 0 (R351). -/
  winOpen : List (Nat × Nat) := []
  shade : Bool := false
  /-- A FAULT or SEVERE fault event lies in the present tick (R362). -/
  loud : Bool := false
  /-- The last core-clock edge that carried events of event sources or fault events, their sources, and whether a fault event was FAULT or SEVERE
  (R361, R374). -/
  edgeNo : Nat := 0
  edge : List Nat := []
  edgeLoud : Bool := false
  /-- EVC of the edge on which the collector shade began, and whether a self-fault began it (R356). -/
  shadeEvc : Nat := 0
  shadeSelf : Bool := false
  /-- An armed injection: its target, its bits and the arming edge (R366). -/
  inj : Option (Nat × Nat × Nat) := none
  faultn : Pin := { level := false }
  lantern : Bool := true
  /-- LANTERN may run again from the next superframe boundary (R354). -/
  lanternHeld : Bool := false
  deriving DecidableEq, Repr

/-! ### Host queues -/

/-- An open upward item: its producer, its bytes so far, the words reserved for it and the EVC of the edge that took
its last byte (R256, R259). -/
structure OpenItem where
  kind : Nat
  unit : Nat
  bytes : List Byte
  words : Nat
  doneAt : Option Nat := none
  /-- Errored bits that one of its body words holds, and which word (R272, R367). -/
  hurt : Nat := 0
  hurtAt : Nat := 0
  deriving DecidableEq, Repr

/-- One host queue (chapter 10). [DESIGN CHOICE, log 26] -/
structure Queue where
  /-- Committed items, oldest first; the head of an upward queue may have been read in part. -/
  items : List (List QWord) := []
  opens : List OpenItem := []
  /-- Producers whose item was rewound and whose remaining bytes are discarded (R258). -/
  skip : List (Nat × Nat) := []
  gap : Nat := 0
  copy : Option QWord := none
  /-- The tag of the copy carried QERR (R54). -/
  copyErr : Bool := false
  replay : Bool := false
  /-- The core-clock edge on which items were last committed, and how many on it: they can be read, or begun, from the next edge
  (R256, R260). -/
  freshAt : Nat := 0
  freshN : Nat := 0
  /-- The host's open item on a downward queue. -/
  hostOpen : List QWord := []
  /-- The consumer has begun the head item of a downward queue. -/
  begun : Bool := false
  /-- An item was dropped, or a word discarded, in the present tick (R271). -/
  lostNow : Bool := false
  deriving DecidableEq, Repr

/-! ### Uplinks -/

/-- Lengths of the present runs of a condition being present and absent, in frames, ticks or seconds. -/
structure Run where
  hi : Nat := 0
  lo : Nat := 0
  deriving DecidableEq, Repr

/-- A value offered by the line and the number of consecutive arrivals of it (R116). -/
structure Offer where
  val : Nat := 0
  run : Nat := 0
  taken : Bool := false
  deriving DecidableEq, Repr

/-- The trail trace of one layer being received: the bytes of the present 64-frame cycle, the last complete cycle, how
often it has arrived in a row, and whether one has been accepted (R116). -/
structure Trail where
  cur : List Byte := []
  cand : List Byte := []
  run : Nat := 0
  taken : Bool := false
  deriving DecidableEq, Repr

/-- A degrade integrator (R119): errored frames or blocks in the present second, and the run of bad and good seconds. -/
structure Deg where
  count : Nat := 0
  secs : Run := {}
  deriving DecidableEq, Repr

/-- A client frame held in the meadow (R148, R228): its tributary, its direction, its bytes, its cells in order, the
event stamp of its first byte, whether it has begun on its line, and whether one of its words is uncorrectable. [DESIGN CHOICE, log 26] -/
structure Item where
  trib : Nat
  up : Bool
  /-- Where it was written to go: the drop and DCID of a downstream item, the uplink and KEY of an upstream one (R162). -/
  dest : Nat := 0
  key : Nat := 0
  data : List Byte
  cells : List Nat
  stamp : Word
  /-- EVC of the edge that committed it into the meadow (R387, R391). -/
  comAt : Nat := 0
  begun : Bool := false
  bad : Bool := false
  /-- SEQ of its ADD descriptor, where the part mirrors (R387). -/
  seq : Option Nat := none
  deriving DecidableEq, Repr

/-- A message being sent to a far end over the header channel, over blocks or in GCC slots: bytes left, and whether the next piece is
the first. -/
structure TxMsg where
  rest : List Byte := []
  first : Bool := true
  /-- Downward queue it came from. -/
  queue : Nat := 0
  busy : Bool := false
  /-- It ends at an uncorrectable word: no EOP is sent (R272). -/
  cut : Bool := false
  /-- First block of the run that carries it, once a block of the run has (R184). -/
  run : Option Nat := none
  deriving DecidableEq, Repr

/-- The block lock machine of clause 49: sync headers tested and found invalid in the present window of 64. -/
structure BlockLock where
  tested : Nat := 0
  bad : Nat := 0
  deriving DecidableEq, Repr

/-- The link fault machine of clause 46: the type of the last fault sequence (`true` local), how many of it have arrived, and
columns since the last. -/
structure FaultSeq where
  near : Bool := false
  count : Nat := 0
  cols : Nat := 0
  deriving DecidableEq, Repr

/-- Hidden state of uplink Uu (chapter 5).  `defs` are the unmasked integrator outputs, bit n as UPLSTAT.DEF; the masked
view stands in UPLSTAT. -/
structure Uplink where
  mode : Nat := 0
  /-- The tick that opened as the mode began, or the first tick awake: integration looks at it and those after it (R130, R420). -/
  start : Nat := 0
  defs : Nat := 0
  losOk : Nat := 0
  fas : Run := {}
  mfas : Run := {}
  expMfas : Nat := 0
  /-- In the present tick: a frame was checked; OOF, OOM were present at every check; at none. -/
  chk : Bool := false
  oofAll : Bool := true
  oofNone : Bool := true
  oomAll : Bool := true
  oomNone : Bool := true
  lofRun : Run := {}
  lomRun : Run := {}
  smBdi : Run := {}
  pmBdi : Run := {}
  tcmBdi : Run := {}
  iae : Run := {}
  biae : Run := {}
  pt : Offer := {}
  pmStat : Offer := {}
  tcmStat : Offer := {}
  smTti : Trail := {}
  pmTti : Trail := {}
  smDeg : Deg := {}
  pmDeg : Deg := {}
  tcmDeg : Deg := {}
  eDeg : Deg := {}
  /-- PRBS31 was checked in the tick that the next integration looks at (R118, R134). -/
  prbs : Bool := false
  /-- SF was present at an integration of the present second (R119). -/
  sfSec : Bool := false
  /-- Invalid sync headers in the present high-BER window, and ticks of the window passed (Table 5.3). -/
  badSh : Nat := 0
  berTicks : Nat := 0
  /-- Consecutive ticks with and without an optics alarm condition, and ticks the laser has been lit (R126, R138). -/
  mon : Run := {}
  litTicks : Nat := 0
  /-- Received GCC bytes of the multiframe in progress; some were lost (R123, R136). -/
  gccOpen : Bool := false
  gccLost : Bool := false
  gccDropNow : Bool := false
  /-- BIP-8 violations of the last checked frame in SM, PM and TCM1, sent back as BEI (Table 5.2). -/
  lastBip : Nat := 0
  lastPm : Nat := 0
  lastTcm : Nat := 0
  /-- Transmitted overhead under R122: SM, PM and TCM1 BDI; BEI/BIAE of each; PM STAT; remote fault, idle, or data. -/
  txBdi : Nat := 0
  txBei : Nat := 0
  txPmBei : Nat := 0
  txTcmBei : Nat := 0
  txStat : Nat := 1
  txFault : Nat := 0
  laser : Bool := false
  /-- Switched off: its upstream items are offered to the end of the present tick (R131, R162). -/
  closing : Bool := false
  /-- Core-clock edge (`Clock.edges`) on which the format began, frames of it that have begun since, and the MFAS of the next one
  sent (R130, R132). -/
  txFrom : Nat := 0
  txNext : Nat := 0
  txMfas : Nat := 0
  /-- The OTU2 frame being sent: its overhead, columns 1 to 16 of rows 1 to 4, and its OPU2 payload; in an Ethernet mode `opu` is
  the frame sent last. -/
  oh : List Byte := []
  opu : List Byte := []
  /-- OPU2 parity of the last two frames sent, and of the last two received; newest first (Table 5.2). -/
  bips : List Byte := []
  rxBips : List Byte := []
  /-- GFP-F bytes that wait for their places, and the scrambler x⁴³ + 1 behind them (R140). -/
  pay : List Byte := []
  scr : Nat := 0
  /-- The downward item being sent in GCC slots (R123). -/
  gcc : TxMsg := {}
  /-- Edge on which the Ethernet frame sent last is over, its idle block with it; edge on which a transmitter that a commit has
  switched off turns its laser off (R131). -/
  busy : Nat := 0
  dark : Option Nat := none
  /-- The client frame being received: an item not yet whole (R144, R162). -/
  rx : Option Item := none
  /-- What the part has sent to itself and not yet received, oldest first (R134). -/
  loop : List (List Byte) := []
  /-- Block lock, link faults and consecutive uncorrectable codewords (Table 5.3, R118). -/
  lock : BlockLock := {}
  fault : FaultSeq := {}
  fecBad : Nat := 0
  deriving DecidableEq, Repr

/-! ### Tributaries, protection, meadow and grooming -/

/-- Hidden state and counters of one tributary (R148, R149). -/
structure Trib where
  dn : List Item := []
  up : List Item := []
  dnFrames : Nat := 0
  dnBytes : Nat := 0
  upFrames : Nat := 0
  upBytes : Nat := 0
  dnDisc : Vector Nat 7 := Vector.replicate 7 0
  upDisc : Vector Nat 7 := Vector.replicate 7 0
  /-- Scheduler deficit and allowance in bytes (R145, R146). -/
  deficit : Nat := 0
  allow : Nat := 0
  /-- A disabled direction whose whole items are offered until the end of the present tick (R162). -/
  closeDn : Bool := false
  closeUp : Bool := false
  deriving DecidableEq, Repr

/-- One upstream scheduler: the row it last served and whether it is still on its visit (R145). -/
structure Sched where
  last : Nat := 255
  visit : Bool := false
  deriving DecidableEq, Repr

/-- GFP delineation of one uplink or drop (R141). -/
inductive Gfp where
  | hunt
  | presync
  | sync
  deriving DecidableEq, Repr

/-- Hidden state of one protection pair (R150 to R157).  The four hold-offs are for SF-W, SF-P, SD-W and SD-P: the grid
position (`Clock.pos`) at which the defect was raised, and whether it has passed its hold-off. -/
structure Aps where
  since : Vector (Option Nat) 4 := Vector.replicate 4 none
  passed : Vector Bool 4 := Vector.replicate 4 false
  wtrEnd : Option Nat := none
  dnr : Bool := false
  /-- The EXTCMD in force; 0 none. -/
  cmd : Nat := 0
  rxCand : Word := 0#32
  rxRun : Nat := 0
  rxTaken : Bool := false
  /-- Grid position since which the requested signals have differed (R157). -/
  differ : Option Nat := none
  /-- What the winning request selects, the edge on which that last changed, and what it selected before that edge: the selector
  follows on a boundary after it (R152). -/
  want : Bool := false
  wantAt : Nat := 0
  wantWas : Bool := false
  deriving DecidableEq, Repr

/-- A meadow word known to hold errored bits: its cell, its word in the cell and the errored bits. -/
structure CellUpset where
  cell : Nat
  wrd : Nat
  bits : Nat
  deriving DecidableEq, Repr

/-- A drop block captured for grooming, or written by it (R239, R241): drop, block, run type and 20 bytes. -/
structure GBlock where
  drop : Nat
  blk : Nat
  typ : Nat
  /-- The tick count of its frame: sent, echoed, or to be sent. -/
  tick : Nat
  bytes : List Byte
  deriving DecidableEq, Repr

/-- The meadow, the crossbar and the grooming engine (chapter 9), with the counters of Table 9.6. -/
structure Meadow where
  /-- Shared cells in use, and those freed on the edge of EVC `freedEvc` (R228). -/
  used : List Nat := []
  freed : List Nat := []
  freedEvc : Nat := 0
  /-- Bank of the cell given out last. -/
  bank : Nat := 15
  dnUsed : Nat := 0
  upUsed : Nat := 0
  dnPeak : Nat := 0
  upPeak : Nat := 0
  upsets : List CellUpset := []
  eccCor : Nat := 0
  eccUnc : Nat := 0
  fixedNow : Bool := false
  lockBrk : Nat := 0
  defTgt : Nat := 0
  defLast : Nat := 0
  gMoved : Nat := 0
  gSkip : Nat := 0
  gOver : Nat := 0
  scrubs : Nat := 0
  refused : Nat := 0
  /-- Next row of each bank that the scrubber reads (R232). -/
  scrubRow : Vector Nat 16 := Vector.replicate 16 0
  /-- A broken lock ends the next HDATA or QDATA beat of M0, the next record of M6 (R237). -/
  brokeHeath : Bool := false
  brokeQueue : Bool := false
  brokeTime : Bool := false
  /-- Source blocks captured from upstream frames (R239); those of downstream frames stand in the drops' last frames. -/
  capUp : List GBlock := []
  /-- The output buffer being sent and the one being written, with the destination blocks whose source was absent. -/
  out : List GBlock := []
  outNext : List GBlock := []
  absent : List (Nat × Nat) := []
  absentNext : List (Nat × Nat) := []
  deriving DecidableEq, Repr

/-! ### Drops -/

/-- Port states of Table 8.2. -/
inductive PState where
  | off
  | silent
  | quietec
  | call
  | prep
  | probe
  | select
  | up
  | wait
  | listen
  | held
  deriving DecidableEq, Repr

/-- Hunt state machine of R177. -/
inductive Hunt where
  | hunt
  | presync
  | sync
  deriving DecidableEq, Repr

/-- STATE of a slot-map generation (Table 7.10). -/
inductive SmState where
  | idle
  | waiting
  | offered
  | applyNext
  deriving DecidableEq, Repr

/-- Training state of a drop (R205, R207 to R209). -/
structure Training where
  /-- The hunt for the training word, and its run of errored words. -/
  hunt : Hunt := .hunt
  errRun : Nat := 0
  /-- The message of the frame that led to PRESYNC, with the part's SNR over it. -/
  pre : Option (List Byte × Nat) := none
  /-- Consecutive good ANSWERs, the ECHO of the last, and the SNR and CAPS they carried. -/
  answers : Nat := 0
  lastEcho : Nat := 0
  snrA : Nat := 0xFF
  snrB : Nat := 0xFF
  caps : Nat := 0
  /-- The part's own SNR over CALL. -/
  ownSnr : Nat := 0xFF
  /-- SNR of the last good ANSWER of the probe in progress that echoes a probe tick from 9 to 15. -/
  probeSnr : Nat := 0xFF
  cand : Nat := 0
  /-- The probe in progress has been judged (R208). -/
  judged : Bool := false
  chosen : Nat := 0
  /-- No mode above it is chosen: THRMODE for a copper attempt begun while TSTAGE is 2 or more (R427). -/
  cap : Nat := 7
  deriving DecidableEq, Repr

/-- Hidden state of drop Dd (chapters 7 and 8).  Fields that DROPSTAT or SLOTMAP report stand in the status bank. -/
structure Drop where
  ps : PState := .off
  /-- Mode code of the frames now sent. -/
  mode : Nat := 0
  /-- Boundaries passed in the present state. -/
  age : Nat := 0
  /-- Drop frames are sent and SYNC is awaited (R207 step 6). [DEDUCED, log 41] -/
  awaiting : Bool := false
  train : Training := {}
  rx : Hunt := .hunt
  errRun : Nat := 0
  sm : SmState := .idle
  genLive : Nat := 0
  genNext : Nat := 0
  /-- GENLIVE before its last change, and the tick count of that change (R192). -/
  genBefore : Nat := 0
  genTick : Nat := 0
  /-- Earlier live generations, newest first, each with the tick count from which it applied: `genBefore` leads (R192). -/
  gens : List (Nat × Nat) := []
  inUse : Nat := 0
  /-- Whole superframes for which STATE has been offered (R190). -/
  offerAge : Nat := 0
  echoed : Bool := false
  /-- The edge that accepted the echo (R188 step 4). -/
  echoAt : Nat := 0
  /-- Grid position (`Clock.pos`) at which LOF was raised, while it is present. -/
  lofSince : Option Nat := none
  rdi : Run := {}
  xcon : Run := {}
  smmis : Run := {}
  range : Run := {}
  /-- The last one-way delays measured since the receiver entered SYNC, newest first: the edge of the measurement and its value in
  2⁻⁸ ns; none: not valid (R193). -/
  delays : List (Nat × Option Int) := []
  /-- Parity of the downstream frame sent last, and REI to send in the next header. -/
  txBip : Nat := 0
  rei : Nat := 0
  gfp : Gfp := .hunt
  /-- The client frame being received on the packet stream: an item not yet whole (R162, R213). -/
  rxItem : Option Item := none
  /-- First block of the run on which a message is open: the header channel (0), management, sensor, timing (R175, R184). -/
  rxMch : Option Nat := none
  rxMbk : Option Nat := none
  rxSns : Option Nat := none
  rxTim : Option Nat := none
  /-- ECHO and DARK64 of the last good upstream header (R180). -/
  rxDark : Option (Nat × Nat) := none
  /-- ECHO of the last upstream frame, and of the last ones whose headers were bad, where the part counts on (R200, R283). -/
  rxEcho : Option Nat := none
  badEchos : List Nat := []
  /-- Bad blocks of a run without an open message have cost it a message that is counted already (R200): kind and run. -/
  rxLost : List (Nat × Nat) := []
  /-- The receiver for the lit twin's downstream frames (R215): its hunt, errored run, and the copper mode it tries. -/
  downRx : Hunt := .hunt
  downErr : Nat := 0
  trying : Nat := 1
  txMch : TxMsg := {}
  txMbk : TxMsg := {}
  txSns : TxMsg := {}
  /-- Packet stream downstream: bytes in progress still to place, the item they belong to (an idle frame has none), and the
  row last served. -/
  pkt : List Byte := []
  pktItem : Option Item := none
  served : Nat := 255
  /-- The frame of the present tick before scrambling: its header, in training bytes 0 to 47; its payload blocks placed so far with
  their types, the newest first; and the next block to place, 0 while no frame is in progress (R168, R180, R204). -/
  header : List Byte := []
  laid : List (Nat × List Byte) := []
  next : Nat := 0
  /-- Its DARK64. -/
  dark : Nat := 0
  /-- The payload blocks of the last whole frame, its tick count, and whether grooming may read it (R239, R241). -/
  frame : List (Nat × List Byte) := []
  frameTick : Nat := 0
  frameUp : Bool := false
  losOk : Nat := 0
  snr : Run := {}
  /-- LOL, LFD and SNRLOW before LOS masks them, as bits of DEF (R220). -/
  raw : Nat := 0
  /-- The receiver in SYNC throughout the tick so far, and delineation in SYNC at some edge of it; the same of the tick just closed, and
  delineation at its end (R220). -/
  allSync : Bool := false
  anyGfp : Bool := false
  tickSync : Bool := false
  tickGfp : Bool := false
  endGfp : Bool := false
  iso : Run := {}
  opt : Run := {}
  /-- The barrier failed its link in S3 (R455). [DEDUCED, log 16] -/
  barrier : Bool := false
  /-- A commit changed the mode fields at the boundary of this tick count: a retrain is due at the next one (R214). [DEDUCED, log 43] -/
  retrain : Option Nat := none
  /-- Disabled while UP: the last frame is being sent (R223). -/
  closing : Bool := false
  /-- In the present second: an errored condition, LOF (ESEC, LOFSEC). -/
  errSec : Bool := false
  lofSec : Bool := false
  deriving DecidableEq, Repr

/-! ### Time engine -/

/-- One timed output, or PPS_OUT (R303 to R308): whether a one-shot is armed, whether a pulse is in progress and the
EVC at which it ends, and whether the next active edge is the first since its fields went live. -/
structure Output where
  armed : Bool := false
  active : Bool := false
  pulseEnd : Nat := 0
  first : Bool := false
  /-- Local time in ns of the last active edge: a periodic edge is made once. -/
  lastAt : Option Nat := none
  deriving DecidableEq, Repr

/-- Hidden state of the time engine (chapter 12). -/
structure TimeEng where
  /-- A step requested and not yet applied, in ns (R298). -/
  stepReq : Option Int := none
  stepRem : Int := 0
  /-- TOUT0 to TOUT7, then PPS_OUT. -/
  out : Vector Output 9 := Vector.replicate 9 {}
  /-- In the present tick: an output set LATE; a record was dropped (R318). -/
  lateNow : Bool := false
  tqLost : Bool := false
  /-- Capture sources whose active edge the part has made on the present core-clock edge, and the units that have made their event
  on it (R301, R302). -/
  fired : List Nat := []
  taken : List Nat := []
  deriving DecidableEq, Repr

/-! ### Audio ports, references and DPLLs -/

/-- What the last exchange of a stopped receive side still takes (R291): the settings under which its frames came, and a slave's
frames. -/
structure SideEnd where
  fs : Nat
  fmt : Nat
  short : Bool
  master : Bool
  keep : List (List Nat)
  deriving DecidableEq, Repr

/-- One side of an audio port (R277 to R280, R290). -/
structure ASide where
  /-- The side drives or follows its pins. -/
  on : Bool := false
  run : Bool := false
  /-- Tick count of the boundary at which it started. -/
  onAt : Nat := 0
  /-- A receive side stopped by a commit that the next exchange still serves (R291). -/
  ending : Option SideEnd := none
  /-- Frames in the elastic store, oldest first; a frame holds one 24-bit sample for every slot. -/
  store : List (List Nat) := []
  /-- The frame taken last: the one that a transmit pin carries. -/
  last : List Nat := []
  /-- Frames that a master side has begun in the present tick, and those that stand in the store of a master receive side: their bits come
  with the exchange that takes them (R277, R279). -/
  made : Nat := 0
  heard : Nat := 0
  /-- A slave transmit side that a commit has stopped completes its frame at the pin (R291). -/
  tail : Bool := false
  /-- Tick count of the boundary from which the side's clock and frames are judged (R290). -/
  watchAt : Nat := 0
  /-- Frame starts seen in the present tick and in the one before; runs of ticks without and with one (R290). -/
  starts : Nat := 0
  lastStarts : Nat := 0
  clk : Run := {}
  frm : Run := {}
  clkDef : Bool := false
  frmDef : Bool := false
  rngDef : Bool := false
  /-- EVC of the first and the last frame start of the present second, and the starts between (R280). -/
  firstAt : Option Nat := none
  lastAt : Nat := 0
  count : Nat := 0
  /-- The side has run as slave since the last second boundary. -/
  whole : Bool := false
  slipNow : Bool := false
  deriving DecidableEq, Repr

/-- Samples of one receive slot ready for the next downstream frame (R281, R282). -/
structure Feed where
  chan : Nat
  mask : Nat
  ann : Bool
  rate : Nat
  samples : List Nat
  deriving DecidableEq, Repr

/-- An upstream audio block parsed (R183, R283): drop, channel, the tick count it echoes, RATE, samples; `rate` 4 marks
a missing block, 5 a block of a frame whose header was bad. -/
structure UpAudio where
  drop : Nat
  chan : Nat
  echo : Nat
  rate : Nat
  samples : List Nat
  deriving DecidableEq, Repr

/-- Hidden state of the audio engine (chapter 11). -/
structure Audio where
  rx : Vector ASide 8 := Vector.replicate 8 {}
  tx : Vector ASide 8 := Vector.replicate 8 {}
  feeds : List Feed := []
  blocks : List UpAudio := []
  /-- Last valid sample of an upstream channel: drop, channel, sample. -/
  lastValid : List (Nat × Nat × Nat) := []
  deriving DecidableEq, Repr

/-- DPLL channel states of Table 13.4. -/
inductive DState where
  | free
  | acq
  | lock
  | hold
  | lost
  deriving DecidableEq, Repr

/-- Hidden state of one DPLL channel (R328 to R334). -/
structure Channel where
  st : DState := .free
  sel : Option Nat := none
  /-- Tick count at which the present selection began. -/
  selAt : Nat := 0
  /-- Target of the switch in progress; the tick count at which its build-out ends where it is a clock, and the
  measurements of it still to come where it is not. -/
  target : Option Nat := none
  build : Nat := 0
  /-- A commit changed the rank during the switch: acted on at completion (R330). -/
  recheck : Bool := false
  /-- The output still follows the old reference during the switch. -/
  follow : Bool := false
  /-- Reference that waits to be restored, and the tick count at which its wait ends. -/
  wtr : Option (Nat × Nat) := none
  /-- Consecutive measurements within LOCKPH; beyond 4 × LOCKPH. -/
  within : Nat := 0
  beyond : Nat := 0
  lockTicks : Nat := 0
  histValid : Bool := false
  /-- The output of each tick of the present run of LOCK, newest first, as far back as the history reaches (R334). -/
  hist : List Int := []
  clampTicks : Nat := 0
  /-- A measurement of a pulse, of REF4 or of REF6 that the loop has not taken yet, in 1/16 ns (R323). -/
  meas : Option Int := none
  /-- The loop integrator, the output that the loop asks for, and the output (FOUT), in 10⁻¹² (R331, R332). -/
  integ : Int := 0
  aim : Int := 0
  out : Int := 0
  deriving DecidableEq, Repr

/-- Hidden state of one reference monitor (R323 to R325). -/
structure RefMon where
  defs : Nat := 0
  qual : Bool := false
  /-- Tick count at which the last defect cleared. -/
  clearAt : Nat := 0
  /-- Tick count of the last pulse, or of enabling. -/
  pulseAt : Nat := 0
  /-- Tick count of the last update of REF6; none before the first. -/
  swAt : Option Nat := none
  /-- The last phase measurement for TOD, in 1/16 ns. -/
  last : Int := 0
  deriving DecidableEq, Repr

/-- Hidden state of the DPLLs (chapter 13). -/
structure Dpll where
  chan : Vector Channel 2 := Vector.replicate 2 {}
  ref : Vector RefMon 8 := Vector.replicate 8 {}
  /-- The core clock as the last tick measured it, in 10⁻¹² (source 176). -/
  core : Option Int := none
  deriving DecidableEq, Repr

/-! ### The part -/

/-- WSTAT.ROLE (R67). -/
inductive Role where
  | solo
  | lit
  | shadow
  deriving DecidableEq, Repr

/-- An ADD descriptor that a shadow holds, neither retired nor matched (R387, R391): the lit part's SEQ, TRIB row,
direction, client length and FCS, the EVC of its commit on the shadow's own grid, first cell and first-byte stamp. -/
structure Desc where
  seq : Nat
  trib : Nat
  up : Bool
  len : Nat
  crc : Word
  comAt : Nat
  cell : Nat
  stamp : Word
  deriving DecidableEq, Repr

/-- A role request that waits to be settled (R395, R401, R402): a tentative claim with the EVC at which its window
ends, a handover with the grid position (`Clock.pos`) of the request and its boundary S by line tick once announced, or a leave. -/
inductive RoleReq where
  | tentative (endEvc : Nat)
  | handover (since : Nat) (at_ : Option Nat)
  | leave
  deriving DecidableEq, Repr

/-- Steps of an attach (R394): waiting for the full copy, for the alignment, for STEPREM to reach 0, or done. -/
inductive AttachStep where
  | none
  | copy
  | align
  | settle
  | done
  deriving DecidableEq, Repr

/-- Hidden state of the twin engine (chapter 15). -/
structure Twin where
  role : Role := .solo
  id : Nat := 0
  /-- The level driven on TWN_CLAIM, the levels on their way to its pin, and the level read last on TWN_PEER. -/
  claim : Bool := false
  claimPin : Pin := { level := false }
  /-- [DESIGN CHOICE, log 8] [DESIGN CHOICE, log 52] -/
  peer : Bool := false
  /-- A lit part keeps its claim low after its collector shade (R400), since the tick count given. -/
  keepLow : Option Nat := none
  /-- [DEDUCED, log 58] -/
  req : Option RoleReq := none
  /-- The shadow lights, or the lit part becomes shadow, at the next tick boundary (R396, R397, R400, R401). -/
  lightDue : Bool := false
  downDue : Bool := false
  /-- The shadow becomes solo at the next tick boundary (R402). -/
  soloDue : Bool := false
  /-- Tick count of the boundary at which the shadow lights after a handover (R401). -/
  handLight : Option Nat := none
  /-- A compatibility word has been received since reset (R395). [DESIGN CHOICE, log 8] -/
  heard : Bool := false
  /-- [DESIGN CHOICE, log 57] -/
  peerArmed : Bool := false
  attach : AttachStep := .none
  /-- A full bank copy from this peer has been applied (R380); one is requested (R388). -/
  fullCopy : Bool := false
  askCopy : Bool := false
  /-- A lock was broken: the next mirrored commit is not applied on its boundary (R237). -/
  brokeRuns : Bool := false
  /-- Mirrored commits that broken locks kept from their boundary, in order: their runs, tag, and whether it is a full copy (R237). -/
  heldRuns : List (List BankRun × Byte × Bool) := []
  /-- Shadow: descriptors held, the SEQ received last, gaps by the last SEQ of each, and the horizon as an EVC. -/
  adds : List Desc := []
  lastSeq : Option Nat := none
  gaps : List Nat := []
  horizon : Nat := 0
  /-- Lit: SEQ of the next descriptor, descriptors waiting in the mirror buffer, bank words still to be sent, the tag
  of the last commit, whether a release notice is to be sent, and the SEQs of items in flight. -/
  nextSeq : Nat := 0
  buffered : Nat := 0
  backlog : Nat := 0
  release : Bool := false
  /-- In the present tick: a descriptor was dropped or a gap seen (source 275). -/
  lossNow : Bool := false
  digestBad : Bool := false
  /-- Ticks for which an armed shadow's PHERR on REF4 has exceeded 100 ns (source 277). -/
  farTicks : Run := {}
  /-- The lanes carry a compatibility word (source 273). -/
  carry : Bool := false
  /-- Line tick of the step that the peer reported last (R390). -/
  lastStep : Option Nat := none
  deriving DecidableEq, Repr

/-- A state of Table 16.1. -/
inductive PwrState where
  | lit
  | dim
  | dusk
  | dark
  | night
  deriving DecidableEq, Repr

/-- Hidden state of the power manager (chapter 16).  Blocks: 0 to 3 uplink transmitters, 4 to 7 uplink receivers, 8 to
103 drop transmitters, 104 to 199 drop receivers, 200 to 207 audio ports, 208 the twin engine and lanes, 209 to 224
meadow bank arrays, 225 the grooming engine. -/
structure Power where
  /-- [DEDUCED, log 53] -/
  block : Vector PwrState 226 := (Vector.replicate 209 PwrState.night ++ Vector.replicate 17 PwrState.dim : Vector PwrState (209 + 17))
  /-- Blocks that are waking, with the EVC at which each is LIT. -/
  wake : List (Nat × Nat) := []
  /-- The plan for the next tick: the blocks that spend it in NIGHT (R417). -/
  plan : Option (List Nat) := none
  /-- BUDGET was raised with code 14 in the present tick (R434). -/
  holdLit : Bool := false
  /-- It was raised so in the tick before: no enabled block goes below LIT in the present one (R434). -/
  heldLit : Bool := false
  /-- Consecutive ticks of the next threshold reached, and of the present one left (R426). -/
  hot : Nat := 0
  cool : Nat := 0
  /-- Sensors left out of TJ, with the ticks for which each has agreed again (R436). -/
  outSens : List (Nat × Nat) := []
  vinLow : Bool := false
  vinHigh : Bool := false
  regFlt : Bool := false
  /-- In the present tick: a block woke late; a sensor differed. -/
  lateNow : Bool := false
  sensNow : Bool := false
  /-- Fractions below one µJ and one Mbit carried between ticks (R425). [DESIGN CHOICE, log 67] -/
  energyRest : Nat := 0
  bitsRest : Nat := 0
  deriving DecidableEq, Repr

/-- Everything the part holds except its clock and the commands waiting. -/
structure Chip where
  boot : Boot := {}
  port : Port := {}
  win : Window := {}
  dir : Dir := {}
  heath : Heath := {}
  col : Collector := {}
  que : Vector Queue 12 := Vector.replicate 12 {}
  upl : Vector Uplink 4 := Vector.replicate 4 {}
  trib : Vector Trib 256 := Vector.replicate 256 {}
  sched : Vector Sched 4 := Vector.replicate 4 {}
  gfp : Vector Gfp 4 := Vector.replicate 4 .hunt
  aps : Vector Aps 2 := Vector.replicate 2 {}
  mead : Meadow := {}
  drop : Vector Drop 96 := Vector.replicate 96 {}
  aud : Audio := {}
  tim : TimeEng := {}
  dpll : Dpll := {}
  twin : Twin := {}
  pow : Power := {}
  /-- A queue-RAM word was corrected in the present tick (source 244). -/
  qramFixed : Bool := false
  /-- Window work already done in the present tick, by code: 0 to 3 uplink integration, 4 credit refill, 5 grooming moves,
  6 DPLL loops, 7 LEVEL, 8 power plan, 9 audio exchange, 10 the work of a second boundary, 100 + d drop judgement.
  MODEL FIELD. [DESIGN CHOICE, log 6] -/
  done : List Nat := []
  /-- MODEL FIELD.  How many free values have been drawn. -/
  free : Nat := 0
  deriving DecidableEq, Repr

/-- The state of the machine: the commands waiting, first in first out, the local clock, and the part. -/
structure State where
  /-- [DESIGN CHOICE, log 79] -/
  pending : List Instr := []
  clk : Clock := {}
  chip : Chip := {}
  deriving DecidableEq, Repr

/-- Why a step stops with a fault.  No command of this part does: every command has an effect or does not come about,
so the type is empty. -/
inductive Fault where
  deriving DecidableEq, Repr

/-- Why a step refuses. -/
inductive Refusal where
  /-- A command without a meaning, by its mnemonic: raised by a dispatch arm that has none.  Safe. -/
  | notModelled (mnemonic : String)
  deriving DecidableEq, Repr

/-- The machine right after core reset release of a cold power-on (R38, R109): every field at its default. [DESIGN CHOICE, log 7] -/
def State.reset : State := {}

end Sys2Proof.Machine
end

