-- ==== Sys2Proof/Machine/FieldMap.lean ====
section
/-! DEFINITION. The heath field maps (R87, R89 and the field-map tables of every chapter): for each listed table
other than DIR and GLOBAL, every word that carries a field with its kind, its writable bits, its read-clear bits and
its reset value; and one named descriptor `TABLE.FIELD` for every field.  The text of this file is generated from the
markdown field-map tables of the spec, one row at a time. -/

namespace Sys2Proof.Machine

/-- Words of UPL (table 0x10), 05_uplink_framing.md. -/
def UPL.words : List WSpec := [
  ⟨0, 3, 2, 0, 0, .st, 0x7F7#32, 0x0#32, 0x0#32⟩,
  ⟨0, 3, 2, 1, 1, .st, 0xFFFFFFFF#32, 0x0#32, 0xF704F63C#32⟩,
  ⟨0, 3, 2, 2, 2, .st, 0x31F#32, 0x0#32, 0x0#32⟩,
  ⟨0, 3, 2, 3, 3, .st, 0xFFFFFF#32, 0x0#32, 0x20007#32⟩,
  ⟨0, 3, 2, 4, 4, .st, 0x37F#32, 0x0#32, 0x0#32⟩,
  ⟨0, 3, 2, 5, 5, .st, 0xF#32, 0x0#32, 0x0#32⟩,
  ⟨0, 3, 2, 6, 6, .st, 0x7FFFFFFF#32, 0x0#32, 0x0#32⟩,
  ⟨0, 3, 2, 8, 15, .st, 0xFFFFFFFF#32, 0x0#32, 0x0#32⟩,
  ⟨0, 3, 2, 16, 23, .st, 0xFFFFFFFF#32, 0x0#32, 0x0#32⟩,
  ⟨0, 3, 2, 24, 31, .st, 0xFFFFFFFF#32, 0x0#32, 0x0#32⟩]

/-- UPL.PRBSC, R124 (ST). -/
def UPL.PRBSC : Fld := ⟨0x10, 0, 10, 10⟩
/-- UPL.PRBSG, R124 (ST). -/
def UPL.PRBSG : Fld := ⟨0x10, 0, 9, 9⟩
/-- UPL.LOOPNE, R124 (ST). -/
def UPL.LOOPNE : Fld := ⟨0x10, 0, 8, 8⟩
/-- UPL.BYPIND, R124 (ST). -/
def UPL.BYPIND : Fld := ⟨0x10, 0, 7, 7⟩
/-- UPL.FECRX, R124 (ST). -/
def UPL.FECRX : Fld := ⟨0x10, 0, 6, 6⟩
/-- UPL.FECTX, R124 (ST). -/
def UPL.FECTX : Fld := ⟨0x10, 0, 5, 5⟩
/-- UPL.TXEN, R124 (ST). -/
def UPL.TXEN : Fld := ⟨0x10, 0, 4, 4⟩
/-- UPL.MODE, R124 (ST). -/
def UPL.MODE : Fld := ⟨0x10, 0, 2, 0⟩
/-- UPL.LOSCLR, R124 (ST). -/
def UPL.LOSCLR : Fld := ⟨0x10, 1, 31, 16⟩
/-- UPL.LOSSET, R124 (ST). -/
def UPL.LOSSET : Fld := ⟨0x10, 1, 15, 0⟩
/-- UPL.TCM1MODE, R124 (ST). -/
def UPL.TCM1MODE : Fld := ⟨0x10, 2, 9, 8⟩
/-- UPL.TIMACT, R124 (ST). -/
def UPL.TIMACT : Fld := ⟨0x10, 2, 4, 4⟩
/-- UPL.PMTIM, R124 (ST). -/
def UPL.PMTIM : Fld := ⟨0x10, 2, 3, 2⟩
/-- UPL.SMTIM, R124 (ST). -/
def UPL.SMTIM : Fld := ⟨0x10, 2, 1, 0⟩
/-- UPL.DEGTHR, R124 (ST). -/
def UPL.DEGTHR : Fld := ⟨0x10, 3, 23, 4⟩
/-- UPL.DEGM, R124 (ST). -/
def UPL.DEGM : Fld := ⟨0x10, 3, 3, 0⟩
/-- UPL.GCCSEL, R124 (ST). -/
def UPL.GCCSEL : Fld := ⟨0x10, 4, 9, 8⟩
/-- UPL.GCCDNEN, R124 (ST). -/
def UPL.GCCDNEN : Fld := ⟨0x10, 4, 6, 6⟩
/-- UPL.GCCQD, R124 (ST). -/
def UPL.GCCQD : Fld := ⟨0x10, 4, 5, 4⟩
/-- UPL.GCCUPEN, R124 (ST). -/
def UPL.GCCUPEN : Fld := ⟨0x10, 4, 3, 3⟩
/-- UPL.GCCQU, R124 (ST). -/
def UPL.GCCQU : Fld := ⟨0x10, 4, 2, 0⟩
/-- UPL.FRF, R124 (ST). -/
def UPL.FRF : Fld := ⟨0x10, 5, 3, 3⟩
/-- UPL.FBDI, R124 (ST). -/
def UPL.FBDI : Fld := ⟨0x10, 5, 2, 2⟩
/-- UPL.TXSTAT, R124 (ST). -/
def UPL.TXSTAT : Fld := ⟨0x10, 5, 1, 0⟩
/-- UPL.CAUSEEN, R124 (ST). -/
def UPL.CAUSEEN : Fld := ⟨0x10, 6, 30, 0⟩
/-- UPL.TXTTI, R124 (ST). -/
def UPL.TXTTI : Fld := ⟨0x10, 8, 31, 0⟩
/-- UPL.EXPSM, R124 (ST). -/
def UPL.EXPSM : Fld := ⟨0x10, 16, 31, 0⟩
/-- UPL.EXPPM, R124 (ST). -/
def UPL.EXPPM : Fld := ⟨0x10, 24, 31, 0⟩

/-- Words of UPLSTAT (table 0x11), 05_uplink_framing.md. -/
def UPLSTAT.words : List WSpec := [
  ⟨0, 3, 2, 0, 0, .status, 0x67FFFFFF#32, 0x0#32, 0x0#32⟩,
  ⟨0, 3, 2, 1, 1, .status, 0x7FFFFFFF#32, 0x7FFFFFFF#32, 0x0#32⟩,
  ⟨0, 3, 2, 2, 2, .status, 0x177FF#32, 0x0#32, 0x0#32⟩,
  ⟨0, 3, 2, 3, 3, .status, 0xFFFFFFFF#32, 0x0#32, 0x80008000#32⟩,
  ⟨0, 3, 2, 4, 4, .status, 0xFFFFFFFF#32, 0x0#32, 0x0#32⟩,
  ⟨0, 3, 2, 5, 5, .status, 0xFFFF#32, 0x0#32, 0x0#32⟩,
  ⟨0, 3, 2, 8, 23, .status, 0xFFFFFFFF#32, 0x0#32, 0x0#32⟩,
  ⟨0, 3, 2, 24, 39, .status, 0xFFFFFFFF#32, 0x0#32, 0x0#32⟩,
  ⟨0, 3, 2, 40, 40, .status, 0xFFFFFFFF#32, 0x0#32, 0x0#32⟩,
  ⟨0, 3, 2, 41, 41, .status, 0xFFFFFFFF#32, 0x0#32, 0x0#32⟩,
  ⟨0, 3, 2, 42, 42, .status, 0xFFFFFFFF#32, 0x0#32, 0x0#32⟩,
  ⟨0, 3, 2, 43, 43, .status, 0xFFFFFFFF#32, 0x0#32, 0x0#32⟩,
  ⟨0, 3, 2, 44, 44, .status, 0xFFFFFFFF#32, 0x0#32, 0x0#32⟩,
  ⟨0, 3, 2, 45, 45, .status, 0xFFFFFFFF#32, 0x0#32, 0x0#32⟩,
  ⟨0, 3, 2, 46, 46, .status, 0xFFFFFFFF#32, 0x0#32, 0x0#32⟩,
  ⟨0, 3, 2, 47, 47, .status, 0xFFFFFFFF#32, 0x0#32, 0x0#32⟩,
  ⟨0, 3, 2, 48, 48, .status, 0xFFFFFFFF#32, 0x0#32, 0x0#32⟩,
  ⟨0, 3, 2, 49, 49, .status, 0xFFFFFFFF#32, 0x0#32, 0x0#32⟩,
  ⟨0, 3, 2, 50, 50, .status, 0xFFFFFFFF#32, 0x0#32, 0x0#32⟩,
  ⟨0, 3, 2, 51, 51, .status, 0xFFFFFFFF#32, 0x0#32, 0x0#32⟩,
  ⟨0, 3, 2, 52, 52, .status, 0xFFFFFFFF#32, 0x0#32, 0x0#32⟩,
  ⟨0, 3, 2, 53, 53, .status, 0xFFFFFFFF#32, 0x0#32, 0x0#32⟩,
  ⟨0, 3, 2, 54, 54, .status, 0xFFFFFFFF#32, 0x0#32, 0x0#32⟩,
  ⟨0, 3, 2, 55, 55, .status, 0xFFFFFFFF#32, 0x0#32, 0x0#32⟩]

/-- UPLSTAT.SF, R126 (RO). -/
def UPLSTAT.SF : Fld := ⟨0x11, 0, 30, 30⟩
/-- UPLSTAT.SD, R126 (RO). -/
def UPLSTAT.SD : Fld := ⟨0x11, 0, 29, 29⟩
/-- UPLSTAT.DEF, R126 (RO). -/
def UPLSTAT.DEF : Fld := ⟨0x11, 0, 26, 0⟩
/-- UPLSTAT.MONALM, R126 (RO). -/
def UPLSTAT.MONALM : Fld := ⟨0x11, 2, 16, 16⟩
/-- UPLSTAT.ACCTCM, R126 (RO). -/
def UPLSTAT.ACCTCM : Fld := ⟨0x11, 2, 14, 12⟩
/-- UPLSTAT.ACCPM, R126 (RO). -/
def UPLSTAT.ACCPM : Fld := ⟨0x11, 2, 10, 8⟩
/-- UPLSTAT.ACCPT, R126 (RO). -/
def UPLSTAT.ACCPT : Fld := ⟨0x11, 2, 7, 0⟩
/-- UPLSTAT.TXPWR, R126 (RO). -/
def UPLSTAT.TXPWR : Fld := ⟨0x11, 3, 31, 16⟩
/-- UPLSTAT.RXPWR, R126 (RO). -/
def UPLSTAT.RXPWR : Fld := ⟨0x11, 3, 15, 0⟩
/-- UPLSTAT.TEMP, R126 (RO). -/
def UPLSTAT.TEMP : Fld := ⟨0x11, 4, 31, 16⟩
/-- UPLSTAT.LASBIAS, R126 (RO). -/
def UPLSTAT.LASBIAS : Fld := ⟨0x11, 4, 15, 0⟩
/-- UPLSTAT.RXPPM, R126 (RO). -/
def UPLSTAT.RXPPM : Fld := ⟨0x11, 5, 15, 0⟩
/-- UPLSTAT.RXSM, R126 (RO). -/
def UPLSTAT.RXSM : Fld := ⟨0x11, 8, 31, 0⟩
/-- UPLSTAT.RXPM, R126 (RO). -/
def UPLSTAT.RXPM : Fld := ⟨0x11, 24, 31, 0⟩
/-- UPLSTAT.SMBIP, R127 (RO). -/
def UPLSTAT.SMBIP : Fld := ⟨0x11, 40, 31, 0⟩
/-- UPLSTAT.SMBEI, R127 (RO). -/
def UPLSTAT.SMBEI : Fld := ⟨0x11, 41, 31, 0⟩
/-- UPLSTAT.PMBIP, R127 (RO). -/
def UPLSTAT.PMBIP : Fld := ⟨0x11, 42, 31, 0⟩
/-- UPLSTAT.PMBEI, R127 (RO). -/
def UPLSTAT.PMBEI : Fld := ⟨0x11, 43, 31, 0⟩
/-- UPLSTAT.TCMBIP, R127 (RO). -/
def UPLSTAT.TCMBIP : Fld := ⟨0x11, 44, 31, 0⟩
/-- UPLSTAT.TCMBEI, R127 (RO). -/
def UPLSTAT.TCMBEI : Fld := ⟨0x11, 45, 31, 0⟩
/-- UPLSTAT.FECCOR, R127 (RO). -/
def UPLSTAT.FECCOR : Fld := ⟨0x11, 46, 31, 0⟩
/-- UPLSTAT.FECCW, R127 (RO). -/
def UPLSTAT.FECCW : Fld := ⟨0x11, 47, 31, 0⟩
/-- UPLSTAT.FECUNC, R127 (RO). -/
def UPLSTAT.FECUNC : Fld := ⟨0x11, 48, 31, 0⟩
/-- UPLSTAT.ERRBLK, R127 (RO). -/
def UPLSTAT.ERRBLK : Fld := ⟨0x11, 49, 31, 0⟩
/-- UPLSTAT.BADSH, R127 (RO). -/
def UPLSTAT.BADSH : Fld := ⟨0x11, 50, 31, 0⟩
/-- UPLSTAT.PRBSERR, R127 (RO). -/
def UPLSTAT.PRBSERR : Fld := ⟨0x11, 51, 31, 0⟩
/-- UPLSTAT.OOFEVT, R127 (RO). -/
def UPLSTAT.OOFEVT : Fld := ⟨0x11, 52, 31, 0⟩
/-- UPLSTAT.SFTICK, R127 (RO). -/
def UPLSTAT.SFTICK : Fld := ⟨0x11, 53, 31, 0⟩
/-- UPLSTAT.SDTICK, R127 (RO). -/
def UPLSTAT.SDTICK : Fld := ⟨0x11, 54, 31, 0⟩
/-- UPLSTAT.GCCDROP, R127 (RO). -/
def UPLSTAT.GCCDROP : Fld := ⟨0x11, 55, 31, 0⟩
/-- UPLSTAT.CAUSE, every cause bit of word 1, R126 (RC). -/
def UPLSTAT.CAUSE : Fld := ⟨0x11, 1, 30, 0⟩

/-- Words of TRIB (table 0x12), 06_uplink_mapping_protection.md. -/
def TRIB.words : List WSpec := [
  ⟨0, 255, 2, 0, 0, .st, 0xFC7F0FFF#32, 0x0#32, 0x0#32⟩,
  ⟨0, 255, 2, 1, 1, .st, 0xFFFFF000#32, 0x0#32, 0x10000#32⟩,
  ⟨0, 255, 2, 2, 2, .st, 0xFF003FFF#32, 0x0#32, 0x10005F2#32⟩,
  ⟨0, 255, 2, 3, 3, .st, 0xFFFF0000#32, 0x0#32, 0x0#32⟩,
  ⟨0, 255, 2, 4, 4, .st, 0xFFFFFFFF#32, 0x0#32, 0x0#32⟩,
  ⟨0, 255, 2, 5, 5, .st, 0x17#32, 0x0#32, 0x0#32⟩]

/-- TRIB.VALID, R158 (ST). -/
def TRIB.VALID : Fld := ⟨0x12, 0, 31, 31⟩
/-- TRIB.ENDN, R158 (ST). -/
def TRIB.ENDN : Fld := ⟨0x12, 0, 30, 30⟩
/-- TRIB.ENUP, R158 (ST). -/
def TRIB.ENUP : Fld := ⟨0x12, 0, 29, 29⟩
/-- TRIB.PFCS, R158 (ST). -/
def TRIB.PFCS : Fld := ⟨0x12, 0, 28, 28⟩
/-- TRIB.UPL, R158 (ST). -/
def TRIB.UPL : Fld := ⟨0x12, 0, 27, 26⟩
/-- TRIB.DROP, R158 (ST). -/
def TRIB.DROP : Fld := ⟨0x12, 0, 22, 16⟩
/-- TRIB.KEY, R158 (ST). -/
def TRIB.KEY : Fld := ⟨0x12, 0, 11, 0⟩
/-- TRIB.DCID, R158 (ST). -/
def TRIB.DCID : Fld := ⟨0x12, 1, 31, 24⟩
/-- TRIB.UPI, R158 (ST). -/
def TRIB.UPI : Fld := ⟨0x12, 1, 23, 16⟩
/-- TRIB.PCP, R158 (ST). -/
def TRIB.PCP : Fld := ⟨0x12, 1, 15, 13⟩
/-- TRIB.DEI, R158 (ST). -/
def TRIB.DEI : Fld := ⟨0x12, 1, 12, 12⟩
/-- TRIB.WEIGHT, R158 (ST). -/
def TRIB.WEIGHT : Fld := ⟨0x12, 2, 31, 24⟩
/-- TRIB.MAXLEN, R158 (ST). -/
def TRIB.MAXLEN : Fld := ⟨0x12, 2, 13, 0⟩
/-- TRIB.UPCAP, R158 (ST). -/
def TRIB.UPCAP : Fld := ⟨0x12, 3, 31, 16⟩
/-- TRIB.DNLIM, R158 (ST). -/
def TRIB.DNLIM : Fld := ⟨0x12, 4, 31, 16⟩
/-- TRIB.UPLIM, R158 (ST). -/
def TRIB.UPLIM : Fld := ⟨0x12, 4, 15, 0⟩
/-- TRIB.CNTEN, R158 (ST). -/
def TRIB.CNTEN : Fld := ⟨0x12, 5, 4, 4⟩
/-- TRIB.CNTQ, R158 (ST). -/
def TRIB.CNTQ : Fld := ⟨0x12, 5, 2, 0⟩

/-- Words of APS (table 0x13), 06_uplink_mapping_protection.md. -/
def APS.words : List WSpec := [
  ⟨0, 1, 2, 0, 0, .st, 0xFF003FFF#32, 0x0#32, 0x0#32⟩,
  ⟨0, 1, 2, 1, 1, .st, 0xFFFFF#32, 0x0#32, 0x493E0#32⟩,
  ⟨0, 1, 2, 2, 2, .st, 0xFF#32, 0x0#32, 0x0#32⟩,
  ⟨0, 1, 2, 8, 8, .status, 0xFFFF0000#32, 0x0#32, 0x0#32⟩,
  ⟨0, 1, 2, 9, 9, .status, 0xFFFFFFFF#32, 0x0#32, 0x0#32⟩,
  ⟨0, 1, 2, 10, 10, .status, 0xFFFFFFFF#32, 0x0#32, 0x0#32⟩,
  ⟨0, 1, 2, 11, 11, .status, 0xFF#32, 0xFF#32, 0x0#32⟩,
  ⟨0, 1, 2, 12, 12, .status, 0xFFFFFFFF#32, 0x0#32, 0x0#32⟩,
  ⟨0, 1, 2, 13, 13, .status, 0xFFFFFFFF#32, 0x0#32, 0x0#32⟩,
  ⟨0, 1, 2, 14, 14, .status, 0xFFFFFFFF#32, 0x0#32, 0x0#32⟩,
  ⟨0, 1, 2, 15, 15, .status, 0xFFFFFFFF#32, 0x0#32, 0x0#32⟩]

/-- APS.MODE, R159 (ST). -/
def APS.MODE : Fld := ⟨0x13, 0, 31, 30⟩
/-- APS.REVERT, R159 (ST). -/
def APS.REVERT : Fld := ⟨0x13, 0, 29, 29⟩
/-- APS.SDEN, R159 (ST). -/
def APS.SDEN : Fld := ⟨0x13, 0, 28, 28⟩
/-- APS.EXTCMD, R159 (ST). -/
def APS.EXTCMD : Fld := ⟨0x13, 0, 27, 24⟩
/-- APS.HOLDOFF, R159 (ST). -/
def APS.HOLDOFF : Fld := ⟨0x13, 0, 13, 0⟩
/-- APS.WTR, R159 (ST). -/
def APS.WTR : Fld := ⟨0x13, 1, 19, 0⟩
/-- APS.CAUSEEN, R159 (ST). -/
def APS.CAUSEEN : Fld := ⟨0x13, 2, 7, 0⟩
/-- APS.ACTIVE, R159 (RO). -/
def APS.ACTIVE : Fld := ⟨0x13, 8, 31, 31⟩
/-- APS.FOPPM, R159 (RO). -/
def APS.FOPPM : Fld := ⟨0x13, 8, 30, 30⟩
/-- APS.FOPNR, R159 (RO). -/
def APS.FOPNR : Fld := ⟨0x13, 8, 29, 29⟩
/-- APS.WTRRUN, R159 (RO). -/
def APS.WTRRUN : Fld := ⟨0x13, 8, 28, 28⟩
/-- APS.HOLDRUN, R159 (RO). -/
def APS.HOLDRUN : Fld := ⟨0x13, 8, 27, 27⟩
/-- APS.CMDACT, R159 (RO). -/
def APS.CMDACT : Fld := ⟨0x13, 8, 26, 26⟩
/-- APS.LFDW, R159 (RO). -/
def APS.LFDW : Fld := ⟨0x13, 8, 25, 25⟩
/-- APS.LFDP, R159 (RO). -/
def APS.LFDP : Fld := ⟨0x13, 8, 24, 24⟩
/-- APS.LREQ, R159 (RO). -/
def APS.LREQ : Fld := ⟨0x13, 8, 23, 20⟩
/-- APS.RREQ, R159 (RO). -/
def APS.RREQ : Fld := ⟨0x13, 8, 19, 16⟩
/-- APS.TXAPS, R159 (RO). -/
def APS.TXAPS : Fld := ⟨0x13, 9, 31, 0⟩
/-- APS.RXAPS, R159 (RO). -/
def APS.RXAPS : Fld := ⟨0x13, 10, 31, 0⟩
/-- APS.CAUSE, R159 (RC). -/
def APS.CAUSE : Fld := ⟨0x13, 11, 7, 0⟩
/-- APS.SWITCHES, R159 (RO). -/
def APS.SWITCHES : Fld := ⟨0x13, 12, 31, 0⟩
/-- APS.HECCOR0, R159 (RO). -/
def APS.HECCOR0 : Fld := ⟨0x13, 13, 31, 16⟩
/-- APS.HECCOR1, R159 (RO). -/
def APS.HECCOR1 : Fld := ⟨0x13, 13, 15, 0⟩
/-- APS.HECUNC0, R159 (RO). -/
def APS.HECUNC0 : Fld := ⟨0x13, 14, 31, 16⟩
/-- APS.HECUNC1, R159 (RO). -/
def APS.HECUNC1 : Fld := ⟨0x13, 14, 15, 0⟩
/-- APS.UNKNOWN0, R159 (RO). -/
def APS.UNKNOWN0 : Fld := ⟨0x13, 15, 31, 16⟩
/-- APS.UNKNOWN1, R159 (RO). -/
def APS.UNKNOWN1 : Fld := ⟨0x13, 15, 15, 0⟩

/-- Words of DROP (table 0x20), 08_drop_ports.md. -/
def DROP.words : List WSpec := [
  ⟨0, 63, 2, 0, 0, .st, 0xCF0770FF#32, 0x0#32, 0x3100C#32⟩,
  ⟨64, 95, 2, 0, 0, .st, 0xCF0770FF#32, 0x0#32, 0x4400C#32⟩,
  ⟨0, 95, 2, 1, 1, .st, 0xFFFFFFFF#32, 0x0#32, 0x41F40#32⟩,
  ⟨0, 95, 2, 2, 2, .st, 0xFFFFFFFF#32, 0x0#32, 0x0#32⟩,
  ⟨0, 95, 2, 3, 3, .st, 0xFEFEFE00#32, 0x0#32, 0x0#32⟩,
  ⟨0, 95, 2, 4, 4, .st, 0xFFFF#32, 0x0#32, 0x3405#32⟩,
  ⟨0, 95, 2, 5, 5, .st, 0xFFFFFFFF#32, 0x0#32, 0x0#32⟩]

/-- DROP.EN, R217 (ST). -/
def DROP.EN : Fld := ⟨0x20, 0, 31, 31⟩
/-- DROP.PAIRED, R217 (ST). -/
def DROP.PAIRED : Fld := ⟨0x20, 0, 30, 30⟩
/-- DROP.TRAINSEQ, R217 (ST). -/
def DROP.TRAINSEQ : Fld := ⟨0x20, 0, 27, 24⟩
/-- DROP.MODE, R217 (ST). -/
def DROP.MODE : Fld := ⟨0x20, 0, 18, 16⟩
/-- DROP.MINMODE, R217 (ST). -/
def DROP.MINMODE : Fld := ⟨0x20, 0, 14, 12⟩
/-- DROP.MARGIN, R217 (ST). -/
def DROP.MARGIN : Fld := ⟨0x20, 0, 7, 0⟩
/-- DROP.LOFRT, R217 (ST). -/
def DROP.LOFRT : Fld := ⟨0x20, 1, 31, 16⟩
/-- DROP.RETRYGAP, R217 (ST). -/
def DROP.RETRYGAP : Fld := ⟨0x20, 1, 15, 0⟩
/-- DROP.ASYM, R217 (ST). -/
def DROP.ASYM : Fld := ⟨0x20, 2, 31, 0⟩
/-- DROP.MCHUEN, R217 (ST). -/
def DROP.MCHUEN : Fld := ⟨0x20, 3, 31, 31⟩
/-- DROP.MCHUQ, R217 (ST). -/
def DROP.MCHUQ : Fld := ⟨0x20, 3, 30, 28⟩
/-- DROP.MCHDEN, R217 (ST). -/
def DROP.MCHDEN : Fld := ⟨0x20, 3, 27, 27⟩
/-- DROP.MCHDQ, R217 (ST). -/
def DROP.MCHDQ : Fld := ⟨0x20, 3, 26, 25⟩
/-- DROP.MBKUEN, R217 (ST). -/
def DROP.MBKUEN : Fld := ⟨0x20, 3, 23, 23⟩
/-- DROP.MBKUQ, R217 (ST). -/
def DROP.MBKUQ : Fld := ⟨0x20, 3, 22, 20⟩
/-- DROP.MBKDEN, R217 (ST). -/
def DROP.MBKDEN : Fld := ⟨0x20, 3, 19, 19⟩
/-- DROP.MBKDQ, R217 (ST). -/
def DROP.MBKDQ : Fld := ⟨0x20, 3, 18, 17⟩
/-- DROP.SNSUEN, R217 (ST). -/
def DROP.SNSUEN : Fld := ⟨0x20, 3, 15, 15⟩
/-- DROP.SNSUQ, R217 (ST). -/
def DROP.SNSUQ : Fld := ⟨0x20, 3, 14, 12⟩
/-- DROP.SNSDEN, R217 (ST). -/
def DROP.SNSDEN : Fld := ⟨0x20, 3, 11, 11⟩
/-- DROP.SNSDQ, R217 (ST). -/
def DROP.SNSDQ : Fld := ⟨0x20, 3, 10, 9⟩
/-- DROP.SUMEN, R217 (ST). -/
def DROP.SUMEN : Fld := ⟨0x20, 4, 15, 0⟩
/-- DROP.CAUSEEN, R217 (ST). -/
def DROP.CAUSEEN : Fld := ⟨0x20, 5, 31, 0⟩

/-- Words of DROPSTAT (table 0x21), 08_drop_ports.md. -/
def DROPSTAT.words : List WSpec := [
  ⟨0, 95, 2, 0, 0, .status, 0xF700FFFF#32, 0x0#32, 0x0#32⟩,
  ⟨0, 95, 2, 1, 1, .status, 0xC000FFFF#32, 0xC000FFFF#32, 0x0#32⟩,
  ⟨0, 95, 2, 2, 2, .status, 0xFFFFFFFF#32, 0x0#32, 0xFFFF0000#32⟩,
  ⟨0, 63, 2, 3, 3, .status, 0xFFFFFFFF#32, 0x0#32, 0x0#32⟩,
  ⟨64, 95, 2, 3, 3, .status, 0xFFFFFFFF#32, 0x0#32, 0x80008000#32⟩,
  ⟨0, 95, 2, 4, 4, .status, 0xFFFFFFFF#32, 0x0#32, 0x0#32⟩,
  ⟨0, 95, 2, 5, 8, .status, 0xFFFFFFFF#32, 0x0#32, 0x0#32⟩,
  ⟨0, 95, 2, 9, 9, .status, 0xFFFFFFFF#32, 0x0#32, 0x0#32⟩,
  ⟨0, 95, 2, 10, 10, .status, 0xFFFFFFFF#32, 0x0#32, 0x0#32⟩,
  ⟨0, 95, 2, 11, 11, .status, 0xFFFFFFFF#32, 0x0#32, 0x0#32⟩,
  ⟨0, 95, 2, 12, 12, .status, 0xFFFFFFFF#32, 0x0#32, 0x0#32⟩,
  ⟨0, 95, 2, 13, 13, .status, 0xFFFFFFFF#32, 0x0#32, 0x0#32⟩,
  ⟨0, 95, 2, 14, 14, .status, 0xFFFFFFFF#32, 0x0#32, 0x0#32⟩,
  ⟨0, 95, 2, 15, 15, .status, 0xFFFFFFFF#32, 0x0#32, 0x0#32⟩,
  ⟨0, 95, 2, 16, 16, .status, 0xFFFFFFFF#32, 0x0#32, 0x0#32⟩,
  ⟨0, 95, 2, 17, 17, .status, 0xFFFFFFFF#32, 0x0#32, 0x0#32⟩,
  ⟨0, 95, 2, 18, 18, .status, 0xFFFFFFFF#32, 0x0#32, 0x0#32⟩,
  ⟨0, 95, 2, 19, 19, .status, 0xFFFFFFFF#32, 0x0#32, 0x0#32⟩,
  ⟨0, 95, 2, 20, 20, .status, 0xFFFFFFFF#32, 0x0#32, 0x0#32⟩]

/-- DROPSTAT.PSTATE, R219 (RO). -/
def DROPSTAT.PSTATE : Fld := ⟨0x21, 0, 31, 28⟩
/-- DROPSTAT.RUNMODE, R219 (RO). -/
def DROPSTAT.RUNMODE : Fld := ⟨0x21, 0, 26, 24⟩
/-- DROPSTAT.DEF, R219 (RO). -/
def DROPSTAT.DEF : Fld := ⟨0x21, 0, 15, 0⟩
/-- DROPSTAT.SNRUP, R219 (RO). -/
def DROPSTAT.SNRUP : Fld := ⟨0x21, 2, 31, 24⟩
/-- DROPSTAT.SNRDN, R219 (RO). -/
def DROPSTAT.SNRDN : Fld := ⟨0x21, 2, 23, 16⟩
/-- DROPSTAT.NOISE, R219 (RO). -/
def DROPSTAT.NOISE : Fld := ⟨0x21, 2, 15, 8⟩
/-- DROPSTAT.BESTMODE, R219 (RO). -/
def DROPSTAT.BESTMODE : Fld := ⟨0x21, 2, 7, 0⟩
/-- DROPSTAT.ATTEN / TXPWR, R219 (RO). -/
def DROPSTAT.ATTEN : Fld := ⟨0x21, 3, 31, 16⟩
/-- DROPSTAT.ERL / RXPWR, R219 (RO). -/
def DROPSTAT.ERL : Fld := ⟨0x21, 3, 15, 0⟩
/-- DROPSTAT.TEMP, R219 (RO). -/
def DROPSTAT.TEMP : Fld := ⟨0x21, 4, 31, 16⟩
/-- DROPSTAT.LASBIAS, R219 (RO). -/
def DROPSTAT.LASBIAS : Fld := ⟨0x21, 4, 15, 0⟩
/-- DROPSTAT.FEID, R219 (RO). -/
def DROPSTAT.FEID : Fld := ⟨0x21, 5, 31, 0⟩
/-- DROPSTAT.TRAINS, R219 (RO). -/
def DROPSTAT.TRAINS : Fld := ⟨0x21, 9, 31, 16⟩
/-- DROPSTAT.TRFAILS, R219 (RO). -/
def DROPSTAT.TRFAILS : Fld := ⟨0x21, 9, 15, 0⟩
/-- DROPSTAT.LOFEVT, R219 (RO). -/
def DROPSTAT.LOFEVT : Fld := ⟨0x21, 10, 31, 0⟩
/-- DROPSTAT.BADHDR, R219 (RO). -/
def DROPSTAT.BADHDR : Fld := ⟨0x21, 11, 31, 0⟩
/-- DROPSTAT.BIPERR, R219 (RO). -/
def DROPSTAT.BIPERR : Fld := ⟨0x21, 12, 31, 0⟩
/-- DROPSTAT.FEBIP, R219 (RO). -/
def DROPSTAT.FEBIP : Fld := ⟨0x21, 13, 31, 0⟩
/-- DROPSTAT.GFPCOR, R219 (RO). -/
def DROPSTAT.GFPCOR : Fld := ⟨0x21, 14, 31, 0⟩
/-- DROPSTAT.GFPUNC, R219 (RO). -/
def DROPSTAT.GFPUNC : Fld := ⟨0x21, 15, 31, 0⟩
/-- DROPSTAT.UNKDCID, R219 (RO). -/
def DROPSTAT.UNKDCID : Fld := ⟨0x21, 16, 31, 0⟩
/-- DROPSTAT.DNDARKR, R219 (RO). -/
def DROPSTAT.DNDARKR : Fld := ⟨0x21, 17, 31, 0⟩
/-- DROPSTAT.UPDARKR, R219 (RO). -/
def DROPSTAT.UPDARKR : Fld := ⟨0x21, 18, 31, 0⟩
/-- DROPSTAT.ESEC, R219 (RO). -/
def DROPSTAT.ESEC : Fld := ⟨0x21, 19, 31, 0⟩
/-- DROPSTAT.LOFSEC, R219 (RO). -/
def DROPSTAT.LOFSEC : Fld := ⟨0x21, 20, 31, 0⟩
/-- DROPSTAT.CAUSE, every cause bit of word 1, R219 (RC). -/
def DROPSTAT.CAUSE : Fld := ⟨0x21, 1, 31, 0⟩

/-- Words of SLOTMAP (table 0x22), 07_drop_frame.md. -/
def SLOTMAP.words : List WSpec := [
  ⟨0, 191, 2, 0, 55, .st, 0xFFFFFFFF#32, 0x0#32, 0x0#32⟩,
  ⟨0, 191, 2, 56, 56, .st, 0xFFFFFFFF#32, 0x0#32, 0x0#32⟩,
  ⟨0, 191, 2, 57, 57, .st, 0xFFFFFFFF#32, 0x0#32, 0x0#32⟩,
  ⟨0, 191, 2, 58, 58, .st, 0xFFFFFFFF#32, 0x0#32, 0x0#32⟩,
  ⟨0, 191, 2, 59, 59, .st, 0xFFFFFFFF#32, 0x0#32, 0x0#32⟩,
  ⟨0, 191, 2, 60, 60, .st, 0x7F000000#32, 0x0#32, 0x0#32⟩,
  ⟨0, 191, 0, 61, 61, .st, 0x800000FF#32, 0x0#32, 0x0#32⟩,
  ⟨0, 191, 1, 61, 61, .st, 0x80000000#32, 0x0#32, 0x0#32⟩,
  ⟨0, 191, 0, 62, 62, .status, 0xFFFFFFFF#32, 0x0#32, 0x0#32⟩,
  ⟨0, 191, 0, 63, 63, .status, 0xFF#32, 0xFF#32, 0x0#32⟩,
  ⟨0, 191, 1, 62, 62, .status, 0xFFFFFFFF#32, 0x0#32, 0xFFFFFFFF#32⟩,
  ⟨0, 191, 1, 63, 63, .status, 0x1FFFFFF#32, 0x0#32, 0x0#32⟩]

/-- SLOTMAP.RUN0–RUN55, R195 (ST). -/
def SLOTMAP.RUN : Fld := ⟨0x22, 0, 31, 0⟩
/-- SLOTMAP.DNDARK[63:32], R195 (ST). -/
def SLOTMAP.DNDARKHI : Fld := ⟨0x22, 56, 31, 0⟩
/-- SLOTMAP.DNDARK[31:0], R195 (ST). -/
def SLOTMAP.DNDARKLO : Fld := ⟨0x22, 57, 31, 0⟩
/-- SLOTMAP.UPDARK[63:32], R195 (ST). -/
def SLOTMAP.UPDARKHI : Fld := ⟨0x22, 58, 31, 0⟩
/-- SLOTMAP.UPDARK[31:0], R195 (ST). -/
def SLOTMAP.UPDARKLO : Fld := ⟨0x22, 59, 31, 0⟩
/-- SLOTMAP.DYNDARK, R195 (ST). -/
def SLOTMAP.DYNDARK : Fld := ⟨0x22, 60, 30, 30⟩
/-- SLOTMAP.RUNS, R195 (ST). -/
def SLOTMAP.RUNS : Fld := ⟨0x22, 60, 29, 24⟩
/-- SLOTMAP.OFFER, R195 (ST). -/
def SLOTMAP.OFFER : Fld := ⟨0x22, 61, 31, 31⟩
/-- SLOTMAP.CAUSEEN, R195 (ST). -/
def SLOTMAP.CAUSEEN : Fld := ⟨0x22, 61, 7, 0⟩
/-- SLOTMAP.INUSE, R195 (RO). -/
def SLOTMAP.INUSE : Fld := ⟨0x22, 62, 31, 31⟩
/-- SLOTMAP.STATE, R195 (RO). -/
def SLOTMAP.STATE : Fld := ⟨0x22, 62, 30, 28⟩
/-- SLOTMAP.SMFLT, R195 (RO). -/
def SLOTMAP.SMFLT : Fld := ⟨0x22, 62, 27, 27⟩
/-- SLOTMAP.SMMIS, R195 (RO). -/
def SLOTMAP.SMMIS : Fld := ⟨0x22, 62, 26, 26⟩
/-- SLOTMAP.RANGE, R195 (RO). -/
def SLOTMAP.RANGE : Fld := ⟨0x22, 62, 25, 25⟩
/-- SLOTMAP.XCON, R195 (RO). -/
def SLOTMAP.XCON : Fld := ⟨0x22, 62, 24, 24⟩
/-- SLOTMAP.GENLIVE, R195 (RO). -/
def SLOTMAP.GENLIVE : Fld := ⟨0x22, 62, 23, 16⟩
/-- SLOTMAP.GENNEXT, R195 (RO). -/
def SLOTMAP.GENNEXT : Fld := ⟨0x22, 62, 15, 8⟩
/-- SLOTMAP.FELIVE, R195 (RO). -/
def SLOTMAP.FELIVE : Fld := ⟨0x22, 62, 7, 0⟩
/-- SLOTMAP.CAUSE, R195 (RC). -/
def SLOTMAP.CAUSE : Fld := ⟨0x22, 63, 7, 0⟩
/-- SLOTMAP.DELAYNOW, R195 (RO). -/
def SLOTMAP.DELAYNOW : Fld := ⟨0x22, 62, 31, 0⟩
/-- SLOTMAP.FESTORED, R195 (RO). -/
def SLOTMAP.FESTORED : Fld := ⟨0x22, 63, 24, 24⟩
/-- SLOTMAP.FEECHO, R195 (RO). -/
def SLOTMAP.FEECHO : Fld := ⟨0x22, 63, 23, 16⟩
/-- SLOTMAP.RTTNS, R195 (RO). -/
def SLOTMAP.RTTNS : Fld := ⟨0x22, 63, 15, 0⟩

/-- Words of XBAR (table 0x30), 09_meadow_crossbar_grooming.md. -/
def XBAR.words : List WSpec := [
  ⟨0, 0, 2, 0, 0, .st, 0x3FF03FF#32, 0x0#32, 0xF000F0#32⟩,
  ⟨0, 0, 2, 1, 1, .st, 0x8000000F#32, 0x0#32, 0x0#32⟩,
  ⟨0, 0, 2, 2, 2, .st, 0xFF#32, 0x0#32, 0xC1#32⟩,
  ⟨0, 0, 2, 3, 3, .st, 0x3FFFFFFF#32, 0x0#32, 0x24924924#32⟩,
  ⟨0, 0, 2, 4, 4, .st, 0x7FFFFFF#32, 0x0#32, 0x24924#32⟩]

/-- XBAR.DNPOOL, R245 (ST). -/
def XBAR.DNPOOL : Fld := ⟨0x30, 0, 25, 16⟩
/-- XBAR.UPPOOL, R245 (ST). -/
def XBAR.UPPOOL : Fld := ⟨0x30, 0, 9, 0⟩
/-- XBAR.GREN, R245 (ST). -/
def XBAR.GREN : Fld := ⟨0x30, 1, 31, 31⟩
/-- XBAR.XRECEN, R245 (ST). -/
def XBAR.XRECEN : Fld := ⟨0x30, 1, 3, 3⟩
/-- XBAR.XRECQ, R245 (ST). -/
def XBAR.XRECQ : Fld := ⟨0x30, 1, 2, 0⟩
/-- XBAR.LOCKEN, R245 (ST). -/
def XBAR.LOCKEN : Fld := ⟨0x30, 2, 7, 0⟩
/-- XBAR.PARK0–PARK9, R245 (ST). -/
def XBAR.PARKA : Fld := ⟨0x30, 3, 29, 0⟩
/-- XBAR.PARK10–PARK18, R245 (ST). -/
def XBAR.PARKB : Fld := ⟨0x30, 4, 26, 0⟩

/-- Words of GROOM (table 0x31), 09_meadow_crossbar_grooming.md. -/
def GROOM.words : List WSpec := [
  ⟨0, 1023, 2, 0, 0, .st, 0xC77F7F00#32, 0x0#32, 0x0#32⟩,
  ⟨0, 1023, 2, 1, 1, .st, 0xFFF0FFF#32, 0x0#32, 0x0#32⟩,
  ⟨0, 1023, 2, 2, 2, .st, 0x7F0FFF#32, 0x0#32, 0x0#32⟩]

/-- GROOM.VALID, R246 (ST). -/
def GROOM.VALID : Fld := ⟨0x31, 0, 31, 31⟩
/-- GROOM.SRCDIR, R246 (ST). -/
def GROOM.SRCDIR : Fld := ⟨0x31, 0, 30, 30⟩
/-- GROOM.TYPE, R246 (ST). -/
def GROOM.TYPE : Fld := ⟨0x31, 0, 26, 24⟩
/-- GROOM.SRCDROP, R246 (ST). -/
def GROOM.SRCDROP : Fld := ⟨0x31, 0, 22, 16⟩
/-- GROOM.HEIGHT, R246 (ST). -/
def GROOM.HEIGHT : Fld := ⟨0x31, 0, 14, 8⟩
/-- GROOM.SRCBLK, R246 (ST). -/
def GROOM.SRCBLK : Fld := ⟨0x31, 1, 27, 16⟩
/-- GROOM.WIDTH, R246 (ST). -/
def GROOM.WIDTH : Fld := ⟨0x31, 1, 11, 0⟩
/-- GROOM.DSTDROP, R246 (ST). -/
def GROOM.DSTDROP : Fld := ⟨0x31, 2, 22, 16⟩
/-- GROOM.DSTBLK, R246 (ST). -/
def GROOM.DSTBLK : Fld := ⟨0x31, 2, 11, 0⟩

/-- Words of QUEUE (table 0x38), 10_host_queues.md. -/
def QUEUE.words : List WSpec := [
  ⟨0, 11, 2, 0, 0, .st, 0x83FF01FF#32, 0x0#32, 0x0#32⟩,
  ⟨0, 11, 2, 1, 1, .st, 0xFFFFE00F#32, 0x0#32, 0x0#32⟩,
  ⟨0, 7, 2, 2, 2, .st, 0xC0000000#32, 0x0#32, 0x0#32⟩,
  ⟨8, 11, 2, 2, 2, .st, 0x0#32, 0x0#32, 0x0#32⟩,
  ⟨0, 11, 2, 4, 4, .status, 0xFFFFE000#32, 0x0#32, 0x0#32⟩,
  ⟨0, 11, 2, 5, 5, .status, 0xFFFF000F#32, 0xF#32, 0x0#32⟩,
  ⟨0, 11, 2, 6, 6, .status, 0xFFFFFFFF#32, 0x0#32, 0x0#32⟩,
  ⟨0, 11, 2, 7, 7, .status, 0xFFFFFFFF#32, 0x0#32, 0x0#32⟩]

/-- QUEUE.EN, R266 (ST). -/
def QUEUE.EN : Fld := ⟨0x38, 0, 31, 31⟩
/-- QUEUE.SIZE, R266 (ST). -/
def QUEUE.SIZE : Fld := ⟨0x38, 0, 25, 16⟩
/-- QUEUE.BASE, R266 (ST). -/
def QUEUE.BASE : Fld := ⟨0x38, 0, 8, 0⟩
/-- QUEUE.LVL, R266 (ST). -/
def QUEUE.LVL : Fld := ⟨0x38, 1, 31, 13⟩
/-- QUEUE.CAUSEEN, R266 (ST). -/
def QUEUE.CAUSEEN : Fld := ⟨0x38, 1, 3, 0⟩
/-- QUEUE.FRDIS, R266 (ST). -/
def QUEUE.FRDIS : Fld := ⟨0x38, 2, 31, 31⟩
/-- QUEUE.FRTKO, R266 (ST). -/
def QUEUE.FRTKO : Fld := ⟨0x38, 2, 30, 30⟩
/-- QUEUE.USED, R266 (RO). -/
def QUEUE.USED : Fld := ⟨0x38, 4, 31, 13⟩
/-- QUEUE.ITEMS, R266 (RO). -/
def QUEUE.ITEMS : Fld := ⟨0x38, 5, 31, 16⟩
/-- QUEUE.CAUSE, R266 (RC). -/
def QUEUE.CAUSE : Fld := ⟨0x38, 5, 3, 0⟩
/-- QUEUE.DROPPED, R266 (RO). -/
def QUEUE.DROPPED : Fld := ⟨0x38, 6, 31, 0⟩
/-- QUEUE.REWOUND, R266 (RO). -/
def QUEUE.REWOUND : Fld := ⟨0x38, 7, 31, 16⟩
/-- QUEUE.FLUSHES, R266 (RO). -/
def QUEUE.FLUSHES : Fld := ⟨0x38, 7, 15, 0⟩

/-- Words of AUDIO (table 0x40), 11_audio_ports.md. -/
def AUDIO.words : List WSpec := [
  ⟨0, 7, 2, 0, 0, .st, 0xFFE0FFFF#32, 0x0#32, 0x0#32⟩,
  ⟨0, 7, 2, 1, 1, .st, 0xFFFF#32, 0x0#32, 0x0#32⟩,
  ⟨0, 7, 2, 2, 2, .st, 0xFF#32, 0x0#32, 0x0#32⟩,
  ⟨0, 7, 2, 8, 8, .status, 0xFF3F003F#32, 0x0#32, 0x0#32⟩,
  ⟨0, 7, 2, 9, 9, .status, 0xFFFFFFFF#32, 0x0#32, 0x80008000#32⟩,
  ⟨0, 7, 2, 10, 10, .status, 0xFFFF00FF#32, 0xFF#32, 0x0#32⟩,
  ⟨0, 7, 2, 11, 11, .status, 0xFFFFFFFF#32, 0x0#32, 0x0#32⟩,
  ⟨0, 7, 2, 12, 12, .status, 0xFFFFFFFF#32, 0x0#32, 0x0#32⟩,
  ⟨0, 7, 2, 13, 13, .status, 0xFFFFFFFF#32, 0x0#32, 0x0#32⟩,
  ⟨0, 7, 2, 14, 14, .status, 0xFFFFFFFF#32, 0x0#32, 0x0#32⟩,
  ⟨0, 7, 2, 15, 15, .status, 0xFFFFFFFF#32, 0x0#32, 0x0#32⟩]

/-- AUDIO.RXEN, R285 (ST). -/
def AUDIO.RXEN : Fld := ⟨0x40, 0, 31, 31⟩
/-- AUDIO.TXEN, R285 (ST). -/
def AUDIO.TXEN : Fld := ⟨0x40, 0, 30, 30⟩
/-- AUDIO.RXMST, R285 (ST). -/
def AUDIO.RXMST : Fld := ⟨0x40, 0, 29, 29⟩
/-- AUDIO.TXMST, R285 (ST). -/
def AUDIO.TXMST : Fld := ⟨0x40, 0, 28, 28⟩
/-- AUDIO.FMT, R285 (ST). -/
def AUDIO.FMT : Fld := ⟨0x40, 0, 27, 26⟩
/-- AUDIO.FS, R285 (ST). -/
def AUDIO.FS : Fld := ⟨0x40, 0, 25, 24⟩
/-- AUDIO.WLEN, R285 (ST). -/
def AUDIO.WLEN : Fld := ⟨0x40, 0, 23, 23⟩
/-- AUDIO.RXBCKINV, R285 (ST). -/
def AUDIO.RXBCKINV : Fld := ⟨0x40, 0, 22, 22⟩
/-- AUDIO.TXBCKINV, R285 (ST). -/
def AUDIO.TXBCKINV : Fld := ⟨0x40, 0, 21, 21⟩
/-- AUDIO.RXSLOTEN, R285 (ST). -/
def AUDIO.RXSLOTEN : Fld := ⟨0x40, 0, 15, 0⟩
/-- AUDIO.TXSLOTEN, R285 (ST). -/
def AUDIO.TXSLOTEN : Fld := ⟨0x40, 1, 15, 0⟩
/-- AUDIO.CAUSEEN, R285 (ST). -/
def AUDIO.CAUSEEN : Fld := ⟨0x40, 2, 7, 0⟩
/-- AUDIO.RXRUN, R285 (RO). -/
def AUDIO.RXRUN : Fld := ⟨0x40, 8, 31, 31⟩
/-- AUDIO.TXRUN, R285 (RO). -/
def AUDIO.TXRUN : Fld := ⟨0x40, 8, 30, 30⟩
/-- AUDIO.RXFILL, R285 (RO). -/
def AUDIO.RXFILL : Fld := ⟨0x40, 8, 29, 24⟩
/-- AUDIO.TXFILL, R285 (RO). -/
def AUDIO.TXFILL : Fld := ⟨0x40, 8, 21, 16⟩
/-- AUDIO.DEF, R285 (RO). -/
def AUDIO.DEF : Fld := ⟨0x40, 8, 5, 0⟩
/-- AUDIO.RXPPM, R285 (RO). -/
def AUDIO.RXPPM : Fld := ⟨0x40, 9, 31, 16⟩
/-- AUDIO.TXPPM, R285 (RO). -/
def AUDIO.TXPPM : Fld := ⟨0x40, 9, 15, 0⟩
/-- AUDIO.DISCARD, R285 (RO). -/
def AUDIO.DISCARD : Fld := ⟨0x40, 10, 31, 16⟩
/-- AUDIO.CAUSE, R285 (RC). -/
def AUDIO.CAUSE : Fld := ⟨0x40, 10, 7, 0⟩
/-- AUDIO.RXUNDER, R285 (RO). -/
def AUDIO.RXUNDER : Fld := ⟨0x40, 11, 31, 0⟩
/-- AUDIO.RXOVER, R285 (RO). -/
def AUDIO.RXOVER : Fld := ⟨0x40, 12, 31, 0⟩
/-- AUDIO.TXUNDER, R285 (RO). -/
def AUDIO.TXUNDER : Fld := ⟨0x40, 13, 31, 0⟩
/-- AUDIO.TXOVER, R285 (RO). -/
def AUDIO.TXOVER : Fld := ⟨0x40, 14, 31, 0⟩
/-- AUDIO.MISSING, R285 (RO). -/
def AUDIO.MISSING : Fld := ⟨0x40, 15, 31, 16⟩
/-- AUDIO.RATEMIS, R285 (RO). -/
def AUDIO.RATEMIS : Fld := ⟨0x40, 15, 15, 8⟩
/-- AUDIO.BADFRM, R285 (RO). -/
def AUDIO.BADFRM : Fld := ⟨0x40, 15, 7, 0⟩

/-- Words of AROUTE (table 0x41), 11_audio_ports.md. -/
def AROUTE.words : List WSpec := [
  ⟨0, 255, 2, 0, 0, .st, 0xE7F7F0FF#32, 0x0#32, 0x0#32⟩,
  ⟨0, 255, 2, 1, 1, .st, 0xFFFFFFFF#32, 0x0#32, 0x0#32⟩,
  ⟨0, 255, 2, 2, 2, .st, 0xFFFFFFFF#32, 0x0#32, 0x0#32⟩,
  ⟨0, 255, 2, 3, 3, .st, 0xFFFFFFFF#32, 0x0#32, 0x0#32⟩]

/-- AROUTE.VALID, R286 (ST). -/
def AROUTE.VALID : Fld := ⟨0x41, 0, 31, 31⟩
/-- AROUTE.DIR, R286 (ST). -/
def AROUTE.DIR : Fld := ⟨0x41, 0, 30, 30⟩
/-- AROUTE.ANN, R286 (ST). -/
def AROUTE.ANN : Fld := ⟨0x41, 0, 29, 29⟩
/-- AROUTE.PORT, R286 (ST). -/
def AROUTE.PORT : Fld := ⟨0x41, 0, 26, 24⟩
/-- AROUTE.SLOT, R286 (ST). -/
def AROUTE.SLOT : Fld := ⟨0x41, 0, 23, 20⟩
/-- AROUTE.DROP, R286 (ST). -/
def AROUTE.DROP : Fld := ⟨0x41, 0, 18, 12⟩
/-- AROUTE.CHAN, R286 (ST). -/
def AROUTE.CHAN : Fld := ⟨0x41, 0, 7, 0⟩
/-- AROUTE.DMASK0, R286 (ST). -/
def AROUTE.DMASK0 : Fld := ⟨0x41, 1, 31, 0⟩
/-- AROUTE.DMASK1, R286 (ST). -/
def AROUTE.DMASK1 : Fld := ⟨0x41, 2, 31, 0⟩
/-- AROUTE.DMASK2, R286 (ST). -/
def AROUTE.DMASK2 : Fld := ⟨0x41, 3, 31, 0⟩

/-- Words of TIME (table 0x50), 12_time.md. -/
def TIME.words : List WSpec := [
  ⟨0, 0, 2, 0, 0, .status, 0xFFFF#32, 0x0#32, 0x0#32⟩,
  ⟨0, 0, 2, 1, 1, .status, 0xFFFFFFFF#32, 0x0#32, 0x0#32⟩,
  ⟨0, 0, 2, 2, 2, .status, 0x3FFFFFFF#32, 0x0#32, 0x0#32⟩,
  ⟨0, 0, 2, 3, 4, .status, 0xFFFFFFFF#32, 0x0#32, 0x0#32⟩,
  ⟨0, 0, 2, 5, 6, .status, 0xFFFFFFFF#32, 0x0#32, 0x0#32⟩,
  ⟨0, 0, 2, 7, 7, .status, 0xFFFFFFFF#32, 0x0#32, 0x0#32⟩,
  ⟨0, 0, 2, 8, 9, .st, 0xFFFFFFFF#32, 0x0#32, 0x0#32⟩,
  ⟨0, 0, 2, 10, 10, .st, 0xFF0000FF#32, 0x0#32, 0x0#32⟩,
  ⟨0, 0, 2, 11, 11, .status, 0xFFFF00FF#32, 0xFF#32, 0x0#32⟩,
  ⟨0, 0, 2, 12, 12, .status, 0xFFFFFFFF#32, 0x0#32, 0x0#32⟩,
  ⟨0, 0, 2, 13, 13, .status, 0xFFFFFFFF#32, 0x0#32, 0x0#32⟩,
  ⟨1, 1, 2, 0, 0, .st, 0xFFEF0007#32, 0x0#32, 0x0#32⟩,
  ⟨1, 1, 2, 1, 1, .st, 0xFFF#32, 0x0#32, 0x0#32⟩,
  ⟨1, 1, 2, 8, 11, .status, 0xFFFFFFFF#32, 0x0#32, 0x0#32⟩,
  ⟨1, 1, 2, 12, 15, .status, 0xFFFFFFFF#32, 0x0#32, 0x0#32⟩,
  ⟨2, 5, 2, 0, 0, .st, 0xF0007FFF#32, 0x0#32, 0x20000000#32⟩,
  ⟨2, 5, 2, 1, 1, .st, 0xFF#32, 0x0#32, 0x0#32⟩,
  ⟨2, 5, 2, 8, 8, .status, 0x80007FFF#32, 0x0#32, 0x0#32⟩,
  ⟨2, 5, 2, 9, 9, .status, 0xFFFFFFFF#32, 0x0#32, 0x0#32⟩,
  ⟨2, 5, 2, 10, 10, .status, 0xFFFF#32, 0x0#32, 0x0#32⟩,
  ⟨2, 5, 2, 11, 11, .status, 0xFFFFFFFF#32, 0x0#32, 0x0#32⟩,
  ⟨2, 5, 2, 12, 12, .status, 0x3FFFFFFF#32, 0x0#32, 0x0#32⟩,
  ⟨2, 5, 2, 13, 13, .status, 0xFFFFFFFF#32, 0x0#32, 0x0#32⟩,
  ⟨2, 5, 2, 14, 14, .status, 0xFFFF0000#32, 0x0#32, 0x0#32⟩,
  ⟨2, 5, 2, 15, 15, .status, 0xFF#32, 0xFF#32, 0x0#32⟩,
  ⟨6, 13, 2, 0, 0, .st, 0xE00000FF#32, 0x0#32, 0x2#32⟩,
  ⟨6, 13, 2, 1, 1, .st, 0xFFFF#32, 0x0#32, 0x0#32⟩,
  ⟨6, 13, 2, 2, 2, .st, 0xFFFFFFFF#32, 0x0#32, 0x0#32⟩,
  ⟨6, 13, 2, 3, 3, .st, 0x3FFFFFFF#32, 0x0#32, 0x0#32⟩,
  ⟨6, 13, 2, 4, 4, .st, 0xFFFFFFFF#32, 0x0#32, 0x0#32⟩,
  ⟨6, 13, 2, 5, 5, .st, 0xFFFFFFFF#32, 0x0#32, 0x0#32⟩,
  ⟨6, 13, 2, 8, 8, .status, 0xE0000000#32, 0x0#32, 0x0#32⟩,
  ⟨6, 13, 2, 9, 9, .status, 0xFF#32, 0xFF#32, 0x0#32⟩,
  ⟨6, 13, 2, 10, 10, .status, 0xFFFFFFFF#32, 0x0#32, 0x0#32⟩,
  ⟨6, 13, 2, 11, 11, .status, 0xFFFFFFFF#32, 0x0#32, 0x0#32⟩,
  ⟨14, 14, 2, 0, 0, .st, 0xC00000FF#32, 0x0#32, 0x0#32⟩,
  ⟨14, 14, 2, 1, 1, .st, 0xFFFFFFFF#32, 0x0#32, 0x0#32⟩,
  ⟨14, 14, 2, 2, 2, .st, 0xFFFFFFFF#32, 0x0#32, 0xBEBC200#32⟩,
  ⟨14, 14, 2, 8, 8, .status, 0x80000000#32, 0x0#32, 0x0#32⟩,
  ⟨14, 14, 2, 9, 9, .status, 0xFF#32, 0xFF#32, 0x0#32⟩,
  ⟨14, 14, 2, 10, 10, .status, 0xFFFFFFFF#32, 0x0#32, 0x0#32⟩,
  ⟨14, 14, 2, 11, 11, .status, 0xFFFFFFFF#32, 0x0#32, 0x0#32⟩,
  ⟨15, 15, 2, 0, 0, .st, 0xF80000FF#32, 0x0#32, 0xFF#32⟩,
  ⟨15, 15, 2, 1, 1, .st, 0xFFFF#32, 0x0#32, 0x0#32⟩,
  ⟨15, 15, 2, 2, 2, .st, 0xFFFF#32, 0x0#32, 0x0#32⟩,
  ⟨15, 15, 2, 3, 3, .st, 0xFFFFFFFF#32, 0x0#32, 0x0#32⟩,
  ⟨15, 15, 2, 8, 8, .status, 0xFFFFFFFF#32, 0x0#32, 0x0#32⟩,
  ⟨15, 15, 2, 9, 9, .status, 0xFFFFFFFF#32, 0x0#32, 0x0#32⟩,
  ⟨15, 15, 2, 10, 10, .status, 0xFFFFFFFF#32, 0x0#32, 0x0#32⟩]

/-- TIME.LSEC[47:32], R313 (RO). -/
def TIME.LSECHI : Fld := ⟨0x50, 0, 15, 0⟩
/-- TIME.LSEC[31:0], R313 (RO). -/
def TIME.LSECLO : Fld := ⟨0x50, 1, 31, 0⟩
/-- TIME.LNS, R313 (RO). -/
def TIME.LNS : Fld := ⟨0x50, 2, 29, 0⟩
/-- TIME.EVC[63:32], EVC[31:0], R313 (RO). -/
def TIME.EVC : Fld := ⟨0x50, 3, 31, 0⟩
/-- TIME.TOFS[63:32], TOFS[31:0], R313 (RO). -/
def TIME.TOFS : Fld := ⟨0x50, 5, 31, 0⟩
/-- TIME.STEPREM, R313 (RO). -/
def TIME.STEPREM : Fld := ⟨0x50, 7, 31, 0⟩
/-- TIME.STEP[63:32], STEP[31:0], R313 (ST). -/
def TIME.STEP : Fld := ⟨0x50, 8, 31, 0⟩
/-- TIME.STEPSEQ, R313 (ST). -/
def TIME.STEPSEQ : Fld := ⟨0x50, 10, 31, 24⟩
/-- TIME.CAUSEEN, R313 (ST). -/
def TIME.CAUSEEN : Fld := ⟨0x50, 10, 7, 0⟩
/-- TIME.STEPS, R313 (RO). -/
def TIME.STEPS : Fld := ⟨0x50, 11, 31, 16⟩
/-- TIME.CAUSE, R313 (RC). -/
def TIME.CAUSE : Fld := ⟨0x50, 11, 7, 0⟩
/-- TIME.LASTSTEP, R313 (RO). -/
def TIME.LASTSTEP : Fld := ⟨0x50, 12, 31, 0⟩
/-- TIME.LASTSTEPMS, R313 (RO). -/
def TIME.LASTSTEPMS : Fld := ⟨0x50, 13, 31, 0⟩
/-- TIME.TQUEN, R314 (ST). -/
def TIME.TQUEN : Fld := ⟨0x50, 0, 31, 31⟩
/-- TIME.TQU, R314 (ST). -/
def TIME.TQU : Fld := ⟨0x50, 0, 30, 28⟩
/-- TIME.TBUEN, R314 (ST). -/
def TIME.TBUEN : Fld := ⟨0x50, 0, 27, 27⟩
/-- TIME.TBQU, R314 (ST). -/
def TIME.TBQU : Fld := ⟨0x50, 0, 26, 24⟩
/-- TIME.PTPDEN, R314 (ST). -/
def TIME.PTPDEN : Fld := ⟨0x50, 0, 23, 23⟩
/-- TIME.PTPQD, R314 (ST). -/
def TIME.PTPQD : Fld := ⟨0x50, 0, 22, 21⟩
/-- TIME.PTPU, R314 (ST). -/
def TIME.PTPU : Fld := ⟨0x50, 0, 19, 16⟩
/-- TIME.PTPL2, R314 (ST). -/
def TIME.PTPL2 : Fld := ⟨0x50, 0, 2, 2⟩
/-- TIME.PTPV4, R314 (ST). -/
def TIME.PTPV4 : Fld := ⟨0x50, 0, 1, 1⟩
/-- TIME.PTPV6, R314 (ST). -/
def TIME.PTPV6 : Fld := ⟨0x50, 0, 0, 0⟩
/-- TIME.PTPVID, R314 (ST). -/
def TIME.PTPVID : Fld := ⟨0x50, 1, 11, 0⟩
/-- TIME.PTPRX, R314 (RO). -/
def TIME.PTPRX : Fld := ⟨0x50, 8, 31, 16⟩
/-- TIME.PTPBAD, R314 (RO). -/
def TIME.PTPBAD : Fld := ⟨0x50, 8, 15, 0⟩
/-- TIME.PTPTX, R314 (RO). -/
def TIME.PTPTX : Fld := ⟨0x50, 12, 31, 16⟩
/-- TIME.PTPTXBAD, R314 (RO). -/
def TIME.PTPTXBAD : Fld := ⟨0x50, 12, 15, 0⟩
/-- TIME.CAP.EN, R314 (ST). -/
def TIME.CAP_EN : Fld := ⟨0x50, 0, 31, 31⟩
/-- TIME.CAP.EDGE, R314 (ST). -/
def TIME.CAP_EDGE : Fld := ⟨0x50, 0, 30, 29⟩
/-- TIME.CAP.QREC, R314 (ST). -/
def TIME.CAP_QREC : Fld := ⟨0x50, 0, 28, 28⟩
/-- TIME.CAP.SRCMASK, R314 (ST). -/
def TIME.CAP_SRCMASK : Fld := ⟨0x50, 0, 14, 0⟩
/-- TIME.CAP.CAUSEEN, R314 (ST). -/
def TIME.CAP_CAUSEEN : Fld := ⟨0x50, 1, 7, 0⟩
/-- TIME.CAP.COINC, R314 (RO). -/
def TIME.CAP_COINC : Fld := ⟨0x50, 8, 31, 31⟩
/-- TIME.CAP.FIREMASK, R314 (RO). -/
def TIME.CAP_FIREMASK : Fld := ⟨0x50, 8, 14, 0⟩
/-- TIME.CAP.STAMP, R314 (RO). -/
def TIME.CAP_STAMP : Fld := ⟨0x50, 9, 31, 0⟩
/-- TIME.CAP.SECHI, R314 (RO). -/
def TIME.CAP_SECHI : Fld := ⟨0x50, 10, 15, 0⟩
/-- TIME.CAP.SECLO, R314 (RO). -/
def TIME.CAP_SECLO : Fld := ⟨0x50, 11, 31, 0⟩
/-- TIME.CAP.NS, R314 (RO). -/
def TIME.CAP_NS : Fld := ⟨0x50, 12, 29, 0⟩
/-- TIME.CAP.EVENTS, R314 (RO). -/
def TIME.CAP_EVENTS : Fld := ⟨0x50, 13, 31, 0⟩
/-- TIME.CAP.COINCS, R314 (RO). -/
def TIME.CAP_COINCS : Fld := ⟨0x50, 14, 31, 16⟩
/-- TIME.CAP.CAUSE, R314 (RC). -/
def TIME.CAP_CAUSE : Fld := ⟨0x50, 15, 7, 0⟩
/-- TIME.OUT.MODE, R314 (ST). -/
def TIME.OUT_MODE : Fld := ⟨0x50, 0, 31, 30⟩
/-- TIME.OUT.POL, R314 (ST). -/
def TIME.OUT_POL : Fld := ⟨0x50, 0, 29, 29⟩
/-- TIME.OUT.CAUSEEN, R314 (ST). -/
def TIME.OUT_CAUSEEN : Fld := ⟨0x50, 0, 7, 0⟩
/-- TIME.OUT.STARTHI, R314 (ST). -/
def TIME.OUT_STARTHI : Fld := ⟨0x50, 1, 15, 0⟩
/-- TIME.OUT.STARTLO, R314 (ST). -/
def TIME.OUT_STARTLO : Fld := ⟨0x50, 2, 31, 0⟩
/-- TIME.OUT.STARTNS, R314 (ST). -/
def TIME.OUT_STARTNS : Fld := ⟨0x50, 3, 29, 0⟩
/-- TIME.OUT.PERIOD, R314 (ST). -/
def TIME.OUT_PERIOD : Fld := ⟨0x50, 4, 31, 0⟩
/-- TIME.OUT.WIDTH, R314 (ST). -/
def TIME.OUT_WIDTH : Fld := ⟨0x50, 5, 31, 0⟩
/-- TIME.OUT.ACTIVE, R314 (RO). -/
def TIME.OUT_ACTIVE : Fld := ⟨0x50, 8, 31, 31⟩
/-- TIME.OUT.ARMED, R314 (RO). -/
def TIME.OUT_ARMED : Fld := ⟨0x50, 8, 30, 30⟩
/-- TIME.OUT.LATE, R314 (RO). -/
def TIME.OUT_LATE : Fld := ⟨0x50, 8, 29, 29⟩
/-- TIME.OUT.CAUSE, R314 (RC). -/
def TIME.OUT_CAUSE : Fld := ⟨0x50, 9, 7, 0⟩
/-- TIME.OUT.FIRES, R314 (RO). -/
def TIME.OUT_FIRES : Fld := ⟨0x50, 10, 31, 0⟩
/-- TIME.OUT.LASTEDGE, R314 (RO). -/
def TIME.OUT_LASTEDGE : Fld := ⟨0x50, 11, 31, 0⟩
/-- TIME.PPS.EN, R314 (ST). -/
def TIME.PPS_EN : Fld := ⟨0x50, 0, 31, 31⟩
/-- TIME.PPS.POL, R314 (ST). -/
def TIME.PPS_POL : Fld := ⟨0x50, 0, 30, 30⟩
/-- TIME.PPS.CAUSEEN, R314 (ST). -/
def TIME.PPS_CAUSEEN : Fld := ⟨0x50, 0, 7, 0⟩
/-- TIME.PPSOFS, R314 (ST). -/
def TIME.PPSOFS : Fld := ⟨0x50, 1, 31, 0⟩
/-- TIME.PPS.WIDTH, R314 (ST). -/
def TIME.PPS_WIDTH : Fld := ⟨0x50, 2, 31, 0⟩
/-- TIME.PPS.ACTIVE, R314 (RO). -/
def TIME.PPS_ACTIVE : Fld := ⟨0x50, 8, 31, 31⟩
/-- TIME.PPS.CAUSE, R314 (RC). -/
def TIME.PPS_CAUSE : Fld := ⟨0x50, 9, 7, 0⟩
/-- TIME.PPS.PULSES, R314 (RO). -/
def TIME.PPS_PULSES : Fld := ⟨0x50, 10, 31, 0⟩
/-- TIME.PPS.LASTEDGE, R314 (RO). -/
def TIME.PPS_LASTEDGE : Fld := ⟨0x50, 11, 31, 0⟩
/-- TIME.TBDNEN, R314 (ST). -/
def TIME.TBDNEN : Fld := ⟨0x50, 0, 31, 31⟩
/-- TIME.TRACE, R314 (ST). -/
def TIME.TRACE : Fld := ⟨0x50, 0, 30, 30⟩
/-- TIME.UTCVALID, R314 (ST). -/
def TIME.UTCVALID : Fld := ⟨0x50, 0, 29, 29⟩
/-- TIME.LEAP61, R314 (ST). -/
def TIME.LEAP61 : Fld := ⟨0x50, 0, 28, 28⟩
/-- TIME.LEAP59, R314 (ST). -/
def TIME.LEAP59 : Fld := ⟨0x50, 0, 27, 27⟩
/-- TIME.CLASS, R314 (ST). -/
def TIME.CLASS : Fld := ⟨0x50, 0, 7, 0⟩
/-- TIME.UTCOFS, R314 (ST). -/
def TIME.UTCOFS : Fld := ⟨0x50, 1, 15, 0⟩
/-- TIME.LEAPSECHI, R314 (ST). -/
def TIME.LEAPSECHI : Fld := ⟨0x50, 2, 15, 0⟩
/-- TIME.LEAPSECLO, R314 (ST). -/
def TIME.LEAPSECLO : Fld := ⟨0x50, 3, 31, 0⟩
/-- TIME.TBSENT, R314 (RO). -/
def TIME.TBSENT : Fld := ⟨0x50, 8, 31, 0⟩
/-- TIME.TBRX, R314 (RO). -/
def TIME.TBRX : Fld := ⟨0x50, 9, 31, 0⟩
/-- TIME.TBLOST, R314 (RO). -/
def TIME.TBLOST : Fld := ⟨0x50, 10, 31, 0⟩

/-- Words of DPLL (table 0x58), 13_references_and_dpll.md. -/
def DPLL.words : List WSpec := [
  ⟨0, 0, 2, 0, 0, .st, 0xEF777300#32, 0x0#32, 0x45100#32⟩,
  ⟨1, 1, 2, 0, 0, .st, 0xFF777300#32, 0x0#32, 0x45100#32⟩,
  ⟨0, 1, 2, 1, 1, .st, 0xFFFFF#32, 0x0#32, 0x493E0#32⟩,
  ⟨0, 1, 2, 2, 2, .st, 0xFFFFFFFF#32, 0x0#32, 0x641008#32⟩,
  ⟨0, 1, 2, 3, 3, .st, 0xFF#32, 0x0#32, 0x0#32⟩,
  ⟨0, 1, 2, 8, 8, .status, 0xFFFE0000#32, 0x0#32, 0x0#32⟩,
  ⟨0, 1, 2, 9, 9, .status, 0x1FFF#32, 0x1FFF#32, 0x0#32⟩,
  ⟨0, 1, 2, 10, 10, .status, 0xFFFFFFFF#32, 0x0#32, 0x0#32⟩,
  ⟨0, 1, 2, 11, 11, .status, 0xFFFFFFFF#32, 0x0#32, 0x0#32⟩,
  ⟨0, 1, 2, 12, 12, .status, 0xFFFFFFFF#32, 0x0#32, 0x0#32⟩,
  ⟨0, 1, 2, 13, 13, .status, 0xFFFFFFFF#32, 0x0#32, 0x0#32⟩,
  ⟨0, 1, 2, 14, 14, .status, 0xFFFFFFFF#32, 0x0#32, 0x0#32⟩,
  ⟨0, 1, 2, 15, 15, .status, 0xFFFFFFFF#32, 0x0#32, 0x0#32⟩]

/-- DPLL.MODE, R339 (ST). -/
def DPLL.MODE : Fld := ⟨0x58, 0, 31, 30⟩
/-- DPLL.REVERT, R339 (ST). -/
def DPLL.REVERT : Fld := ⟨0x58, 0, 29, 29⟩
/-- DPLL.PBO, R339 (ST). -/
def DPLL.PBO : Fld := ⟨0x58, 0, 28, 28⟩
/-- DPLL.HISTSEQ, R339 (ST). -/
def DPLL.HISTSEQ : Fld := ⟨0x58, 0, 27, 24⟩
/-- DPLL.FORCE, R339 (ST). -/
def DPLL.FORCE : Fld := ⟨0x58, 0, 22, 20⟩
/-- DPLL.BW, R339 (ST). -/
def DPLL.BW : Fld := ⟨0x58, 0, 18, 16⟩
/-- DPLL.ACQBW, R339 (ST). -/
def DPLL.ACQBW : Fld := ⟨0x58, 0, 14, 12⟩
/-- DPLL.HISTWIN, R339 (ST). -/
def DPLL.HISTWIN : Fld := ⟨0x58, 0, 9, 8⟩
/-- DPLL.WTR, R339 (ST). -/
def DPLL.WTR : Fld := ⟨0x58, 1, 19, 0⟩
/-- DPLL.LOCKPH, R339 (ST). -/
def DPLL.LOCKPH : Fld := ⟨0x58, 2, 31, 16⟩
/-- DPLL.LOCKN, R339 (ST). -/
def DPLL.LOCKN : Fld := ⟨0x58, 2, 15, 8⟩
/-- DPLL.UNLOCKN, R339 (ST). -/
def DPLL.UNLOCKN : Fld := ⟨0x58, 2, 7, 0⟩
/-- DPLL.CAUSEEN, R339 (ST). -/
def DPLL.CAUSEEN : Fld := ⟨0x58, 3, 7, 0⟩
/-- DPLL.STATE, R339 (RO). -/
def DPLL.STATE : Fld := ⟨0x58, 8, 31, 29⟩
/-- DPLL.SWITCHING, R339 (RO). -/
def DPLL.SWITCHING : Fld := ⟨0x58, 8, 28, 28⟩
/-- DPLL.SELVALID, R339 (RO). -/
def DPLL.SELVALID : Fld := ⟨0x58, 8, 27, 27⟩
/-- DPLL.SELREF, R339 (RO). -/
def DPLL.SELREF : Fld := ⟨0x58, 8, 26, 24⟩
/-- DPLL.NEXTVALID, R339 (RO). -/
def DPLL.NEXTVALID : Fld := ⟨0x58, 8, 23, 23⟩
/-- DPLL.NEXTREF, R339 (RO). -/
def DPLL.NEXTREF : Fld := ⟨0x58, 8, 22, 20⟩
/-- DPLL.HISTVALID, R339 (RO). -/
def DPLL.HISTVALID : Fld := ⟨0x58, 8, 19, 19⟩
/-- DPLL.CLAMPED, R339 (RO). -/
def DPLL.CLAMPED : Fld := ⟨0x58, 8, 18, 18⟩
/-- DPLL.WTRRUN, R339 (RO). -/
def DPLL.WTRRUN : Fld := ⟨0x58, 8, 17, 17⟩
/-- DPLL.STK, R339 (RC). -/
def DPLL.STK : Fld := ⟨0x58, 9, 12, 8⟩
/-- DPLL.CAUSE, R339 (RC). -/
def DPLL.CAUSE : Fld := ⟨0x58, 9, 7, 0⟩
/-- DPLL.PHERR, R339 (RO). -/
def DPLL.PHERR : Fld := ⟨0x58, 10, 31, 0⟩
/-- DPLL.FOUT, R339 (RO). -/
def DPLL.FOUT : Fld := ⟨0x58, 11, 31, 0⟩
/-- DPLL.HISTFREQ, R339 (RO). -/
def DPLL.HISTFREQ : Fld := ⟨0x58, 12, 31, 0⟩
/-- DPLL.PBOFS, R339 (RO). -/
def DPLL.PBOFS : Fld := ⟨0x58, 13, 31, 0⟩
/-- DPLL.SWITCHES, R339 (RO). -/
def DPLL.SWITCHES : Fld := ⟨0x58, 14, 31, 16⟩
/-- DPLL.LOCKLOSS, R339 (RO). -/
def DPLL.LOCKLOSS : Fld := ⟨0x58, 14, 15, 0⟩
/-- DPLL.HOLDTICKS, R339 (RO). -/
def DPLL.HOLDTICKS : Fld := ⟨0x58, 15, 31, 0⟩

/-- Words of REF (table 0x59), 13_references_and_dpll.md. -/
def REF.words : List WSpec := [
  ⟨5, 7, 1, 0, 0, .st, 0xFFE0FFFF#32, 0x0#32, 0x400BB8#32⟩,
  ⟨0, 6, 2, 0, 0, .st, 0xFF00FFFF#32, 0x0#32, 0xBB8#32⟩,
  ⟨0, 7, 2, 1, 1, .st, 0xFFFF#32, 0x0#32, 0x5C#32⟩,
  ⟨5, 7, 1, 2, 2, .st, 0xFFFFFFFF#32, 0x0#32, 0x0#32⟩,
  ⟨0, 6, 2, 2, 2, .st, 0x0#32, 0x0#32, 0x0#32⟩,
  ⟨6, 6, 2, 3, 3, .st, 0xFF00FFFF#32, 0x0#32, 0x1F40#32⟩,
  ⟨0, 7, 2, 3, 3, .st, 0x0#32, 0x0#32, 0x0#32⟩,
  ⟨6, 6, 2, 4, 5, .st, 0xFFFFFFFF#32, 0x0#32, 0x0#32⟩,
  ⟨0, 7, 2, 4, 5, .st, 0x0#32, 0x0#32, 0x0#32⟩,
  ⟨0, 7, 2, 6, 6, .st, 0xFF#32, 0x0#32, 0x0#32⟩,
  ⟨0, 7, 2, 8, 8, .status, 0xF000003F#32, 0x0#32, 0x0#32⟩,
  ⟨0, 7, 2, 9, 9, .status, 0xFFFFFFFF#32, 0x0#32, 0x80000000#32⟩,
  ⟨0, 7, 2, 10, 10, .status, 0xFF#32, 0xFF#32, 0x0#32⟩,
  ⟨0, 7, 2, 11, 11, .status, 0xFFFF0000#32, 0x0#32, 0x0#32⟩]

/-- REF.SYSEN, R340 (ST). -/
def REF.SYSEN : Fld := ⟨0x59, 0, 31, 31⟩
/-- REF.SYSPRI, R340 (ST). -/
def REF.SYSPRI : Fld := ⟨0x59, 0, 30, 28⟩
/-- REF.TODEN, R340 (ST). -/
def REF.TODEN : Fld := ⟨0x59, 0, 27, 27⟩
/-- REF.TODPRI, R340 (ST). -/
def REF.TODPRI : Fld := ⟨0x59, 0, 26, 24⟩
/-- REF.INFREQ, R340 (ST). -/
def REF.INFREQ : Fld := ⟨0x59, 0, 23, 22⟩
/-- REF.EDGE, R340 (ST). -/
def REF.EDGE : Fld := ⟨0x59, 0, 21, 21⟩
/-- REF.QUALT, R340 (ST). -/
def REF.QUALT : Fld := ⟨0x59, 0, 15, 0⟩
/-- REF.FLIM, R340 (ST). -/
def REF.FLIM : Fld := ⟨0x59, 1, 15, 0⟩
/-- REF.PHOFS, R340 (ST). -/
def REF.PHOFS : Fld := ⟨0x59, 2, 31, 0⟩
/-- REF.SWSEQ, R340 (ST). -/
def REF.SWSEQ : Fld := ⟨0x59, 3, 31, 24⟩
/-- REF.UPDMAX, R340 (ST). -/
def REF.UPDMAX : Fld := ⟨0x59, 3, 15, 0⟩
/-- REF.SWPHASE, R340 (ST). -/
def REF.SWPHASE : Fld := ⟨0x59, 4, 31, 0⟩
/-- REF.SWFREQ, R340 (ST). -/
def REF.SWFREQ : Fld := ⟨0x59, 5, 31, 0⟩
/-- REF.CAUSEEN, R340 (ST). -/
def REF.CAUSEEN : Fld := ⟨0x59, 6, 7, 0⟩
/-- REF.QUAL, R340 (RO). -/
def REF.QUAL : Fld := ⟨0x59, 8, 31, 31⟩
/-- REF.SELSYS, R340 (RO). -/
def REF.SELSYS : Fld := ⟨0x59, 8, 30, 30⟩
/-- REF.SELTOD, R340 (RO). -/
def REF.SELTOD : Fld := ⟨0x59, 8, 29, 29⟩
/-- REF.QRUN, R340 (RO). -/
def REF.QRUN : Fld := ⟨0x59, 8, 28, 28⟩
/-- REF.DEF, R340 (RO). -/
def REF.DEF : Fld := ⟨0x59, 8, 5, 0⟩
/-- REF.FMEAS, R340 (RO). -/
def REF.FMEAS : Fld := ⟨0x59, 9, 31, 0⟩
/-- REF.CAUSE, R340 (RC). -/
def REF.CAUSE : Fld := ⟨0x59, 10, 7, 0⟩
/-- REF.DISQ, R340 (RO). -/
def REF.DISQ : Fld := ⟨0x59, 11, 31, 16⟩

/-- Words of FSRC (table 0x60), 14_faults_and_shade.md. -/
def FSRC.words : List WSpec := [
  ⟨0, 175, 2, 0, 0, .st, 0xE0FFFFFF#32, 0x0#32, 0x40010001#32⟩,
  ⟨176, 177, 2, 0, 0, .st, 0xE0FFFFFF#32, 0x0#32, 0xC0010001#32⟩,
  ⟨178, 185, 2, 0, 0, .st, 0xE0FFFFFF#32, 0x0#32, 0x40010001#32⟩,
  ⟨186, 186, 2, 0, 0, .st, 0xE0FFFFFF#32, 0x0#32, 0xC0010001#32⟩,
  ⟨187, 187, 2, 0, 0, .st, 0xE0FFFFFF#32, 0x0#32, 0x10001#32⟩,
  ⟨188, 188, 2, 0, 0, .st, 0xE0FFFFFF#32, 0x0#32, 0x40010001#32⟩,
  ⟨189, 189, 2, 0, 0, .st, 0xE0FFFFFF#32, 0x0#32, 0xC0010001#32⟩,
  ⟨190, 190, 2, 0, 0, .st, 0xE0FFFFFF#32, 0x0#32, 0x40010001#32⟩,
  ⟨191, 191, 2, 0, 0, .st, 0xE0FFFFFF#32, 0x0#32, 0x10001#32⟩,
  ⟨192, 203, 2, 0, 0, .st, 0xE0FFFFFF#32, 0x0#32, 0x40010001#32⟩,
  ⟨204, 204, 2, 0, 0, .st, 0xE0FFFFFF#32, 0x0#32, 0x80010001#32⟩,
  ⟨205, 207, 2, 0, 0, .st, 0xE0FFFFFF#32, 0x0#32, 0x10001#32⟩,
  ⟨208, 208, 2, 0, 0, .st, 0xE0FFFFFF#32, 0x0#32, 0x80010001#32⟩,
  ⟨209, 209, 2, 0, 0, .st, 0xE0FFFFFF#32, 0x0#32, 0xC0010001#32⟩,
  ⟨210, 211, 2, 0, 0, .st, 0xE0FFFFFF#32, 0x0#32, 0x40010001#32⟩,
  ⟨212, 212, 2, 0, 0, .st, 0xE0FFFFFF#32, 0x0#32, 0x80010001#32⟩,
  ⟨213, 223, 2, 0, 0, .st, 0xE0FFFFFF#32, 0x0#32, 0x10001#32⟩,
  ⟨224, 241, 2, 0, 0, .st, 0xE0FFFFFF#32, 0x0#32, 0x80010001#32⟩,
  ⟨242, 244, 2, 0, 0, .st, 0xE0FFFFFF#32, 0x0#32, 0x40010001#32⟩,
  ⟨245, 255, 2, 0, 0, .st, 0xE0FFFFFF#32, 0x0#32, 0x10001#32⟩,
  ⟨256, 264, 2, 0, 0, .st, 0xE0FFFFFF#32, 0x0#32, 0x80010001#32⟩,
  ⟨265, 271, 2, 0, 0, .st, 0xE0FFFFFF#32, 0x0#32, 0x10001#32⟩,
  ⟨272, 280, 2, 0, 0, .st, 0xE0FFFFFF#32, 0x0#32, 0x80010001#32⟩,
  ⟨281, 287, 2, 0, 0, .st, 0xE0FFFFFF#32, 0x0#32, 0x10001#32⟩,
  ⟨288, 295, 2, 0, 0, .st, 0xE0FFFFFF#32, 0x0#32, 0xC0010001#32⟩,
  ⟨296, 303, 2, 0, 0, .st, 0xE0FFFFFF#32, 0x0#32, 0x10001#32⟩,
  ⟨304, 311, 2, 0, 0, .st, 0xE0FFFFFF#32, 0x0#32, 0xC0010001#32⟩,
  ⟨312, 319, 2, 0, 0, .st, 0xE0FFFFFF#32, 0x0#32, 0x10001#32⟩,
  ⟨320, 355, 2, 0, 0, .st, 0xE0FFFFFF#32, 0x0#32, 0xC0010001#32⟩,
  ⟨356, 367, 2, 0, 0, .st, 0xE0FFFFFF#32, 0x0#32, 0x10001#32⟩,
  ⟨368, 368, 2, 0, 0, .st, 0xE0FFFFFF#32, 0x0#32, 0x80010001#32⟩,
  ⟨369, 374, 2, 0, 0, .st, 0xE0FFFFFF#32, 0x0#32, 0xC0010001#32⟩,
  ⟨375, 383, 2, 0, 0, .st, 0xE0FFFFFF#32, 0x0#32, 0x10001#32⟩,
  ⟨0, 383, 2, 2, 2, .status, 0xC00000FF#32, 0x0#32, 0x0#32⟩,
  ⟨0, 383, 2, 3, 3, .status, 0xFFFFFFFF#32, 0x0#32, 0x0#32⟩]

/-- FSRC.SEV, R368 (ST). -/
def FSRC.SEV : Fld := ⟨0x60, 0, 31, 30⟩
/-- FSRC.CLASS, R368 (ST). -/
def FSRC.CLASS : Fld := ⟨0x60, 0, 29, 29⟩
/-- FSRC.N, R368 (ST). -/
def FSRC.N : Fld := ⟨0x60, 0, 23, 16⟩
/-- FSRC.W, R368 (ST). -/
def FSRC.W : Fld := ⟨0x60, 0, 15, 0⟩
/-- FSRC.COND, R368 (RO). -/
def FSRC.COND : Fld := ⟨0x60, 2, 31, 31⟩
/-- FSRC.FLT, R368 (RO). -/
def FSRC.FLT : Fld := ⟨0x60, 2, 30, 30⟩
/-- FSRC.WCOUNT, R368 (RO). -/
def FSRC.WCOUNT : Fld := ⟨0x60, 2, 7, 0⟩
/-- FSRC.EVENTS, R368 (RO). -/
def FSRC.EVENTS : Fld := ⟨0x60, 3, 31, 16⟩
/-- FSRC.RAISES, R368 (RO). -/
def FSRC.RAISES : Fld := ⟨0x60, 3, 15, 0⟩

/-- Words of FGRP (table 0x61), 14_faults_and_shade.md. -/
def FGRP.words : List WSpec := [
  ⟨23, 23, 2, 0, 0, .st, 0xC0FF00FF#32, 0x0#32, 0x0#32⟩,
  ⟨0, 22, 2, 0, 0, .st, 0xC0FF000F#32, 0x0#32, 0x0#32⟩,
  ⟨23, 23, 2, 1, 1, .st, 0xFFFFFF#32, 0x0#32, 0x1F40#32⟩,
  ⟨23, 23, 2, 2, 2, .st, 0xFFC001FF#32, 0x0#32, 0x4000E0#32⟩,
  ⟨23, 23, 2, 3, 3, .status, 0xFFFFFF00#32, 0x0#32, 0x0#32⟩,
  ⟨0, 23, 2, 4, 4, .status, 0xFFC001FF#32, 0x0#32, 0x0#32⟩,
  ⟨0, 23, 2, 5, 5, .status, 0xF000FFFF#32, 0x0#32, 0x0#32⟩,
  ⟨23, 23, 2, 6, 6, .status, 0xFFFF00FF#32, 0xFF#32, 0x0#32⟩,
  ⟨0, 22, 2, 6, 6, .status, 0xFFFF000F#32, 0xF#32, 0x0#32⟩,
  ⟨23, 23, 2, 7, 7, .status, 0xC000FFFF#32, 0x0#32, 0x0#32⟩]

/-- FGRP.MODE, R369 (ST). -/
def FGRP.MODE : Fld := ⟨0x61, 0, 31, 31⟩
/-- FGRP.AUTOREC, R369 (ST). -/
def FGRP.AUTOREC : Fld := ⟨0x61, 0, 30, 30⟩
/-- FGRP.CLRSEQ, R369 (ST). -/
def FGRP.CLRSEQ : Fld := ⟨0x61, 0, 23, 16⟩
/-- FGRP.CAUSEEN, R369 (ST). -/
def FGRP.CAUSEEN : Fld := ⟨0x61, 0, 7, 0⟩
/-- FGRP.RECLIM, R369 (ST). -/
def FGRP.RECLIM : Fld := ⟨0x61, 1, 23, 16⟩
/-- FGRP.QUIET, R369 (ST). -/
def FGRP.QUIET : Fld := ⟨0x61, 1, 15, 0⟩
/-- FGRP.INJSEQ, R369 (ST). -/
def FGRP.INJSEQ : Fld := ⟨0x61, 2, 31, 24⟩
/-- FGRP.INJMODE, R369 (ST). -/
def FGRP.INJMODE : Fld := ⟨0x61, 2, 23, 22⟩
/-- FGRP.INJTGT, R369 (ST). -/
def FGRP.INJTGT : Fld := ⟨0x61, 2, 8, 0⟩
/-- FGRP.QUIETCNT, R369 (RO). -/
def FGRP.QUIETCNT : Fld := ⟨0x61, 3, 31, 16⟩
/-- FGRP.RECRUN, R369 (RO). -/
def FGRP.RECRUN : Fld := ⟨0x61, 3, 15, 8⟩
/-- FGRP.LATVALID, R369 (RO). -/
def FGRP.LATVALID : Fld := ⟨0x61, 4, 31, 31⟩
/-- FGRP.OVF, R369 (RO). -/
def FGRP.OVF : Fld := ⟨0x61, 4, 30, 30⟩
/-- FGRP.OVFCNT, R369 (RO). -/
def FGRP.OVFCNT : Fld := ⟨0x61, 4, 29, 22⟩
/-- FGRP.LATSRC, R369 (RO). -/
def FGRP.LATSRC : Fld := ⟨0x61, 4, 8, 0⟩
/-- FGRP.NEXT, R369 (RO). -/
def FGRP.NEXT : Fld := ⟨0x61, 5, 31, 28⟩
/-- FGRP.FLTMAP, R369 (RO). -/
def FGRP.FLTMAP : Fld := ⟨0x61, 5, 15, 0⟩
/-- FGRP.GEVENTS, R369 (RO). -/
def FGRP.GEVENTS : Fld := ⟨0x61, 6, 31, 16⟩
/-- FGRP.CAUSE, R369 (RC). -/
def FGRP.CAUSE : Fld := ⟨0x61, 6, 7, 0⟩
/-- FGRP.CSHADE, R369 (RO). -/
def FGRP.CSHADE : Fld := ⟨0x61, 7, 31, 31⟩
/-- FGRP.INJARM, R369 (RO). -/
def FGRP.INJARM : Fld := ⟨0x61, 7, 30, 30⟩
/-- FGRP.RECOVERIES, R369 (RO). -/
def FGRP.RECOVERIES : Fld := ⟨0x61, 7, 15, 0⟩

/-- Words of FHIST (table 0x62), 14_faults_and_shade.md. -/
def FHIST.words : List WSpec := [
  ⟨0, 383, 2, 0, 0, .status, 0xF1FFFFFF#32, 0x0#32, 0x0#32⟩,
  ⟨0, 383, 2, 1, 1, .status, 0xFFFFFFFF#32, 0x0#32, 0x0#32⟩,
  ⟨0, 383, 2, 2, 2, .status, 0xFFFFFFFF#32, 0x0#32, 0x0#32⟩,
  ⟨0, 383, 2, 3, 3, .status, 0x3FFFFFFF#32, 0x0#32, 0x0#32⟩]

/-- FHIST.VALID, R370 (RO). -/
def FHIST.VALID : Fld := ⟨0x62, 0, 31, 31⟩
/-- FHIST.KIND, R370 (RO). -/
def FHIST.KIND : Fld := ⟨0x62, 0, 30, 28⟩
/-- FHIST.SRC, R370 (RO). -/
def FHIST.SRC : Fld := ⟨0x62, 0, 24, 16⟩
/-- FHIST.SEQ, R370 (RO). -/
def FHIST.SEQ : Fld := ⟨0x62, 0, 15, 0⟩
/-- FHIST.STAMP, R370 (RO). -/
def FHIST.STAMP : Fld := ⟨0x62, 1, 31, 0⟩
/-- FHIST.SEC, R370 (RO). -/
def FHIST.SEC : Fld := ⟨0x62, 2, 31, 0⟩
/-- FHIST.NS, R370 (RO). -/
def FHIST.NS : Fld := ⟨0x62, 3, 29, 0⟩

/-- Words of TWIN (table 0x70), 15_twin_pairing.md. -/
def TWIN.words : List WSpec := [
  ⟨0, 0, 2, 0, 0, .st, 0x800000FF#32, 0x0#32, 0x0#32⟩,
  ⟨0, 0, 2, 1, 1, .st, 0xFFFFFFFF#32, 0x0#32, 0x0#32⟩,
  ⟨0, 0, 2, 8, 8, .status, 0xFF80FFFF#32, 0xFF#32, 0x0#32⟩,
  ⟨0, 0, 2, 9, 9, .status, 0xFFFFFFFF#32, 0x0#32, 0x0#32⟩,
  ⟨0, 0, 2, 10, 10, .status, 0xFFFFFFFF#32, 0x0#32, 0x0#32⟩,
  ⟨0, 0, 2, 11, 11, .status, 0xFFFFFFFF#32, 0x0#32, 0x80000000#32⟩,
  ⟨0, 0, 2, 12, 12, .status, 0xFFFF00FF#32, 0x0#32, 0x0#32⟩,
  ⟨0, 0, 2, 13, 13, .status, 0xFFFFFFFF#32, 0x0#32, 0x0#32⟩,
  ⟨0, 0, 2, 14, 14, .status, 0xFFFFFFFF#32, 0x0#32, 0x0#32⟩,
  ⟨0, 0, 2, 15, 15, .status, 0xFFFFFFFF#32, 0x0#32, 0x0#32⟩,
  ⟨0, 0, 2, 16, 16, .status, 0xFFFFFFFF#32, 0x0#32, 0x0#32⟩,
  ⟨0, 0, 2, 17, 17, .status, 0xFFFFFFFF#32, 0x0#32, 0x0#32⟩,
  ⟨0, 0, 2, 18, 18, .status, 0xFFFFFFFF#32, 0x0#32, 0x0#32⟩]

/-- TWIN.PAIREN, R407 (ST). -/
def TWIN.PAIREN : Fld := ⟨0x70, 0, 31, 31⟩
/-- TWIN.CAUSEEN, R407 (ST). -/
def TWIN.CAUSEEN : Fld := ⟨0x70, 0, 7, 0⟩
/-- TWIN.DELAYTRIM, R407 (ST). -/
def TWIN.DELAYTRIM : Fld := ⟨0x70, 1, 31, 0⟩
/-- TWIN.LINKUP, R407 (RO). -/
def TWIN.LINKUP : Fld := ⟨0x70, 8, 31, 31⟩
/-- TWIN.COMPATOK, R407 (RO). -/
def TWIN.COMPATOK : Fld := ⟨0x70, 8, 30, 30⟩
/-- TWIN.ARMED, R407 (RO). -/
def TWIN.ARMED : Fld := ⟨0x70, 8, 29, 29⟩
/-- TWIN.CLAIMO, R407 (RO). -/
def TWIN.CLAIMO : Fld := ⟨0x70, 8, 28, 28⟩
/-- TWIN.PEERI, R407 (RO). -/
def TWIN.PEERI : Fld := ⟨0x70, 8, 27, 27⟩
/-- TWIN.TID, R407 (RO). -/
def TWIN.TID : Fld := ⟨0x70, 8, 26, 26⟩
/-- TWIN.PEERROLE, R407 (RO). -/
def TWIN.PEERROLE : Fld := ⟨0x70, 8, 25, 24⟩
/-- TWIN.MIRLOSS, R407 (RO). -/
def TWIN.MIRLOSS : Fld := ⟨0x70, 8, 23, 23⟩
/-- TWIN.RQRES, R407 (RO). -/
def TWIN.RQRES : Fld := ⟨0x70, 8, 15, 8⟩
/-- TWIN.CAUSE, R407 (RC). -/
def TWIN.CAUSE : Fld := ⟨0x70, 8, 7, 0⟩
/-- TWIN.PEERCOMPAT, R407 (RO). -/
def TWIN.PEERCOMPAT : Fld := ⟨0x70, 9, 31, 0⟩
/-- TWIN.TNOFS, R407 (RO). -/
def TWIN.TNOFS : Fld := ⟨0x70, 10, 31, 0⟩
/-- TWIN.LINKDLY, R407 (RO). -/
def TWIN.LINKDLY : Fld := ⟨0x70, 11, 31, 0⟩
/-- TWIN.BANKLAG, R407 (RO). -/
def TWIN.BANKLAG : Fld := ⟨0x70, 12, 31, 16⟩
/-- TWIN.MIRTAG, R407 (RO). -/
def TWIN.MIRTAG : Fld := ⟨0x70, 12, 7, 0⟩
/-- TWIN.TAKEOVERS, R407 (RO). -/
def TWIN.TAKEOVERS : Fld := ⟨0x70, 13, 31, 16⟩
/-- TWIN.HANDOVERS, R407 (RO). -/
def TWIN.HANDOVERS : Fld := ⟨0x70, 13, 15, 0⟩
/-- TWIN.CARRIED, R407 (RO). -/
def TWIN.CARRIED : Fld := ⟨0x70, 14, 31, 0⟩
/-- TWIN.FAILED, R407 (RO). -/
def TWIN.FAILED : Fld := ⟨0x70, 15, 31, 0⟩
/-- TWIN.DUPS, R407 (RO). -/
def TWIN.DUPS : Fld := ⟨0x70, 16, 31, 0⟩
/-- TWIN.DESCLOST, R407 (RO). -/
def TWIN.DESCLOST : Fld := ⟨0x70, 17, 31, 0⟩
/-- TWIN.DESCSENT, R407 (RO). -/
def TWIN.DESCSENT : Fld := ⟨0x70, 18, 31, 0⟩

/-- Words of POWER (table 0x78), 16_power_states.md. -/
def POWER.words : List WSpec := [
  ⟨0, 0, 2, 0, 0, .st, 0xC00000FF#32, 0x0#32, 0x0#32⟩,
  ⟨0, 0, 2, 1, 1, .st, 0xFFFFFF0F#32, 0x0#32, 0x64696C05#32⟩,
  ⟨0, 0, 2, 2, 2, .st, 0x7#32, 0x0#32, 0x2#32⟩,
  ⟨0, 0, 2, 16, 16, .status, 0xFFFF030F#32, 0x0#32, 0x0#32⟩,
  ⟨0, 0, 2, 17, 17, .status, 0xFFFFFFFF#32, 0x0#32, 0x0#32⟩,
  ⟨0, 0, 2, 18, 18, .status, 0xFFFF0000#32, 0x0#32, 0x0#32⟩,
  ⟨0, 0, 2, 19, 19, .status, 0xFF#32, 0xFF#32, 0x0#32⟩,
  ⟨0, 0, 2, 20, 35, .status, 0xFFFF#32, 0x0#32, 0x0#32⟩,
  ⟨0, 0, 2, 36, 36, .status, 0xFFFFFFFF#32, 0x0#32, 0x0#32⟩,
  ⟨0, 0, 2, 37, 37, .status, 0xFFFFFFFF#32, 0x0#32, 0x0#32⟩,
  ⟨0, 0, 2, 38, 38, .status, 0xFFFFFFFF#32, 0x0#32, 0x0#32⟩]

/-- POWER.DEEPDIS, R429 (ST). -/
def POWER.DEEPDIS : Fld := ⟨0x78, 0, 31, 31⟩
/-- POWER.NIGHTDIS, R429 (ST). -/
def POWER.NIGHTDIS : Fld := ⟨0x78, 0, 30, 30⟩
/-- POWER.CAUSEEN, R429 (ST). -/
def POWER.CAUSEEN : Fld := ⟨0x78, 0, 7, 0⟩
/-- POWER.WARNT, R429 (ST). -/
def POWER.WARNT : Fld := ⟨0x78, 1, 31, 24⟩
/-- POWER.THROTT, R429 (ST). -/
def POWER.THROTT : Fld := ⟨0x78, 1, 23, 16⟩
/-- POWER.CRITT, R429 (ST). -/
def POWER.CRITT : Fld := ⟨0x78, 1, 15, 8⟩
/-- POWER.HYST, R429 (ST). -/
def POWER.HYST : Fld := ⟨0x78, 1, 3, 0⟩
/-- POWER.THRMODE, R429 (ST). -/
def POWER.THRMODE : Fld := ⟨0x78, 2, 2, 0⟩
/-- POWER.TJ, R429 (RO). -/
def POWER.TJ : Fld := ⟨0x78, 16, 31, 16⟩
/-- POWER.TSTAGE, R429 (RO). -/
def POWER.TSTAGE : Fld := ⟨0x78, 16, 9, 8⟩
/-- POWER.HOTSENS, R429 (RO). -/
def POWER.HOTSENS : Fld := ⟨0x78, 16, 3, 0⟩
/-- POWER.VIN, R429 (RO). -/
def POWER.VIN : Fld := ⟨0x78, 17, 31, 16⟩
/-- POWER.VIO, R429 (RO). -/
def POWER.VIO : Fld := ⟨0x78, 17, 15, 0⟩
/-- POWER.PIN, R429 (RO). -/
def POWER.PIN : Fld := ⟨0x78, 18, 31, 16⟩
/-- POWER.CAUSE, R429 (RC). -/
def POWER.CAUSE : Fld := ⟨0x78, 19, 7, 0⟩
/-- POWER.TSENS0–TSENS15, R429 (RO). -/
def POWER.TSENS : Fld := ⟨0x78, 20, 15, 0⟩
/-- POWER.ENERGY, R429 (RO). -/
def POWER.ENERGY : Fld := ⟨0x78, 36, 31, 0⟩
/-- POWER.LINEBITS, R429 (RO). -/
def POWER.LINEBITS : Fld := ⟨0x78, 37, 31, 0⟩
/-- POWER.WAKELATE, R429 (RO). -/
def POWER.WAKELATE : Fld := ⟨0x78, 38, 31, 0⟩

end Sys2Proof.Machine
end

