-- ==== Sys2Proof/Machine/Ops.lean ====
section
/-! DEFINITION. The named operations every meaning is built from: heath banks and fields, the local clock, the delayed
pins, interrupt causes, cause bits of a block, the shade condition, and free values. -/

namespace Sys2Proof.Machine

/-! ### Units of a block -/

/-- Unit `i` of a fixed number of units, or `d`. -/
def vget {α : Type} {n : Nat} (v : Vector α n) (i : Nat) (d : α) : α := (v[i]?).getD d
/-- `f` done for units 0 to `n` − 1 in turn. -/
def overN {α : Type} (n : Nat) (f : Nat → α → α) (a : α) : α := (List.range n).foldl (fun a i => f i a) a
/-- Unit `i` changed by `f`. -/
def vupd {α : Type} {n : Nat} (v : Vector α n) (i : Nat) (f : α → α) : Vector α n :=
  if h : i < n then v.set i (f v[i]) else v

/-! ### Heath words -/

/-- A heath address in HADDR form (R71). -/
def hAddr (t r w : Nat) : Nat := t * 0x1000000 + r * 0x1000 + w
/-- TABLE of a heath address. -/
def tabOf (a : Nat) : Nat := a / 0x1000000 % 256
/-- ROW of a heath address. -/
def rowOf (a : Nat) : Nat := a / 0x1000 % 4096
/-- WORD of a heath address. -/
def wrdOf (a : Nat) : Nat := a % 4096

/-- The directory of Table 4.1: rows, words per row and KIND of a listed table. -/
def directory (t : Nat) : Option (Nat × Nat × Nat) :=
  match t with
  | 0x00 => some (2, 256, 0)
  | 0x01 => some (2, 8, 0)
  | 0x10 => some (4, 32, 1)
  | 0x11 => some (4, 64, 2)
  | 0x12 => some (256, 8, 1)
  | 0x13 => some (2, 16, 3)
  | 0x20 => some (96, 16, 1)
  | 0x21 => some (96, 32, 2)
  | 0x22 => some (192, 64, 3)
  | 0x30 => some (8, 8, 1)
  | 0x31 => some (1024, 4, 1)
  | 0x38 => some (12, 8, 3)
  | 0x40 => some (8, 16, 3)
  | 0x41 => some (256, 4, 1)
  | 0x50 => some (16, 16, 3)
  | 0x58 => some (2, 32, 3)
  | 0x59 => some (8, 16, 3)
  | 0x60 => some (384, 4, 3)
  | 0x61 => some (24, 8, 3)
  | 0x62 => some (384, 4, 2)
  | 0x70 => some (1, 32, 3)
  | 0x78 => some (1, 64, 3)
  | _ => none

/-- The field maps of a table. -/
def wordsOf (t : Nat) : List WSpec :=
  match t with
  | 0x10 => UPL.words
  | 0x11 => UPLSTAT.words
  | 0x12 => TRIB.words
  | 0x13 => APS.words
  | 0x20 => DROP.words
  | 0x21 => DROPSTAT.words
  | 0x22 => SLOTMAP.words
  | 0x30 => XBAR.words
  | 0x31 => GROOM.words
  | 0x38 => QUEUE.words
  | 0x40 => AUDIO.words
  | 0x41 => AROUTE.words
  | 0x50 => TIME.words
  | 0x58 => DPLL.words
  | 0x59 => REF.words
  | 0x60 => FSRC.words
  | 0x61 => FGRP.words
  | 0x62 => FHIST.words
  | 0x70 => TWIN.words
  | 0x78 => POWER.words
  | _ => []

/-- Whether a field-map line lays out word `w` of row `r`. -/
def WSpec.covers (s : WSpec) (r w : Nat) : Bool :=
  s.rLo ≤ r && r ≤ s.rHi && s.wLo ≤ w && w ≤ s.wHi && (s.par == 2 || s.par == r % 2)

/-- The layout of a heath word, where it carries a field (R87). -/
def wordSpec (a : Nat) : Option WSpec := (wordsOf (tabOf a)).find? (fun s => s.covers (rowOf a) (wrdOf a))

/-- What an unlisted heath word reads as: its reset value (R109). -/
def resetWord (a : Nat) : Word :=
  match wordSpec a with
  | some s => s.reset
  | none => 0#32

/-- The listed word at `a`. -/
def Bank.find : Bank → Nat → Option Word
  | [], _ => none
  | (b, w) :: r, a => if b = a then some w else Bank.find r a

/-- The word at `a`. -/
def Bank.read (b : Bank) (a : Nat) : Word :=
  match b.find a with
  | some w => w
  | none => resetWord a

/-- The bank with no word listed at `a`. -/
def Bank.drop : Bank → Nat → Bank
  | [], _ => []
  | (b, w) :: r, a => if b = a then r else (b, w) :: Bank.drop r a

/-- The bank with `w` listed at `a`. -/
def Bank.put : Bank → Nat → Word → Bank
  | [], a, w => [(a, w)]
  | (b, x) :: r, a, w =>
    if a < b then (a, w) :: (b, x) :: r
    else if b = a then (a, w) :: r
    else (b, x) :: Bank.put r a w

/-- Writes a word; a word at its reset value is not listed. -/
def Bank.write (b : Bank) (a : Nat) (w : Word) : Bank :=
  if w = resetWord a then b.drop a else b.put a w

/-- Addresses strictly rise from above `lo`, and no listed word equals its reset value. -/
def Bank.wfFrom : Option Nat → Bank → Bool
  | _, [] => true
  | lo, (a, w) :: r =>
    (match lo with
     | none => true
     | some l => decide (l < a)) && decide (w ≠ resetWord a) && Bank.wfFrom (some a) r

/-- The canonical form of a bank. -/
def Bank.wf (b : Bank) : Bool := Bank.wfFrom none b

/-- Width of a field in bits. -/
def Fld.width (f : Fld) : Nat := f.hi + 1 - f.lo
/-- The word's bits that the field holds. -/
def Fld.mask (f : Fld) : Word := (BitVec.ofNat 32 (2 ^ f.width - 1)) <<< f.lo
/-- The field's value in a word. -/
def Fld.get (f : Fld) (w : Word) : Nat := (w.toNat / 2 ^ f.lo) % 2 ^ f.width
/-- The word with the field's value replaced. -/
def Fld.put (f : Fld) (w : Word) (v : Nat) : Word :=
  (w &&& ~~~ f.mask) ||| ((BitVec.ofNat 32 v <<< f.lo) &&& f.mask)
/-- Address of the field in row `r`. -/
def Fld.addr (f : Fld) (r : Nat) : Nat := hAddr f.tab r f.wrd
/-- The field `k` words on: one of an array of words. -/
def Fld.at (f : Fld) (k : Nat) : Fld := { f with wrd := f.wrd + k }
/-- The field's value in row `r` of a bank. -/
def Bank.fld (b : Bank) (f : Fld) (r : Nat) : Nat := f.get (b.read (f.addr r))
/-- The bank with the field of row `r` set. -/
def Bank.setFld (b : Bank) (f : Fld) (r v : Nat) : Bank := b.write (f.addr r) (f.put (b.read (f.addr r)) v)

namespace Chip

/-- The live value of an ST field (R90). -/
def lv (c : Chip) (f : Fld) (r : Nat) : Nat := c.heath.live.fld f r
/-- The staged value of an ST field. -/
def sg (c : Chip) (f : Fld) (r : Nat) : Nat := c.heath.staged.fld f r
/-- The present value of a status field. -/
def st (c : Chip) (f : Fld) (r : Nat) : Nat := c.heath.status.fld f r
/-- A live flag. -/
def on (c : Chip) (f : Fld) (r : Nat) : Bool := c.lv f r == 1
/-- The status bank replaced. -/
def withStatus (c : Chip) (b : Bank) : Chip := { c with heath := { c.heath with status := b } }
/-- Sets a status field. -/
def setSt (c : Chip) (f : Fld) (r v : Nat) : Chip := c.withStatus (c.heath.status.setFld f r v)
/-- Adds to a counter that wraps (R101). -/
def addSt (c : Chip) (f : Fld) (r n : Nat) : Chip := c.setSt f r (wrapAdd f.width (c.st f r) n)
/-- Adds to a counter that saturates. -/
def satSt (c : Chip) (f : Fld) (r n : Nat) : Chip := c.setSt f r (satAdd f.width (c.st f r) n)
/-- Bits of word `a` that an event sets on the present edge. -/
def markEvent (c : Chip) (a : Nat) (w : Word) : Chip := { c with heath := { c.heath with setNow := (a, w) :: c.heath.setNow } }
/-- Sets bits of a status field; a read that clears them on the same edge loses to the event (R14). -/
def orSt (c : Chip) (f : Fld) (r bits : Nat) : Chip :=
  (c.setSt f r (c.st f r ||| bits)).markEvent (f.addr r) (word (bits * 2 ^ f.lo))
/-- The bits of word `a` that events have set on the present edge (R14). -/
def eventBits (c : Chip) (a : Nat) : Word := (c.heath.setNow.filter (fun x => x.1 == a)).foldl (fun m x => m ||| x.2) 0#32

/-! ### Units of the part -/

/-- Queue `q` (QU0 to QU7, then QD0 to QD3). -/
def q (c : Chip) (i : Nat) : Queue := vget c.que i {}
/-- Uplink `u`. -/
def u (c : Chip) (i : Nat) : Uplink := vget c.upl i {}
/-- Tributary `t`. -/
def t (c : Chip) (i : Nat) : Trib := vget c.trib i {}
/-- Drop `d`. -/
def d (c : Chip) (i : Nat) : Drop := vget c.drop i {}
/-- Pair `p`. -/
def pair (c : Chip) (i : Nat) : Aps := vget c.aps i {}
/-- Queue `i` changed by `f`. -/
def onQ (c : Chip) (i : Nat) (f : Queue → Queue) : Chip := { c with que := vupd c.que i f }
/-- Uplink `i` changed by `f`. -/
def onU (c : Chip) (i : Nat) (f : Uplink → Uplink) : Chip := { c with upl := vupd c.upl i f }
/-- Tributary `i` changed by `f`. -/
def onT (c : Chip) (i : Nat) (f : Trib → Trib) : Chip := { c with trib := vupd c.trib i f }
/-- Drop `i` changed by `f`. -/
def onD (c : Chip) (i : Nat) (f : Drop → Drop) : Chip := { c with drop := vupd c.drop i f }
/-- Pair `i` changed by `f`. -/
def onP (c : Chip) (i : Nat) (f : Aps → Aps) : Chip := { c with aps := vupd c.aps i f }
/-- The meadow changed by `f`. -/
def onM (c : Chip) (f : Meadow → Meadow) : Chip := { c with mead := f c.mead }
/-- The collector changed by `f`. -/
def onCol (c : Chip) (f : Collector → Collector) : Chip := { c with col := f c.col }
/-- The port changed by `f`. -/
def onPort (c : Chip) (f : Port → Port) : Chip := { c with port := f c.port }
/-- DIR changed by `f`. -/
def onDir (c : Chip) (f : Dir → Dir) : Chip := { c with dir := f c.dir }
/-- The heath changed by `f`. -/
def onHeath (c : Chip) (f : Heath → Heath) : Chip := { c with heath := f c.heath }
/-- The time engine changed by `f`. -/
def onTime (c : Chip) (f : TimeEng → TimeEng) : Chip := { c with tim := f c.tim }
/-- The twin engine changed by `f`. -/
def onTwin (c : Chip) (f : Twin → Twin) : Chip := { c with twin := f c.twin }
/-- The power manager changed by `f`. -/
def onPow (c : Chip) (f : Power → Power) : Chip := { c with pow := f c.pow }
/-- Start-up state changed by `f`. -/
def onBoot (c : Chip) (f : Boot → Boot) : Chip := { c with boot := f c.boot }

/-! ### Free values -/

/-- Draws the next free value (a value the spec leaves open). [DESIGN CHOICE, log 5] -/
def draw (c : Chip) : Nat × Chip := (Config.freeNat c.free, { c with free := c.free + 1 })

end Chip

/-! ### Local clock -/

namespace Clock

/-- The cycle index (R21). -/
def idx (k : Clock) : Nat := k.ns % Config.tickCycles
/-- The tick number, 32 bits (R22). -/
def tick (k : Clock) : Nat := k.ticks % 2 ^ 32
/-- The tick in second (R22). -/
def tickSec (k : Clock) : Nat := k.ns / Config.tickCycles
/-- The event stamp of the present edge (R296). -/
def stamp (k : Clock) : Word := word k.evc
/-- Local time in ns. -/
def time (k : Clock) : Nat := k.sec * Config.secNs + k.ns
/-- Position of the present edge on the tick grid: ticks since core reset release in cycles, and the cycle index. -/
def pos (k : Clock) : Nat := k.ticks * Config.tickCycles + k.idx
/-- TOFS as 64 bits (R296). -/
def tofs (k : Clock) : Nat := unsigned 64 ((k.time : Int) - (k.evc : Int))
/-- In the fence (R34). -/
def inFence (k : Clock) : Bool := Config.fence ≤ k.idx
/-- At a superframe boundary (R22). -/
def superframe (k : Clock) : Bool := k.idx == 0 && k.ticks % 8 == 0
/-- EVC of cycle index 0 of tick `n` before or at the present one, by tick count. -/
def evcOfTick (k : Clock) (n : Nat) : Nat := k.evc - k.idx - (k.ticks - n) * Config.tickCycles

/-- `n` ordinary core-clock edges, never past the last cycle index of the tick (R21, R295, R296). -/
def elapse (k : Clock) (n : Nat) : Clock :=
  let m := min n (Config.lastIdx - k.idx)
  { k with ns := k.ns + m, evc := k.evc + m, edges := k.edges + m, sinceSlew := min 1000 (k.sinceSlew + m), skip := k.skip && m == 0 }

/-- Ordinary edges up to cycle index `i` of the tick, where it lies ahead. -/
def toIdx (k : Clock) (i : Nat) : Clock := k.elapse (i - k.idx)

/-- Ordinary edges up to EVC `e`, within the tick. -/
def toEvc (k : Clock) (e : Nat) : Clock := k.elapse (e - k.evc)

/-- The ordinary edge that begins a tick (R21, R22, R295). -/
def nextTick (k : Clock) : Clock :=
  let n := k.ns + 1
  { ticks := k.ticks + 1,
    sec := if n ≥ Config.secNs then (k.sec + 1) % 2 ^ 48 else k.sec,
    ns := if n ≥ Config.secNs then n - Config.secNs else n,
    evc := k.evc + 1,
    edges := k.edges + 1,
    up := 0, dn := 0, lastUp := k.up, lastDn := k.dn,
    sinceSlew := min 1000 (k.sinceSlew + 1) }

/-- EVC of core-clock edge `n`, at or before the present one, where only ordinary edges lie between. -/
def evcAt (k : Clock) (n : Nat) : Nat := k.evc - (k.edges - n)
/-- Local seconds at EVC `e`, at or before the present edge. -/
def secAt (k : Clock) (e : Nat) : Nat := (k.time - (k.evc - e)) / Config.secNs

end Clock

/-! ### Pins behind a fixed delay, and the interrupt pin -/

/-- The level a pin will have once everything on its way has reached it. -/
def Pin.final (p : Pin) : Bool := (p.sched.getLast?.map (·.2)).getD p.level
/-- Sends a level to the pin: it arrives on core-clock edge `e`.  Of the levels that one edge sends, the last counts. -/
def Pin.send (p : Pin) (e : Nat) (l : Bool) : Pin :=
  let p := { p with sched := p.sched.filter (fun x => x.1 != e) }
  if p.final = l then p else { p with sched := p.sched ++ [(e, l)] }
/-- Sends a level to the pin from edge `e`: it arrives four edges later (R78, R353). -/
def Pin.drive (p : Pin) (e : Nat) (l : Bool) : Pin := p.send (e + 4) l
/-- The levels that have arrived by edge `e`. -/
def Pin.settleList (e : Nat) : List (Nat × Bool) → Bool → Pin
  | [], l => { level := l }
  | (t, x) :: r, l => if t ≤ e then Pin.settleList e r x else { level := l, sched := (t, x) :: r }
/-- The pin on edge `e`. -/
def Pin.settle (p : Pin) (e : Nat) : Pin := Pin.settleList e p.sched p.level

namespace Window

/-- The unmasked cause bits (R78). -/
def unmasked (w : Window) : Word := w.icause &&& ~~~ w.imask
/-- The level INT_N is to take: asserted while an unmasked bit is set, outside the re-arm gap (R78, R79). -/
def want (w : Window) : Bool := w.unmasked != 0#32 && w.gapEnd.isNone
/-- A level reaches the INT_N pin on the edge of EVC `t`: an assertion latches GLINT and TSEC (R80). -/
def reach (k : Clock) (w : Window) (t : Nat) (l : Bool) : Window :=
  if l && !w.intn.level then
    { w with intn := { w.intn with level := true }, glint := word t, tsec := word (k.secAt t), glintEvc := t,
             glmulti := false }
  else { w with intn := { w.intn with level := l } }
/-- The scheduled levels of INT_N that have arrived. -/
def settleList (k : Clock) : List (Nat × Bool) → Window → Window
  | [], w => w
  | (t, l) :: r, w => if t ≤ k.edges then settleList k r (w.reach k (k.evcAt t) l) else { w with intn := { w.intn with sched := (t, l) :: r } }
/-- The interrupt pin brought up to the present edge. -/
def settle (k : Clock) (w : Window) : Window :=
  settleList k w.intn.sched { w with intn := { w.intn with sched := [] } }
/-- Sends the wanted level of INT_N on its way (R78). -/
def rewant (k : Clock) (w : Window) : Window := { w with intn := w.intn.drive k.edges w.want }
/-- Sets ICAUSE bits (R75); an unmasked bit that rises while INT_N is asserted sets GLMULTI (R80). -/
def setIcause (k : Clock) (bits : Word) (w : Window) : Window :=
  let fresh := bits &&& ~~~ w.icause &&& ~~~ w.imask
  ({ w with
    icause := w.icause ||| bits, glmulti := w.glmulti || (w.intn.level && fresh != 0#32),
    setBits := if w.setNo = k.edges then w.setBits ||| bits else bits, setNo := k.edges }).rewant k

end Window

namespace Chip

/-- The window registers changed by `f`. -/
def onWin (c : Chip) (f : Window → Window) : Chip := { c with win := f c.win }
/-- Sets ICAUSE bit `n`. -/
def icause (c : Chip) (k : Clock) (n : Nat) : Chip := c.onWin (Window.setIcause k (word (2 ^ n)))
/-- The delayed pins brought up to the present edge. -/
def settle (k : Clock) (c : Chip) : Chip :=
  { c with
    win := c.win.settle k, col := { c.col with faultn := c.col.faultn.settle k.edges },
    twin := { c.twin with claimPin := c.twin.claimPin.settle k.edges } }

/-- The part is shaded (R355): the collector shade, the start-up shade, the shadow role, or a warm reset. -/
def shaded (c : Chip) : Bool :=
  c.col.shade || c.boot.suShade || c.boot.watchShade ||
  decide (c.twin.role = .shadow) || c.twin.downDue || decide (c.win.warm = .acted)
/-- Core reset has been released and the core clock runs (R38). -/
def running (c : Chip) : Bool := decide (c.boot.phase = .run)

end Chip

/-! ### Cause bits of a block (R76) -/

/-- A block's cause field, its mask and the ICAUSE bit it sets. -/
structure CauseReg where
  cause : Fld
  en : Fld
  icause : Nat
  deriving DecidableEq, Repr

/-- U0 to U3 (R128). -/
def CauseReg.upl : CauseReg := ⟨UPLSTAT.CAUSE, UPL.CAUSEEN, 5⟩
/-- Protection pairs (R160). -/
def CauseReg.aps : CauseReg := ⟨APS.CAUSE, APS.CAUSEEN, 6⟩
/-- Drops (R221). -/
def CauseReg.drop : CauseReg := ⟨DROPSTAT.CAUSE, DROP.CAUSEEN, 7⟩
/-- Slot-map generations; the row is 2d (R197). -/
def CauseReg.slot : CauseReg := ⟨SLOTMAP.CAUSE, SLOTMAP.CAUSEEN, 8⟩
/-- Upward queues (R267). -/
def CauseReg.qup : CauseReg := ⟨QUEUE.CAUSE, QUEUE.CAUSEEN, 3⟩
/-- Downward queues (R267). -/
def CauseReg.qdn : CauseReg := ⟨QUEUE.CAUSE, QUEUE.CAUSEEN, 4⟩
/-- Audio ports (R288). -/
def CauseReg.audio : CauseReg := ⟨AUDIO.CAUSE, AUDIO.CAUSEEN, 9⟩
/-- TIME row 0 (R317). -/
def CauseReg.time0 : CauseReg := ⟨TIME.CAUSE, TIME.CAUSEEN, 12⟩
/-- Capture units (R317). -/
def CauseReg.tcap : CauseReg := ⟨TIME.CAP_CAUSE, TIME.CAP_CAUSEEN, 11⟩
/-- Timed outputs (R317). -/
def CauseReg.tout : CauseReg := ⟨TIME.OUT_CAUSE, TIME.OUT_CAUSEEN, 10⟩
/-- PPS_OUT (R317). -/
def CauseReg.pps : CauseReg := ⟨TIME.PPS_CAUSE, TIME.PPS_CAUSEEN, 10⟩
/-- DPLL channels (R342). -/
def CauseReg.dpll : CauseReg := ⟨DPLL.CAUSE, DPLL.CAUSEEN, 12⟩
/-- References (R342). -/
def CauseReg.ref : CauseReg := ⟨REF.CAUSE, REF.CAUSEEN, 12⟩
/-- Fault groups (R372). -/
def CauseReg.fgrp : CauseReg := ⟨FGRP.CAUSE, FGRP.CAUSEEN, 2⟩
/-- Twin engine. -/
def CauseReg.twin : CauseReg := ⟨TWIN.CAUSE, TWIN.CAUSEEN, 13⟩
/-- Power manager. -/
def CauseReg.power : CauseReg := ⟨POWER.CAUSE, POWER.CAUSEEN, 14⟩

/-- Sets cause bits of a block; an enabled one is a cause event, whether or not it was already 1 (R76). -/
def Chip.cause (c : Chip) (k : Clock) (g : CauseReg) (row bits : Nat) : Chip :=
  let c := c.orSt g.cause row bits
  if bits &&& c.lv g.en row = 0 then c else c.icause k g.icause

/-- As `Chip.cause`, where there are bits to set. -/
def Chip.causeIf (c : Chip) (k : Clock) (g : CauseReg) (row bits : Nat) : Chip :=
  if bits = 0 then c else c.cause k g row bits

/-- An uncorrectable word has been met in the live row `r` of table `t` (R108). -/
def Chip.liveBad (c : Chip) (t r : Nat) : Bool :=
  c.heath.upsets.any (fun u => u.bank == 1 && u.bits == 2 && u.found && tabOf u.addr == t && rowOf u.addr == r)

/-- A meaning that answers a next state. -/
abbrev Out := Host.Outcome State Fault Refusal

end Sys2Proof.Machine
end

