-- ==== Sys2Proof/Machine/Operands.lean ====
section
/-! DEFINITION. Operand forms: bytes and words, the part's CRCs, the command byte and tag of an Alisk beat, and packing
of bytes into queue words. -/

namespace Sys2Proof.Machine

/-! ### Bytes and words -/

/-- The four bytes of a word, most significant first. -/
def wordBytes (w : Word) : List Byte := [byte (w.toNat / 2 ^ 24), byte (w.toNat / 2 ^ 16), byte (w.toNat / 2 ^ 8), byte w.toNat]
/-- The value of bytes, most significant first. -/
def beVal (bs : List Byte) : Nat := bs.foldl (fun a b => a * 256 + b.toNat) 0
/-- The value of bytes `lo` to `hi`. -/
def beField (bs : List Byte) (lo hi : Nat) : Nat := beVal ((bs.drop lo).take (hi + 1 - lo))
/-- `n` bytes of `v`, most significant first. -/
def beBytes : Nat → Nat → List Byte
  | 0, _ => []
  | n + 1, v => byte (v / 256 ^ n) :: beBytes n v
/-- Byte `i`, or 0. -/
def byteAt (bs : List Byte) (i : Nat) : Nat := ((bs[i]?).map (·.toNat)).getD 0
/-- `n` zero bytes. -/
def zeros (n : Nat) : List Byte := List.replicate n 0#8
/-- `bs` cut or filled with zeros to `n` bytes. -/
def fit (n : Nat) (bs : List Byte) : List Byte := (bs ++ zeros (n - bs.length)).take n

/-! ### CRCs -/

/-- One bit of a CRC register of width `w`, most significant bit first. -/
def crcBit (w poly c : Nat) : Nat := if c.testBit (w - 1) then ((c * 2) ^^^ poly) % 2 ^ w else (c * 2) % 2 ^ w
/-- One byte. -/
def crcByte (w poly c : Nat) (b : Byte) : Nat := iter (crcBit w poly) 8 (c ^^^ (b.toNat * 2 ^ (w - 8)))
/-- A CRC over bytes, nothing reflected. -/
def crc (w poly init : Nat) (bs : List Byte) : Nat := bs.foldl (crcByte w poly) init
/-- The CRC-8 of the Alisk port and of drop blocks (R44). -/
def crc8 (bs : List Byte) : Byte := byte (crc 8 0x07 0xFF bs)
/-- HCRC and TCRC (R173). -/
def crc16 (bs : List Byte) : Nat := crc 16 0x1021 0xFFFF bs
/-- The header CRC of G.7041 (R140): PRESUMED initial value 0. [PRESUMED, log 32] -/
def crcHec (bs : List Byte) : Nat := crc 16 0x1021 0 bs
/-- The eight bits of a byte in the opposite order. -/
def revByte (b : Byte) : Byte := byte ((List.range 8).foldl (fun a i => a + bit (b.getLsbD i) * 2 ^ (7 - i)) 0)
/-- The `n` low bits of `v` in the opposite order. -/
def revBits (n v : Nat) : Nat := (List.range n).foldl (fun a i => a + bit (v.testBit i) * 2 ^ (n - 1 - i)) 0
/-- The CRC-32 of IEEE 802.3 (R187): input and output reflected, final inversion. -/
def crc32 (bs : List Byte) : Nat := (revBits 32 (crc 32 0x04C11DB7 0xFFFFFFFF (bs.map revByte))) ^^^ 0xFFFFFFFF

/-! ### Alisk beats -/


/-- The beat writes (R41). -/
def beatWr (cmd : Byte) : Bool := cmd.getLsbD 7
/-- The frame is a burst (R41). -/
def beatAi (cmd : Byte) : Bool := cmd.getLsbD 6
/-- The window index that the command names (R41). -/
def beatIdx (cmd : Byte) : Nat := cmd.toNat % 16
/-- EOP of a tag (R43). -/
def tagEop (t : Byte) : Bool := t.getLsbD 7
/-- VCNT of a tag (R43). -/
def tagVcnt (t : Byte) : Nat := t.toNat / 32 % 4
/-- The tag byte the part sends (R43). -/
def mkTag (eop : Bool) (vcnt : Nat) (idxErr prevErr hErr qErr : Bool) : Byte :=
  byte (bit eop * 128 + vcnt % 4 * 32 + bit idxErr * 16 + bit prevErr * 8 + bit hErr * 4 + bit qErr * 2)
/-- The CRC of a beat: command, data, tag (R44). -/
def beatCrc (cmd : Byte) (data : Word) (tag : Byte) : Byte := crc8 (cmd :: wordBytes data ++ [tag])

/-! ### Queue words -/

/-- VCNT of the last word of `n` bytes (R257). -/
def lastVcnt (n : Nat) : Nat := n % 4
/-- Bytes packed into queue words, the last with EOP and VCNT (R257). -/
def packWords : List Byte → List QWord
  | [] => []
  | [a] => [⟨word (a.toNat * 2 ^ 24), true, 1, 0⟩]
  | [a, b] => [⟨word (a.toNat * 2 ^ 24 + b.toNat * 2 ^ 16), true, 2, 0⟩]
  | [a, b, c] => [⟨word (a.toNat * 2 ^ 24 + b.toNat * 2 ^ 16 + c.toNat * 2 ^ 8), true, 3, 0⟩]
  | [a, b, c, d] => [⟨word (beVal [a, b, c, d]), true, 0, 0⟩]
  | a :: b :: c :: d :: r => ⟨word (beVal [a, b, c, d]), false, 0, 0⟩ :: packWords r
/-- Valid bytes of a queue word (R260). -/
def QWord.valid (w : QWord) : List Byte := (wordBytes w.data).take (if w.vcnt % 4 = 0 then 4 else w.vcnt % 4)
/-- The bytes of a downward item (R260). -/
def itemBytes (ws : List QWord) : List Byte := ws.flatMap (fun w => if w.eop then w.valid else wordBytes w.data)

end Sys2Proof.Machine
end

