-- ==== Sys2Proof/Machine/Flags.lean ====
section
/-! DEFINITION. Flag computations shared by the blocks: runs of consecutive observations, values accepted after equal
arrivals, degrade seconds, and bit sets of defects. -/

namespace Sys2Proof.Machine

/-- Bit `n` of a set. -/
def has (s n : Nat) : Bool := s.testBit n
/-- The set with bit `n` present or absent. -/
def setBit (s n : Nat) (b : Bool) : Nat := if b then s ||| 2 ^ n else if s.testBit n then s - 2 ^ n else s
/-- Bits that differ. -/
def changed (a b : Nat) : Nat := a ^^^ b
/-- The bits of a set below `w`, lowest first. -/
def bitsIn (w s : Nat) : List Nat := (List.range w).filter (fun i => s.testBit i)

/-- One more observation. -/
def Run.step (r : Run) (b : Bool) : Run := if b then ⟨r.hi + 1, 0⟩ else ⟨0, r.lo + 1⟩
/-- Raised after `up` in a row, cleared after `down` in a row, else as it was. -/
def Run.judge (r : Run) (up down : Nat) (was : Bool) : Bool :=
  if r.hi ≥ up then true else if r.lo ≥ down then false else was

/-- One more arrival of a value; it is accepted on the `n`-th equal one (R116). [DEDUCED, log 33] -/
def Offer.step (o : Offer) (v : Nat) : Offer :=
  let run := if o.run > 0 ∧ o.val = v then o.run + 1 else 1
  { val := v, run := run, taken := o.taken || decide (3 ≤ run) }

/-- One more second of a degrade integrator: bad, good, or neither (R119). -/
def Deg.close (d : Deg) (bad skip : Bool) : Deg := { count := 0, secs := if skip then d.secs else d.secs.step bad }
/-- The degrade defect after `m` consecutive seconds. -/
def Deg.judge (d : Deg) (m : Nat) (was : Bool) : Bool := d.secs.judge m m was

/-- Remove `x` from a list of naturals kept without repeats. -/
def without (x : Nat) (l : List Nat) : List Nat := l.filter (fun y => y ≠ x)
/-- Insert `x` into a rising list without repeats. -/
def insertSorted (x : Nat) : List Nat → List Nat
  | [] => [x]
  | y :: r => if x < y then x :: y :: r else if x = y then y :: r else y :: insertSorted x r

/-- Look up a key of an association list. -/
def assoc {α : Type} (l : List (Nat × α)) (a : Nat) (d : α) : α := ((l.find? (fun p => p.1 == a)).map (·.2)).getD d
/-- Set a key of an association list. -/
def assocSet {α : Type} (l : List (Nat × α)) (a : Nat) (v : α) : List (Nat × α) := (a, v) :: l.filter (fun p => p.1 ≠ a)

end Sys2Proof.Machine
end

