-- ==== Sys2Proof/Machine/Blocks.lean ====
section
/-! DEFINITION. The blocks that the power manager governs (R413, Table 16.1, Table 16.2): their kinds, states and wakes. -/

namespace Sys2Proof.Machine

/-- Wake latency of a state in cycles (Table 16.1). -/
def PwrState.latency : PwrState → Nat
  | .lit => 0 | .dim => 4 | .dusk => 200 | .dark => 2000 | .night => 60000
/-- Minimum gap of a state in cycles; NIGHT is for whole ticks only. -/
def PwrState.minGap : PwrState → Nat
  | .lit => 0 | .dim => 16 | .dusk => 400 | .dark => 2600 | .night => 125000
/-- Cycle indices before an event at which the wake from a state begins. -/
def PwrState.lead : PwrState → Nat
  | .lit => 0 | .dim => 8 | .dusk => 210 | .dark => 2010 | .night => 60100

/-- Kinds of block by number (Table 16.2). -/
def blkUpTx (b : Nat) : Bool := decide (b < 4)
def blkUpRx (b : Nat) : Bool := 4 ≤ b && b < 8
def blkDropTx (b : Nat) : Bool := 8 ≤ b && b < 104
def blkDropRx (b : Nat) : Bool := 104 ≤ b && b < 200
def blkAudio (b : Nat) : Bool := 200 ≤ b && b < 208
def blkTwin (b : Nat) : Bool := b == 208
def blkBank (b : Nat) : Bool := 209 ≤ b && b < 225
def blkGroom (b : Nat) : Bool := b == 225

/-- Port states in which a drop transmits (Table 8.2). -/
def PState.sends : PState → Bool
  | .quietec | .call | .prep | .probe | .select | .up => true
  | _ => false

namespace Chip

/-- Block `b` as the power manager has it. -/
def blk (c : Chip) (b : Nat) : PwrState := vget c.pow.block b .lit
/-- A copper transmitter stays off while ISO stands on its drop (R482). [DEDUCED, log 48] -/
def txMuted (c : Chip) (d : Nat) : Bool := decide (d < 64) && has (c.st DROPSTAT.DEF d) 12
/-- Drop `d` transmits: a copper front end presents its termination and a fibre front end's laser is lit in just these states, and
the shade ends it on its edge (R202, R224). -/
def dropSends (c : Chip) (d : Nat) : Bool := (c.d d).ps.sends && !c.shaded && !c.txMuted d
/-- Block `b` put into a state; a wake of it ends or is forgotten. -/
def setBlk (c : Chip) (b : Nat) (s : PwrState) : Chip :=
  c.onPow (fun p => { p with block := vupd p.block b (fun _ => s), wake := p.wake.filter (fun w => w.1 != b) })
/-- Block `b` begins its wake on the edge of EVC `e` (R413). -/
def beginWake (c : Chip) (b e : Nat) : Chip :=
  if c.blk b = .lit ∨ c.pow.wake.any (fun w => w.1 == b) then c
  else c.onPow (fun p => { p with wake := p.wake ++ [(b, e + (c.blk b).latency)] })
/-- Bank `b` enables block `i` (R421, R434). -/
def enabledBy (b : Bank) (i : Nat) : Bool :=
  if blkUpTx i then b.fld UPL.MODE i != 0
  else if blkUpRx i then b.fld UPL.MODE (i - 4) != 0
  else if blkDropTx i then b.fld DROP.EN (i - 8) == 1
  else if blkDropRx i then b.fld DROP.EN (i - 104) == 1
  else if blkAudio i then b.fld AUDIO.RXEN (i - 200) == 1 || b.fld AUDIO.TXEN (i - 200) == 1
  else if blkTwin i then b.fld TWIN.PAIREN 0 == 1
  else if blkGroom i then b.fld XBAR.GREN 0 == 1
  else true
/-- The live configuration enables block `i`. -/
def enabled (c : Chip) (i : Nat) : Bool := enabledBy c.heath.live i
/-- DEEPDIS keeps block `i` LIT (R421). -/
def keptLit (c : Chip) (i : Nat) : Bool := c.on POWER.DEEPDIS 0 && c.enabled i
/-- Wakes that have ended by EVC `e`: the blocks are LIT. -/
def endWakes (c : Chip) (e : Nat) : Chip :=
  (c.pow.wake.filter (fun w => w.2 ≤ e)).foldl (fun c w => c.setBlk w.1 .lit) c

end Chip

end Sys2Proof.Machine
end

