-- ==== Sys2Proof/Machine/QueueOps.lean ====
section
/-! DEFINITION. The host queues as the rest of the part uses them (R254 to R263, R267, R269, R270, R272): opening,
filling, committing, rewinding and dropping upward items; flushing; and the words of both directions. -/

namespace Sys2Proof.Machine

/-- Words an item of `n` body bytes takes (R255). -/
def itemWords (n : Nat) : Nat := 2 + (n + 3) / 4

/-- The last word of a list of queue words with errored bits. -/
def markLast (bits : Nat) (ws : List QWord) : List QWord :=
  ws.dropLast ++ (ws.getLast?.map (fun w => { w with err := bits })).toList

namespace Queue

/-- Words of committed items. -/
def committed (q : Queue) : Nat := (q.items.map List.length).sum
/-- Words of open items. -/
def reserved (q : Queue) : Nat := (q.opens.map (·.words)).sum
/-- Words held against the queue's space (R256, R259, R260). -/
def held (q : Queue) : Nat := q.committed + q.reserved + q.hostOpen.length
/-- The producer's item that still takes bytes. -/
def openOf (q : Queue) (kind unit : Nat) : Option OpenItem :=
  q.opens.find? (fun o => o.kind == kind && o.unit == unit && o.doneAt.isNone)
/-- The producer's oldest item whose last byte has been taken and which waits for its commit (R256). -/
def wholeOf (q : Queue) (kind unit : Nat) : Option OpenItem :=
  q.opens.find? (fun o => o.kind == kind && o.unit == unit && o.doneAt.isSome)
/-- Without the producer's item that still takes bytes. -/
def close (q : Queue) (kind unit : Nat) : Queue :=
  { q with opens := q.opens.eraseP (fun o => o.kind == kind && o.unit == unit && o.doneAt.isNone) }
/-- Without the producer's oldest whole item. -/
def closeWhole (q : Queue) (kind unit : Nat) : Queue :=
  { q with opens := q.opens.eraseP (fun o => o.kind == kind && o.unit == unit && o.doneAt.isSome) }
/-- Items at the tail of the queue that were committed on the present edge (R256, R260). -/
def fresh (q : Queue) (k : Clock) : Nat := if q.freshAt = k.edges then q.freshN else 0
/-- The head item was committed on an earlier edge: it can be read, or begun. -/
def ready (q : Queue) (k : Clock) : Bool := decide (q.fresh k < q.items.length)
/-- An item is committed on the present edge. -/
def append (q : Queue) (k : Clock) (ws : List QWord) : Queue :=
  { q with items := q.items ++ [ws], freshAt := k.edges, freshN := q.fresh k + 1 }
/-- The producer's remaining bytes are discarded. -/
def skipping (q : Queue) (kind unit : Nat) : Bool := q.skip.contains (kind, unit)
/-- Discard, or take again, the producer's bytes. -/
def setSkip (q : Queue) (kind unit : Nat) (b : Bool) : Queue :=
  let s := q.skip.filter (fun p => p != (kind, unit))
  { q with skip := if b then (kind, unit) :: s else s }

end Queue

namespace Chip

/-- The queue acts (R254). -/
def qEn (c : Chip) (i : Nat) : Bool := c.on QUEUE.EN i
/-- Words the queue may hold (R254). -/
def qCap (c : Chip) (i : Nat) : Nat := c.lv QUEUE.SIZE i * 256
/-- Free words of the queue. -/
def qFree (c : Chip) (i : Nat) : Nat := c.qCap i - (c.q i).held
/-- QSEL.LEVEL of the queue (R82, R254). -/
def qLevel (c : Chip) (i : Nat) : Nat := if c.qEn i then (if i < 8 then (c.q i).committed else c.qFree i) else 0
/-- The cause register of the queue (R267). -/
def qReg (i : Nat) : CauseReg := if i < 8 then .qup else .qdn
/-- USED and ITEMS as the queue stands (R266). -/
def qSync (c : Chip) (i : Nat) : Chip :=
  let x := c.q i
  (c.setSt QUEUE.USED i (if i < 8 then x.committed else x.held)).setSt QUEUE.ITEMS i x.items.length

/-- Counts one drop (R258, R261, R271). -/
def qDropped (c : Chip) (k : Clock) (i : Nat) : Chip :=
  (((c.addSt QUEUE.DROPPED i 1).onQ i (fun x => { x with gap := if i < 8 then min 15 (x.gap + 1) else 0, lostNow := true })).cause
    k (qReg i) i 4)
/-- Counts one rewind (R258). -/
def qRewound (c : Chip) (k : Clock) (i : Nat) : Chip := (c.addSt QUEUE.REWOUND i 1).cause k (qReg i) i 8
/-- Counts `n` rewinds; the cause is set once for the edge. -/
def qRewounds (c : Chip) (k : Clock) (i n : Nat) : Chip :=
  if n = 0 then c else (c.addSt QUEUE.REWOUND i n).cause k (qReg i) i 8

/-- The words of a committed item: its two head words and its body (R255, R257, R272). -/
def itemOf (gap : Nat) (k : Clock) (o : OpenItem) : List QWord :=
  let h0 := word (o.unit * 2 ^ 24 + o.kind * 2 ^ 20 + gap * 2 ^ 16 + o.bytes.length)
  let body := packWords o.bytes
  [⟨h0, false, 0, 0⟩, ⟨k.stamp, false, 0, 0⟩] ++ (if o.hurt = 0 then body else markLast o.hurt (body.take (o.hurtAt + 1)) ++ body.drop (o.hurtAt + 1))
/-- Commits a producer's whole item on the present edge (R255, R256). -/
def qCommit (c : Chip) (k : Clock) (i kind unit : Nat) : Chip :=
  match (c.q i).wholeOf kind unit with
  | some o =>
    (((c.onQ i (fun x => { (x.closeWhole kind unit).append k (itemOf x.gap k o) with gap := 0 })).qSync i).cause k (qReg i) i 2)
  | none => c

/-- Rewinds a producer's open item, if it has one, for a reason other than space (R258). -/
def qRewind (c : Chip) (k : Clock) (i kind unit : Nat) : Chip :=
  match (c.q i).openOf kind unit with
  | some _ => (c.onQ i (fun x => (x.close kind unit).setSkip kind unit true)).qRewound k i
  | none => c

/-- A producer begins an item: one of it that still takes bytes is rewound; one whose last byte has been taken stays for its own
commit (R256). -/
def qBegin (c : Chip) (k : Clock) (i kind unit : Nat) : Chip :=
  (c.qRewind k i kind unit).onQ i (fun x => x.setSkip kind unit false)

/-- Appends bytes to a producer's item, opening it with its first byte; without room it is dropped (R256, R258). -/
def qPush (c : Chip) (k : Clock) (i kind unit : Nat) (bs : List Byte) : Chip :=
  if bs = [] ∨ (c.q i).skipping kind unit = true then c
  else if c.qEn i = false then c.onQ i (fun x => x.setSkip kind unit true)
  else
    let old := ((c.q i).openOf kind unit).getD ⟨kind, unit, [], 0, none, 0, 0⟩
    let all := old.bytes ++ bs
    let rest := (c.q i).close kind unit
    let need := itemWords all.length
    if all.length ≤ 65535 ∧ rest.held + need ≤ c.qCap i then
      c.onQ i (fun _ => { rest with opens := rest.opens ++ [{ old with bytes := all, words := need }] })
    else (c.onQ i (fun _ => rest.setSkip kind unit true)).qDropped k i

/-- A producer's last byte has been taken, on the edge of EVC `e` (R256). -/
def qEnd (c : Chip) (i kind unit e : Nat) : Chip :=
  c.onQ i (fun x => { (x.setSkip kind unit false) with
    opens := x.opens.map (fun o => if o.kind == kind && o.unit == unit && o.doneAt.isNone then { o with doneAt := some e } else o) })

/-- Whether the queue has room for a whole item of `n` body bytes (R259). -/
def qRoom (c : Chip) (i n : Nat) : Bool := decide ((c.q i).held + itemWords n ≤ c.qCap i)

/-- A record writer's whole item, its last byte taken on the edge of EVC `e` (R259); the flag tells whether it fits. [DEDUCED, log 78] -/
def qRecord (c : Chip) (k : Clock) (i kind unit : Nat) (bs : List Byte) (e : Nat) : Chip × Bool :=
  if c.qEn i = false then (c, false)
  else
    if c.qRoom i bs.length then
      (c.onQ i (fun x => { x with opens := x.opens ++
        [⟨kind, unit, bs, itemWords bs.length, some e, 0, 0⟩] }), true)
    else (c.qDropped k i, false)

/-- A counter record of the last snapshot begins, where its queue has room for it (R149, R248, R259): one of the crossbar that has
none leaves its peaks counting on. -/
def beginRecord (c : Chip) (k : Clock) (r : RecDue) : Chip :=
  let q := if r.kind = 4 then c.lv TRIB.CNTQ r.unit else c.lv XBAR.XRECQ 0
  let (c, ok) := c.qRecord k q r.kind r.unit r.bytes (k.evc - (k.idx - r.start) + r.bytes.length - 1)
  if ok ∨ r.kind = 4 then c
  else { c with mead := { c.mead with dnPeak := max c.mead.dnPeak r.peaks.1, upPeak := max c.mead.upPeak r.peaks.2 } }
/-- The records whose first byte is due by the present edge. -/
def writeRecords (c : Chip) (k : Clock) : Chip :=
  let due := c.heath.recDue.filter (fun r => decide (r.start ≤ k.idx))
  if due = [] then c
  else due.foldl (fun c r => c.beginRecord k r)
    { c with heath := { c.heath with recDue := c.heath.recDue.filter (fun r => decide (k.idx < r.start)) } }

/-- A flush of queue `i` (R270); `whole` also abandons an item that its consumer has begun, as R269 does. -/
def qFlush (c : Chip) (k : Clock) (i : Nat) (whole : Bool) : Chip :=
  let x := c.q i
  if i < 8 then
    ((((c.onQ i (fun x => { x with
        items := [], opens := [], skip := x.opens.map (fun o => (o.kind, o.unit)) ++ x.skip,
        copy := none, gap := 0, freshN := 0 })).qRewounds k i x.opens.length).addSt QUEUE.FLUSHES i 1).qSync i)
  else
    let keep := x.begun && !whole
    let c := c.onQ i (fun x => { x with items := if keep then x.items.take 1 else [], hostOpen := [], begun := keep, freshN := 0 })
    let c := if x.hostOpen = [] then c else c.qRewound k i
    let c := if x.begun && whole then c.qDropped k i else c
    ((c.addSt QUEUE.FLUSHES i 1).qSync i)

/-- The next word that an upward queue can give out (R42, R256). -/
def qHead (c : Chip) (k : Clock) (i : Nat) : Option QWord :=
  if (c.q i).ready k then ((c.q i).items.head?.getD []).head? else none
/-- The next word of an upward queue is consumed (R54): it becomes the replay copy, with the QERR of its tag. -/
def qPop (c : Chip) (i : Nat) (w : QWord) (err : Bool) : Chip :=
  (c.onQ i (fun x => { x with
    items := match x.items with
      | (_ :: []) :: r => r
      | (_ :: ws) :: r => ws :: r
      | l => l
    copy := some w, copyErr := err })).qSync i

/-- The head item of downward queue `i` goes back whole: its consumer stops in the middle (R262). -/
def qReturn (c : Chip) (k : Clock) (i : Nat) : Chip :=
  if (c.q i).begun then (c.onQ i (fun x => { x with begun := false })).qRewound k i else c

/-- The consumer abandons the item it has begun at an uncorrectable word (R272). -/
def qAbandon (c : Chip) (k : Clock) (i : Nat) : Chip :=
  ((c.onQ i (fun x => { x with begun := false, items := x.items.drop 1 })).qSync i).qDropped k i

/-- The consumer takes the last byte of the head item (R262). -/
def qFinish (c : Chip) (k : Clock) (i : Nat) : Chip :=
  ((c.onQ i (fun x => { x with begun := false, items := x.items.drop 1 })).qSync i).cause k (qReg i) i 2

end Chip

end Sys2Proof.Machine
end

