-- ==== Sys2Proof/Machine/Shade.lean ====
section
/-! DEFINITION. What the shade does to the outputs and to work in flight on the edge on which it falls or lifts (R61,
R132, R202, R224, R262, R274, R292, R319, R355, R358, R381). -/

namespace Sys2Proof.Machine

namespace Chip

/-- The laser of uplink `u` is lit (R111). -/
def laserOn (c : Chip) (u : Nat) : Bool := decide (c.lv UPL.MODE u ≠ 0) && c.on UPL.TXEN u && !c.shaded
/-- Every laser as R111 gives it. -/
def syncLasers (c : Chip) : Chip := overN 4 (fun u c => c.onU u (fun x => { x with laser := c.laserOn u, dark := none })) c

/-- The level that TWN_CLAIM is to take (R381, R400); without VIO it is not driven (R481). [DEDUCED, log 15] -/
def wantClaim (c : Chip) : Bool :=
  !c.port.vioLost && ((decide (c.twin.role ≠ .shadow) && !c.shaded && c.twin.keepLow.isNone && decide (c.boot.phase = .run)) ||
  (match c.twin.req with
   | some (.tentative _) => true
   | _ => false) || c.twin.lightDue)
/-- TWN_CLAIM as R381 gives it: a change reaches the pin two edges later. -/
def syncClaim (c : Chip) (k : Clock) : Chip :=
  let l := c.wantClaim
  (c.onTwin (fun t => { t with claim := l, claimPin := t.claimPin.send (k.edges + 2) l })).setSt TWIN.CLAIMO 0 (bit l)

/-- The shadow is no longer armed (R380). -/
def disarm (c : Chip) (k : Clock) : Chip :=
  if c.st TWIN.ARMED 0 = 1 then (c.setSt TWIN.ARMED 0 0).cause k .twin 0 8 else c

/-- The receive side (`rx`) or transmit side of audio port `p`. -/
def side (c : Chip) (p : Nat) (rx : Bool) : ASide := vget (if rx then c.aud.rx else c.aud.tx) p {}
/-- The side changed by `f`. -/
def onSide (c : Chip) (p : Nat) (rx : Bool) (f : ASide → ASide) : Chip :=
  { c with aud := if rx then { c.aud with rx := vupd c.aud.rx p f } else { c.aud with tx := vupd c.aud.tx p f } }
/-- The side is a master (R284). -/
def master (c : Chip) (p : Nat) (rx : Bool) : Bool := if rx then c.on AUDIO.RXMST p else c.on AUDIO.TXMST p
/-- The side's enable. -/
def sideEn (c : Chip) (p : Nat) (rx : Bool) : Bool := if rx then c.on AUDIO.RXEN p else c.on AUDIO.TXEN p
/-- RXRUN, RXFILL or TXRUN, TXFILL as the side stands. -/
def syncSide (c : Chip) (p : Nat) (rx : Bool) : Chip :=
  let x := c.side p rx
  if rx then (c.setSt AUDIO.RXRUN p (bit x.run)).setSt AUDIO.RXFILL p (min 63 (x.store.length + x.heard))
  else (c.setSt AUDIO.TXRUN p (bit x.run)).setSt AUDIO.TXFILL p (min 63 x.store.length)
/-- RUN of a side (R285): a change sets CAUSE bit 6 or 7. -/
def setRun (c : Chip) (k : Clock) (p : Nat) (rx b : Bool) : Chip :=
  let was := (c.side p rx).run
  let c := (c.onSide p rx (fun x => { x with run := b, whole := b && x.whole })).syncSide p rx
  if was = b then c else c.cause k .audio p (if rx then 64 else 128)
/-- The side stops: its frames are discarded and counted (R291, R292). -/
def stopSide (c : Chip) (k : Clock) (p : Nat) (rx : Bool) : Chip :=
  let n := (c.side p rx).store.length + (c.side p rx).heard
  ((c.onSide p rx (fun x => { x with on := false, store := [], heard := 0, tail := false })).addSt AUDIO.DISCARD p n).setRun k p rx false

/-- Transmitters go to the state that the shade gives them (R405, R433). -/
def shadeBlocks (c : Chip) : Chip :=
  let tx := fun (i : Nat) (s : PwrState) (c : Chip) =>
    if c.blk i == .night || c.keptLit i || c.pow.wake.any (fun w => w.1 == i) then c else c.setBlk i s
  overN 96 (fun d c => tx (8 + d) .dark c) (overN 4 (fun u c => tx u (if c.twin.role = .shadow then .dusk else .dark) c) c)
/-- Uplink transmitters that the shade had put to rest wake as it lifts. -/
def wakeUplinks (c : Chip) (k : Clock) : Chip :=
  overN 4 (fun u c => if c.lv UPL.MODE u = 0 ∨ c.blk u = .night then c else c.beginWake u k.evc) c

/-- The shade falls (WSTAT.SHADE becomes 1). -/
def shadeFalls (c : Chip) (k : Clock) : Chip :=
  let c := c.syncLasers.shadeBlocks
  let c := overN 8 (fun p c => if c.master p true && (c.side p true).on then c.stopSide k p true else c) c
  let c := overN 8 (fun p c => if (c.side p false).on then c.stopSide k p false else c) c
  let c := overN 4 (fun i c => c.qReturn k (8 + i)) c
  let c := overN 4 (fun u c => c.onU u (fun x => { x with gcc := {}, oh := [], opu := [] })) c
  c.syncClaim k

/-- The shade lifts (WSTAT.SHADE becomes 0): lasers and the claim follow at once, drops and audio sides at the next tick
boundary, outputs take the level of their schedule. -/
def shadeLifts (c : Chip) (k : Clock) : Chip := (c.syncLasers.wakeUplinks k).syncClaim k

/-- The effects of a change of WSTAT.SHADE from what it was before. -/
def reshade (c : Chip) (k : Clock) (was : Bool) : Chip :=
  if was = c.shaded then c.syncClaim k else if c.shaded then c.shadeFalls k else c.shadeLifts k

end Chip

end Sys2Proof.Machine
end

