-- ==== Sys2Proof/Machine/Collector.lean ====
section
/-! DEFINITION. The fault collector (chapter 14): events of sources, classification, capture, FAULT_N, the collector shade,
clears, recovery, injection, the watchdog. -/

namespace Sys2Proof.Machine

/-- Group of a source (R348). -/
def grpOf (s : Nat) : Nat := s / 16
/-- Rows listed as not used: their reset severity is OFF (R349, Table 14.8). -/
def unusedSrc (s : Nat) : Bool := FSRC.SEV.get (resetWord (FSRC.SEV.addr s)) == 0
/-- The source is a level source (R348): its condition is present over a span of edges. [DESIGN CHOICE, log 89] -/
def levelSrc (s : Nat) : Bool :=
  (decide (s < 64) && s % 16 != 15) || (64 ≤ s && s < 168) || (178 ≤ s && s ≤ 183) || s == 185 || s == 210 || s == 211 ||
  (256 ≤ s && s ≤ 261) || s == 263 || (272 ≤ s && s ≤ 274) || s == 276 || s == 277

namespace Chip

/-! ### Capture (R359, R360, R370) -/

/-- Writes entry `i` of group `g`: KIND, source, SEQ, and the edge's stamp and local time. -/
def putEntry (c : Chip) (k : Clock) (g i kind src seq : Nat) : Chip :=
  let r := 16 * g + i
  let b := c.heath.status
  let b := b.write (hAddr 0x62 r 0) (word (2 ^ 31 + kind * 2 ^ 28 + src * 2 ^ 16 + seq % 2 ^ 16))
  let b := b.write (hAddr 0x62 r 1) k.stamp
  let b := b.write (hAddr 0x62 r 2) (word k.sec)
  c.withStatus (b.write (hAddr 0x62 r 3) (word k.ns))

/-- Writes a HISTORY entry of group `g` (R360); in LATCH mode nothing. -/
def history (c : Chip) (k : Clock) (g kind src : Nat) : Chip :=
  if c.on FGRP.MODE g then
    let i := c.st FGRP.NEXT g
    let n := vget c.col.seq g 0
    ((c.putEntry k g i kind src n).setSt FGRP.NEXT g ((i + 1) % 16)).onCol (fun x => { x with seq := vupd x.seq g (· + 1) })
  else c

/-- Latches a fault event in LATCH mode, or counts it as a later one (R359, R373). -/
def latch (c : Chip) (k : Clock) (g kind src : Nat) : Chip :=
  if c.on FGRP.MODE g then c
  else if c.st FGRP.LATVALID g = 0 then
    ((c.putEntry k g 0 kind src 0).setSt FGRP.LATVALID g 1).setSt FGRP.LATSRC g src
  else ((c.setSt FGRP.OVF g 1).satSt FGRP.OVFCNT g 1).cause k .fgrp g 8

/-- Re-arms the latch of group `g` (R359). -/
def rearm (c : Chip) (g : Nat) : Chip := ((c.setSt FGRP.LATVALID g 0).setSt FGRP.OVF g 0).setSt FGRP.OVFCNT g 0

/-! ### Uncleared faults and the collector shade -/

/-- Some SEVERE source holds an uncleared fault (R355). -/
def severe (c : Chip) : Bool := c.col.flt.any (fun s => c.lv FSRC.SEV s == 3)
/-- FAULT_N follows the uncleared faults (R353). -/
def syncFaultN (c : Chip) (k : Clock) : Chip :=
  c.onCol (fun x => { x with faultn := x.faultn.drive k.edges (x.flt != []) })

/-- FLT of source `s` written, with FLTMAP. -/
def putFlt (c : Chip) (s : Nat) (b : Bool) : Chip :=
  ((c.onCol (fun x => { x with flt := if b then insertSorted s x.flt else without s x.flt })).setSt FSRC.FLT s (bit b)).setSt
    FGRP.FLTMAP (grpOf s) (setBit (c.st FGRP.FLTMAP (grpOf s)) (s % 16) b)

/-- The collector shade begins where a SEVERE fault stands uncleared, and ends where none does (R355, R364). -/
def syncShade (c : Chip) (k : Clock) (src : Nat) : Chip :=
  let was := c.shaded
  if c.severe && !c.col.shade then
    let keep := decide (c.twin.role = .lit) && c.twin.peerArmed
    let c := c.onCol (fun x => { x with
      shade := true, shadeEvc := k.evc, shadeSelf := 369 ≤ src && src ≤ 374, lanternHeld := true })
    let c := if keep then c.onTwin (fun t => { t with keepLow := some k.ticks }) else c
    let c := c.disarm k
    ((c.setSt FGRP.CSHADE 23 1).cause k .fgrp 23 16).reshade k was
  else if !c.severe && c.col.shade then
    let c := c.onCol (fun x => { x with shade := false })
    ((c.setSt FGRP.CSHADE 23 0).cause k .fgrp 23 32).reshade k was
  else c

/-- The source is raised, or makes a fault event, on the present edge (R361, R374); `loud` for a FAULT or SEVERE one. -/
def markEdge (c : Chip) (k : Clock) (s : Nat) (loud : Bool) : Chip :=
  c.onCol (fun x => { x with
    edgeLoud := (decide (x.edgeNo = k.edges) && x.edgeLoud) || loud,
    edge := if x.edgeNo = k.edges then s :: x.edge else [s], edgeNo := k.edges })

/-- A fault event of source `s` (R352). -/
def fltEvent (c : Chip) (k : Clock) (s : Nat) : Chip :=
  let sev := c.lv FSRC.SEV s
  let g := grpOf s
  let c := (c.addSt FSRC.EVENTS s 1).addSt FGRP.GEVENTS g 1
  let c := c.markEdge k s (decide (2 ≤ sev))
  let kind := if sev = 1 then 2 else 1
  let c := (c.history k g kind s).latch k g kind s
  let c := c.cause k .fgrp g (if sev = 1 then 2 else 1)
  if sev = 1 then c
  else
    let c := c.onCol (fun x => { x with loud := true })
    let c := if k.idx = 0 then c.setSt FGRP.QUIETCNT 23 0 else c
    ((c.putFlt s true).syncFaultN k).syncShade k s

/-- The COUNT window of source `s` as it stands on the present tick: a window that has closed is tumbled (R351). [DEDUCED, log 49] -/
def tumble (c : Chip) (k : Clock) (s : Nat) : Chip :=
  let o := assoc c.col.winOpen s 0
  let w := c.lv FSRC.W s
  if c.on FSRC.CLASS s && decide (0 < w ∧ w ≤ k.ticks - o) then
    (c.onCol (fun x => { x with winOpen := assocSet x.winOpen s (o + (k.ticks - o) / w * w) })).setSt FSRC.WCOUNT s 0
  else c

/-- A new COUNT window of source `s` opens (R351, R375). -/
def openWindow (c : Chip) (k : Clock) (s : Nat) : Chip :=
  (c.onCol (fun x => { x with winOpen := assocSet x.winOpen s k.ticks })).setSt FSRC.WCOUNT s 0

/-- An event of source `s`: counted, classified, and made a fault event where its class says so (R350). [DEDUCED, log 49] -/
def srcEvent (c : Chip) (k : Clock) (s : Nat) : Chip :=
  let c := if unusedSrc s || levelSrc s then c else c.markEdge k s false
  if unusedSrc s ∨ c.lv FSRC.SEV s = 0 then c
  else
    let c := (c.tumble k s).addSt FSRC.RAISES s 1
    if c.on FSRC.CLASS s then
      let n := c.st FSRC.WCOUNT s
      let c := c.satSt FSRC.WCOUNT s 1
      if n + 1 = c.lv FSRC.N s then c.fltEvent k s else c
    else c.fltEvent k s

/-- The condition of level source `s` on the present edge (R348): each rise is one event. -/
def setCond (c : Chip) (k : Clock) (s : Nat) (present : Bool) : Chip :=
  let was := c.col.cond.contains s
  let c := if was = present then c
    else (c.onCol (fun x => { x with cond := if present then insertSorted s x.cond else without s x.cond })).setSt
      FSRC.COND s (bit present)
  if present && !was then c.srcEvent k s else c

/-- The armed injection lands: INJARM, INJDONE and the INJECT entry (R367). [DEDUCED, log 25] -/
def injLanded (c : Chip) (k : Clock) (tgt : Nat) : Chip :=
  let c := (c.onCol (fun x => { x with inj := none })).setSt FGRP.INJARM 23 0
  (c.cause k .fgrp 23 128).history k (grpOf tgt) 4 tgt

/-- Events of several sources on one edge, lowest first (R373). -/
def raise (c : Chip) (k : Clock) (srcs : List Nat) : Chip :=
  srcs.foldl (fun c s => c.srcEvent k s) c

/-! ### Clearing (R361, R363, R375) -/

/-- The record of an FLT that cleared: CAUSE.CLEAR and, in HISTORY mode, a CLEAR entry (R360, R361). -/
def cleared (c : Chip) (k : Clock) (s : Nat) : Chip := (c.cause k .fgrp (grpOf s) 4).history k (grpOf s) 3 s
/-- FLT of source `s` clears. -/
def clearFlt (c : Chip) (k : Clock) (s : Nat) : Chip := (c.putFlt s false).cleared k s

/-- The source may be cleared on the present edge: its FLT stands, its condition is absent, and no event of an event source
and no fault event of a level source lies on this edge (R361, R374). -/
def clearable (c : Chip) (k : Clock) (s : Nat) : Bool :=
  c.col.flt.contains s && !c.col.cond.contains s && !(decide (c.col.edgeNo = k.edges) && c.col.edge.contains s)

/-- The sources of group `g`, lowest first. -/
def grpSrcs (g : Nat) : List Nat := (List.range 16).map (fun i => 16 * g + i)

/-- Sources that an automatic recovery would clear (R363). -/
def recoverable (c : Chip) (k : Clock) : List Nat :=
  c.col.flt.filter (fun s => c.on FGRP.AUTOREC (grpOf s) && c.clearable k s)

/-- An automatic recovery is due (R363). -/
def recoveryDue (c : Chip) (k : Clock) : Bool :=
  decide (c.lv FGRP.QUIET 23 ≤ c.st FGRP.QUIETCNT 23) &&
  (c.lv FGRP.RECLIM 23 == 0 || decide (c.st FGRP.RECRUN 23 < c.lv FGRP.RECLIM 23)) &&
  c.recoverable k != [] && !(decide (c.col.edgeNo = k.edges) && c.col.edgeLoud)

/-- The automatic recovery (R363). -/
def recover (c : Chip) (k : Clock) : Chip :=
  let srcs := c.recoverable k
  let c := srcs.foldl (fun c s => c.clearFlt k s) c
  let c := overN 24 (fun g c => if srcs.any (fun s => grpOf s == g) && !c.col.flt.any (fun s => grpOf s == g) then c.rearm g else c) c
  let c := ((c.satSt FGRP.RECOVERIES 23 1).satSt FGRP.RECRUN 23 1).cause k .fgrp 23 64
  (c.syncFaultN k).syncShade k 0

/-- The quiet count at a tick boundary (R362). -/
def quietCount (c : Chip) : Chip :=
  let quiet := !c.col.loud && !c.col.cond.any (fun s => c.lv FSRC.SEV s == 3)
  (if quiet then c.satSt FGRP.QUIETCNT 23 1 else c.setSt FGRP.QUIETCNT 23 0).onCol (fun x => { x with loud := false })

/-- LANTERN on a tick-boundary edge (R354). -/
def lanternTick (c : Chip) (k : Clock) : Chip :=
  c.onCol (fun x =>
    let held := x.shade || (x.lanternHeld && !k.superframe)
    { x with lanternHeld := held, lantern := !held && decide (k.ticks % 8 < 4) })

/-- The collector's own state of group `g` is lost to an uncorrectable word (R377). -/
def loseGroup (c : Chip) (k : Clock) (g : Nat) : Chip :=
  let c := (grpSrcs g).foldl (fun c s => (c.putFlt s (decide (2 ≤ c.lv FSRC.SEV s))).openWindow k s) c
  (c.syncFaultN k).syncShade k 373

end Chip

/-- INJTGT is a row of Table 14.6 (R366). -/
def injTarget (t : Nat) : Bool :=
  (224 ≤ t && t ≤ 241) || (289 ≤ t && t ≤ 295) || (304 ≤ t && t ≤ 311) || (320 ≤ t && t ≤ 355) || t == 369 || t == 373

end Sys2Proof.Machine
end

