-- ==== Sys2Proof/Machine/Rules.lean ====
section
/-! DEFINITION. The commit rules: reserved encodings (R13, R103) and the rules of every chapter (R125, R161, R196, R218,
R247, R268, R287, R316, R326, R341, R371, R409, R430), as the violations that stand in a staged bank. -/

namespace Sys2Proof.Machine

/-- Staged words and what the rules compare them with. -/
structure RuleCtx where
  b : Bank
  l : Bank
  c : Chip
  k : Clock

/-- Rows of table `t` that a bank lists, rising: a row with every word at its reset value breaks no rule of its own. -/
def Bank.rows (b : Bank) (t : Nat) : List Nat :=
  b.foldr (fun p l => if tabOf p.1 = t then insertSorted (rowOf p.1) l else l) []

/-- A violation with its rule number, what breaks it, and the word it is about. -/
def viol (cond : Bool) (cause rule x y addr : Nat) : List Standing :=
  if cond then [⟨cause, rule * 2 ^ 64 + x * 2 ^ 32 + y, addr⟩] else []

/-- Ordered pairs of a list, first before second. -/
def pairs {α : Type} : List α → List (α × α)
  | [] => []
  | x :: r => r.map (fun y => (x, y)) ++ pairs r

namespace RuleCtx

/-- A staged field. -/
def g (x : RuleCtx) (f : Fld) (r : Nat) : Nat := x.b.fld f r
/-- A staged flag. -/
def is (x : RuleCtx) (f : Fld) (r : Nat) : Bool := x.g f r == 1

/-! ### Reserved encodings (R13) -/

/-- A staged field whose value is not listed, in each listed row of its table. -/
def resv (x : RuleCtx) (f : Fld) (lo hi : Nat) (bad : Nat → Bool) : List Standing :=
  (x.b.rows f.tab).flatMap (fun r =>
    viol (lo ≤ r && r ≤ hi && bad (x.g f r)) 5 (f.tab * 64 + f.wrd) r (f.lo * 64 + f.hi) (f.addr r))

/-- Every reserved encoding of the staged bank. -/
def reserved (x : RuleCtx) : List Standing :=
  x.resv UPL.MODE 0 3 (fun v => 5 ≤ v) ++ x.resv UPL.TCM1MODE 0 3 (· == 3) ++
  x.resv UPL.DEGM 0 3 (fun v => v ≤ 1 || 11 ≤ v) ++
  x.resv APS.MODE 0 1 (· == 3) ++ x.resv APS.EXTCMD 0 1 (fun v => 5 ≤ v) ++
  x.resv DROP.MODE 0 95 (fun v => v == 0 || 5 ≤ v) ++ x.resv DROP.MINMODE 0 95 (fun v => v == 0 || 5 ≤ v) ++
  (List.range 56).flatMap (fun i => x.resv { SLOTMAP.RUN.at i with hi := 30, lo := 28 } 0 191 (fun v => 6 ≤ v)) ++
  x.resv GROOM.TYPE 0 1023 (fun v => !(v == 0 || v == 2 || v == 3 || v == 5)) ++
  x.resv AUDIO.FS 0 7 (· == 3) ++
  x.resv TIME.CAP_EDGE 2 5 (· == 0) ++ x.resv TIME.OUT_MODE 6 13 (· == 3) ++
  x.resv REF.INFREQ 0 7 (· == 3) ++
  x.resv FGRP.INJMODE 23 23 (fun v => v == 0 || v == 3) ++
  x.resv POWER.THRMODE 0 0 (fun v => v == 0 || 4 ≤ v)

/-! ### UPLINK (R125) -/

/-- OTN modes. -/
def otn (m : Nat) : Bool := m == 1 || m == 2
/-- Ethernet modes. -/
def eth (m : Nat) : Bool := m == 3 || m == 4

/-- R125. -/
def uplink (x : RuleCtx) : List Standing :=
  (x.b.rows 0x10).flatMap (fun r =>
    let m := x.g UPL.MODE r
    let tti := fun (f : Fld) => viol (otn m && decide (x.g f r / 2 ^ 24 ≠ 0)) 0x10 3 r f.wrd (f.addr r)
    viol (decide (signed 16 (x.g UPL.LOSCLR r) < signed 16 (x.g UPL.LOSSET r) + 100)) 0x10 1 r 0 (UPL.LOSCLR.addr r) ++
    viol (x.g UPL.DEGTHR r == 0) 0x10 2 r 0 (UPL.DEGTHR.addr r) ++
    [UPL.TXTTI, UPL.EXPSM, UPL.EXPPM].flatMap (fun f => tti f ++ tti (f.at 4)) ++
    viol (m == 4 && (x.g UPL.FECRX r != x.g UPL.FECTX r || (x.is UPL.BYPIND r && !x.is UPL.FECTX r))) 0x10 4 r 0
      (UPL.MODE.addr r) ++
    viol (m == 0 && (x.is UPL.PRBSG r || x.is UPL.PRBSC r || x.is UPL.LOOPNE r)) 0x10 5 r 0 (UPL.MODE.addr r)) ++
  (pairs (x.b.rows 0x10)).flatMap (fun (r, s) =>
    viol (x.is UPL.GCCDNEN r && x.is UPL.GCCDNEN s && x.g UPL.GCCQD r == x.g UPL.GCCQD s) 0x10 6 r s (UPL.GCCQD.addr s))

/-! ### TRIB (R161) -/

/-- R161. -/
def trib (x : RuleCtx) : List Standing :=
  let v := (x.b.rows 0x12).filter (fun r => x.is TRIB.VALID r)
  let mode := fun u => x.g UPL.MODE u
  let work := fun u => if x.g APS.MODE (u / 2) = 0 then u else u / 2 * 2
  v.flatMap (fun r =>
    let u := x.g TRIB.UPL r
    let len := x.g TRIB.MAXLEN r
    viol (u % 2 == 1 && x.g APS.MODE (u / 2) != 0) 0x11 1 r 0 (TRIB.UPL.addr r) ++
    viol (decide (95 < x.g TRIB.DROP r)) 0x11 2 r 0 (TRIB.DROP.addr r) ++
    viol (decide (len < 64 ∨ 9600 < len)) 0x11 3 r 0 (TRIB.MAXLEN.addr r) ++
    viol (otn (mode u) && decide (256 ≤ x.g TRIB.KEY r)) 0x11 4 r 0 (TRIB.KEY.addr r) ++
    viol (eth (mode u) && (x.g TRIB.KEY r == 0 || x.g TRIB.KEY r == 0xFFF)) 0x11 5 r 0 (TRIB.KEY.addr r) ++
    viol (x.g TRIB.WEIGHT r == 0 && x.is TRIB.ENUP r) 0x11 6 r 0 (TRIB.WEIGHT.addr r) ++
    viol (x.g TRIB.UPCAP r != 0 && decide (x.g TRIB.UPCAP r * 64 < len)) 0x11 7 r 0 (TRIB.UPCAP.addr r)) ++
  (pairs v).flatMap (fun (r, s) =>
    viol (x.g TRIB.KEY r == x.g TRIB.KEY s && work (x.g TRIB.UPL r) == work (x.g TRIB.UPL s)) 0x11 8 r s (TRIB.KEY.addr s) ++
    viol (x.g TRIB.DROP r == x.g TRIB.DROP s && x.g TRIB.DCID r == x.g TRIB.DCID s) 0x11 9 r s (TRIB.DCID.addr s)) ++
  [0, 1].flatMap (fun p =>
    let w := mode (2 * p)
    viol (x.g APS.MODE p != 0 && w != mode (2 * p + 1)) 0x11 10 p 0 (APS.MODE.addr p) ++
    viol (x.g APS.MODE p != 0 && (w == 0 || mode (2 * p + 1) == 0)) 0x11 14 p 0 (APS.MODE.addr p) ++
    viol (x.g APS.MODE p == 2 && (eth w || eth (mode (2 * p + 1)))) 0x11 11 p 0 (APS.MODE.addr p) ++
    viol (decide (10000 < x.g APS.HOLDOFF p)) 0x11 12 p 0 (APS.HOLDOFF.addr p) ++
    viol (x.g APS.WTR p == 0 || decide (720000 < x.g APS.WTR p)) 0x11 13 p 0 (APS.WTR.addr p))

/-! ### DROP (R218) -/

/-- Downward queues named by enabled fields of word 3 of DROP row `r`. -/
def dropNames (x : RuleCtx) (r : Nat) : List Nat :=
  (if x.is DROP.MCHDEN r then [x.g DROP.MCHDQ r] else []) ++ (if x.is DROP.MBKDEN r then [x.g DROP.MBKDQ r] else []) ++
  (if x.is DROP.SNSDEN r then [x.g DROP.SNSDQ r] else [])
/-- R218. -/
def drop (x : RuleCtx) : List Standing :=
  let rs := x.b.rows 0x20
  let own := rs.flatMap (fun r => (x.dropNames r).map (fun q => (q, hAddr 0x20 r 3)))
  let all := own ++ (List.range 4).flatMap (fun u => if x.is UPL.GCCDNEN u then [(x.g UPL.GCCQD u, UPL.GCCQD.addr u)] else [])
  rs.flatMap (fun r =>
    let copper := decide (r < 64)
    let m := x.g DROP.MODE r
    let n := x.g DROP.MINMODE r
    viol (copper == (m == 4)) 0x12 1 r 0 (DROP.MODE.addr r) ++
    viol (copper == (n == 4)) 0x12 7 r 0 (DROP.MINMODE.addr r) ++
    viol (decide (m < n)) 0x12 2 r 0 (DROP.MINMODE.addr r) ++
    viol (copper && x.g DROP.ASYM r != 0) 0x12 3 r 0 (DROP.ASYM.addr r) ++
    viol (decide (40 < x.g DROP.MARGIN r)) 0x12 4 r 0 (DROP.MARGIN.addr r) ++
    viol (decide (x.g DROP.RETRYGAP r < 8)) 0x12 5 r 0 (DROP.RETRYGAP.addr r)) ++
  (List.range 4).flatMap (fun q =>
    let ms := (all.filter (fun y => y.1 == q)).map (·.2)
    if own.any (fun y => y.1 == q) && decide (1 < ms.length) then
      ms.eraseDups.flatMap (fun a => (List.range (ms.count a)).flatMap (fun i => viol true 0x12 6 a (q * 16 + i) a))
    else [])

/-! ### SLOTMAP (R196) -/

end RuleCtx

/-- Blocks per frame of a mode code (Table 7.1). -/
def modeN (m : Nat) : Nat := match m with
  | 1 => 125 | 2 => 500 | 3 => 1000 | 4 => 2000 | _ => 0
/-- Payload blocks of a mode code. -/
def modeP (m : Nat) : Nat := modeN m - 4
/-- Bytes per frame of a mode code. -/
def modeL (m : Nat) : Nat := 20 * modeN m
/-- The first block of region `r` (R179). -/
def regionStart (m r : Nat) : Nat := 4 + r * modeP m / 64
/-- The region of payload block `b`. -/
def regionOf (m b : Nat) : Nat := ((List.range 64).filter (fun r => decide (regionStart m r ≤ b))).length - 1
/-- Region `r` is set in a 64-bit map (R179). -/
def regionBit (map r : Nat) : Bool := map.testBit (63 - r)

/-- A run entry (Table 7.7). -/
structure RunEntry where
  up : Bool
  typ : Nat
  start : Nat
  len : Nat
  chan : Nat
  deriving DecidableEq, Repr

/-- The run entry of a word. -/
def RunEntry.ofNat (n : Nat) : RunEntry := ⟨n.testBit 31, bitsOf n 30 28, bitsOf n 27 17, bitsOf n 16 8, n % 256⟩

namespace RuleCtx

/-- The entries below RUNS of a bank's SLOTMAP row. -/
def entries (b : Bank) (row : Nat) : List (Nat × RunEntry) :=
  (List.range (min 56 (b.fld SLOTMAP.RUNS row))).map (fun i => (i, RunEntry.ofNat (b.fld (SLOTMAP.RUN.at i) row)))

/-- The regions forced dark by `map` of which the entry covers a block. -/
def covered (m map : Nat) (e : RunEntry) : List Nat :=
  (List.range 64).filter (fun r => e.len != 0 && regionBit map r && decide (regionStart m r < e.start + e.len) &&
    decide (e.start < regionStart m (r + 1)))

/-- R196 for one drop. -/
def slotDrop (x : RuleCtx) (d : Nat) : List Standing :=
  let dr := x.c.d d
  let use := 2 * d + dr.inUse
  let spare := 2 * d + (1 - dr.inUse)
  let m := x.g DROP.MODE d
  let n := modeN m
  let diff := fun row => (List.range 61).filter (fun w => x.b.read (hAddr 0x22 row w) != x.l.read (hAddr 0x22 row w))
  let es := entries x.b spare
  let map := fun (e : RunEntry) => if e.up then x.g SLOTMAP.UPDARKHI spare * 2 ^ 32 + x.g SLOTMAP.UPDARKLO spare
    else x.g SLOTMAP.DNDARKHI spare * 2 ^ 32 + x.g SLOTMAP.DNDARKLO spare
  (diff use).flatMap (fun w => viol true 0x13 1 use w (hAddr 0x22 use w)) ++
  [2 * d, 2 * d + 1].flatMap (fun row =>
    let k := x.g SLOTMAP.RUNS row
    viol (decide (56 < k)) 0x13 2 row 0 (SLOTMAP.RUNS.addr row) ++
    (List.range 56).flatMap (fun i => viol (decide (k ≤ i) && x.g (SLOTMAP.RUN.at i) row != 0) 0x13 3 row i (hAddr 0x22 row i))) ++
  (if x.is SLOTMAP.OFFER spare then
    es.flatMap (fun (i, e) =>
      let a := hAddr 0x22 spare i
      viol (decide (e.start < 4)) 0x13 4 spare i a ++ viol (e.len == 0) 0x13 12 spare i a ++
      viol (decide (n < e.start + e.len)) 0x13 13 spare i a ++
      viol (e.typ != 2 && e.chan != 0) 0x13 5 spare i a ++
      viol (e.typ == 2 && decide (256 < e.chan + e.len)) 0x13 6 spare i a ++
      (covered m (map e) e).flatMap (fun r =>
        viol (e.typ == 1 || e.typ == 3 || e.typ == 4 || e.typ == 5) 0x13 7 spare (r * 64 + i) a ++
        viol (e.typ == 2) 0x14 8 spare (r * 64 + i) a)) ++
    (pairs es).flatMap (fun (p, q) =>
      viol (p.2.up == q.2.up && p.2.len != 0 && q.2.len != 0 && decide (p.2.start < q.2.start + q.2.len) && decide (q.2.start < p.2.start + p.2.len)) 0x13 9 spare
        (p.1 * 64 + q.1) (hAddr 0x22 spare q.1))
   else []) ++
  (match dr.sm with
   | .offered => (diff spare).flatMap (fun w => viol true 0x15 10 spare w (hAddr 0x22 spare w))
   | .applyNext =>
     (diff spare).flatMap (fun w => viol true 0x15 10 spare w (hAddr 0x22 spare w)) ++
     viol (x.g SLOTMAP.OFFER spare != x.l.fld SLOTMAP.OFFER spare) 0x15 11 spare 61 (SLOTMAP.OFFER.addr spare)
   | _ => [])

/-- R196. -/
def slotmap (x : RuleCtx) : List Standing :=
  let ds := (x.b.rows 0x22 ++ x.l.rows 0x22).foldl (fun l r => insertSorted (r / 2) l) []
  ds.flatMap x.slotDrop

/-! ### XBAR (R247) -/

/-- R247. -/
def xbar (x : RuleCtx) : List Standing :=
  let dn := x.g XBAR.DNPOOL 0
  let up := x.g XBAR.UPPOOL 0
  let v := (x.b.rows 0x31).filter (fun r => x.is GROOM.VALID r)
  let ranOver := fun (drop blk r : Nat) =>
    ((List.range (x.g GROOM.HEIGHT r)).map (fun i => drop + i)).filter (fun d =>
      decide (d < 96) && decide (modeN (x.g DROP.MODE d) < blk + x.g GROOM.WIDTH r))
  let meet := fun (a wa b wb : Nat) => decide (a < b + wb) && decide (b < a + wa)
  viol (dn == 0) 0x16 1 0 0 (XBAR.DNPOOL.addr 0) ++ viol (up == 0) 0x16 1 1 0 (XBAR.UPPOOL.addr 0) ++
  viol (decide (480 < dn + up)) 0x16 1 2 0 (XBAR.DNPOOL.addr 0) ++
  [1, 2, 3, 4, 5].flatMap (fun m => viol ((x.g XBAR.LOCKEN 0).testBit m) 0x16 2 m 0 (XBAR.LOCKEN.addr 0)) ++
  v.flatMap (fun r =>
    let h := x.g GROOM.HEIGHT r
    let w := x.g GROOM.WIDTH r
    viol (!x.is XBAR.GREN 0) 0x16 3 r 0 (XBAR.GREN.addr 0) ++
    viol (x.g GROOM.TYPE r == 0) 0x16 4 r 0 (GROOM.TYPE.addr r) ++ viol (h == 0) 0x16 4 r 1 (GROOM.HEIGHT.addr r) ++
    viol (w == 0) 0x16 4 r 2 (GROOM.WIDTH.addr r) ++
    viol (decide (96 < x.g GROOM.SRCDROP r + h)) 0x16 5 r 0 (GROOM.SRCDROP.addr r) ++
    viol (decide (96 < x.g GROOM.DSTDROP r + h)) 0x16 5 r 1 (GROOM.DSTDROP.addr r) ++
    viol (decide (x.g GROOM.SRCBLK r < 4)) 0x16 6 r 0 (GROOM.SRCBLK.addr r) ++
    viol (decide (x.g GROOM.DSTBLK r < 4)) 0x16 6 r 1 (GROOM.DSTBLK.addr r) ++
    (ranOver (x.g GROOM.SRCDROP r) (x.g GROOM.SRCBLK r) r).flatMap (fun d => viol true 0x16 7 r d (GROOM.WIDTH.addr r)) ++
    (ranOver (x.g GROOM.DSTDROP r) (x.g GROOM.DSTBLK r) r).flatMap (fun d => viol true 0x16 7 r (128 + d) (GROOM.DSTBLK.addr r))) ++
  (pairs v).flatMap (fun (r, s) =>
    if meet (x.g GROOM.DSTBLK r) (x.g GROOM.WIDTH r) (x.g GROOM.DSTBLK s) (x.g GROOM.WIDTH s) then
      (List.range 96).flatMap (fun d => viol (meet (x.g GROOM.DSTDROP r) (x.g GROOM.HEIGHT r) d 1 &&
        meet (x.g GROOM.DSTDROP s) (x.g GROOM.HEIGHT s) d 1) 0x16 8 r (s * 128 + d) (GROOM.DSTBLK.addr s))
    else []) ++
  viol (decide (12288 < (v.map (fun r => x.g GROOM.HEIGHT r * x.g GROOM.WIDTH r)).sum)) 0x16 9 0 0
    (GROOM.WIDTH.addr (v.getLastD 0))

/-! ### QRAM (R268) -/

/-- Queues that enabled fields of Table 10.4 name, with the word of the field. -/
def named (x : RuleCtx) : List (Nat × Nat) :=
  let n := fun (en f : Fld) (base r : Nat) => if x.is en r then [(base + x.g f r, f.addr r)] else []
  (List.range 4).flatMap (fun r => n UPL.GCCUPEN UPL.GCCQU 0 r ++ n UPL.GCCDNEN UPL.GCCQD 8 r) ++
  (x.b.rows 0x20).flatMap (fun r =>
    n DROP.MCHUEN DROP.MCHUQ 0 r ++ n DROP.MBKUEN DROP.MBKUQ 0 r ++ n DROP.SNSUEN DROP.SNSUQ 0 r ++
    n DROP.MCHDEN DROP.MCHDQ 8 r ++ n DROP.MBKDEN DROP.MBKDQ 8 r ++ n DROP.SNSDEN DROP.SNSDQ 8 r) ++
  (x.b.rows 0x12).flatMap (fun r => n TRIB.CNTEN TRIB.CNTQ 0 r) ++
  n XBAR.XRECEN XBAR.XRECQ 0 0 ++
  (List.range 8).flatMap (fun q => (if x.is QUEUE.FRDIS q then [(q, QUEUE.FRDIS.addr q)] else []) ++
    (if x.is QUEUE.FRTKO q then [(q, QUEUE.FRTKO.addr q)] else [])) ++
  n TIME.TQUEN TIME.TQU 0 1 ++ n TIME.TBUEN TIME.TBQU 0 1 ++ n TIME.PTPDEN TIME.PTPQD 8 1

/-- R268. -/
def qram (x : RuleCtx) : List Standing :=
  let rs := x.b.rows 0x38
  let en := rs.filter (fun r => x.is QUEUE.EN r)
  rs.flatMap (fun r =>
    let z := x.g QUEUE.SIZE r
    viol (x.is QUEUE.EN r && z == 0) 0x17 1 r 0 (QUEUE.SIZE.addr r) ++
    viol (x.is QUEUE.EN r && decide (512 < x.g QUEUE.BASE r + z)) 0x17 1 r 1 (QUEUE.BASE.addr r) ++
    viol (decide (z * 256 < x.g QUEUE.LVL r)) 0x17 2 r 0 (QUEUE.LVL.addr r)) ++
  (pairs en).flatMap (fun (r, s) =>
    viol (decide (x.g QUEUE.BASE r < x.g QUEUE.BASE s + x.g QUEUE.SIZE s) &&
      decide (x.g QUEUE.BASE s < x.g QUEUE.BASE r + x.g QUEUE.SIZE r)) 0x17 3 r s (QUEUE.BASE.addr s)) ++
  (pairs rs).flatMap (fun (r, s) =>
    viol (x.is QUEUE.FRDIS r && x.is QUEUE.FRDIS s) 0x17 4 r s (QUEUE.FRDIS.addr s) ++
    viol (x.is QUEUE.FRTKO r && x.is QUEUE.FRTKO s) 0x17 5 r s (QUEUE.FRTKO.addr s)) ++
  x.named.flatMap (fun (q, a) => viol (!x.is QUEUE.EN q) 0x17 (16 + tabOf a) (rowOf a) (wrdOf a * 16 + q) a)

/-! ### AUDIO (R287) -/

/-- Slots of a format (Table 11.2). -/
def slots (fmt : Nat) : Nat := if fmt = 2 then 8 else if fmt = 3 then 16 else 2
/-- The 96-bit destination mask of an AROUTE row of a bank. -/
def dmask (b : Bank) (r : Nat) : Nat :=
  b.fld AROUTE.DMASK0 r + b.fld AROUTE.DMASK1 r * 2 ^ 32 + b.fld AROUTE.DMASK2 r * 2 ^ 64

/-- R287. -/
def audio (x : RuleCtx) : List Standing :=
  let v := (x.b.rows 0x41).filter (fun r => x.is AROUTE.VALID r)
  (x.b.rows 0x40).flatMap (fun p =>
    let n := slots (x.g AUDIO.FMT p)
    viol (decide (2 ^ n ≤ x.g AUDIO.RXSLOTEN p)) 0x18 1 p 0 (AUDIO.RXSLOTEN.addr p) ++
    viol (decide (2 ^ n ≤ x.g AUDIO.TXSLOTEN p)) 0x18 1 p 1 (AUDIO.TXSLOTEN.addr p) ++
    viol (x.is AUDIO.RXEN p && x.g AUDIO.RXSLOTEN p == 0) 0x18 2 p 0 (AUDIO.RXSLOTEN.addr p) ++
    viol (x.is AUDIO.TXEN p && x.g AUDIO.TXSLOTEN p == 0) 0x18 2 p 1 (AUDIO.TXSLOTEN.addr p)) ++
  v.flatMap (fun r =>
    if x.is AROUTE.DIR r then
      viol (x.is AROUTE.ANN r) 0x18 3 r 0 (AROUTE.ANN.addr r) ++ viol (decide (95 < x.g AROUTE.DROP r)) 0x18 3 r 1 (AROUTE.DROP.addr r) ++
      viol (dmask x.b r != 0) 0x18 3 r 2 (AROUTE.DMASK0.addr r)
    else viol (x.g AROUTE.DROP r != 0) 0x18 4 r 0 (AROUTE.DROP.addr r) ++ viol (dmask x.b r == 0) 0x18 4 r 1 (AROUTE.DMASK0.addr r)) ++
  (pairs v).flatMap (fun (r, s) =>
    if x.is AROUTE.DIR r && x.is AROUTE.DIR s then
      viol (x.g AROUTE.PORT r == x.g AROUTE.PORT s && x.g AROUTE.SLOT r == x.g AROUTE.SLOT s) 0x18 5 r s (AROUTE.SLOT.addr s)
    else if !x.is AROUTE.DIR r && !x.is AROUTE.DIR s then
      (if x.g AROUTE.CHAN r == x.g AROUTE.CHAN s && x.g AROUTE.ANN r == x.g AROUTE.ANN s then
        (List.range 96).flatMap (fun d => viol ((dmask x.b r).testBit d && (dmask x.b s).testBit d) 0x18 6 r (s * 128 + d) (AROUTE.DMASK0.addr s))
      else [])
    else [])

/-! ### TIME (R316) -/

/-- STEP of a bank in ns (Table 12.4). -/
def stepNs (b : Bank) : Int := signed 64 (b.fld TIME.STEP 0 * 2 ^ 32 + b.fld (TIME.STEP.at 1) 0)

/-- R316. -/
def time (x : RuleCtx) : List Standing :=
  let t := (x.k.time : Int) + stepNs x.b
  let ofs := signed 32 (x.g TIME.PPSOFS 14)
  let u := x.g TIME.PTPU 1
  let qd := x.g TIME.PTPQD 1
  viol (x.g TIME.STEPSEQ 0 != x.l.fld TIME.STEPSEQ 0 && (decide (t < 0) || decide ((((2 ^ 48 - 2) * Config.secNs : Nat) : Int) ≤ t)))
    0x19 1 0 0 (TIME.STEPSEQ.addr 0) ++
  [2, 3, 4, 5].flatMap (fun r => viol (x.is TIME.CAP_EN r && x.g TIME.CAP_SRCMASK r == 0) 0x19 2 r 0 (TIME.CAP_SRCMASK.addr r)) ++
  (List.range 8).flatMap (fun i =>
    let r := 6 + i
    let m := x.g TIME.OUT_MODE r
    viol (decide (Config.secNs ≤ x.g TIME.OUT_STARTNS r)) 0x19 3 r 0 (TIME.OUT_STARTNS.addr r) ++
    viol (decide (x.g TIME.OUT_WIDTH r < 8) && m != 0) 0x19 4 r 0 (TIME.OUT_WIDTH.addr r) ++
    viol (m == 2 && decide (x.g TIME.OUT_PERIOD r < 40)) 0x19 5 r 0 (TIME.OUT_PERIOD.addr r) ++
    viol (m == 2 && decide (x.g TIME.OUT_PERIOD r < x.g TIME.OUT_WIDTH r + 8)) 0x19 5 r 1 (TIME.OUT_PERIOD.addr r)) ++
  viol (decide (ofs < -500000000 ∨ 499999999 < ofs)) 0x19 6 14 0 (TIME.PPSOFS.addr 14) ++
  viol (decide (x.g TIME.PPS_WIDTH 14 < 100 ∨ 500000000 < x.g TIME.PPS_WIDTH 14)) 0x19 7 14 0 (TIME.PPS_WIDTH.addr 14) ++
  (List.range 4).flatMap (fun i => viol (u.testBit i && !eth (x.g UPL.MODE i)) 0x19 8 1 i (TIME.PTPU.addr 1)) ++
  viol (u != 0 && !x.is TIME.TQUEN 1) 0x19 9 1 0 (TIME.PTPU.addr 1) ++
  viol (u != 0 && !x.is TIME.PTPL2 1 && !x.is TIME.PTPV4 1 && !x.is TIME.PTPV6 1) 0x19 9 1 1 (TIME.PTPU.addr 1) ++
  viol (x.is TIME.PTPDEN 1 && u == 0) 0x19 10 1 0 (TIME.PTPDEN.addr 1) ++
  (List.range 4).flatMap (fun i => viol (x.is TIME.PTPDEN 1 && x.is UPL.GCCDNEN i && x.g UPL.GCCQD i == qd) 0x19 11 0x10 i (TIME.PTPQD.addr 1)) ++
  (x.b.rows 0x20).flatMap (fun d => viol (x.is TIME.PTPDEN 1 && (x.dropNames d).contains qd) 0x19 11 0x20 d (TIME.PTPQD.addr 1)) ++
  viol (x.g TIME.PTPVID 1 == 0xFFF) 0x19 12 1 0 (TIME.PTPVID.addr 1) ++
  viol (x.is TIME.LEAP59 15 && x.is TIME.LEAP61 15) 0x19 13 15 0 (TIME.LEAP59.addr 15)

/-! ### DPLL (R326, R341) -/

/-- The least QUALT × 8 of reference `r`: its greatest build-out time (R326). -/
def leastQual (x : RuleCtx) (r : Nat) : Nat :=
  if r = 6 then x.g REF.UPDMAX r else if (r = 5 ∨ r = 7) ∧ x.g REF.INFREQ r = 0 then 24000 else 16

/-- R341. -/
def dpll (x : RuleCtx) : List Standing :=
  (List.range 2).flatMap (fun ch =>
    viol (x.g DPLL.MODE ch == 2 && x.g (if ch = 0 then REF.SYSEN else REF.TODEN) (x.g DPLL.FORCE ch) == 0) 0x1A 1 ch 0
      (DPLL.FORCE.addr ch) ++
    viol (decide (x.g DPLL.ACQBW ch < x.g DPLL.BW ch)) 0x1A 2 ch 0 (DPLL.ACQBW.addr ch) ++
    viol (x.g DPLL.WTR ch == 0 || decide (720000 < x.g DPLL.WTR ch)) 0x1A 3 ch 0 (DPLL.WTR.addr ch) ++
    viol (x.g DPLL.LOCKPH ch == 0) 0x1A 4 ch 0 (DPLL.LOCKPH.addr ch) ++ viol (x.g DPLL.LOCKN ch == 0) 0x1A 4 ch 1 (DPLL.LOCKN.addr ch) ++
    viol (x.g DPLL.UNLOCKN ch == 0) 0x1A 4 ch 2 (DPLL.UNLOCKN.addr ch)) ++
  (List.range 8).flatMap (fun r =>
    let pulse := (r == 5 || r == 7) && x.g REF.INFREQ r == 0
    let sw := signed 32 (x.g REF.SWFREQ r)
    viol (x.is REF.TODEN r && (decide (r < 4) || ((r == 5 || r == 7) && !pulse))) 0x1A 5 r 0 (REF.TODEN.addr r) ++
    viol (x.is REF.SYSEN r && pulse && decide (2 < x.g DPLL.BW 0)) 0x1A 6 r 0 (REF.SYSEN.addr r) ++
    viol (x.is REF.SYSEN r && pulse && decide (2 < x.g DPLL.ACQBW 0)) 0x1A 6 r 1 (REF.SYSEN.addr r) ++
    viol (x.g REF.QUALT r == 0) 0x1A 7 r 0 (REF.QUALT.addr r) ++
    viol (decide (x.g REF.QUALT r * 8 < x.leastQual r)) 0x1A 7 r 1 (REF.QUALT.addr r) ++
    viol (x.g REF.FLIM r == 0 || decide (1500 < x.g REF.FLIM r)) 0x1A 8 r 0 (REF.FLIM.addr r) ++
    viol (r == 6 && decide (x.g REF.UPDMAX r < 8)) 0x1A 9 r 0 (REF.UPDMAX.addr r) ++
    viol (decide (sw < -200000000 ∨ 200000000 < sw)) 0x1A 10 r 0 (REF.SWFREQ.addr r))

/-! ### FAULT (R371) -/

/-- R371. -/
def fault (x : RuleCtx) : List Standing :=
  (x.b.rows 0x60).flatMap (fun s =>
    viol (x.is FSRC.CLASS s && x.g FSRC.N s == 0) 0x1B 1 s 0 (FSRC.N.addr s) ++
    viol (x.is FSRC.CLASS s && x.g FSRC.W s == 0) 0x1B 1 s 1 (FSRC.W.addr s) ++
    viol (369 ≤ s && s ≤ 374 && x.g FSRC.SEV s != 3) 0x1B 2 s 0 (FSRC.SEV.addr s) ++
    viol (369 ≤ s && s ≤ 374 && x.is FSRC.CLASS s) 0x1B 2 s 1 (FSRC.CLASS.addr s) ++
    viol (unusedSrc s && x.g FSRC.SEV s != 0) 0x1B 3 s 0 (FSRC.SEV.addr s)) ++
  viol (x.is FGRP.AUTOREC 23) 0x1B 4 23 0 (FGRP.AUTOREC.addr 23) ++
  viol (x.g FGRP.QUIET 23 == 0) 0x1B 5 23 0 (FGRP.QUIET.addr 23) ++
  viol (x.g FGRP.INJSEQ 23 != x.l.fld FGRP.INJSEQ 23 && !injTarget (x.g FGRP.INJTGT 23)) 0x1B 6 23 0 (FGRP.INJSEQ.addr 23)

/-! ### TWIN (R409) -/

/-- A handover is pending on a lit part. -/
def handoverPending (x : RuleCtx) : Bool :=
  decide (x.c.twin.role = .lit) && (match x.c.twin.req with
    | some (.handover _ _) => true
    | _ => false)

/-- R409. -/
def twin (x : RuleCtx) : List Standing :=
  let on := x.is TWIN.PAIREN 0
  let trim := signed 32 (x.g TWIN.DELAYTRIM 0)
  (x.b.rows 0x20).flatMap (fun d => viol (!on && x.is DROP.PAIRED d) 0x1C 1 d 0 (DROP.PAIRED.addr d)) ++
  viol (on && x.g DPLL.MODE 0 == 0) 0x1C 2 0 0 (TWIN.PAIREN.addr 0) ++ viol (on && x.g DPLL.MODE 1 == 0) 0x1C 2 1 0 (TWIN.PAIREN.addr 0) ++
  viol (on && !x.is REF.SYSEN 4) 0x1C 2 2 0 (TWIN.PAIREN.addr 0) ++ viol (on && !x.is REF.TODEN 4) 0x1C 2 3 0 (TWIN.PAIREN.addr 0) ++
  viol (decide (trim < -16000 ∨ 16000 < trim)) 0x1C 3 0 0 (TWIN.DELAYTRIM.addr 0)

/-! ### POWER (R430) -/

/-- R430. -/
def power (x : RuleCtx) : List Standing :=
  let w := x.g POWER.WARNT 0
  let t := x.g POWER.THROTT 0
  let k := x.g POWER.CRITT 0
  let h := x.g POWER.HYST 0
  [decide (t ≤ w), decide (k ≤ t), decide (110 < k), h == 0, decide (10 < h)].zipIdx.flatMap (fun (bad, i) =>
    viol bad 0x1D 1 i 0 (POWER.WARNT.addr 0))

/-- Every violation that stands in the staged bank. -/
def all (x : RuleCtx) : List Standing :=
  x.reserved ++ x.uplink ++ x.trib ++ x.drop ++ x.slotmap ++ x.xbar ++ x.qram ++ x.audio ++ x.time ++ x.dpll ++ x.fault ++
    x.twin ++ x.power

end RuleCtx

namespace Chip

/-- Uncorrectable staged words that have been found: each a standing RESERVED violation (R108). -/
def eccStanding (c : Chip) : List Standing :=
  (c.heath.upsets.filter (fun u => u.bank == 0 && u.found)).map (fun u => ⟨5, 2 ^ 128 + u.addr, u.addr⟩)

/-- The violations that stand now (R93). -/
def violations (c : Chip) (k : Clock) : List Standing :=
  (RuleCtx.mk c.heath.staged c.heath.live c k).all ++ c.eccStanding

/-- The standing violations brought up to date: those already known keep their place, new ones come first; a new one is
laid to the staged write at `a`, or to the word it is about (R94). [DEDUCED, log 71] -/
def restand (c : Chip) (k : Clock) (a : Option Nat) : Chip :=
  let now := c.violations k
  let same := fun (x y : Standing) => x.cause == y.cause && x.key == y.key
  let old := c.heath.standing.filter (fun o => now.any (same o))
  let fresh := (now.filter (fun n => !old.any (same n))).map (fun n => { n with addr := a.getD n.addr })
  c.onHeath (fun h => { h with standing := fresh ++ old })

end Chip

end Sys2Proof.Machine
end

