-- ==== Sys2Proof/Machine/Heath.lean ====
section
/-! DEFINITION. The heath as the host reaches it (chapter 4): address check, direct words, views, HDATA reads and writes,
errors, ECC, and HADDR. -/

namespace Sys2Proof.Machine

/-- Heath error codes (Table 4.2). -/
def hWarm : Nat := 0x04
def hDecode : Nat := 0x01
def hRow : Nat := 0x02
def hWord : Nat := 0x03
def hEcc : Nat := 0x09
def hFrozen : Nat := 0x05
def hLiveview : Nat := 0x06
def hLocked : Nat := 0x07
def hBusy : Nat := 0x08
def hXlock : Nat := 0x0A

/-- DIR row 1 word `t` (R105). -/
def dirEntry (t : Nat) : Word :=
  match directory t with
  | some (rows, words, kind) => word (2 ^ 31 + kind * 2 ^ 29 + rows * 2 ^ 16 + words)
  | none => 0#32

/-- The next heath address under auto-increment (R88). -/
def nextAddr (a : Nat) : Nat :=
  match directory (tabOf a) with
  | some (rows, words, _) =>
    if wrdOf a + 1 < words then a + 1
    else if rowOf a + 1 < rows then hAddr (tabOf a) (rowOf a + 1) 0
    else hAddr (tabOf a) 0 0
  | none => a

/-- What an address error gives, in the order of Table 4.2. -/
def addrError (a : Nat) : Nat :=
  match directory (tabOf a) with
  | some (rows, words, _) => if rows ≤ rowOf a then hRow else if words ≤ wrdOf a then hWord else 0
  | none => hDecode

/-- Words 0 to 3 of GLOBAL row 0 (R32). -/
def Clock.tickWords (k : Clock) : List Word :=
  [word k.ticks, word k.tickSec, word (bit k.inFence * 2 ^ 31 + k.idx), word (k.lastUp * 2 ^ 24 + k.lastDn * 2 ^ 16)]
/-- Words 0 to 7 of TIME row 0 (R297). -/
def timeWords (k : Clock) (rem : Int) : List Word :=
  [word (k.sec / 2 ^ 32), word k.sec, word k.ns, word (k.evc / 2 ^ 32), word k.evc, word (k.tofs / 2 ^ 32), word k.tofs,
   word (unsigned 32 rem)]

namespace Chip

/-- WSTAT.SCHEMAOK (R98). -/
def schemaOk (c : Chip) : Bool := c.dir.slock && c.dir.hostSchema == 1
/-- The staged bank is frozen (R92). -/
def frozen (c : Chip) : Bool := c.win.pend || c.dir.revPend

/-- A word of DIR row 0 (R104). -/
def dirWord (c : Chip) (k : Clock) (w : Nat) : Word :=
  let d := c.dir
  let st := (c.restand k none).heath.standing
  match w with
  | 0 => word (bit d.slock * 256 + d.hostSchema)
  | 1 => word (bit d.revPend * 512 + bit d.view)
  | 2 => d.rejAddr
  | 3 => word (d.applied * 2 ^ 16 + d.rejected)
  | 4 => word (bit (st.any (fun s => s.cause == 5)) * 2 ^ 31 +
      ((List.range 14).map (fun n => bit (st.any (fun s => s.cause == 0x10 + n)) * 2 ^ n)).sum)
  | 5 => word d.eccFix
  | _ => 0#32

/-- A word of GLOBAL (R32, R37, R56, R106, R451). [DESIGN CHOICE, log 11] -/
def globalWord (c : Chip) (k : Clock) (r w : Nat) : Word :=
  let d := c.dir
  let p := c.port
  let b := c.boot
  match r, w with
  | 0, 4 => word (d.budgetBlk * 2 ^ 24 + d.coreOfs)
  | 0, 5 => word (bit d.snapPend * 8 + bit d.snapView * 4 + bit d.snapSec * 2)
  | 0, 6 => word d.snapTick
  | 0, 7 => word d.snapSeq
  | 0, w => k.tickWords.getD w 0#32
  | 1, 0 => word (p.adr * 2 + bit p.twoWire)
  | 1, 1 => word p.crcFail
  | 1, 2 => word p.aborts
  | 1, 3 => word (p.idxErrs * 2 ^ 16 + p.stretchTo)
  | 1, 4 => word (p.sdaFree * 2 ^ 16 + p.replays)
  | 1, 5 => word p.frames
  | 1, 6 => word (b.bootTime * 2 ^ 16 + bit b.vioExt * 128 + bit b.vioStrap * 64 + b.cause)
  | 1, 7 => word (b.warms * 2 ^ 16 + bit b.suShade)
  | _, _ => 0#32

/-- The bank that a read of the word sees, by kind and view (R91, R101): 0 staged, 1 live, 2 snapshot, 3 live status. -/
def viewBank (c : Chip) (kind : WKind) : Nat :=
  match kind with
  | .st => if c.dir.view then 1 else 0
  | .status => if c.dir.snapView then 3 else 2
/-- The bank of that number. -/
def bankOf (c : Chip) (n : Nat) : Bank :=
  match n with
  | 0 => c.heath.staged
  | 1 => c.heath.live
  | 2 => c.heath.snap
  | _ => c.heath.status

/-- The known errored bits of the word that a read of `a` meets. -/
def upsetAt (c : Chip) (bank a : Nat) : Nat :=
  ((c.heath.upsets.find? (fun u => u.bank == bank && u.addr == a)).map (·.bits)).getD 0

/-- A read of a heath word meets its errors (R108): a single-bit error is corrected, written back and counted; an
uncorrectable live word raises HEATHUNC once, a staged one stands as a RESERVED violation from this edge. -/
def meetEcc (c : Chip) (k : Clock) (bank a : Nat) : Chip :=
  match c.heath.upsets.find? (fun u => u.bank == bank && u.addr == a) with
  | none => c
  | some u =>
    if u.bits = 1 then
      (c.onHeath (fun h => { h with
        upsets := h.upsets.filter (fun v => !(v.bank == bank && v.addr == a)), fixedNow := true })).onDir
        (fun d => { d with eccFix := min 65535 (d.eccFix + 1) })
    else if u.found then c
    else
      let c := c.onHeath (fun h => { h with
        upsets := h.upsets.map (fun v => if v.bank == bank && v.addr == a then { v with found := true } else v) })
      if bank = 1 then c.srcEvent k 240 else if bank = 0 then c.restand k (some a) else c

/-- The error of an HDATA read of `a` (R102), 0 for none. -/
def readError (c : Chip) (a : Nat) : Nat :=
  if c.win.warm = .acted then hWarm
  else if addrError a ≠ 0 then addrError a
  else if (match wordSpec a with
    | some s => c.upsetAt (c.viewBank s.kind) a == 2
    | none => false) then hEcc
  else if c.mead.brokeHeath then hXlock
  else 0

/-- An event source is raised on the present edge: its condition is present on no other (R348, R361). -/
def raisedNow (c : Chip) (k : Clock) (s : Nat) : Bool :=
  decide (c.col.edgeNo = k.edges) && c.col.edge.contains s && !levelSrc s

/-- The word an HDATA read of `a` returns where no error applies: TIME row 0 words 0 to 7 and GLOBAL row 0 words 0 to 3 come
from the sample of the burst where one stands (R32, R297). -/
def readWord (c : Chip) (k : Clock) (a : Nat) : Word :=
  let t := tabOf a
  let r := rowOf a
  let w := wrdOf a
  if t = 0 then (if r = 0 then c.dirWord k w else dirEntry w)
  else if t = 1 then
    (if r = 0 ∧ 1 ≤ w ∧ w ≤ 3 ∧ c.port.tickSample ≠ [] then c.port.tickSample.getD w 0#32 else c.globalWord k r w)
  else if t = 0x50 ∧ r = 0 ∧ w ≤ 7 then
    (if 1 ≤ w ∧ c.port.timeSample ≠ [] then c.port.timeSample.getD w 0#32 else (timeWords k c.tim.stepRem).getD w 0#32)
  else
    match wordSpec a with
    | some s =>
      (c.bankOf (c.viewBank s.kind)).read a ||| (if t = 0x60 ∧ w = 2 ∧ c.dir.snapView = true ∧ c.raisedNow k r = true then word (2 ^ 31) else 0#32)
    | none => 0#32

/-- The word that a read of `a` meets, at its sample: a single-bit error is corrected, an uncorrectable one found (R108). -/
def meetRead (c : Chip) (k : Clock) (a : Nat) : Chip :=
  match wordSpec a with
  | some s => c.meetEcc k (c.viewBank s.kind) a
  | none => c
/-- What a read of `a` that returned `got` clears when its beat takes effect: RC bits returned as 1, but for those an event sets
on the same edge (R11, R14, R101). -/
def readEffect (c : Chip) (a : Nat) (got : Word) : Chip :=
  match wordSpec a with
  | some s =>
    if s.kind = .status ∧ c.dir.snapView then
      c.withStatus (c.heath.status.write a (c.heath.status.read a &&& ~~~ (got &&& s.rc &&& ~~~ c.eventBits a)))
    else c
  | none => c

/-- HADDR after a beat that takes effect without a heath error (R88). -/
def bumpAddr (c : Chip) : Chip :=
  if c.win.hainc then c.onWin (fun w => { w with haddr := word (nextAddr w.haddr.toNat) }) else c

/-- The error of an HDATA write of `v` to `a` (R102), 0 for none. -/
def writeError (c : Chip) (a : Nat) (v : Word) : Nat :=
  if c.win.warm = .acted then hWarm
  else if addrError a ≠ 0 then addrError a
  else
    match wordSpec a with
    | some s =>
      if s.kind = .st then
        (if c.frozen then hFrozen else if c.dir.view then hLiveview else if c.mead.brokeHeath then hXlock else 0)
      else if c.mead.brokeHeath then hXlock else 0
    | none =>
      if tabOf a = 0 ∧ rowOf a = 0 ∧ wrdOf a = 0 ∧ c.dir.slock ∧ v.toNat % 16 ≠ c.dir.hostSchema then hLocked
      else if tabOf a = 0 ∧ rowOf a = 0 ∧ wrdOf a = 1 ∧ v.getLsbD 8 ∧ c.win.pend then hBusy
      else if c.mead.brokeHeath then hXlock else 0

/-- An HDATA write of `v` to `a` that meets no error (R71, R90, R97, R98, R106). -/
def writeWord (c : Chip) (k : Clock) (a : Nat) (v : Word) : Chip :=
  match wordSpec a with
  | some s =>
    if s.kind = .st then
      ((c.restand k none).onHeath (fun h => { h with
        staged := h.staged.write a (v &&& s.mask), upsets := h.upsets.filter (fun u => !(u.bank == 0 && u.addr == a)) })).restand
        k (some a)
    else c
  | none =>
    if tabOf a = 0 ∧ rowOf a = 0 ∧ wrdOf a = 0 then
      if !c.dir.slock ∧ v.toNat % 16 ≠ 0 then
        c.onDir (fun d => { d with
          slock := true, hostSchema := v.toNat % 16,
          lateSchema := if 124996 ≤ k.idx ∧ d.lateSchema = none then some (d.slock, d.hostSchema) else d.lateSchema })
      else c
    else if tabOf a = 0 ∧ rowOf a = 0 ∧ wrdOf a = 1 then
      c.onDir (fun d => { d with view := v.getLsbD 0, revPend := d.revPend || v.getLsbD 8 })
    else if tabOf a = 1 ∧ rowOf a = 0 ∧ wrdOf a = 5 then
      c.onDir (fun d => { d with snapView := v.getLsbD 2, snapSec := v.getLsbD 1, snapPend := d.snapPend || v.getLsbD 0 })
    else c

end Chip

end Sys2Proof.Machine
end

