-- ==== Sys2Proof/Machine/AudioPins.lean ====
section
/-! DEFINITION. The pins of the audio ports (R274 to R277): formats and the bit grid, the edges of a master side, which pins the part
drives, and their levels. -/

namespace Sys2Proof.Machine

/-! ### Formats (R275, Table 11.2) -/

/-- Frames per tick of an FS code (R276). -/
def framesOf (fs : Nat) : Nat := match fs with
  | 0 => 2 | 1 => 4 | _ => 6
/-- Slots of a format (Table 11.2). -/
def slotsOf (fmt : Nat) : Nat := match fmt with
  | 2 => 8 | 3 => 16 | _ => 2
/-- Bit periods of a frame, W. -/
def periodsOf (fmt : Nat) : Nat := 32 * slotsOf fmt
/-- First data period of slot `s`: I²S sends its data one period after the slot begins. -/
def slotStart (fmt s : Nat) : Nat := 32 * s + bit (fmt == 0)
/-- Bits of a sample: WLEN. -/
def wordBits (short : Bool) : Nat := if short then 16 else 24
/-- Frame sync in bit period `b`. -/
def wsLevel (fmt b : Nat) : Bool := match fmt with
  | 0 => decide (32 ≤ b)
  | 1 => decide (b < 32)
  | _ => b == 0
/-- Data bit of bit period `b` of a frame of 24-bit samples: most significant bit first, then zeros.  Period 0 of an I²S frame ends slot 1
of the frame before, whose data are over by then. -/
def frameBit (fmt : Nat) (short : Bool) (frame : List Nat) (b : Nat) : Bool :=
  let p := b - slotStart fmt 0
  decide (slotStart fmt 0 ≤ b) && decide (p % 32 < wordBits short) && (frame.getD (p / 32) 0).testBit (23 - p % 32)
/-- The bits of a frame as they leave the pin. -/
def frameBits (fmt : Nat) (short : Bool) (frame : List Nat) : List Bool :=
  (List.range (periodsOf fmt)).map (frameBit fmt short frame)
/-- The 24-bit samples of a received frame; a 16-bit one is extended by eight 0 bits below it. -/
def bitsFrame (fmt : Nat) (short : Bool) (bits : List Bool) : List Nat :=
  (List.range (slotsOf fmt)).map (fun s =>
    (List.range (wordBits short)).foldl (fun a i => 2 * a + bit (bits.getD (slotStart fmt s + i) false)) 0 * 2 ^ (24 - wordBits short))
/-- `n` frames from the bits of a tick. -/
def bitsFrames (fmt : Nat) (short : Bool) (n : Nat) (bits : List Bool) : List (List Nat) :=
  (List.range n).map (fun i => bitsFrame fmt short ((bits.drop (periodsOf fmt * i)).take (periodsOf fmt)))

/-! ### The grid of a master side (R276, R277) -/

/-- The integer nearest to `n`/`d`; a tie takes the lower. -/
def nearest (n d : Nat) : Nat := (2 * n + d - 1) / (2 * d)
/-- Cycle index of the driving edge of period `j` of a tick of `b` periods. -/
def driveEdge (b j : Nat) : Nat := nearest (j * Config.tickCycles) b
/-- Cycle index of its sampling edge. -/
def sampleEdge (b j : Nat) : Nat := nearest ((2 * j + 1) * Config.tickCycles) (2 * b)
/-- The period of the tick in which cycle index `i` lies. -/
def periodAt (b i : Nat) : Nat :=
  let j := i * b / Config.tickCycles
  if driveEdge b (j + 1) ≤ i then j + 1 else j
/-- Level of a master's bit clock at cycle index `i`: it falls on driving edges and rises on sampling edges, or with BCKINV the other way
round. -/
def bckLevel (b i : Nat) (inv : Bool) : Bool := inv != decide (sampleEdge b (periodAt b i) ≤ i)

/-- The six pins of a port (Table 11.1). -/
inductive AudioPin where
  | rxbck
  | rxws
  | rxd
  | txbck
  | txws
  | txd
  deriving DecidableEq, Repr

namespace Chip

/-- Bit periods of a frame of port `p`. -/
def frameW (c : Chip) (p : Nat) : Nat := periodsOf (c.lv AUDIO.FMT p)
/-- Bit periods of a tick on port `p`, B. -/
def tickPeriods (c : Chip) (p : Nat) : Nat := framesOf (c.lv AUDIO.FS p) * c.frameW p
/-- The part drives the pin (R274, R291, R292): clocks and frame sync of a master side that is on, and the data of a transmit side that is
on or completes its last frame. -/
def drivesPin (c : Chip) (p : Nat) (pin : AudioPin) : Bool :=
  match pin with
  | .rxbck | .rxws => c.master p true && (c.side p true).on && !c.shaded
  | .rxd => false
  | .txbck | .txws => c.master p false && (c.side p false).on && !c.shaded
  | .txd => ((c.side p false).on || (c.side p false).tail) && !c.shaded
/-- The frame that the transmit pin carries: zeros before the side runs. -/
def pinFrame (c : Chip) (p : Nat) : List Nat :=
  let x := c.side p false
  if x.run || x.tail then x.last else []
/-- Level of a pin that the part drives; of a slave's data pin in bit period `b` of its frame.  None of a pin that it does not drive. -/
def pinLevel (c : Chip) (k : Clock) (p b : Nat) (pin : AudioPin) : Option Bool :=
  if !c.drivesPin p pin then none
  else
    let n := c.tickPeriods p
    let w := c.frameW p
    let j := periodAt n k.idx % w
    let fmt := c.lv AUDIO.FMT p
    match pin with
    | .rxbck => some (bckLevel n k.idx (c.on AUDIO.RXBCKINV p))
    | .txbck => some (bckLevel n k.idx (c.on AUDIO.TXBCKINV p))
    | .rxws | .txws => some (wsLevel fmt j)
    | .txd => some (frameBit fmt (c.on AUDIO.WLEN p) (c.pinFrame p) (if c.master p false then j else b))
    | .rxd => none

end Chip

end Sys2Proof.Machine
end

