-- ==== Sys2Proof/Machine/Dpll.lean ====
section
/-! DEFINITION. References and the DPLL channels (chapter 13): monitors, qualification, selection, switches, states,
history, and their commands. -/

namespace Sys2Proof.Machine

/-- STATE codes (Table 13.4). -/
def DState.code : DState → Nat
  | .free => 0 | .acq => 1 | .lock => 2 | .hold => 3 | .lost => 4

/-- FMEAS reading for no measurement (Table 13.8). -/
def noMeas : Nat := 0x80000000

namespace Chip

/-- Channel `ch`: 0 SYS, 1 TOD. -/
def dp (c : Chip) (ch : Nat) : Channel := vget c.dpll.chan ch {}
/-- Reference monitor `r`. -/
def mon (c : Chip) (r : Nat) : RefMon := vget c.dpll.ref r {}
/-- Channel `ch` changed by `f`. -/
def onCh (c : Chip) (ch : Nat) (f : Channel → Channel) : Chip := { c with dpll := { c.dpll with chan := vupd c.dpll.chan ch f } }
/-- Monitor `r` changed by `f`. -/
def onRef (c : Chip) (r : Nat) (f : RefMon → RefMon) : Chip := { c with dpll := { c.dpll with ref := vupd c.dpll.ref r f } }

/-- A pulse reference (Table 13.1). -/
def pulseRef (c : Chip) (r : Nat) : Bool := (r == 5 || r == 7) && c.lv REF.INFREQ r == 0
/-- The EN bit of reference `r` for channel `ch` (R327). -/
def refEn (c : Chip) (ch r : Nat) : Bool := if ch = 0 then c.on REF.SYSEN r else c.on REF.TODEN r
/-- Its priority for the channel. -/
def refPri (c : Chip) (ch r : Nat) : Nat := if ch = 0 then c.lv REF.SYSPRI r else c.lv REF.TODPRI r
/-- Eligible (R327). -/
def eligible (c : Chip) (ch r : Nat) : Bool := c.refEn ch r && (c.mon r).qual
/-- `r` ranks above `s` (R327). -/
def ranksAbove (c : Chip) (ch r s : Nat) : Bool :=
  decide (c.refPri ch r < c.refPri ch s) || (c.refPri ch r == c.refPri ch s && decide (r < s))

/-- The channel may follow `r` as its live MODE stands, on a shadow REF4 alone (R328, R345). -/
def maySelect (c : Chip) (ch r : Nat) : Bool :=
  let m := c.lv DPLL.MODE ch
  if m = 0 then false
  else if c.twin.role = .shadow then r == 4 && (c.mon 4).qual
  else if m = 1 then c.eligible ch r
  else if m = 2 then r == c.lv DPLL.FORCE ch && c.eligible ch r
  else false
/-- The best reference that the channel may select. -/
def bestRef (c : Chip) (ch : Nat) : Option Nat :=
  ((List.range 8).filter (c.maySelect ch)).foldl
    (fun b r => match b with
      | none => some r
      | some s => if c.ranksAbove ch r s then some r else some s) none

/-- The status words, fault conditions and SELSYS or SELTOD that follow channel `ch` (R339, R340, R343). -/
def syncCh (c : Chip) (k : Clock) (ch : Nat) : Chip :=
  let x := c.dp ch
  let c := ((((c.setSt DPLL.STATE ch x.st.code).setSt DPLL.SWITCHING ch (bit x.target.isSome)).setSt DPLL.SELVALID ch
    (bit x.sel.isSome)).setSt DPLL.NEXTVALID ch (bit x.target.isSome)).setSt DPLL.WTRRUN ch (bit x.wtr.isSome)
  let c := match x.sel with
    | some r => c.setSt DPLL.SELREF ch r
    | none => c
  let c := match x.target with
    | some r => c.setSt DPLL.NEXTREF ch r
    | none => c
  let c := overN 8 (fun r c => c.setSt (if ch = 0 then REF.SELSYS else REF.SELTOD) r (bit (x.sel == some r))) c
  ((c.setCond k (178 + 2 * ch) (x.st == .hold)).setCond k (179 + 2 * ch) (x.st == .lost)).setCond k (182 + ch)
    (c.lv DPLL.MODE ch != 0 && !(List.range 8).any (c.eligible ch))

/-- The channel enters a state (R333). -/
def enter (c : Chip) (k : Clock) (ch : Nat) (st : DState) : Chip :=
  let x := c.dp ch
  if x.st = st then c
  else
    let c := if x.st = .lock then c.addSt DPLL.LOCKLOSS ch 1 else c
    let c := c.onCh ch (fun x => { x with st := st, within := 0, beyond := 0, lockTicks := 0, hist := [] })
    ((c.orSt DPLL.STK ch (2 ^ st.code)).cause k .dpll ch 1).syncCh k ch
/-- HOLD or LOST, by the history (Table 13.4). -/
def holdover (c : Chip) (k : Clock) (ch : Nat) : Chip :=
  c.enter k ch (if (c.dp ch).histValid then .hold else .lost)

/-- HISTVALID (R334). -/
def setHist (c : Chip) (k : Clock) (ch : Nat) (b : Bool) : Chip :=
  if (c.dp ch).histValid = b then c
  else ((c.onCh ch (fun x => { x with histValid := b })).setSt DPLL.HISTVALID ch (bit b)).cause k .dpll ch 16

/-- A switch to `r` begins (R329). -/
def beginSwitch (c : Chip) (k : Clock) (ch r : Nat) : Chip :=
  let b := if c.pulseRef r then 3 else if r = 6 then 1 else k.ticks + 16
  ((c.onCh ch (fun x => { x with
    target := some r, build := b, follow := x.sel.isSome, wtr := none, recheck := false })).cause k .dpll ch 4).syncCh k ch

/-- The channel chooses while it follows no reference (R328 steps 1 and 2). -/
def choose (c : Chip) (k : Clock) (ch : Nat) : Chip :=
  if (c.dp ch).sel.isSome || (c.dp ch).target.isSome then c
  else
    match c.bestRef ch with
    | some r => c.beginSwitch k ch r
    | none => c

/-- The selected reference is lost (R328 step 2, R334). -/
def loseSel (c : Chip) (k : Clock) (ch : Nat) : Chip :=
  let c := c.onCh ch (fun x => { x with sel := none, follow := false, meas := none })
  (((if (c.dp ch).st = .free then c else c.holdover k ch).syncCh k ch).choose k ch)

/-- The switch in progress is abandoned; the channel chooses again (R330). -/
def abandon (c : Chip) (k : Clock) (ch : Nat) : Chip :=
  (((c.onCh ch (fun x => { x with target := none, follow := false })).cause k .dpll ch 8).syncCh k ch).choose k ch

/-- Channel `ch` after reference `r` has been disqualified (R325, R328, R330). -/
def chanLoses (c : Chip) (k : Clock) (r ch : Nat) : Chip :=
  let c := match (c.dp ch).wtr with
    | some (w, _) => if w = r then c.onCh ch (fun x => { x with wtr := none }) else c
    | none => c
  let c := if (c.dp ch).sel = some r then c.loseSel k ch else c
  let c := if (c.dp ch).target = some r then c.abandon k ch else c
  c.syncCh k ch

/-- DEF, QUAL and QRUN of reference `r` as its monitor stands (R340). -/
def syncRef (c : Chip) (r : Nat) : Chip :=
  let m := c.mon r
  ((c.setSt REF.DEF r m.defs).setSt REF.QUAL r (bit m.qual)).setSt REF.QRUN r (bit (m.defs == 0 && !m.qual))

/-- The defects of reference `r` become `new` (R324, R325): a raised one disqualifies it on this edge. -/
def setRefDefs (c : Chip) (k : Clock) (r new : Nat) : Chip :=
  let m := c.mon r
  let diff := changed m.defs new
  let lost := m.qual && diff &&& new != 0
  let c := c.onRef r (fun m => { m with
    defs := new, clearAt := if diff != 0 && new == 0 then k.ticks else m.clearAt, qual := m.qual && !lost })
  let c := if diff &&& new &&& 0x39 != 0 then c.setSt REF.FMEAS r noMeas else c
  let c := (if lost then c.addSt REF.DISQ r 1 else c).syncRef r
  let c := c.causeIf k .ref r (diff * 2 + bit lost)
  if lost then (c.chanLoses k r 0).chanLoses k r 1 else c

/-- One defect bit of reference `r`. -/
def setRefDef (c : Chip) (k : Clock) (r n : Nat) (b : Bool) : Chip :=
  c.setRefDefs k r (setBit (c.mon r).defs n b)

/-- REF4's ROLE defect (R324). -/
def refRole (c : Chip) (k : Clock) : Chip :=
  c.setRefDef k 4 5 (!(decide (c.twin.role = .shadow) && c.st TWIN.LINKUP 0 == 1))

/-- Reference `r` qualifies (R325): an idle channel chooses, a revertive one starts its wait-to-restore (R328). -/
def qualify (c : Chip) (k : Clock) (r : Nat) : Chip :=
  let c := ((c.onRef r (fun m => { m with qual := true })).syncRef r).cause k .ref r 1
  overN 2 (fun ch c =>
    let x := c.dp ch
    let c := c.choose k ch
    let c := match x.sel with
      | some s =>
        if x.target != some r && c.lv DPLL.MODE ch == 1 && c.on DPLL.REVERT ch && c.maySelect ch r && c.ranksAbove ch r s &&
            (match x.wtr with
             | some (w, _) => c.ranksAbove ch r w
             | none => true) then
          c.onCh ch (fun x => { x with wtr := some (r, k.ticks + c.lv DPLL.WTR ch * 8) })
        else c
      | none => c
    c.syncCh k ch) c

/-- A free reference that has been so for QUALT × 8 ticks qualifies (R325). -/
def qualifyDue (c : Chip) (k : Clock) (r : Nat) : Bool :=
  !(c.mon r).qual && (c.mon r).defs == 0 && decide ((c.mon r).clearAt + c.lv REF.QUALT r * 8 ≤ k.ticks)

/-- The defects of an uplink that its recovered clock does not survive (Table 13.2): LOS, LOL, LOF and NOBLK. -/
def lineLost : List Nat := [0, 1, 3, 21]
/-- The defects of reference `r` that the DPLL window judges (Table 13.2); LINE is raised on the uplink's own edge (R122). -/
def judgeRef (c : Chip) (k : Clock) (t : LoopTick) (r : Nat) : Nat :=
  let m := c.mon r
  let d := m.defs
  let pulse := c.pulseRef r
  let d := if r < 4 then setBit (setBit d 0 (c.lv UPL.MODE r == 0)) 4 (lineLost.any (has (c.st UPLSTAT.DEF r)))
    else if r = 5 ∨ r = 7 then
      (if pulse then (if m.pulseAt + 8800 < k.ticks then setBit d 0 true else d)
       else setBit (setBit d 0 (!(t.active.getD (if r = 5 then 0 else 1) false))) 2 false)
    else d
  let d := if r = 6 then setBit d 3 (match m.swAt with
    | none => true
    | some a => decide (a + c.lv REF.UPDMAX 6 ≤ k.ticks)) else d
  let d := if r = 4 then setBit d 5 (!(decide (c.twin.role = .shadow) && c.st TWIN.LINKUP 0 == 1)) else d
  let f := if r = 6 then (if m.swAt.isSome then some (t.core - signed 32 (c.lv REF.SWFREQ 6)) else none) else t.fmeas.getD r none
  if r = 4 then d
  else
    match f with
    | some v => setBit d 1 (decide (c.lv REF.FLIM r * 100000 < v.natAbs))
    | none => d

/-- The measured frequency reported, where no defect denies a measurement. [DEDUCED, log 69] -/
def reportFmeas (c : Chip) (t : LoopTick) (r : Nat) : Chip :=
  let m := c.mon r
  let f := if r = 6 then (if m.swAt.isSome then some (t.core - signed 32 (c.lv REF.SWFREQ 6)) else none) else t.fmeas.getD r none
  if m.defs &&& 0x39 ≠ 0 then c
  else
    match f with
    | some v => c.setSt REF.FMEAS r (unsigned 32 v)
    | none => c

/-- A measurement of channel `ch` (R323, R333): it is reported, and judged in ACQ and LOCK. -/
def measure (c : Chip) (k : Clock) (ch : Nat) (e : Int) : Chip :=
  let c := c.setSt DPLL.PHERR ch (unsigned 32 e)
  if ch = 1 ∧ c.tim.stepRem ≠ 0 then c
  else
    let lim := c.lv DPLL.LOCKPH ch * 16
    let x := c.dp ch
    let c := c.onCh ch (fun x => { x with
      within := if e.natAbs ≤ lim then x.within + 1 else 0, beyond := if 4 * lim < e.natAbs then x.beyond + 1 else 0 })
    let y := c.dp ch
    if x.st = .acq ∧ c.lv DPLL.LOCKN ch ≤ y.within then c.enter k ch .lock
    else if x.st = .lock ∧ c.lv DPLL.UNLOCKN ch ≤ y.beyond then c.enter k ch .acq
    else c

/-- Ticks of a history window (R334). -/
def histWin (c : Chip) (ch : Nat) : Nat :=
  match c.lv DPLL.HISTWIN ch with
  | 0 => 8000 | 1 => 80000 | 2 => 800000 | _ => 4800000

/-- The measurement that the loop of channel `ch` takes in this window (R323): of a clock the phase measured in the tick, of a
pulse, REF4 for TOD or REF6 the one delivered; less what was built out at the last switch. -/
def loopMeas (c : Chip) (t : LoopTick) (ch : Nat) : Option Int :=
  match (c.dp ch).sel with
  | none => none
  | some r =>
    let e := if ch = 1 then (c.dp 1).meas
      else if c.pulseRef r || r == 6 then (c.dp 0).meas.bind (fun _ => t.sysPh)
      else t.sysPh
    e.map (· - signed 32 (c.st DPLL.PBOFS ch))
/-- The bandwidth code that channel `ch` runs at (R331, R345). -/
def loopBw (c : Chip) (ch : Nat) : Nat :=
  if c.twin.role = .shadow then (if ch = 0 then 6 else 7)
  else if (c.dp ch).st = .lock then c.lv DPLL.BW ch else c.lv DPLL.ACQBW ch
/-- TOD leaves the frequency error to SYS: both follow one reference, and SYS is in LOCK on it (R335). -/
def sharedRef (c : Chip) : Bool :=
  (c.dp 1).sel.isSome && (c.dp 1).sel == (c.dp 0).sel && decide ((c.dp 0).st = .lock)
/-- The loop filter of channel `ch` on a measurement (R331, R332, R335): the integrator and the output asked for.  In ACQ the TOD
channel asks for the full rate of R20 while the error exceeds 1 µs. [DESIGN CHOICE, log 91] -/
def loopFilter (c : Chip) (ch : Nat) (e : Int) : Int × Int :=
  let x := c.dp ch
  let bw := c.loopBw ch
  if ch = 0 ∧ x.sel = some 6 then
    let i := Config.loopFreq bw x.integ (-signed 32 (c.lv REF.SWFREQ 6))
    (i, i)
  else if ch = 1 ∧ x.st = .acq ∧ 16000 < e.natAbs then (x.integ, if 0 < e then -1000000000 else 1000000000)
  else
    let i := if ch = 1 ∧ c.sharedRef = true then 0 else Config.loopInteg bw x.integ e
    (i, Config.loopOut bw i e)
/-- The output of SYS one tick on: it moves towards `aim` by 0.5 ppm at most and stays within 200 ppm (R19). -/
def slopeSys (out aim : Int) : Int := max (-200000000) (min 200000000 (max (out - 500000) (min (out + 500000) aim)))
/-- CLAMPED of SYS and source 185 (R332, R343). -/
def clampTick (c : Chip) (k : Clock) (b : Bool) : Chip :=
  let was := c.st DPLL.CLAMPED 0 == 1
  let c := c.onCh 0 (fun x => { x with clampTicks := if b then x.clampTicks + 1 else 0 })
  let c := if was = b then c else (c.setSt DPLL.CLAMPED 0 (bit b)).cause k .dpll 0 32
  c.setCond k 185 (decide (8 ≤ (c.dp 0).clampTicks))
/-- The measurement of channel `ch` enters its filter in ACQ and LOCK (R331, R336): while the clamp acts on SYS the integrator is
held (R332), and while STEPREM is not 0 TOD takes none. -/
def filterTick (c : Chip) (ch : Nat) (e : Option Int) : Chip :=
  let x := c.dp ch
  match e with
  | none => c
  | some e =>
    if (x.st ≠ .acq ∧ x.st ≠ .lock) ∨ (ch = 1 ∧ c.tim.stepRem ≠ 0) then c
    else
      let (i, aim) := c.loopFilter ch e
      let held := ch == 0 && slopeSys x.out aim != aim
      c.onCh ch (fun x => { x with integ := if held then x.integ else i, aim := aim })
/-- What the state of channel `ch` asks of its output (Table 13.4): nothing in FREE and LOST, the history in HOLD. -/
def stateAim (c : Chip) (ch : Nat) : Chip :=
  match (c.dp ch).st with
  | .free | .lost => c.onCh ch (fun x => { x with aim := 0 })
  | .hold => c.onCh ch (fun x => { x with aim := signed 32 (c.st DPLL.HISTFREQ ch) })
  | .acq | .lock => c
/-- The output of channel `ch` in this tick, and FOUT (R19, R20, R332). -/
def moveOut (c : Chip) (k : Clock) (ch : Nat) : Chip :=
  let x := c.dp ch
  let out := if ch = 0 then slopeSys x.out x.aim else max (-1000000000) (min 1000000000 x.aim)
  let c := (c.onCh ch (fun x => { x with out := out })).setSt DPLL.FOUT ch (unsigned 32 out)
  if ch = 0 then c.clampTick k (out != x.aim) else c
/-- The mean of a history (R334), rounded down. [DEDUCED, log 82] -/
def histMean (c : Chip) (ch : Nat) : Int :=
  (((c.dp ch).hist.drop 8000).take (c.histWin ch)).foldl (· + ·) 0 / (c.histWin ch : Int)
/-- The history of channel `ch`, which grows in LOCK alone (R334). -/
def histTick (c : Chip) (k : Clock) (ch : Nat) : Chip :=
  let need := c.histWin ch + 8000
  if (c.dp ch).st = .lock then
    let c := c.onCh ch (fun x => { x with lockTicks := x.lockTicks + 1, hist := (x.out :: x.hist).take need })
    if need ≤ (c.dp ch).lockTicks then (c.setSt DPLL.HISTFREQ ch (unsigned 32 (c.histMean ch))).setHist k ch true
    else c
  else c
/-- The tick of channel `ch` in the DPLL window (R331 to R336). -/
def loopTick (c : Chip) (k : Clock) (t : LoopTick) (ch : Nat) : Chip :=
  let e := if (c.dp ch).selAt < k.ticks then c.loopMeas t ch else none
  let c := c.onCh ch (fun x => { x with meas := none })
  let c := match e with
    | some e => c.measure k ch e
    | none => c
  (((c.filterTick ch e).stateAim ch).moveOut k ch).histTick k ch

/-- The core clock as measured over the tick (R32, R36): COREOFS, and source 176 where it lies beyond 250 ppm or has moved by
more than 1 ppm. COREOFS is rounded down to 1 ppb. [DEDUCED, log 82] -/
def coreTick (c : Chip) (k : Clock) (v : Int) : Chip :=
  let bad := decide (250000000 < v.natAbs) || c.dpll.core.any (fun l => decide (1000000 < (v - l).natAbs))
  let c := if bad then c.srcEvent k 176 else c
  { c.onDir (fun d => { d with coreOfs := unsigned 20 (max (-200000) (min 200000 (v / 1000))) }) with
    dpll := { c.dpll with core := some v } }

/-- The DPLL window (R324, R325, R328, R331 to R334): qualifications first, then the defects raised, then the loops. -/
def loopUpdate (c : Chip) (k : Clock) (t : LoopTick) : Chip :=
  let c := overN 8 (fun r c => if c.qualifyDue k r && c.judgeRef k t r == 0 && !c.liveBad 0x59 r then c.qualify k r else c) c
  let c := overN 8 (fun r c => if c.liveBad 0x59 r then c else (c.setRefDefs k r (c.judgeRef k t r)).reportFmeas t r) c
  let c := overN 2 (fun ch c => ((if c.liveBad 0x58 ch then c else c.choose k ch).loopTick k t ch).syncCh k ch) c
  c.coreTick k t.core

/-- The switch of channel `ch` may complete (R329). -/
def switchReady (c : Chip) (k : Clock) (ch : Nat) : Bool :=
  match (c.dp ch).target with
  | some r => if c.pulseRef r || r == 6 then (c.dp ch).build == 0 else decide ((c.dp ch).build ≤ k.ticks)
  | none => false

/-- After a switch of channel `ch` (R330): for a reference that outranks the new selection a switch begins where a commit or a
wait-to-restore that ended during the switch asks for it, and else its wait-to-restore goes on or starts. -/
def afterSwitch (c : Chip) (k : Clock) (ch : Nat) (recheck : Bool) : Chip :=
  match (c.dp ch).sel, c.bestRef ch with
  | some s, some r =>
    if r ≠ s ∧ c.ranksAbove ch r s = true then
      if recheck then c.beginSwitch k ch r
      else if c.on DPLL.REVERT ch then
        match (c.dp ch).wtr with
        | some (w, _) => if w = r then c else c.onCh ch (fun x => { x with wtr := some (r, k.ticks + c.lv DPLL.WTR ch * 8) })
        | none => c.onCh ch (fun x => { x with wtr := some (r, k.ticks + c.lv DPLL.WTR ch * 8) })
      else c
    else c.onCh ch (fun x => { x with wtr := none })
  | _, _ => c

/-- The switch of channel `ch` completes with the target's phase against the output (R329). [DEDUCED, log 70] -/
def completeSwitch (c : Chip) (k : Clock) (ch : Nat) (phase : Int) : Chip :=
  match (c.dp ch).target with
  | none => c
  | some r =>
    let x := c.dp ch
    let pbo := if ch = 0 then phase
      else if c.twin.role ≠ .shadow ∧ c.on DPLL.PBO 1 = true then (c.mon r).last else 0
    let c := c.onCh ch (fun x => { x with
      sel := some r, selAt := k.ticks, target := none, follow := false, recheck := false, within := 0, beyond := 0, meas := none })
    let c := ((c.setSt DPLL.PBOFS ch (unsigned 32 pbo)).addSt DPLL.SWITCHES ch 1).cause k .dpll ch 2
    let c := if x.st = .acq ∨ x.st = .lock then c else c.enter k ch .acq
    (c.afterSwitch k ch x.recheck).syncCh k ch

/-- A pulse, a software update or a marker delivers a measurement of reference `r` to the channels (R322, R323).  One that TOD forms
while STEPREM is not 0 is reported and not used (R336). -/
def deliver (c : Chip) (r : Nat) (e : Int) : Chip :=
  let c := c.onRef r (fun m => { m with last := e })
  overN 2 (fun ch c =>
    let x := c.dp ch
    if x.target = some r then c.onCh ch (fun x => { x with build := x.build - 1 })
    else if x.sel ≠ some r then c
    else if ch = 1 ∧ c.tim.stepRem ≠ 0 then c.setSt DPLL.PHERR 1 (unsigned 32 (e - signed 32 (c.st DPLL.PBOFS 1)))
    else c.onCh ch (fun x => { x with meas := some e })) c

/-- What the apply edge of a commit does to reference `r` (R322 to R324, R347): `old` is the live bank before it. -/
def refApply (c : Chip) (k : Clock) (old : Bank) (r : Nat) : Chip :=
  let c := if old.fld REF.INFREQ r ≠ c.lv REF.INFREQ r then c.onRef r (fun m => { m with pulseAt := k.ticks }) else c
  if r = 6 ∧ old.fld REF.SWSEQ 6 ≠ c.lv REF.SWSEQ 6 then
    ((c.onRef 6 (fun m => { m with swAt := some k.ticks })).setRefDef k 6 3 false).deliver 6 (signed 32 (c.lv REF.SWPHASE 6))
  else c

/-- What the apply edge of a commit does to channel `ch` (R328 step 4, R330, R333, R334). -/
def chanApply (c : Chip) (k : Clock) (old : Bank) (first : Bool) (ch : Nat) : Chip :=
  let ne := fun (f : Fld) (r : Nat) => old.fld f r != c.lv f r
  let hist := ne DPLL.HISTSEQ ch
  let mode := c.lv DPLL.MODE ch
  let moved := first || ne DPLL.MODE ch || ne DPLL.REVERT ch || ne DPLL.FORCE ch ||
    (List.range 8).any (fun r => if ch = 0 then ne REF.SYSEN r || ne REF.SYSPRI r else ne REF.TODEN r || ne REF.TODPRI r)
  let c := if hist then (c.setHist k ch false).onCh ch (fun x => { x with lockTicks := 0, hist := [] }) else c
  if !moved then c.syncCh k ch
  else if mode = 0 then
    let c := c.onCh ch (fun x => { x with
      sel := none, target := none, follow := false, wtr := none, recheck := false, meas := none, integ := 0 })
    ((c.setHist k ch false).enter k ch .free).syncCh k ch
  else
    let x := c.dp ch
    let c := c.onCh ch (fun x => { x with wtr := none, recheck := x.target.isSome })
    let c := match x.target with
      | some r => if c.maySelect ch r then c else c.abandon k ch
      | none => c
    let c := match (c.dp ch).sel with
      | some r => if c.maySelect ch r then c else c.loseSel k ch
      | none => c.choose k ch
    let c := if mode = 3 ∧ c.twin.role ≠ .shadow ∧ (c.dp ch).st ≠ .hold ∧ (c.dp ch).st ≠ .lost then c.holdover k ch else c
    let c := match (c.dp ch).sel, (c.dp ch).target, c.bestRef ch with
      | some s, none, some r => if r ≠ s then c.beginSwitch k ch r else c
      | _, _, _ => c
    c.syncCh k ch

/-- The references and channels at the apply edge of a commit. -/
def dpllApply (c : Chip) (k : Clock) (old : Bank) (first : Bool) : Chip :=
  (overN 8 (fun r c => c.refApply k old r) c |>.chanApply k old first 0).chanApply k old first 1

/-- HOLDTICKS at a tick boundary (R339). -/
def holdTicks (c : Chip) : Chip :=
  overN 2 (fun ch c => if (c.dp ch).st = .hold ∨ (c.dp ch).st = .lost then c.addSt DPLL.HOLDTICKS ch 1 else c) c

end Chip

end Sys2Proof.Machine
end

