-- ==== Sys2Proof/Machine/MeadowOps.lean ====
section
/-! DEFINITION. The meadow as the datapaths use it (R144, R148, R228 to R231): cells, items, deliveries, discards with
their failure records (R264), and the descriptors a lit part mirrors (R387, R393). -/

namespace Sys2Proof.Machine

/-- Discard causes (Table 6.2). -/
def cDisabled : Nat := 1
def cNopath : Nat := 2
def cOversize : Nat := 3
def cCheck : Nat := 4
def cNospace : Nat := 5
def cShade : Nat := 6
def cTakeover : Nat := 7

/-- Cells that `n` bytes take. -/
def cellsFor (n : Nat) : Nat := (n + 63) / 64
/-- Rows of a bank that the two pools share (R229). -/
def sharedRows : Nat := 30720

/-- The FCS that ends a client frame. -/
def fcsOf (bs : List Byte) : Word := word (beVal (bs.drop (bs.length - 4)))

namespace Meadow

/-- The cell may be given out on the edge of EVC `e` (R228). -/
def free (m : Meadow) (e cell : Nat) : Bool := !m.used.contains cell && !(m.freedEvc == e && m.freed.contains cell)
/-- The first free cell of a bank, from row `r` on. -/
def findRow (m : Meadow) (e bank r : Nat) : Nat → Option Nat
  | 0 => none
  | n + 1 =>
    let cell := r % sharedRows * 16 + bank
    if m.free e cell then some cell else findRow m e bank (r + 1) n
/-- A free cell of the next bank that has one, from bank `b` on; `r` chooses the row, which the spec leaves open. [DESIGN CHOICE, log 27] -/
def findCell (m : Meadow) (e b r : Nat) : Nat → Option Nat
  | 0 => none
  | n + 1 =>
    match m.findRow e (b % 16) r sharedRows with
    | some cell => some cell
    | none => findCell m e (b + 1) r n
/-- Cells in use in a pool. -/
def poolUsed (m : Meadow) (up : Bool) : Nat := if up then m.upUsed else m.dnUsed
/-- The pool's use, with its peak. -/
def setPool (m : Meadow) (up : Bool) (n : Nat) : Meadow :=
  if up then { m with upUsed := n, upPeak := max m.upPeak n } else { m with dnUsed := n, dnPeak := max m.dnPeak n }

end Meadow

namespace Chip

/-- Quota of a pool in cells (R230). -/
def quota (c : Chip) (up : Bool) : Nat := (if up then c.lv XBAR.UPPOOL 0 else c.lv XBAR.DNPOOL 0) * 1024
/-- DNFULL and UPFULL (R249). -/
def syncPools (c : Chip) (k : Clock) : Chip :=
  (c.setCond k 210 (c.mead.dnUsed == c.quota false)).setCond k 211 (c.mead.upUsed == c.quota true)

/-- The cell that the pool gives out next, if it may give one (R228, R230). -/
def nextCell (c : Chip) (k : Clock) (up : Bool) (r : Nat) : Option Nat :=
  if c.quota up ≤ c.mead.poolUsed up then none else c.mead.findCell k.evc (c.mead.bank + 1) r 16
/-- Gives out up to `n` cells of a pool, one by one, the first one refused ending it (R228, R230): the cells, first to last, and the
refused write counted. [DESIGN CHOICE, log 27] -/
def takeCells (c : Chip) (k : Clock) (up : Bool) : Nat → List Nat × Chip
  | 0 => ([], c)
  | n + 1 =>
    let (r, c) := c.draw
    match c.nextCell k up r with
    | none => ([], (c.onM (fun m => { m with refused := wrapAdd 32 m.refused 1 })).syncPools k)
    | some cell =>
      let c := c.onM (fun m => ({ m with
        used := cell :: m.used, bank := cell % 16, upsets := m.upsets.filter (fun x => x.cell != cell) }).setPool up (m.poolUsed up + 1))
      let (l, c) := c.takeCells k up n
      (cell :: l, c)

/-- Releases the cells of an item (R228). -/
def freeCells (c : Chip) (k : Clock) (up : Bool) (cells : List Nat) : Chip :=
  (c.onM (fun m => ({ m with
    used := m.used.filter (fun x => !cells.contains x),
    freed := if m.freedEvc == k.evc then cells ++ m.freed else cells, freedEvc := k.evc }).setPool up
      (m.poolUsed up - cells.length))).syncPools k

/-! ### Mirror descriptors of a lit part (R387, R393) -/

/-- The part sends the mirror stream. -/
def mirrors (c : Chip) : Bool :=
  decide (c.twin.role = .lit) && c.st TWIN.LINKUP 0 == 1 && c.st TWIN.COMPATOK 0 == 1 && !c.shaded
/-- A descriptor is sent, or dropped at a full mirror buffer: whether the buffer can take it is a free value (the spec does not
say when it drains, R393). [DESIGN CHOICE, log 31] -/
def sendDesc (c : Chip) : Chip :=
  let (room, c) := c.draw
  if room % 2 = 0 then c.addSt TWIN.DESCSENT 0 1
  else (c.addSt TWIN.DESCLOST 0 1).onTwin (fun t => { t with lossNow := true })
/-- The ADD of an item: it takes the next SEQ (R387). -/
def sendAdd (c : Chip) : Nat × Chip :=
  let n := c.twin.nextSeq
  (n, (c.onTwin (fun t => { t with nextSeq := (t.nextSeq + 1) % 2 ^ 32 })).sendDesc)
/-- The RETIRE of an item, unless its cause is SHADE or TAKEOVER. [DEDUCED, log 56] -/
def retire (c : Chip) (it : Item) (cause : Nat) : Chip :=
  if c.mirrors && it.seq.isSome && cause != cShade && cause != cTakeover then c.sendDesc else c

/-! ### Items -/

/-- A tributary's items in one direction. -/
def items (c : Chip) (t : Nat) (up : Bool) : List Item := if up then (c.t t).up else (c.t t).dn
/-- They become `l`; an upstream list that empties has its deficit set to 0 (R145). -/
def setItems (c : Chip) (t : Nat) (up : Bool) (l : List Item) : Chip :=
  c.onT t (fun x => if up then { x with up := l, deficit := if l = [] then 0 else x.deficit } else { x with dn := l })
/-- Items being received, not yet whole: downstream on the uplinks, upstream on the drops. -/
def openItems (c : Chip) (up : Bool) : List Item :=
  if up then (List.range 96).filterMap (fun d => (c.d d).rxItem) else (List.range 4).filterMap (fun u => (c.u u).rx)
/-- Cells that a tributary holds in one direction (R144). -/
def tribCells (c : Chip) (t : Nat) (up : Bool) : Nat :=
  ((c.items t up ++ (c.openItems up).filter (fun i => i.trib == t)).map (fun i => i.cells.length)).sum
/-- Counts a discard (R148, R149). -/
def countDisc (c : Chip) (t : Nat) (up : Bool) (cause : Nat) : Chip :=
  c.onT t (fun x =>
    if up then { x with upDisc := vupd x.upDisc (cause - 1) (fun n => wrapAdd 32 n 1) }
    else { x with dnDisc := vupd x.dnDisc (cause - 1) (fun n => wrapAdd 32 n 1) })

/-- A failure record (R264, Table 10.3), its last byte taken on the edge of EVC `e`. -/
def failRecord (c : Chip) (k : Clock) (flag : Fld) (cause t : Nat) (up : Bool) (cell len : Nat) (stamp : Word) (e : Nat) : Chip :=
  match (List.range 8).find? (fun q => c.on flag q && c.qEn q) with
  | some q =>
    (c.qRecord k q 6 t (wordBytes (word (0x03000000 + cause * 2 ^ 20 + bit up * 2 ^ 19 + t)) ++ wordBytes (word cell) ++
      wordBytes (word len) ++ wordBytes stamp) e).1
  | none => c

/-- An item already off its list ends under a discard cause: counted, its cells released, retired, and recorded where the
cause is DISABLED. -/
def discardItem (c : Chip) (k : Clock) (it : Item) (cause : Nat) : Chip :=
  let c := ((c.countDisc it.trib it.up cause).freeCells k it.up it.cells).retire it cause
  if cause = cDisabled then
    c.failRecord k QUEUE.FRDIS cDisabled it.trib it.up (it.cells.headD 0) it.data.length it.stamp k.evc
  else c

/-- An item already off its list is delivered (R148). -/
def deliverItem (c : Chip) (k : Clock) (it : Item) : Chip :=
  let n := it.data.length
  ((c.onT it.trib (fun x =>
    if it.up then { x with upFrames := wrapAdd 32 x.upFrames 1, upBytes := wrapAdd 32 x.upBytes n }
    else { x with dnFrames := wrapAdd 32 x.dnFrames 1, dnBytes := wrapAdd 32 x.dnBytes n })).freeCells k it.up it.cells).retire it 0

/-- The earliest unmatched ADD that a shadow's new copy matches (R391). -/
def matchAdd (c : Chip) (it : Item) : Option Desc :=
  c.twin.adds.find? (fun d => d.trib == it.trib && d.up == it.up && d.len == it.data.length && d.crc == fcsOf it.data &&
    decide (d.comAt ≤ it.comAt + 125000) && decide (it.comAt ≤ d.comAt + 125000))

/-- `n` further cells that the tributary's limit and its pool allow, one by one; `held` cells of the item are not on a list yet. -/
def limitCells (c : Chip) (t : Nat) (up : Bool) (held n : Nat) : Nat :=
  let lim := (if up then c.lv TRIB.UPLIM t else c.lv TRIB.DNLIM t) * 8
  if lim = 0 then n else min n (lim - (c.tribCells t up + held))
/-- The bytes `bs` come to an item being received, which no list holds meanwhile: its cells are taken as they are needed.  What ends it
is the first of its length passing MAXLEN and a cell that it cannot have (R144, R230). -/
def growItem (c : Chip) (k : Clock) (it : Item) (bs : List Byte) : Chip × Except Nat Item :=
  let max := c.lv TRIB.MAXLEN it.trib
  let len := it.data.length + bs.length
  let need := cellsFor (min len max) - it.cells.length
  let may := c.limitCells it.trib it.up it.cells.length need
  let (got, c) := c.takeCells k it.up may
  let it := { it with data := (it.data ++ bs).take (64 * (it.cells.length + got.length)), cells := it.cells ++ got }
  if got.length < need then (c.discardItem k it cNospace, .error cNospace)
  else if max < len then (c.discardItem k { it with data := it.data.take (max + 1) } cOversize, .error cOversize)
  else (c.syncPools k, .ok { it with data := it.data })
/-- A whole item joins its tributary's list, as the mirror or the lit part's stream has it (R387, R391). -/
def commitItem (c : Chip) (k : Clock) (it : Item) : Chip :=
  let it := { it with comAt := k.evc }
  let (it, c) :=
    if c.mirrors then let (s, c) := c.sendAdd; ({ it with seq := some s }, c)
    else if c.twin.role = .shadow then
      match c.matchAdd it with
      | some d => ({ it with seq := some d.seq },
          c.onTwin (fun x => { x with adds := x.adds.filter (fun y => y.seq != d.seq) }))
      | none => (it, c)
    else (it, c)
  (c.setItems it.trib it.up (c.items it.trib it.up ++ [it])).syncPools k
/-- A client frame of tributary `t` begins with the bytes `bs`; `whole` tells that they are all of it, `good` that it passes its checks
at its end (R142 to R144).  Answers the item that is still being received. -/
def beginClient (c : Chip) (k : Clock) (t : Nat) (up : Bool) (dest key : Nat) (bs : List Byte) (whole good : Bool) : Chip × Option Item :=
  match c.growItem k { trib := t, up, dest, key, data := [], cells := [], stamp := k.stamp } bs with
  | (c, .error _) => (c, none)
  | (c, .ok it) =>
    if !whole then (c, some it) else if good then (c.commitItem k it, none) else (c.discardItem k it cCheck, none)

/-- The client frame being received on uplink `u` ends early (R152, R162). -/
def endRx (c : Chip) (k : Clock) (u cause : Nat) : Chip :=
  match (c.u u).rx with
  | some it => (c.onU u (fun x => { x with rx := none })).discardItem k it cause
  | none => c
/-- The client frame being received on drop `d` ends early (R162, R213). -/
def endUp (c : Chip) (k : Clock) (d cause : Nat) : Chip :=
  match (c.d d).rxItem with
  | some it => (c.onD d (fun x => { x with rxItem := none })).discardItem k it cause
  | none => c

/-- Errored words of the item's cells that its read meets (R231): the corrected ones are counted, and each uncorrectable one
raises its bank's source.  The flag tells whether an uncorrectable word was met. -/
def readCells (c : Chip) (k : Clock) (cells : List Nat) : Bool × Chip :=
  let hit := c.mead.upsets.filter (fun x => cells.contains x.cell)
  let one := (hit.filter (fun x => x.bits == 1)).length
  let two := hit.filter (fun x => x.bits == 2)
  let c := c.onM (fun m => { m with
    eccCor := wrapAdd 32 m.eccCor one, eccUnc := wrapAdd 32 m.eccUnc two.length, fixedNow := m.fixedNow || one != 0 })
  (two != [], two.foldl (fun c x => c.srcEvent k (224 + x.cell % 16)) c)

/-! ### Whether an uplink sends client frames (R147) -/

/-- The uplink transmitter sends client frames: TXSTAT acts in OTN modes alone. -/
def sendsClient (c : Chip) (u : Nat) : Bool :=
  (c.u u).laser && (c.u u).dark.isNone && (c.u u).txFault == 0 &&
    (RuleCtx.eth (c.lv UPL.MODE u) || c.lv UPL.TXSTAT u == 0) && !c.on UPL.PRBSG u

end Chip

end Sys2Proof.Machine
end

