-- ==== Sys2Proof/Machine/Time.lean ====
section
/-! DEFINITION. The time engine (chapter 12): steps, slew edges, capture units, timed outputs, PPS_OUT, and the PTP records. -/

namespace Sys2Proof.Machine

/-- Outputs: 0 to 7 are TOUT0 to TOUT7, 8 is PPS_OUT. -/
def ppsOut : Nat := 8

/-! ### The clock: steps and slew edges -/

namespace Clock

/-- A slew edge: an edge that adds 2 or 0 (R20, R295, R296). -/
def slew (k : Clock) (add2 : Bool) : Clock :=
  if add2 then { k with ns := k.ns + 2, evc := k.evc + 2, edges := k.edges + 1, up := k.up + 1, sinceSlew := 0, skip := true }
  else { k with edges := k.edges + 1, dn := k.dn + 1, sinceSlew := 0, skip := false }
/-- A slew edge may be the next edge (R20). -/
def mayslew (k : Clock) (add2 : Bool) : Bool :=
  decide (999 ≤ k.sinceSlew) && decide (16 ≤ k.idx) && decide (k.idx ≤ if add2 then 124981 else 124983)
/-- Local time after a step of `m` milliseconds. -/
def stepMs (k : Clock) (m : Int) : Clock :=
  let t := ((k.time : Int) + m * 1000000).toNat
  { k with sec := t / Config.secNs % 2 ^ 48, ns := t % Config.secNs }

end Clock

/-- Whole milliseconds of a step in ns (R298). -/
def stepM (t : Int) : Int := (t + 500000) / 1000000
/-- Its remainder (R298). -/
def stepR (t : Int) : Int := t - stepM t * 1000000

namespace Chip

/-- Output `o`. -/
def out (c : Chip) (o : Nat) : Output := vget c.tim.out o {}
/-- Output `o` changed by `f`. -/
def onOut (c : Chip) (o : Nat) (f : Output → Output) : Chip := c.onTime (fun t => { t with out := vupd t.out o f })
/-- START of a row as local ns. -/
def startOf (b : Bank) (r : Nat) : Nat :=
  (b.fld TIME.OUT_STARTHI r * 2 ^ 32 + b.fld TIME.OUT_STARTLO r) * Config.secNs + b.fld TIME.OUT_STARTNS r
/-- ACTIVE and ARMED of output `o`. -/
def syncOut (c : Chip) (o : Nat) : Chip :=
  let x := c.out o
  if o = ppsOut then c.setSt TIME.PPS_ACTIVE 14 (bit x.active)
  else (c.setSt TIME.OUT_ACTIVE (6 + o) (bit x.active)).setSt TIME.OUT_ARMED (6 + o) (bit x.armed)
/-- Output `o` sets LATE (R305 to R307). -/
def setLate (c : Chip) (k : Clock) (o : Nat) : Chip :=
  ((c.setSt TIME.OUT_LATE (6 + o) 1).cause k .tout (6 + o) 2).onTime (fun t => { t with lateNow := true })

/-- The first time of a periodic schedule at or after `t`. -/
def periodicNext (start period t : Nat) : Nat :=
  if t ≤ start then start else if period = 0 then start else start + (t - start + period - 1) / period * period
/-- The first local time at or after `t`, in ns, at which output `o` is to make an active edge (R303, R304, R308). -/
def nextEdge (c : Chip) (o t : Nat) : Option Nat :=
  if o = ppsOut then
    if c.on TIME.PPS_EN 14 then
      let s := ((t : Int) - signed 32 (c.lv TIME.PPSOFS 14) + (Config.secNs - 1 : Nat)) / (Config.secNs : Int)
      some (s * (Config.secNs : Int) + signed 32 (c.lv TIME.PPSOFS 14)).toNat
    else none
  else
    let start := startOf c.heath.live (6 + o)
    match c.lv TIME.OUT_MODE (6 + o) with
    | 1 => if (c.out o).armed ∧ t ≤ start then some start else none
    | 2 => some (periodicNext start (c.lv TIME.OUT_PERIOD (6 + o)) t)
    | _ => none
/-- The edge of output `o` that is due next, from the present core-clock edge on: a time skipped by a slew edge counts, and
a time already made does not (R303), nor one of a schedule that falls inside a pulse in progress (R306, R308). -/
def dueEdge (c : Chip) (k : Clock) (o : Nat) : Option Nat :=
  let t := k.time - bit k.skip
  let t := match (c.out o).lastAt with
    | some l => max t (l + 1)
    | none => t
  let x := c.out o
  c.nextEdge o (if x.active && (o == ppsOut || c.lv TIME.OUT_MODE (6 + o) == 2) then max t (k.time + (x.pulseEnd - k.evc)) else t)

/-- Output `o` makes an active edge for local time `t` (R303, R305, R308). -/
def makeEdge (c : Chip) (k : Clock) (o t : Nat) : Chip :=
  let x := c.out o
  let c := c.onTime (fun t => { t with fired := (4 + o) :: t.fired })
  if o = ppsOut then
    let c := c.onOut o (fun x => { x with active := true, pulseEnd := k.evc + c.lv TIME.PPS_WIDTH 14, lastAt := some t })
    (((c.addSt TIME.PPS_PULSES 14 1).setSt TIME.PPS_LASTEDGE 14 k.stamp.toNat).cause k .pps 14 1).syncOut o
  else
    let r := 6 + o
    let one := c.lv TIME.OUT_MODE r == 1
    let c := c.onOut o (fun x => { x with
      active := true, pulseEnd := k.evc + c.lv TIME.OUT_WIDTH r, lastAt := some t, armed := x.armed && !one, first := false })
    let c := (c.addSt TIME.OUT_FIRES r 1).setSt TIME.OUT_LASTEDGE r k.stamp.toNat
    (if one || x.first then c.cause k .tout r 1 else c).syncOut o

/-- A pulse whose width has passed ends. -/
def endPulse (c : Chip) (k : Clock) (o : Nat) : Chip :=
  if (c.out o).active ∧ (c.out o).pulseEnd ≤ k.evc then (c.onOut o (fun x => { x with active := false })).syncOut o else c

/-- The level of an output's ball, none where it is at high impedance (R303, R305, R308, R319, R481): the active level is high while
POL is 0, and POL inverts both levels from the boundary of its commit. -/
def outPin (c : Chip) (o : Nat) : Option Bool :=
  if c.shaded || c.port.vioLost then none
  else some ((c.out o).active != (if o = ppsOut then c.on TIME.PPS_POL 14 else c.on TIME.OUT_POL (6 + o)))

/-- A commit changes the schedule fields of output `o` (R304 to R306).  `k` is the boundary edge at the local time that a step on
it gives (R295, R305). -/
def outApply (c : Chip) (k : Clock) (old : Bank) (o : Nat) : Chip :=
  let r := 6 + o
  let ne := fun (f : Fld) => old.fld f r != c.lv f r
  let start := startOf c.heath.live r
  let moved := startOf old r != start
  if !(ne TIME.OUT_MODE || moved || ne TIME.OUT_PERIOD || ne TIME.OUT_WIDTH) then c
  else
    let c := c.setSt TIME.OUT_LATE r 0
    let x := c.out o
    match c.lv TIME.OUT_MODE r with
    | 1 =>
      let armed := x.armed || ne TIME.OUT_MODE || moved || ne TIME.OUT_WIDTH
      let late := decide (start < k.time) || (armed && x.active && decide (start - k.time + k.evc < x.pulseEnd))
      let c := (c.onOut o (fun x => { x with armed := armed && !late, first := true })).syncOut o
      if late then c.setLate k o else c
    | 2 =>
      let c := (c.onOut o (fun x => { x with armed := false, first := true })).syncOut o
      if start < k.time then c.setLate k o else c
    | _ => (c.onOut o (fun x => { x with armed := false })).syncOut o

/-- The present edge at the local time that a step still to come on it gives (R23, R295, R298). -/
def steppedClock (c : Chip) (k : Clock) : Clock :=
  match c.tim.stepReq with
  | some v => if k.superframe then k.stepMs (stepM (v + c.tim.stepRem)) else k
  | none => k
/-- What the apply edge of a commit does in the time engine (R298, R304, R305); `step` is false for a mirrored commit (R388). -/
def timeApply (c : Chip) (k : Clock) (old : Bank) (step : Bool) : Chip :=
  let c := if step ∧ old.fld TIME.STEPSEQ 0 ≠ c.lv TIME.STEPSEQ 0 then
      let v := signed 64 (c.lv TIME.STEP 0 * 2 ^ 32 + c.lv (TIME.STEP.at 1) 0)
      c.onTime (fun t => { t with stepReq := some (t.stepReq.getD 0 + v) })
    else c
  overN 8 (fun o c => c.outApply (c.steppedClock k) old o) c

/-- A forward step jumps the local times from `t0` up to `t1` (R307). -/
def jumpOut (c : Chip) (k : Clock) (t0 t1 o : Nat) : Chip :=
  match c.nextEdge o t0 with
  | some t =>
    if t < t1 then
      let c := if c.lv TIME.OUT_MODE (6 + o) = 1 then (c.onOut o (fun x => { x with armed := false })).syncOut o else c
      c.setLate k o
    else c
  | none => c

/-! ### Records of the time engine (R309, R310, R315) -/

/-- SEC and NS words of a local time in ns. -/
def timeWords3 (t : Nat) : List Byte :=
  let s := t / Config.secNs % 2 ^ 48
  wordBytes (word (s / 2 ^ 32)) ++ wordBytes (word s) ++ wordBytes (word (t % Config.secNs))
/-- Writes a record into TQU; one that does not fit, or whose locked sequence broke, is dropped (R237, R259, R318). -/
def tqRecord (c : Chip) (k : Clock) (unit : Nat) (bs : List Byte) : Chip × Bool :=
  if !c.on TIME.TQUEN 1 then (c, false)
  else
    let q := c.lv TIME.TQU 1
    if c.mead.brokeTime then
      (((c.onM (fun m => { m with brokeTime := false })).qDropped k q).onTime (fun t => { t with tqLost := true }), false)
    else
      let (c, ok) := c.qRecord k q 7 unit bs (k.evc + bs.length - 1)
      (if ok then c else c.onTime (fun t => { t with tqLost := true }), ok)

/-- The received frame is a PTP message that uplink `u` takes (R309). -/
def ptpMatch (c : Chip) (u : Nat) (bs : List Byte) : Bool :=
  let vid := c.lv TIME.PTPVID 1
  let tpid := beField bs 12 13
  let off := if vid = 0 then 12 else 16
  let et := beField bs off (off + 1)
  let ip := off + 2
  let udp := fun (p : Nat) => beField bs (p + 2) (p + 3) == 319 || beField bs (p + 2) (p + 3) == 320
  RuleCtx.eth (c.lv UPL.MODE u) && (c.lv TIME.PTPU 1).testBit u &&
  (if vid = 0 then tpid != 0x88A8 else tpid == 0x88A8 && beField bs 14 15 % 4096 == vid) &&
  ((c.on TIME.PTPL2 1 && et == 0x88F7) ||
   (c.on TIME.PTPV4 1 && et == 0x0800 && byteAt bs (ip + 9) == 17 && udp (ip + byteAt bs ip % 16 * 4)) ||
   (c.on TIME.PTPV6 1 && et == 0x86DD && byteAt bs (ip + 6) == 17 && udp (ip + 40)))

/-- The time engine takes a matched frame (R309). -/
def ptpReceive (c : Chip) (k : Clock) (u : Nat) (f : EtherFrame) : Chip :=
  let n := f.bytes.length
  if !f.fcsOk || n < 64 || 1522 < n then c.addSt { TIME.PTPBAD with wrd := 8 + u } 1 1
  else
    let body := f.bytes.take (n - 4)
    let (c, ok) := c.tqRecord k (0x90 + u) (wordBytes (word (0x11000000 + body.length)) ++ wordBytes (word (k.evc - f.ago)) ++
      timeWords3 (k.time - f.ago) ++ body)
    if ok then c.addSt { TIME.PTPRX with wrd := 8 + u } 1 1 else c

/-! ### Downward items (R262, R272) -/

/-- The head item of downward queue `i`, read by its consumer: corrected words are noted, and an uncorrectable word makes
the consumer abandon the item (R272). -/
def takeHead (c : Chip) (k : Clock) (i : Nat) : Option (List QWord) × Chip :=
  match (c.q i).items with
  | [] => (none, c)
  | ws :: _ =>
    let c := if ws.any (fun w => w.err == 1) then { c with qramFixed := true } else c
    if ws.any (fun w => w.err == 2) then (none, (c.srcEvent k 241).qAbandon k i) else (some ws, c)

/-- Unit `n` stamps an edge of pin `s`: TCAP0 to TCAP3, REFIN0, REFIN1, by the polarity that EDGE chooses (Table 12.1). -/
def capPin (c : Chip) (n s : Nat) (rising : Bool) : Bool :=
  let e := c.lv TIME.CAP_EDGE (2 + n)
  (decide (s < 4) || s == 13 || s == 14) && (e == 3 || (if rising then e == 1 else e == 2))
/-- FIREMASK of unit `n` on the present edge (R301, R302): the pins' edges, and the active edges that the part has made on it. -/
def capMask (c : Chip) (n : Nat) (pins : List (Nat × Bool)) : Nat :=
  (((pins.filter (fun p => c.capPin n p.1 p.2)).map (·.1)) ++ c.tim.fired).foldl (fun m s => m ||| 2 ^ s) 0 &&&
    c.lv TIME.CAP_SRCMASK (2 + n)
/-- A capture event of unit `n` (R301, R302): one on an edge. -/
def capture (c : Chip) (k : Clock) (n : Nat) (pins : List (Nat × Bool)) : Chip :=
  let r := 2 + n
  let mask := c.capMask n pins
  if !c.on TIME.CAP_EN r || mask == 0 || c.tim.taken.contains n then c
  else
    let c := c.onTime (fun t => { t with taken := n :: t.taken })
    let coinc := decide (1 < (bitsIn 15 mask).length)
    let c := (((((c.setSt TIME.CAP_COINC r (bit coinc)).setSt TIME.CAP_FIREMASK r mask).setSt TIME.CAP_STAMP r
      k.stamp.toNat).setSt TIME.CAP_SECHI r (k.sec / 2 ^ 32)).setSt TIME.CAP_SECLO r (k.sec % 2 ^ 32)).setSt TIME.CAP_NS r k.ns
    let c := (c.addSt TIME.CAP_EVENTS r 1).addSt TIME.CAP_COINCS r (bit coinc)
    let c := c.cause k .tcap r (1 + 2 * bit coinc)
    if c.on TIME.CAP_QREC r then
      (c.tqRecord k (0x80 + n) (wordBytes (word (0x10000000 + bit coinc * 2 ^ 23 + mask)) ++ wordBytes k.stamp ++
        timeWords3 k.time)).1
    else c
/-- The present edge passes: the units that no pin has fired capture the part's own active edges (R301). -/
def leaveEdge (c : Chip) (k : Clock) : Chip :=
  let c := if c.heath.setNow = [] then c else c.onHeath (fun h => { h with setNow := [] })
  if c.tim.fired = [] ∧ c.tim.taken = [] then c
  else (overN 4 (fun n c => c.capture k n []) c).onTime (fun t => { t with fired := [], taken := [] })

end Chip

namespace State

/-- A pending step is applied on a superframe boundary (R298, R299, R307). -/
def applyStep (s : State) : State :=
  match s.chip.tim.stepReq with
  | none => s
  | some v =>
    let rem := s.chip.tim.stepRem
    let t := v + rem
    let k := s.clk.stepMs (stepM t)
    let c := s.chip.onTime (fun x => { x with stepReq := none, stepRem := stepR t })
    let c := ((c.addSt TIME.STEPS 0 1).setSt TIME.LASTSTEP 0 s.clk.stamp.toNat).setSt TIME.LASTSTEPMS 0 (unsigned 32 (stepM t))
    let c := c.cause k .time0 0 (1 + 2 * bit (rem != 0 && stepR t == 0))
    let c := overN 8 (fun o c => if s.clk.time < k.time then c.jumpOut k s.clk.time k.time o else c) c
    let c := overN 9 (fun o c => c.onOut o (fun x => { x with lastAt := none })) c
    { s with clk := k, chip := c }

end State

end Sys2Proof.Machine
end

