-- ==== Sys2Proof/Machine/Aps.lean ====
section
/-! DEFINITION. Uplink protection (R150 to R157, R163): requests, hold-off, wait-to-restore, APS bytes, the mismatch defects
and the selector, with its commands. -/

namespace Sys2Proof.Machine

/-- Code of a request by its priority (Table 6.4). -/
def prioCode : Nat → Nat
  | 1 => 15 | 2 => 14 | 3 => 13 | 4 => 11 | 5 => 9 | 6 => 9 | 7 => 7 | 8 => 7 | 9 => 5 | 10 => 2 | 11 => 1 | _ => 0
/-- Its requested signal: `true` selects protection. -/
def prioSig (p : Nat) : Bool := p == 3 || p == 4 || p == 6 || p == 7 || p == 9 || p == 11
/-- Priority of a far-end request that can decide (R156), by its code and requested signal. -/
def farOf (code : Nat) (sig : Bool) : Option Nat :=
  match code, sig with
  | 15, _ => some 1
  | 14, _ => some 2
  | 13, _ => some 3
  | 11, _ => some 4
  | 9, false => some 5
  | 9, true => some 6
  | 7, true => some 7
  | 7, false => some 8
  | 5, _ => some 9
  | _, _ => none

namespace Chip

/-- The four conditions of pair `p` before hold-off: SF-W, SF-P, SD-W, SD-P (R151). -/
def apsConds (c : Chip) (p : Nat) : List Bool :=
  let sd := c.on APS.SDEN p
  [c.st UPLSTAT.SF (2 * p) == 1, c.st UPLSTAT.SF (2 * p + 1) == 1, sd && c.st UPLSTAT.SD (2 * p) == 1,
   sd && c.st UPLSTAT.SD (2 * p + 1) == 1]
/-- A condition that has passed its hold-off. -/
def apsPassed (c : Chip) (p i : Nat) : Bool := vget (c.pair p).passed i false
/-- The highest local request (Table 6.4). -/
def localPrio (c : Chip) (p : Nat) : Nat :=
  let a := c.pair p
  if a.cmd = 1 then 1 else if c.apsPassed p 1 then 2 else if a.cmd = 2 then 3 else if c.apsPassed p 0 then 4
  else if c.apsPassed p 3 then 5 else if c.apsPassed p 2 then 6 else if a.cmd = 3 then 7 else if a.cmd = 4 then 8
  else if a.wtrEnd.isSome then 9 else if a.dnr then 11 else 12
/-- The pair acts as bidirectional: FOPPM absent (R157). -/
def apsBidir (c : Chip) (p : Nat) : Bool := c.lv APS.MODE p == 2 && c.st APS.FOPPM p == 0
/-- The accepted requested signal. -/
def farSig (c : Chip) (p : Nat) : Bool := c.st APS.RXAPS p / 2 ^ 16 % 256 == 1
/-- The far-end request that takes part in the decision (R156). -/
def farPrio (c : Chip) (p : Nat) : Option Nat :=
  if c.apsBidir p && (c.pair p).rxTaken then farOf (c.st APS.RXAPS p / 2 ^ 28) (c.farSig p) else none
/-- The far end decides: its request is higher than the local one. -/
def farWins (c : Chip) (p : Nat) : Bool :=
  match c.farPrio p with
  | some f => decide (f < c.localPrio p)
  | none => false
/-- The position that the winning request selects (R156): `true` is protection. -/
def apsWant (c : Chip) (p : Nat) : Bool := if c.farWins p then c.farSig p else prioSig (c.localPrio p)
/-- The APS bytes to send (Table 6.5). -/
def apsBytes (c : Chip) (p : Nat) : Nat :=
  let code := if c.farWins p then 2 else prioCode (c.localPrio p)
  (code * 16 + 8 + bit (c.lv APS.MODE p == 2) * 2 + c.lv APS.REVERT p) * 2 ^ 24 + bit (c.apsWant p) * 2 ^ 16 + 256

/-- Hold-offs of pair `p` brought up to the present conditions; `formed` takes every one as passed (R151, R163). -/
def apsHold (c : Chip) (k : Clock) (p : Nat) (formed : Bool) : Chip :=
  let conds := c.apsConds p
  let none_ := formed || c.lv APS.HOLDOFF p == 0
  overN 4 (fun i c => c.onP p (fun a =>
    if conds.getD i false then
      { a with
        since := vupd a.since i (fun s => if s.isSome then s else some k.pos)
        passed := vupd a.passed i (fun b => b || none_) }
    else
      { a with
        since := vupd a.since i (fun _ => none)
        passed := vupd a.passed i (fun _ => false) })) c

/-- The requested signal that the pair sends: the one sent last, or the one formed while the shade stops the serialisers (R155). -/
def sentSig (c : Chip) (p : Nat) : Nat := (if c.shaded then c.apsBytes p else c.st APS.TXAPS p) / 2 ^ 16 % 256
/-- What the winning request selects is `b` from the present edge on (R152). -/
def apsAim (c : Chip) (k : Clock) (p : Nat) (b : Bool) : Chip :=
  c.onP p (fun a => if a.want = b then a else
    { a with want := b, wantAt := k.edges, wantWas := if a.wantAt = k.edges then a.wantWas else a.want })
/-- The status words that follow pair `p`, and FOPNR's clearing (R157, R159). [DEDUCED, log 36] -/
def apsSync (c : Chip) (k : Clock) (p : Nat) : Chip :=
  let a := c.pair p
  let c := ((c.setSt APS.LREQ p (prioCode (c.localPrio p))).setSt APS.RREQ p
    (if a.rxTaken then c.st APS.RXAPS p / 2 ^ 28 else 0)).apsAim k p (c.apsWant p)
  let run := (List.range 4).any (fun i => (vget a.since i none).isSome && !vget a.passed i false)
  let c := ((c.setSt APS.WTRRUN p (bit a.wtrEnd.isSome)).setSt APS.HOLDRUN p (bit run)).setSt APS.CMDACT p (bit (a.cmd != 0))
  let differs := c.apsBidir p && a.rxTaken && c.st APS.RXAPS p / 2 ^ 16 % 256 != c.sentSig p
  let c := c.onP p (fun a => { a with differ := if differs then some (a.differ.getD k.pos) else none })
  if !differs && c.st APS.FOPNR p == 1 then (c.setSt APS.FOPNR p 0).cause k .aps p 4 else c

/-- Requests of pair `p` re-evaluated on an edge on which something in them changed (R151, R153, R154, R156). -/
def apsEval (c : Chip) (k : Clock) (p : Nat) : Chip :=
  if c.lv APS.MODE p = 0 then c
  else
    let wasW := c.apsPassed p 0 || c.apsPassed p 2
    let c := c.apsHold k p false
    let a := c.pair p
    let higher := decide (c.localPrio p < 7) || (match c.farPrio p with
      | some f => decide (f < c.localPrio p)
      | none => false)
    let c := if (a.cmd = 3 ∨ a.cmd = 4) ∧ higher = true then (c.onP p (fun a => { a with cmd := 0 })).cause k .aps p 16 else c
    let higher := decide (c.localPrio p ≤ 8) || (match c.farPrio p with
      | some f => decide (f < 9)
      | none => false)
    let clearedW := wasW && !(c.apsPassed p 0 || c.apsPassed p 2)
    let c := c.onP p (fun a =>
      if higher then { a with wtrEnd := none, dnr := a.dnr && decide (8 < c.localPrio p) }
      else if clearedW && c.st APS.ACTIVE p == 1 then
        (if c.on APS.REVERT p then { a with wtrEnd := some (k.ticks + c.lv APS.WTR p * 8) } else { a with dnr := true })
      else a)
    c.apsSync k p

/-- The selector of pair `p` moves to protection (`b`) or working: a client frame still arriving from the uplink it leaves ends under
NOPATH (R152). -/
def apsMove (c : Chip) (k : Clock) (p : Nat) (b : Bool) : Chip :=
  if c.st APS.ACTIVE p = bit b then c
  else
    let c := c.endRx k (2 * p + bit (!b)) cNopath
    ((c.setSt APS.ACTIVE p (bit b)).addSt APS.SWITCHES p 1).cause k .aps p 1
/-- Where the selector of pair `p` goes on the present boundary: what the winning request selected before this edge (R152). -/
def apsTarget (c : Chip) (k : Clock) (p : Nat) : Bool :=
  let a := c.pair p
  if a.wantAt = k.edges then a.wantWas else a.want

/-- LFDW and LFDP of pair `p` (R141, R159). -/
def apsLfd (c : Chip) (k : Clock) (p : Nat) : Chip :=
  if c.lv APS.MODE p = 0 then c
  else
    let lfd := fun u => RuleCtx.otn (c.lv UPL.MODE u) && vget c.gfp u .hunt != .sync && c.st UPLSTAT.SF u == 0
    let one := fun (c : Chip) (f : Fld) (u n : Nat) =>
      if c.st f p = bit (lfd u) then c else (c.setSt f p (bit (lfd u))).cause k .aps p (2 ^ n)
    one (one c APS.LFDW (2 * p) 6) APS.LFDP (2 * p + 1) 7

/-- APS bytes received on the protection uplink of pair `p` at a frame with MFAS[2:0] = 0 (R155, R157). -/
def apsReceive (c : Chip) (k : Clock) (p : Nat) (v : Word) : Chip :=
  if c.lv APS.MODE p = 0 ∨ c.st UPLSTAT.SF (2 * p + 1) = 1 then c.onP p (fun a => { a with rxRun := 0 })
  else
    let c := c.onP p (fun a =>
      if a.rxRun > 0 ∧ a.rxCand = v then { a with rxRun := a.rxRun + 1 } else { a with rxCand := v, rxRun := 1 })
    if (c.pair p).rxRun < 3 then c
    else
      let new := c.st APS.RXAPS p != v.toNat
      let c := (c.onP p (fun a => { a with rxTaken := true })).setSt APS.RXAPS p v.toNat
      let bad := (v.toNat ^^^ c.apsBytes p) / 2 ^ 24 &&& 0x0E != 0
      let flip := c.st APS.FOPPM p != bit bad
      ((c.setSt APS.FOPPM p (bit bad)).causeIf k .aps p (bit flip * 2 + bit new * 8)).apsEval k p

/-- Words 8 to 12 of APS row `p` at their reset values (R159). -/
def apsBlank (c : Chip) (p : Nat) : Chip :=
  ((List.range 5).foldl (fun c i => c.withStatus (c.heath.status.write (hAddr 0x13 p (8 + i)) 0#32)) c).onP p (fun a => { cmd := a.cmd })

/-- What the apply edge of a commit does to pair `p` (R154, R163): a changed EXTCMD is in force whatever MODE holds, and acts while
the pair is protected. -/
def apsApply (c : Chip) (k : Clock) (old : Bank) (p : Nat) : Chip :=
  let ne := fun (f : Fld) => old.fld f p != c.lv f p
  let c := if ne APS.EXTCMD then c.onP p (fun a => { a with cmd := c.lv APS.EXTCMD p }) else c
  if c.lv APS.MODE p = 0 then (if ne APS.MODE then c.apsBlank p else c)
  else if ne APS.MODE || ne APS.REVERT || ne APS.SDEN then
    let c := ((c.onP p (fun a => { a with wtrEnd := none, dnr := false })).apsHold k p true).apsEval k p
    let b := c.apsWant p
    ((c.onP p (fun a => { a with want := b, wantAt := k.edges, wantWas := b })).apsMove k p b).apsLfd k p
  else c.apsEval k p

end Chip

end Sys2Proof.Machine
end

