-- ==== Sys2Proof/Machine/LineCode.lean ====
section
/-! DEFINITION. The codes of the uplink lines (chapter 5 and R140): the G.7041 frame and its scrambler, the overhead places, FEC and
scrambler of the OTU2 frame, and the 64B/66B blocks, lock and fault machines and test pattern of the Ethernet modes.  The spec names
G.709, G.7041 and IEEE 802.3 for their details. -/

namespace Sys2Proof.Machine

/-! ### GFP-F (R140) -/

/-- One byte of the self-synchronous scrambler x⁴³ + 1: the byte sent and the register, the last 43 bits sent. -/
def selfByte (reg : Nat) (b : Byte) : Byte × Nat :=
  let o := b ^^^ byte (reg / 2 ^ 35)
  (o, (reg * 256 + o.toNat) % 2 ^ 43)
/-- Several bytes. -/
def selfBytes : Nat → List Byte → List Byte × Nat
  | reg, [] => ([], reg)
  | reg, b :: r => let (o, reg) := selfByte reg b; let (l, reg) := selfBytes reg r; (o :: l, reg)
/-- The core header of a frame with a PLI: XORed with 0xB6AB31E0. -/
def gfpCore (pli : Nat) : List Byte :=
  let p := beBytes 2 pli
  beBytes 4 (beVal (p ++ beBytes 2 (crcHec p)) ^^^ 0xB6AB31E0)
/-- Payload header and extension header of Table 6.1 with their HECs. -/
def gfpHead (pfi : Bool) (upi cid : Nat) : List Byte :=
  let typ : List Byte := [byte (bit pfi * 16 + 1), byte upi]
  let ext : List Byte := [byte cid, 0x00#8]
  typ ++ beBytes 2 (crcHec typ) ++ ext ++ beBytes 2 (crcHec ext)
/-- The CRC-32 of G.7041 over the payload information field: the 802.3 polynomial, nothing reflected, initial value and final
inversion of ones. [PRESUMED, log 87] -/
def pfcsOf (bs : List Byte) : List Byte := beBytes 4 (crc 32 0x04C11DB7 0xFFFFFFFF bs ^^^ 0xFFFFFFFF)
/-- The payload area of a frame: headers, client frame and, with PFI = 1, its pFCS; `spoil` complements the pFCS (R231). -/
def gfpArea (pfi : Bool) (upi cid : Nat) (client : List Byte) (spoil : Bool) : List Byte :=
  let f := pfcsOf client
  gfpHead pfi upi cid ++ client ++ (if pfi then (if spoil then f.map (fun b => ~~~ b) else f) else [])
/-- A frame as it is sent: its core header and its scrambled payload area, and the scrambler's register after it. -/
def gfpSend (reg : Nat) (area : List Byte) : List Byte × Nat :=
  let (l, reg) := selfBytes reg area
  (gfpCore area.length ++ l, reg)

/-! ### The OTU2 frame (R110, R112, R113) -/

/-- Core-clock edges that a frame of an OTN mode lasts: a fraction (Table 1.2). -/
def otnPeriod (mode : Nat) : Nat × Nat := if mode = 1 then (987500, 81) else (647168, 55)
/-- Edges from the start of the format to the start of its frame `n`. [DEDUCED, log 88] -/
def otnStart (mode n : Nat) : Nat := let (a, b) := otnPeriod mode; (n * a + b - 1) / b
/-- Frames that have begun `e` edges after the format started. -/
def otnBegun (mode e : Nat) : Nat := let (a, b) := otnPeriod mode; e * b / a + 1
/-- Bytes of OPU2 payload in a frame, and of a row. -/
def opuBytes : Nat := 15232
def opuRow : Nat := 3808
/-- BIP-8: even parity of each bit over bytes. -/
def bip8 (bs : List Byte) : Byte := bs.foldl (fun a b => a ^^^ b) 0#8
/-- Bits in which two bytes differ. -/
def differBits (a b : Byte) : Nat := ((List.range 8).filter (fun i => (a ^^^ b).getLsbD i)).length
/-- The frame alignment signal. -/
def fasBytes : List Byte := [0xF6#8, 0xF6#8, 0xF6#8, 0x28#8, 0x28#8, 0x28#8]
/-- The overhead columns 1 to 16 of rows 1 to 4 are held in one list of 64 bytes: the byte of a row and column. -/
def ohAt (oh : List Byte) (row col : Nat) : Nat := byteAt oh (16 * (row - 1) + col - 1)

/-- Multiplication in GF(2ʷ). -/
def gfMul (w poly a b : Nat) : Nat :=
  ((List.range w).foldl (fun (p : Nat × Nat) i =>
    (if b.testBit i then p.1 ^^^ p.2 else p.1, if p.2.testBit (w - 1) then (p.2 * 2) ^^^ poly else p.2 * 2)) (0, a)).1
/-- The generator polynomial with roots α⁰ to αⁿ⁻¹, highest power first without its leading 1. -/
def rsGen (w poly : Nat) : Nat → Nat → List Nat → List Nat
  | 0, _, g => g.drop 1
  | n + 1, a, g => rsGen w poly n (gfMul w poly a 2)
      (((g ++ [0]).zip (0 :: g)).map (fun (p : Nat × Nat) => p.1 ^^^ gfMul w poly a p.2))
/-- The parity symbols of a Reed-Solomon code with `n` of them. -/
def rsParity (w poly n : Nat) (syms : List Nat) : List Nat :=
  let g : List Nat := rsGen w poly n 1 [1]
  syms.foldl (fun r s =>
    let f := (r.headD 0) ^^^ s
    (((r.drop 1) ++ [0]).zip g).map (fun (p : Nat × Nat) => p.1 ^^^ gfMul w poly f p.2)) (List.replicate n 0)
/-- Every sixteenth byte of a row, from byte `i`. -/
def sixteenth (row : List Byte) (i : Nat) : List Nat :=
  (List.range ((row.length + 15 - i) / 16)).map (fun j => byteAt row (16 * j + i))
/-- The 256 FEC columns of a row of 3,824 bytes: RS(255,239), 16 byte-interleaved codewords (R113). -/
def fecColumns (row : List Byte) : List Byte :=
  let ps := (List.range 16).map (fun i => rsParity 8 0x11D 16 (sixteenth row i))
  (List.range 16).flatMap (fun j => ps.map (fun p => byte (p.getD j 0)))
/-- One bit of the frame-synchronous scrambler of G.709: x¹⁶ + x¹² + x³ + x + 1. -/
def otnScrBit (r : Nat) : Nat × Nat :=
  (bit (r.testBit 15), (r * 2 + bit (((r.testBit 15).xor (r.testBit 11)).xor ((r.testBit 2).xor (r.testBit 0)))) % 2 ^ 16)
/-- Bytes of a frame from its MFAS on, scrambled: the register is set to ones before the first of them. -/
def otnScramble : Nat → List Byte → List Byte
  | _, [] => []
  | r, b :: l =>
    let (q, r) := (List.range 8).foldl (fun p _ => let (x, r) := otnScrBit p.2; (p.1 * 2 + x, r)) (0, r)
    (b ^^^ byte q) :: otnScramble r l
/-- A row of the frame: its overhead, its payload and its FEC columns. -/
def otnRow (oh pay : List Byte) (fec : Bool) (r : Nat) : List Byte :=
  let row := (oh.drop (16 * r)).take 16 ++ fit opuRow ((pay.drop (opuRow * r)).take opuRow)
  row ++ (if fec then fecColumns row else zeros 256)
/-- A whole frame as it leaves the serialiser. -/
def otnLine (oh pay : List Byte) (fec : Bool) : List Byte :=
  let f := (List.range 4).flatMap (otnRow oh pay fec)
  f.take 6 ++ otnScramble (2 ^ 16 - 1) (f.drop 6)

/-! ### 64B/66B (R114) -/

/-- A 66-bit block: its two sync bits (1 data, 2 control) and its eight bytes before the scrambler. -/
structure Block66 where
  sync : Nat
  bytes : List Byte
  deriving DecidableEq, Repr

/-- Block type of a terminate block after `n` bytes. -/
def termType (n : Nat) : Byte := [0x87#8, 0x99#8, 0xAA#8, 0xB4#8, 0xCC#8, 0xD2#8, 0xE1#8, 0xFF#8].getD n 0x87#8
/-- An idle block; a block of two remote fault ordered sets. -/
def idleBlock : Block66 := ⟨2, 0x1E#8 :: zeros 7⟩
def remoteFaultBlock : Block66 := ⟨2, [0x55#8, 0x00#8, 0x00#8, 0x02#8, 0x00#8, 0x00#8, 0x00#8, 0x02#8]⟩
/-- Data blocks, then the terminate block. -/
def bodyBlocks : Nat → List Byte → List Block66
  | 0, _ => []
  | n + 1, bs => if bs.length < 8 then [⟨2, fit 8 (termType bs.length :: bs)⟩] else ⟨1, bs.take 8⟩ :: bodyBlocks n (bs.drop 8)
/-- The blocks of an Ethernet frame: start block with preamble and SFD, data, terminate, and one idle block after it. -/
def frameBlocks (bs : List Byte) : List Block66 :=
  ⟨2, 0x78#8 :: List.replicate 6 0x55#8 ++ [0xD5#8]⟩ :: bodyBlocks (bs.length / 8 + 1) bs ++ [idleBlock]
/-- One bit of the self-synchronous scrambler x⁵⁸ + x³⁹ + 1. -/
def pcsScrBit (reg b : Nat) : Nat × Nat :=
  let o := (b + bit (reg.testBit 38) + bit (reg.testBit 57)) % 2
  (o, (reg * 2 + o) % 2 ^ 58)
/-- The 64 payload bits of a block, each byte least significant bit first, scrambled. -/
def pcsScramble (reg : Nat) (b : Block66) : List Nat × Nat :=
  let bits := b.bytes.flatMap (fun x => (List.range 8).map (fun i => bit (x.getLsbD i)))
  bits.foldl (fun p x => let (o, r) := pcsScrBit p.2 x; (p.1 ++ [o], r)) ([], reg)
/-- 256B/257B transcoding of four blocks (clause 108): all data, or the kinds of the blocks and their bytes without the second
nibble of the first control block's type. -/
def transcode (l : List Block66) : List Nat :=
  let bits := fun (b : Block66) => b.bytes.flatMap (fun x => (List.range 8).map (fun i => bit (x.getLsbD i)))
  if l.all (fun b => b.sync == 1) then 1 :: l.flatMap bits
  else
    let data := l.takeWhile (fun b => b.sync == 1)
    let rest := l.drop data.length
    let first := (rest.head?.map bits).getD []
    0 :: l.map (fun b => bit (b.sync == 1)) ++ data.flatMap bits ++ first.take 4 ++ first.drop 8 ++ (rest.drop 1).flatMap bits
/-- The 14 parity symbols of an RS(528,514) codeword of 10-bit symbols. -/
def rs528Parity (syms : List Nat) : List Nat := rsParity 10 0x409 14 syms
/-- One bit of the PRBS31 pattern x³¹ + x²⁸ + 1: the inverted bit sent, and the register. -/
def prbs31Bit (reg : Nat) : Nat × Nat :=
  let b := bit (reg.testBit 30 != reg.testBit 27)
  (1 - b, (reg * 2 + b) % 2 ^ 31)

/-- One sync header: 64 valid ones in a row gain lock, 16 invalid ones of 64 lose it. -/
def BlockLock.step (s : BlockLock) (locked valid : Bool) : BlockLock × Bool :=
  let n := s.tested + 1
  let b := s.bad + bit (!valid)
  if locked then
    if 16 ≤ b then ({}, false) else if 64 ≤ n then ({}, true) else (⟨n, b⟩, true)
  else if valid then (if 64 ≤ n then ({}, true) else (⟨n, 0⟩, false)) else ({}, false)

/-- `n` columns without a fault sequence, then one (`some true` local, `some false` remote) or none: the fault reported after it,
where `was` is the one reported before. -/
def FaultSeq.step (s : FaultSeq) (was : Option Bool) (n : Nat) (seq : Option Bool) : FaultSeq × Option Bool :=
  let late := decide (128 ≤ s.cols + n)
  let was := if late then none else was
  match seq with
  | none => ({ s with count := if late then 0 else s.count, cols := min 128 (s.cols + n) }, was)
  | some t =>
    let k := if s.near = t ∧ late = false then s.count + 1 else 1
    (⟨t, min 4 k, 0⟩, if 4 ≤ k then some t else was)

end Sys2Proof.Machine
end

