-- ==== Sys2Proof/Machine/LineTx.lean ====
section
/-! DEFINITION. What the uplinks transmit (R110 to R113, R122, R123, R131, R132, R134, R139, R140, R143, R155): the OTU2 frame that
begins with its overhead and its OPU2 payload, the Ethernet frame, and the lasers. -/

namespace Sys2Proof.Machine

/-- FCS of an Ethernet frame as it stands on the line: CRC-32, least significant byte first. [PRESUMED, log 87] -/
def etherFcs (bs : List Byte) : List Byte := (beBytes 4 (crc32 bs)).reverse
/-- BEI or BIAE, BDI and the low three bits of the third byte of a layer's overhead (Table 5.2). -/
def layerByte (bei : Nat) (bdi : Bool) (low : Nat) : Byte := byte (bei % 16 * 16 + bit bdi * 8 + low % 8)
/-- `n` GFP-F bytes, idle frames in every gap, and the bytes left over (R140). -/
def opuFill (pay : List Byte) : List Byte × List Byte :=
  let all := pay ++ (List.replicate ((opuBytes - pay.length + 3) / 4) (gfpCore 0)).flatten
  (all.take opuBytes, all.drop opuBytes)
/-- The byte that replaces ODU and OPU bytes under TXSTAT (Table 5.5). -/
def statFill : Nat → Byte
  | 1 => 0x55#8
  | 2 => 0x00#8
  | _ => 0xFF#8
/-- An Ethernet frame with its service tag (R143): `spoil` complements the FCS (R231). -/
def tagFrame (pcp dei vid : Nat) (client : List Byte) (spoil : Bool) : List Byte :=
  let body := client.take 12 ++ [0x88#8, 0xA8#8] ++ beBytes 2 (pcp * 8192 + dei * 4096 + vid % 4096) ++
    (client.drop 12).take (client.length - 16)
  let f := etherFcs body
  body ++ (if spoil then f.map (fun b => ~~~ b) else f)
/-- Core-clock edges that an Ethernet frame of `n` bytes lasts with its terminate and idle blocks: 66 bits at the line rate. -/
def frameEdges (mode n : Nat) : Nat :=
  let blocks := n / 8 + 3
  if mode = 4 then (blocks * 64 + 24) / 25 else (blocks * 32 + 4) / 5

namespace Chip

/-- The uplink sends frames or blocks of its format: the shade stops the serialiser, and the test pattern replaces them (R132, R134). -/
def txRuns (c : Chip) (u : Nat) : Bool := c.lv UPL.MODE u != 0 && !c.shaded && !c.on UPL.PRBSG u
/-- The transmitter is lit, and no commit has switched it off (R131). -/
def txLit (c : Chip) (u : Nat) : Bool := (c.u u).laser && (c.u u).dark.isNone
/-- The uplink takes bytes for its GCC slots: those of the ODU are overwritten under TXSTAT (R122, R123). -/
def gccSends (c : Chip) (u : Nat) : Bool :=
  RuleCtx.otn (c.lv UPL.MODE u) && c.txLit u && c.txRuns u && (c.lv UPL.GCCSEL u == 0 || c.lv UPL.TXSTAT u == 0)
/-- The bytes of the chosen channel in the frame that begins: 0x7E in a slot for which there is none (R123). -/
def gccTake (c : Chip) (u : Nat) : List Byte × Chip :=
  let n := if c.lv UPL.GCCSEL u = 3 then 4 else 2
  if c.gccSends u then
    (((c.u u).gcc.rest ++ List.replicate n 0x7E#8).take n,
     c.onU u (fun x => { x with gcc := { x.gcc with rest := x.gcc.rest.drop n, first := false } }))
  else (List.replicate n 0x7E#8, c)
/-- TTI byte of a frame: TXTTI, and 0x00 from byte 32 on. -/
def ttiByte (c : Chip) (u m : Nat) : Byte :=
  if m % 64 < 32 then (wordBytes (word (c.lv (UPL.TXTTI.at (m % 64 / 4)) u))).getD (m % 4) 0#8 else 0x00#8
/-- APS/PCC bytes of a frame: those of the pair at the ODU path level, else 0x00 (R155). -/
def apsSlot (c : Chip) (u m : Nat) : List Byte :=
  if m % 8 = 0 ∧ c.lv APS.MODE (u / 2) ≠ 0 then beBytes 4 (c.apsBytes (u / 2)) else zeros 4

/-- The overhead of the frame with MFAS `m`, columns 1 to 16 of rows 1 to 4, with `g` in the GCC channel chosen (Table 5.2, Table 5.5). -/
def overheadOut (c : Chip) (u m : Nat) (g : List Byte) : List Byte :=
  let x := c.u u
  let idle : List Byte := [0x7E#8, 0x7E#8]
  let sel := c.lv UPL.GCCSEL u
  let tti := c.ttiByte u m
  let bip := x.bips.getD 1 0#8
  let pmByte := layerByte x.txPmBei (x.txBdi.testBit 1) x.txStat
  let tcm := if c.lv UPL.TCM1MODE u = 2 then [tti, bip, layerByte x.txTcmBei (x.txBdi.testBit 2) 1] else zeros 3
  let row1 := fasBytes ++ [byte m, tti, bip, layerByte x.txBei (x.txBdi.testBit 0) 0] ++ (if sel = 0 then g else idle)
  if c.lv UPL.TXSTAT u = 0 then
    row1 ++ zeros 4 ++ zeros 16 ++ (zeros 6 ++ tcm ++ [tti, bip, pmByte] ++ zeros 4) ++
      ((if sel = 1 then g ++ idle else if sel = 2 then idle ++ g else if sel = 3 then g else idle ++ idle) ++ c.apsSlot u m ++
        zeros 6 ++ [if m = 0 then 0x05#8 else 0x00#8, 0x00#8])
  else
    let f := statFill (c.lv UPL.TXSTAT u)
    let r := fun (n : Nat) => List.replicate n f
    row1 ++ zeros 2 ++ r 2 ++ r 16 ++ (r 11 ++ [byte (f.toNat / 8 * 8 + x.txStat)] ++ r 4) ++ r 16
/-- OPU2 parity of a frame: its payload, and columns 15 and 16 of its overhead. -/
def opuParity (oh pay : List Byte) : Byte :=
  bip8 pay ^^^ bip8 ([14, 15, 30, 31, 46, 47, 62, 63].map (fun i => oh.getD i 0#8))

/-- The next OTU2 frame of uplink `u` begins (R112, R113, R123, R140, R155). [DEDUCED, log 88] -/
def txFrame (c : Chip) (k : Clock) (u : Nat) : Chip :=
  if !c.txRuns u then c.onU u (fun x => { x with txNext := x.txNext + 1, oh := [], opu := [] })
  else
    let m := (c.u u).txMfas
    let (g, c) := c.gccTake u
    let oh := c.overheadOut u m g
    let (pay, rest) := opuFill (c.u u).pay
    let pay := if c.lv UPL.TXSTAT u = 0 then pay else List.replicate opuBytes (statFill (c.lv UPL.TXSTAT u))
    let c := c.onU u (fun x => { x with
      txNext := x.txNext + 1
      txMfas := (m + 1) % 256
      oh := oh
      opu := pay
      pay := rest
      bips := opuParity oh pay :: x.bips.take 1 })
    if m % 8 = 0 ∧ c.lv APS.MODE (u / 2) ≠ 0 ∧ c.lv UPL.TXSTAT u = 0 then
      (c.setSt APS.TXAPS (u / 2) (c.apsBytes (u / 2))).apsSync k (u / 2)
    else c
/-- Frames that uplink `u` has to begin up to the present edge. -/
def framesDue (c : Chip) (k : Clock) (u : Nat) : Nat :=
  if RuleCtx.otn (c.lv UPL.MODE u) then otnBegun (c.lv UPL.MODE u) (k.edges - (c.u u).txFrom) - (c.u u).txNext else 0
/-- Frames begin, one after the other. -/
def txFrames (c : Chip) (k : Clock) (u : Nat) : Nat → Chip
  | 0 => c
  | n + 1 => (c.txFrame k u).txFrames k u n
/-- A laser that a commit has switched off goes off once the frame in progress is over (R131). -/
def dimLaser (c : Chip) (k : Clock) (u : Nat) : Chip :=
  match (c.u u).dark with
  | some e => if e ≤ k.edges then c.onU u (fun x => { x with laser := false, dark := none }) else c
  | none => c
/-- The transmitters up to the present edge. -/
def linesPass (c : Chip) (k : Clock) : Chip := overN 4 (fun u c => (c.txFrames k u (c.framesDue k u)).dimLaser k u) c

/-- The edge on which the frame in progress is over, in a mode (R131). -/
def frameEnd (c : Chip) (k : Clock) (u mode : Nat) : Nat :=
  let x := c.u u
  let e := k.edges - x.txFrom
  if RuleCtx.otn mode then
    (let n := otnBegun mode e; if otnStart mode (n - 1) = e then k.edges else x.txFrom + otnStart mode n)
  else max k.edges x.busy
/-- The laser of uplink `u` after a commit: lit under R111, and one switched off stays lit to the end of the frame in progress (R131). -/
def laserApply (c : Chip) (k : Clock) (old : Bank) (u : Nat) : Chip :=
  if c.laserOn u then c.onU u (fun x => { x with laser := true, dark := none })
  else if c.txLit u then (c.onU u (fun x => { x with dark := some (c.frameEnd k u (old.fld UPL.MODE u)) })).dimLaser k u
  else c

/-- Bytes of a GFP-F frame, or of an Ethernet frame, go to the line of uplink `u`, and with LOOPNE to its own receiver (R134, R140). -/
def lineSend (c : Chip) (k : Clock) (u : Nat) (bs : List Byte) : Chip :=
  if !c.txRuns u then c
  else
    let c := if c.on UPL.LOOPNE u then c.onU u (fun x => { x with loop := x.loop ++ [bs] }) else c
    if RuleCtx.otn (c.lv UPL.MODE u) then
      let (out, reg) := gfpSend (c.u u).scr bs
      c.onU u (fun x => { x with pay := x.pay ++ out, scr := reg })
    else c.onU u (fun x => { x with opu := bs, busy := max k.edges x.busy + frameEdges (c.lv UPL.MODE u) bs.length })
/-- The frame of an upstream item on uplink `u`: GFP-F in an OTN mode (Table 6.1), tagged in an Ethernet mode (R143). -/
def itemFrame (c : Chip) (u : Nat) (it : Item) : List Byte :=
  let t := it.trib
  if RuleCtx.otn (c.lv UPL.MODE u) then gfpArea (c.on TRIB.PFCS t) (c.lv TRIB.UPI t) (it.key % 256) it.data it.bad
  else tagFrame (c.lv TRIB.PCP t) (c.lv TRIB.DEI t) it.key it.data it.bad

/-- The uplink, the control word and the frame of the head item of PTPQD, where the part may begin it (R260, R310). -/
def ptpHead (c : Chip) (k : Clock) : Option (Nat × Nat × List Byte) :=
  let i := 8 + c.lv TIME.PTPQD 1
  if !c.on TIME.PTPDEN 1 || c.shaded || !c.qEn i || !(c.q i).ready k then none
  else
    let ws := (c.q i).items.head?.getD []
    let ctl := (ws.headD ⟨0#32, true, 0, 0⟩).data.toNat
    some (ctl / 2 ^ 28 % 4, ctl, itemBytes (ws.drop 1))
/-- The item is discarded at its control word (R310). -/
def ptpBad (c : Chip) (u n : Nat) : Bool := !(c.lv TIME.PTPU 1).testBit u || decide (n < 60) || decide (1518 < n)
/-- A PTP frame waits for the next gap of uplink `u`, ahead of the scheduler (R310). -/
def ptpWaits (c : Chip) (k : Clock) (u : Nat) : Bool :=
  match c.ptpHead k with
  | some (v, _, bs) => v == u && !c.ptpBad u bs.length && c.sendsClient u
  | none => false
/-- PTP transmission of the head item of PTPQD: the frame with its FCS, on the named uplink alone (R310). [DEDUCED, log 72] -/
def ptpTransmit (c : Chip) (k : Clock) : Chip :=
  match c.ptpHead k with
  | none => c
  | some (u, ctl, bs) =>
    let i := 8 + c.lv TIME.PTPQD 1
    match c.takeHead k i with
    | (none, c) => c
    | (some _, c) =>
      if c.ptpBad u bs.length then (c.qFinish k i).addSt { TIME.PTPTXBAD with wrd := 12 + u } 1 1
      else if !c.sendsClient u then c
      else
        let c := ((c.qFinish k i).addSt { TIME.PTPTX with wrd := 12 + u } 1 1).lineSend k u (bs ++ etherFcs bs)
        if ctl.testBit 31 then
          (c.tqRecord k (0xA0 + u) (wordBytes (word (0x12000000 + ctl % 2 ^ 16)) ++ wordBytes k.stamp ++ timeWords3 k.time)).1
        else c

/-- The OTU2 frame that uplink `u` sends now, as it leaves the serialiser; none where none is sent (R112, R113). -/
def otnOut (c : Chip) (u : Nat) : Option (List Byte) :=
  if c.txRuns u && RuleCtx.otn (c.lv UPL.MODE u) && (c.u u).oh != [] then
    some (otnLine (c.u u).oh (c.u u).opu (c.on UPL.FECTX u))
  else none
/-- The 66-bit blocks that uplink `u` sends now, before scrambler and RS-FEC (R114, R122). -/
def pcsOut (c : Chip) (k : Clock) (u : Nat) : Option (List Block66) :=
  if c.txRuns u && RuleCtx.eth (c.lv UPL.MODE u) then
    some (if (c.u u).txFault = 1 then [remoteFaultBlock] else if (c.u u).txFault = 2 then [idleBlock]
      else if k.edges < (c.u u).busy then frameBlocks (c.u u).opu else [idleBlock])
  else none
/-- The uplink sends PRBS31 (R134). -/
def sendsPattern (c : Chip) (u : Nat) : Bool := c.lv UPL.MODE u != 0 && !c.shaded && c.on UPL.PRBSG u

end Chip

end Sys2Proof.Machine
end

