-- ==== Sys2Proof/Machine/Uplink.lean ====
section
/-! DEFINITION. Uplink framing and defects (chapter 5): integration, received OTU2 frames, block-level events, SF and SD,
the consequent actions, and what a commit does to an uplink. -/

namespace Sys2Proof.Machine

/-! Defect bits of UPLSTAT.DEF (R126). -/
def dLOS : Nat := 0
def dLOL : Nat := 1
def dOOF : Nat := 2
def dLOF : Nat := 3
def dOOM : Nat := 4
def dLOM : Nat := 5
def dSMTIM : Nat := 6
def dSMBDI : Nat := 7
def dSMDEG : Nat := 8
def dSMIAE : Nat := 9
def dSMBIAE : Nat := 10
def dPMAIS : Nat := 11
def dPMOCI : Nat := 12
def dPMLCK : Nat := 13
def dPMTIM : Nat := 14
def dPMBDI : Nat := 15
def dPMDEG : Nat := 16
def dPLM : Nat := 17
def dTCMLTC : Nat := 18
def dTCMBDI : Nat := 19
def dTCMDEG : Nat := 20
def dNOBLK : Nat := 21
def dHIBER : Nat := 22
def dLFRX : Nat := 23
def dRFRX : Nat := 24
def dFECNOAL : Nat := 25
def dEDEG : Nat := 26

/-- A set with several bits cleared. -/
def clearBits (s : Nat) (l : List Nat) : Nat := l.foldl (fun s n => setBit s n false) s
/-- A set with several bits set. -/
def setBits (s : Nat) (l : List Nat) : Nat := l.foldl (fun s n => setBit s n true) s
/-- A set kept at the listed bits. -/
def keepBits (s : Nat) (l : List Nat) : Nat := l.foldl (fun a n => if has s n then a ||| 2 ^ n else a) 0
/-- Some listed bit is set. -/
def anyBit (s : Nat) (l : List Nat) : Bool := l.any (has s)

/-- The defects of a layer stat: AIS, OCI or LCK. -/
def statBits : List Nat := [dPMAIS, dPMOCI, dPMLCK]

/-- A received OTU2 frame as the framer reads it (R112, R116, R118, R127): whether FAS is right, its overhead fields, the BIP-8
violations of each layer, the parity over its OPU2, the bytes of the GCC channel chosen, and the FEC counts. -/
structure OtnRx where
  fasOk : Bool
  mfas : Byte
  smTti : Byte
  pmTti : Byte
  smBip : Nat
  pmBip : Nat
  tcmBip : Nat
  smBei : Nat
  pmBei : Nat
  tcmBei : Nat
  smBdi : Bool
  pmBdi : Bool
  tcmBdi : Bool
  iae : Bool
  pmStat : Nat
  tcmStat : Nat
  pt : Byte
  aps : Word
  gcc : List Byte
  opu : Byte
  fecCor : Nat
  fecCw : Nat
  fecUnc : Nat
  deriving DecidableEq, Repr

namespace Chip

/-- The line defects that hold everything else: LOS, LOL, or PRBS31 checked in place of framing (R120, R134). -/
def lineDown (c : Chip) (u raw : Nat) : Bool := anyBit raw [dLOS, dLOL] || c.on UPL.PRBSC u

/-- The integrators of masked defects held at their starting state (R120, R134): OOF, LOF, OOM and LOM start present. -/
def holdDefs (c : Chip) (u raw : Nat) : Nat :=
  let m := c.lv UPL.MODE u
  let raw := if c.on UPL.LOOPNE u then setBit raw dLOS false else raw
  let raw := if has raw dLOS then setBit raw dLOL false else raw
  let base := c.lineDown u raw
  let raw := if base && RuleCtx.otn m then setBits raw [dOOF, dLOF, dOOM, dLOM] else raw
  let raw := if base || anyBit raw [dLOF, dLOM] then clearBits raw [dSMBDI, dSMIAE, dSMBIAE, dPMBDI, dTCMBDI] else raw
  let raw := if anyBit raw statBits then clearBits raw [dPMBDI, dTCMBDI] else raw
  let raw := if c.lv UPL.TCM1MODE u = 0 then clearBits raw [dTCMLTC, dTCMBDI, dTCMDEG] else raw
  let raw := if m = 4 ∧ c.on UPL.FECRX u = true then raw else setBit raw dFECNOAL false
  if base || has raw dNOBLK then clearBits raw [dHIBER, dLFRX, dRFRX, dFECNOAL] else raw

/-- DEF as it reads: the masking order of R120. [DEDUCED, log 34] -/
def maskDefs (c : Chip) (u raw : Nat) : Nat :=
  let m := c.lv UPL.MODE u
  if m = 0 then 0
  else if has raw dLOS then 2 ^ dLOS
  else if has raw dLOL then 2 ^ dLOL
  else if c.on UPL.PRBSC u then 0
  else if RuleCtx.eth m then
    if has raw dNOBLK then 2 ^ dNOBLK else keepBits raw [dHIBER, dLFRX, dRFRX, dFECNOAL, dEDEG]
  else if has raw dLOF then keepBits raw [dOOF, dLOF]
  else if has raw dLOM then keepBits raw [dOOF, dOOM, dLOM]
  else
    let raw := clearBits raw [dNOBLK, dHIBER, dLFRX, dRFRX, dFECNOAL, dEDEG]
    if anyBit raw statBits then clearBits raw [dPMTIM, dPMBDI, dPMDEG, dPLM, dTCMLTC, dTCMBDI, dTCMDEG] else raw

/-- SF (R121, R134). -/
def sfOf (c : Chip) (u d : Nat) : Bool :=
  let m := c.lv UPL.MODE u
  if m = 0 then false
  else if c.on UPL.PRBSC u then true
  else if RuleCtx.eth m then anyBit d [dLOS, dLOL, dNOBLK, dHIBER, dLFRX, dFECNOAL]
  else anyBit d [dLOS, dLOL, dLOF, dLOM, dPMAIS, dPMOCI, dPMLCK, dPLM] ||
    (c.on UPL.TIMACT u && anyBit d [dSMTIM, dPMTIM]) || (c.lv UPL.TCM1MODE u == 2 && has d dTCMLTC)
/-- SD (R121). -/
def sdOf (c : Chip) (u d : Nat) : Bool :=
  !c.sfOf u d && (if RuleCtx.eth (c.lv UPL.MODE u) then has d dEDEG else anyBit d [dSMDEG, dPMDEG, dTCMDEG])

/-- The consequent actions of the present defects in the transmitted signal (R122). -/
def consequent (c : Chip) (u d : Nat) : Chip :=
  let m := c.lv UPL.MODE u
  let act := c.on UPL.TIMACT u
  let f := c.on UPL.FBDI u
  let sm := f || anyBit d [dLOS, dLOL, dLOF, dLOM] || (act && has d dSMTIM)
  let pm := sm || anyBit d (dPLM :: statBits) || (act && has d dPMTIM)
  let op := c.lv UPL.TCM1MODE u == 2
  let tcm := op && (pm || has d dTCMLTC)
  c.onU u (fun x => { x with
    txBdi := if RuleCtx.otn m then bit sm + 2 * bit pm + 4 * bit tcm else 0
    txBei := if has d dSMIAE then 11 else x.lastBip
    txPmBei := x.lastPm
    txTcmBei := if op then x.lastTcm else 0
    txStat := match c.lv UPL.TXSTAT u with
      | 1 => 5
      | 2 => 6
      | 3 => 7
      | _ => 1
    txFault := if !RuleCtx.eth m then 0
      else if c.on UPL.FRF u || anyBit d [dLOS, dLOL, dNOBLK, dHIBER, dLFRX] then 1 else if has d dRFRX then 2 else 0 })

/-- The open GCC item of uplink `u` is rewound (R123). [DEDUCED, log 86] -/
def gccRewind (c : Chip) (k : Clock) (u q : Nat) : Chip :=
  (c.qRewind k q 3 u).onU u (fun x => { x with gccOpen := false, gccLost := false })

/-- The unmasked defects of uplink `u` become `raw` on this edge (R118, R120 to R122, R126, R129, R133): DEF, SF, SD, CAUSE
with the further bits `extra`, the fault sources, protection, the recovered reference, GFP and GCC follow. [DEDUCED, log 86] -/
def setDefs (c : Chip) (k : Clock) (u raw extra : Nat) : Chip :=
  let raw := c.holdDefs u raw
  let d := c.maskDefs u raw
  let sf := c.sfOf u d
  let sd := c.sdOf u d
  let was := c.st UPLSTAT.DEF u
  let wasSf := c.st UPLSTAT.SF u == 1
  let wasSd := c.st UPLSTAT.SD u == 1
  let c := (((c.onU u (fun x => { x with defs := raw })).setSt UPLSTAT.DEF u d).setSt UPLSTAT.SF u (bit sf)).setSt UPLSTAT.SD u (bit sd)
  let rise := changed was d &&& d
  let c := if anyBit rise [dOOF, dNOBLK] then c.addSt UPLSTAT.OOFEVT u 1 else c
  let c := c.causeIf k .upl u (changed was d + bit (wasSd != sd) * 2 ^ 29 + bit (wasSf != sf) * 2 ^ 30 + extra)
  let c := c.consequent u d
  let src := fun (c : Chip) (n : Nat) (b : Bool) => c.setCond k (16 * u + n) b
  let c := src (src (src (src c 0 (has d dLOS)) 1 (has d dLOL)) 2 (has d dLOF)) 3 (has d dLOM)
  let c := src (src (src (src c 4 (anyBit d [dSMTIM, dPMTIM])) 5 (has d dPMAIS)) 6 (has d dPMOCI)) 7 (has d dPMLCK)
  let c := src (src (src (src c 8 (has d dPLM)) 9 (has d dNOBLK)) 10 (has d dHIBER)) 11 (has d dFECNOAL)
  let c := src (src c 12 sf) 13 sd
  let c := if anyBit d lineLost then c.setRefDef k u 4 true else c
  let c := if sf then { c with gfp := vupd c.gfp u (fun _ => .hunt) } else c
  let c := if sf && !wasSf then (c.gccRewind k u (c.lv UPL.GCCQU u)).endRx k u cNopath else c
  let c := if wasSf != sf then c.apsLfd k (u / 2) else c
  if wasSf != sf || wasSd != sd then c.apsEval k (u / 2) else c

/-! ### Trail trace and accepted values (R116, R117) -/

/-- Accepted TTI bytes `lo` to `hi` of a layer whose reporting field is `f`. -/
def heldTti (c : Chip) (f : Fld) (u : Nat) : List Byte :=
  (List.range 16).flatMap (fun i => wordBytes (word (c.st (f.at i) u)))
/-- The 32 expected bytes. -/
def wantTti (c : Chip) (f : Fld) (u : Nat) : List Byte :=
  (List.range 8).flatMap (fun i => wordBytes (word (c.lv (f.at i) u)))
/-- TIM of a layer on the TTI held (R117). -/
def timOf (c : Chip) (u : Nat) (mode rx want : Fld) : Bool :=
  let m := c.lv mode u
  let a := c.heldTti rx u
  let b := c.wantTti want u
  (m.testBit 0 && a.take 16 != b.take 16) || (m.testBit 1 && (a.drop 16).take 16 != (b.drop 16).take 16)

end Chip

/-- One more byte of a trail at a frame with MFAS value `m`; the flag tells that a cycle has been accepted.  A cycle that does not
bring its 64 bytes in turn ends the run of consecutive ones (R116). [DEDUCED, log 33] -/
def Trail.step (t : Trail) (m : Nat) (b : Byte) : Trail × Bool :=
  let i := m % 64
  if i ≠ 0 ∧ t.cur.length ≠ i then ({ t with cur := [], run := 0 }, false)
  else
    let cur := if i = 0 then [b] else t.cur ++ [b]
    if i = 63 then
      let run := if t.run > 0 ∧ t.cand = cur then t.run + 1 else 1
      ({ t with
         cur := []
         cand := cur
         run := run
         taken := t.taken || decide (3 ≤ run) }, decide (3 ≤ run))
    else ({ t with cur := cur, run := if i = 0 ∧ t.cur ≠ [] then 0 else t.run }, false)

namespace Chip

/-- An accepted TTI is written where it differs from the one held (R116, R126); the flag tells of a change. -/
def takeTti (c : Chip) (u : Nat) (rx : Fld) (bs : List Byte) : Chip × Bool :=
  if c.heldTti rx u = bs then (c, false)
  else (overN 16 (fun i c => c.setSt (rx.at i) u (beVal ((bs.drop (4 * i)).take 4))) c, true)

/-- The defects that the accepted values held give (Table 5.4); a value never accepted gives none. -/
def heldDefs (c : Chip) (u : Nat) : Nat :=
  let x := c.u u
  let st := c.st UPLSTAT.ACCPM u
  let on := fun (n : Nat) (b : Bool) (raw : Nat) => setBit raw n b
  on dPLM (x.pt.taken && c.st UPLSTAT.ACCPT u != 5) (on dTCMLTC (x.tcmStat.taken && c.st UPLSTAT.ACCTCM u == 0)
    (on dPMAIS (x.pmStat.taken && st == 7) (on dPMOCI (x.pmStat.taken && st == 6) (on dPMLCK (x.pmStat.taken && st == 5) 0))))

/-- The values that a frame offers are counted and accepted (R116): TTIs, PT and STAT.  Answers the chip, the unmasked
defects and the further CAUSE bits. [DEDUCED, log 84] -/
def acceptFrame (c : Chip) (u raw : Nat) (f : OtnRx) : Chip × Nat × Nat :=
  let m := f.mfas.toNat
  if anyBit raw [dOOF, dOOM] then
    (c.onU u (fun x => { x with
      smTti := { x.smTti with cur := [], run := 0 }
      pmTti := { x.pmTti with cur := [], run := 0 }
      pt := { x.pt with run := 0 }
      pmStat := { x.pmStat with run := 0 }
      tcmStat := { x.tcmStat with run := 0 } }), raw, 0)
  else
    let x := c.u u
    let (sm, smOk) := x.smTti.step m f.smTti
    let (pm, pmOk) := x.pmTti.step m f.pmTti
    let pt := if m = 0 then x.pt.step f.pt.toNat else x.pt
    let st := x.pmStat.step f.pmStat
    let ts := if c.lv UPL.TCM1MODE u = 0 then { x.tcmStat with run := 0 } else x.tcmStat.step f.tcmStat
    let c := c.onU u (fun x => { x with
      smTti := sm
      pmTti := pm
      pt := pt
      pmStat := st
      tcmStat := ts })
    let (c, smNew) := if smOk then c.takeTti u UPLSTAT.RXSM sm.cand else (c, false)
    let (c, pmNew) := if pmOk then c.takeTti u UPLSTAT.RXPM pm.cand else (c, false)
    let raw := if smOk then setBit raw dSMTIM (c.timOf u UPL.SMTIM UPLSTAT.RXSM UPL.EXPSM) else raw
    let raw := if pmOk then setBit raw dPMTIM (c.timOf u UPL.PMTIM UPLSTAT.RXPM UPL.EXPPM) else raw
    let (c, raw) := if m = 0 ∧ 3 ≤ pt.run then (c.setSt UPLSTAT.ACCPT u pt.val, setBit raw dPLM (pt.val != 5)) else (c, raw)
    let (c, raw) := if 3 ≤ st.run then
        (c.setSt UPLSTAT.ACCPM u st.val,
         setBit (setBit (setBit raw dPMAIS (st.val == 7)) dPMOCI (st.val == 6)) dPMLCK (st.val == 5))
      else (c, raw)
    let (c, raw) := if 3 ≤ ts.run then
        (c.setSt UPLSTAT.ACCTCM u ts.val, setBit raw dTCMLTC (ts.val == 0))
      else (c, raw)
    (c, raw, bit (smNew || pmNew) * 2 ^ 27)

/-! ### General communication channels (R123, R136) -/

/-- One received GCC byte: appended where the queue has room for it, else dropped and counted. -/
def gccByte (c : Chip) (k : Clock) (u q : Nat) (b : Byte) : Chip :=
  let all := (match (c.q q).openOf 3 u with
    | some o => o.bytes.length
    | none => 0) + 1
  if !c.qEn q || (c.q q).skipping 3 u then c
  else if c.qCap q < ((c.q q).close 3 u).held + itemWords all then
    (c.addSt UPLSTAT.GCCDROP u 1).onU u (fun x => { x with gccLost := true, gccDropNow := true })
  else c.qPush k q 3 u [b]

/-- The GCC bytes of one frame (R123): one item for each multiframe; one that lost bytes is dropped at its end, and one that a flush has
rewound is counted no more (R136, R258). -/
def gccFrame (c : Chip) (k : Clock) (u : Nat) (f : OtnRx) : Chip :=
  if !c.on UPL.GCCUPEN u || c.st UPLSTAT.SF u == 1 then c
  else
    let q := c.lv UPL.GCCQU u
    let c := if f.mfas = 0x00#8 then
        (c.qBegin k q 3 u).onU u (fun x => { x with gccOpen := true, gccLost := false })
      else c
    if !(c.u u).gccOpen then c
    else
      let c := f.gcc.foldl (fun c b => c.gccByte k u q b) c
      if f.mfas = 0xFF#8 then
        let c := if (c.q q).skipping 3 u then c.onQ q (fun x => x.setSkip 3 u false)
          else if (c.u u).gccLost then (c.onQ q (fun x => x.close 3 u)).qDropped k q else c.qEnd q 3 u k.evc
        c.onU u (fun x => { x with gccOpen := false, gccLost := false })
      else c

/-! ### Received OTU2 frames (R112, R118) -/

/-- Violations of a layer's BIP-8: it was computed over the OPU2 of the frame before the last (Table 5.2). -/
def bipViolations (c : Chip) (u : Nat) (b : Byte) : Nat :=
  match (c.u u).rxBips with
  | _ :: p :: _ => differBits b p
  | _ => 0
/-- The overhead of a received frame: as the FEC leaves it with FECRX, else as the line brings it (R112, R113). -/
def readOtn (c : Chip) (u : Nat) (f : OtnFrame) : OtnRx :=
  let o := if c.on UPL.FECRX u then f.fixed else f.line
  let at_ := fun (r col : Nat) => o.bytes.getD (16 * (r - 1) + col - 1) 0#8
  let n := fun (r col : Nat) => (at_ r col).toNat
  let sel := c.lv UPL.GCCSEL u
  { fasOk := [at_ 1 2, at_ 1 3, at_ 1 4, at_ 1 5] == [0xF6#8, 0xF6#8, 0x28#8, 0x28#8]
    mfas := at_ 1 7
    smTti := at_ 1 8
    pmTti := at_ 3 10
    smBip := c.bipViolations u (at_ 1 9)
    pmBip := c.bipViolations u (at_ 3 11)
    tcmBip := c.bipViolations u (at_ 3 8)
    smBei := n 1 10 / 16
    pmBei := n 3 12 / 16
    tcmBei := n 3 9 / 16
    smBdi := (n 1 10).testBit 3
    pmBdi := (n 3 12).testBit 3
    tcmBdi := (n 3 9).testBit 3
    iae := (n 1 10).testBit 2
    pmStat := n 3 12 % 8
    tcmStat := n 3 9 % 8
    pt := at_ 4 15
    aps := word (beVal [at_ 4 5, at_ 4 6, at_ 4 7, at_ 4 8])
    gcc := if sel = 0 then [at_ 1 11, at_ 1 12] else if sel = 1 then [at_ 4 1, at_ 4 2] else if sel = 2 then [at_ 4 3, at_ 4 4]
      else [at_ 4 1, at_ 4 2, at_ 4 3, at_ 4 4]
    opu := o.opu
    fecCor := f.fecCor
    fecCw := f.fecCw
    fecUnc := f.fecUnc }
/-- In loopback nothing comes back while nothing is sent (R134). -/
def loopDead (c : Chip) (u : Nat) : Bool := c.on UPL.LOOPNE u && !c.txRuns u
/-- In loopback the framer receives the frame that the part sends, whatever the fibre brings (R134). -/
def loopFrame (c : Chip) (u : Nat) (f : OtnFrame) : OtnFrame :=
  if c.on UPL.LOOPNE u then
    let o : OtnOh := ⟨(c.u u).oh, opuParity (c.u u).oh (c.u u).opu⟩
    { f with line := o, fixed := o }
  else f

/-- The frame alignment and multiframe alignment of a frame: new unmasked OOF and OOM. -/
def alignFrame (c : Chip) (u raw : Nat) (f : OtnRx) : Chip × Nat :=
  let x := c.u u
  let fas := x.fas.step (!f.fasOk)
  let oof := fas.judge 5 2 (has raw dOOF)
  let mf := x.mfas.step (decide (f.mfas.toNat ≠ x.expMfas))
  let oom := mf.judge 5 2 (has raw dOOM)
  (c.onU u (fun x => { x with
     fas := fas
     mfas := mf
     expMfas := ((if has raw dOOM || oom then f.mfas.toNat else x.expMfas) + 1) % 256
     rxBips := f.opu :: x.rxBips.take 1
     chk := true
     oofAll := x.oofAll && oof
     oofNone := x.oofNone && !oof
     oomAll := x.oomAll && oom
     oomNone := x.oomNone && !oom }), setBit (setBit raw dOOF oof) dOOM oom)

/-- BDI, IAE and BIAE of a frame while the overhead is not masked (Table 5.4). -/
def overheadFrame (c : Chip) (u raw : Nat) (f : OtnRx) : Chip × Nat :=
  let stat := anyBit raw statBits
  let x := c.u u
  let noTcm := stat || c.lv UPL.TCM1MODE u == 0
  let sb := x.smBdi.step f.smBdi
  let ia := x.iae.step f.iae
  let bi := x.biae.step (f.smBei == 11)
  let pb := if stat then {} else x.pmBdi.step f.pmBdi
  let tb := if noTcm then {} else x.tcmBdi.step f.tcmBdi
  let raw := setBit (setBit (setBit raw dSMBDI (sb.judge 5 5 (has raw dSMBDI))) dSMIAE (ia.judge 5 5 (has raw dSMIAE)))
    dSMBIAE (bi.judge 3 3 (has raw dSMBIAE))
  let raw := setBit (setBit raw dPMBDI (pb.judge 5 5 (has raw dPMBDI))) dTCMBDI (tb.judge 5 5 (has raw dTCMBDI))
  (c.onU u (fun x => { x with
     smBdi := sb
     iae := ia
     biae := bi
     pmBdi := pb
     tcmBdi := tb }), raw)

/-- The frame integrators of masked overhead held at their starting state (R120). -/
def overheadHeld (c : Chip) (u : Nat) : Chip :=
  c.onU u (fun x => { x with smBdi := {}, iae := {}, biae := {}, pmBdi := {}, tcmBdi := {} })

/-- BIP-8 violations and BEI of one layer (R119, R127). -/
def countLayer (c : Chip) (u : Nat) (bipF beiF : Fld) (bip bei : Nat) : Chip :=
  (c.addSt bipF u bip).addSt beiF u (if 1 ≤ bei ∧ bei ≤ 8 then bei else 0)

/-- The error counters of a frame (R127): each layer counts while it is not masked. -/
def countFrame (c : Chip) (u raw : Nat) (f : OtnRx) : Chip :=
  let c := ((c.addSt UPLSTAT.FECCOR u f.fecCor).addSt UPLSTAT.FECCW u f.fecCw).addSt UPLSTAT.FECUNC u f.fecUnc
  if anyBit raw [dLOF, dLOM] then c
  else
    let stat := anyBit raw statBits
    let tcm := c.lv UPL.TCM1MODE u != 0 && !stat
    let c := c.countLayer u UPLSTAT.SMBIP UPLSTAT.SMBEI f.smBip f.smBei
    let c := if stat then c else c.countLayer u UPLSTAT.PMBIP UPLSTAT.PMBEI f.pmBip f.pmBei
    let c := if tcm then c.countLayer u UPLSTAT.TCMBIP UPLSTAT.TCMBEI f.tcmBip f.tcmBei else c
    c.onU u (fun x => { x with
      lastBip := f.smBip
      lastPm := f.pmBip
      lastTcm := f.tcmBip
      smDeg := { x.smDeg with count := x.smDeg.count + bit (f.smBip != 0) }
      pmDeg := { x.pmDeg with count := x.pmDeg.count + bit (!stat && f.pmBip != 0) }
      tcmDeg := { x.tcmDeg with count := x.tcmDeg.count + bit (tcm && f.tcmBip != 0) } })

/-- One received OTU2 frame on uplink `u` (R112, R113, R116, R118, R123, R127, R155). -/
def otnFrame (c : Chip) (k : Clock) (u : Nat) (f : OtnFrame) : Chip :=
  let raw := (c.u u).defs
  if !RuleCtx.otn (c.lv UPL.MODE u) || c.lineDown u raw || c.loopDead u then c
  else
    let f := c.readOtn u (c.loopFrame u f)
    let (c, raw) := c.alignFrame u raw f
    let (c, raw, extra) := c.acceptFrame u raw f
    let (c, raw) := if anyBit raw [dLOF, dLOM] then (c.overheadHeld u, raw) else c.overheadFrame u raw f
    let c := (c.countFrame u raw f).setDefs k u raw extra
    let c := c.gccFrame k u f
    if f.mfas.toNat % 8 = 0 ∧ u % 2 = 1 then c.apsReceive k (u / 2) f.aps else c

/-! ### The integration window (R118, R119, R126) -/

/-- LOS and LOL from the tick just closed. -/
def judgeLine (c : Chip) (u raw : Nat) (t : UplinkTick) : Chip × Nat :=
  let x := c.u u
  let low := decide (t.rxPwr < signed 16 (c.lv UPL.LOSSET u))
  let ok := if decide (signed 16 (c.lv UPL.LOSCLR u) ≤ t.rxPwr) then x.losOk + 1 else 0
  let los := if c.on UPL.LOOPNE u then false else if low then true else has raw dLOS && decide (ok < 2)
  let lol := if 2000 ≤ t.unlock ∨ (c.on UPL.LOOPNE u = true ∧ c.shaded = true) then true else if t.unlock = 0 then false else has raw dLOL
  (c.onU u (fun x => { x with losOk := if los then ok else 0 }), setBit (setBit raw dLOS los) dLOL lol)

/-- LOF and LOM over ticks: present, or absent, at every frame check of 24 consecutive ticks. [DEDUCED, log 34] -/
def judgeAlign (c : Chip) (u raw : Nat) : Chip × Nat :=
  let x := c.u u
  let one := fun (r : Run) (all no : Bool) => if x.chk && all then r.step true else if x.chk && no then r.step false else {}
  let lof := one x.lofRun x.oofAll x.oofNone
  let lom := one x.lomRun x.oomAll x.oomNone
  let base := c.lineDown u raw
  (c.onU u (fun x => { x with
     lofRun := if base then {} else lof
     lomRun := if base then {} else lom
     fas := if base then {} else x.fas
     mfas := if base then {} else x.mfas
     chk := false
     rxBips := if base then [] else x.rxBips
     oofAll := true
     oofNone := true
     oomAll := true
     oomNone := true }),
   setBit (setBit raw dLOF (lof.judge 24 24 (has raw dLOF))) dLOM (lom.judge 24 24 (has raw dLOM)))

/-- The high-BER window (Table 5.3). [DESIGN CHOICE, log 85] -/
def judgeBer (c : Chip) (u raw : Nat) (t : UplinkTick) : Chip × Nat :=
  let x := c.u u
  let (lim, win) := if c.lv UPL.MODE u = 3 then (16, 1) else (97, 16)
  let n := x.badSh + t.badSh
  let w := x.berTicks + 1
  let tooMany := decide (lim ≤ n)
  (c.onU u (fun x => { x with
     badSh := if win ≤ w then 0 else n
     berTicks := if win ≤ w then 0 else w }),
   setBit raw dHIBER (if tooMany then true else if win ≤ w then false else has raw dHIBER))

/-- The degrade second that has just closed (R119). -/
def judgeDeg (c : Chip) (u raw : Nat) (sf : Bool) : Chip × Nat :=
  let x := c.u u
  let skip := x.sfSec || sf
  let thr := c.lv UPL.DEGTHR u
  let m := c.lv UPL.DEGM u
  let cl := fun (d : Deg) => d.close (decide (thr ≤ d.count)) skip
  let sm := cl x.smDeg
  let pm := cl x.pmDeg
  let tcm := if c.lv UPL.TCM1MODE u = 0 then {} else cl x.tcmDeg
  let e := cl x.eDeg
  (c.onU u (fun x => { x with
     smDeg := sm
     pmDeg := pm
     tcmDeg := tcm
     eDeg := e
     sfSec := false }),
   setBit (setBit (setBit (setBit raw dSMDEG (sm.judge m (has raw dSMDEG))) dPMDEG (pm.judge m (has raw dPMDEG)))
     dTCMDEG (tcm.judge m (has raw dTCMDEG))) dEDEG (e.judge m (has raw dEDEG)))

/-- Bits of a mode's power target in 0.01 dBm and the laser's bias limit (Tables of chapter 18). -/
def laserTarget (c : Chip) (u : Nat) : Int := if c.lv UPL.MODE u = 4 then 0 else -200
def laserBiasMax : Nat := 60000

/-- The optics monitor (R126, R138); the flag tells that MONALM is raised. -/
def judgeOptics (c : Chip) (k : Clock) (u : Nat) (t : UplinkTick) : Chip × Bool :=
  let x := c.u u
  let bad := c.lv UPL.MODE u != 0 && ((x.laser && decide (200 < (t.txPwr - c.laserTarget u).natAbs)) || decide (laserBiasMax < t.bias))
  let judged := !(x.laser && decide (x.litTicks < 20))
  let mon := if judged then x.mon.step bad else {}
  let was := c.st UPLSTAT.MONALM u == 1
  let now := mon.judge 8 8 was
  let c := c.onU u (fun x => { x with
    mon := mon
    litTicks := if x.laser then x.litTicks + 1 else 0 })
  ((c.setSt UPLSTAT.MONALM u (bit now)).setCond k (16 * u + 14) now, now && !was)

/-- The monitors refreshed in the window of every tick (R126). -/
def refreshOptics (c : Chip) (u : Nat) (t : UplinkTick) : Chip :=
  let off := c.lv UPL.MODE u == 0
  ((((c.setSt UPLSTAT.TXPWR u (if (c.u u).laser then unsigned 16 t.txPwr else 0x8000)).setSt UPLSTAT.RXPWR u
    (if off || decide (t.rxPwr < -4000) then 0x8000 else unsigned 16 t.rxPwr)).setSt UPLSTAT.TEMP u (unsigned 16 t.temp)).setSt
    UPLSTAT.LASBIAS u (min t.bias 65535)).setSt UPLSTAT.RXPPM u (if off then 0 else unsigned 16 t.rxPpm)

/-- Tick counts of the PCS and the pattern checker (R127). -/
def countTick (c : Chip) (u raw : Nat) (t : UplinkTick) : Chip :=
  let m := c.lv UPL.MODE u
  let down := anyBit raw [dLOS, dLOL]
  let prbs := (c.u u).prbs
  let c := if prbs && !down then c.addSt UPLSTAT.PRBSERR u t.prbsErr else c
  if RuleCtx.eth m && !down && !prbs && !has raw dNOBLK then
    let c := ((c.addSt UPLSTAT.ERRBLK u t.errBlk).addSt UPLSTAT.BADSH u t.badSh).onU u (fun x => { x with
      eDeg := { x.eDeg with count := x.eDeg.count + t.errBlk } })
    if m = 4 ∧ c.on UPL.FECRX u = true then
      ((c.addSt UPLSTAT.FECCOR u t.fecCor).addSt UPLSTAT.FECCW u t.fecCw).addSt UPLSTAT.FECUNC u t.fecUnc
    else c
  else c

/-- The window of an uplink that is OFF, or whose mode has not run for a whole tick: the optics monitor goes on (R126, R130). -/
def opticsOnly (c : Chip) (k : Clock) (u : Nat) (t : UplinkTick) : Chip :=
  (c.judgeOptics k u t).1.causeIf k .upl u (bit (c.judgeOptics k u t).2 * 2 ^ 28)

/-- The integration window of uplink `u` (R118, R119, R120, R121, R126, R127, R133). [DESIGN CHOICE, log 85] -/
def integrate (c : Chip) (k : Clock) (u : Nat) (t : UplinkTick) : Chip :=
  let c := c.refreshOptics u t
  let m := c.lv UPL.MODE u
  if m = 0 ∨ k.ticks ≤ (c.u u).start then c.opticsOnly k u t
  else
    let (c, raw) := c.judgeLine u (c.u u).defs t
    let c := c.countTick u raw t
    let (c, raw) := if RuleCtx.otn m then c.judgeAlign u raw else (c, raw)
    let (c, raw) := if RuleCtx.eth m && !c.lineDown u raw && !(c.u u).prbs && !has raw dNOBLK then c.judgeBer u raw t
      else (c.onU u (fun x => { x with badSh := 0, berTicks := 0 }), raw)
    let sf := c.sfOf u (c.maskDefs u (c.holdDefs u raw))
    let (c, raw) := if k.tickSec = 0 then c.judgeDeg u raw sf
      else (c.onU u (fun x => { x with sfSec := x.sfSec || sf }), raw)
    let (c, alarm) := c.judgeOptics k u t
    let c := (c.setDefs k u raw (bit alarm * 2 ^ 28)).onU u (fun x => { x with prbs := c.on UPL.PRBSC u })
    (c.addSt UPLSTAT.SFTICK u (c.st UPLSTAT.SF u)).addSt UPLSTAT.SDTICK u (c.st UPLSTAT.SD u)

/-- A block-level event of the Ethernet PCS (Table 5.4). -/
def pcsEvent (c : Chip) (k : Clock) (u : Nat) (e : PcsEvent) : Chip :=
  if !RuleCtx.eth (c.lv UPL.MODE u) || c.loopDead u then c
  else
    let x := c.u u
    let raw := x.defs
    let fec := decide (c.lv UPL.MODE u = 4) && c.on UPL.FECRX u
    let (x, raw) : Uplink × Nat := match e with
      | .blockLock g => ({ x with lock := {} }, setBit raw dNOBLK (!g))
      | .localFault p => ({ x with fault := {} }, setBit raw dLFRX p)
      | .remoteFault p => ({ x with fault := {} }, setBit raw dRFRX p)
      | .fecAlign g => ({ x with fecBad := 0 }, if fec then setBit raw dFECNOAL (!g) else raw)
      | .headers l =>
        if c.lineDown u raw then (x, raw)
        else
          let (s, b) := l.foldl (fun (p : BlockLock × Bool) v => p.1.step p.2 v) (x.lock, !has raw dNOBLK)
          ({ x with lock := s }, setBit raw dNOBLK (!b))
      | .columns n seq =>
        if c.lineDown u raw || has raw dNOBLK then (x, raw)
        else
          let was := if has raw dLFRX then some true else if has raw dRFRX then some false else none
          let (s, now) := x.fault.step was n seq
          ({ x with fault := s }, setBit (setBit raw dLFRX (now == some true)) dRFRX (now == some false))
      | .codewords l =>
        if !fec || c.lineDown u raw || has raw dNOBLK then (x, raw)
        else
          let (n, lost) := l.foldl (fun (p : Nat × Bool) g => if g then (0, p.2) else (p.1 + 1, p.2 || decide (3 ≤ p.1 + 1))) (x.fecBad, false)
          ({ x with fecBad := if lost then 0 else n }, if lost then setBit raw dFECNOAL true else raw)
    (c.onU u (fun _ => x)).setDefs k u raw 0

/-- What the apply edge of a commit does to uplink `u` (R117, R130 to R133). [DEDUCED, log 35] -/
def uplApply (c : Chip) (k : Clock) (old : Bank) (u : Nat) : Chip :=
  let ne := fun (f : Fld) => old.fld f u != c.lv f u
  let m := c.lv UPL.MODE u
  let gone := (c.u u).gccOpen && (!c.on UPL.GCCUPEN u || ne UPL.GCCQU || ne UPL.MODE)
  let c := if gone then c.gccRewind k u (old.fld UPL.GCCQU u) else c
  let c := c.laserApply k old u
  let c := if (c.u u).gcc.busy && (ne UPL.GCCDNEN || ne UPL.GCCQD || ne UPL.MODE || !c.gccSends u) then
      (c.qReturn k (8 + (c.u u).gcc.queue)).onU u (fun x => { x with gcc := {} })
    else c
  if ne UPL.MODE then
    let c := c.endRx k u (if m = 0 then cDisabled else cNopath)
    let x := c.u u
    let c := c.onU u (fun _ => {
      mode := m
      start := k.ticks
      txFrom := k.edges
      dark := x.dark
      prbs := c.on UPL.PRBSC u
      smTti := { taken := x.smTti.taken }
      pmTti := { taken := x.pmTti.taken }
      pt := { taken := x.pt.taken }
      pmStat := { taken := x.pmStat.taken }
      tcmStat := { taken := x.tcmStat.taken }
      laser := x.laser
      mon := x.mon
      litTicks := x.litTicks
      gccDropNow := x.gccDropNow
      closing := x.closing })
    let c := { c with gfp := vupd c.gfp u (fun _ => .hunt) }
    let c := (((c.setSt UPLSTAT.DEF u 0).setSt UPLSTAT.SF u 0).setSt UPLSTAT.SD u 0).setSt UPLSTAT.CAUSE u 0
    (c.setDefs k u (if RuleCtx.otn m then setBits (c.heldDefs u) [dOOF, dLOF, dOOM, dLOM] else 0) 0).apsLfd k (u / 2)
  else
    let raw := (c.u u).defs
    let tti := fun (f : Fld) => (List.range 8).any (fun i => ne (f.at i))
    let raw := if (ne UPL.SMTIM || tti UPL.EXPSM) && (c.u u).smTti.taken then
        setBit raw dSMTIM (c.timOf u UPL.SMTIM UPLSTAT.RXSM UPL.EXPSM) else raw
    let raw := if (ne UPL.PMTIM || tti UPL.EXPPM) && (c.u u).pmTti.taken then
        setBit raw dPMTIM (c.timOf u UPL.PMTIM UPLSTAT.RXPM UPL.EXPPM) else raw
    c.setDefs k u raw 0

end Chip

end Sys2Proof.Machine
end

