-- ==== Sys2Proof/Machine/Audio.lean ====
section
/-! DEFINITION. The audio engine (chapter 11): sides and their elastic stores, the exchange, routes, defects, and what a
commit does to a port. -/

namespace Sys2Proof.Machine

/-- PRIME of an FS code (Table 11.3). -/
def primeOf (fs : Nat) : Nat := match fs with
  | 0 => 8 | 1 => 12 | _ => 16
/-- Depth of an elastic store. -/
def storeDepth : Nat := 32

/-- `n` frames from a store, the last one taken repeated for each missing; how many were repeated, and the rest (R279). -/
def takeFrames (n : Nat) (st : List (List Nat)) (last : List Nat) : List (List Nat) × Nat × List (List Nat) :=
  let got := st.take n
  let fill := got.getLast?.getD last
  (got ++ List.replicate (n - got.length) fill, n - got.length, st.drop n)

namespace Chip

/-- One slip of port `p` on a side (R279, R289). -/
def slip (c : Chip) (p : Nat) (rx : Bool) (f : Fld) (n : Nat) : Chip :=
  if n = 0 then c else (c.addSt f p n).onSide p rx (fun x => { x with slipNow := true })

/-- A side that its enable and the shade allow starts on a tick boundary (R284, R292, R294). -/
def startSide (c : Chip) (k : Clock) (p : Nat) (rx : Bool) : Chip :=
  let x := c.side p rx
  if c.sideEn p rx && !x.on && (!c.shaded || (rx && !c.master p rx)) then
    (c.onSide p rx (fun x => { x with
      on := true, run := false, onAt := k.ticks, store := [], last := [], made := 0, heard := 0, tail := false })).syncSide p rx
  else c

/-- A frame of a slave side is in progress at its pin: its clock has brought frame starts. -/
def midFrame (x : ASide) : Bool := x.starts != 0 || x.lastStarts != 0
/-- A side stops at a commit that disables or restarts it (R291): a receive side is served once more by the next exchange, and a slave's
frame in progress is discarded on receive and completed on transmit. -/
def endSide (c : Chip) (k : Clock) (old : Bank) (p : Nat) (rx : Bool) : Chip :=
  let x := c.side p rx
  if !x.on then c
  else
    let fs := old.fld AUDIO.FS p
    let mst := (if rx then old.fld AUDIO.RXMST p else old.fld AUDIO.TXMST p) == 1
    let part := bit (!mst && midFrame x)
    if rx then
      let due := if mst then decide (x.onAt < k.ticks) else x.run
      let n := if due then framesOf fs else 0
      let last : SideEnd := ⟨fs, old.fld AUDIO.FMT p, old.fld AUDIO.WLEN p == 1, mst, x.store.take n⟩
      let c := (c.onSide p rx (fun x => { x with
        on := false, store := [], heard := 0, ending := if due then some last else none })).addSt AUDIO.DISCARD p
          ((x.store.drop n).length + (x.heard - n) + part)
      c.setRun k p rx false
    else (c.stopSide k p rx).onSide p rx (fun y => { y with tail := !mst && x.run && midFrame x })
/-- The side's clock and frames are watched afresh, as a commit enables or restarts it. -/
def rewatch (c : Chip) (k : Clock) (p : Nat) (rx : Bool) : Chip :=
  c.onSide p rx (fun x => { x with
    watchAt := k.ticks, starts := 0, lastStarts := 0, clk := {}, frm := {}, clkDef := false, frmDef := false, rngDef := false,
    firstAt := none, count := 0, whole := false })

/-- DEF of port `p` becomes `new` (R288 to R290). -/
def setAudDef (c : Chip) (k : Clock) (p new : Nat) : Chip :=
  let was := c.st AUDIO.DEF p
  ((c.setSt AUDIO.DEF p new).causeIf k .audio p (changed was new)).setCond k (160 + p) (new != 0)

/-- What the apply edge of a commit does to port `p` (R291). -/
def audioApply (c : Chip) (k : Clock) (old : Bank) (p : Nat) : Chip :=
  let ne := fun (f : Fld) => old.fld f p != c.lv f p
  let both := ne AUDIO.FMT || ne AUDIO.FS || ne AUDIO.WLEN
  let one := fun (c : Chip) (rx : Bool) =>
    let off := if rx then ne AUDIO.RXEN else ne AUDIO.TXEN
    let moved := both || (if rx then ne AUDIO.RXMST || ne AUDIO.RXBCKINV else ne AUDIO.TXMST || ne AUDIO.TXBCKINV)
    let c := if off || moved then (c.endSide k old p rx).rewatch k p rx else c
    c.startSide k p rx
  let c := one (one c true) false
  let keep := bit (c.sideEn p true) * 0x15 + bit (c.sideEn p false) * 0x2A
  c.setAudDef k p (c.st AUDIO.DEF p &&& keep)

/-! ### Routes (R281 to R284) -/

/-- Valid routes of a direction, lowest row first. -/
def routes (c : Chip) (dir : Nat) : List Nat :=
  (List.range 256).filter (fun n => c.on AROUTE.VALID n && c.lv AROUTE.DIR n == dir)
/-- The 96-bit drop mask of route `n`. -/
def routeMask (c : Chip) (n : Nat) : Nat := c.lv AROUTE.DMASK0 n + c.lv AROUTE.DMASK1 n * 2 ^ 32 + c.lv AROUTE.DMASK2 n * 2 ^ 64
/-- What a drop's downstream channel carries from the routes (R282, R284): RATE and samples; none is mute. -/
def feedOf (c : Chip) (d ch : Nat) : Option Feed :=
  let l := c.aud.feeds.filter (fun f => f.chan == ch && f.mask.testBit d)
  match l.find? (fun f => f.ann) with
  | some f => some f
  | none => l.head?

/-- The frames that the exchange takes from port `p`'s receive side, with their FS code; none where it does not run.  `pin` is what a
master side has sampled of its data pin in the tick before (R277). -/
def exchangeTake (c : Chip) (k : Clock) (p : Nat) (pin : List Bool) : Option (Nat × List (List Nat)) × Chip :=
  let x := c.side p true
  let zero := List.replicate (slotsOf (c.lv AUDIO.FMT p)) 0
  match x.ending with
  | some e =>
    let (fr, _, _) := takeFrames (framesOf e.fs) (if e.master then bitsFrames e.fmt e.short (framesOf e.fs) pin else e.keep)
      (if x.last = [] then zero else x.last)
    (some (e.fs, fr), c.onSide p true (fun x => { x with ending := none }))
  | none =>
    let fs := c.lv AUDIO.FS p
    let n := framesOf fs
    if !x.on then (none, c)
    else if c.master p true then
      if x.onAt < k.ticks then
        (some (fs, bitsFrames (c.lv AUDIO.FMT p) (c.on AUDIO.WLEN p) n pin),
          (c.onSide p true (fun x => { x with heard := x.heard - n })).setRun k p true true)
      else (none, c)
    else
      let c := if !x.run && !x.clkDef && decide (primeOf fs ≤ x.store.length) then c.setRun k p true true else c
      if (c.side p true).run then
        let (fr, miss, rest) := takeFrames n x.store (if x.last = [] then zero else x.last)
        let c := c.onSide p true (fun x => { x with
          store := rest
          last := fr.getLast?.getD zero })
        (some (fs, fr), ((c.slip p true AUDIO.RXUNDER miss).syncSide p true))
      else (none, c)

/-- The feeds for the next downstream frame from the frames taken of each port (R281, R282); a route with an errored word carries
mute (R293). -/
def buildFeeds (c : Chip) (taken : List (Option (Nat × List (List Nat)))) : List Feed :=
  (c.routes 0).map (fun n =>
    let p := c.lv AROUTE.PORT n
    let s := c.lv AROUTE.SLOT n
    let feed : Feed := { chan := c.lv AROUTE.CHAN n, mask := c.routeMask n, ann := c.on AROUTE.ANN n, rate := 3, samples := [] }
    match taken.getD p none with
    | some (fs, fr) =>
      if (c.lv AUDIO.RXSLOTEN p).testBit s && !c.liveBad 0x41 n then { feed with rate := fs, samples := fr.map (fun f => f.getD s 0) }
      else feed
    | none => feed)

/-- The samples that a transmit slot of port `p` takes from an upstream channel at tick `echo`, and the counts they make
(R283). -/
def slotSamples (c : Chip) (p drop chan echo : Nat) : List Nat × Chip :=
  let fs := c.lv AUDIO.FS p
  let n := framesOf fs
  match c.aud.blocks.find? (fun b => b.drop == drop && b.chan == chan && b.echo == echo) with
  | none => (List.replicate n 0, c)
  | some b =>
    if b.rate = 4 then
      let v := ((c.aud.lastValid.find? (fun (x : Nat × Nat × Nat) => x.1 == drop && x.2.1 == chan)).map (·.2.2)).getD 0
      (List.replicate n v, c.addSt AUDIO.MISSING p 1)
    else if b.rate = 3 ∨ b.rate = 5 then (List.replicate n 0, c)
    else if b.rate ≠ fs then (List.replicate n 0, c.addSt AUDIO.RATEMIS p 1)
    else (b.samples, c)

/-- The transmit part of the exchange for port `p` (R281, R283): F frames into its store. -/
def exchangeGive (c : Chip) (p echo : Nat) : Chip :=
  let x := c.side p false
  if !x.on then c
  else
    let n := framesOf (c.lv AUDIO.FS p)
    let slots := slotsOf (c.lv AUDIO.FMT p)
    let rts := (c.routes 1).filter (fun r => c.lv AROUTE.PORT r == p)
    let (cols, c) := (List.range slots).foldl (fun (acc : List (List Nat) × Chip) s =>
      let (cols, c) := acc
      match rts.find? (fun r => c.lv AROUTE.SLOT r == s) with
      | some r =>
        if (c.lv AUDIO.TXSLOTEN p).testBit s && !c.liveBad 0x41 r then
          let (v, c) := c.slotSamples p (c.lv AROUTE.DROP r) (c.lv AROUTE.CHAN r) echo
          (cols ++ [v], c)
        else (cols ++ [[]], c)
      | none => (cols ++ [[]], c)) ([], c)
    (List.range n).foldl (fun c i =>
      let f := cols.map (fun col => col.getD i 0)
      if storeDepth ≤ (c.side p false).store.length then (if x.run && !c.master p false then c.slip p false AUDIO.TXOVER 1 else c)
      else (c.onSide p false (fun x => { x with store := x.store ++ [f] })).syncSide p false) c

/-- The audio defects of port `p` on the tick just closed (R290): of every enabled slave side, one that the shade has stopped too. -/
def judgeAudio (c : Chip) (k : Clock) (p : Nat) : Chip :=
  let one := fun (acc : Chip × Nat) (rx : Bool) =>
    let (c, d) := acc
    let x := c.side p rx
    let sh := if rx then 0 else 1
    if !c.sideEn p rx || c.master p rx || !decide (x.watchAt < k.ticks) then (c, d)
    else
      let clk := x.clk.step (decide (x.lastStarts = 0))
      let def_ := clk.judge 1 8 x.clkDef
      let c := c.onSide p rx (fun x => { x with
        clk := clk
        clkDef := def_
        store := if def_ && !x.clkDef then [] else x.store })
      let c := if def_ && !x.clkDef then c.setRun k p rx false else c
      (c, d + bit def_ * 2 ^ sh + bit (!def_ && x.frmDef) * 2 ^ (2 + sh) + bit (!def_ && x.rngDef) * 2 ^ (4 + sh))
  let (c, d) := one (one (c, 0) true) false
  c.setAudDef k p d

/-- Valid last samples of the blocks that an exchange has used are remembered for repetition (R183). -/
def rememberValid (c : Chip) (echo : Nat) : Chip :=
  let good := c.aud.blocks.filter (fun b => b.echo == echo && decide (b.rate < 3))
  let upd := good.foldl (fun l b =>
    match b.samples.getLast? with
    | some v => (b.drop, b.chan, v) :: l.filter (fun (x : Nat × Nat × Nat) => !(x.1 == b.drop && x.2.1 == b.chan))
    | none => l) c.aud.lastValid
  { c with aud := { c.aud with lastValid := upd, blocks := c.aud.blocks.filter (fun b => b.echo != echo) } }

/-- The exchange of a tick (R281 to R283, R290). -/
def exchange (c : Chip) (k : Clock) (pins : List (List Bool)) : Chip :=
  let echo := (k.ticks + c.st TWIN.TNOFS 0 + 2 ^ 32 - 2) % 2 ^ 32
  let (taken, c) := (List.range 8).foldl (fun (acc : List (Option (Nat × List (List Nat))) × Chip) p =>
    let (l, c) := acc
    let (t, c) := c.exchangeTake k p (pins.getD p [])
    (l ++ [t], c)) ([], c)
  let feeds := c.buildFeeds taken
  let c := { c with aud := { c.aud with feeds := feeds } }
  let c := overN 8 (fun p c => c.exchangeGive p echo) c
  overN 8 (fun p c => c.judgeAudio k p) (c.rememberValid echo)

/-- A frame start seen on a slave side (R280, R290), and the length of the frame it ends. -/
def sawStart (c : Chip) (k : Clock) (p : Nat) (rx good : Bool) : Chip :=
  let c := c.onSide p rx (fun x =>
    let frm := x.frm.step (!good)
    { x with
      starts := x.starts + 1
      frm := frm
      frmDef := frm.judge 2 8 x.frmDef
      firstAt := some (x.firstAt.getD k.evc)
      lastAt := k.evc
      count := if x.firstAt.isSome then x.count + 1 else 0 })
  if good then c else c.addSt AUDIO.BADFRM p 1

/-- A frame of a slave receive side, by its bits at the sampling edges (R278, R279). -/
def slaveRx (c : Chip) (k : Clock) (p periods : Nat) (frame : List Bool) : Chip :=
  let x := c.side p true
  if !x.on || c.master p true then c
  else
    let good := periods == c.frameW p
    let c := c.sawStart k p true good
    if !good then c
    else if storeDepth ≤ x.store.length then (if x.run then c.slip p true AUDIO.RXOVER 1 else c)
    else (c.onSide p true (fun x => { x with
      store := x.store ++ [bitsFrame (c.lv AUDIO.FMT p) (c.on AUDIO.WLEN p) frame] })).syncSide p true

/-- A frame start of a slave transmit side (R278, R279, R290): while TXFRM stands, only a good one takes a frame. -/
def slaveTx (c : Chip) (k : Clock) (p periods : Nat) : Chip :=
  let c := c.onSide p false (fun x => { x with tail := false })
  let x := c.side p false
  if !c.sideEn p false || c.master p false then c
  else
    let good := periods == c.frameW p
    let c := c.sawStart k p false good
    let c := if x.on && !x.run && !x.clkDef && decide (primeOf (c.lv AUDIO.FS p) ≤ x.store.length) then c.setRun k p false true else c
    if !(c.side p false).run || ((c.side p false).frmDef && !good) then c
    else
      match x.store with
      | [] => c.slip p false AUDIO.TXUNDER 1
      | f :: r => (c.onSide p false (fun x => { x with store := r, last := f })).syncSide p false

/-- A tick boundary: the frame starts of every slave side of the tick just closed are put aside, and the last frame of a master receive
side has ended. -/
def audioBoundary (c : Chip) : Chip :=
  overN 8 (fun p c =>
    let c := (c.onSide p true (fun x => { x with
      lastStarts := x.starts, starts := 0, made := 0, heard := if x.on && c.master p true then x.heard + 1 else x.heard })).onSide p false
        (fun x => { x with lastStarts := x.starts, starts := 0, made := 0 })
    if (c.side p true).on && c.master p true then c.syncSide p true else c) c
/-- The frames of master sides that have begun by the present edge (R277, R279): a transmit side takes each from its store, and each but the
first ends one of a receive side.  A side that started in this tick sends zeros. -/
def beginFrames (c : Chip) (k : Clock) (p : Nat) (rx : Bool) : Nat → Chip
  | 0 => c
  | n + 1 =>
    let x := c.side p rx
    if !x.on || !c.master p rx || framesOf (c.lv AUDIO.FS p) ≤ x.made || k.idx < driveEdge (c.tickPeriods p) (x.made * c.frameW p) then c
    else
      let c := c.onSide p rx (fun x => { x with
        made := x.made + 1
        heard := if rx && x.made != 0 then x.heard + 1 else x.heard
        last := if rx then x.last else x.store.headD []
        store := if rx then x.store else x.store.drop 1 })
      let c := if !rx && !x.run && decide (x.onAt < k.ticks) then c.setRun k p rx true else c.syncSide p rx
      c.beginFrames k p rx n
/-- The master sides up to the present edge. -/
def audioPass (c : Chip) (k : Clock) : Chip :=
  overN 8 (fun p c => (c.beginFrames k p true 6).beginFrames k p false 6) c
/-- The sides as the part leaves a boundary, on the bank live in the tick: those that may start do (R294), and the masters' first frames
begin. -/
def audioOpen (c : Chip) (k : Clock) : Chip :=
  (overN 8 (fun p c => (c.startSide k p true).startSide k p false) c).audioPass k

/-- RXPPM or TXPPM of a slave side at a second boundary (R280). -/
def sidePpm (c : Chip) (p : Nat) (rx : Bool) : Chip :=
  let x := c.side p rx
  let f := if rx then AUDIO.RXPPM else AUDIO.TXPPM
  let n := framesOf (c.lv AUDIO.FS p)
  let span : Int := (n : Int) * ((x.lastAt : Int) - (x.firstAt.getD 0 : Nat))
  let live := x.on && !c.master p rx && x.run && x.whole && decide (0 < x.count) && decide (0 < span)
  let ppm : Int := ((125000 * x.count : Nat) - span) * 10000000 / span
  let c := if live then
      (c.setSt f p (unsigned 16 (max (-32767) (min 32767 ppm)))).onSide p rx (fun x => { x with
        rngDef := decide (10000 < ppm.natAbs) })
    else c.setSt f p 0x8000
  c.onSide p rx (fun x => { x with firstAt := none, count := 0, whole := x.on && x.run })

/-- Both sides of every port at a second boundary. -/
def audioSecond (c : Chip) : Chip := overN 8 (fun p c => (c.sidePpm p true).sidePpm p false) c

end Chip

end Sys2Proof.Machine
end

