-- ==== Sys2Proof/Machine/DropOps.lean ====
section
/-! DEFINITION. The drops as the rest of the part uses them (chapters 7 and 8): geometry, generations, defects, port
states, offers of slot maps, and what becomes of items while a drop is not UP. -/

namespace Sys2Proof.Machine

/-! ### Geometry and run lists -/

/-- Blocks of a frame, N, by mode code (Table 7.1). -/
def blocksOf (m : Nat) : Nat := match m with
  | 1 => 125 | 2 => 500 | 3 => 1000 | 4 => 2000 | _ => 0
/-- The drop is a copper drop. -/
def copper (d : Nat) : Bool := decide (d < 64)
/-- Base mode of a drop (R203). -/
def baseMode (d : Nat) : Nat := if copper d then 1 else 4
/-- Line codes (Table 7.1). -/
inductive LineCode where
  | nrz
  | pam4
  deriving DecidableEq, Repr
/-- Line code of a mode. -/
def modeCode (m : Nat) : LineCode := if m = 2 ∨ m = 3 then .pam4 else .nrz
/-- Bytes of a frame, L (Table 7.1). -/
def frameBytes (m : Nat) : Nat := 20 * blocksOf m
/-- Symbols per tick: a PAM-4 symbol carries two bits. -/
def symbolsOf (m : Nat) : Nat := match modeCode m with
  | .nrz => 8 * frameBytes m
  | .pam4 => 4 * frameBytes m
/-- Upstream offset H in symbols: half a tick (R169, Table 7.1). -/
def upOffset (m : Nat) : Nat := symbolsOf m / 2
/-- First block of region `r` of a mode (R179); `r` = 64 gives the end. -/
def regionLo (m r : Nat) : Nat := 4 + r * (blocksOf m - 4) / 64
/-- The SNR threshold of a mode in 0.25 dB (Table 8.4). -/
def snrThr (m : Nat) : Nat := match modeCode m with
  | .nrz => 68
  | .pam4 => 106

/-- A run entry (Table 7.7). -/
structure RunEnt where
  up : Bool
  typ : Nat
  start : Nat
  len : Nat
  chan : Nat
  deriving DecidableEq, Repr

/-- A run word read as a run entry. -/
def runEnt (w : Nat) : RunEnt :=
  { up := w.testBit 31, typ := bitsOf w 30 28, start := bitsOf w 27 17, len := bitsOf w 16 8, chan := bitsOf w 7 0 }

/-- Block types (Table 7.5). -/
def tDark : Nat := 0
def tPacket : Nat := 1
def tAudio : Nat := 2
def tSensor : Nat := 3
def tTiming : Nat := 4
def tMgmt : Nat := 5

/-- The run that covers a block. -/
def runAt (l : List RunEnt) (up : Bool) (b : Nat) : Option RunEnt :=
  l.find? (fun e => e.up == up && decide (e.start ≤ b) && decide (b < e.start + e.len))
/-- Type of a block; one that no run covers is dark (R181). -/
def typeAt (l : List RunEnt) (up : Bool) (b : Nat) : Nat := ((runAt l up b).map (·.typ)).getD tDark

/-! Bits of DROPSTAT.DEF (Table 8.7). -/
def eLOS : Nat := 0
def eLOL : Nat := 1
def eLOF : Nat := 2
def eRDIRX : Nat := 3
def eSMFLT : Nat := 4
def eSMMIS : Nat := 5
def eRANGE : Nat := 6
def eXCON : Nat := 7
def eLFD : Nat := 8
def eSNRLOW : Nat := 9
def eTRFAIL : Nat := 10
def eMODELOW : Nat := 11
def eISO : Nat := 12
def eOPT : Nat := 13

/-- PSTATE of a port state (Table 8.2). [DEDUCED, log 41] -/
def PState.code : PState → Nat
  | .off => 0 | .silent => 1 | .quietec => 2 | .call => 3 | .prep => 4 | .probe => 5 | .select => 6 | .up => 7
  | .wait => 8 | .listen => 9 | .held => 10
/-- STATE of a slot-map state (Table 7.10). -/
def SmState.code : SmState → Nat
  | .idle => 0 | .waiting => 1 | .offered => 2 | .applyNext => 3

/-- A tick boundary: one more tick in the port state, and what R220 judges of the tick that closes. -/
def Drop.closeTick (x : Drop) : Drop :=
  { x with
    age := x.age + 1, tickSync := x.allSync, tickGfp := x.anyGfp, endGfp := x.gfp == .sync,
    allSync := x.rx == .sync, anyGfp := x.gfp == .sync }

/-- The echo has been accepted on an edge before the present one (R188 step 4, R198). -/
def echoedBefore (k : Clock) (x : Drop) : Bool := x.echoed && decide (x.echoAt < k.edges)

namespace Chip

/-- The drop's receiver runs drop frames; a copper drop in LISTEN only once it knows the mode (R215). -/
def hearsFrames (c : Chip) (d : Nat) : Bool :=
  let x := c.d d
  (x.ps == .up && !x.closing) || (x.ps == .select && x.awaiting) || (x.ps == .listen && x.mode != 0)
/-- Upstream blocks and messages of the drop are taken: the receiver is in SYNC (R177, R199). -/
def takesBlocks (c : Chip) (d : Nat) : Bool := c.hearsFrames d && (c.d d).rx == .sync

/-- The line tick number (R386). -/
def lineTick (c : Chip) (k : Clock) : Nat := (k.ticks + c.st TWIN.TNOFS 0) % 2 ^ 32
/-- How many ticks ago the line tick `n` was, modulo 2³². -/
def ticksAgo (c : Chip) (k : Clock) (n : Nat) : Nat := (c.lineTick k + 2 ^ 32 - n % 2 ^ 32) % 2 ^ 32

/-- The runs of a SLOTMAP row of a bank. -/
def rowRuns (b : Bank) (r : Nat) : List RunEnt :=
  (List.range (min 56 (b.fld SLOTMAP.RUNS r))).map (fun i => runEnt (b.fld (SLOTMAP.RUN.at i) r))
/-- The SLOTMAP row in use of drop `d`. -/
def useRow (c : Chip) (d : Nat) : Nat := 2 * d + (c.d d).inUse
/-- Its spare row. -/
def spareRow (c : Chip) (d : Nat) : Nat := 2 * d + (1 - (c.d d).inUse)
/-- The runs of the live generation; generation 0 has none. -/
def liveRuns (c : Chip) (d : Nat) : List RunEnt := if (c.d d).genLive = 0 then [] else rowRuns c.heath.live (c.useRow d)
/-- The live generation fits mode `m` (R211). -/
def fits (c : Chip) (d m : Nat) : Bool := (c.liveRuns d).all (fun e => decide (e.start + e.len ≤ blocksOf m))
/-- DNDARK or UPDARK of the live generation as it acts in mode `m` (R211). -/
def forced (c : Chip) (d m : Nat) (up : Bool) : Nat :=
  if (c.d d).genLive = 0 || !c.fits d m then 0
  else
    let r := c.useRow d
    if up then c.lv SLOTMAP.UPDARKHI r * 2 ^ 32 + c.lv SLOTMAP.UPDARKLO r
    else c.lv SLOTMAP.DNDARKHI r * 2 ^ 32 + c.lv SLOTMAP.DNDARKLO r
/-- DYNDARK of the live generation. -/
def dynDark (c : Chip) (d : Nat) : Bool := (c.d d).genLive != 0 && c.on SLOTMAP.DYNDARK (c.useRow d)

/-! ### Defects and the summary source -/

/-- The summary source of drop `d` (R222). -/
def syncDropSrc (c : Chip) (k : Clock) (d : Nat) : Chip :=
  let bits := c.st DROPSTAT.DEF d &&& c.lv DROP.SUMEN d
  let bits := if (c.d d).ps = .up then bits else bits &&& (2 ^ eTRFAIL + 2 ^ eISO + 2 ^ eOPT)
  c.setCond k (64 + d) (bits != 0)
/-- DEF of drop `d` becomes `new`: every change sets its CAUSE bit (R219, R221). -/
def setDropDefs (c : Chip) (k : Clock) (d new : Nat) : Chip :=
  let was := c.st DROPSTAT.DEF d
  ((c.setSt DROPSTAT.DEF d new).causeIf k .drop d (changed was new)).syncDropSrc k d
/-- One defect bit. -/
def setDropDef (c : Chip) (k : Clock) (d n : Nat) (b : Bool) : Chip := c.setDropDefs k d (setBit (c.st DROPSTAT.DEF d) n b)
/-- The defect is present. -/
def dropDef (c : Chip) (d n : Nat) : Bool := has (c.st DROPSTAT.DEF d) n
/-- A counter of drop `d` that counts while the drop is UP (R219). -/
def countUp (c : Chip) (f : Fld) (d n : Nat) : Chip := if (c.d d).ps = .up then c.addSt f d n else c
/-- Cause bits of the slot-map generation of drop `d` (R197). -/
def slotCause (c : Chip) (k : Clock) (d bits : Nat) : Chip := c.cause k .slot (2 * d) bits
/-- INUSE, STATE, GENLIVE and GENNEXT as the drop stands. -/
def syncSlot (c : Chip) (d : Nat) : Chip :=
  let x := c.d d
  let r := 2 * d
  (((c.setSt SLOTMAP.INUSE r x.inUse).setSt SLOTMAP.STATE r x.sm.code).setSt SLOTMAP.GENLIVE r x.genLive).setSt
    SLOTMAP.GENNEXT r x.genNext
/-- SMFLT, SMMIS, RANGE or XCON, which both tables report. -/
def setSlotDef (c : Chip) (k : Clock) (d n : Nat) (f : Fld) (on off : Nat) (b : Bool) : Chip :=
  if c.dropDef d n = b then c
  else ((c.setSt f (2 * d) (bit b)).setDropDef k d n b).slotCause k d (if b then on else off)
/-- SMFLT (R190). -/
def setSmflt (c : Chip) (k : Clock) (d : Nat) (b : Bool) : Chip := c.setSlotDef k d eSMFLT SLOTMAP.SMFLT 4 8 b
/-- SMMIS (R192). -/
def setSmmis (c : Chip) (k : Clock) (d : Nat) (b : Bool) : Chip := c.setSlotDef k d eSMMIS SLOTMAP.SMMIS 32 32 b
/-- RANGE (R193). -/
def setRange (c : Chip) (k : Clock) (d : Nat) (b : Bool) : Chip := c.setSlotDef k d eRANGE SLOTMAP.RANGE 128 128 b
/-- XCON (Table 7.11). -/
def setXcon (c : Chip) (k : Clock) (d : Nat) (b : Bool) : Chip := c.setSlotDef k d eXCON SLOTMAP.XCON 128 128 b

/-! ### Slot-map offers (R188 to R192) -/

/-- The next generation number after `n`, skipping 0 and the live one (R188). -/
def nextGen (n live : Nat) : Nat :=
  let up := fun (n : Nat) => if n ≥ 255 then 1 else n + 1
  if up n = live then up (up n) else up n
/-- An offer of the spare row is triggered (R188 step 1). -/
def triggerOffer (c : Chip) (d : Nat) : Chip :=
  (c.onD d (fun x => { x with
    sm := .waiting, genNext := nextGen x.genNext x.genLive, offerAge := 0, echoed := false })).syncSlot d
/-- The offer is withdrawn (R191). -/
def withdrawOffer (c : Chip) (k : Clock) (d : Nat) : Chip :=
  (((c.onD d (fun x => { x with sm := .idle, offerAge := 0, echoed := false })).syncSlot d).setSmflt k d false).slotCause k d 16
/-- The in-use row is offered again (R192). -/
def reOffer (c : Chip) (k : Clock) (d : Nat) : Chip :=
  ((c.onD d (fun x => { x with
    sm := .waiting, genNext := x.genLive, offerAge := 0, echoed := false })).syncSlot d).slotCause k d 64
/-- The generation applies (R188 step 5). -/
def applyGen (c : Chip) (k : Clock) (d : Nat) : Chip :=
  let x := c.d d
  let c := if x.genNext = x.genLive then c.onD d (fun x => { x with sm := .idle, echoed := false })
    else c.onD d (fun x => { x with
      sm := .idle, echoed := false, inUse := 1 - x.inUse, gens := (x.genTick, x.genLive) :: x.gens, genBefore := x.genLive,
      genLive := x.genNext, genTick := k.ticks })
  ((c.syncSlot d).setSmflt k d false).slotCause k d 1
/-- The generation live at the downstream frame of line tick `n` (R192). -/
def genAt (c : Chip) (k : Clock) (d n : Nat) : Nat :=
  let x := c.d d
  if k.ticks < x.genTick + c.ticksAgo k n then
    ((x.gens.find? (fun g => decide (g.1 + c.ticksAgo k n ≤ k.ticks))).map (·.2)).getD x.genBefore
  else x.genLive

/-! ### Messages between a drop and the queues -/

/-- The queue that takes a drop's received messages, where its enable is 1: 0 header channel, 1 management, 2 sensor,
7 timing. -/
def rxQueue (c : Chip) (d kind : Nat) : Option Nat :=
  match kind with
  | 0 => if c.on DROP.MCHUEN d then some (c.lv DROP.MCHUQ d) else none
  | 1 => if c.on DROP.MBKUEN d then some (c.lv DROP.MBKUQ d) else none
  | 2 => if c.on DROP.SNSUEN d then some (c.lv DROP.SNSUQ d) else none
  | _ => if c.on TIME.TBUEN 1 then some (c.lv TIME.TBQU 1) else none
/-- The run on which a message of the kind is open. -/
def rxRun (x : Drop) (kind : Nat) : Option Nat :=
  match kind with
  | 0 => x.rxMch | 1 => x.rxMbk | 2 => x.rxSns | _ => x.rxTim
/-- A message of the kind is open. -/
def rxOpen (x : Drop) (kind : Nat) : Bool := (rxRun x kind).isSome
/-- A message is open on run `b`, or none is. -/
def setRxOpen (c : Chip) (d kind : Nat) (b : Option Nat) : Chip :=
  c.onD d (fun x =>
    match kind with
    | 0 => { x with rxMch := b } | 1 => { x with rxMbk := b } | 2 => { x with rxSns := b } | _ => { x with rxTim := b })
/-- The message being received is lost: rewound in its queue, and counted once (R200, R258, R263, R312). -/
def loseRx (c : Chip) (k : Clock) (d kind : Nat) : Chip :=
  if rxOpen (c.d d) kind then
    let c := c.setRxOpen d kind none
    match c.rxQueue d kind with
    | some q =>
      let had := ((c.q q).openOf kind d).isSome
      let skip := (c.q q).skipping kind d
      let c := if had then c.qRewind k q kind d else if skip then c else c.qRewound k q
      c.onQ q (fun x => x.setSkip kind d false)
    | none => c
  else c
/-- Every message being received on the drop is lost. -/
def loseAllRx (c : Chip) (k : Clock) (d : Nat) : Chip := [0, 1, 2, 7].foldl (fun c i => c.loseRx k d i) c
/-- Block type of a kind's runs. -/
def kindType (kind : Nat) : Nat := if kind = 1 then tMgmt else if kind = 2 then tSensor else tTiming
/-- The runs live for the upstream frame that echoes line tick `n` (R188). -/
def runsAt (c : Chip) (k : Clock) (d n : Nat) : List RunEnt :=
  let x := c.d d
  if c.genAt k d n = x.genLive then c.liveRuns d
  else if x.genBefore = 0 then []
  else rowRuns c.heath.live (c.spareRow d)
/-- A run list has a run of the direction and type that begins at block `b`. -/
def hasRun (l : List RunEnt) (up : Bool) (typ b : Nat) : Bool := l.any (fun e => e.up == up && e.typ == typ && e.start == b)
/-- An upstream message whose run the frame that echoes `n` no longer has is lost. -/
def loseGone (c : Chip) (k : Clock) (d n : Nat) : Chip :=
  [1, 2, 7].foldl (fun c i => match rxRun (c.d d) i with
    | some r => if hasRun (c.runsAt k d n) true (kindType i) r then c else c.loseRx k d i
    | none => c) c
/-- A downstream message whose run the live list no longer has returns to its queue. [DESIGN CHOICE, log 81] -/
def haltGone (c : Chip) (k : Clock) (d : Nat) : Chip :=
  let gone := fun (m : TxMsg) (typ : Nat) => m.busy && m.rest != [] && m.run.any (fun r => !hasRun (c.liveRuns d) false typ r)
  let x := c.d d
  let c := if gone x.txMbk tMgmt then (c.qReturn k (8 + x.txMbk.queue)).onD d (fun x => { x with txMbk := {} }) else c
  if gone x.txSns tSensor then (c.qReturn k (8 + x.txSns.queue)).onD d (fun x => { x with txSns := {} }) else c
/-- A host message of which a part has been sent. -/
def midMch (x : Drop) : Bool := x.txMch.busy && !x.txMch.first && x.txMch.rest != []
/-- As an offer begins, a host message of which a part has been sent returns to its queue: it is never split around a segment
(R175, R262). [DEDUCED, log 80] -/
def haltMch (c : Chip) (k : Clock) (d : Nat) : Chip :=
  let x := c.d d
  if midMch x then (c.qReturn k (8 + x.txMch.queue)).onD d (fun x => { x with txMch := {} }) else c
/-- The receiver ignores block `b` of the frame that echoes `n`: its header marked the region dark (R180). -/
def ignored (c : Chip) (d n b : Nat) : Bool :=
  match (c.d d).rxDark with
  | some (e, m) => e == n % 2 ^ 32 && has m (63 - (64 * (b - 3) - 1) / (blocksOf (c.d d).mode - 4))
  | none => false
/-- A consumer of the drop stops: an item it has begun returns to its queue (R262). -/
def stopTx (c : Chip) (k : Clock) (d : Nat) : Chip :=
  let x := c.d d
  let back := fun (c : Chip) (m : TxMsg) => if m.busy then c.qReturn k (8 + m.queue) else c
  (back (back (back c x.txMch) x.txMbk) x.txSns).onD d (fun x => { x with txMch := {}, txMbk := {}, txSns := {} })

/-! ### Items of a drop's tributaries (R212, R213) -/

/-- Under what cause a downstream item that reaches the head of its list is discarded at once; none where its drop serves
it or keeps it. [DEDUCED, log 47] -/
def headCause (c : Chip) (d : Nat) : Option Nat :=
  let x := c.d d
  if c.twin.role = .shadow || x.ps == .up || (x.ps == .held && x.mode != 0) then none
  else some (if c.shaded then cShade else cNopath)
/-- The items at the head of tributary `t` whose drop is not UP are discarded, one after the other (R213). -/
def dropHeads (c : Chip) (k : Clock) (t : Nat) : Nat → Chip
  | 0 => c
  | n + 1 =>
    match (c.t t).dn with
    | it :: r =>
      match c.headCause it.dest with
      | some cause => ((c.setItems t false r).discardItem k it cause).dropHeads k t n
      | none => c
    | [] => c
/-- The same for every tributary. -/
def dropAllHeads (c : Chip) (k : Clock) : Chip := overN 256 (fun t c => c.dropHeads k t (c.t t).dn.length) c
/-- Items of a direction that satisfy `p` are discarded under DISABLED (R162). -/
def disposeItems (c : Chip) (k : Clock) (t : Nat) (up : Bool) (p : Item → Bool) : Chip :=
  let gone := (c.items t up).filter p
  if gone = [] then c
  else gone.foldl (fun c it => c.discardItem k it cDisabled) (c.setItems t up ((c.items t up).filter (fun it => !p it)))
/-- Downstream items of a drop that has been disabled (R223). -/
def disposeDrop (c : Chip) (k : Clock) (d : Nat) : Chip :=
  overN 256 (fun t c => c.disposeItems k t false (fun it => it.dest == d)) c
/-- The packet in progress downstream is broken off: its item is whole again at the head of its list. -/
def breakPacket (c : Chip) (d : Nat) : Chip :=
  let c := match (c.d d).pktItem with
    | some it => c.onT it.trib (fun x => { x with dn := x.dn.map (fun (i : Item) => { i with begun := false }) })
    | none => c
  c.onD d (fun x => { x with pkt := [], pktItem := none })

/-! ### Port states (R203, R207, R213, R214, R224) -/

/-- The mode in which a state's receiver hunts the training word: 1 the base mode, 2 the candidate, 0 none (Table 8.2). -/
def huntMode : PState → Nat
  | .call | .prep | .select => 1
  | .probe => 2
  | _ => 0
/-- Training with the receiver hunting afresh (R205). -/
def Training.fresh (t : Training) : Training := { t with hunt := .hunt, errRun := 0, pre := none }
/-- The drop is in port state `ps`, from the present boundary on; a change of the training receiver's mode is a new hunt. -/
def setPs (c : Chip) (k : Clock) (d : Nat) (ps : PState) : Chip :=
  let c := c.onD d (fun x => { x with
    ps := ps, age := 0, train := if huntMode x.ps = huntMode ps then x.train else Training.fresh x.train })
  ((c.setSt DROPSTAT.PSTATE d ps.code).setSt DROPSTAT.RUNMODE d (if ps = .up then (c.d d).mode else 0)).syncDropSrc k d

/-- The receiver leaves SYNC: delineation falls to HUNT, open messages are lost, an offer waits again (R182, R190). -/
def leaveSync (c : Chip) (k : Clock) (d : Nat) : Chip :=
  let c := (c.loseAllRx k d).onD d (fun x => { x with
    rx := .hunt, errRun := 0, gfp := .hunt, rei := 0, rxDark := none, rxEcho := none, rxLost := [], allSync := false })
  let c := if (c.d d).sm = .offered ∧ c.twin.role ≠ .shadow then c.onD d (fun x => { x with sm := .waiting, offerAge := 0, echoed := false }) else c
  c.syncSlot d
/-- LOF is raised (Table 7.11). -/
def raiseLof (c : Chip) (k : Clock) (d : Nat) : Chip :=
  if c.dropDef d eLOF then c
  else ((c.countUp DROPSTAT.LOFEVT d 1).onD d (fun x => { x with
    lofSince := some k.pos, lofSec := x.lofSec || x.ps == .up, errSec := true })).setDropDef k d eLOF true

/-- The drop stops sending drop frames: the packet stream, its messages and the defects judged in UP end (R213, R220). [DEDUCED, log 40] -/
def leaveUp (c : Chip) (k : Clock) (d : Nat) : Chip :=
  let c := (((c.stopTx k d).breakPacket d).endUp k d cNopath).leaveSync k d
  let c := c.onD d (fun x => { x with
    awaiting := false, retrain := none, closing := false, losOk := 0, snr := {}, raw := 0, header := [], laid := [], next := 0 })
  c.setDropDefs k d (clearBits (c.st DROPSTAT.DEF d) [eLOS, eLOL, eLFD, eSNRLOW, eMODELOW])

/-- The drop enters SILENT: a training attempt begins (R207, R427). -/
def enterSilent (c : Chip) (k : Clock) (d : Nat) : Chip :=
  let cap := if copper d ∧ 2 ≤ c.st POWER.TSTAGE 0 then c.lv POWER.THRMODE 0 else 7
  let c := (c.leaveUp k d).onD d (fun x => { x with mode := 0, train := { cap := cap } })
  let c := ((c.setPs k d .silent).addSt DROPSTAT.TRAINS d 1).cause k .drop d (2 ^ 30)
  c.raiseLof k d
/-- The attempt fails (R225). -/
def trainFail (c : Chip) (k : Clock) (d : Nat) : Chip :=
  let c := (c.leaveUp k d).onD d (fun x => { x with mode := 0 })
  ((c.setPs k d .wait).addSt DROPSTAT.TRFAILS d 1).setDropDef k d eTRFAIL true
/-- The drop enters OFF: its defects other than SMFLT clear, and a laser is off (R199, R219, R220, R223). -/
def enterOff (c : Chip) (k : Clock) (d : Nat) : Chip :=
  let c := (c.leaveUp k d).onD d (fun x => { x with
    mode := 0, lofSince := none, rdi := {}, xcon := {}, smmis := {}, range := {}, iso := {}, opt := {}, delays := [] })
  let c := ((c.setSmmis k d false).setRange k d false).setXcon k d false
  let c := c.setPs k d .off
  let c := if copper d then c else c.setSt DROPSTAT.ATTEN d 0x8000
  c.setDropDefs k d (c.st DROPSTAT.DEF d &&& 2 ^ eSMFLT)
/-- The drop enters UP in its mode (R207 step 6, R216). [DEDUCED, log 40] -/
def enterUp (c : Chip) (k : Clock) (d : Nat) : Chip :=
  let c := c.onD d (fun x => { x with awaiting := false, retrain := none })
  let c := (c.setPs k d .up).cause k .drop d (2 ^ 31)
  c.setDropDefs k d (setBit (setBit (c.st DROPSTAT.DEF d) eTRFAIL false) eMODELOW (decide ((c.d d).mode < c.lv DROP.MODE d)))
/-- The drop enters HELD (R215, R224); one that was UP keeps the schedule of its mode. [DEDUCED, log 47] -/
def enterHeld (c : Chip) (k : Clock) (d : Nat) : Chip :=
  let up := (c.d d).ps == .up
  let m := (c.d d).mode
  let c := (c.leaveUp k d).onD d (fun x => { x with mode := if up then m else 0 })
  (c.setPs k d .held).raiseLof k d
/-- The drop enters LISTEN (R215); a fibre receiver knows its mode. -/
def enterListen (c : Chip) (k : Clock) (d : Nat) : Chip :=
  let c := (c.leaveUp k d).onD d (fun x => { x with
    mode := if copper d then 0 else 4, downRx := .hunt, downErr := 0, trying := 1 })
  (c.setPs k d .listen).raiseLof k d

/-! ### Training choices (R207 to R209) -/

/-- CAPS of the part's own messages (Table 8.3). -/
def ownCaps (c : Chip) (d : Nat) : Nat :=
  (List.range 7).foldl (fun a i => if c.lv DROP.MINMODE d ≤ i + 1 ∧ i + 1 ≤ c.lv DROP.MODE d then a + 2 ^ i else a) 0
/-- The best candidate mode below `m` (R207 step 4). -/
def nextCand (c : Chip) (d m : Nat) : Option Nat :=
  ([4, 3, 2, 1].filter (fun x => decide (x < m) && decide (x ≤ (c.d d).train.cap) && decide (baseMode d < x) && has (c.ownCaps d) (x - 1) &&
    has (c.d d).train.caps (x - 1))).head?
/-- An SNR code reaches the threshold of mode `m` plus MARGIN. -/
def snrPass (c : Chip) (d m snr : Nat) : Bool := snr != 0xFF && decide (snrThr m + c.lv DROP.MARGIN d ≤ snr)
/-- The base mode qualifies (R207 step 5, R209). -/
def baseOk (c : Chip) (d : Nat) : Bool :=
  let t := (c.d d).train
  decide (c.lv DROP.MINMODE d ≤ baseMode d) &&
  (!copper d || (c.snrPass d 1 t.ownSnr && c.snrPass d 1 t.snrA && c.snrPass d 1 t.snrB))
/-- SELECT with a chosen mode (R207 step 5). -/
def enterSelect (c : Chip) (k : Clock) (d m : Nat) : Chip :=
  ((c.onD d (fun x => { x with train := { x.train with chosen := m } })).setSt DROPSTAT.BESTMODE d m).setPs k d .select
/-- After CALL or a probe: the next probe, SELECT, or failure. [DEDUCED, log 42] -/
def trainNext (c : Chip) (k : Clock) (d below : Nat) : Chip :=
  match c.nextCand d below with
  | some m => (c.onD d (fun x => { x with train := { x.train with cand := m, judged := false, probeSnr := 0xFF } })).setPs k d .prep
  | none => if c.baseOk d then c.enterSelect k d (baseMode d) else c.trainFail k d

/-- A drop as a tick opens, under the bank live in it (R96, R203, R207, R208, R215, R223, R224): an ended CALL or probe moves on, the
shade holds it or lets it go. -/
def dropOpen (c : Chip) (k : Clock) (d : Nat) : Chip :=
  let x := c.d d
  if x.ps = .off then c
  else if c.shaded && decide (c.twin.role ≠ .shadow) then
    if x.closing then c else if x.ps = .held then c else c.enterHeld k d
  else if x.ps = .held && decide (c.twin.role ≠ .shadow) then c.enterSilent k d
  else if x.ps = .call && decide (2 ≤ x.train.answers) then c.trainNext k d 5
  else if x.ps = .probe && decide (16 ≤ x.age) then
    if x.train.chosen != 0 then c.enterSelect k d x.train.chosen else c.trainNext k d x.train.cand
  else c

/-- Slot-map bookkeeping at a superframe boundary: the superframes for which an offer, or apply-next, has stood (R190). -/
def offerTick (c : Chip) (d : Nat) : Chip :=
  c.onD d (fun x => if x.sm = .offered ∨ x.sm = .applyNext then { x with offerAge := x.offerAge + 1 } else x)

end Chip

end Sys2Proof.Machine
end

