-- ==== Sys2Proof/Machine/DropFrame.lean ====
section
/-! DEFINITION. The downstream drop frame of a tick (chapter 7, R211, R212, R239, R241 to R243, R311): its header and regions,
composed as the part leaves cycle index 0, its payload blocks, each composed when it is due, its parity, and its line. -/

namespace Sys2Proof.Machine

/-! ### The scrambler and BIP-16 (R171, R174) -/

/-- The scrambler register, the byte's place in its 16-bit word, and the parity so far. -/
structure Scr where
  reg : Nat := 2 ^ 23 - 1
  odd : Bool := false
  acc : Nat := 0
  deriving DecidableEq, Repr

/-- One bit of the scrambler: the sequence bit and the register after it (R171). -/
def scrBit (r : Nat) : Nat × Nat :=
  let b := bit (r.testBit 22 != r.testBit 17)
  (b, (r * 2 + b) % 2 ^ 23)
/-- Eight bits of the scrambler sequence, the first the most significant. -/
def scrByte (r : Nat) : Nat × Nat :=
  (List.range 8).foldl (fun p _ => let (b, r) := scrBit p.2; (p.1 * 2 + b, r)) (0, r)
/-- One byte on its way to the line: a byte of a dark region counts as 0 in the parity. -/
def Scr.step (s : Scr) (dark : Bool) (b : Byte) : Scr :=
  let (q, r) := scrByte s.reg
  { reg := r, odd := !s.odd, acc := if dark then s.acc else s.acc ^^^ ((b.toNat ^^^ q) * (if s.odd then 1 else 256)) }
/-- Several bytes. -/
def Scr.run (s : Scr) (dark : Bool) (bs : List Byte) : Scr := bs.foldl (fun s b => s.step dark b) s

/-! ### Blocks -/

/-- An audio block (Table 7.6). -/
def audioBlock (rate tick : Nat) (samples : List Nat) : List Byte :=
  let b := fit 18 (samples.flatMap (fun v => beBytes 3 v)) ++ [byte (rate * 64 + tick % 64)]
  b ++ [crc8 b]
/-- A small block (R184). -/
def smallBlock (sop eop : Bool) (data : List Byte) : List Byte :=
  let b := byte (bit sop * 128 + bit eop * 64 + data.length) :: fit 18 data
  b ++ [crc8 b]
/-- The next piece of at most `n` bytes of a message being sent: SOP, EOP, its bytes, and the message after it. -/
def TxMsg.piece (m : TxMsg) (n : Nat) : Option (Bool × Bool × List Byte × TxMsg) :=
  if m.busy && m.rest != [] then
    let rest := m.rest.drop n
    some (m.first, rest == [] && !m.cut, m.rest.take n, { m with rest := rest, first := false })
  else none
/-- A small block of the run that begins at block `r`: the next piece of a message that the run carries, or idle (R184). [DESIGN CHOICE, log 81] -/
def TxMsg.block (m : TxMsg) (r : Nat) : List Byte × TxMsg :=
  if m.run.getD r = r then
    match m.piece 18 with
    | some (s, e, bs, m) => (smallBlock s e bs, { m with run := some r })
    | none => (smallBlock false false [], m)
  else (smallBlock false false [], m)

/-- A GFP-F frame of the packet stream (R182). -/
def gfpBytes (cid : Nat) (client : List Byte) : List Byte :=
  gfpCore (8 + client.length) ++ gfpHead false 1 cid ++ client
/-- A GFP idle frame. -/
def gfpIdle : List Byte := gfpCore 0
/-- The last four bytes still to be sent, complemented (R231). -/
def spoilFcs (bs : List Byte) : List Byte := bs.take (bs.length - 4) ++ (bs.drop (bs.length - 4)).map (fun b => ~~~ b)

/-- The slot-map message of a SLOTMAP row (Table 7.8). -/
def slotMessage (b : Bank) (r gen : Nat) : List Byte :=
  let runs := b.fld SLOTMAP.RUNS r
  let body := [byte gen, byte runs, byte (b.fld SLOTMAP.DYNDARK r * 128), 0x00#8] ++
    (List.range 56).flatMap (fun i => if i < runs then beBytes 4 (b.fld (SLOTMAP.RUN.at i) r) else zeros 4) ++
    beBytes 4 (b.fld SLOTMAP.DNDARKHI r) ++ beBytes 4 (b.fld SLOTMAP.DNDARKLO r) ++
    beBytes 4 (b.fld SLOTMAP.UPDARKHI r) ++ beBytes 4 (b.fld SLOTMAP.UPDARKLO r)
  body ++ (beBytes 4 (crc32 body)).reverse

namespace Chip

/-! ### The packet stream (R182, R212, R224, R231) -/

/-- The tributary that the drop serves next, with `room` bytes of the packet stream left in the frame: the last frame of a drop that has
been disabled begins only items that it can carry whole (R212, R223). -/
def nextTrib (c : Chip) (d room : Nat) : Option Nat :=
  ((List.range 256).map (fun i => ((c.d d).served + 1 + i) % 256)).find? (fun t =>
    match (c.t t).dn with
    | it :: _ => it.dest == d && ((c.t t).closeDn || (c.on TRIB.VALID t && c.on TRIB.ENDN t)) &&
        (!(c.d d).closing || decide ((gfpBytes it.key it.data).length ≤ room))
    | [] => false)

/-- The next frame of the stream begins: a tributary's head item, or an idle frame.  A head whose first cell is
uncorrectable is discarded (R231). -/
def startPacket (c : Chip) (k : Clock) (d room : Nat) : Nat → Chip
  | 0 => c.onD d (fun x => { x with pkt := gfpIdle, pktItem := none })
  | n + 1 =>
    match c.nextTrib d room with
    | some t =>
      match (c.t t).dn with
      | it :: r =>
        let (bad, c) := c.readCells k (it.cells.take 1)
        if bad then ((c.setItems t false r).discardItem k it cCheck).startPacket k d room n
        else (c.setItems t false ({ it with begun := true } :: r)).onD d (fun x => { x with
          pkt := gfpBytes it.key it.data, pktItem := some { it with begun := true }, served := t })
      | [] => c.onD d (fun x => { x with pkt := gfpIdle, pktItem := none })
    | none => c.onD d (fun x => { x with pkt := gfpIdle, pktItem := none })

/-- Cells of the item in progress that the next `n` bytes of the stream enter are read (R231). [DEDUCED, log 46] -/
def readPacket (c : Chip) (k : Clock) (d n : Nat) : Chip :=
  let x := c.d d
  match x.pktItem with
  | some it =>
    let at_ := it.data.length - x.pkt.length
    let upTo := it.data.length - (x.pkt.length - n)
    let cells := (it.cells.drop (cellsFor at_)).take (cellsFor upTo - cellsFor at_)
    let cells := if at_ = 0 then cells.filter (fun y => y != it.cells.headD 0) else cells
    let (bad, c) := c.readCells k cells
    if bad && !it.bad then c.onD d (fun x => { x with pkt := spoilFcs x.pkt, pktItem := some { it with bad := true } }) else c
  | none => c

/-- The last byte of the frame in progress has been placed: the item ends (R148, R224, R231). -/
def endPacket (c : Chip) (k : Clock) (d : Nat) : Chip :=
  match (c.d d).pktItem with
  | some it =>
    let c := c.onD d (fun x => { x with pktItem := none })
    let c := c.setItems it.trib false ((c.items it.trib false).drop 1)
    let c := if c.shaded || (c.d d).ps == .held then c.discardItem k it cShade
      else if it.bad then c.discardItem k it cCheck
      else c.deliverItem k it
    c.dropHeads k it.trib (c.items it.trib false).length
  | none => c

/-- The next `n` bytes of the packet stream; `more` bytes of it follow them in the frame. -/
def takePacket (c : Chip) (k : Clock) (d more : Nat) : Nat → Nat → List Byte × Chip
  | 0, n => (zeros n, c)
  | fuel + 1, n =>
    if n = 0 then ([], c)
    else if (c.d d).pkt = [] then (c.startPacket k d (n + more) (c.mead.upsets.length + 1)).takePacket k d more fuel n
    else
      let m := min n (c.d d).pkt.length
      let c := c.readPacket k d m
      let got := (c.d d).pkt.take m
      let c := c.onD d (fun x => { x with pkt := x.pkt.drop m })
      let c := if (c.d d).pkt = [] then c.endPacket k d else c
      let (l, c) := c.takePacket k d more fuel (n - m)
      (got ++ l, c)

/-! ### The time-status message (R311, Table 12.2) -/

/-- The 18 data bytes. -/
def timeStatus (c : Chip) : List Byte :=
  let tod := vget c.dpll.chan 1 {}
  let code := match tod.st with
    | .free => 0 | .acq => 1 | .lock => 2 | .hold => 3 | .lost => 4
  [0x81#8, byte (bit (c.on TIME.TRACE 15 && tod.st == .lock) * 128 + c.lv TIME.UTCVALID 15 * 64 + c.lv TIME.LEAP61 15 * 32 +
    c.lv TIME.LEAP59 15 * 16 + code)] ++ beBytes 2 (c.lv TIME.UTCOFS 15) ++ [byte (c.lv TIME.CLASS 15), byte (c.st TIME.STEPS 0)] ++
  beBytes 2 (c.lv TIME.LEAPSECHI 15) ++ beBytes 4 (c.lv TIME.LEAPSECLO 15) ++ beBytes 4 (unsigned 32 c.tim.stepRem) ++ zeros 2

/-! ### The header (Table 7.2) -/

/-- The one-way delays that count for the tick that the present edge opens: the valid ones of the last 8 measured before it (R193). -/
def delaysFor (k : Clock) (x : Drop) : List Int :=
  ((x.delays.filter (fun m => decide (m.1 < k.edges))).take 8).filterMap (·.2)
/-- DELAY (R193): the mean of the valid delays.  A mean that DELAY cannot hold is a free value. [DESIGN CHOICE, log 30] -/
def delayNow (c : Chip) (k : Clock) (d : Nat) : Nat × Chip :=
  let l := delaysFor k (c.d d)
  if l = [] then (0xFFFFFFFF, c)
  else
    let n : Int := (l.length : Nat)
    let v := (2 * l.sum + n) / (2 * n)
    if 0 ≤ v ∧ v < 0xFFFFFFFF then (v.toNat, c)
    else
      let (f, c) := c.draw
      (f % 2 ^ 32, c)

/-- Header bytes 36 to 67 (R175, R186). -/
def mgmtBytes (c : Chip) (k : Clock) (d : Nat) : List Byte × Chip :=
  let x := c.d d
  if x.sm = .offered ∨ x.sm = .applyNext then
    let r := if x.genNext = x.genLive then c.useRow d else c.spareRow d
    (0x02#8 :: ((slotMessage c.heath.live r x.genNext).drop (31 * (k.ticks % 8))).take 31, c)
  else
    match x.txMch.piece 30 with
    | some (s, e, bs, m) =>
      (0x01#8 :: byte (bit s * 128 + bit e * 64 + bs.length) :: fit 30 bs, c.onD d (fun x => { x with txMch := m }))
    | none => (zeros 32, c)

/-- The header of the frame with DARK64 `dark`; DELAYNOW follows the headers that are sent (R195). -/
def composeHeader (c : Chip) (k : Clock) (d dark : Nat) : List Byte × Chip :=
  let (delay, c) := c.delayNow k d
  let (mg, c) := c.mgmtBytes k d
  let c := if c.dropSends d then c.setSt SLOTMAP.DELAYNOW (2 * d + 1) delay else c
  let x := c.d d
  let offering := x.sm = .offered ∨ x.sm = .applyNext
  let body := beBytes 4 (c.lineTick k) ++ beBytes 6 k.sec ++ beBytes 2 k.tickSec ++ beBytes 4 delay ++
    [byte x.genLive, byte (if offering then x.genNext else x.genLive),
     byte (if x.sm = .offered then 1 else if x.sm = .applyNext then 2 else 0), byte (bit (x.rx != .sync) * 128 + x.rei)] ++
    beBytes 8 dark ++ mg ++ [byte x.mode, byte d] ++ zeros 6 ++ beBytes 2 x.txBip
  (beBytes 8 0x5E1CA39B71D40B6E ++ body ++ beBytes 2 (crc16 body), c.onD d (fun x => { x with rei := 0 }))

/-! ### The training frame (R204, R206, Table 8.3) -/

/-- TSTATE of the port states that send training frames. -/
def tstate : PState → Option Nat
  | .quietec => some 1 | .call => some 2 | .prep => some 3 | .probe => some 4 | .select => some 5
  | _ => none
/-- COUNT: ticks left in PREP, the probe tick, ticks left up to the superframe boundary that ends SELECT. -/
def trainCount (k : Clock) (x : Drop) : Nat :=
  match x.ps with
  | .prep => 3 - x.age
  | .probe => x.age
  | .select => (k.ticks - x.age + 11) / 8 * 8 - 1 - k.ticks
  | _ => 0
/-- Bytes 0 to 47 of the training frame of the tick; the rest of the frame carries zeros. -/
def trainFrame (c : Chip) (k : Clock) (d ts : Nat) : List Byte :=
  let x := c.d d
  let mode := if x.ps = .quietec then 1 else if x.ps = .probe then x.train.cand else baseMode d
  let next := if x.ps = .prep then x.train.cand else if x.ps = .select then x.train.chosen else 0
  let body := [byte ts, byte mode, byte next, byte (c.ownCaps d)] ++ beBytes 4 (c.lineTick k) ++
    [byte d, byte (c.st DROPSTAT.SNRUP d), byte (trainCount k x), 0x00#8] ++ zeros 26
  beBytes 8 0x3A6FC2159D80E74B ++ body ++ beBytes 2 (crc16 body)

/-! ### Regions (R179, R180) -/

/-- The sender has no packet item in progress for the drop and none waiting. -/
def packetIdle (c : Chip) (d : Nat) : Bool := (c.d d).pktItem.isNone && (c.nextTrib d (frameBytes (c.d d).mode)).isNone

/-- Block `b` of mode `m` lies in a region that `dark` marks. -/
def inDark (dark m b : Nat) : Bool := has dark (63 - (64 * (b - 3) - 1) / (blocksOf m - 4))
/-- DARK64 of the downstream frame (R180). -/
def darkMask (c : Chip) (d : Nat) (runs : List RunEnt) : Nat :=
  let m := (c.d d).mode
  let f := c.forced d m false
  let dyn := c.dynDark d
  let idle := c.packetIdle d
  (List.range 64).foldl (fun a r =>
    let quiet := ((List.range (regionLo m (r + 1) - regionLo m r)).map (fun i => regionLo m r + i)).all (fun b =>
      typeAt runs false b == tDark || (typeAt runs false b == tPacket && idle))
    if has f (63 - r) || (dyn && quiet) then a ||| 2 ^ (63 - r) else a) 0

/-! ### Payload blocks -/

/-- Blocks of a frame in mode `m` that come after block `b`. -/
def blocksAfter (m b : Nat) : List Nat := (List.range (blocksOf m - 1 - b)).map (· + b + 1)
/-- Bytes of the packet stream that the frame carries after block `b`. -/
def packetsAfter (c : Chip) (d : Nat) (runs : List RunEnt) (b : Nat) : Nat :=
  let x := c.d d
  20 * ((blocksAfter x.mode b).filter (fun i => typeAt runs false i == tPacket && !inDark x.dark x.mode i)).length
/-- The block is the first timing block of the frame, which carries the time-status message (R311). -/
def firstTiming (runs : List RunEnt) (m b : Nat) : Bool := (blocksAfter m 3).find? (fun i => typeAt runs false i == tTiming) == some b
/-- The drop's own content of block `b`: its type and bytes. -/
def localBlock (c : Chip) (k : Clock) (d : Nat) (runs : List RunEnt) (b : Nat) : Nat × List Byte × Chip :=
  match runAt runs false b with
  | none => (tDark, zeros 20, c)
  | some e =>
    if e.typ = tPacket then
      if (c.d d).ps = .listen then (tPacket, (List.replicate 5 gfpIdle).flatten, c)
      else
        let (bs, c) := c.takePacket k d (c.packetsAfter d runs b) 64 20
        (tPacket, bs, c)
    else if e.typ = tAudio then
      match c.feedOf d (e.chan + (b - e.start)) with
      | some f => (tAudio, audioBlock f.rate (c.lineTick k) f.samples, c)
      | none => (tAudio, audioBlock 3 (c.lineTick k) [], c)
    else if e.typ = tSensor then
      let (bs, m) := (c.d d).txSns.block e.start
      (tSensor, bs, c.onD d (fun x => { x with txSns := m }))
    else if e.typ = tTiming then
      if c.on TIME.TBDNEN 15 && firstTiming runs (c.d d).mode b then
        (tTiming, smallBlock true true c.timeStatus, if c.dropSends d then c.addSt TIME.TBSENT 15 1 else c)
      else (tTiming, smallBlock false false [], c)
    else if e.typ = tMgmt then
      let (bs, m) := (c.d d).txMbk.block e.start
      (tMgmt, bs, c.onD d (fun x => { x with txMbk := m }))
    else (tDark, zeros 20, c)

/-! ### What grooming wrote (R231, R239, R241, R243) -/

/-- The valid GROOM rows, while grooming is enabled; a row with an errored word makes no moves (R252). -/
def groomRows (c : Chip) : List Nat :=
  if c.on XBAR.GREN 0 then (List.range 1024).filter (fun r => c.on GROOM.VALID r && !c.liveBad 0x31 r) else []
/-- The cell and the half of it that hold a block in grooming buffer `buf` (`srcBuf`, `outBuf`). [DESIGN CHOICE, log 29] -/
def reserveHalf (buf d b : Nat) : Nat × Nat :=
  let n := Config.reserveSlot buf d b % 65536
  (sharedRows * 16 + n / 2, n % 2)
/-- An errored word lies in that half. -/
def inHalf (h : Nat × Nat) (u : CellUpset) : Bool := u.cell == h.1 && u.wrd / 4 == h.2
/-- The half is written afresh. -/
def writeHalf (c : Chip) (h : Nat × Nat) : Chip :=
  if c.mead.upsets.any (inHalf h) then c.onM (fun m => { m with upsets := m.upsets.filter (fun u => !inHalf h u) }) else c
/-- The half is read: corrected words are counted; an uncorrectable one makes its block absent (R231). -/
def readHalf (c : Chip) (k : Clock) (h : Nat × Nat) : Bool × Chip :=
  let hit := c.mead.upsets.filter (inHalf h)
  let one := (hit.filter (fun u => u.bits == 1)).length
  let two := hit.filter (fun u => u.bits == 2)
  let c := if hit = [] then c else c.onM (fun m => { m with
    eccCor := wrapAdd 32 m.eccCor one, eccUnc := wrapAdd 32 m.eccUnc two.length, fixedNow := m.fixedNow || one != 0 })
  (two != [], two.foldl (fun c _ => (c.srcEvent k (224 + h.1 % 16)).srcEvent k 212) c)
/-- The source buffer that the moves of tick `n` read, in a plane. -/
def srcBuf (n : Nat) (up : Bool) : Nat := n % 3 * 2 + bit up
/-- The output buffer that is sent in tick `n`. -/
def outBuf (n : Nat) : Nat := 6 + n % 2
/-- A source block is captured for the moves of tick `n` (R239). -/
def takeSource (c : Chip) (n : Nat) (up : Bool) (d b : Nat) : Chip :=
  if c.on XBAR.GREN 0 then c.writeHalf (reserveHalf (srcBuf n up) d b) else c

/-- Drop `d` frames groomed content: UP, or listening, where it composes what the lit part sends. -/
def groomsOut (c : Chip) (d : Nat) : Bool := (c.d d).ps == .up || (c.d d).ps == .listen
/-- `n` groomed blocks of drop `d` are not sent (R241): counted where the drop is UP. -/
def skipGroomed (c : Chip) (d n : Nat) : Chip :=
  if n ≠ 0 ∧ (c.d d).ps = .up then c.onM (fun m => { m with gSkip := wrapAdd 32 m.gSkip n }) else c
/-- Groomed blocks of the drop that its frame has no block for, or a dark one, and moves without a source there. -/
def lostGroomed (c : Chip) (d dark : Nat) : Nat :=
  let m := (c.d d).mode
  let out := fun (b : Nat) => decide (blocksOf m ≤ b) || inDark dark m b
  (c.mead.out.filter (fun g => g.drop == d && out g.blk)).length + (c.mead.absent.filter (fun g => g.1 == d && out g.2)).length

/-- Block `b` of the frame, in a lit region: what grooming wrote for it (R241, R243), or the drop's own content. -/
def litBlock (c : Chip) (k : Clock) (d : Nat) (runs : List RunEnt) (b : Nat) : (Nat × List Byte) × Chip :=
  let typ := typeAt runs false b
  let own := fun (c : Chip) =>
    let (t, bs, c) := c.localBlock k d runs b
    ((t, bs), c)
  match c.mead.out.find? (fun g => g.drop == d && g.blk == b) with
  | some g =>
    let (bad, c) := c.readHalf k (reserveHalf (outBuf k.ticks) d b)
    if g.typ == typ && c.groomsOut d && !bad then
      let past := typ == tAudio && (match runAt runs false b with
        | some e => (c.feedOf d (e.chan + (b - e.start))).isSome
        | none => false)
      ((typ, g.bytes), if (c.d d).ps = .up then c.onM (fun m => { m with
        gMoved := wrapAdd 32 m.gMoved 1, gOver := if past then wrapAdd 32 m.gOver 1 else m.gOver }) else c)
    else own (c.skipGroomed d 1)
  | none => own (c.skipGroomed d (bit (c.mead.absent.contains (d, b))))
/-- Block `b` of the frame; dark in a dark region. -/
def composeBlock (c : Chip) (k : Clock) (d b : Nat) : (Nat × List Byte) × Chip :=
  let runs := c.liveRuns d
  let x := c.d d
  if inDark x.dark x.mode b then ((typeAt runs false b, zeros 20), c) else c.litBlock k d runs b

/-! ### The frame -/

/-- Cycle index by which block `b` of a frame in mode `m` is composed. [DESIGN CHOICE, log 39] -/
def blockDue (m b : Nat) : Nat := b * Config.tickCycles / blocksOf m
/-- The frame of drop `d` for the tick begins: its regions are judged and its header composed (R168, R180). -/
def openFrame (c : Chip) (k : Clock) (d : Nat) : Chip :=
  let dark := c.darkMask d (c.liveRuns d)
  let (hdr, c) := c.composeHeader k d dark
  let c := c.onD d (fun x => { x with header := hdr, laid := [], next := 4, dark := dark })
  (c.countUp DROPSTAT.DNDARKR d (bitsIn 64 dark).length).skipGroomed d (c.lostGroomed d dark)
/-- Parity of the frame that drop `d` has composed (R174). -/
def frameParity (x : Drop) : Nat :=
  (((blocksAfter x.mode 3).zip x.laid.reverse).foldl (fun (s : Scr) p =>
    s.run (inDark x.dark x.mode p.1) p.2.2) (({} : Scr).run false (x.header.drop 8))).acc
/-- The frame is whole. -/
def closeFrame (c : Chip) (k : Clock) (d : Nat) : Chip :=
  c.onD d (fun x => { x with
    txBip := frameParity x, frame := x.laid.reverse, frameTick := k.ticks, frameUp := x.ps == .up || x.ps == .listen,
    laid := [], next := 0 })
/-- Places one block. -/
def placeBlock (c : Chip) (k : Clock) (d : Nat) : Chip :=
  let b := (c.d d).next
  let (blk, c) := c.composeBlock k d b
  (c.takeSource (k.ticks + 1) false d b).onD d (fun x => { x with laid := blk :: x.laid, next := x.next + 1 })
/-- Places the blocks that are due by cycle index `i`. -/
def fillFrame (c : Chip) (k : Clock) (d i : Nat) : Nat → Chip
  | 0 => c
  | n + 1 =>
    let x := c.d d
    if x.next = 0 then c
    else if blocksOf x.mode ≤ x.next then c.closeFrame k d
    else if i < blockDue x.mode x.next then c
    else (c.placeBlock k d).fillFrame k d i n
/-- The drop frames up to the present edge. -/
def framesPass (c : Chip) (k : Clock) : Chip :=
  overN 96 (fun d c => if (c.d d).next = 0 then c else c.fillFrame k d k.idx 2001) c

/-- Drop `d` composes drop frames: one that is UP or awaits SYNC, one that listens, for grooming, and one that the shade holds, which keeps
its schedule (R224). -/
def framesOut (c : Chip) (d : Nat) : Bool :=
  let x := c.d d
  x.ps == .up || (x.ps == .select && x.awaiting) || x.ps == .listen || (x.ps == .held && decide (c.twin.role ≠ .shadow))
/-- The part leaves cycle index 0: every drop begins the frame of the tick, a drop frame or a training frame. [DESIGN CHOICE, log 39] -/
def leaveBoundary (c : Chip) (k : Clock) : Chip :=
  overN 96 (fun d c =>
    let x := c.d d
    if x.mode = 0 then
      match tstate x.ps with
      | some ts => c.onD d (fun x => { x with header := c.trainFrame k d ts, laid := [], next := 0 })
      | none => c
    else if c.framesOut d then c.openFrame k d
    else c) c

/-! ### The line (R167, R170, R171, R204) -/

/-- Bytes scrambled from register `r` on. -/
def scrBytes : Nat → List Byte → List Byte
  | _, [] => []
  | r, b :: l =>
    let (q, r) := scrByte r
    (b ^^^ byte q) :: scrBytes r l
/-- A frame as it goes to the line: its word unscrambled, the rest scrambled. -/
def scrFrame (bs : List Byte) : List Byte := bs.take 8 ++ scrBytes (2 ^ 23 - 1) (bs.drop 8)
/-- The drop's pin carries these bytes of the tick's frame so far: the header and the blocks placed, or a whole training frame, whose
bytes from 48 on are zeros before the scrambler; nothing where the drop does not transmit. -/
def dropLine (c : Chip) (d : Nat) : List Byte :=
  let x := c.d d
  if !c.dropSends d then []
  else if x.header.length = 48 then scrFrame (fit (frameBytes (byteAt x.header 9)) x.header)
  else scrFrame (x.header ++ ((if x.next = 0 then x.frame else x.laid.reverse).flatMap (·.2)))
/-- The bits of bytes, each most significant first. -/
def lineBits (bs : List Byte) : List Bool := bs.flatMap (fun b => (List.range 8).map (fun i => b.getLsbD (7 - i)))
/-- PAM-4 levels of a bit sequence: each pair a Gray-coded symbol. -/
def pam4Levels : List Bool → List Int
  | a :: b :: r => (if a then (if b then 1 else 3) else (if b then -1 else -3)) :: pam4Levels r
  | _ => []
/-- The symbols of bytes in a line code; in NRZ 1 is the high level (R167). -/
def lineSymbols (code : LineCode) (bs : List Byte) : List Int :=
  match code with
  | .nrz => (lineBits bs).map (fun b => if b then 1 else 0)
  | .pam4 => pam4Levels (lineBits bs)

end Chip

end Sys2Proof.Machine
end

