-- ==== Sys2Proof/Machine/PowerOps.lean ====
section
/-! DEFINITION. What the power manager's blocks are needed for (R417), the state in which they rest, and the wakes of a commit request. -/

namespace Sys2Proof.Machine

/-- Blocks that NIGHT can take: every block but the meadow bank arrays and the grooming engine. -/
def nightBlocks : List Nat := List.range 209

/-- Port states in which a drop's receiver runs. -/
def PState.hears : PState → Bool
  | .off | .wait | .held => false
  | _ => true

namespace Chip

/-- A drop enters SILENT at the next boundary under bank `b` (R417). -/
def silentNext (c : Chip) (b : Bank) (d : Nat) : Bool :=
  let x := c.d d
  let en := b.fld DROP.EN d == 1
  (x.ps == .off && en) || x.retrain.isSome || (x.ps == .wait && decide (c.lv DROP.RETRYGAP d ≤ x.age + 1))

/-- Bank `b` needs block `i` in the next tick (R417, Table 16.2). -/
def needs (c : Chip) (b : Bank) (i : Nat) : Bool :=
  if blkUpTx i then b.fld UPL.MODE i != 0
  else if blkUpRx i then b.fld UPL.MODE (i - 4) != 0
  else if blkDropTx i then
    let x := c.d (i - 8)
    (x.ps.sends || (x.ps == .silent && decide (7 ≤ x.age))) && !c.txMuted (i - 8) && b.fld DROP.EN (i - 8) == 1 && x.retrain.isNone ||
      (x.ps == .listen && c.st TWIN.ARMED 0 == 1)
  else if blkDropRx i then
    let d := i - 104
    ((c.d d).ps.hears && b.fld DROP.EN d == 1) || c.silentNext b d
  else if blkAudio i then b.fld AUDIO.RXEN (i - 200) == 1 || b.fld AUDIO.TXEN (i - 200) == 1
  else if blkTwin i then b.fld TWIN.PAIREN 0 == 1
  else true

/-- The state in which block `i` rests for a whole tick that does not need it: NIGHT, or DUSK under NIGHTDIS (R421). -/
def nightState (c : Chip) : PwrState := if c.on POWER.NIGHTDIS 0 then .dusk else .night

/-- The state that the shade gives a transmitter that is not planned for NIGHT (R405, R433, R435). [DEDUCED, log 66] -/
def shadeRest (c : Chip) (b : Nat) : PwrState :=
  if c.twin.role = .shadow then
    (if blkUpTx b || c.on DROP.PAIRED (b - 8) then (if c.st TWIN.ARMED 0 = 1 then .dusk else .night) else .night)
  else .dark
/-- The state of block `b` on a tick-boundary edge. [DEDUCED, log 66] -/
def boundaryState (c : Chip) (b : Nat) (s : PwrState) : PwrState :=
  let need := c.needs c.heath.live b
  if c.pow.wake.any (fun w => w.1 == b) then s
  else if c.pow.holdLit then (if c.enabled b then .lit else s)
  else if c.pow.plan.any (fun l => l.contains b) && !need then c.nightState
  else if s = .night then s
  else if c.shaded && (blkUpTx b || blkDropTx b) then (if c.keptLit b then s else c.shadeRest b)
  else if s = .dark ∨ ((s = .dim ∨ s = .dusk) ∧ need = true ∧ blkBank b = false ∧ (blkGroom b = false ∨ c.on XBAR.GREN 0 = true)) then .lit
  else s
/-- Every block as a tick opens (R96); the plan is spent. -/
def blocksTick (c : Chip) : Chip :=
  let new := (List.range 226).filterMap (fun b => let s := c.boundaryState b (c.blk b); if s = c.blk b then none else some (b, s))
  (new.foldl (fun c x => c.setBlk x.1 x.2) c).onPow (fun p => { p with plan := none, heldLit := p.holdLit, holdLit := false })

/-- The wakes that a commit request begins (R418). -/
def commitWake (c : Chip) (k : Clock) : Chip :=
  let bank := c.heath.staged
  nightBlocks.foldl (fun a i => if c.needs bank i && c.blk i != .lit then a.beginWake i k.evc else a) c

end Chip

end Sys2Proof.Machine
end

