-- ==== Sys2Proof/Machine/RoleOps.lean ====
section
/-! DEFINITION. Role requests (R395, R401, R402, R408) and the twin status fields that follow the role. -/

namespace Sys2Proof.Machine

/-- RQRES codes (Table 15.5). -/
def rqGranted : Nat := 0
def rqNopair : Nat := 1
def rqPeerlit : Nat := 2
def rqLost : Nat := 3
def rqIdclash : Nat := 4
def rqNotready : Nat := 5
def rqLinkdown : Nat := 6
def rqShade : Nat := 7
def rqLitleave : Nat := 8
def rqBusy : Nat := 9

namespace Chip

/-- CAUSE.REQ: it sets ICAUSE.TWIN whatever CAUSEEN[6] holds (R408). -/
def reqCause (c : Chip) (k : Clock) : Chip := (c.orSt TWIN.CAUSE 0 64).icause k 13
/-- The pending request is settled with a code (R408). -/
def settleReq (c : Chip) (k : Clock) (code : Nat) : Chip :=
  ((c.onTwin (fun t => { t with req := none })).setSt TWIN.RQRES 0 code).reqCause k

/-- A role request written through WCTL.ROLEREQ (R408): 1 claim lit, 2 yield, 3 leave. -/
def roleRequest (c : Chip) (k : Clock) (req : Nat) : Chip :=
  let t := c.twin
  let linkUp := c.st TWIN.LINKUP 0 == 1
  if t.role = .solo then c.settleReq k (if req = 3 then rqGranted else rqNopair)
  else if t.req.isSome then (c.setSt TWIN.RQRES 0 rqBusy).reqCause k
  else if t.role = .shadow then
    if req = 1 then
      if c.col.shade then c.settleReq k rqShade
      else if c.st TWIN.ARMED 0 = 1 then
        if !linkUp then c.settleReq k rqLinkdown
        else c.onTwin (fun t => { t with req := some (.handover k.pos none) })
      else if t.peer then c.settleReq k rqPeerlit
      else (c.onTwin (fun t => { t with req := some (.tentative (k.evc + 4096)) })).syncClaim k
    else if req = 2 then c.settleReq k rqGranted
    else c.onTwin (fun t => { t with req := some .leave, soloDue := true })
  else
    if req = 1 then c.settleReq k rqGranted
    else if req = 2 then
      if !linkUp then c.settleReq k rqLinkdown
      else if !t.peerArmed then c.settleReq k rqNotready
      else c.onTwin (fun t => { t with req := some (.handover k.pos none) })
    else c.settleReq k rqLitleave

/-- The peer's claim as the part reads it (PEERI). [DESIGN CHOICE, log 52] -/
def setPeer (c : Chip) (l : Bool) : Chip := (c.onTwin (fun t => { t with peer := l })).setSt TWIN.PEERI 0 (bit l)

end Chip

end Sys2Proof.Machine
end

