-- ==== Sys2Proof/Machine/ApplyOps.lean ====
section
/-! DEFINITION. What the apply edge of a commit does (R96): every block takes up the new live bank, on a boundary edge.  `old` is
the live bank before it. -/

namespace Sys2Proof.Machine

namespace Chip

/-- Rows of table `t` listed before or now: no other row can differ. -/
def touched (c : Chip) (old : Bank) (t : Nat) : List Nat :=
  (old.rows t).foldl (fun l r => insertSorted r l) (c.heath.live.rows t)
/-- `f` done for each of the rows. -/
def forRows (c : Chip) (rows : List Nat) (f : Nat → Chip → Chip) : Chip := rows.foldl (fun c r => f r c) c

/-! ### Fault collector (R361, R366, R370, R375) -/

/-- A change of a group's live MODE: its history is emptied and its latch re-armed (R370). -/
def grpMode (c : Chip) (old : Bank) (g : Nat) : Chip :=
  if old.fld FGRP.MODE g = c.lv FGRP.MODE g then c
  else ((overN 16 (fun i c => c.setSt FHIST.VALID (16 * g + i) 0) c).setSt FGRP.NEXT g 0).rearm g
/-- A change of a source's classification opens a new window (R375). -/
def srcWindow (c : Chip) (k : Clock) (old : Bank) (s : Nat) : Chip :=
  let ne := fun (f : Fld) => old.fld f s != c.lv f s
  if ne FSRC.SEV || ne FSRC.CLASS || ne FSRC.N || ne FSRC.W then c.openWindow k s else c
/-- FLT of source `s` clears on the apply edge: its SEV became NOTE or OFF, or its group's CLRSEQ changed while it may be cleared
(R361, R375). -/
def appliedClear (c : Chip) (k : Clock) (old : Bank) (s : Nat) : Bool :=
  (old.fld FSRC.SEV s != c.lv FSRC.SEV s && decide (c.lv FSRC.SEV s < 2) && c.col.flt.contains s) ||
    (old.fld FGRP.CLRSEQ (grpOf s) != c.lv FGRP.CLRSEQ (grpOf s) && c.clearable k s)
/-- A level source whose condition is present leaves OFF: an event on the apply edge (R375). -/
def appliedRise (c : Chip) (old : Bank) (s : Nat) : Bool :=
  old.fld FSRC.SEV s == 0 && c.lv FSRC.SEV s != 0 && c.col.cond.contains s
/-- A change of CLRSEQ re-arms the latch, and clears RECRUN in group 23 (R359, R361). -/
def grpRearm (c : Chip) (old : Bank) (g : Nat) : Chip :=
  if old.fld FGRP.CLRSEQ g = c.lv FGRP.CLRSEQ g then c
  else if g = 23 then (c.rearm g).setSt FGRP.RECRUN 23 0 else c.rearm g
/-- A change of INJSEQ arms an injection (R366). -/
def injApply (c : Chip) (k : Clock) (old : Bank) : Chip :=
  if old.fld FGRP.INJSEQ 23 = c.lv FGRP.INJSEQ 23 then c
  else (c.onCol (fun x => { x with inj := some (c.lv FGRP.INJTGT 23, c.lv FGRP.INJMODE 23, k.edges) })).setSt FGRP.INJARM 23 1
/-- The collector at the apply edge: latches re-armed and FLT cleared first, then the entries of the edge in ascending source number,
for one source CLEAR before RAISE or NOTE, and FAULT_N and the shade as the edge leaves them (R359 to R361, R364, R375). -/
def colApply (c : Chip) (k : Clock) (old : Bank) : Chip :=
  let gs := c.touched old 0x61
  let ss := c.touched old 0x60
  let c := c.forRows gs (fun g c => (c.grpMode old g).grpRearm old g)
  let c := c.forRows ss (fun s c => c.srcWindow k old s)
  let all := (gs.flatMap grpSrcs).foldl (fun l s => insertSorted s l) ss
  let clears := all.filter (fun s => c.appliedClear k old s)
  let rises := ss.filter (fun s => c.appliedRise old s)
  let c := c.forRows clears (fun s c => c.putFlt s false)
  let c := c.forRows all (fun s c =>
    let c := if clears.contains s then c.cleared k s else c
    if rises.contains s then c.srcEvent k s else c)
  let c := (c.syncFaultN k).syncShade k 0
  c.injApply k old

/-! ### Host queues (R258, R262, R269) -/

/-- Live configuration names upward queue `q` for the producer. -/
def namesUp (c : Chip) (kind unit q : Nat) : Bool :=
  match kind with
  | 0 => c.on DROP.MCHUEN unit && c.lv DROP.MCHUQ unit == q
  | 1 => c.on DROP.MBKUEN unit && c.lv DROP.MBKUQ unit == q
  | 2 => c.on DROP.SNSUEN unit && c.lv DROP.SNSUQ unit == q
  | 3 => c.on UPL.GCCUPEN unit && c.lv UPL.GCCQU unit == q
  | 4 => c.on TRIB.CNTEN unit && c.lv TRIB.CNTQ unit == q
  | 5 => c.on XBAR.XRECEN 0 && c.lv XBAR.XRECQ 0 == q
  | 6 => c.on QUEUE.FRDIS q || c.on QUEUE.FRTKO q
  | _ => if unit < 0x80 then c.on TIME.TBUEN 1 && c.lv TIME.TBQU 1 == q else c.on TIME.TQUEN 1 && c.lv TIME.TQU 1 == q
/-- The message of a consumer that comes from downward queue `q` is forgotten. -/
def dropTx (c : Chip) (q : Nat) : Chip :=
  let f := fun (m : TxMsg) => if m.busy && m.queue == q then ({} : TxMsg) else m
  overN 4 (fun u c => c.onU u (fun x => { x with gcc := f x.gcc }))
    (overN 96 (fun d c => c.onD d (fun x => { x with txMch := f x.txMch, txMbk := f x.txMbk, txSns := f x.txSns })) c)
/-- A change of EN, BASE or SIZE flushes the queue (R269). -/
def queApply (c : Chip) (k : Clock) (old : Bank) (i : Nat) : Chip :=
  if old.read (hAddr 0x38 i 0) = c.heath.live.read (hAddr 0x38 i 0) then c
  else
    let c := if 8 ≤ i ∧ (c.q i).begun = true then c.dropTx (i - 8) else c
    c.qFlush k i true
/-- Open items of a producer that no longer names the queue are rewound (R258). -/
def queProducers (c : Chip) (k : Clock) (i : Nat) : Chip :=
  let gone := (c.q i).opens.filter (fun o => !c.namesUp o.kind o.unit i)
  if gone = [] then c
  else (c.onQ i (fun x => { x with opens := x.opens.filter (fun o => !gone.contains o) })).qRewounds k i gone.length
/-- The queues at the apply edge. [DEDUCED, log 55] -/
def quesApply (c : Chip) (k : Clock) (old : Bank) : Chip :=
  overN 8 (fun i c => c.queProducers k i) (c.forRows (c.touched old 0x38) (fun i c => c.queApply k old i))

/-! ### Uplinks and tributaries (R131, R162) -/

/-- The uplink that stands for `u` in TRIB.UPL and in its items: the working uplink of a protected pair (R161). -/
def workingOf (c : Chip) (u : Nat) : Nat := if c.lv APS.MODE (u / 2) = 0 then u else u / 2 * 2
/-- Uplink `u` is switched on in a bank. -/
def uplOn (b : Bank) (u : Nat) : Bool := b.fld UPL.MODE u != 0 && b.fld UPL.TXEN u == 1
/-- Uplink `u` at the apply edge. -/
def uplinkApply (c : Chip) (k : Clock) (old : Bank) (u : Nat) : Chip :=
  let c := c.uplApply k old u
  let w := c.workingOf u
  let now := uplOn c.heath.live w || (w != u && uplOn c.heath.live u) || (c.lv APS.MODE (u / 2) != 0 && uplOn c.heath.live (w + 1))
  if uplOn old u && !uplOn c.heath.live u && !now then c.onU w (fun x => { x with closing := true })
  else if now then c.onU w (fun x => { x with closing := false })
  else c
/-- Tributary `t` at the apply edge: a direction switched off ends the item that it is receiving, and offers its whole items for one more
tick (R162). -/
def tribApply (c : Chip) (k : Clock) (old : Bank) (t : Nat) : Chip :=
  let was := fun (f : Fld) => old.fld TRIB.VALID t == 1 && old.fld f t == 1
  let now := fun (f : Fld) => c.on TRIB.VALID t && c.on f t
  let mine := fun (it : Option Item) => it.any (fun i => i.trib == t)
  let c := if now TRIB.ENDN then c else overN 4 (fun u c => if mine (c.u u).rx then c.endRx k u cDisabled else c) c
  let c := if now TRIB.ENUP then c else overN 96 (fun d c => if mine (c.d d).rxItem then c.endUp k d cDisabled else c) c
  c.onT t (fun x => { x with
    closeDn := !now TRIB.ENDN && (x.closeDn || was TRIB.ENDN)
    closeUp := !now TRIB.ENUP && (x.closeUp || was TRIB.ENUP) })

/-! ### Drops and slot maps (R188, R191, R214, R215, R223) -/

/-- Messages in progress on queues that word 3 of the DROP row no longer names (R258, R262). -/
def dropQueues (c : Chip) (k : Clock) (old : Bank) (d : Nat) : Chip :=
  let ne := fun (en f : Fld) => old.fld en d != c.lv en d || old.fld f d != c.lv f d
  let x := c.d d
  let c := if ne DROP.MCHUEN DROP.MCHUQ then c.setRxOpen d 0 none else c
  let c := if ne DROP.MBKUEN DROP.MBKUQ then c.setRxOpen d 1 none else c
  let c := if ne DROP.SNSUEN DROP.SNSUQ then c.setRxOpen d 2 none else c
  let c := if ne DROP.MCHDEN DROP.MCHDQ && x.txMch.busy then
      (c.qReturn k (8 + x.txMch.queue)).onD d (fun x => { x with txMch := {} }) else c
  let c := if ne DROP.MBKDEN DROP.MBKDQ && x.txMbk.busy then
      (c.qReturn k (8 + x.txMbk.queue)).onD d (fun x => { x with txMbk := {} }) else c
  if ne DROP.SNSDEN DROP.SNSDQ && x.txSns.busy then
    (c.qReturn k (8 + x.txSns.queue)).onD d (fun x => { x with txSns := {} }) else c
/-- Upstream timing messages in progress as TBQU or TBUEN changes: their remaining bytes are discarded (R258, R312). -/
def timingApply (c : Chip) (old : Bank) : Chip :=
  if old.fld TIME.TBUEN 1 = c.lv TIME.TBUEN 1 ∧ old.fld TIME.TBQU 1 = c.lv TIME.TBQU 1 then c
  else overN 96 (fun d c => c.setRxOpen d 7 none) c
/-- The state in which drop `d` starts when it is enabled, or when the part's role or shade changes it. [DEDUCED, log 16] -/
def startDrop (c : Chip) (k : Clock) (d : Nat) : Chip :=
  if c.twin.role = .shadow then (if c.on DROP.PAIRED d then c.enterListen k d else c.enterHeld k d)
  else if c.shaded then c.enterHeld k d else c.enterSilent k d
/-- Drop `d` at the apply edge. -/
def dropApply (c : Chip) (k : Clock) (old : Bank) (d : Nat) : Chip :=
  let ne := fun (f : Fld) => old.fld f d != c.lv f d
  let c := c.dropQueues k old d
  let en := c.on DROP.EN d
  let c := if ne DROP.EN then
      if en then
        let c := (if (c.d d).ps = .off then c else c.enterOff k d).startDrop k d
        if (c.d d).barrier then (c.onD d (fun x => { x with barrier := false })).setDropDef k d eISO true else c
      else if (c.d d).ps = .up ∧ c.shaded = false then
        ((c.endUp k d cDisabled).leaveSync k d).onD d (fun x => { x with closing := true, age := 0, retrain := none })
      else (c.enterOff k d).disposeDrop k d
    else if !en then c
    else if c.twin.role = .shadow then (if ne DROP.PAIRED then c.startDrop k d else c)
    else if (ne DROP.MODE || ne DROP.MINMODE || ne DROP.TRAINSEQ) && (c.d d).ps == .up then
      c.onD d (fun x => { x with retrain := some k.ticks })
    else c
  c.syncDropSrc k d
/-- The slot map of drop `d` at the apply edge (R188 step 1, R191).  An offer that a command of this edge has moved to apply-next was
offered at the verdict, which rejects the commit otherwise (R196): the withdrawal wins (R198). -/
def slotApply (c : Chip) (k : Clock) (old : Bank) (d : Nat) : Chip :=
  let r := c.spareRow d
  let moved := (List.range 61).any (fun w => old.read (hAddr 0x22 r w) != c.heath.live.read (hAddr 0x22 r w))
  let was := old.fld SLOTMAP.OFFER r == 1
  let now := c.on SLOTMAP.OFFER r
  let sm := (c.d d).sm
  if now && (moved || !was) then c.triggerOffer d
  else if was && !now && sm != .idle then c.withdrawOffer k d
  else c

/-! ### Power (R420) -/

/-- Blocks that satisfy `p` and that the live bank needs wake late (R420). [DESIGN CHOICE, log 64] -/
def wakeLate (c : Chip) (k : Clock) (p : PwrState → Bool) : Chip :=
  let late := nightBlocks.filter (fun i => p (c.blk i) && c.needs c.heath.live i)
  if late = [] then c
  else
    let c := late.foldl (fun c i =>
      let c := c.beginWake i k.evc
      if blkUpRx i then c.onU (i - 4) (fun x => { x with start := k.ticks + 1 }) else c) c
    ((c.addSt POWER.WAKELATE 0 late.length).cause k .power 0 4).onPow (fun p => { p with lateNow := true })

/-- Blocks that the bank just made live needs and that are not yet LIT wake late. -/
def lateWakes (c : Chip) (k : Clock) : Chip := c.wakeLate k (fun s => s != .lit)
/-- Blocks in NIGHT that a part needs as it lights wake late (R435). -/
def nightLate (c : Chip) (k : Clock) : Chip := c.wakeLate k (fun s => s == .night)

/-! ### Everything -/

/-- Every block takes up the live bank on the present boundary edge (R96): `step` lets a changed STEPSEQ request a step, `first`
makes the DPLL channels choose afresh, and `was` tells whether the part was shaded before the edge's change of role and shade. -/
def applyBank (c : Chip) (k : Clock) (old : Bank) (step first was : Bool) : Chip :=
  let c := (c.quesApply k old).colApply k old
  let c := overN 4 (fun u c => c.uplinkApply k old u) c
  let c := overN 2 (fun p c => c.apsApply k old p) c
  let c := c.forRows (c.touched old 0x12) (fun t c => c.tribApply k old t)
  let c := c.forRows (c.touched old 0x20) (fun d c => c.dropApply k old d)
  let c := if c.twin.role = .shadow then c
    else c.forRows ((c.touched old 0x22).foldl (fun l r => insertSorted (r / 2) l) []) (fun d c => c.slotApply k old d)
  let c := c.forRows (c.touched old 0x40) (fun p c => c.audioApply k old p)
  let c := (c.timeApply k old step).dpllApply k old first
  let c := c.timingApply old
  (((c.reshade k was).dropAllHeads k).lateWakes k).syncPools k

end Chip

end Sys2Proof.Machine
end

