-- ==== Sys2Proof/Machine/TwinOps.lean ====
section
/-! DEFINITION. The twin engine (chapter 15): the link, mirrored banks, descriptors and copies, changes of role, and what a
takeover makes of every item. -/

namespace Sys2Proof.Machine

/-- SIREV, SCHEMA and protocol version of the part's own compatibility word (R384). -/
def ownCompat : Nat := 0x0101
/-- Words of a full bank copy at most (R387), and words that cross in a tick. -/
def fullBank : Nat := 24576
def tickWordsMax : Nat := 12288

/-- A live bank with mirrored runs written into it: the TWIN table is never mirrored (R387). [DESIGN CHOICE, log 75] -/
def withRuns (b : Bank) (runs : List BankRun) : Bank :=
  runs.foldl (fun b r =>
    match wordSpec r.1 with
    | some s => if s.kind = .st ∧ tabOf r.1 ≠ 0x70 then b.write r.1 (r.2 &&& s.mask) else b
    | none => b) b
/-- The words of a bank whose table satisfies `p`. -/
def keepTabs (b : Bank) (p : Nat → Bool) : Bank := b.filter (fun x => p (tabOf x.1))

namespace Chip

/-! ### Status of the link and of the pair -/

/-- A status field of TWIN takes a value; a change sets CAUSE bit `n`. -/
def setTwn (c : Chip) (k : Clock) (f : Fld) (v n : Nat) : Chip :=
  if c.st f 0 = v then c else (c.setSt f 0 v).cause k .twin 0 (2 ^ n)
/-- The last compatibility word received matches the part's own (R384). -/
def compatible (c : Chip) : Bool :=
  let w := c.st TWIN.PEERCOMPAT 0
  c.twin.heard && w / 2 ^ 16 == ownCompat && w % 2 != c.twin.id
/-- Both parts carry one TWN_ID, as PEERCOMPAT shows (R384, R395). -/
def sameId (c : Chip) : Bool := c.twin.heard && c.st TWIN.PEERCOMPAT 0 % 2 == c.twin.id
/-- What arming needs (R380). -/
def armable (c : Chip) : Bool :=
  decide (c.twin.role = .shadow) && c.st TWIN.LINKUP 0 == 1 && c.st TWIN.COMPATOK 0 == 1 && c.st TWIN.PEERROLE 0 == 1 &&
    c.twin.fullCopy && decide (c.twin.attach = .done) && !c.col.shade
/-- The condition sources of Table 15.6, and ARMED where its conditions have failed. -/
def syncTwin (c : Chip) (k : Clock) : Chip :=
  let t := c.twin
  let pair := c.on TWIN.PAIREN 0
  let c := if c.armable then c else c.disarm k
  let c := c.setCond k 272 (pair && c.st TWIN.LINKUP 0 == 0)
  let c := c.setCond k 273 (t.carry && t.heard && !c.compatible)
  let c := c.setCond k 274 (decide (t.role = .lit) && pair && !t.peerArmed)
  let c := c.setCond k 276 (decide (4 < c.st TWIN.BANKLAG 0) || t.digestBad)
  c.setCond k 277 (c.st TWIN.ARMED 0 == 1 && decide (8 ≤ t.farTicks.hi))
/-- An attach begins where the part is shadow and its peer reports lit over a compatible link (R394). -/
def tryAttach (c : Chip) : Chip :=
  if c.twin.role = .shadow ∧ c.st TWIN.LINKUP 0 = 1 ∧ c.st TWIN.COMPATOK 0 = 1 ∧ c.st TWIN.PEERROLE 0 = 1 ∧
      c.twin.attach = .none then
    c.onTwin (fun t => { t with attach := .copy, fullCopy := false, lastStep := none, lastSeq := none, gaps := [] })
  else c
/-- The attach in progress, or made, is void. -/
def endAttach (c : Chip) : Chip := c.onTwin (fun t => { t with attach := .none, fullCopy := false })
/-- A compatibility word arrives (R384): a new one that differs in bit 0 alone, or a new mismatch, is judged. -/
def takeCompat (c : Chip) (k : Clock) (w : Word) : Chip :=
  let new := !c.twin.heard || c.st TWIN.PEERCOMPAT 0 != w.toNat
  let c := (c.onTwin (fun t => { t with heard := true, carry := true })).setSt TWIN.PEERCOMPAT 0 w.toNat
  let c := c.setTwn k TWIN.COMPATOK (bit c.compatible) 2
  if new ∧ w.toNat / 2 ^ 16 = ownCompat ∧ c.sameId = true then c.srcEvent k 278 else c
/-- The link goes down (R383). -/
def linkDown (c : Chip) (k : Clock) : Chip :=
  let c := (c.setTwn k TWIN.LINKUP 0 1).setTwn k TWIN.PEERROLE 0 7
  let c := c.endAttach.onTwin (fun t => { t with peerArmed := false })
  (c.refRole k).syncTwin k

/-! ### Descriptors and copies (R387, R391 to R393) -/

/-- EVC, on the part's own grid, of a cycle index of a line tick (R386, R391). -/
def lineEvc (c : Chip) (k : Clock) (lineTick idx : Nat) : Nat :=
  ((k.evc : Int) - (k.idx : Int) - signed 32 (c.ticksAgo k lineTick) * 125000 + (idx : Int)).toNat
/-- Unmatched copies that have fallen more than 8,192 cycles before the horizon are discarded under SHADE (R391). -/
def sweepCopies (c : Chip) (k : Clock) : Chip :=
  let old := fun (it : Item) => it.seq.isNone && decide (it.comAt + 8192 < c.twin.horizon)
  overN 256 (fun t c => [false, true].foldl (fun c up =>
    let gone := (c.items t up).filter old
    if gone = [] then c
    else gone.foldl (fun c it => c.discardItem k it cShade) (c.setItems t up ((c.items t up).filter (fun it => !old it)))) c) c
/-- The horizon moves on to EVC `e`, unless a gap stands before it (R392, R393). -/
def setHorizon (c : Chip) (k : Clock) (e : Nat) : Chip :=
  if c.twin.gaps = [] then (c.onTwin (fun t => { t with horizon := max t.horizon e })).sweepCopies k else c
/-- A gap of descriptors up to SEQ `last` is seen (R393). -/
def sawGap (c : Chip) (k : Clock) (last : Nat) : Chip :=
  ((c.onTwin (fun t => { t with gaps := t.gaps ++ [last], lossNow := true })).setSt TWIN.MIRLOSS 0 1).cause k .twin 0 16
/-- SEQ `s` is next, or a gap lies before it. [DEDUCED, log 74] -/
def takeSeq (c : Chip) (k : Clock) (s : Nat) : Chip :=
  let c := match c.twin.lastSeq with
    | some l => if s = (l + 1) % 2 ^ 32 then c else c.sawGap k ((s + 2 ^ 32 - 1) % 2 ^ 32)
    | none => c
  c.onTwin (fun t => { t with lastSeq := some s })
/-- The part takes the mirror stream of its lit peer. -/
def mirrored (c : Chip) : Bool :=
  decide (c.twin.role = .shadow) && c.st TWIN.LINKUP 0 == 1 && c.st TWIN.COMPATOK 0 == 1
/-- The earliest unmatched copy that an ADD matches (R391). -/
def copyFor (c : Chip) (d : Desc) : Option Item :=
  (c.items d.trib d.up).find? (fun it => it.seq.isNone && it.data.length == d.len && fcsOf it.data == d.crc &&
    decide (it.comAt ≤ d.comAt + 125000) && decide (d.comAt ≤ it.comAt + 125000))
/-- An ADD arrives. -/
def addDesc (c : Chip) (k : Clock) (d : Desc) : Chip :=
  let c := c.takeSeq k d.seq
  let c := match c.copyFor d with
    | some it =>
      let mark := fun (x : Item) => if x.cells == it.cells && x.seq.isNone then { x with seq := some d.seq } else x
      c.setItems d.trib d.up ((c.items d.trib d.up).map mark)
    | none => c.onTwin (fun t => { t with adds := t.adds ++ [d] })
  c.setHorizon k d.comAt
/-- A RETIRE arrives: its ADD is forgotten, and the copy that matched it is discarded under SHADE (R391). [DEDUCED, log 56] -/
def retireDesc (c : Chip) (k : Clock) (s : Nat) : Chip :=
  let c := c.onTwin (fun t => { t with adds := t.adds.filter (fun d => d.seq != s) })
  overN 256 (fun t c => [false, true].foldl (fun c up =>
    let gone := (c.items t up).filter (fun it => it.seq == some s)
    if gone = [] then c
    else gone.foldl (fun c it => c.discardItem k it cShade)
      (c.setItems t up ((c.items t up).filter (fun it => it.seq != some s)))) c) c
/-- Every item that the part holds, marked by `f`. -/
def mapItems (c : Chip) (f : Item → Item) : Chip :=
  overN 256 (fun t c => c.onT t (fun x => if x.dn = [] ∧ x.up = [] then x else { x with dn := x.dn.map f, up := x.up.map f })) c
/-- Every item that the part holds is discarded under a cause. -/
def freeAll (c : Chip) (k : Clock) (cause : Nat) : Chip :=
  let c := overN 96 (fun d c => c.endUp k d cause) (overN 4 (fun u c => c.endRx k u cause) c)
  overN 256 (fun t c => [false, true].foldl (fun c up =>
    (c.items t up).foldl (fun c it => c.discardItem k it cause) (c.setItems t up [])) c) c

/-! ### Mirrored commits (R388) -/

/-- The live bank becomes `b` through the mirror: no step is requested, and neither CAPPLY nor CREJ is set. -/
def mirrorApply (c : Chip) (k : Clock) (b : Bank) (tag : Byte) : Chip :=
  let old := c.heath.live
  let c := c.onHeath (fun h => { h with live := b, upsets := h.upsets.filter (fun u => u.bank != 1) })
  let c := (c.onWin (fun w => { w with appTag := tag.toNat })).setSt TWIN.MIRTAG 0 tag.toNat
  (((c.applyBank k old false false c.shaded).restand k none).onTwin (fun t => { t with digestBad := false })).syncTwin k
/-- A full bank copy from the peer (R387, R388, R394). -/
def fullCopy (c : Chip) (k : Clock) (runs : List BankRun) (tag : Byte) : Chip :=
  (c.onTwin (fun t => { t with fullCopy := true, askCopy := false })).mirrorApply k
    (withRuns (keepTabs c.heath.live (fun t => t == 0x70)) runs) tag
/-- The runs of one mirrored commit, or of a full copy, are applied. -/
def applyRuns (c : Chip) (k : Clock) (r : List BankRun × Byte × Bool) : Chip :=
  if r.2.2 then c.fullCopy k r.1 r.2.1 else c.mirrorApply k (withRuns c.heath.live r.1) r.2.1
/-- The commits that broken locks have kept are applied in their order, unless a lock breaks again (R237). -/
def applyHeld (c : Chip) (k : Clock) : Chip :=
  if c.twin.heldRuns = [] ∨ c.twin.role ≠ .shadow then c
  else if c.twin.brokeRuns then (c.onTwin (fun t => { t with brokeRuns := false })).satSt TWIN.BANKLAG 0 1
  else c.twin.heldRuns.foldl (fun c r => c.applyRuns k r) (c.onTwin (fun t => { t with heldRuns := [] }))

/-! ### Changes of role (R380, R396, R398, R400 to R402) -/

/-- The role becomes `r` (CAUSE bit 0). -/
def setRole (c : Chip) (k : Clock) (r : Role) : Chip :=
  (c.onTwin (fun t => { t with
    role := r, lightDue := false, downDue := false, handLight := none, keepLow := none, brokeRuns := false, heldRuns := [] })).cause k .twin 0 1
/-- What follows a change of role in every block but the banks: REF4, the DPLL channels, the twin's own status. -/
def afterRole (c : Chip) (k : Clock) (was : Bool) : Chip :=
  ((((c.refRole k).dpllApply k c.heath.live true).reshade k was).tryAttach).syncTwin k
/-- The part becomes shadow: its items become copies, its drops listen or are held (R215, R380). -/
def becomeShadow (c : Chip) (k : Clock) : Chip :=
  let was := c.shaded
  let c := ((c.setRole k .shadow).endAttach).onTwin (fun t => { t with
    adds := [], lastSeq := none, gaps := [], horizon := 0, buffered := 0, backlog := 0, lastStep := none, peerArmed := false })
  let c := (c.setSt TWIN.MIRLOSS 0 0).mapItems (fun it => { it with seq := none, begun := false })
  let c := overN 96 (fun d c => if c.on DROP.EN d && (c.d d).ps != .off then c.startDrop k d else c) c
  c.afterRole k was
/-- The part becomes solo by a leave or a release (R402): its copies are freed, and its banks reset but for DPLL and REF. -/
def becomeSolo (c : Chip) (k : Clock) : Chip :=
  let was := c.shaded
  let c := (c.freeAll k cShade).setRole k .solo
  let old := c.heath.live
  let keep := keepTabs old (fun t => t == 0x58 || t == 0x59)
  let c := c.onHeath (fun h => { h with
    live := keep, staged := keep, standing := []
    upsets := h.upsets.filter (fun u => u.bank == 1 && (tabOf u.addr == 0x58 || tabOf u.addr == 0x59)) })
  let c := c.endAttach.onTwin (fun t => { t with adds := [], gaps := [], lastSeq := none, soloDue := false })
  let c := c.disarm k
  let c := ((c.setSt TWIN.MIRLOSS 0 0).applyBank k old false true was).restand k none
  (c.refRole k).syncTwin k

/-- One item of a shadow at its lighting (Table 15.3). -/
def lightItem (c : Chip) (k : Clock) (it : Item) : Chip :=
  if it.seq.isSome then
    (c.addSt TWIN.CARRIED 0 1).setItems it.trib it.up (c.items it.trib it.up ++ [{ it with seq := none, comAt := k.evc }])
  else if c.twin.horizon ≤ it.comAt + 8192 then
    c.setItems it.trib it.up (c.items it.trib it.up ++ [{ it with comAt := k.evc }])
  else (c.addSt TWIN.DUPS 0 1).discardItem k it cShade
/-- Every item and descriptor of a shadow at its lighting (Table 15.3, R399). -/
def lightItems (c : Chip) (k : Clock) : Chip :=
  let c := overN 256 (fun t c => [false, true].foldl (fun c up =>
    let l := c.items t up
    if l = [] then c else l.foldl (fun c it => c.lightItem k it) (c.setItems t up [])) c) c
  let lost := c.twin.adds
  let c := (lost.zipIdx).foldl (fun c (d, i) =>
    ((c.countDisc d.trib d.up cTakeover).addSt TWIN.FAILED 0 1).failRecord k QUEUE.FRTKO cTakeover d.trib d.up d.cell d.len d.stamp
      (k.evc + 2048 + 4 * i)) c
  let c := c.onTwin (fun t => { t with adds := [], gaps := [], lastSeq := none })
  if lost = [] then c else c.srcEvent k 279
/-- An ADD for every item held goes out, and a full bank copy (R398). -/
def startMirror (c : Chip) : Chip :=
  if c.mirrors then
    let c := c.onTwin (fun t => { t with backlog := fullBank })
    overN 256 (fun t c => [false, true].foldl (fun c up =>
      let (l, c) := (c.items t up).foldl (fun (p : List Item × Chip) it =>
        (p.1 ++ [{ it with seq := some p.2.sendAdd.1 }], p.2.sendAdd.2)) ([], c)
      c.setItems t up l) c) c
  else c
/-- The shadow lights (R398); `why`: 0 on loss, 1 by a claim, 2 by a handover. [DEDUCED, log 59] -/
def light (c : Chip) (k : Clock) (why : Nat) : Chip :=
  let was := c.shaded
  let c := (c.disarm k).setRole k .lit
  let c := match why with
    | 0 => (c.addSt TWIN.TAKEOVERS 0 1).cause k .twin 0 32
    | 2 => c.addSt TWIN.HANDOVERS 0 1
    | _ => c
  let c := if c.twin.req.isSome then c.settleReq k rqGranted else if why = 2 then c.reqCause k else c
  let c := (c.onHeath (fun h => { h with staged := h.live, upsets := h.upsets.filter (fun u => u.bank != 0) })).endAttach
  let c := (c.restand k none).setSt TWIN.MIRLOSS 0 0
  let c := c.lightItems k
  let c := overN 96 (fun d c =>
    if !c.on DROP.EN d || (c.d d).ps == .off then c
    else if (c.d d).ps = .listen ∧ (c.d d).rx = .sync ∧ c.shaded = false then c.enterUp k d
    else c.startDrop k d) c
  (((c.afterRole k was).startMirror).nightLate k).dropAllHeads k

/-! ### A tick boundary of the twin engine -/

/-- PHERR of TOD beyond 100 ns on an armed shadow (source 277). -/
def farNow (c : Chip) : Bool :=
  c.st TWIN.ARMED 0 == 1 && (c.dp 1).sel == some 4 && decide (1600 < (signed 32 (c.st DPLL.PHERR 1)).natAbs)
/-- What every tick boundary does in the twin engine: roles that fall due, the lit part's backlog (R387, R388), source 277. -/
def twinTick (c : Chip) (k : Clock) : Chip :=
  if c.twin.role = .solo then c
  else
    let c := if c.twin.downDue then c.becomeShadow k else c
    let c := if c.twin.soloDue then
        match c.twin.req with
        | some .leave => (c.becomeSolo k).settleReq k rqGranted
        | some _ => (c.becomeSolo k).settleReq k rqNopair
        | none => c.becomeSolo k
      else c
    let c := c.onTwin (fun t => { t with farTicks := t.farTicks.step c.farNow })
    if c.twin.role = .lit then
      let left := c.twin.backlog - tickWordsMax
      let c := c.onTwin (fun t => { t with backlog := left })
      (if left = 0 then c.setSt TWIN.BANKLAG 0 0 else c.satSt TWIN.BANKLAG 0 1).syncTwin k
    else (c.applyHeld k).syncTwin k

end Chip

end Sys2Proof.Machine
end

