-- ==== Sys2Proof/Machine/CommitOps.lean ====
section
/-! DEFINITION. The commit check and the bank copies (R90, R93, R94, R97, R108), snapshots with the records written at them
(R100, R149, R248), and the effects of a warm reset (R70, Table 3.5). -/

namespace Sys2Proof.Machine

/-- Reject causes of Table 4.3 that the verdict knows by name. -/
def rejSchema : Nat := 0x01
def rejShadow : Nat := 0x02
def rejFence : Nat := 0x03
def rejRevert : Nat := 0x04
def rejReserved : Nat := 0x05
def rejTwin : Nat := 0x1C

namespace Chip

/-! ### The verdict (R93, R103) -/

/-- SCHEMAOK as the verdict of the tick sees it: a HOSTSCHEMA write at cycle index 124,996 or later is not seen (R93). -/
def verdictSchema (c : Chip) : Bool :=
  match c.dir.lateSchema with
  | some (lock, v) => lock && v == 1
  | none => c.schemaOk
/-- The lower of two cause codes, 0 standing for none. -/
def lowerCause (a b : Nat) : Nat := if a = 0 then b else if b = 0 then a else min a b
/-- The lowest standing cause of the staged bank, 0 for none (R93, R409). -/
def lowestStanding (c : Chip) (k : Clock) : Nat :=
  let l := c.heath.standing.foldl (fun m s => lowerCause m s.cause) 0
  if (RuleCtx.mk c.heath.staged c.heath.live c k).handoverPending then lowerCause l rejTwin else l
/-- The verdict on the pending commit: the lowest cause code of Table 4.3 that holds, 0 for a pass. -/
def verdict (c : Chip) (k : Clock) : Nat :=
  if !c.verdictSchema then rejSchema
  else if c.twin.role = .shadow then rejShadow
  else if c.win.fenceReject then rejFence
  else if c.dir.revPend then rejRevert
  else (c.restand k none).lowestStanding k
/-- The verdict is taken once, in the tick that ends at the commit's boundary. [DEDUCED, log 19] -/
def takeVerdict (c : Chip) (k : Clock) : Chip :=
  if c.win.pend && c.win.commitIn == 1 && c.win.verdict.isNone then
    (c.restand k none).onWin (fun w => { w with verdict := some (c.verdict k) })
  else c

/-! ### The copies of the banks -/

/-- The copy of R90 reads every staged word: single-bit errors are corrected and counted, uncorrectable ones are found (R108). -/
def readStaged (c : Chip) (k : Clock) : Chip :=
  (c.heath.upsets.filter (fun u => u.bank == 0)).foldl (fun c u => c.meetEcc k 0 u.addr) c
/-- The live bank after the copy: an uncorrectable staged word leaves the live word as it was. [DEDUCED, log 22] -/
def copied (c : Chip) : Bank :=
  c.heath.upsets.foldl (fun b u => if u.bank = 0 then b.write u.addr (c.heath.live.read u.addr) else b) c.heath.staged
/-- Words that differ between two banks, outside the TWIN table (R387). -/
def wordsChanged (old new : Bank) : Nat :=
  ((new.filter (fun x => tabOf x.1 != 0x70 && old.read x.1 != x.2)).length) +
    ((old.filter (fun x => tabOf x.1 != 0x70 && (new.find x.1).isNone)).length)
/-- The address that REJADDR takes for a rejection (R94). [DEDUCED, log 71] -/
def rejectAddr (c : Chip) (cause : Nat) : Word :=
  if cause = rejReserved ∨ 0x10 ≤ cause then
    match c.heath.standing.find? (fun s => s.cause == cause) with
    | some s => word s.addr
    | none => 0xFFFFFFFF#32
  else 0xFFFFFFFF#32

/-- A rejected commit (R73, R94). -/
def commitRejects (c : Chip) (k : Clock) (cause : Nat) : Chip :=
  let c := c.onDir (fun d => { d with rejected := wrapAdd 16 d.rejected 1, rejAddr := c.rejectAddr cause })
  (c.onWin (fun w => { w with rej := true, rejCause := cause })).icause k 1

/-- The role that a new live bank gives (R380, R402): PAIREN 1 on a solo part makes it shadow, PAIREN 0 on a paired one makes it
solo.  The flag tells whether the role changed. [DEDUCED, log 63] -/
def commitRole (c : Chip) (k : Clock) (new : Bank) : Chip × Bool :=
  let pair := new.fld TWIN.PAIREN 0 == 1
  if pair && decide (c.twin.role = .solo) then (c.becomeShadow k, true)
  else if !pair && decide (c.twin.role ≠ .solo) then
    let lit := decide (c.twin.role = .lit)
    (((c.setRole k .solo).endAttach.onTwin (fun t => { t with release := lit, req := none })).refRole k, true)
  else (c, false)

/-- A commit that passed (R73, R90, R94, R96): the staged bank becomes live, and every block takes it up. -/
def commitApplies (c : Chip) (k : Clock) : Chip :=
  let was := c.shaded
  let c := c.readStaged k
  let old := c.heath.live
  let new := c.copied
  let first := c.boot.suShade
  let (c, moved) := c.commitRole k new
  let was := if moved && decide (c.twin.role = .shadow) then c.shaded else was
  let c := c.onBoot (fun b => { b with suShade := false })
  let c := c.onHeath (fun h => { h with live := new, upsets := h.upsets.filter (fun u => u.bank != 1 || h.upsets.any (fun v => v.bank == 0 && v.addr == u.addr)) })
  let c := c.onDir (fun d => { d with applied := wrapAdd 16 d.applied 1, rejAddr := 0xFFFFFFFF#32 })
  let c := (c.onWin (fun w => { w with appTag := w.lastTag, rej := false, rejCause := 0 })).icause k 0
  let c := (c.applyBank k old true (first || moved) was).restand k none
  let c := if c.mirrors then c.onTwin (fun t => { t with backlog := t.backlog + wordsChanged old new }) else c
  c.syncTwin k

/-- The reset actions of a warm reset are due on this boundary: a pending commit or revert is discarded there without a report
(R70). -/
def warmActs (c : Chip) : Bool := decide (c.win.warm = .asked) && c.win.warmIn == 0
/-- COMMIT_APPLY: the outcome of the commit whose boundary this is (R73). -/
def commitOutcome (c : Chip) (k : Clock) : Chip :=
  if c.win.pend && c.win.commitIn == 0 && !c.warmActs then
    let v := c.win.verdict.getD (c.verdict k)
    let c := if v = 0 then c.commitApplies k else c.commitRejects k v
    c.onWin (fun w => { w with pend := false, defer := false, fenceReject := false, verdict := none })
  else c

/-- The revert (R97): the live bank is copied into the staged bank, and every standing violation is cleared. [DEDUCED, log 23] -/
def revert (c : Chip) : Chip :=
  if c.dir.revDue && !c.warmActs then
    (c.onHeath (fun h => { h with
      staged := h.live, standing := [], upsets := h.upsets.filter (fun u => u.bank != 0) })).onDir
      (fun d => { d with revPend := false, revDue := false })
  else c

/-- The heath's own check of one word (R483), with the errored bits found beyond those already known. -/
def heathCheck (c : Chip) (k : Clock) (bank a fresh : Nat) : Chip :=
  match wordSpec a with
  | some s =>
    if s.kind = .st ∧ addrError a = 0 then
      let had := c.upsetAt bank a
      let found := c.heath.upsets.any (fun u => u.bank == bank && u.addr == a && u.found)
      let now := min 2 (had + fresh)
      let c := if fresh = 0 then c
        else c.onHeath (fun h => { h with
          upsets := ⟨bank, a, now, found⟩ :: h.upsets.filter (fun u => !(u.bank == bank && u.addr == a)) })
      c.meetEcc k bank a
    else c
  | none => c

/-! ### Snapshots and their records (R100, R149, R248) -/

/-- Words 2 to 19 of the counter record of TRIB row `t` (Table 6.3). -/
def tribCounts (c : Chip) (t : Nat) : List Nat :=
  let x := c.t t
  [x.dnFrames, x.dnBytes, x.upFrames, x.upBytes] ++ x.dnDisc.toList ++ x.upDisc.toList
/-- Words 2 to 15 of the crossbar record (Table 9.6). -/
def xbarCounts (c : Chip) : List Nat :=
  let m := c.mead
  [m.dnUsed, m.upUsed, m.dnPeak, m.upPeak, m.eccCor, m.eccUnc, m.lockBrk % 2 ^ 16 * 2 ^ 16 + m.defTgt % 2 ^ 16, m.defLast, m.gMoved, m.gSkip,
   m.gOver, m.scrubs, m.refused, 0]
/-- The records of a snapshot, as the tick that closes leaves their values: for every TRIB row whose CNTEN is 1 or that a commit on
the boundary may enable, and the crossbar. [DEDUCED, log 21] -/
def endRecords (c : Chip) : List (Nat × List Nat) :=
  let rows := fun (b : Bank) => (b.rows 0x12).filter (fun t => b.fld TRIB.CNTEN t == 1)
  ((rows c.heath.staged).foldl (fun l t => insertSorted t l) (rows c.heath.live)).map (fun t => (t, c.tribCounts t)) ++
    [(256, c.xbarCounts)]
/-- The bytes of a record: its first word, SNAPTICK, and its counts. -/
def recordBytes (w0 : Nat) (tick : Nat) (l : List Nat) : List Byte := (w0 :: tick :: l).flatMap (fun n => wordBytes (word n))
/-- The snapshot (R100, R106): the status words of the tick just closed, and the records that follow it in the tick that opens
(R149, R248). -/
def snapshot (c : Chip) (k : Clock) : Chip :=
  if !c.dir.snapDue then c
  else
    let c := c.onDir (fun d => { d with
      snapPend := d.snapPend && !d.reqDue, snapDue := false, reqDue := false, snapTick := k.tick, snapSeq := wrapAdd 16 d.snapSeq 1 })
    let rows := c.heath.recEnd.filter (fun r => r.1 < 256 && c.on TRIB.CNTEN r.1)
    let recs := rows.zipIdx.map (fun (r, i) => (⟨1024 + 80 * i, 4, r.1, recordBytes (0x01000000 + r.1) k.tick r.2, (0, 0)⟩ : RecDue))
    let xrec := if c.on XBAR.XRECEN 0 then
        [(⟨30000, 5, 0, recordBytes 0x02000000 k.tick (assoc c.heath.recEnd 256 []), (c.mead.dnPeak, c.mead.upPeak)⟩ : RecDue)]
      else []
    let c := c.onHeath (fun h => { h with
      snap := h.statusEnd, upsets := h.upsets.filter (fun u => u.bank != 2), recDue := recs ++ xrec })
    if xrec = [] then c else c.onM (fun m => { m with dnPeak := m.dnUsed, upPeak := m.upUsed })

/-! ### Warm reset (Table 3.5) -/

/-- Status words that a warm reset keeps whole: the references and DPLLs' own, the power measurements, and the fault history. [DESIGN CHOICE, log 17] -/
def warmKeeps (a : Nat) : Bool :=
  let w := wrdOf a
  match tabOf a with
  | 0x58 => w == 8 || (10 ≤ w && w ≤ 13)
  | 0x59 => w == 8 || w == 9
  | 0x78 => (16 ≤ w && w ≤ 18) || (20 ≤ w && w ≤ 35)
  | 0x62 => true
  | _ => false
/-- The status bank after the reset actions. [DESIGN CHOICE, log 17] [DEDUCED, log 18] -/
def warmStatus (b : Bank) : Bank :=
  let kept : Bank := b.filter (fun x => warmKeeps x.1)
  (overN 24 (fun g (n : Bank) => n.setFld FGRP.NEXT g (b.fld FGRP.NEXT g)) kept).setFld FGRP.RECOVERIES 23 (b.fld FGRP.RECOVERIES 23)
/-- Level sources whose condition a warm reset keeps: those of the DPLLs, and of power and temperature. -/
def warmCond (s : Nat) : Bool := (178 ≤ s && s ≤ 185) || (256 ≤ s && s ≤ 263)
/-- The reset actions of a warm reset on the present edge (R69, R70, Table 3.5). [DEDUCED, log 18] -/
def warmReset (c : Chip) (k : Clock) : Chip :=
  let keep := fun (t : Nat) => t == 0x50 || t == 0x58 || t == 0x59
  let x : Chip :=
    { boot := { c.boot with suShade := true }
      port := c.port
      win := { imask := 0x0003FFFF#32, glint := c.win.glint, tsec := c.win.tsec, glintEvc := c.win.glintEvc, glmulti := c.win.glmulti,
               intn := c.win.intn, gapEnd := c.win.gapEnd, warm := .acted, warmIn := 1 }
      dir := { snapPend := c.dir.snapPend, snapDue := c.dir.snapDue, snapView := c.dir.snapView, snapSec := c.dir.snapSec,
               snapTick := c.dir.snapTick, snapSeq := c.dir.snapSeq, budgetBlk := c.dir.budgetBlk, coreOfs := c.dir.coreOfs,
               budgetNow := c.dir.budgetNow }
      heath :=
        { live := keepTabs c.heath.live keep
          status := warmStatus c.heath.status
          statusEnd := warmStatus c.heath.statusEnd
          snap := warmStatus c.heath.snap
          upsets := c.heath.upsets.filter (fun u => u.bank == 1 && keep (tabOf u.addr)) }
      col :=
        { seq := c.col.seq, cond := c.col.cond.filter warmCond, faultn := c.col.faultn.drive k.edges false, edgeNo := c.col.edgeNo,
          shadeEvc := c.col.shadeEvc, lantern := c.col.lantern, lanternHeld := c.col.lanternHeld }
      mead := { bank := c.mead.bank, upsets := c.mead.upsets, scrubRow := c.mead.scrubRow
                freed := c.mead.used ++ (if c.mead.freedEvc == k.evc then c.mead.freed else []), freedEvc := k.evc }
      drop := c.drop.map (fun d => { barrier := d.barrier })
      tim := c.tim
      dpll := c.dpll
      twin := { id := c.twin.id, claim := c.twin.claim, claimPin := c.twin.claimPin, peer := c.twin.peer }
      pow := { c.pow with plan := none, energyRest := 0, bitsRest := 0 }
      done := c.done
      free := c.free }
  let x := (c.col.cond.filter warmCond).foldl (fun x s => x.setSt FSRC.COND s 1) x
  let x := (x.setSt TWIN.TID 0 c.twin.id).setSt TWIN.PEERI 0 (bit c.twin.peer)
  let x := overN 9 (fun o x => x.syncOut o) x
  (x.onWin (fun w => w.rewant k)).reshade k c.shaded

/-- The reset actions, where they are due on this boundary (R69, R70). -/
def warmActions (c : Chip) (k : Clock) : Chip := if c.warmActs then c.warmReset k else c
/-- The completion of the warm reset, where it is due on this boundary (R69, R451). -/
def warmDone (c : Chip) (k : Clock) : Chip :=
  if c.win.warm = .acted ∧ c.win.warmIn = 0 then
    let was := c.shaded
    let c := (c.onWin (fun w => { w with warm := .idle })).onBoot (fun b => { b with warms := satAdd 16 b.warms 1 })
    (c.icause k 16).reshade k was
  else c
/-- What a boundary still owes the heath: reset actions and completion, outcome, revert and snapshot.  The port's beats on the edge,
the boundary's commands that look at the live bank, and the frames of the tick all come after it (R70, R96, R107). -/
def boundaryWork (c : Chip) (k : Clock) : Chip := ((((c.warmActions k).warmDone k).commitOutcome k).revert).snapshot k
/-! ### Seconds -/

/-- What a tick boundary at which TICKSEC becomes 0 does (R23, R75, R100, R280 and the drops' second counters). -/
def secondWork (c : Chip) (k : Clock) : Chip :=
  let c := (c.icause k 15).audioSecond
  let c := overN 96 (fun d c =>
    let x := c.d d
    let c := if x.errSec then c.addSt DROPSTAT.ESEC d 1 else c
    let c := if x.lofSec then c.addSt DROPSTAT.LOFSEC d 1 else c
    if x.errSec || x.lofSec then c.onD d (fun x => { x with errSec := false, lofSec := false }) else c) c
  let c := if c.dir.snapSec then c.onDir (fun d => { d with snapDue := true }) else c
  { c with done := 10 :: c.done }
/-- The owning blocks' own reads of live words that hold errors: which words a block reads in a tick the spec leaves open (R108). [DEDUCED, log 24] -/
def blocksRead (c : Chip) (k : Clock) : Chip :=
  (c.heath.upsets.filter (fun u => u.bank == 1)).foldl (fun c u =>
    let (v, c) := c.draw
    if Config.blockReads v u.addr then c.meetEcc k 1 u.addr else c) c
/-- The work of the tick that a boundary opens, on the bank live in it (R96): the blocks read their words, the drops and the power
states move on, and the frames of the tick are composed. -/
def openTick (c : Chip) (k : Clock) : Chip :=
  (((overN 96 (fun d c => c.dropOpen k d) (c.blocksRead k)).blocksTick).audioOpen k).leaveBoundary k

end Chip

end Sys2Proof.Machine
end

