-- ==== Sys2Proof/Machine/Edge.lean ====
section
/-! DEFINITION. How the whole state moves: ordinary core-clock edges within a tick, and the forms in which a command acts on
the present edge, at a cycle index, on a boundary, or in a window of the tick. -/

namespace Sys2Proof.Machine

namespace State

/-- A pending step on a superframe boundary, and the second that begins with the stepped time (R23, R298). -/
def stepBoundary (s : State) : State :=
  if s.chip.running ∧ s.clk.superframe = true ∧ s.chip.tim.stepReq.isSome = true then
    let s := s.applyStep
    if s.clk.tickSec = 0 ∧ s.chip.done.contains 10 = false then { s with chip := s.chip.secondWork s.clk } else s
  else s
/-- A boundary's own work (R96, R107, R295, R298): reset actions, commit, revert, the step due on it, and the snapshot.  On another edge
there is none. -/
def boundaryDone (s : State) : State :=
  if s.chip.running ∧ s.clk.idx = 0 then
    let s := ({ s with chip := s.chip.boundaryWork s.clk } : State).stepBoundary
    { s with chip := s.chip.snapshot s.clk }
  else s
/-- The part is about to leave the present edge: a boundary's own work comes about, and then the work of the tick it opens, after
every command of the boundary (R96); and the part's own output edges are captured (R301). -/
def depart (s : State) : State :=
  if s.chip.running then
    let s := s.boundaryDone
    { s with chip := (if s.clk.idx = 0 then s.chip.openTick s.clk else s.chip).leaveEdge s.clk }
  else s
/-- `n` ordinary core-clock edges within the tick. -/
def elapse (s : State) (n : Nat) : State :=
  if n = 0 then s
  else
    let s := s.depart
    let k := s.clk.elapse n
    { s with clk := k, chip := (((((s.chip.endWakes k.evc).settle k).writeRecords k).linesPass k).framesPass k).audioPass k }
/-- Ordinary edges up to cycle index `i`, where it lies ahead in the tick. -/
def toIdx (s : State) (i : Nat) : State := s.elapse (i - s.clk.idx)
/-- Ordinary edges up to EVC `e`, within the tick. -/
def toEvc (s : State) (e : Nat) : State := s.elapse (e - s.clk.evc)
/-- What a command does to a running part on the present edge; without a core clock it does nothing. [DESIGN CHOICE, log 2] [DESIGN CHOICE, log 3] -/
def act (s : State) (f : Clock → Chip → Chip) : State :=
  if s.chip.running then { s with chip := f s.clk s.chip } else s
/-- What a command does at cycle index `i` of the tick, or on the present edge where that has passed. [DESIGN CHOICE, log 2] -/
def actAt (s : State) (i : Nat) (f : Clock → Chip → Chip) : State :=
  if s.chip.running then
    let t := s.toIdx i
    { t with chip := f t.clk t.chip }
  else s
/-- What a command does on a tick-boundary edge; on another edge it does not come about. -/
def actBoundary (s : State) (f : Clock → Chip → Chip) : State :=
  if s.clk.idx = 0 then s.act f else s

/-- Work of the window of cycle indices `lo` to `hi`, done once a tick at index `lo` or later: after `hi` (where a slew edge
skipped it, after the edge that follows: R33), or a second time in the tick, it does not come about. [DESIGN CHOICE, log 6] -/
def inWindow (s : State) (lo hi code : Nat) (f : Clock → Chip → Chip) : State :=
  if hi + bit s.clk.skip < s.clk.idx then s
  else s.actAt lo fun k c => if c.done.contains code then c else { f k c with done := code :: c.done }

end State


end Sys2Proof.Machine
end

