-- ==== Sys2Proof/Machine/AudioCmd.lean ====
section
/-! DEFINITION. Commands of the audio ports (chapter 11). -/

namespace Sys2Proof.Machine

/-- AUDIO_EXCHANGE (R281 to R283, R290): once a tick, in cycle indices 1 to 1,023, after the frame of the tick has been
composed from the exchange before. -/
def execAudioExchange (pins : List (List Bool)) (s : State) : Out :=
  .next (s.inWindow 1 1023 9 fun k c => c.exchange k pins)

/-- SLAVE_RX_FRAME (R278 to R280, R290). -/
def execSlaveRxFrame (p : Fin 8) (periods : Nat) (frame : List Bool) (s : State) : Out :=
  .next (s.act fun k c => c.slaveRx k p periods frame)

/-- SLAVE_TX_FRAME_START (R278 to R280, R290). -/
def execSlaveTxFrameStart (p : Fin 8) (periods : Nat) (s : State) : Out :=
  .next (s.act fun k c => c.slaveTx k p periods)

end Sys2Proof.Machine
end

