-- ==== Sys2Proof/Machine/Power.lean ====
section
/-! DEFINITION. Commands of the power manager (chapter 16): the plan with its measurements, and the wakes and entries of blocks. -/

namespace Sys2Proof.Machine

/-- A sensor differs from the mean of the others by more than 15 °C (Table 16.5). -/
def sensDiffers (l : List Int) (v : Int) : Bool := decide (22500 < (16 * v - l.sum).natAbs)
/-- The highest of some sensor readings and its sensor, the lowest-numbered of equals. -/
def hottest (l : List (Int × Nat)) : Int × Nat :=
  match l with
  | [] => (0, 0)
  | x :: r => r.foldl (fun a b => if a.1 < b.1 then b else a) x

namespace Chip

/-! ### Measurements (R426, R429, R432, R436) -/

/-- The sensors left out of TJ after one more reading (R436): a sensor that differs is left out until it has agreed in 8
consecutive ticks. [DEDUCED, log 65] -/
def judgeSensors (c : Chip) (k : Clock) (l : List Int) : Chip :=
  let bad := fun (i : Nat) => sensDiffers l (l.getD i 0)
  let one := fun (i : Nat) => if bad i then some (i, 0)
    else match c.pow.outSens.find? (fun x => x.1 == i) with
      | some x => if 7 ≤ x.2 then none else some (i, x.2 + 1)
      | none => none
  let any := (List.range 16).any bad
  let c := c.onPow (fun p => { p with outSens := (List.range 16).filterMap one, sensNow := p.sensNow || any })
  if any then c.cause k .power 0 16 else c
/-- TJ, HOTSENS and the thermal stage (R426). -/
def judgeHeat (c : Chip) (k : Clock) (l : List Int) : Chip :=
  let all := l.zipIdx
  let inn := all.filter (fun x => !c.pow.outSens.any (fun y => y.1 == x.2))
  let (tj, hot) := hottest (if inn = [] then all else inn)
  let c := (c.setSt POWER.TJ 0 (unsigned 16 tj)).setSt POWER.HOTSENS 0 hot
  let s := c.st POWER.TSTAGE 0
  let thr := fun (n : Nat) => ((match n with
    | 0 => 0
    | 1 => c.lv POWER.WARNT 0
    | 2 => c.lv POWER.THROTT 0
    | _ => c.lv POWER.CRITT 0 : Nat) : Int) * 100
  let up := if s < 3 ∧ thr (s + 1) ≤ tj then c.pow.hot + 1 else 0
  let down := if 0 < s ∧ tj < thr s - c.lv POWER.HYST 0 * 100 then c.pow.cool + 1 else 0
  let new := if 2 ≤ up then s + 1 else if 8 ≤ down then s - 1 else s
  let c := c.onPow (fun p => { p with hot := if new = s then up else 0, cool := if new = s then down else 0 })
  let c := if new = s then c else (c.setSt POWER.TSTAGE 0 new).cause k .power 0 1
  ((c.setCond k 258 (decide (1 ≤ new))).setCond k 259 (decide (2 ≤ new))).setCond k 260 (decide (new = 3))
/-- VIO lies in the range that the strap selects (R440, Table 18.6). -/
def vioGood (c : Chip) (mv : Nat) : Bool := if c.boot.vioStrap then 2970 ≤ mv && mv ≤ 3630 else 1620 ≤ mv && mv ≤ 1980
/-- Supply voltages, input power and the regulators. -/
def judgeSupply (c : Chip) (k : Clock) (vin vio pin : Nat) (reg : Bool) : Chip :=
  let lo := decide (vin < 10800)
  let hi := decide (13200 < vin)
  let moved := c.pow.vinLow != lo || c.pow.vinHigh != hi
  let flip := c.pow.regFlt != reg
  let c := ((c.setSt POWER.VIN 0 vin).setSt POWER.VIO 0 vio).setSt POWER.PIN 0 pin
  let c := (c.onPow (fun p => { p with vinLow := lo, vinHigh := hi, regFlt := reg })).causeIf k .power 0 (bit moved * 2 + bit flip * 8)
  (((c.setCond k 256 lo).setCond k 257 hi).setCond k 261 reg).setCond k 263 (!c.vioGood vio || c.port.vioLost)

/-- Symbols that the echo canceller of copper drop `d` spans (R427): a throttled part shortens it where the SNR exceeds the mode's threshold
and MARGIN by 6 dB or more. -/
def echoSpan (c : Chip) (d : Nat) : Nat :=
  if copper d ∧ 2 ≤ c.st POWER.TSTAGE 0 ∧ (c.d d).ps = .up ∧ c.st DROPSTAT.SNRUP d ≠ 0xFF ∧
      snrThr (c.d d).mode + c.lv DROP.MARGIN d + 24 ≤ c.st DROPSTAT.SNRUP d then 1024
  else 2048
/-! ### The plan (R417, R421, R434) -/

/-- The blocks that neither the live bank nor a bank that may apply at the next boundary needs, and that DEEPDIS does not keep LIT. -/
def planNight (c : Chip) : List Nat :=
  let more := c.win.pend && decide (c.win.commitIn ≤ 1)
  nightBlocks.filter (fun i => !c.needs c.heath.live i && !c.keptLit i && !(more && c.needs c.heath.staged i))
/-- POWER_PLAN. -/
def powerPlan (c : Chip) (k : Clock) (tsens : List Int) (vin vio pin : Nat) (reg : Bool) : Chip :=
  let l := (tsens ++ List.replicate 16 0).take 16
  let c := overN 16 (fun i c => c.setSt (POWER.TSENS.at i) 0 (unsigned 16 (l.getD i 0))) c
  let c := ((c.judgeSensors k l).judgeHeat k l).judgeSupply k vin vio pin reg
  c.onPow (fun p => { p with plan := some c.planNight })

/-- Blocks that leave NIGHT, or the DUSK that replaces it, for the next tick begin their wake (R417). -/
def nightWake (c : Chip) (k : Clock) : Chip :=
  match c.pow.plan with
  | some l => nightBlocks.foldl (fun c i => if l.contains i || c.blk i != c.nightState then c else c.beginWake i k.evc) c
  | none => c
/-- Every block in DARK begins its wake (R419). -/
def darkWake (c : Chip) (k : Clock) : Chip :=
  nightBlocks.foldl (fun c i => if c.blk i = .dark then c.beginWake i k.evc else c) c

/-- The states that a block's kind allows on the present edge (Table 16.2, R415, R422, R423). -/
def mayRest (c : Chip) (k : Clock) (b : Nat) (s : PwrState) : Bool :=
  let span := decide (k.idx + s.minGap ≤ Config.tickCycles)
  let deep := s == .dusk || s == .dark
  if blkUpTx b then c.shaded && s == (if c.twin.role = .shadow then .dusk else .dark)
  else if blkDropTx b then deep && span
  else if blkDropRx b then
    let d := b - 104
    deep && (c.d d).rx == .sync && !c.on DROP.PAIRED d
  else if blkBank b then s == .dim
  else if blkGroom b then
    s == .dim && (!c.on XBAR.GREN 0 || (1 ≤ k.idx && k.idx + s.minGap ≤ 256) || (120000 ≤ k.idx && span))
  else false
/-- Block `b` enters state `s` between two known events (R414, R419, R421, R434). -/
def enterState (c : Chip) (k : Clock) (b : Nat) (s : PwrState) : Chip :=
  if c.blk b != .lit || !c.mayRest k b s || (c.enabled b && (c.on POWER.DEEPDIS 0 || c.pow.heldLit)) ||
      (s == .dark && 122990 ≤ k.idx) then c
  else c.setBlk b s

end Chip

/-! ### Meanings -/

/-- POWER_PLAN (R417, R426, R429, R432, R436): cycle indices 62,000 to 62,999, once a tick. -/
def execPowerPlan (tsens : List Int) (vin vio pin : Nat) (regFlt : Bool) (s : State) : Out :=
  .next (s.inWindow 62000 62999 8 fun k c => c.powerPlan k tsens vin vio pin regFlt)

/-- NIGHT_WAKE (R417): cycle index 64,900. -/
def execNightWake (s : State) : Out :=
  .next (if s.clk.idx ≤ 64900 then s.actAt 64900 fun k c => c.nightWake k else s)

/-- DARK_WAKE (R419): cycle index 122,990. -/
def execDarkWake (s : State) : Out :=
  .next (if s.clk.idx ≤ 122990 then s.actAt 122990 fun k c => c.darkWake k else s)

/-- SCHEDULED_WAKE (R413, R414): a block below LIT begins its wake before its next known event. -/
def execScheduledWake (blk : Nat) (s : State) : Out :=
  .next (s.act fun k c => if c.blk blk = .night then c else c.beginWake blk k.evc)

/-- POWER_STATE_ENTRY (R414): a block enters DIM, DUSK or DARK after a known event. -/
def execPowerStateEntry (blk : Nat) (st : Fin 4) (s : State) : Out :=
  .next (s.act fun k c =>
    match st.val with
    | 1 => c.enterState k blk .dim
    | 2 => c.enterState k blk .dusk
    | 3 => c.enterState k blk .dark
    | _ => c)

end Sys2Proof.Machine
end

