-- ==== Sys2Proof/Machine/Boot.lean ====
section
/-! DEFINITION. Power-up, resets, the boundary-scan TAP and the I/O rail (chapter 17, R479, R481). -/

namespace Sys2Proof.Machine

/-- TAP opcodes that hold a pin reset (Table 18.17, R454). [DEDUCED, log 12] -/
def tapHolds (op : Byte) : Bool := op == 0x00#8 || op == 0x03#8 || op == 0x04#8 || op == 0x05#8
/-- The boundary register drives the digital pins: every instruction that holds the part but HIGHZ, which releases them (R454, R479). [DEDUCED, log 12] -/
def tapDrives (op : Byte) : Bool := tapHolds op && op != 0x05#8
/-- The IDCODE register: version 0, part 0x9640, manufacturer 0x054, and 1 (R479). -/
def tapIdcode : BitVec 32 := 0x0#4 ++ 0x9640#16 ++ 0x054#11 ++ 1#1
/-- What the boundary register drives on ball `k` of the order E1 to E16, E22 to E36, F1 to F48: the output cell 3k + 1 where the enable
cell 3k + 2 is 1, and nothing otherwise (R480). [DESIGN CHOICE, log 77] -/
def Tap.ball (t : Tap) (k : Fin 79) : Option Bool :=
  if tapDrives t.ir && t.cells.getLsbD (3 * k.val + 2) then some (t.cells.getLsbD (3 * k.val + 1)) else none

/-- A part in reset: nothing of the core is left but what start-up needs, every output is shaded, and FAULT_N and LANTERN are low
(R444, R447).  Free values drawn are not drawn again. -/
def Chip.inReset (c : Chip) (b : Boot) : Chip :=
  { boot := { b with watchShade := true }, col := { faultn := { level := true }, lantern := false }, free := c.free }

/-- The part drives its own outputs of the I/O rail (Table 17.3, R444, R481): from power-on, while the rail stands and boundary scan does
not take the pins. -/
def Chip.sigDriven (c : Chip) : Bool := c.boot.ioRailUp && !c.port.vioLost && !tapHolds c.boot.tap.ir
/-- The levels of INT_N, FAULT_N, LANTERN and TWN_CLAIM, none while they are at high impedance (Table 17.3, R353, R354, R378, R381). -/
def Chip.sigPins (c : Chip) : Option (Bool × Bool × Bool × Bool) :=
  if c.sigDriven then some (!c.win.intn.level, !c.col.faultn.level, c.col.lantern, c.twin.claimPin.level) else none

namespace State

/-- The part with another start-up state. -/
def onBoot (s : State) (f : Boot → Boot) : State := { s with chip := s.chip.onBoot f }
/-- The core stops in phase `p`, and the next release reports `cause`. [DEDUCED, log 13] -/
def stop (s : State) (p : Phase) (cause : Nat) (f : Boot → Boot) : State :=
  { s with clk := {}, chip := s.chip.inReset (f { s.chip.boot with phase := p, nextCause := cause }) }
/-- A pin reset is recognised (R445, R454): through the supply phases it only holds S3 back. -/
def pinReset (s : State) (f : Boot → Boot) : State :=
  match s.chip.boot.phase with
  | .run | .s3 | .halted => s.stop .hold 3 f
  | _ => s.onBoot f
/-- Something holds S3 back: RST_N, or the TAP. -/
def held (s : State) : Bool := s.chip.boot.rstLow || tapHolds s.chip.boot.tap.ir
/-- S3 begins where nothing holds it back any more (R445, R454). -/
def unhold (s : State) : State :=
  if s.chip.boot.phase = .hold ∧ s.held = false then s.onBoot (fun b => { b with phase := .s3 }) else s

/-- The release edge (R38, R450, R455): cycle index 0 of tick 0, with every block at its reset values. -/
def release (s : State) (mode : Bool) (adr : Nat) (twnId : Bool) (boot : Nat) (badMem badBar : List Nat) : State :=
  let b := s.chip.boot
  let c : Chip :=
    { boot := { phase := .run, cause := b.nextCause, nextCause := b.nextCause, rstLow := b.rstLow, ioRailUp := true, vioStrap := b.vioStrap,
                vioExt := b.vioExt, bootTime := min 65535 boot, s2Restarts := b.s2Restarts, tap := b.tap }
      port := { twoWire := mode, adr := adr }
      twin := { id := bit twnId }
      free := s.chip.free }
  let c := c.setSt TWIN.TID 0 (bit twnId)
  let c := badBar.foldl (fun c d => if copper d then c.onD d (fun x => { x with barrier := true }) else c) c
  let mems := badMem.filter (fun m => (224 ≤ m && m ≤ 241) || m == 373)
  let c := c.raise {} (mems.foldl (fun l m => insertSorted m l) [])
  { s with clk := {}, chip := c }

end State

/-! ### Meanings -/

/-- VIN_RISE (R438, R440, R441, R444): S1 begins, or S2 where the I/O rail is still in regulation after a brown-out. -/
def execVinRise (cold railUp vioSel : Bool) (vioMv : Nat) (s : State) : Out :=
  .next (
    let b := s.chip.boot
    if b.phase ≠ .off then s
    else if !cold && railUp then s.onBoot (fun b => { b with phase := .s2, nextCause := 2, ioRailUp := true })
    else s.onBoot (fun b => { b with
      phase := .s1, nextCause := if cold then 1 else 2, ioRailUp := false, vioStrap := vioSel, vioExt := decide (500 ≤ vioMv),
      s2Restarts := 0, tap := {} }))

/-- POWER_ON (R439, R440): S1 ends; a supplied VIO outside its range holds the part in S1 (R455). -/
def execPowerOn (vioMv : Nat) (s : State) : Out :=
  .next (
    let b := s.chip.boot
    if b.phase = .s1 ∧ (b.vioExt = false ∨ s.chip.vioGood vioMv = true) then
      s.onBoot (fun b => { b with phase := .s2, ioRailUp := true })
    else s)

/-- RAILS_READY (R439, R445, R454): S2 ends, and S3 begins unless RST_N or the TAP holds it back. -/
def execRailsReady (s : State) : Out :=
  .next (
    if s.chip.boot.phase = .s2 then s.onBoot (fun b => { b with phase := if s.held then .hold else .s3 })
    else s)

/-- S2_RESTART (R455). -/
def execS2Restart (s : State) : Out :=
  .next (if s.chip.boot.phase = .s2 then s.onBoot (fun b => { b with s2Restarts := b.s2Restarts + 1 }) else s)

/-- CORE_RESET_RELEASE (R38, R40, R379, R446, R450, R451, R455). -/
def execCoreResetRelease (mode : Bool) (adr : Fin 8) (twnId : Bool) (boot : Nat) (badMem : List (Fin 384)) (badBar : List (Fin 96))
    (s : State) : Out :=
  .next (
    if s.chip.boot.phase = .s3 then s.release mode adr.val twnId boot (badMem.map (·.val)) (badBar.map (·.val))
    else s)

/-- BROWN_OUT (R444, R452). [DEDUCED, log 13] -/
def execBrownOut (s : State) : Out :=
  .next (if s.chip.boot.phase = .off then s else s.stop .off 2 id)

/-- PIN_RESET (R445): a low of 1 µs or more is recognised, one below 100 ns is ignored, and between the two either may happen. [DESIGN CHOICE, log 10] [DEDUCED, log 14] -/
def execPinReset (lowNs : Nat) (s : State) : Out :=
  .next (
    if lowNs < 100 then s
    else if 1000 ≤ lowNs then s.pinReset (fun b => { b with rstLow := true })
    else
      let (v, c) := s.chip.draw
      let s := { s with chip := c }
      if Config.rstBetween v then s.pinReset (fun b => { b with rstLow := true }) else s)

/-- RST_N_HIGH (R445). -/
def execRstNHigh (s : State) : Out := .next ((s.onBoot (fun b => { b with rstLow := false })).unhold)

/-- TAP_RESET (R441, R454): the TAP's own state, and the end of a reset that the TAP held. -/
def execTapReset (s : State) : Out := .next ((s.onBoot (fun b => { b with tap := {} })).unhold)

/-- TAP_INSTRUCTION (R454, R479, R480): opcodes outside Table 18.17 act as BYPASS. [DEDUCED, log 14] -/
def execTapInstruction (op : Byte) (cells : BitVec 237) (s : State) : Out :=
  .next (
    let load := fun (b : Boot) => { b with tap := { ir := op, cells := cells } }
    match s.chip.boot.phase with
    | .off | .s1 => s
    | _ => if tapHolds op then s.pinReset load else (s.onBoot load).unhold)

/-- VIO_LOSS (R481): a supplied VIO is lost. [DEDUCED, log 15] -/
def execVioLoss (s : State) : Out :=
  .next (s.act fun k c =>
    if c.boot.vioExt then ((c.onPort (fun p => { p with vioLost := true, inFrame := false, selected := false, stall := .none, held := none, opened := false })).setCond k 263
      true).syncClaim k
    else c)

/-- VIO_RETURN (R481): the next frame is counted as one that follows an error. -/
def execVioReturn (s : State) : Out :=
  .next (s.act fun k c =>
    if c.port.vioLost then ((c.onPort (fun p => { p with vioLost := false, curErr := true })).setCond k 263 false).syncClaim k
    else c)

end Sys2Proof.Machine
end

