-- ==== Sys2Proof/Machine/CollectorCmd.lean ====
section
/-! DEFINITION. Commands of the fault collector (chapter 14). -/

namespace Sys2Proof.Machine

/-- FAULT_EVENT (R350 to R353, R355, R373): the sources that rise on one edge, lowest first; for a level source, whether its
condition is present. -/
def execFaultEvent (srcs : List (Fin 384)) (present : Bool) (s : State) : Out :=
  .next (s.act fun k c =>
    let l := (srcs.map (·.val)).foldl (fun l x => insertSorted x l) []
    l.foldl (fun c x =>
      if unusedSrc x then c else if levelSrc x then c.setCond k x present else if present then c.srcEvent k x else c) c)

/-- WATCH (R356): no core-clock edge for 640 ns; the oscillator shades the outputs and drives FAULT_N low.  The core clock
has stopped, so nothing is counted or captured. -/
def execWatch (s : State) : Out :=
  .next (if s.chip.running then
    let c := s.chip.onBoot (fun b => { b with watchShade := true })
    let c := c.onCol (fun x => { x with faultn := { level := true } })
    let c := c.shadeFalls s.clk
    { s with chip := c.onBoot (fun b => { b with phase := .halted }) }
  else s)

/-- COUNT_WINDOW_TUMBLE (R351). -/
def execCountWindowTumble (src : Fin 384) (s : State) : Out :=
  .next (s.actBoundary fun k c => c.tumble k src.val)

/-- AUTOMATIC_RECOVERY (R363, R364, R374). -/
def execAutomaticRecovery (s : State) : Out :=
  .next (s.actBoundary fun k c => if c.recoveryDue k then c.recover k else c)

/-- INJECTION_LAND (R366, R367): the armed injection lands on its target's next access, at an edge after the arming one.  A
memory word then holds errored bits; a checker raises its source on that edge. [DEDUCED, log 25] -/
def execInjectionLand (addr : Nat) (s : State) : Out :=
  .next (s.act fun k c =>
    match c.col.inj with
    | some (tgt, bits, at_) =>
      if k.edges ≤ at_ then c
      else
        let c := c.injLanded k tgt
        if 224 ≤ tgt ∧ tgt ≤ 239 then
          c.onM (fun m => { m with upsets := ⟨addr / 8, addr % 8, bits⟩ :: m.upsets })
        else if tgt = 240 then
          c.onHeath (fun h => { h with upsets := ⟨0, addr, bits, false⟩ :: h.upsets })
        else if tgt = 241 then
          c.onQ (addr % 12) (fun q =>
            if q.hostOpen != [] then { q with hostOpen := markLast bits q.hostOpen }
            else if q.opens != [] then { q with
              opens := q.opens.dropLast ++ (q.opens.getLast?.map (fun o => { o with hurt := bits, hurtAt := (o.bytes.length - 1) / 4 })).toList }
            else { q with items := q.items.dropLast ++ (q.items.getLast?.map (markLast bits)).toList })
        else if tgt = 373 then
          if bits = 2 then (c.srcEvent k 373).loseGroup k (addr % 24) else c
        else c.srcEvent k tgt
    | none => c)

end Sys2Proof.Machine
end

