-- ==== Sys2Proof/Machine/Commit.lean ====
section
/-! DEFINITION. Commands of the heath and of the resets that ride on tick boundaries: verdict and outcome of a commit, revert,
snapshot, the heath's own check, and the two boundaries of a warm reset. -/

namespace Sys2Proof.Machine

/-- COMMIT_VERDICT (R93): on the edge of cycle index 124,999 of the tick that ends at the commit's boundary. -/
def execCommitVerdict (s : State) : Out := .next (s.actAt Config.lastIdx fun k c => c.takeVerdict k)

/-- COMMIT_APPLY (R73, R90, R94, R96). -/
def execCommitApply (s : State) : Out := .next (s.actBoundary fun k c => c.commitOutcome k)

/-- REVERT_PERFORM (R97). -/
def execRevertPerform (s : State) : Out := .next (s.actBoundary fun _ c => c.revert)

/-- SNAPSHOT (R100, R106, R149, R248). -/
def execSnapshot (s : State) : Out := .next (s.actBoundary fun k c => c.snapshot k)

/-- HEATH_SCRUB (R483, R108). -/
def execHeathScrub (bank : Fin 2) (addr : Nat) (fresh : Fin 3) (s : State) : Out :=
  .next (s.act fun k c => c.heathCheck k bank.val addr fresh.val)

/-- WARM_RESET_ACTIONS (R69, R70): at the boundary after the request. -/
def execWarmResetActions (s : State) : Out :=
  .next (s.actBoundary fun k c => c.warmActions k)

/-- WARM_RESET_COMPLETE (R69, R451): at the boundary after the actions. -/
def execWarmResetComplete (s : State) : Out :=
  .next (s.actBoundary fun k c => c.warmDone k)

end Sys2Proof.Machine
end

