-- ==== Sys2Proof/Machine/DpllCmd.lean ====
section
/-! DEFINITION. Commands of the references and the DPLLs (chapter 13). -/

namespace Sys2Proof.Machine

/-- LOOP_FILTER_UPDATE (R324, R325, R328, R331 to R336): the DPLL window, at its last cycle index 511. -/
def execLoopFilterUpdate (t : LoopTick) (s : State) : Out :=
  .next (s.inWindow 511 511 6 fun k c => c.loopUpdate k t)

/-- REFERENCE_PULSE (R322 to R324): a pulse `ago` cycles before, `oscNs` after the one before it by the oscillator. -/
def execReferencePulse (ref7 : Bool) (ago oscNs : Nat) (s : State) : Out :=
  .next (s.act fun k c =>
    let r := if ref7 then 7 else 5
    if !c.pulseRef r then c
    else
      let t : Int := (k.time : Int) - (ago : Int)
      let ofs := signed 32 (c.lv REF.PHOFS r)
      let e := ((t * 16 - ofs + 8000000000) % 16000000000) - 8000000000
      let c := c.onRef r (fun m => { m with pulseAt := k.ticks })
      let d := setBit (setBit (c.mon r).defs 0 false) 2 (decide (50000 < ((oscNs : Int) - 1000000000).natAbs))
      (c.setRefDefs k r d).deliver r e)

/-- DPLL_WAIT_TO_RESTORE_END (R328 step 3, R330): during a switch it is acted on as the switch completes. -/
def execDpllWaitToRestoreEnd (ch : Fin 2) (s : State) : Out :=
  .next (if 511 + bit s.clk.skip < s.clk.idx then s else s.act fun k c =>
    match (c.dp ch).wtr, (c.dp ch).sel with
    | some (r, e), some x =>
      if k.ticks < e ∨ c.maySelect ch r = false ∨ c.ranksAbove ch r x = false then c
      else
        let c := c.cause k .dpll ch 64
        if (c.dp ch).target = none then c.beginSwitch k ch r
        else (c.onCh ch (fun x => { x with wtr := none, recheck := true })).syncCh k ch
    | _, _ => c)

/-- SWITCH_COMPLETE (R329, R330): in the DPLL window, once the build-out time has passed. -/
def execSwitchComplete (ch : Fin 2) (phase : Int) (s : State) : Out :=
  .next (if 511 + bit s.clk.skip < s.clk.idx then s else s.act fun k c => if c.switchReady k ch then c.completeSwitch k ch phase else c)

end Sys2Proof.Machine
end

