-- ==== Sys2Proof/Machine/DropCmd.lean ====
section
/-! DEFINITION. Commands of the drops (chapters 7 and 8): received headers and blocks, slot-map offers, training, defects. -/

namespace Sys2Proof.Machine

/-- How many bits of a number below 2^`n` are 1. -/
def ones (n v : Nat) : Nat := (bitsIn n v).length

/-- The upstream training word (R204). -/
def upTrain : Nat := 0xC5903DEA627F18B4
/-- The upstream alignment word (R170). -/
def upFaw : Nat := 0xA1E35C648E2BF491
/-- The receiver after an alignment word with `errs` errored bits: state, errored run, and whether LOF is declared (Table 7.4). -/
def Hunt.word (h : Hunt) (run errs : Nat) : Hunt × Nat × Bool :=
  match h with
  | .hunt => (if errs = 0 then .presync else .hunt, 0, false)
  | .presync => (if errs ≤ 3 then .sync else .hunt, 0, false)
  | .sync => if errs ≤ 3 then (.sync, 0, false) else if run + 1 ≥ 4 then (.hunt, 0, true) else (.sync, run + 1, false)

namespace Chip


/-! ### The upstream header (R172 to R174, R177, R188, R192, R193, R199, R200) -/

/-- The receiver takes an alignment word (R177). -/
def huntWord (c : Chip) (k : Clock) (d errs : Nat) : Chip :=
  let x := c.d d
  let (h, run, lost) := x.rx.word x.errRun errs
  if lost then (c.leaveSync k d).raiseLof k d
  else
    let c := c.onD d (fun x => { x with rx := h, errRun := run, allSync := x.allSync && h == .sync })
    if x.rx ≠ .sync ∧ h = .sync then
      (c.onD d (fun x => { x with
        lofSince := none, delays := [], rdi := {}, xcon := {}, smmis := {}, range := {} })).setDropDef k d eLOF false
    else c

/-- One defect judged over good headers in a row. -/
def runDef (r : Run) (b : Bool) (n : Nat) (was : Bool) : Run × Bool :=
  let r := r.step b
  (r, r.judge n n was)

/-- SMLIVE against the generation live at the echoed tick (R192). -/
def checkSmlive (c : Chip) (k : Clock) (d live echo : Nat) : Chip :=
  let was := c.dropDef d eSMMIS
  let (r, now) := runDef (c.d d).smmis (live != c.genAt k d echo) 8 was
  let c := (c.onD d (fun x => { x with smmis := r })).setSmmis k d now
  if now && !was && decide ((c.d d).sm = .idle) && (c.d d).genLive != 0 && decide (c.twin.role ≠ .shadow) then c.reOffer k d else c

/-- The round trip (R193): `ago` is how many cycles before the present edge the first symbol crossed the pin. -/
def rangeHeader (c : Chip) (k : Clock) (d echo ago : Nat) (ofscor : Int) : Chip :=
  let rtt : Int := ((k.idx : Int) + (c.ticksAgo k echo : Int) * 125000 - (ago : Int)) * 16 - 1000000 - ofscor
  let valid := decide (0 ≤ rtt ∧ rtt ≤ 320000)
  let asym := if copper d then 0 else signed 32 (c.lv DROP.ASYM d)
  let one := (k.edges, if valid then some (rtt * 8 + asym) else none)
  let c := c.onD d (fun x => { x with delays := one :: x.delays.take 8 })
  let c := if valid then c.setSt SLOTMAP.RTTNS (2 * d + 1) (rtt.toNat / 16) else c
  let (r, now) := runDef (c.d d).range (!valid) 8 (c.dropDef d eRANGE)
  (c.onD d (fun x => { x with range := r })).setRange k d now

/-- Parity of a received frame, its bytes from 8 on as on the line: those of regions that `dark` marks count as zeros (R174). -/
def lineParity (m dark : Nat) (line : List Byte) : Nat :=
  let word := fun (i : Nat) => if 36 ≤ i ∧ inDark dark m ((2 * i + 8) / 20) then 0 else byteAt line (2 * i) * 256 + byteAt line (2 * i + 1)
  (List.range ((frameBytes m - 8) / 2)).foldl (fun a i => a ^^^ word i) 0
/-- REI of a good header: the bits in which its BIP16 differs from the parity of the frame before, where the receiver was in SYNC for
that frame; DARK64 of that frame is known from a good header alone (R174). -/
def reiOf (x : Drop) (was : Hunt) (h : UpHeader) : Nat :=
  match h.line with
  | some l => if was = .sync then ones 16 (lineParity x.mode ((x.rxDark.map (·.2)).getD 0) l ^^^ beField h.bytes 76 77) else 0
  | none => 0
/-- The fields of a good header are used; `was` is the receiver's state before its word. -/
def useHeader (c : Chip) (k : Clock) (d : Nat) (was : Hunt) (h : UpHeader) : Chip :=
  let b := h.bytes
  let echo := beField b 8 11
  let status := byteAt b 27
  let rei := reiOf (c.d d) was h
  let c := (c.loseGone k d echo).onD d (fun x => { x with
    rei := rei, errSec := x.errSec || rei != 0, rxDark := some (echo, beField b 28 35), rxEcho := some echo,
    badEchos := x.badEchos.filter (fun e => e != echo) })
  let c := (c.countUp DROPSTAT.BIPERR d rei).countUp DROPSTAT.FEBIP d (status % 32)
  let c := c.countUp DROPSTAT.UPDARKR d (ones 64 (beField b 28 35))
  let c := c.setSt SLOTMAP.FELIVE (2 * d) (byteAt b 24)
  let c := (c.setSt SLOTMAP.FEECHO (2 * d + 1) (byteAt b 25)).setSt SLOTMAP.FESTORED (2 * d + 1) (bit (byteAt b 26 == 1))
  let (r, now) := runDef (c.d d).rdi (has status 7) 2 (c.dropDef d eRDIRX)
  let c := (c.onD d (fun x => { x with rdi := r })).setDropDef k d eRDIRX now
  let (r, now) := runDef (c.d d).xcon (byteAt b 69 != d) 3 (c.dropDef d eXCON)
  let c := (c.onD d (fun x => { x with xcon := r })).setXcon k d now
  let x := c.d d
  let c := if c.twin.role ≠ .shadow ∧ x.sm = .offered ∧ x.echoed = false ∧ byteAt b 26 = 1 ∧ byteAt b 25 = x.genNext then
      (c.onD d (fun x => { x with echoed := true, echoAt := k.edges })).slotCause k d 2 else c
  (c.checkSmlive k d (byteAt b 24) echo).rangeHeader k d echo h.ago (signed 16 (beField b 12 13))

/-- A header whose HCRC is right (R173). -/
def goodHeader (bs : List Byte) : Bool := beField bs 78 79 == crc16 ((bs.take 78).drop 8) && bs.length == 80
/-- What a copper receiver in LISTEN decodes of the lit twin's downstream frame (R215): it hunts the downstream word in the mode it tries,
goes on to the next mode where it does not reach SYNC, and takes the mode from the good headers of SYNC. -/
def twinHeader (c : Chip) (k : Clock) (d : Nat) (bs : List Byte) : Chip :=
  let x := c.d d
  let (h, run, lost) := x.downRx.word x.downErr (ones 64 (beField bs 0 7 ^^^ 0x5E1CA39B71D40B6E))
  let c := c.onD d (fun x => { x with
    downRx := h, downErr := run, trying := if h = .hunt then x.trying % 3 + 1 else x.trying })
  if lost then ((c.leaveSync k d).raiseLof k d).onD d (fun x => { x with mode := 0 })
  else if h = .sync ∧ goodHeader bs = true ∧ byteAt bs 68 = x.trying then c.onD d (fun x => { x with mode := x.trying })
  else c
/-- A bad header (R200): the part counts ECHO on from the last good header, and takes it for that of the present tick where there is none. -/
def badFrame (n : Nat) (x : Drop) : Drop :=
  let e := ((x.rxEcho.map (· + 1)).getD n) % 2 ^ 32
  { x with rei := 0, errSec := true, rxDark := none, rxEcho := some e, badEchos := e :: x.badEchos.take 3 }
/-- A drop frame's header. -/
def frameHeader (c : Chip) (k : Clock) (d : Nat) (h : UpHeader) : Chip :=
  if !c.hearsFrames d then c
  else
    let was := (c.d d).rx
    let c := c.huntWord k d (ones 64 (beField h.bytes 0 7 ^^^ upFaw))
    if (c.d d).rx ≠ .sync then c
    else if goodHeader h.bytes then c.useHeader k d was h
    else (c.countUp DROPSTAT.BADHDR d 1).onD d (badFrame (c.lineTick k))
/-- UPSTREAM_HEADER_RX. -/
def headerRx (c : Chip) (k : Clock) (d : Nat) (h : UpHeader) : Chip :=
  (if (c.d d).ps = .listen ∧ copper d = true then c.twinHeader k d h.down else c).frameHeader k d h

/-! ### Upstream blocks (R183, R184, R239, R263, R312) -/

/-- A received block is captured (R239). -/
def captureUp (c : Chip) (k : Clock) (d b typ echo : Nat) (bs : List Byte) : Chip :=
  let t := k.ticks - c.ticksAgo k echo
  if c.groomsOut d then (c.takeSource (t + 2) true d b).onM (fun m => { m with
    capUp := ⟨d, b, typ, t, fit 20 bs⟩ :: m.capUp.filter (fun g => decide (k.ticks ≤ g.tick + 3)) })
  else c

/-- AUDIO_BLOCK_RX: the block at `b` of the frame that echoes `echo`. -/
def audioRx (c : Chip) (k : Clock) (d b echo : Nat) (bs : List Byte) : Chip :=
  if !c.takesBlocks d || decide (blocksOf (c.d d).mode ≤ b) || decide (3 < c.ticksAgo k echo) || c.ignored d echo b then c
  else
    match runAt (c.runsAt k d echo) true b with
    | none => c
    | some e =>
      if e.typ ≠ tAudio then c
      else
        let c := c.captureUp k d b tAudio echo bs
        if c.dropDef d eXCON then c
        else
          let seq := byteAt bs 18
          let good := bs.length = 20 ∧ (bs.drop 19).head? = some (crc8 (bs.take 19)) ∧ seq % 64 = echo % 64
          let rate := seq / 64
          let blk : UpAudio := { drop := d, chan := e.chan + (b - e.start), echo := echo,
                                 rate := if (c.d d).badEchos.contains echo then 5 else if good then rate else 4,
                                 samples := (List.range (framesOf rate)).map (fun i => beField bs (3 * i) (3 * i + 2)) }
          { c with aud := { c.aud with blocks := c.aud.blocks.filter (fun x => decide (c.ticksAgo k x.echo ≤ 3) &&
              !(x.drop == d && x.chan == blk.chan && x.echo == echo)) ++ [blk] } }

/-- A piece of a message on the header channel (run 0) or on the run of the drop that begins at block `run` (R175, R184, R263).
While a message is open on one run of a kind, another run of the kind opens none (R256). [DEDUCED, log 80] -/
def rxPiece (c : Chip) (k : Clock) (d kind run : Nat) (sop eop : Bool) (data : List Byte) : Chip :=
  let c := if sop && (rxRun (c.d d) kind).getD run == run then
      let c := (c.loseRx k d kind).setRxOpen d kind (some run)
      match c.rxQueue d kind with
      | some q => c.qBegin k q kind d
      | none => c
    else c
  if rxRun (c.d d) kind != some run then c
  else
    match c.rxQueue d kind with
    | none => if eop then c.setRxOpen d kind none else c
    | some q =>
      let c := c.qPush k q kind d data
      if eop then
        let held := ((c.q q).openOf kind d).isSome
        let lost := (c.q q).skipping kind d
        let c := (c.qEnd q kind d k.evc).setRxOpen d kind none
        if kind = 7 then
          if held then c.addSt TIME.TBRX 15 1 else if lost then c.addSt TIME.TBLOST 15 1 else c
        else c
      else c

/-- KIND of a run's messages (Table 10.2), and its block type. -/
def kindOf : SmallKind → Nat × Nat
  | .management => (1, tMgmt)
  | .sensor => (2, tSensor)
  | .timing => (7, tTiming)

/-- A bad block of the run that begins at block `run`, with no message open there: one that shows SOP was a message's first, which is
lost and counted once; its further blocks carry no SOP (R184, R200). -/
def loseFirst (c : Chip) (k : Clock) (d kind run : Nat) (sop : Bool) : Chip :=
  if !sop || (c.d d).rxLost.contains (kind, run) then c
  else
    let c := c.onD d (fun x => { x with rxLost := (kind, run) :: x.rxLost })
    match c.rxQueue d kind with
    | some q => c.qRewound k q
    | none => c
/-- The bytes of a small block of the run that begins at block `run`: one whose CRC fails loses the run's message (R184). -/
def smallPiece (c : Chip) (k : Clock) (d kind run : Nat) (bs : List Byte) : Chip :=
  if bs.length ≠ 20 ∨ (bs.drop 19).head? ≠ some (crc8 (bs.take 19)) then
    if rxRun (c.d d) kind = some run then c.loseRx k d kind else c.loseFirst k d kind run (has (byteAt bs 0) 7)
  else (c.onD d (fun x => { x with rxLost := x.rxLost.filter (fun l => l != (kind, run)) })).rxPiece k d kind run (has (byteAt bs 0) 7) (has (byteAt bs 0) 6) ((bs.drop 1).take (min 18 (byteAt bs 0 % 32)))
/-- One small block of a run (R184). -/
def smallRx (c : Chip) (k : Clock) (d : Nat) (sk : SmallKind) (echo b : Nat) (bs : List Byte) : Chip :=
  if !c.takesBlocks d || decide (blocksOf (c.d d).mode ≤ b) || decide (3 < c.ticksAgo k echo) || c.ignored d echo b then c
  else
    match runAt (c.runsAt k d echo) true b with
    | none => c
    | some e =>
      if e.typ ≠ (kindOf sk).2 then c
      else
        let c := c.captureUp k d b (kindOf sk).2 echo bs
        if c.dropDef d eXCON then c else c.smallPiece k d (kindOf sk).1 e.start bs

/-- One MTYPE 0x01 field of a good header (R175): byte 37, then the data. -/
def mgmtRx (c : Chip) (k : Clock) (d : Nat) (bs : List Byte) : Chip :=
  let h := byteAt bs 0
  c.rxPiece k d 0 0 (has h 7) (has h 6) ((bs.drop 1).take (min 30 (h % 32)))

/-! ### Training (R204 to R209, R225) -/

/-- A training message of 40 bytes from a receiver in SYNC, and the part's own SNR over the signal that carries it. -/
def trainMsg (c : Chip) (k : Clock) (d : Nat) (msg : List Byte) (snr : Nat) : Chip :=
  let x := c.d d
  let state := byteAt msg 0
  if beField msg 38 39 != crc16 (msg.take 38) || (state != 0x81 && state != 0x85) then c
  else
    let snrA := byteAt msg 9
    let echo := beField msg 4 7
    let c := c.setSt DROPSTAT.SNRDN d snrA
    let c := (List.range 4).foldl (fun c i =>
      c.setSt (DROPSTAT.FEID.at i) d (beField msg (12 + 4 * i) (15 + 4 * i))) c
    if state ≠ 0x81 then c
    else if x.ps = .call then
      if 2 ≤ x.train.answers then c
      else
        c.onD d (fun x =>
          let next := x.train.answers = 1 ∧ echo = (x.train.lastEcho + 1) % 2 ^ 32
          { x with train := { x.train with
            answers := if next then 2 else 1, lastEcho := echo, snrA := if next then x.train.snrB else 0xFF, snrB := snrA,
            caps := byteAt msg 3, ownSnr := snr } })
    else if x.ps = .probe ∧ byteAt msg 1 = x.train.cand then
      let tick := x.age - c.ticksAgo k echo
      if c.ticksAgo k echo ≤ x.age ∧ 9 ≤ tick ∧ tick ≤ 15 then
        c.onD d (fun x => { x with train := { x.train with probeSnr := snrA } })
      else c
    else c
/-- The training word of a frame moves the hunt, which keeps the message of the frame that led to PRESYNC (R177, R205). -/
def trainWord (c : Chip) (d : Nat) (bytes : List Byte) (snr : Nat) : Chip :=
  c.onD d (fun x =>
    let (h, run, _) := x.train.hunt.word x.train.errRun (ones 64 (beField bytes 0 7 ^^^ upTrain))
    { x with train := { x.train with hunt := h, errRun := run, pre := if h = .presync then some (bytes.drop 8, snr) else none } })
/-- The drop's receiver hunts the training word. -/
def hearsTraining (x : Drop) : Bool := x.ps == .call || x.ps == .prep || x.ps == .probe || (x.ps == .select && !x.awaiting)
/-- The messages that a frame makes good: once in SYNC its own, and before it that of the frame which led to PRESYNC. [DEDUCED, log 42] -/
def trainMsgs (c : Chip) (k : Clock) (d : Nat) (pre : Option (List Byte × Nat)) (msg : List Byte) (snr : Nat) : Chip :=
  if (c.d d).train.hunt ≠ .sync then c
  else
    match pre with
    | some p => (c.trainMsg k d p.1 p.2).trainMsg k d msg snr
    | none => c.trainMsg k d msg snr
/-- ANSWER_RX: bytes 0 to 47 of a training frame. -/
def answerRx (c : Chip) (k : Clock) (d : Nat) (bytes : List Byte) (snr : Nat) : Chip :=
  if !hearsTraining (c.d d) || bytes.length != 48 then c
  else (c.trainWord d bytes snr).trainMsgs k d (c.d d).train.pre (bytes.drop 8) snr

/-- Defects judged on the tick just closed (R219, R220, Table 8.8). [DEDUCED, log 48] [DEDUCED, log 73] -/
def judgeDrop (c : Chip) (k : Clock) (d : Nat) (t : DropTick) : Chip :=
  let x := c.d d
  if x.ps = .off then c
  else
    let cop := copper d
    let up := x.ps == .up && decide (1 ≤ x.age)
    let sends := c.dropSends d
    let c := c.setSt DROPSTAT.TEMP d (unsigned 16 t.temp)
    let c := if cop then (c.setSt DROPSTAT.ATTEN d (unsigned 16 t.txPwr)).setSt DROPSTAT.ERL d (min 65535 t.erl)
      else ((c.setSt DROPSTAT.ATTEN d (if sends then unsigned 16 t.txPwr else 0x8000)).setSt DROPSTAT.ERL d
        (if t.pwr < -4000 then 0x8000 else unsigned 16 t.pwr)).setSt DROPSTAT.LASBIAS d (min 65535 t.bias)
    let snr := min 255 t.snr
    let c := if (x.ps != .wait && x.ps != .held) || snr != 0xFF then c.setSt DROPSTAT.SNRUP d snr else c
    let def0 := c.st DROPSTAT.DEF d
    -- ISO and OPT
    let bad := if cop then t.leak else
      (sends && (decide (t.txPwr < -50) || decide (350 < t.txPwr))) || decide (40000 < t.bias)
    let iso := x.iso.step (cop && bad)
    let opt := x.opt.step (!cop && bad)
    let def1 := setBit (setBit def0 eISO (iso.judge 1 8 (has def0 eISO))) eOPT (opt.judge 8 8 (has def0 eOPT))
    -- the defects judged in UP
    let los0 := has def0 eLOS
    let okCount := if t.pwr ≥ (if cop then -4200 else -2800) then x.losOk + 1 else 0
    let los := if los0 then decide (okCount < 2) else decide (t.pwr < (if cop then -4500 else -3000))
    let lol := if has x.raw eLOL then t.unlock != 0 else decide (2000 ≤ t.unlock)
    let carries := (c.runsAt k d (c.lineTick k + 2 ^ 32 - 1)).any (fun e => e.up && e.typ == tPacket)
    let lfd := if has x.raw eLFD then !x.endGfp else x.tickSync && !x.tickGfp && carries
    let thr := snrThr x.mode
    let low := decide (snr < thr)
    let high := decide (thr + 4 ≤ snr)
    let run : Run := { hi := if low then x.snr.hi + 1 else 0, lo := if high then x.snr.lo + 1 else 0 }
    let snrLow := run.judge 8 8 (has x.raw eSNRLOW)
    let raw := setBit (setBit (setBit 0 eLOL lol) eLFD lfd) eSNRLOW snrLow
    let lof := has def0 eLOF
    let def2 := if !up then def1 else
      let d2 := clearBits def1 [eLOL, eLFD, eSNRLOW] ||| (if los then 0 else raw)
      setBit (setBit d2 eLOS los) eMODELOW (decide (x.mode < c.lv DROP.MODE d))
    let c := c.onD d (fun x => { x with
      iso := iso, opt := opt, losOk := if up then okCount else 0, snr := if up then run else {}, raw := if up then raw else 0,
      lofSec := x.lofSec || (lof && x.ps == .up), errSec := x.errSec || lof })
    c.setDropDefs k d def2

end Chip

/-! ### Meanings -/

/-- UPSTREAM_HEADER_RX (R172 to R178, R188, R190, R192, R193, R199, R200). -/
def execUpstreamHeaderRx (d : Fin 96) (h : UpHeader) (s : State) : Out := .next (s.act fun k c => c.headerRx k d h)

/-- SLOT_MAP_OFFER (R188 step 2): at a superframe boundary with the receiver in SYNC. -/
def execSlotMapOffer (d : Fin 96) (s : State) : Out :=
  .next (s.actBoundary fun k c =>
    let x := c.d d
    if k.superframe && decide (x.sm = .waiting) && decide (x.rx = .sync) && decide (c.twin.role ≠ .shadow) then
      ((c.haltMch k d).onD d (fun x => { x with sm := .offered, offerAge := 0, echoed := false })).syncSlot d
    else c)

/-- APPLY_NEXT (R188 step 4): at the first superframe boundary after the echo. -/
def execApplyNext (d : Fin 96) (s : State) : Out :=
  .next (s.actBoundary fun k c =>
    let x := c.d d
    if k.superframe && decide (x.sm = .offered) && echoedBefore k x && decide (c.twin.role ≠ .shadow) then
      (c.onD d (fun x => { x with sm := .applyNext, offerAge := 0 })).syncSlot d
    else c)

/-- GENERATION_APPLY (R188 step 5): at the superframe boundary that ends the apply-next superframe. -/
def execGenerationApply (d : Fin 96) (s : State) : Out :=
  .next (s.actBoundary fun k c =>
    let x := c.d d
    if k.superframe && decide (x.sm = .applyNext) && decide (1 ≤ x.offerAge) then (c.applyGen k d).haltGone k d else c)

/-- SMFLT (R190): on the boundary that ends the fourth whole superframe of an offer without an echo. -/
def execSmflt (d : Fin 96) (s : State) : Out :=
  .next (s.actBoundary fun k c =>
    let x := c.d d
    if k.superframe && decide (x.sm = .offered) && !echoedBefore k x && decide (4 ≤ x.offerAge) && decide (c.twin.role ≠ .shadow) then
      c.setSmflt k d true
    else c)

/-- AUDIO_BLOCK_RX (R183, R239). -/
def execAudioBlockRx (d : Fin 96) (blk echo : Nat) (bytes : List Byte) (s : State) : Out :=
  .next (s.act fun k c => c.audioRx k d blk echo bytes)

/-- SMALL_BLOCK_MESSAGE (R184, R263, R312): blocks of a run in their order. -/
def execSmallBlockMessage (d : Fin 96) (kind : SmallKind) (echo : Nat) (blocks : List (Nat × List Byte)) (s : State) : Out :=
  .next (s.act fun k c => blocks.foldl (fun c b => c.smallRx k d kind echo b.1 b.2) c)

/-- MANAGEMENT_MESSAGE (R175, R263). -/
def execManagementMessage (d : Fin 96) (chunks : List (List Byte)) (s : State) : Out :=
  .next (s.act fun k c => if c.takesBlocks d then chunks.foldl (fun c b => c.mgmtRx k d b) c else c)

/-- SILENT_END (R207 steps 1 and 2): after 8 ticks, with the noise measured. -/
def execSilentEnd (d : Fin 96) (noise : Byte) (s : State) : Out :=
  .next (s.actBoundary fun k c =>
    if !c.shaded && decide ((c.d d).ps = .silent) && decide (8 ≤ (c.d d).age) then
      (c.setSt DROPSTAT.NOISE d noise.toNat).setPs k d (if copper d then .quietec else .call)
    else c)

/-- QUIETEC_END (R207 step 2): after 16 ticks. -/
def execQuietecEnd (d : Fin 96) (s : State) : Out :=
  .next (s.actBoundary fun k c =>
    if !c.shaded && decide ((c.d d).ps = .quietec) && decide (16 ≤ (c.d d).age) then c.setPs k d .call else c)

/-- ANSWER_RX (R205, R207, R208). -/
def execAnswerRx (d : Fin 96) (bytes : List Byte) (snr : Byte) (s : State) : Out :=
  .next (s.act fun k c => c.answerRx k d bytes snr.toNat)

/-- CALL_TIMEOUT (R207 step 3, R225): 64 ticks without two good ANSWERs. -/
def execCallTimeout (d : Fin 96) (s : State) : Out :=
  .next (s.actBoundary fun k c =>
    if !c.shaded && decide ((c.d d).ps = .call) && decide (64 ≤ (c.d d).age) && decide ((c.d d).train.answers < 2) then c.trainFail k d else c)

/-- PREP_END (R208): after 4 ticks. -/
def execPrepEnd (d : Fin 96) (s : State) : Out :=
  .next (s.actBoundary fun k c =>
    if !c.shaded && decide ((c.d d).ps = .prep) && decide (4 ≤ (c.d d).age) then c.setPs k d .probe else c)

/-- PROBE_JUDGEMENT (R208): at cycle index 124,999 of probe tick 15. -/
def execProbeJudgement (d : Fin 96) (snr : Byte) (s : State) : Out :=
  .next (s.actAt 124999 fun _ c =>
    let x := c.d d
    if decide (x.ps = .probe) && x.age == 15 && !x.train.judged then
      c.onD d (fun x => { x with train := { x.train with
        judged := true,
        chosen := if c.snrPass d x.train.cand snr.toNat && c.snrPass d x.train.cand x.train.probeSnr then x.train.cand else 0 } })
    else c)

/-- SELECT_END (R207 step 5): the first superframe boundary at least 4 ticks after the first SELECT frame. -/
def execSelectEnd (d : Fin 96) (s : State) : Out :=
  .next (s.actBoundary fun k c =>
    let x := c.d d
    if !c.shaded && k.superframe && decide (x.ps = .select) && !x.awaiting && decide (4 ≤ x.age) then
      c.onD d (fun x => { x with
        awaiting := true, age := 0, mode := x.train.chosen, rx := .hunt, errRun := 0, txBip := 0, rei := 0 })
    else c)

/-- DROP_UP (R207 step 6): on the boundary after the receiver reaches SYNC. -/
def execDropUp (d : Fin 96) (s : State) : Out :=
  .next (s.actBoundary fun k c =>
    let x := c.d d
    if !c.shaded && decide (x.ps = .select) && x.awaiting && decide (x.rx = .sync) then c.enterUp k d else c)

/-- SYNC_TIMEOUT (R225): 64 ticks after the first drop frame. -/
def execSyncTimeout (d : Fin 96) (s : State) : Out :=
  .next (s.actBoundary fun k c =>
    let x := c.d d
    if !c.shaded && decide (x.ps = .select) && x.awaiting && decide (64 ≤ x.age) && decide (x.rx ≠ .sync) then c.trainFail k d else c)

/-- RETRY (R207): RETRYGAP ticks in WAIT. -/
def execRetry (d : Fin 96) (s : State) : Out :=
  .next (s.actBoundary fun k c =>
    if !c.shaded && decide ((c.d d).ps = .wait) && decide (c.lv DROP.RETRYGAP d ≤ (c.d d).age) then c.enterSilent k d else c)

/-- RETRAIN (R214): LOF for LOFRT × 8 ticks, or a commit that changed the mode fields. [DEDUCED, log 43] -/
def execRetrain (d : Fin 96) (s : State) : Out :=
  .next (s.actBoundary fun k c =>
    let x := c.d d
    let n := c.lv DROP.LOFRT d * 8 * Config.tickCycles
    let lost := match x.lofSince with
      | some e => n != 0 && decide (e + n ≤ k.pos)
      | none => false
    if !c.shaded && decide (x.ps = .up) && !x.closing && ((match x.retrain with
      | some t => decide (t < k.ticks)
      | none => false) || lost) then (c.enterSilent k d).dropAllHeads k else c)

/-- DROP_DEFECT_JUDGEMENT (R219, R220): cycle indices 0 to 127, once a tick. -/
def execDropDefectJudgement (d : Fin 96) (t : DropTick) (s : State) : Out :=
  .next (s.inWindow 0 127 (100 + d) fun k c => c.judgeDrop k d t)

/-- DROP_OFF (R223): at the boundary after the last frame; downstream items not begun by then are discarded under DISABLED. -/
def execDropOff (d : Fin 96) (s : State) : Out :=
  .next (s.actBoundary fun k c =>
    let x := c.d d
    if x.closing && decide (1 ≤ x.age) then
      ((c.enterOff k d).disposeDrop k d).dropAllHeads k
    else c)

end Sys2Proof.Machine
end

