-- ==== Sys2Proof/Machine/Map.lean ====
section
/-! DEFINITION. The mapper (chapter 6) and the packet stream of a drop (R182, R212): received GFP-F and Ethernet frames, the
upstream scheduler and its commands. -/

namespace Sys2Proof.Machine

/-- One received core header (R141): the new state, whether the frame behind it is received in SYNC, corrections and errors. -/
def Gfp.core (g : Gfp) (errs : Nat) : Gfp × Bool × Nat × Nat :=
  match g with
  | .hunt => (if errs = 0 then .presync else .hunt, false, 0, 0)
  | .presync => if errs = 0 then (.sync, true, 0, 0) else (.hunt, false, 0, 0)
  | .sync => if errs = 0 then (.sync, true, 0, 0) else if errs = 1 then (.sync, true, 1, 0) else (.hunt, false, 0, 1)

namespace Chip

/-! ### Lookups -/

/-- The downstream selector takes client frames from uplink `u`. -/
def selected (c : Chip) (u : Nat) : Bool := c.lv APS.MODE (u / 2) == 0 || c.st APS.ACTIVE (u / 2) == u % 2
/-- The valid tributary of uplink `u` with a KEY. -/
def tribByKey (c : Chip) (u key : Nat) : Option Nat :=
  (List.range 256).find? (fun t => c.on TRIB.VALID t && c.lv TRIB.UPL t == c.workingOf u && c.lv TRIB.KEY t == key)
/-- The valid tributary of drop `d` with a DCID. -/
def tribByDcid (c : Chip) (d cid : Nat) : Option Nat :=
  (List.range 256).find? (fun t => c.on TRIB.VALID t && c.lv TRIB.DROP t == d && c.lv TRIB.DCID t == cid)

/-- HECCOR, HECUNC or UNKNOWN of uplink `u` (R159). -/
def hecFld (even odd : Fld) (u : Nat) : Fld := if u % 2 = 0 then even else odd
/-- A frame that is counted and not accepted. -/
def unknownFrame (c : Chip) (u : Nat) : Chip := c.addSt (hecFld APS.UNKNOWN0 APS.UNKNOWN1 u) (u / 2) 1

/-- A client frame of tributary `t` that is refused before it is written into the meadow: counted, and recorded where the
cause is DISABLED.  It has no cell and no stamp of a write, so the record's are free values. [DESIGN CHOICE, log 28] -/
def refuseFrame (c : Chip) (k : Clock) (t : Nat) (up : Bool) (cause len : Nat) : Chip :=
  let c := c.countDisc t up cause
  if cause = cDisabled then
    let (cell, c) := c.draw
    let (stamp, c) := c.draw
    c.failRecord k QUEUE.FRDIS cause t up (cell % 2 ^ 19) len (word stamp) k.evc
  else c

/-- A client frame of uplink `u` for tributary `t` begins (R142 to R144, R164, R213): `good` is what its checks find at its end. [DEDUCED, log 45] -/
def beginDown (c : Chip) (k : Clock) (u t : Nat) (whole good : Bool) (bs : List Byte) : Chip :=
  if !c.on TRIB.ENDN t then c.refuseFrame k t false cDisabled bs.length
  else if c.liveBad 0x12 t then c.refuseFrame k t false cCheck bs.length
  else
    let (c, open_) := c.beginClient k t false (c.lv TRIB.DROP t) (c.lv TRIB.DCID t) bs whole good
    (c.onU u (fun x => { x with rx := open_ })).dropHeads k t (c.items t false).length
/-- Further bytes of the client frame being received on uplink `u`; at its end `finish` gives the item its last form. -/
def growDown (c : Chip) (k : Clock) (u : Nat) (last good : Bool) (bs : List Byte) (finish : Item → Item) : Chip :=
  match (c.u u).rx with
  | none => c
  | some it =>
    match (c.onU u (fun x => { x with rx := none })).growItem k it bs with
    | (c, .error _) => c
    | (c, .ok it) =>
      if !last then c.onU u (fun x => { x with rx := some it })
      else if good then (c.commitItem k (finish it)).dropHeads k it.trib ((c.items it.trib false).length + 1)
      else c.discardItem k it cCheck

/-- A GFP-F payload area as a receiver reads it. -/
def readArea (a : List Byte) : GfpFrame :=
  let pfi := (a.getD 0 0#8).getLsbD 4
  let body := a.drop 8
  let client := if pfi then body.take (body.length - 4) else body
  { core := 0
    pli := a.length
    pti := byteAt a 0 / 32
    pfi := pfi
    exi := byteAt a 0 % 16
    hecOk := true
    cid := byteAt a 4
    fcsOk := !pfi || body.drop (body.length - 4) == pfcsOf client
    client := client }
/-- In loopback the mapper receives the oldest frame that the part has sent, or an idle frame (R134). -/
def loopGfp (c : Chip) (u : Nat) (f : GfpFrame) : GfpFrame × Chip :=
  if c.on UPL.LOOPNE u then
    match (c.u u).loop with
    | a :: r => (readArea a, c.onU u (fun x => { x with loop := r }))
    | [] => ({ readArea [] with pli := 0 }, c)
  else (f, c)
/-- The same in an Ethernet mode: a frame that the part has not sent does not arrive. -/
def loopEther (c : Chip) (u : Nat) (f : EtherFrame) : EtherFrame × Chip :=
  if c.on UPL.LOOPNE u then
    match (c.u u).loop with
    | a :: r =>
      let body := a.take (a.length - 4)
      ({ f with bytes := a, fcsOk := a.drop (a.length - 4) == etherFcs body, part := .whole, errored := false },
       c.onU u (fun x => { x with loop := r }))
    | [] => ({ f with part := .more, bytes := [] }, c)
  else (f, c)

/-- GFP_FRAME_RX of a frame from its core header on. -/
def gfpFirst (c : Chip) (k : Clock) (u : Nat) (f : GfpFrame) : Chip :=
  let c := c.endRx k u cCheck
  let (g, sync, cor, unc) := (vget c.gfp u .hunt).core f.core
  let c := ({ c with gfp := vupd c.gfp u (fun _ => g) }).apsLfd k (u / 2)
  let c := c.addSt (hecFld APS.HECCOR0 APS.HECCOR1 u) (u / 2) cor
  let c := c.addSt (hecFld APS.HECUNC0 APS.HECUNC1 u) (u / 2) unc
  if !sync || f.pli == 0 then c
  else if !f.hecOk then c.addSt (hecFld APS.HECUNC0 APS.HECUNC1 u) (u / 2) 1
  else if f.pti ≠ 0 ∨ f.exi ≠ 1 then c.unknownFrame u
  else
    match c.tribByKey u f.cid with
    | none => c.unknownFrame u
    | some t => if !c.selected u then c else c.beginDown k u t (f.part == .whole) (!f.pfi || f.fcsOk) f.client
/-- GFP_FRAME_RX. -/
def gfpRx (c : Chip) (k : Clock) (u : Nat) (f : GfpFrame) : Chip :=
  if !RuleCtx.otn (c.lv UPL.MODE u) || c.st UPLSTAT.SF u == 1 || c.loopDead u then c
  else
    let (f, c) := c.loopGfp u f
    match f.part with
    | .whole | .first => c.gfpFirst k u f
    | .more => c.growDown k u false true f.client id
    | .last => c.growDown k u true (!f.pfi || f.fcsOk) f.client id

/-- An item that ends with the FCS of the untagged frame (R143). -/
def refcs (it : Item) : Item :=
  let body := it.data.take (it.data.length - 4)
  { it with data := body ++ etherFcs body }
/-- ETHERNET_FRAME_RX of a frame from its first byte on. -/
def etherFirst (c : Chip) (k : Clock) (u : Nat) (f : EtherFrame) (good : Bool) : Chip :=
  let c := c.endRx k u cCheck
  if c.ptpMatch u f.bytes then c.ptpReceive k u { f with fcsOk := good }
  else
    let tagged := beField f.bytes 12 13 == 0x88A8 && decide (16 ≤ f.bytes.length)
    match (if tagged then c.tribByKey u (beField f.bytes 14 15 % 4096) else none) with
    | none => c.unknownFrame u
    | some t =>
      let raw := f.bytes.take 12 ++ f.bytes.drop 16
      let body := raw.take (raw.length - 4)
      let whole := f.part == .whole
      if !c.selected u then c else c.beginDown k u t whole good (if whole then body ++ etherFcs body else raw)
/-- ETHERNET_FRAME_RX: the blocks of an uncorrectable codeword are errored unless BYPIND passes them unmarked (R115). -/
def etherRx (c : Chip) (k : Clock) (u : Nat) (f : EtherFrame) : Chip :=
  if !RuleCtx.eth (c.lv UPL.MODE u) || c.st UPLSTAT.SF u == 1 || c.loopDead u then c
  else
    let (f, c) := c.loopEther u f
    let good := f.fcsOk && !(f.errored && c.lv UPL.MODE u == 4 && c.on UPL.FECRX u && !c.on UPL.BYPIND u)
    match f.part with
    | .whole | .first => c.etherFirst k u f good
    | .more => c.growDown k u false true f.bytes id
    | .last => c.growDown k u true good f.bytes refcs

/-- The checks at the end of an upstream client frame (R143). -/
def upGood (c : Chip) (u n : Nat) : Bool := !(RuleCtx.eth (c.lv UPL.MODE u) && decide (n < 60))
/-- DROP_GFP_FRAME of a frame from its core header on. [DEDUCED, log 45] -/
def dropGfpFirst (c : Chip) (k : Clock) (d : Nat) (f : GfpFrame) : Chip :=
  let c := c.endUp k d cCheck
  let (g, sync, cor, unc) := (c.d d).gfp.core f.core
  let c := c.onD d (fun x => { x with gfp := g, anyGfp := x.anyGfp || g == .sync })
  let c := (c.countUp DROPSTAT.GFPCOR d cor).countUp DROPSTAT.GFPUNC d unc
  if !sync || f.pli == 0 then c
  else if !f.hecOk then c.countUp DROPSTAT.GFPUNC d 1
  else if f.pti ≠ 0 ∨ f.exi ≠ 1 ∨ f.pfi = true then c
  else
    match c.tribByDcid d f.cid with
    | none => c.countUp DROPSTAT.UNKDCID d 1
    | some t =>
      let n := f.client.length
      let u := c.lv TRIB.UPL t
      if !c.on TRIB.ENUP t then c.refuseFrame k t true cDisabled n
      else if c.dropDef d eXCON then c.refuseFrame k t true cNopath n
      else if c.liveBad 0x12 t then c.refuseFrame k t true cCheck n
      else
        let (c, open_) := c.beginClient k t true u (c.lv TRIB.KEY t) f.client (f.part == .whole) (c.upGood u n)
        c.onD d (fun x => { x with rxItem := open_ })
/-- Further bytes of the client frame being received on drop `d`. -/
def growUp (c : Chip) (k : Clock) (d : Nat) (last : Bool) (bs : List Byte) : Chip :=
  match (c.d d).rxItem with
  | none => c
  | some it =>
    match (c.onD d (fun x => { x with rxItem := none })).growItem k it bs with
    | (c, .error _) => c
    | (c, .ok it) =>
      if !last then c.onD d (fun x => { x with rxItem := some it })
      else if c.upGood it.dest it.data.length then c.commitItem k it else c.discardItem k it cCheck
/-- DROP_GFP_FRAME. [DEDUCED, log 44] -/
def dropGfpRx (c : Chip) (k : Clock) (d : Nat) (f : GfpFrame) : Chip :=
  if !c.takesBlocks d then c
  else
    match f.part with
    | .whole | .first => c.dropGfpFirst k d f
    | .more => c.growUp k d false f.client
    | .last => c.growUp k d true f.client

/-! ### The upstream scheduler (R145 to R147) -/

/-- The scheduler of uplink `u` is the one of its pair's working uplink. -/
def schedOf (c : Chip) (u : Nat) : Nat := c.workingOf u
/-- Tributary `t` has an item that scheduler `u` may send now: enabled, and within its allowance. -/
def ready (c : Chip) (u t : Nat) : Bool :=
  match (c.t t).up with
  | it :: _ => c.workingOf it.dest == u && ((c.t t).closeUp || (c.on TRIB.VALID t && c.on TRIB.ENUP t)) &&
      (c.lv TRIB.UPCAP t == 0 || decide (it.data.length ≤ (c.t t).allow))
  | [] => false
/-- Length of the head item. -/
def headLen (c : Chip) (t : Nat) : Nat := ((c.t t).up.head?.map (fun i => i.data.length)).getD 0
/-- A row's WEIGHT in bytes, or 1 where it has none (a row that is being closed, R162). -/
def weightOf (c : Chip) (t : Nat) : Nat := max 1 (c.lv TRIB.WEIGHT t * 64)
/-- Visits rows in turn from row `r` on until one may send its head item (R145). [DEDUCED, log 37] -/
def visit (c : Chip) (u r : Nat) : Nat → Option Nat × Chip
  | 0 => (none, c)
  | n + 1 =>
    let t := r % 256
    if c.ready u t then
      let c := c.onT t (fun x => { x with deficit := x.deficit + c.weightOf t })
      if c.headLen t ≤ (c.t t).deficit then (some t, c) else c.visit u (t + 1) n
    else c.visit u (t + 1) n
/-- The tributary that scheduler `u` serves now. -/
def schedule (c : Chip) (u : Nat) : Option Nat × Chip :=
  let x := vget c.sched u {}
  if x.visit && c.ready u x.last && decide (c.headLen x.last ≤ (c.t x.last).deficit) then (some x.last, c)
  else if (List.range 256).any (fun t => c.ready u t) then c.visit u (x.last + 1) (256 * 9601)
  else (none, c)

/-- The transmitter behind scheduler `u` sends client frames; a pair's does while either uplink's does (R147). -/
def schedSends (c : Chip) (u : Nat) : Bool :=
  c.sendsClient u || (c.lv APS.MODE (u / 2) != 0 && c.sendsClient (u / 2 * 2 + 1))

/-- An upstream item goes to the lines of its scheduler: an uncorrectable word of its first cell is met before it begins and discards it;
one met later spoils the rest of it (R148, R231). -/
def lineItem (c : Chip) (k : Clock) (w : Nat) (it : Item) : Chip :=
  let (bad, c) := c.readCells k (it.cells.take 1)
  if bad then c.discardItem k it cCheck
  else
    let (bad, c) := c.readCells k (it.cells.drop 1)
    let it := { it with begun := true, bad := bad }
    let one := fun (c : Chip) (u : Nat) => if c.sendsClient u then c.lineSend k u (c.itemFrame u it) else c
    let c := if c.lv APS.MODE (w / 2) = 0 then one c w else one (one c w) (w + 1)
    if bad then c.discardItem k it cCheck else c.deliverItem k it
/-- UPSTREAM_ITEM_SENT: one item goes whole, behind a PTP frame that waits for the gap (R310). [DESIGN CHOICE, log 38] [DEDUCED, log 46] -/
def sendItem (c : Chip) (k : Clock) (u : Nat) : Chip :=
  let w := c.schedOf u
  if c.twin.role = .shadow || c.ptpWaits k w || (c.lv APS.MODE (w / 2) != 0 && c.ptpWaits k (w + 1)) then c
  else
    let (pick, c) := c.schedule w
    match pick with
    | none => c
    | some t =>
      match (c.t t).up with
      | it :: r =>
        let n := it.data.length
        let c := { c with sched := vupd c.sched w (fun _ => { last := t, visit := true }) }
        let c := (c.onT t (fun x => { x with deficit := x.deficit - n, allow := x.allow - n })).setItems t true r
        if c.shaded then c.discardItem k it cShade
        else if !c.schedSends w then c.discardItem k it cNopath
        else c.lineItem k w it
      | [] => c

end Chip

/-! ### Meanings -/

/-- GFP_FRAME_RX (R141, R142). -/
def execGfpFrameRx (u : Fin 4) (f : GfpFrame) (s : State) : Out := .next (s.act fun k c => c.gfpRx k u f)

/-- ETHERNET_FRAME_RX (R143, R309). -/
def execEthernetFrameRx (u : Fin 4) (f : EtherFrame) (s : State) : Out := .next (s.act fun k c => c.etherRx k u f)

/-- SCHEDULER_CREDIT_REFILL (R146): cycle indices 16 to 271, once a tick. -/
def execSchedulerCreditRefill (s : State) : Out :=
  .next (s.inWindow 16 271 4 fun _ c =>
    overN 256 (fun t c => c.onT t (fun x => { x with allow := c.lv TRIB.UPCAP t * 64 })) c)

/-- UPSTREAM_ITEM_SENT (R145, R147, R148). [DESIGN CHOICE, log 38] -/
def execUpstreamItemSent (u : Fin 4) (s : State) : Out := .next (s.act fun k c => c.sendItem k u)

/-- DROP_GFP_FRAME (R182, R212). -/
def execDropGfpFrame (d : Fin 96) (f : GfpFrame) (s : State) : Out := .next (s.act fun k c => c.dropGfpRx k d f)

end Sys2Proof.Machine
end

