-- ==== Sys2Proof/Machine/MeadowCmd.lean ====
section
/-! DEFINITION. Commands of the meadow, the crossbar and the grooming engine (chapter 9). -/

namespace Sys2Proof.Machine

/-- Rows of a bank, the grooming reserve included (R228, R232). -/
def bankRows : Nat := 32768

namespace Chip

/-! ### The scrubber (R231, R232) -/

/-- A cell of the grooming reserve is in use: the buffers keep a block there (R232, R239). -/
def reserveUsed (c : Chip) (k : Clock) (cell : Nat) : Bool :=
  let hit := fun (buf d b : Nat) => (reserveHalf buf d b).1 == cell
  c.mead.out.any (fun g => hit (outBuf k.ticks) g.drop g.blk) || c.mead.outNext.any (fun g => hit (outBuf (k.ticks + 1)) g.drop g.blk) ||
  c.groomRows.any (fun r => (List.range (c.lv GROOM.HEIGHT r)).any (fun i => (List.range (c.lv GROOM.WIDTH r)).any (fun j =>
    (List.range 3).any (fun n => hit (srcBuf n (c.on GROOM.SRCDIR r)) (c.lv GROOM.SRCDROP r + i) (c.lv GROOM.SRCBLK r + j)))))

/-- The scrubber's read of the next cell of bank `b`, with `fresh` errored bits just found in word `w`. -/
def scrub (c : Chip) (k : Clock) (b w fresh : Nat) : Chip :=
  let row := vget c.mead.scrubRow b 0
  let cell := row * 16 + b
  let old := c.mead.upsets.filter (fun x => x.cell == cell)
  let here := (old.find? (fun x => x.wrd == w)).map (·.bits)
  let words := (old.filter (fun x => x.wrd != w)).map (fun x => (x.wrd, x.bits)) ++
    (if here.getD 0 + fresh = 0 then [] else [(w, min 2 (here.getD 0 + fresh))])
  let one := (words.filter (fun x => x.2 == 1)).length
  let two := words.filter (fun x => x.2 == 2)
  let reserve := decide (sharedRows ≤ row)
  let keep := if reserve then c.reserveUsed k cell else c.mead.used.contains cell
  let c := c.onM (fun m => { m with
    upsets := (if keep then two.map (fun x => ⟨cell, x.1, 2⟩) else []) ++ m.upsets.filter (fun x => x.cell != cell),
    eccCor := wrapAdd 32 m.eccCor one, eccUnc := wrapAdd 32 m.eccUnc two.length, fixedNow := m.fixedNow || one != 0,
    scrubRow := vupd m.scrubRow b (fun r => (r + 1) % bankRows),
    scrubs := if row + 1 = bankRows then wrapAdd 32 m.scrubs 1 else m.scrubs })
  two.foldl (fun c _ =>
    let c := c.srcEvent k (224 + b)
    if reserve then c.srcEvent k 212 else c) c

/-! ### Locks and the default target (R236 to R238) -/

/-- Master `m` runs locked sequences on target `t` (R237): the window engine on the heath and queue RAMs, the timing engine on the queue
RAM, the twin engine of a paired part on the heath RAM. [DEDUCED, log 90] -/
def locks (c : Chip) (m t : Nat) : Bool :=
  (c.lv XBAR.LOCKEN 0).testBit m &&
  ((m == 0 && (t == 16 || t == 17)) || (m == 6 && t == 17) || (m == 7 && t == 16 && decide (c.twin.role ≠ .solo)))
/-- The lock that master `m` has held on target `t` for 64 edges is broken: its sequence has no effect. [DEDUCED, log 90] -/
def breakLock (c : Chip) (k : Clock) (m t : Nat) : Chip :=
  if !c.locks m t then c
  else
    let c := (c.onM (fun x => { x with lockBrk := wrapAdd 16 x.lockBrk 1 })).srcEvent k 208
    if m = 0 then c.onM (fun x => { x with brokeHeath := x.brokeHeath || t == 16, brokeQueue := x.brokeQueue || t == 17 })
    else if m = 6 then c.onM (fun x => { x with brokeTime := true })
    else if c.twin.role = .shadow then c.onTwin (fun x => { x with brokeRuns := true })
    else if c.mirrors then c.onTwin (fun x => { x with backlog := fullBank })
    else c

/-! ### Grooming moves (R239 to R243) -/

/-- The source block of a move: in the downstream plane of the frame one tick back, in the upstream plane of the frame that
echoes two ticks back (R239, R241).  One in a half with an uncorrectable word is absent (R231). -/
def sourceBlock (c : Chip) (k : Clock) (up : Bool) (d b typ : Nat) : Option (List Byte) × Chip :=
  let x := c.d d
  let got := if up then (c.mead.capUp.find? (fun g => g.drop == d && g.blk == b && g.typ == typ && g.tick + 2 == k.ticks)).map (·.bytes)
    else if x.frameUp && x.frameTick + 1 == k.ticks then
      (match x.frame[b - 4]? with
      | some (t, bs) => if t = typ ∧ 4 ≤ b then some bs else none
      | none => none)
    else none
  let (bad, c) := c.readHalf k (reserveHalf (srcBuf k.ticks up) d b)
  (if bad then none else got, c)
/-- An audio block rewritten for downstream tick `n`; one whose ACRC failed goes unchanged (R242). -/
def rewriteAudio (n : Nat) (bs : List Byte) : List Byte :=
  if (bs.drop 19).head? = some (crc8 (bs.take 19)) then
    let b := bs.take 18 ++ [byte (byteAt bs 18 / 64 * 64 + n % 64)]
    b ++ [crc8 b]
  else bs
/-- Block (`i`, `j`) of the rectangle of row `r` is moved. -/
def moveBlock (c : Chip) (k : Clock) (r i j : Nat) : Chip :=
  let d := c.lv GROOM.DSTDROP r + i
  let b := c.lv GROOM.DSTBLK r + j
  let typ := c.lv GROOM.TYPE r
  let (src, c) := c.sourceBlock k (c.on GROOM.SRCDIR r) (c.lv GROOM.SRCDROP r + i) (c.lv GROOM.SRCBLK r + j) typ
  match src with
  | some bs =>
    let bytes := if typ = tAudio then rewriteAudio (c.lineTick k + 1) bs else bs
    (c.writeHalf (reserveHalf (outBuf (k.ticks + 1)) d b)).onM (fun m => { m with outNext := ⟨d, b, typ, k.ticks + 1, bytes⟩ :: m.outNext })
  | none => c.onM (fun m => { m with absentNext := (d, b) :: m.absentNext })
/-- The moves of the tick, into the frame of the next one. -/
def groom (c : Chip) (k : Clock) : Chip :=
  let rows := c.groomRows
  let moves := rows.flatMap (fun r =>
    (List.range (c.lv GROOM.HEIGHT r)).flatMap (fun i =>
      (List.range (c.lv GROOM.WIDTH r)).map (fun j => (r, i, j))))
  moves.foldl (fun c m => c.moveBlock k m.1 m.2.1 m.2.2) c

end Chip

/-! ### Meanings -/

/-- SCRUBBER_READ (R231, R232). -/
def execScrubberRead (bank : Fin 16) (wrd : Fin 8) (fresh : Fin 3) (s : State) : Out :=
  .next (s.act fun k c => c.scrub k bank wrd fresh)

/-- LOCK_BREAK (R236, R237). -/
def execLockBreak (m : Fin 8) (t : Fin 19) (s : State) : Out := .next (s.act fun k c => c.breakLock k m t)

/-- DEFAULT_TARGET_ACCESS (R238). -/
def execDefaultTargetAccess (m : Fin 8) (wr : Bool) (s : State) : Out :=
  .next (s.act fun k c =>
    (c.onM (fun x => { x with defTgt := wrapAdd 16 x.defTgt 1, defLast := bit wr * 8 + m.val })).srcEvent k 209)

/-- GROOMING_MOVES (R239 to R242): cycle indices 256 to 119,999, once a tick. -/
def execGroomingMoves (s : State) : Out := .next (s.inWindow 256 119999 5 fun k c => c.groom k)

end Sys2Proof.Machine
end

