-- ==== Sys2Proof/Machine/Windows.lean ====
section
/-! DEFINITION. The twelve window registers (chapter 3): what a read returns and what a write does. -/

namespace Sys2Proof.Machine

/-- WID (R66). -/
def wid : Word := 0x96405401#32

/-- WSTAT.ROLE code (R67). -/
def Role.code : Role → Nat
  | .solo => 0 | .lit => 1 | .shadow => 2

namespace Chip

/-- A pending commit holds a disable of a port or queue (WSTAT.DISPEND, R67, R131, R162, R223, R269, R291). [DEDUCED, log 55] -/
def dispend (c : Chip) : Bool :=
  let l := c.heath.live
  let b := c.heath.staged
  let off := fun (f : Fld) (n : Nat) => (List.range n).any (fun r => l.fld f r == 1 && b.fld f r == 0)
  c.win.pend && ((List.range 4).any (fun r => l.fld UPL.MODE r != 0 && b.fld UPL.MODE r == 0) || off UPL.TXEN 4 ||
    off DROP.EN 96 || off AUDIO.RXEN 8 || off AUDIO.TXEN 8 ||
    (List.range 12).any (fun r => l.read (hAddr 0x38 r 0) != b.read (hAddr 0x38 r 0)) ||
    (l.rows 0x12).any (fun r => (l.read (hAddr 0x12 r 0)).toNat / 2 ^ 29 &&& (7 - (b.read (hAddr 0x12 r 0)).toNat / 2 ^ 29) != 0))

/-- WSTAT (R67). [DEDUCED, log 58] -/
def wstat (c : Chip) (k : Clock) : Word :=
  let dp := fun i => bit (decide ((vget c.dpll.chan i {}).st = .lock))
  word (bit c.shaded * 2 ^ 31 + c.twin.role.code * 2 ^ 29 + bit c.twin.req.isSome * 2 ^ 28 + bit k.inFence * 2 ^ 27 +
    k.ticks % 8 * 2 ^ 24 + c.win.appTag * 2 ^ 16 + bit c.win.pend * 2 ^ 15 + bit c.dispend * 2 ^ 14 +
    bit (decide (c.win.warm ≠ .idle)) * 2 ^ 13 + bit c.schemaOk * 2 ^ 12 + bit (c.col.flt != []) * 2 ^ 11 + dp 0 * 2 ^ 10 +
    dp 1 * 2 ^ 9 + bit ((List.range 96).any (fun d => (c.d d).sm != .idle)) * 2 ^ 8 +
    bit c.win.intn.level * 2 ^ 7 + bit c.win.glmulti * 2 ^ 6)

/-- HCOMMIT as read (R72). -/
def hcommitWord (c : Chip) : Word :=
  let w := c.win
  word (bit w.pend * 2 ^ 31 + bit w.defer * 2 ^ 30 + bit w.rej * 2 ^ 29 + w.rejCause * 2 ^ 16 + w.lastTag * 2 ^ 8 + w.appTag)

/-- QSEL as read (R82). -/
def qselWord (c : Chip) : Word :=
  let q := c.win.qid
  word (c.qLevel q * 2 ^ 13 + bit (c.q q).replay * 64 + q)

/-- A read of a window register other than HDATA and QDATA (R64). -/
def readReg (c : Chip) (k : Clock) (idx : Nat) : Word :=
  match idx with
  | 0 => wid
  | 1 => c.wstat k
  | 2 => word (bit c.win.hainc * 2 + bit c.win.fovr)
  | 3 => c.win.haddr
  | 5 => c.hcommitWord
  | 6 => c.win.icause
  | 7 => c.win.imask
  | 8 => c.win.glint
  | 9 => c.port.tsecSample.headD c.win.tsec
  | 10 => c.qselWord
  | _ => 0#32

/-- A commit request with its tag (R34, R72, R74, R92, R95, R418). -/
def commitRequest (c : Chip) (k : Clock) (tag : Nat) : Chip :=
  let c := c.onWin (fun w => { w with lastTag := tag, rej := false })
  if c.win.pend then c
  else
    let fence := k.inFence
    (c.onWin (fun w => { w with
      pend := true, defer := fence && !w.fovr, fenceReject := fence && w.fovr,
      commitIn := if fence && !w.fovr then 2 else 1, verdict := none })).commitWake k

/-- A WCTL write (R68, R69): a warm reset discards a role request in the same write, and a warm reset in progress discards
every other. -/
def wctlWrite (c : Chip) (k : Clock) (v : Word) : Chip :=
  let n := v.toNat
  let c := c.onWin (fun w => { w with hainc := v.getLsbD 1, fovr := v.getLsbD 0 })
  let c := if v.getLsbD 2 then c.icause k 17 else c
  let req := n / 2 ^ 16 % 8
  if n / 2 ^ 24 = 0xA3 ∨ c.win.warm ≠ .idle then
    if n / 2 ^ 24 = 0xA3 ∧ c.win.warm = .idle then c.onWin (fun w => { w with warm := .asked, warmIn := 1 }) else c
  else if 1 ≤ req ∧ req ≤ 3 then c.roleRequest k req
  else c

/-- An ICAUSE write clears the bits written 1, but for those an event sets on the same edge (R14, R75), and holds INT_N high
for the re-arm gap (R79). -/
def icauseWrite (c : Chip) (k : Clock) (v : Word) : Chip :=
  c.onWin (fun w =>
    let keep := if w.setNo = k.edges then w.setBits else 0#32
    ({ w with icause := w.icause &&& ~~~ (v &&& ~~~ keep), gapEnd := some (k.evc + 32) }).rewant k)

/-- A QSEL write (R13, R54, R82, R270): a reserved QID leaves the queue selected as it was. -/
def qselWrite (c : Chip) (k : Clock) (v : Word) : Chip :=
  let old := c.win.qid
  let q := if 12 ≤ v.toNat % 16 then old else v.toNat % 16
  let c := if q = old then c else c.onQ old (fun x => { x with replay := false })
  let c := c.onWin (fun w => { w with qid := q })
  let c := if v.getLsbD 5 && c.qEn q then c.qFlush k q false else c
  c.onQ q (fun x => { x with replay := v.getLsbD 6 && decide (q < 8) && c.qEn q })

/-- A write of a window register other than HDATA and QDATA takes effect (R64, R84). -/
def writeReg (c : Chip) (k : Clock) (idx : Nat) (v : Word) : Chip :=
  match idx with
  | 2 => c.wctlWrite k v
  | 3 => c.onWin (fun w => { w with haddr := v })
  | 5 => if v.toNat / 2 ^ 24 = 0xC1 ∧ c.win.warm ≠ .acted then c.commitRequest k (v.toNat / 256 % 256) else c
  | 6 => c.icauseWrite k v
  | 7 => c.onWin (fun w => ({ w with imask := v &&& 0x0003FFFF#32 }).rewant k)
  | 10 => c.qselWrite k v
  | _ => c

end Chip

end Sys2Proof.Machine
end

