-- ==== Sys2Proof/Machine/Port.lean ====
section
/-! DEFINITION. The Alisk serial port (chapter 2): frames, beats, their points of effect, QDATA stalls, and every command
that arrives as a beat. -/

namespace Sys2Proof.Machine

namespace Chip

/-- The port serves frames (R63, R481). -/
def portOn (c : Chip) : Bool := c.port.ready && !c.port.vioLost
/-- What the part drives on ALK_SDO: the last byte it has begun to send, 0xFF in the command position and after the last beat,
high impedance in 2-wire mode and while no frame that it serves holds ALK_SS_N low (R39, R46, R47, R63, R481). -/
def sdo (c : Chip) : Option Byte :=
  let p := c.port
  if !c.portOn || p.twoWire || !p.selected then none
  else some (if !p.inFrame then 0xFF#8 else if p.opened || p.stall != .none then p.reply.lead else p.reply.crc)
/-- The 7-bit target address of 2-wire mode (R49). -/
def target (c : Chip) : BitVec 7 := 0x58#7 + BitVec.ofNat 7 (c.port.adr % 8)

/-- The present frame ends. -/
def endFrame (c : Chip) : Chip :=
  c.onPort (fun p => { p with inFrame := false, stall := .none, held := none, opened := false, given := .bad })
/-- ALK_SS_N rises: the part no longer drives ALK_SDO (R39). -/
def deselect (c : Chip) : Chip := c.onPort (fun p => { p with selected := false })
/-- A beat of the present frame has failed to take effect (R55). -/
def failed (c : Chip) : Chip := c.onPort (fun p => { p with curErr := true, beatDone := false })
/-- An aborted beat (R48, R52). -/
def abortBeat (c : Chip) : Chip := (c.onPort (fun p => { p with aborts := satAdd 32 p.aborts 1 })).failed
/-- A beat at an index from 0xC to 0xF: its frame counts once (R56, R65). -/
def idxError (c : Chip) : Chip :=
  (c.onPort (fun p => { p with
    idxErrs := if p.idxCounted then p.idxErrs else satAdd 16 p.idxErrs 1, idxCounted := true })).failed
/-- A failed CRC (R62). -/
def crcError (c : Chip) : Chip := (c.onPort (fun p => { p with crcFail := satAdd 32 p.crcFail 1 })).failed
/-- A beat that took effect (R56). [DEDUCED, log 51] -/
def tookEffect (c : Chip) : Chip := c.onPort (fun p => { p with frames := satAdd 32 p.frames 1, beatDone := true })

/-- A frame begins with its command byte: PREVERR tells of the frame before (R55).  A beat left open, or stalled, was aborted. -/
def beginFrame (c : Chip) (cmd : Byte) : Chip :=
  let c := if c.port.stall = .none ∧ c.port.opened = false then c else c.abortBeat
  c.onPort (fun p => { p with
    inFrame := true, selected := !p.twoWire, cmd := cmd, idx := beatIdx cmd, prevErr := p.curErr, curErr := false, beatDone := false,
    idxCounted := false, stall := .none, held := none, opened := false, given := .bad,
    reply := {}, tickSample := [], timeSample := [], tsecSample := [] })

/-- The index of the beat after one at `idx` (R41, R65). -/
def nextIdx (cmd : Byte) (idx : Nat) : Nat := if beatIdx cmd = 4 ∨ beatIdx cmd = 11 then idx else min 12 (idx + 1)

/-- The part serves a frame that begins with this beat: it began after the port was ready, and in 2-wire mode it carries the part's
address (R49, R63). -/
def serves (c : Chip) (b : Beat) : Bool := c.portOn && !b.early && (!c.port.twoWire || b.addr == c.target)
/-- A beat opens: the first begins its frame, a later one steps the index; none where no frame takes it.  A frame that the part
does not serve ends the one before it, and nothing of it is taken. [DEDUCED, log 50] -/
def openBeat (c : Chip) (b : Beat) : Option Chip :=
  if b.first then
    if c.serves b then some (c.beginFrame b.cmd) else none
  else if c.portOn && c.port.inFrame && !c.port.opened && c.port.stall = .none then
    some (c.onPort (fun p => { p with idx := nextIdx p.cmd p.idx }))
  else none

/-- A beat closes: the frame goes on only as a burst. -/
def closeBeat (c : Chip) (b : Beat) : Chip :=
  if b.last || !beatAi c.port.cmd then c.endFrame else c

/-- The host's side of a read is good: the command CRC in 4-wire mode, the acknowledge of the CRC byte in 2-wire mode (R53). -/
def readOk (c : Chip) (b : Beat) : Bool := if c.port.twoWire then b.ack else b.crc == crc8 [c.port.cmd]
/-- The CRC of a write beat is good (R44). -/
def writeOk (c : Chip) (b : Beat) : Bool := b.crc == beatCrc c.port.cmd b.data b.tag
/-- A read that the host does not complete: a failed command CRC, or in 2-wire mode a withheld acknowledge that abandons the
frame (R52, R62). [DEDUCED, log 51] -/
def readFails (c : Chip) : Chip := if c.port.twoWire then c.abortBeat.endFrame else c.crcError

/-- What the part sends for a read beat (R43, R46), and what it then holds as given. -/
def replyRead (c : Chip) (data : Word) (eop : Bool) (vcnt : Nat) (hErr qErr : Bool) (g : Given) : Chip :=
  let p := c.port
  let tag := mkTag eop vcnt (decide (12 ≤ p.idx)) p.prevErr hErr qErr
  c.onPort (fun p => { p with
    given := g, reply := { lead := 0xA5#8, data := data, tag := tag, crc := beatCrc p.cmd data tag, ack := true } })
/-- What the part sends for a write beat: in 4-wire mode its tag and CRC, in 2-wire mode the acknowledge of the CRC byte. -/
def replyWrite (c : Chip) (ack : Bool) : Chip :=
  let p := c.port
  let tag := mkTag false 0 (decide (12 ≤ p.idx)) p.prevErr false false
  c.onPort (fun p => { p with
    reply := if p.twoWire then { lead := 0xFF#8, ack := ack }
      else { lead := 0xA5#8, tag := tag, crc := crc8 [p.cmd, tag], ack := true } })

/-! ### QDATA -/

/-- Every QDATA access ends in a queue error at once: a warm reset, a queue that does not act, the wrong direction, or a
locked sequence that broke (R69, R83, R237, R254). -/
def qdataRefused (c : Chip) (wr : Bool) : Bool :=
  decide (c.win.warm = .acted) || !c.qEn c.win.qid || (if wr then decide (c.win.qid < 8) else decide (8 ≤ c.win.qid)) ||
    (!wr && c.mead.brokeQueue)

/-- A QDATA read begins to return its word: none of a refused access, the replay copy, or the next word of the queue (R42, R54,
R83, R272).  A replayed word carries its own tag, QERR with it. -/
def qdataSend (c : Chip) (k : Clock) : Chip :=
  let i := c.win.qid
  if c.qdataRefused false then
    (c.replyRead 0#32 false 0 false true .refused).onM (fun m => { m with brokeQueue := false })
  else
    let q := c.q i
    match q.replay, q.copy with
    | true, some w => c.replyRead w.data w.eop w.vcnt false q.copyErr .copy
    | r, _ =>
      match c.qHead k i with
      | some w => c.replyRead w.data w.eop w.vcnt false (r || w.err == 2) (.word w r)
      | none => c

/-- A QDATA read takes effect: its word is consumed, and the request for a replay ends (R42, R54, R82, R272).  A word that has left
its queue since the part began to send it is not consumed again. -/
def qdataDone (c : Chip) (k : Clock) (g : Given) : Chip :=
  let i := c.win.qid
  let c := match g with
    | .copy => c.onPort (fun p => { p with replays := satAdd 16 p.replays 1 })
    | .word w r =>
      if c.qHead k i = some w then
        let c := c.qPop i w (r || w.err == 2)
        let c := if w.err = 1 then { c with qramFixed := true } else c
        if w.err = 2 then c.srcEvent k 241 else c
      else c
    | _ => c
  (c.onQ i (fun x => { x with replay := false })).tookEffect

/-- A word is ready for a QDATA read of the selected queue. -/
def qdataReady (c : Chip) (k : Clock) : Bool :=
  c.qdataRefused false || ((c.q c.win.qid).replay && (c.q c.win.qid).copy.isSome) || (c.qHead k c.win.qid).isSome

/-- A QDATA write that its queue discards (R261). -/
def qdataDiscard (c : Chip) (k : Clock) (i : Nat) : Chip :=
  let c := if (c.q i).hostOpen = [] then c else (c.onQ i (fun x => { x with hostOpen := [] })).qRewound k i
  ((c.qDropped k i).qSync i).failed

/-- The selected downward queue can take or must discard the word at once: it does not stall (R42, R261). -/
def qdataRoom (c : Chip) : Bool :=
  c.qdataRefused true || decide (0 < c.qFree c.win.qid) || (c.q c.win.qid).items == []

/-- A QDATA word taken by the selected downward queue at its point of effect (R260, R261). -/
def qdataTake (c : Chip) (k : Clock) (b : Beat) : Chip :=
  let i := c.win.qid
  if c.qdataRefused true then c.failed
  else if (tagVcnt b.tag ≠ 0 ∧ tagEop b.tag = false) ∨ c.qFree i = 0 then c.qdataDiscard k i
  else
    let w : QWord := ⟨b.data, tagEop b.tag, tagVcnt b.tag, 0⟩
    let c := c.onQ i (fun x =>
      if w.eop then { x.append k (x.hostOpen ++ [w]) with hostOpen := [] }
      else { x with hostOpen := x.hostOpen ++ [w] })
    (c.qSync i).tookEffect

/-- The beat waits (R42, R51): in 4-wire mode, and in a 2-wire read, the lead is 0x5A; a 2-wire write has no lead, and the part
stretches the clock with SDA released. -/
def stallBeat (c : Chip) (b : Beat) (s : Stall) : Chip :=
  c.onPort (fun p => { p with
    stall := s, held := some b, reply := if s = .stretch then { lead := 0xFF#8 } else { lead := 0x5A#8 } })

/-! ### Beats -/

/-- A read beat begins to return its data at the present index: what it returns is sampled on this edge (R11, R42, R46, R65, R71,
R81, R297). -/
def readSend (c : Chip) (k : Clock) : Chip :=
  let i := c.port.idx
  if 12 ≤ i then c.replyRead 0#32 false 0 false false .bad
  else if i = 4 then
    let a := c.win.haddr.toNat
    let e := c.readError a
    if e = 0 then
      let v := c.readWord k a
      let c := if a = hAddr 1 0 0 then c.onPort (fun p => { p with tickSample := k.tickWords }) else c
      let c := if a = hAddr 0x50 0 0 then c.onPort (fun p => { p with timeSample := timeWords k c.tim.stepRem }) else c
      (c.replyRead v false 0 false false (.heath a v)).meetRead k a
    else
      let c := c.replyRead (word e) false 0 true false (.heathErr e)
      if e = hEcc then c.meetRead k a else c
  else if i = 11 then c.qdataSend k
  else
    let v := c.readReg k i
    (c.replyRead v false 0 false false (.reg i)).onPort (fun p => { p with tsecSample := if i = 8 then [c.win.tsec] else [] })

/-- A read beat reaches its point of effect (R11, R53, R54, R56, R65, R81, R88): where the host completes it, what it returned is
consumed or cleared. -/
def readDone (c : Chip) (k : Clock) (b : Beat) : Chip :=
  let g := c.port.given
  let done := c.readOk b
  match g with
  | .bad => if done then c.idxError else c.idxError.readFails
  | .heath a v => if done then ((c.readEffect a v).bumpAddr).tookEffect else c.readFails
  | .heathErr _ => if done then (c.onM (fun m => { m with brokeHeath := false })).tookEffect else c.readFails
  | .reg i =>
    if done then (if i = 8 then c.onWin (fun w => { w with glmulti := false }) else c).tookEffect else c.readFails
  | g => if done then c.qdataDone k g else c.readFails

/-- A write beat reaches its point of effect at the present index (R46, R50, R53, R62, R65).  In 2-wire mode a beat whose CRC fails
is not acknowledged, and the frame goes on. [DESIGN CHOICE, log 83] -/
def writeBeat (c : Chip) (k : Clock) (b : Beat) : Chip :=
  let i := c.port.idx
  if 12 ≤ i then
    let c := (c.replyWrite true).idxError
    if c.writeOk b then c else c.crcError
  else if !c.writeOk b then (c.replyWrite false).crcError
  else if i = 4 then
    let a := c.win.haddr.toNat
    let e := c.writeError a b.data
    let c := c.replyWrite true
    if e = 0 then ((c.writeWord k a b.data).bumpAddr).tookEffect
    else (c.onM (fun m => { m with brokeHeath := false })).tookEffect
  else if i = 11 then (c.replyWrite true).qdataTake k b
  else ((c.replyWrite true).writeReg k i b.data).tookEffect

/-- A 2-wire write to an index from 0xC to 0xF: the part does not acknowledge the command byte, or the first data byte of a beat that
steps there, and the frame ends (R50, R62, R65).  The first is no aborted beat. -/
def refuseWrite (c : Chip) (first : Bool) : Chip :=
  let c := (c.replyWrite false).idxError
  (if first then c else c.abortBeat).endFrame

/-- An open beat goes on to what its command brings: it begins to return its data, reaches its point of effect, or both. -/
def runBeat (c : Chip) (k : Clock) (b : Beat) : Chip :=
  let wr := beatWr c.port.cmd
  let c := if wr then c else c.readSend k
  if b.part = .starts then c.onPort (fun p => { p with opened := true })
  else (if wr then c.writeBeat k b else c.readDone k b).closeBeat b

/-- The beat must wait: a QDATA read without a word, or a QDATA write without room (R42, R51). -/
def beatWaits (c : Chip) (k : Clock) : Bool :=
  c.port.idx == 11 && (if beatWr c.port.cmd then !c.qdataRoom else !c.qdataReady k)

/-- One command's beat: it opens, samples, takes effect or fails, and closes; a QDATA beat that must wait stalls (R42, R51, R53). -/
def beat (c : Chip) (k : Clock) (b : Beat) : Chip :=
  if b.part = .ends then
    if !c.portOn || !c.port.opened then c
    else
      let c := c.onPort (fun p => { p with opened := false })
      (if beatWr c.port.cmd then c.writeBeat k b else c.readDone k b).closeBeat b
  else
    match c.openBeat b with
    | none => c
    | some c =>
      if c.port.twoWire && beatWr c.port.cmd && decide (12 ≤ c.port.idx) then c.refuseWrite b.first
      else if c.beatWaits k then
        c.stallBeat b (if !beatWr c.port.cmd then .read else if c.port.twoWire then .stretch else .write)
      else c.runBeat k b

/-- The beat that waits goes on: the lead byte is 0xA5, or the stretch ends, and the beat goes on to what its command brings. -/
def resume (c : Chip) (k : Clock) : Chip :=
  match c.port.held with
  | none => c
  | some b => (c.onPort (fun p => { p with stall := .none, held := none })).runBeat k b

end Chip

/-! ### Which command a beat is -/

/-- The window index a beat reaches, as the port stands: one that has begun keeps the frame's. -/
def Chip.reach (c : Chip) (b : Beat) : Nat :=
  if b.part = .ends then c.port.idx else if b.first then beatIdx b.cmd else Chip.nextIdx c.port.cmd c.port.idx
/-- The beat writes. -/
def Chip.writes (c : Chip) (b : Beat) : Bool := beatWr (if b.first && b.part != .ends then b.cmd else c.port.cmd)
/-- A command that is a beat: it comes about where the beat is of its kind.  On a boundary edge the boundary's own work comes first
(R107). [DESIGN CHOICE, log 3] -/
def State.beat (s : State) (b : Beat) (kind : Chip → Bool) : State :=
  if kind s.chip then s.boundaryDone.act fun k c => c.beat k b else s

/-! ### Meanings: register and window beats -/

/-- REGISTER_WRITE (R53): a write beat to a window register; a read beat to a register that has no row of its own is served the
same way (R64 to R68, R72, R75, R81, R82). -/
def execRegisterWrite (b : Beat) (s : State) : Out :=
  .next (s.beat b fun c => c.reach b < 12 && c.reach b != 4 && c.reach b != 11)

/-- INVALID_INDEX_ACCESS (R15, R65). -/
def execInvalidIndexAccess (b : Beat) (s : State) : Out := .next (s.beat b fun c => 12 ≤ c.reach b)

/-- WARM_RESET_REQUEST (R69). -/
def execWarmResetRequest (b : Beat) (s : State) : Out :=
  .next (s.beat b fun c => c.writes b && c.reach b == 2 && b.data.toNat / 2 ^ 24 == 0xA3)

/-- CLAIM_LIT (R395, R408): `peerHigh` is TWN_PEER over the last 2,048 cycles. -/
def execClaimLit (b : Beat) (peerHigh : Bool) (s : State) : Out :=
  .next (if s.chip.writes b && s.chip.reach b == 2 && b.data.toNat / 2 ^ 16 % 8 == 1 then
      s.boundaryDone.act fun k c => (c.setPeer peerHigh).beat k b
    else s)

/-- YIELD_TO_SHADOW (R401, R408). -/
def execYieldToShadow (b : Beat) (s : State) : Out :=
  .next (s.beat b fun c => c.writes b && c.reach b == 2 && b.data.toNat / 2 ^ 16 % 8 == 2)

/-- LEAVE_PAIR (R402, R408). -/
def execLeavePair (b : Beat) (s : State) : Out :=
  .next (s.beat b fun c => c.writes b && c.reach b == 2 && b.data.toNat / 2 ^ 16 % 8 == 3)

/-- SOFTWARE_INTERRUPT (R68). -/
def execSoftwareInterrupt (b : Beat) (s : State) : Out :=
  .next (s.beat b fun c => c.writes b && c.reach b == 2 && b.data.getLsbD 2)

/-- HDATA_READ (R71, R88, R91, R101, R102). -/
def execHdataRead (b : Beat) (s : State) : Out := .next (s.beat b fun c => !c.writes b && c.reach b == 4)

/-- HDATA_WRITE (R71, R88, R90 to R92, R102). -/
def execHdataWrite (b : Beat) (s : State) : Out := .next (s.beat b fun c => c.writes b && c.reach b == 4)

/-- SCHEMA_LOCK (R98): an HDATA write of DIR.HOSTSCHEMA. -/
def execSchemaLock (b : Beat) (s : State) : Out :=
  .next (s.beat b fun c => c.writes b && c.reach b == 4 && c.win.haddr.toNat == hAddr 0 0 0)

/-- REVERT_REQUEST (R97): an HDATA write of DIR.REVERT = 1. -/
def execRevertRequest (b : Beat) (s : State) : Out :=
  .next (s.beat b fun c => c.writes b && c.reach b == 4 && c.win.haddr.toNat == hAddr 0 0 1 && b.data.getLsbD 8)

/-- SNAPREQ (R100, R106): an HDATA write of GLOBAL.SNAPREQ = 1. -/
def execSnapreq (b : Beat) (s : State) : Out :=
  .next (s.beat b fun c => c.writes b && c.reach b == 4 && c.win.haddr.toNat == hAddr 1 0 5 && b.data.getLsbD 0)

/-- COMMIT_REQUEST (R72, R95, R418). -/
def execCommitRequest (b : Beat) (s : State) : Out :=
  .next (s.beat b fun c => c.writes b && c.reach b == 5 && b.data.toNat / 2 ^ 24 == 0xC1)

/-- ICAUSE_CLEAR (R75, R79). -/
def execIcauseClear (b : Beat) (s : State) : Out := .next (s.beat b fun c => c.writes b && c.reach b == 6)

/-- RE_ARM_GAP_END (R79): 32 cycles after an ICAUSE write. -/
def execReArmGapEnd (s : State) : Out :=
  .next (match s.chip.win.gapEnd with
    | some e =>
      let s := if s.chip.running then s.toEvc e else s
      if e ≤ s.clk.evc then s.act fun k c => c.onWin (fun w => ({ w with gapEnd := none }).rewant k) else s
    | none => s)

/-- GLINT_READ (R81). -/
def execGlintRead (b : Beat) (s : State) : Out := .next (s.beat b fun c => !c.writes b && c.reach b == 8)

/-- QUEUE_SELECT (R82). -/
def execQueueSelect (b : Beat) (s : State) : Out := .next (s.beat b fun c => c.writes b && c.reach b == 10)

/-- FLUSH (R270). -/
def execFlush (b : Beat) (s : State) : Out :=
  .next (s.beat b fun c => c.writes b && c.reach b == 10 && b.data.getLsbD 5)

/-- REPLAY (R54). -/
def execReplay (b : Beat) (s : State) : Out :=
  .next (s.beat b fun c => c.writes b && c.reach b == 10 && b.data.getLsbD 6)

/-- QDATA_READ (R42, R54, R83, R272). -/
def execQdataRead (b : Beat) (s : State) : Out := .next (s.beat b fun c => !c.writes b && c.reach b == 11)

/-- QDATA_WRITE (R42, R83, R260, R261). -/
def execQdataWrite (b : Beat) (s : State) : Out := .next (s.beat b fun c => c.writes b && c.reach b == 11)

/-! ### Meanings: frames that stall or end early -/

/-- QDATA_STALL_END (R42): a word, or room, has appeared for the access that waits. -/
def execQdataStallEnd (s : State) : Out :=
  .next (s.act fun k c =>
    if (c.port.stall = .read ∧ c.qdataReady k) ∨ (c.port.stall = .write ∧ c.qdataRoom) then c.resume k else c)

/-- STRETCH_RELEASE (R51): room has appeared during a clock stretch. -/
def execStretchRelease (s : State) : Out :=
  .next (s.act fun k c => if c.port.stall = .stretch ∧ c.qdataRoom then c.resume k else c)

/-- STRETCH_TIMEOUT (R51): the stretch reaches 200 µs; the byte is not acknowledged and the frame is abandoned under R52. [DEDUCED, log 50] -/
def execStretchTimeout (s : State) : Out :=
  .next (s.act fun _ c =>
    if c.port.stall = .stretch then
      ((c.onPort (fun p => { p with
        stretchTo := satAdd 16 p.stretchTo 1, reply := { p.reply with ack := false } })).abortBeat).endFrame
    else c)

/-- SDA_RELEASE (R52): ALK_SCK high for 8 ticks while the part drives SDA low in a read; a beat that is cut short has been brought as
one that only starts. -/
def execSdaRelease (s : State) : Out :=
  .next (s.act fun _ c =>
    if c.portOn && c.port.twoWire && c.port.inFrame && !beatWr c.port.cmd then
      ((c.onPort (fun p => { p with sdaFree := satAdd 16 p.sdaFree 1 })).abortBeat).endFrame
    else c)

/-- BEAT_ABORT (R48, R59): ALK_SS_N rises before the last CRC bit of a beat.  `first` tells that it is the first beat of a frame
that the part serves, whose command is `cmd` and of which no part has been brought yet. [DESIGN CHOICE, log 83] -/
def execBeatAbort (cmd : Byte) (first : Bool) (s : State) : Out :=
  .next (s.act fun _ c =>
    if c.portOn && !c.port.twoWire then
      let c := if first then c.beginFrame cmd else c
      (if c.port.inFrame then c.abortBeat.endFrame else c).deselect
    else c)

/-- BURST_END (R48, R52): ALK_SS_N rises during the lead bytes of a beat, or after the last beat of the frame.  A burst whose beat
before took effect ends normally; in any other frame it is an abort. -/
def execBurstEnd (s : State) : Out :=
  .next (s.act fun _ c =>
    if c.portOn && !c.port.twoWire then
      (if !c.port.inFrame then c
       else if beatAi c.port.cmd && c.port.beatDone then c.endFrame
       else c.abortBeat.endFrame).deselect
    else c)

/-- START_STOP_CONDITION (R49, R50, R52, R62): a 2-wire frame is abandoned, or a burst read ends normally at the lead byte of a
further beat; an address+R without a read command before it is not acknowledged, and nothing else comes of it. -/
def execStartStopCondition (how : BusEnd) (cmd : Byte) (first : Bool) (s : State) : Out :=
  .next (s.act fun _ c =>
    if c.portOn && c.port.twoWire then
      if how = .noCommand then
        let c := if c.port.inFrame then c.abortBeat.endFrame else c
        c.onPort (fun p => { p with reply := { p.reply with ack := false } })
      else
        let c := if first then c.beginFrame cmd else c
        if !c.port.inFrame then c
        else if how = .leadNack ∧ !beatWr c.port.cmd ∧ c.port.beatDone then c.endFrame
        else
          let c := if how = .noRestart then c.onPort (fun p => { p with reply := { p.reply with ack := false } }) else c
          c.abortBeat.endFrame
    else c)

/-- PORT_READY (R63): 10,000 cycles after core reset release.  The first frame carries PREVERR = 0. -/
def execPortReady (s : State) : Out :=
  .next (if s.chip.running && !s.chip.port.ready then
    (if s.clk.ticks = 0 then s.toIdx 10000 else s).act fun _ c => c.onPort (fun p => { p with
      ready := true, curErr := false, prevErr := false, inFrame := false })
  else s)

end Sys2Proof.Machine
end

