-- ==== Sys2Proof/Machine/QueueCmd.lean ====
section
/-! DEFINITION. Commands of the host queues inside the part (chapter 10): commits of upward items, consumers of downward items,
and the LEVEL cause. -/

namespace Sys2Proof.Machine

/-- A consumer of a downward queue other than PTP (Table 10.4): an uplink's GCC, or a drop's header channel, management blocks
or sensor blocks. -/
inductive Consumer where
  | gcc (u : Nat)
  | mch (d : Nat)
  | mbk (d : Nat)
  | sns (d : Nat)
  deriving DecidableEq, Repr

namespace Chip

/-- The consumer that live configuration names for downward queue `q`. -/
def consumer (c : Chip) (q : Nat) : Option Consumer :=
  match (List.range 4).find? (fun u => c.on UPL.GCCDNEN u && c.lv UPL.GCCQD u == q) with
  | some u => some (.gcc u)
  | none =>
    match (List.range 96).find? (fun d => c.on DROP.MCHDEN d && c.lv DROP.MCHDQ d == q) with
    | some d => some (.mch d)
    | none =>
      match (List.range 96).find? (fun d => c.on DROP.MBKDEN d && c.lv DROP.MBKDQ d == q) with
      | some d => some (.mbk d)
      | none => ((List.range 96).find? (fun d => c.on DROP.SNSDEN d && c.lv DROP.SNSDQ d == q)).map .sns

/-- The consumer is able to send (R262, R123, R175, R184). -/
def canSend (c : Chip) : Consumer → Bool
  | .gcc u => c.gccSends u
  | .mch d | .mbk d | .sns d => (c.d d).ps == .up && !(c.d d).closing && !c.shaded

/-- The drop's headers carry segments, and host data waits (R175). -/
def segments (c : Chip) : Consumer → Bool
  | .mch d => (c.d d).sm == .offered || (c.d d).sm == .applyNext
  | _ => false
/-- The message that a consumer is sending. -/
def txOf (c : Chip) : Consumer → TxMsg
  | .gcc u => (c.u u).gcc
  | .mch d => (c.d d).txMch
  | .mbk d => (c.d d).txMbk
  | .sns d => (c.d d).txSns
/-- It becomes `m`. -/
def setTx (c : Chip) (w : Consumer) (m : TxMsg) : Chip :=
  match w with
  | .gcc u => c.onU u (fun x => { x with gcc := m })
  | .mch d => c.onD d (fun x => { x with txMch := m })
  | .mbk d => c.onD d (fun x => { x with txMbk := m })
  | .sns d => c.onD d (fun x => { x with txSns := m })

/-- The consumer of downward queue `q` begins its head item, from the edge after the one that committed it (R260, R262): it will send the words before an uncorrectable one (R272). -/
def beginItem (c : Chip) (k : Clock) (q : Nat) (w : Consumer) : Chip :=
  let i := 8 + q
  match (c.q i).items with
  | ws :: _ =>
    if (c.q i).begun || !(c.q i).ready k || !c.qEn i || !c.canSend w || c.segments w then c
    else
      let good := ws.takeWhile (fun x => x.err != 2)
      (c.onQ i (fun x => { x with begun := true })).setTx w
        { rest := itemBytes good, queue := q, busy := true, cut := good.length != ws.length }
  | [] => c

/-- The consumer of downward queue `q` takes the last byte of the item it has begun, or abandons the item at an uncorrectable
word (R262, R272). -/
def finishItem (c : Chip) (k : Clock) (q : Nat) (w : Consumer) : Chip :=
  let i := 8 + q
  if (c.q i).begun && c.canSend w && (c.txOf w).rest == [] then
    let ws := (c.q i).items.head?.getD []
    let c := if ws.any (fun x => x.err == 1) then { c with qramFixed := true } else c
    let c := c.setTx w {}
    if ws.any (fun x => x.err == 2) then (c.srcEvent k 241).qAbandon k i else c.qFinish k i
  else c

/-- The LEVEL condition of queue `i` (R267). -/
def atLevel (c : Chip) (i : Nat) : Bool := c.lv QUEUE.LVL i != 0 && c.qEn i && decide (c.lv QUEUE.LVL i ≤ c.qLevel i)

end Chip

/-! ### Meanings -/

/-- ITEM_COMMIT (R255 to R257): on the second edge after the one that took the last byte. -/
def execItemCommit (q : Fin 8) (kind : Fin 16) (unit : Byte) (s : State) : Out :=
  .next (match (s.chip.q q).wholeOf kind unit.toNat with
    | some o =>
      match o.doneAt with
      | some e => (if s.chip.running then s.toEvc (e + 2) else s).act fun k c =>
          if e + 2 ≤ k.evc then c.qCommit k q kind unit.toNat else c
      | none => s
    | none => s)

/-- DOWNWARD_ITEM_CONSUME (R262, R272). -/
def execDownwardItemConsume (q : Fin 4) (done : Bool) (s : State) : Out :=
  .next (s.act fun k c =>
    match c.consumer q with
    | some w => if done then c.finishItem k q w else c.beginItem k q w
    | none => c)

/-- LEVEL (R267): cycle index 7 of every tick. -/
def execLevel (s : State) : Out :=
  .next (s.inWindow 7 7 7 fun k c => overN 12 (fun i c => if c.atLevel i then c.cause k (Chip.qReg i) i 1 else c) c)

end Sys2Proof.Machine
end

