-- ==== Sys2Proof/Machine/TickOps.lean ====
section
/-! DEFINITION. What a tick boundary does in every block: the end of the tick that closes, the fault sources of the last tick, the
counts and states that move with the tick, and the work of a second boundary (R21, R23, R31). -/

namespace Sys2Proof.Machine

namespace Chip

/-! ### Sources "in the last tick" (R348) -/

/-- The sources whose condition held in the tick that closes, lowest first. -/
def lastTickSrcs (c : Chip) : List Nat :=
  let one := fun (b : Bool) (s : Nat) => if b then [s] else []
  (List.range 4).flatMap (fun u => one (c.u u).gccDropNow (16 * u + 15)) ++
  (List.range 8).flatMap (fun p => one ((c.side p true).slipNow || (c.side p false).slipNow) (168 + p)) ++
  one c.tim.lateNow 188 ++ one c.tim.tqLost 190 ++
  (List.range 12).flatMap (fun q => one (c.q q).lostNow (192 + q)) ++
  one c.mead.fixedNow 242 ++ one c.heath.fixedNow 243 ++ one c.qramFixed 244 ++
  one c.pow.lateNow 262 ++ one c.pow.sensNow 264 ++ one c.twin.lossNow 275
/-- The marks of the tick that closes, taken back. -/
def clearMarks (c : Chip) : Chip :=
  let c := overN 4 (fun u c => c.onU u (fun x => { x with gccDropNow := false })) c
  let c := overN 8 (fun p c => (c.onSide p true (fun x => { x with slipNow := false })).onSide p false (fun x => { x with slipNow := false })) c
  let c := overN 12 (fun q c => c.onQ q (fun x => { x with lostNow := false })) c
  { c with
    tim := { c.tim with lateNow := false, tqLost := false }
    mead := { c.mead with fixedNow := false }
    heath := { c.heath with fixedNow := false }
    qramFixed := false
    pow := { c.pow with lateNow := false, sensNow := false }
    twin := { c.twin with lossNow := false } }

/-! ### The end of the tick that closes -/

/-- Items of switched-off directions and uplinks that were not begun by the end of the tick (R131, R162). -/
def closeDown (c : Chip) (k : Clock) : Chip :=
  let c := overN 256 (fun t c =>
    let x := c.t t
    let c := if x.closeDn then c.disposeItems k t false (fun it => !it.begun) else c
    let c := if x.closeUp then c.disposeItems k t true (fun _ => true) else c
    if x.closeDn || x.closeUp then c.onT t (fun x => { x with closeDn := false, closeUp := false }) else c) c
  overN 4 (fun u c =>
    if (c.u u).closing then
      (overN 256 (fun t c => if (c.t t).up = [] then c else c.disposeItems k t true (fun it => c.workingOf it.dest == u)) c).onU u (fun x => { x with
        closing := false })
    else c) c

/-- What is kept of the tick that closes for a snapshot on its boundary, and what becomes due on that boundary. -/
def closeTick (c : Chip) : Chip :=
  let c := c.onHeath (fun h => { h with statusEnd := h.status, recEnd := c.endRecords })
  let c := c.onDir (fun d => { d with lateSchema := none, budgetNow := [], revDue := d.revPend, snapDue := d.snapDue || d.snapPend, reqDue := d.snapPend })
  let c := c.onWin (fun w => { w with commitIn := w.commitIn - 1, warmIn := w.warmIn - 1 })
  { c with done := [] }

/-! ### Power (R419, R421, R425, R433 to R435) -/

/-- ENERGY and LINEBITS of the tick that closes, from nJ and bits. [DESIGN CHOICE, log 67] -/
def countEnergy (c : Chip) (energy bits : Nat) : Chip :=
  let e := c.pow.energyRest + energy
  let b := c.pow.bitsRest + bits
  ((c.addSt POWER.ENERGY 0 (e / 1000)).addSt POWER.LINEBITS 0 (b / 1000000)).onPow (fun p => { p with
    energyRest := e % 1000, bitsRest := b % 1000000 })
/-! ### Seconds -/

/-- A step is applied on this superframe boundary, or asked for by the commit that applies on it (R23, R298). -/
def stepComing (c : Chip) (k : Clock) : Bool :=
  k.superframe && (c.tim.stepReq.isSome ||
    (c.win.pend && !c.warmActs && c.win.commitIn == 0 && c.win.verdict == some 0 && c.lv TIME.STEPSEQ 0 != c.sg TIME.STEPSEQ 0))

/-! ### The boundary -/

/-- What a tick boundary does on its edge `k` for the tick that closes, and the counts that move with the tick: input energy of the
tick in nJ and line bits carried in it.  The work of the tick that opens follows the boundary's commit (`Chip.openTick`, R96). -/
def boundary (c : Chip) (k : Clock) (energy bits : Nat) : Chip :=
  let srcs := c.lastTickSrcs
  let c := ((c.closeTick.clearMarks.endWakes k.evc).settle k).linesPass k
  let c := (c.quietCount.lanternTick k)
  let c := c.forRows (c.heath.live.rows 0x60) (fun s c => c.tumble k s)
  let c := c.raise k srcs
  let c := (c.closeDown k).countEnergy energy bits
  let c := c.holdTicks.audioBoundary
  let c := overN 96 (fun d c => c.onD d (fun x => (x.closeTick))) c
  let c := if k.superframe then overN 96 (fun d c => c.offerTick d) c else c
  let c := c.onM (fun m => { m with out := m.outNext, absent := m.absentNext, outNext := [], absentNext := [] })
  let c := c.twinTick k
  if k.tickSec = 0 ∧ c.stepComing k = false then c.secondWork k else c

/-- BUDGET (R37, R434): the blocks whose work overran; code 14 holds every enabled block LIT in the next tick. -/
def budget (c : Chip) (k : Clock) (codes : List Nat) : Chip :=
  let new := codes.filter (fun n => decide (1 ≤ n) && decide (n ≤ 14))
  if new = [] then c
  else
    let all := new ++ c.dir.budgetNow
    let c := c.onDir (fun d => { d with budgetNow := all, budgetBlk := all.foldl min 15 })
    let c := if new.contains 14 then c.onPow (fun p => { p with holdLit := true }) else c
    c.srcEvent k 288

end Chip

namespace State

/-- The next tick boundary: ordinary edges to cycle index 124,999, the verdict of a commit on its edge, and the boundary edge. [DEDUCED, log 19] -/
def nextBoundary (s : State) (energy bits : Nat) : State :=
  if s.chip.running then
    let s := (s.toIdx Config.lastIdx).depart
    let c := s.chip.takeVerdict s.clk
    let k := s.clk.nextTick
    { s with clk := k, chip := c.boundary k energy bits }
  else s
/-- One ordinary core-clock edge: what the part does while no command waits. [DESIGN CHOICE, log 1] -/
def idleEdge (s : State) : State :=
  if s.chip.running then (if s.clk.idx = Config.lastIdx then s.nextBoundary 0 0 else s.elapse 1) else s

end State

end Sys2Proof.Machine
end

