-- ==== Sys2Proof/Machine/Tick.lean ====
section
/-! DEFINITION. Commands of the tick (chapter 1): the boundary, a block that overran its budget, and a step of local time. -/

namespace Sys2Proof.Machine

/-- TICK_BOUNDARY (R21, R22 and every rule that acts at cycle index 0). -/
def execTickBoundary (energy lineBits : Nat) (s : State) : Out := .next (s.nextBoundary energy lineBits)

/-- BUDGET (R36, R37, R434). -/
def execBudget (codes : List (Fin 16)) (s : State) : Out := .next (s.act fun k c => c.budget k (codes.map (·.val)))

/-- STEP (R298), after the commit of its boundary. -/
def execStep (s : State) : Out :=
  .next (if s.clk.superframe then ({ s with chip := if s.chip.running then s.chip.boundaryWork s.clk else s.chip } : State).stepBoundary else s)

end Sys2Proof.Machine
end

