-- ==== Sys2Proof/Machine/TimeCmd.lean ====
section
/-! DEFINITION. Commands of the time engine (chapter 12), but for STEP. -/

namespace Sys2Proof.Machine

/-- SLEW_EDGE (R20, R299): the next core-clock edge adds 2 or 0.  While STEPREM is not 0 only an edge that moves it towards 0
is made; otherwise it is the TOD channel's, which makes none in FREE or LOST. -/
def execSlewEdge (add2 : Bool) (s : State) : Out :=
  .next (
    let rem := s.chip.tim.stepRem
    let st := (s.chip.dp 1).st
    let ok := if rem ≠ 0 then add2 == decide (0 < rem) else st != .free && st != .lost
    if s.chip.running && s.clk.mayslew add2 && ok then
      let k := s.clk.slew add2
      let c := (((((s.depart.chip.endWakes k.evc).settle k).writeRecords k).linesPass k).framesPass k).audioPass k
      let c := if rem = 0 then c
        else
          let r := if add2 then rem - 1 else rem + 1
          let c := c.onTime (fun t => { t with stepRem := r })
          if r = 0 then c.cause k .time0 0 2 else c
      { s with clk := k, chip := c }
    else s)

/-- CAPTURE_EVENT (R301, R302, R315). -/
def execCaptureEvent (n : Fin 4) (srcs : List (Fin 15 × Bool)) (s : State) : Out :=
  .next (s.boundaryDone.act fun k c => c.capture k n (srcs.map fun p => (p.1.val, p.2)))

/-- The next active edge of output `o`, where it lies in the present tick (R303, R306), by the local time that a step on the present edge
gives (R295): a one-shot that a step has brought into a pulse disarms with LATE. -/
def State.edge (s : State) (o : Nat) : State :=
  if !s.chip.running then s
  else
    let s := s.boundaryDone
    match s.chip.dueEdge s.clk o with
    | none => s
    | some t =>
      if Config.lastIdx - s.clk.idx < t - s.clk.time then s
      else
        let s' := s.elapse (t - s.clk.time)
        let c := s'.chip.endPulse s'.clk o
        if !(c.out o).active then { s' with chip := c.makeEdge s'.clk o t }
        else if o ≠ ppsOut ∧ c.lv TIME.OUT_MODE (6 + o) = 1 then
          { s' with chip := ((c.onOut o (fun x => { x with armed := false })).syncOut o).setLate s'.clk o }
        else s

/-- ACTIVE_EDGE (R303 to R306): TOUT `o` makes its next active edge. -/
def execActiveEdge (o : Fin 8) (s : State) : Out := .next (s.edge o)

/-- PULSE_END (R303): the output returns to its inactive level WIDTH cycles after its active edge. -/
def execPulseEnd (o : Fin 9) (s : State) : Out :=
  .next (if s.chip.running && (s.chip.out o).active then
    (s.toEvc (s.chip.out o).pulseEnd).act fun k c => c.endPulse k o
  else s)

/-- PPS_PULSE (R308). -/
def execPpsPulse (s : State) : Out := .next (s.edge ppsOut)

/-- PTP_TRANSMIT (R310). -/
def execPtpTransmit (s : State) : Out := .next (s.act fun k c => c.ptpTransmit k)

end Sys2Proof.Machine
end

