-- ==== Sys2Proof/Machine/Twin.lean ====
section
/-! DEFINITION. Commands of the twin engine (chapter 15): the link, the mirror stream, attaching, claims, takeover, handover and
release. -/

namespace Sys2Proof.Machine

/-- `a` lies after `b`, modulo 2³². [DEDUCED, log 74] -/
def seqAfter (a b : Nat) : Bool :=
  let d := (a % 2 ^ 32 + 2 ^ 32 - b % 2 ^ 32) % 2 ^ 32
  decide (0 < d) && decide (d < 2 ^ 31)

namespace Chip

/-- The role of the peer as a marker reports it: an attach ends where the peer is no longer lit (R380). -/
def takePeer (c : Chip) (k : Clock) (role : Nat) (armed : Bool) : Chip :=
  let c := (c.setTwn k TWIN.PEERROLE role 7).onTwin (fun t => { t with peerArmed := armed && decide (role = 2) })
  if c.twin.role = .shadow ∧ role ≠ 1 then c.endAttach else c.tryAttach

/-- LINK_UP. -/
def linkUp (c : Chip) (k : Clock) (w : Word) : Chip :=
  if c.twin.role = .solo ∨ c.st TWIN.LINKUP 0 = 1 then c
  else
    let c := (c.takeCompat k w).setTwn k TWIN.LINKUP 1 1
    let c := if c.mirrors then c.onTwin (fun t => { t with backlog := fullBank }) else c
    (c.tryAttach.refRole k).syncTwin k

/-- LANE_MARKER. [DEDUCED, log 61] -/
def laneMarker (c : Chip) (k : Clock) (a t a' t' : Int) (w : Word) (role : Nat) (armed : Bool) : Chip :=
  if c.twin.role = .solo then c
  else
    let was := c.st TWIN.COMPATOK 0
    let c := c.takeCompat k w
    if c.st TWIN.LINKUP 0 = 0 then c.syncTwin k
    else if was = 1 ∧ c.st TWIN.COMPATOK 0 = 0 then c.linkDown k
    else
      let c := c.takePeer k role armed
      let c := if c.twin.role = .shadow then
          let delay := ((a - t) + (a' - t')) / 2 + signed 32 (c.lv TWIN.DELAYTRIM 0)
          (c.setSt TWIN.LINKDLY 0 (unsigned 32 delay)).deliver 4 ((a - t) - delay)
        else c
      c.syncTwin k

/-- The slot-map state of one drop in a tick record (R389). -/
def followSlot (c : Chip) (k : Clock) (d : Nat) (r : Bool × Fin 4 × Nat × Nat) : Chip :=
  let (inUse, sm, live, next) := r
  let sm : SmState := match sm.val with
    | 0 => .idle
    | 1 => .waiting
    | 2 => .offered
    | _ => .applyNext
  (c.onD d (fun x =>
    let x := if x.genLive = live then x else { x with
      gens := (x.genTick, x.genLive) :: x.gens, genBefore := x.genLive, genLive := live, genTick := k.ticks }
    { x with
      inUse := bit inUse
      sm := sm
      genNext := next
      offerAge := if x.sm = sm then x.offerAge else 0
      echoed := x.echoed && decide (sm = .offered) })).syncSlot d

/-- The last step that the lit part reports (R390): the first record only notes it. [DEDUCED, log 60] -/
def followStep (c : Chip) (s : Option (Int × Int × Nat)) : Chip :=
  let b := match s with
    | some (_, _, b) => b
    | none => 2 ^ 32
  match c.twin.lastStep, s with
  | some l, some (m, r, b) =>
    if l = b then c
    else (c.onTime (fun t => { t with stepReq := some (t.stepReq.getD 0 + m * 1000000 + r) })).onTwin (fun t => { t with
      lastStep := some b })
  | _, _ => c.onTwin (fun t => { t with lastStep := some b })

/-- The attach goes on from a tick record (R394 steps 2 and 3). -/
def followAttach (c : Chip) (k : Clock) (r : TickRec) : Chip :=
  let c := if c.twin.attach = .align then
      let c := if 1000 ≤ r.diff.natAbs then c.onTime (fun t => { t with stepReq := some (t.stepReq.getD 0 + r.diff) }) else c
      c.onTwin (fun t => { t with attach := .settle })
    else c
  if c.twin.attach = .settle ∧ c.tim.stepReq.isNone = true ∧ c.tim.stepRem = 0 then
    (c.setSt TWIN.TNOFS 0 ((r.lineTick + 2 ^ 32 - k.tick) % 2 ^ 32)).onTwin (fun t => { t with attach := .done })
  else c

/-- TICK_RECORD. [DESIGN CHOICE, log 54] -/
def tickRecord (c : Chip) (k : Clock) (r : TickRec) : Chip :=
  if !c.mirrored then c
  else
    let c := ((r.drops.take 96).zipIdx).foldl (fun c (x, d) => c.followSlot k d x) c
    let c := c.followStep r.step
    let lag := !r.same || r.tag.toNat != c.st TWIN.MIRTAG 0
    let c := (if lag then c.satSt TWIN.BANKLAG 0 1 else c.setSt TWIN.BANKLAG 0 0).onTwin (fun t => { t with
      digestBad := !r.same, askCopy := t.askCopy || !r.same })
    let c := match c.twin.lastSeq with
      | some l => if seqAfter r.lastSeq l then (c.sawGap k r.lastSeq).onTwin (fun t => { t with lastSeq := some r.lastSeq }) else c
      | none => c.onTwin (fun t => { t with lastSeq := some r.lastSeq })
    let past := match r.oldest with
      | some o => c.twin.gaps.all (fun g => seqAfter o g)
      | none => true
    let c := if past then (c.onTwin (fun t => { t with gaps := [] })).setSt TWIN.MIRLOSS 0 0 else c
    let c := c.setHorizon k (c.lineEvc k r.lineTick 0)
    let c := c.followAttach k r
    let c := match r.handover, c.twin.req with
      | some s, some (.handover since _) => c.onTwin (fun t => { t with req := some (.handover since (some s)) })
      | some s, none => c.onTwin (fun t => { t with req := some (.handover k.pos (some s)) })
      | _, _ => c
    c.syncTwin k

/-- BANK_RUNS_APPLY: a broken lock keeps the runs for the next boundary, and those that follow them (R237). [DESIGN CHOICE, log 75] -/
def bankRuns (c : Chip) (k : Clock) (runs : List BankRun) (tag : Byte) (full : Bool) : Chip :=
  let keep := fun (c : Chip) => c.onTwin (fun t => { t with heldRuns := t.heldRuns ++ [(runs, tag, full)] })
  if !c.mirrored then c
  else if c.twin.heldRuns != [] then keep c
  else if c.twin.brokeRuns then (((keep c).onTwin (fun t => { t with brokeRuns := false })).satSt TWIN.BANKLAG 0 1).syncTwin k
  else c.applyRuns k (runs, tag, full)

/-- The end of a tentative claim that was not given way (R395). -/
def claimEnd (c : Chip) (k : Clock) (peerHigh : Bool) : Chip :=
  let c := c.setPeer peerHigh
  if !peerHigh then c.onTwin (fun t => { t with lightDue := true })
  else if c.sameId then ((c.settleReq k rqIdclash).srcEvent k 278).syncClaim k
  else (c.settleReq k rqPeerlit).syncClaim k

/-- TWN_PEER rises during a tentative claim (R395). -/
def claimLost (c : Chip) (k : Clock) : Chip :=
  let c := c.setPeer true
  if c.sameId then ((c.settleReq k rqIdclash).srcEvent k 278).syncClaim k
  else if c.twin.id = 1 then (c.settleReq k rqLost).syncClaim k
  else c

/-- A part whose collector shade holds does not light (R357): a lighting that is due is given up, and a request for it is settled with
SHADE (R408). [DEDUCED, log 59] -/
def giveUp (c : Chip) (k : Clock) : Chip :=
  if c.twin.lightDue || c.twin.handLight.isSome then
    let c := c.onTwin (fun t => { t with lightDue := false, handLight := none })
    let c := match c.twin.req with
      | some .leave => c
      | some _ => c.settleReq k rqShade
      | none => c
    c.syncClaim k
  else c

/-- The blocks that an armed shadow holds in DUSK wake (R435). [DESIGN CHOICE, log 64] -/
def wakeOutputs (c : Chip) (k : Clock) : Chip :=
  nightBlocks.foldl (fun c i => if (blkUpTx i || blkDropTx i) && c.blk i == .dusk then c.beginWake i k.evc else c) c

end Chip

/-! ### Meanings -/

/-- LINK_UP (R383, R384, R394): after 8 ticks of lock, with the compatibility word received. -/
def execLinkUp (compat : Word) (s : State) : Out := .next (s.act fun k c => c.linkUp k compat)

/-- LINK_DOWN (R383). -/
def execLinkDown (s : State) : Out :=
  .next (s.act fun k c =>
    if c.twin.role = .solo then c else (c.onTwin (fun t => { t with carry := false })).linkDown k)

/-- LANE_MARKER (R383 to R385). -/
def execLaneMarker (a t a' t' : Int) (compat : Word) (peerRole : Fin 3) (peerArmed : Bool) (s : State) : Out :=
  .next (s.act fun k c => c.laneMarker k a t a' t' compat peerRole peerArmed)

/-- TICK_RECORD (R387 to R390, R392 to R394, R401). -/
def execTickRecord (r : TickRec) (s : State) : Out := .next (s.act fun k c => c.tickRecord k r)

/-- BANK_RUNS_APPLY (R388): on the first tick boundary after the last run. -/
def execBankRunsApply (runs : List BankRun) (tag : Byte) (full : Bool) (s : State) : Out :=
  .next (s.actBoundary fun k c => c.bankRuns k runs tag full)

/-- ADD (R387, R391, R392). -/
def execAdd (seq : Nat) (trib : Byte) (up : Bool) (len lineTick idx cell : Nat) (stamp crc : Word) (s : State) : Out :=
  .next (s.act fun k c =>
    if c.mirrored then
      c.addDesc k { seq := seq % 2 ^ 32, trib := trib.toNat, up, len, crc, comAt := c.lineEvc k lineTick idx, cell, stamp }
    else c)

/-- RETIRE (R387, R391); the outcome it carries changes nothing at the shadow. -/
def execRetire (seq : Nat) (_delivered : Bool) (s : State) : Out :=
  .next (s.act fun k c => if c.mirrored then c.retireDesc k (seq % 2 ^ 32) else c)

/-- CUT (R387, R392). -/
def execCut (seq lineTick idx : Nat) (s : State) : Out :=
  .next (s.act fun k c =>
    if c.mirrored then
      let c := match c.twin.lastSeq with
        | some l => if seqAfter seq l then (c.sawGap k (seq % 2 ^ 32)).onTwin (fun t => { t with lastSeq := some (seq % 2 ^ 32) }) else c
        | none => c
      c.setHorizon k (c.lineEvc k lineTick idx)
    else c)

/-- ATTACH (R394 step 1): the full bank copy is applied on a tick boundary. -/
def execAttach (runs : List BankRun) (tag : Byte) (s : State) : Out :=
  .next (s.actBoundary fun k c =>
    if c.mirrored && decide (c.twin.attach = .copy) then
      (c.onTwin (fun t => { t with attach := .align })).fullCopy k runs tag
    else c)

/-- ARMED (R380, R394 step 5). -/
def execArmed (s : State) : Out :=
  .next (s.act fun k c =>
    if c.armable && c.st TWIN.ARMED 0 == 0 then ((c.setSt TWIN.ARMED 0 1).cause k .twin 0 8).syncTwin k else c)

/-- TENTATIVE_CLAIM_END (R395): 4,096 cycles after the claim, with the level of TWN_PEER there. -/
def execTentativeClaimEnd (peerHigh : Bool) (s : State) : Out :=
  .next (match s.chip.twin.req with
    | some (.tentative e) =>
      (if s.chip.running then s.toEvc e else s).act fun k c =>
        if e ≤ k.evc && !c.twin.lightDue then c.claimEnd k peerHigh else c
    | _ => s)

/-- TENTATIVE_CLAIM_LOST (R395). -/
def execTentativeClaimLost (s : State) : Out :=
  .next (s.act fun k c =>
    match c.twin.req with
    | some (.tentative _) => if c.twin.lightDue then c else c.claimLost k
    | _ => c)

/-- ROLE_CLASH (R396). -/
def execRoleClash (s : State) : Out :=
  .next (s.act fun k c =>
    if decide (c.twin.role = .lit) && c.twin.claim then
      let was := c.shaded
      let c := (c.setPeer true).srcEvent k 278
      if c.twin.id = 1 then (c.onTwin (fun t => { t with downDue := true })).reshade k was else c
    else c)

/-- PEER_CLAIM_LOSS (R397, R435). -/
def execPeerClaimLoss (s : State) : Out :=
  .next (s.act fun k c =>
    if c.st TWIN.ARMED 0 == 1 && !c.twin.lightDue then
      ((((c.setPeer false).onTwin (fun t => { t with lightDue := true })).syncClaim k).wakeOutputs k)
    else c)

/-- SHADOW_LIGHTS (R395, R397, R398, R401): on a tick boundary. -/
def execShadowLights (s : State) : Out :=
  .next (s.actBoundary fun k c =>
    if c.twin.role ≠ .shadow then c
    else if c.col.shade then c.giveUp k
    else
      match c.twin.handLight with
      | some t => if t ≤ k.ticks then c.light k 2 else c
      | none =>
        if c.twin.lightDue then
          c.light k (match c.twin.req with
            | some (.tentative _) => 1
            | _ => 0)
        else c)

/-- LIT_STEP_DOWN (R400): on the first tick boundary after TWN_PEER has read high for 2,048 cycles. -/
def execLitStepDown (s : State) : Out :=
  .next (s.actBoundary fun k c =>
    if decide (c.twin.role = .lit) && c.twin.keepLow.isSome then (c.setPeer true).becomeShadow k else c)

/-- CLAIM_RESUME (R400). -/
def execClaimResume (s : State) : Out :=
  .next (s.act fun k c =>
    match c.twin.keepLow with
    | some t => if t + 3 ≤ k.ticks then ((c.setPeer false).onTwin (fun x => { x with keepLow := none })).syncClaim k else c
    | none => c)

/-- HANDOVER (R401): the lit part's boundary S, or the shadow's. -/
def execHandover (s : State) : Out :=
  .next (s.actBoundary fun k c =>
    match c.twin.req with
    | some (.handover since at_) =>
      if c.twin.role = .lit then
        if k.superframe && decide (since + 2 * Config.tickCycles ≤ k.pos) && c.st TWIN.BANKLAG 0 == 0 then
          ((c.becomeShadow k).addSt TWIN.HANDOVERS 0 1).settleReq k rqGranted
        else c
      else if at_ = some (c.lineTick k) then c.onTwin (fun t => { t with handLight := some (k.ticks + 1) })
      else c
    | _ => c)

/-- HANDOVER_TIMEOUT (R401): 64 ticks after the request. -/
def execHandoverTimeout (s : State) : Out :=
  .next (s.act fun k c =>
    match c.twin.req with
    | some (.handover since _) =>
      if decide (since + 64 * Config.tickCycles ≤ k.pos) && c.twin.handLight.isNone then c.settleReq k rqNotready else c
    | _ => c)

/-- RELEASE_NOTICE (R402). -/
def execReleaseNotice (s : State) : Out :=
  .next (s.act fun _ c => if c.mirrored then c.onTwin (fun t => { t with soloDue := true }) else c)

/-- HANDOVER_REQUEST (R401). -/
def execHandoverRequest (s : State) : Out :=
  .next (s.act fun k c =>
    if decide (c.twin.role = .lit) && c.st TWIN.LINKUP 0 == 1 && c.twin.peerArmed && c.twin.req.isNone then
      c.onTwin (fun t => { t with req := some (.handover k.pos none) })
    else c)

/-- FULL_COPY_REQUEST (R388). -/
def execFullCopyRequest (s : State) : Out :=
  .next (s.act fun _ c => if c.mirrors then c.onTwin (fun t => { t with backlog := fullBank }) else c)

end Sys2Proof.Machine
end

