-- ==== Sys2Proof/Machine/UplinkCmd.lean ====
section
/-! DEFINITION. Commands of uplink framing (chapter 5) and of protection (R150 to R157). -/

namespace Sys2Proof.Machine

/-- UPLINK_INTEGRATION (R118 to R122, R126, R127, R129, R133): cycle indices 0 to 15, once a tick. -/
def execUplinkIntegration (u : Fin 4) (t : UplinkTick) (s : State) : Out :=
  .next (s.inWindow 0 15 u fun k c => c.integrate k u t)

/-- OTN_FRAME (R112, R113, R116, R118, R123, R127, R135, R136, R155). -/
def execOtnFrame (u : Fin 4) (f : OtnFrame) (s : State) : Out :=
  .next (s.act fun k c => c.otnFrame k u f)

/-- BLOCK_LOCK_CHANGE (R118, Table 5.4). -/
def execBlockLockChange (u : Fin 4) (e : PcsEvent) (s : State) : Out :=
  .next (s.act fun k c => c.pcsEvent k u e)

/-- HOLD_OFF_EXPIRY (R151): a condition has been present for HOLDOFF × 8 ticks and enters the requests. -/
def execHoldOffExpiry (p : Fin 2) (which : Fin 4) (s : State) : Out :=
  .next (s.act fun k c =>
    match vget (c.pair p).since which none with
    | some e =>
      if e + c.lv APS.HOLDOFF p * 8 * Config.tickCycles ≤ k.pos ∧ c.lv APS.MODE p ≠ 0 then
        (c.onP p (fun a => { a with passed := vupd a.passed which (fun _ => true) })).apsEval k p
      else c
    | none => c)

/-- SELECTOR_MOVE (R152): on a tick boundary the selector takes the position that the winning request has selected. -/
def execSelectorMove (p : Fin 2) (s : State) : Out :=
  .next (s.actBoundary fun k c => if c.lv APS.MODE p = 0 ∨ c.liveBad 0x13 p = true then c else c.apsMove k p (c.apsTarget k p))

/-- WAIT_TO_RESTORE_END (R153): in the mapper's window of its tick the request becomes NR. -/
def execWaitToRestoreEnd (p : Fin 2) (s : State) : Out :=
  .next (if 271 < s.clk.idx then s else s.actAt 16 fun k c =>
    match (c.pair p).wtrEnd with
    | some e =>
      if e ≤ k.ticks then ((c.onP p (fun a => { a with wtrEnd := none })).cause k .aps p 32).apsSync k p else c
    | none => c)

/-- FOPNR (R157): the accepted requested signal has differed from the one sent for 400 ticks. -/
def execFopnr (p : Fin 2) (s : State) : Out :=
  .next (s.act fun k c =>
    match (c.pair p).differ with
    | some e =>
      if e + 400 * Config.tickCycles ≤ k.pos ∧ c.st APS.FOPNR p = 0 then (c.setSt APS.FOPNR p 1).cause k .aps p 4 else c
    | none => c)

end Sys2Proof.Machine
end

