-- ==== Sys2Proof/Machine/Dispatch.lean ====
section
/-! DEFINITION. The command table: one arm for each constructor of `Instr`. -/

namespace Sys2Proof.Machine

def exec (i : Instr) (s : State) : Host.Outcome State Fault Refusal :=
  match i with
  | .vinRise cold railUp vioSel vioMv => Sys2Proof.Machine.execVinRise cold railUp vioSel vioMv s
  | .powerOn vioMv => Sys2Proof.Machine.execPowerOn vioMv s
  | .railsReady => Sys2Proof.Machine.execRailsReady s
  | .s2Restart => Sys2Proof.Machine.execS2Restart s
  | .coreResetRelease mode adr twnId boot badMem badBar => Sys2Proof.Machine.execCoreResetRelease mode adr twnId boot badMem badBar s
  | .brownOut => Sys2Proof.Machine.execBrownOut s
  | .pinReset lowNs => Sys2Proof.Machine.execPinReset lowNs s
  | .rstNHigh => Sys2Proof.Machine.execRstNHigh s
  | .tapReset => Sys2Proof.Machine.execTapReset s
  | .tapInstruction op cells => Sys2Proof.Machine.execTapInstruction op cells s
  | .vioLoss => Sys2Proof.Machine.execVioLoss s
  | .vioReturn => Sys2Proof.Machine.execVioReturn s
  | .portReady => Sys2Proof.Machine.execPortReady s
  | .tickBoundary energy lineBits => Sys2Proof.Machine.execTickBoundary energy lineBits s
  | .slewEdge add2 => Sys2Proof.Machine.execSlewEdge add2 s
  | .budget codes => Sys2Proof.Machine.execBudget codes s
  | .beatAbort cmd first => Sys2Proof.Machine.execBeatAbort cmd first s
  | .burstEnd => Sys2Proof.Machine.execBurstEnd s
  | .startStopCondition how cmd first => Sys2Proof.Machine.execStartStopCondition how cmd first s
  | .sdaRelease => Sys2Proof.Machine.execSdaRelease s
  | .stretchRelease => Sys2Proof.Machine.execStretchRelease s
  | .stretchTimeout => Sys2Proof.Machine.execStretchTimeout s
  | .qdataStallEnd => Sys2Proof.Machine.execQdataStallEnd s
  | .invalidIndexAccess b => Sys2Proof.Machine.execInvalidIndexAccess b s
  | .registerWrite b => Sys2Proof.Machine.execRegisterWrite b s
  | .warmResetRequest b => Sys2Proof.Machine.execWarmResetRequest b s
  | .warmResetActions => Sys2Proof.Machine.execWarmResetActions s
  | .warmResetComplete => Sys2Proof.Machine.execWarmResetComplete s
  | .claimLit b peerHigh => Sys2Proof.Machine.execClaimLit b peerHigh s
  | .yieldToShadow b => Sys2Proof.Machine.execYieldToShadow b s
  | .leavePair b => Sys2Proof.Machine.execLeavePair b s
  | .softwareInterrupt b => Sys2Proof.Machine.execSoftwareInterrupt b s
  | .hdataRead b => Sys2Proof.Machine.execHdataRead b s
  | .hdataWrite b => Sys2Proof.Machine.execHdataWrite b s
  | .schemaLock b => Sys2Proof.Machine.execSchemaLock b s
  | .revertRequest b => Sys2Proof.Machine.execRevertRequest b s
  | .revertPerform => Sys2Proof.Machine.execRevertPerform s
  | .snapreq b => Sys2Proof.Machine.execSnapreq b s
  | .snapshot => Sys2Proof.Machine.execSnapshot s
  | .commitRequest b => Sys2Proof.Machine.execCommitRequest b s
  | .commitVerdict => Sys2Proof.Machine.execCommitVerdict s
  | .commitApply => Sys2Proof.Machine.execCommitApply s
  | .icauseClear b => Sys2Proof.Machine.execIcauseClear b s
  | .reArmGapEnd => Sys2Proof.Machine.execReArmGapEnd s
  | .glintRead b => Sys2Proof.Machine.execGlintRead b s
  | .queueSelect b => Sys2Proof.Machine.execQueueSelect b s
  | .flush b => Sys2Proof.Machine.execFlush b s
  | .replay b => Sys2Proof.Machine.execReplay b s
  | .qdataRead b => Sys2Proof.Machine.execQdataRead b s
  | .qdataWrite b => Sys2Proof.Machine.execQdataWrite b s
  | .heathScrub bank addr fresh => Sys2Proof.Machine.execHeathScrub bank addr fresh s
  | .uplinkIntegration u t => Sys2Proof.Machine.execUplinkIntegration u t s
  | .otnFrame u f => Sys2Proof.Machine.execOtnFrame u f s
  | .gfpFrameRx u f => Sys2Proof.Machine.execGfpFrameRx u f s
  | .ethernetFrameRx u f => Sys2Proof.Machine.execEthernetFrameRx u f s
  | .schedulerCreditRefill => Sys2Proof.Machine.execSchedulerCreditRefill s
  | .upstreamItemSent u => Sys2Proof.Machine.execUpstreamItemSent u s
  | .holdOffExpiry p which => Sys2Proof.Machine.execHoldOffExpiry p which s
  | .selectorMove p => Sys2Proof.Machine.execSelectorMove p s
  | .waitToRestoreEnd p => Sys2Proof.Machine.execWaitToRestoreEnd p s
  | .fopnr p => Sys2Proof.Machine.execFopnr p s
  | .upstreamHeaderRx d h => Sys2Proof.Machine.execUpstreamHeaderRx d h s
  | .slotMapOffer d => Sys2Proof.Machine.execSlotMapOffer d s
  | .applyNext d => Sys2Proof.Machine.execApplyNext d s
  | .generationApply d => Sys2Proof.Machine.execGenerationApply d s
  | .smflt d => Sys2Proof.Machine.execSmflt d s
  | .audioBlockRx d blk echo bytes => Sys2Proof.Machine.execAudioBlockRx d blk echo bytes s
  | .smallBlockMessage d kind echo blocks => Sys2Proof.Machine.execSmallBlockMessage d kind echo blocks s
  | .managementMessage d chunks => Sys2Proof.Machine.execManagementMessage d chunks s
  | .dropGfpFrame d f => Sys2Proof.Machine.execDropGfpFrame d f s
  | .silentEnd d noise => Sys2Proof.Machine.execSilentEnd d noise s
  | .quietecEnd d => Sys2Proof.Machine.execQuietecEnd d s
  | .answerRx d bytes snr => Sys2Proof.Machine.execAnswerRx d bytes snr s
  | .callTimeout d => Sys2Proof.Machine.execCallTimeout d s
  | .prepEnd d => Sys2Proof.Machine.execPrepEnd d s
  | .probeJudgement d snr => Sys2Proof.Machine.execProbeJudgement d snr s
  | .selectEnd d => Sys2Proof.Machine.execSelectEnd d s
  | .dropUp d => Sys2Proof.Machine.execDropUp d s
  | .syncTimeout d => Sys2Proof.Machine.execSyncTimeout d s
  | .retry d => Sys2Proof.Machine.execRetry d s
  | .retrain d => Sys2Proof.Machine.execRetrain d s
  | .dropDefectJudgement d t => Sys2Proof.Machine.execDropDefectJudgement d t s
  | .dropOff d => Sys2Proof.Machine.execDropOff d s
  | .scrubberRead bank wrd fresh => Sys2Proof.Machine.execScrubberRead bank wrd fresh s
  | .lockBreak m t => Sys2Proof.Machine.execLockBreak m t s
  | .defaultTargetAccess m wr => Sys2Proof.Machine.execDefaultTargetAccess m wr s
  | .groomingMoves => Sys2Proof.Machine.execGroomingMoves s
  | .itemCommit q kind unit => Sys2Proof.Machine.execItemCommit q kind unit s
  | .downwardItemConsume q done => Sys2Proof.Machine.execDownwardItemConsume q done s
  | .level => Sys2Proof.Machine.execLevel s
  | .audioExchange pins => Sys2Proof.Machine.execAudioExchange pins s
  | .slaveRxFrame p periods frame => Sys2Proof.Machine.execSlaveRxFrame p periods frame s
  | .slaveTxFrameStart p periods => Sys2Proof.Machine.execSlaveTxFrameStart p periods s
  | .step => Sys2Proof.Machine.execStep s
  | .captureEvent n srcs => Sys2Proof.Machine.execCaptureEvent n srcs s
  | .activeEdge o => Sys2Proof.Machine.execActiveEdge o s
  | .pulseEnd o => Sys2Proof.Machine.execPulseEnd o s
  | .ppsPulse => Sys2Proof.Machine.execPpsPulse s
  | .ptpTransmit => Sys2Proof.Machine.execPtpTransmit s
  | .loopFilterUpdate t => Sys2Proof.Machine.execLoopFilterUpdate t s
  | .referencePulse ref7 ago oscNs => Sys2Proof.Machine.execReferencePulse ref7 ago oscNs s
  | .dpllWaitToRestoreEnd c => Sys2Proof.Machine.execDpllWaitToRestoreEnd c s
  | .switchComplete c phase => Sys2Proof.Machine.execSwitchComplete c phase s
  | .faultEvent srcs present => Sys2Proof.Machine.execFaultEvent srcs present s
  | .watch => Sys2Proof.Machine.execWatch s
  | .countWindowTumble src => Sys2Proof.Machine.execCountWindowTumble src s
  | .automaticRecovery => Sys2Proof.Machine.execAutomaticRecovery s
  | .injectionLand addr => Sys2Proof.Machine.execInjectionLand addr s
  | .linkUp compat => Sys2Proof.Machine.execLinkUp compat s
  | .linkDown => Sys2Proof.Machine.execLinkDown s
  | .laneMarker a t a2 t2 compat peerRole peerArmed => Sys2Proof.Machine.execLaneMarker a t a2 t2 compat peerRole peerArmed s
  | .tickRecord r => Sys2Proof.Machine.execTickRecord r s
  | .bankRunsApply runs tag full => Sys2Proof.Machine.execBankRunsApply runs tag full s
  | .add seq trib up len lineTick idx cell stamp crc => Sys2Proof.Machine.execAdd seq trib up len lineTick idx cell stamp crc s
  | .retire seq delivered => Sys2Proof.Machine.execRetire seq delivered s
  | .cut seq lineTick idx => Sys2Proof.Machine.execCut seq lineTick idx s
  | .attach runs tag => Sys2Proof.Machine.execAttach runs tag s
  | .armed => Sys2Proof.Machine.execArmed s
  | .tentativeClaimEnd peerHigh => Sys2Proof.Machine.execTentativeClaimEnd peerHigh s
  | .tentativeClaimLost => Sys2Proof.Machine.execTentativeClaimLost s
  | .roleClash => Sys2Proof.Machine.execRoleClash s
  | .peerClaimLoss => Sys2Proof.Machine.execPeerClaimLoss s
  | .shadowLights => Sys2Proof.Machine.execShadowLights s
  | .litStepDown => Sys2Proof.Machine.execLitStepDown s
  | .claimResume => Sys2Proof.Machine.execClaimResume s
  | .handover => Sys2Proof.Machine.execHandover s
  | .handoverTimeout => Sys2Proof.Machine.execHandoverTimeout s
  | .releaseNotice => Sys2Proof.Machine.execReleaseNotice s
  | .powerPlan tsens vin vio pin regFlt => Sys2Proof.Machine.execPowerPlan tsens vin vio pin regFlt s
  | .nightWake => Sys2Proof.Machine.execNightWake s
  | .darkWake => Sys2Proof.Machine.execDarkWake s
  | .blockLockChange u e => Sys2Proof.Machine.execBlockLockChange u e s
  | .scheduledWake blk => Sys2Proof.Machine.execScheduledWake blk s
  | .powerStateEntry blk st => Sys2Proof.Machine.execPowerStateEntry blk st s
  | .handoverRequest => Sys2Proof.Machine.execHandoverRequest s
  | .fullCopyRequest => Sys2Proof.Machine.execFullCopyRequest s

end Sys2Proof.Machine
end

