-- ==== Sys2Proof/WellFormed.lean ====
section
/-! DEFINITION. Well-formed commands: every operand is one that the line, the pin or the table it stands for can bring.  The
meanings hold for ill-formed commands too; a list of the wrong length is read as far as it goes. -/

namespace Sys2Proof

/-- Bytes of a frame at most: the length field of GFP has 16 bits (R141), and a frame of an Ethernet line is held to the same. -/
def frameMax : Nat := 65535
/-- Fault rows of the memories that S3 checks (R455). -/
def memRow (m : Nat) : Bool := (224 ≤ m && m ≤ 241) || m == 373
/-- A payload block of some mode (R168, Table 7.1). -/
def payloadBlock (b : Nat) : Bool := 4 ≤ b && b < 2000
/-- The fields of a received GFP-F frame fit their bits (R141, R142). -/
def GfpFrame.ok (f : GfpFrame) : Bool :=
  f.pli ≤ 65535 && f.pti < 8 && f.exi < 16 && f.cid < 256 && f.client.length ≤ frameMax
/-- A received OTU2 frame brings the overhead columns 1 to 16 of its four rows, and FEC counts of its 64 codewords, each of which
corrects 8 bytes at most (R112, R113). -/
def OtnFrame.ok (f : OtnFrame) : Bool :=
  f.line.bytes.length == 64 && f.fixed.bytes.length == 64 && f.fecCor ≤ 4096 && f.fecCw + f.fecUnc ≤ 64
/-- A received drop frame brings 80 header bytes, the lit twin's header or none, and at most the 39,992 bytes that follow the alignment
word of an F2560 frame (Table 7.1). -/
def UpHeader.ok (h : UpHeader) : Bool :=
  h.bytes.length == 80 && h.down.length ≤ 80 && (h.line.getD []).length ≤ 39992

/-- A command's operands lie in the ranges that their sources give them. -/
def Instr.wf : Instr → Bool
  | .vinRise _ _ _ vioMv => vioMv < 65536
  | .powerOn vioMv => vioMv < 65536
  | .railsReady => true
  | .s2Restart => true
  | .coreResetRelease _ _ _ _ badMem badBar => badMem.all (fun m => memRow m.val) && badBar.all (fun d => d.val < 64)
  | .brownOut => true
  | .pinReset _ => true
  | .rstNHigh => true
  | .tapReset => true
  | .tapInstruction .. => true
  | .vioLoss => true
  | .vioReturn => true
  | .portReady => true
  | .tickBoundary _ _ => true
  | .slewEdge _ => true
  | .budget codes => codes.all (fun n => 1 ≤ n.val && n.val ≤ 14)
  | .beatAbort _ _ => true
  | .burstEnd => true
  | .startStopCondition _ _ _ => true
  | .sdaRelease => true
  | .stretchRelease => true
  | .stretchTimeout => true
  | .qdataStallEnd => true
  | .invalidIndexAccess _ => true
  | .registerWrite _ => true
  | .warmResetRequest _ => true
  | .warmResetActions => true
  | .warmResetComplete => true
  | .claimLit _ _ => true
  | .yieldToShadow _ => true
  | .leavePair _ => true
  | .softwareInterrupt _ => true
  | .hdataRead _ => true
  | .hdataWrite _ => true
  | .schemaLock _ => true
  | .revertRequest _ => true
  | .revertPerform => true
  | .snapreq _ => true
  | .snapshot => true
  | .commitRequest _ => true
  | .commitVerdict => true
  | .commitApply => true
  | .icauseClear _ => true
  | .reArmGapEnd => true
  | .glintRead _ => true
  | .queueSelect _ => true
  | .flush _ => true
  | .replay _ => true
  | .qdataRead _ => true
  | .qdataWrite _ => true
  | .heathScrub _ addr _ => addr < 2 ^ 32
  | .uplinkIntegration _ _ => true
  | .otnFrame _ f => f.ok
  | .gfpFrameRx _ f => f.ok
  | .ethernetFrameRx _ f => f.bytes.length ≤ frameMax
  | .schedulerCreditRefill => true
  | .upstreamItemSent _ => true
  | .holdOffExpiry _ _ => true
  | .selectorMove _ => true
  | .waitToRestoreEnd _ => true
  | .fopnr _ => true
  | .upstreamHeaderRx _ h => h.ok
  | .slotMapOffer _ => true
  | .applyNext _ => true
  | .generationApply _ => true
  | .smflt _ => true
  | .audioBlockRx _ blk _ bytes => payloadBlock blk && bytes.length == 20
  | .smallBlockMessage _ _ _ blocks => blocks.length ≤ 1996 && blocks.all (fun b => payloadBlock b.1 && b.2.length == 20)
  | .managementMessage _ chunks => chunks.length ≤ 2115 && chunks.all (fun b => b.length == 31)
  | .dropGfpFrame _ f => f.ok
  | .silentEnd _ _ => true
  | .quietecEnd _ => true
  | .answerRx _ msg _ => msg.length == 48
  | .callTimeout _ => true
  | .prepEnd _ => true
  | .probeJudgement _ _ => true
  | .selectEnd _ => true
  | .dropUp _ => true
  | .syncTimeout _ => true
  | .retry _ => true
  | .retrain _ => true
  | .dropDefectJudgement _ _ => true
  | .dropOff _ => true
  | .scrubberRead _ _ _ => true
  | .lockBreak _ _ => true
  | .defaultTargetAccess _ _ => true
  | .groomingMoves => true
  | .itemCommit _ _ _ => true
  | .downwardItemConsume _ _ => true
  | .level => true
  | .audioExchange pins => pins.length ≤ 8 && pins.all (fun l => l.length ≤ 3072)
  | .slaveRxFrame _ _ frame => frame.length ≤ 65535
  | .slaveTxFrameStart _ _ => true
  | .step => true
  | .captureEvent _ srcs => srcs.length ≤ 15
  | .activeEdge _ => true
  | .pulseEnd _ => true
  | .ppsPulse => true
  | .ptpTransmit => true
  | .loopFilterUpdate t => t.fmeas.length == 8 && t.active.length == 2
  | .referencePulse _ _ _ => true
  | .dpllWaitToRestoreEnd _ => true
  | .switchComplete _ _ => true
  | .faultEvent srcs _ => srcs.length ≤ 384
  | .watch => true
  | .countWindowTumble _ => true
  | .automaticRecovery => true
  | .injectionLand addr => addr < 2 ^ 32
  | .linkUp _ => true
  | .linkDown => true
  | .laneMarker _ _ _ _ _ _ _ => true
  | .tickRecord r => r.drops.length == 96 && r.lineTick < 2 ^ 32 && r.lastSeq < 2 ^ 32
  | .bankRunsApply runs _ full => runs.length ≤ (if full then 24576 else 12288) && runs.all (fun x => x.1 < 2 ^ 32)
  | .add seq _ _ len lineTick idx _ _ _ => seq < 2 ^ 32 && len ≤ frameMax && lineTick < 2 ^ 32 && idx < 125000
  | .retire seq _ => seq < 2 ^ 32
  | .cut seq lineTick idx => seq < 2 ^ 32 && lineTick < 2 ^ 32 && idx < 125000
  | .attach runs _ => runs.length ≤ 24576 && runs.all (fun x => x.1 < 2 ^ 32)
  | .armed => true
  | .tentativeClaimEnd _ => true
  | .tentativeClaimLost => true
  | .roleClash => true
  | .peerClaimLoss => true
  | .shadowLights => true
  | .litStepDown => true
  | .claimResume => true
  | .handover => true
  | .handoverTimeout => true
  | .releaseNotice => true
  | .powerPlan tsens _ _ _ _ => tsens.length == 16
  | .nightWake => true
  | .darkWake => true
  | .blockLockChange _ _ => true
  | .scheduledWake blk => blk < 226
  | .powerStateEntry blk st => blk < 226 && 1 ≤ st.val
  | .handoverRequest => true
  | .fullCopyRequest => true

/-- Bytes that a command carries with it in lists. -/
def Instr.payload : Instr → Nat
  | .vinRise _ _ _ _ => 0
  | .powerOn _ => 0
  | .railsReady => 0
  | .s2Restart => 0
  | .coreResetRelease _ _ _ _ _ _ => 0
  | .brownOut => 0
  | .pinReset _ => 0
  | .rstNHigh => 0
  | .tapReset => 0
  | .tapInstruction .. => 0
  | .vioLoss => 0
  | .vioReturn => 0
  | .portReady => 0
  | .tickBoundary _ _ => 0
  | .slewEdge _ => 0
  | .budget _ => 0
  | .beatAbort _ _ => 0
  | .burstEnd => 0
  | .startStopCondition _ _ _ => 0
  | .sdaRelease => 0
  | .stretchRelease => 0
  | .stretchTimeout => 0
  | .qdataStallEnd => 0
  | .invalidIndexAccess _ => 0
  | .registerWrite _ => 0
  | .warmResetRequest _ => 0
  | .warmResetActions => 0
  | .warmResetComplete => 0
  | .claimLit _ _ => 0
  | .yieldToShadow _ => 0
  | .leavePair _ => 0
  | .softwareInterrupt _ => 0
  | .hdataRead _ => 0
  | .hdataWrite _ => 0
  | .schemaLock _ => 0
  | .revertRequest _ => 0
  | .revertPerform => 0
  | .snapreq _ => 0
  | .snapshot => 0
  | .commitRequest _ => 0
  | .commitVerdict => 0
  | .commitApply => 0
  | .icauseClear _ => 0
  | .reArmGapEnd => 0
  | .glintRead _ => 0
  | .queueSelect _ => 0
  | .flush _ => 0
  | .replay _ => 0
  | .qdataRead _ => 0
  | .qdataWrite _ => 0
  | .heathScrub _ _ _ => 0
  | .uplinkIntegration _ _ => 0
  | .otnFrame _ f => f.line.bytes.length + f.fixed.bytes.length
  | .gfpFrameRx _ f => f.client.length
  | .ethernetFrameRx _ f => f.bytes.length
  | .schedulerCreditRefill => 0
  | .upstreamItemSent _ => 0
  | .holdOffExpiry _ _ => 0
  | .selectorMove _ => 0
  | .waitToRestoreEnd _ => 0
  | .fopnr _ => 0
  | .upstreamHeaderRx _ h => h.bytes.length + h.down.length + (h.line.getD []).length
  | .slotMapOffer _ => 0
  | .applyNext _ => 0
  | .generationApply _ => 0
  | .smflt _ => 0
  | .audioBlockRx _ _ _ bytes => bytes.length
  | .smallBlockMessage _ _ _ blocks => 20 * blocks.length
  | .managementMessage _ chunks => 31 * chunks.length
  | .dropGfpFrame _ f => f.client.length
  | .silentEnd _ _ => 0
  | .quietecEnd _ => 0
  | .answerRx _ msg _ => msg.length
  | .callTimeout _ => 0
  | .prepEnd _ => 0
  | .probeJudgement _ _ => 0
  | .selectEnd _ => 0
  | .dropUp _ => 0
  | .syncTimeout _ => 0
  | .retry _ => 0
  | .retrain _ => 0
  | .dropDefectJudgement _ _ => 0
  | .dropOff _ => 0
  | .scrubberRead _ _ _ => 0
  | .lockBreak _ _ => 0
  | .defaultTargetAccess _ _ => 0
  | .groomingMoves => 0
  | .itemCommit _ _ _ => 0
  | .downwardItemConsume _ _ => 0
  | .level => 0
  | .audioExchange _ => 0
  | .slaveRxFrame _ _ _ => 0
  | .slaveTxFrameStart _ _ => 0
  | .step => 0
  | .captureEvent _ _ => 0
  | .activeEdge _ => 0
  | .pulseEnd _ => 0
  | .ppsPulse => 0
  | .ptpTransmit => 0
  | .loopFilterUpdate _ => 0
  | .referencePulse _ _ _ => 0
  | .dpllWaitToRestoreEnd _ => 0
  | .switchComplete _ _ => 0
  | .faultEvent _ _ => 0
  | .watch => 0
  | .countWindowTumble _ => 0
  | .automaticRecovery => 0
  | .injectionLand _ => 0
  | .linkUp _ => 0
  | .linkDown => 0
  | .laneMarker _ _ _ _ _ _ _ => 0
  | .tickRecord r => r.drops.length
  | .bankRunsApply runs _ _ => 8 * runs.length
  | .add _ _ _ _ _ _ _ _ _ => 0
  | .retire _ _ => 0
  | .cut _ _ _ => 0
  | .attach runs _ => 8 * runs.length
  | .armed => 0
  | .tentativeClaimEnd _ => 0
  | .tentativeClaimLost => 0
  | .roleClash => 0
  | .peerClaimLoss => 0
  | .shadowLights => 0
  | .litStepDown => 0
  | .claimResume => 0
  | .handover => 0
  | .handoverTimeout => 0
  | .releaseNotice => 0
  | .powerPlan tsens _ _ _ _ => 2 * tsens.length
  | .nightWake => 0
  | .darkWake => 0
  | .blockLockChange _ _ => 0
  | .scheduledWake _ => 0
  | .powerStateEntry _ _ => 0
  | .handoverRequest => 0
  | .fullCopyRequest => 0

end Sys2Proof
end

