-- ==== Sys2Proof/Laws/PerInstr.lean ====
section
/-! SUPPORT. One lemma per command: a well-formed command brings at most 262,144 bytes. -/

namespace Sys2Proof.Laws.Sized

/-- A well-formed command carries a bounded payload. -/
def Statement (i : Instr) : Prop := i.wf = true → i.payload ≤ 262144

theorem vinRise : ∀ cold railUp vioSel vioMv, Statement (.vinRise cold railUp vioSel vioMv) := fun _ _ _ _ _ => Nat.zero_le _
theorem powerOn : ∀ vioMv, Statement (.powerOn vioMv) := fun _ _ => Nat.zero_le _
theorem railsReady : Statement (.railsReady) := fun _ => Nat.zero_le _
theorem s2Restart : Statement (.s2Restart) := fun _ => Nat.zero_le _
theorem coreResetRelease : ∀ mode adr twnId boot badMem badBar, Statement (.coreResetRelease mode adr twnId boot badMem badBar) := fun _ _ _ _ _ _ _ => Nat.zero_le _
theorem brownOut : Statement (.brownOut) := fun _ => Nat.zero_le _
theorem pinReset : ∀ lowNs, Statement (.pinReset lowNs) := fun _ _ => Nat.zero_le _
theorem rstNHigh : Statement (.rstNHigh) := fun _ => Nat.zero_le _
theorem tapReset : Statement (.tapReset) := fun _ => Nat.zero_le _
theorem tapInstruction : ∀ op cells, Statement (.tapInstruction op cells) := fun _ _ _ => Nat.zero_le _
theorem vioLoss : Statement (.vioLoss) := fun _ => Nat.zero_le _
theorem vioReturn : Statement (.vioReturn) := fun _ => Nat.zero_le _
theorem portReady : Statement (.portReady) := fun _ => Nat.zero_le _
theorem tickBoundary : ∀ energy lineBits, Statement (.tickBoundary energy lineBits) := fun _ _ _ => Nat.zero_le _
theorem slewEdge : ∀ add2, Statement (.slewEdge add2) := fun _ _ => Nat.zero_le _
theorem budget : ∀ codes, Statement (.budget codes) := fun _ _ => Nat.zero_le _
theorem beatAbort : ∀ cmd first, Statement (.beatAbort cmd first) := fun _ _ _ => Nat.zero_le _
theorem burstEnd : Statement (.burstEnd) := fun _ => Nat.zero_le _
theorem startStopCondition : ∀ how cmd first, Statement (.startStopCondition how cmd first) := fun _ _ _ _ => Nat.zero_le _
theorem sdaRelease : Statement .sdaRelease := fun _ => Nat.zero_le _
theorem stretchRelease : Statement (.stretchRelease) := fun _ => Nat.zero_le _
theorem stretchTimeout : Statement (.stretchTimeout) := fun _ => Nat.zero_le _
theorem qdataStallEnd : Statement (.qdataStallEnd) := fun _ => Nat.zero_le _
theorem invalidIndexAccess : ∀ b, Statement (.invalidIndexAccess b) := fun _ _ => Nat.zero_le _
theorem registerWrite : ∀ b, Statement (.registerWrite b) := fun _ _ => Nat.zero_le _
theorem warmResetRequest : ∀ b, Statement (.warmResetRequest b) := fun _ _ => Nat.zero_le _
theorem warmResetActions : Statement (.warmResetActions) := fun _ => Nat.zero_le _
theorem warmResetComplete : Statement (.warmResetComplete) := fun _ => Nat.zero_le _
theorem claimLit : ∀ b peerHigh, Statement (.claimLit b peerHigh) := fun _ _ _ => Nat.zero_le _
theorem yieldToShadow : ∀ b, Statement (.yieldToShadow b) := fun _ _ => Nat.zero_le _
theorem leavePair : ∀ b, Statement (.leavePair b) := fun _ _ => Nat.zero_le _
theorem softwareInterrupt : ∀ b, Statement (.softwareInterrupt b) := fun _ _ => Nat.zero_le _
theorem hdataRead : ∀ b, Statement (.hdataRead b) := fun _ _ => Nat.zero_le _
theorem hdataWrite : ∀ b, Statement (.hdataWrite b) := fun _ _ => Nat.zero_le _
theorem schemaLock : ∀ b, Statement (.schemaLock b) := fun _ _ => Nat.zero_le _
theorem revertRequest : ∀ b, Statement (.revertRequest b) := fun _ _ => Nat.zero_le _
theorem revertPerform : Statement (.revertPerform) := fun _ => Nat.zero_le _
theorem snapreq : ∀ b, Statement (.snapreq b) := fun _ _ => Nat.zero_le _
theorem snapshot : Statement (.snapshot) := fun _ => Nat.zero_le _
theorem commitRequest : ∀ b, Statement (.commitRequest b) := fun _ _ => Nat.zero_le _
theorem commitVerdict : Statement (.commitVerdict) := fun _ => Nat.zero_le _
theorem commitApply : Statement (.commitApply) := fun _ => Nat.zero_le _
theorem icauseClear : ∀ b, Statement (.icauseClear b) := fun _ _ => Nat.zero_le _
theorem reArmGapEnd : Statement (.reArmGapEnd) := fun _ => Nat.zero_le _
theorem glintRead : ∀ b, Statement (.glintRead b) := fun _ _ => Nat.zero_le _
theorem queueSelect : ∀ b, Statement (.queueSelect b) := fun _ _ => Nat.zero_le _
theorem flush : ∀ b, Statement (.flush b) := fun _ _ => Nat.zero_le _
theorem replay : ∀ b, Statement (.replay b) := fun _ _ => Nat.zero_le _
theorem qdataRead : ∀ b, Statement (.qdataRead b) := fun _ _ => Nat.zero_le _
theorem qdataWrite : ∀ b, Statement (.qdataWrite b) := fun _ _ => Nat.zero_le _
theorem heathScrub : ∀ bank addr fresh, Statement (.heathScrub bank addr fresh) := fun _ _ _ _ => Nat.zero_le _
theorem uplinkIntegration : ∀ u t, Statement (.uplinkIntegration u t) := fun _ _ _ => Nat.zero_le _
theorem otnFrame : ∀ u f, Statement (.otnFrame u f) := by
  intro u f h
  simp only [Instr.wf, OtnFrame.ok, Bool.and_eq_true, beq_iff_eq, decide_eq_true_eq] at h
  simp only [Instr.payload]
  omega
theorem gfpFrameRx : ∀ u f, Statement (.gfpFrameRx u f) := by
  intro u f h
  simp only [Instr.wf, GfpFrame.ok, Bool.and_eq_true, decide_eq_true_eq] at h
  simp only [Instr.payload]
  have : frameMax = 65535 := rfl
  omega
theorem ethernetFrameRx : ∀ u f, Statement (.ethernetFrameRx u f) := by
  intro u f h
  simp only [Instr.wf, decide_eq_true_eq] at h
  simp only [Instr.payload]
  have : frameMax = 65535 := rfl
  omega
theorem schedulerCreditRefill : Statement (.schedulerCreditRefill) := fun _ => Nat.zero_le _
theorem upstreamItemSent : ∀ u, Statement (.upstreamItemSent u) := fun _ _ => Nat.zero_le _
theorem holdOffExpiry : ∀ p which, Statement (.holdOffExpiry p which) := fun _ _ _ => Nat.zero_le _
theorem selectorMove : ∀ p, Statement (.selectorMove p) := fun _ _ => Nat.zero_le _
theorem waitToRestoreEnd : ∀ p, Statement (.waitToRestoreEnd p) := fun _ _ => Nat.zero_le _
theorem fopnr : ∀ p, Statement (.fopnr p) := fun _ _ => Nat.zero_le _
theorem upstreamHeaderRx : ∀ d h, Statement (.upstreamHeaderRx d h) := by
  intro d h h
  simp only [Instr.wf, UpHeader.ok, Bool.and_eq_true, beq_iff_eq, decide_eq_true_eq] at h
  simp only [Instr.payload]
  omega
theorem slotMapOffer : ∀ d, Statement (.slotMapOffer d) := fun _ _ => Nat.zero_le _
theorem applyNext : ∀ d, Statement (.applyNext d) := fun _ _ => Nat.zero_le _
theorem generationApply : ∀ d, Statement (.generationApply d) := fun _ _ => Nat.zero_le _
theorem smflt : ∀ d, Statement (.smflt d) := fun _ _ => Nat.zero_le _
theorem audioBlockRx : ∀ d blk echo bytes, Statement (.audioBlockRx d blk echo bytes) := by
  intro d blk echo bytes h
  simp only [Instr.wf, Bool.and_eq_true, beq_iff_eq] at h
  simp only [Instr.payload]
  omega
theorem smallBlockMessage : ∀ d kind echo blocks, Statement (.smallBlockMessage d kind echo blocks) := by
  intro d kind echo blocks h
  simp only [Instr.wf, Bool.and_eq_true, decide_eq_true_eq] at h
  simp only [Instr.payload]
  omega
theorem managementMessage : ∀ d chunks, Statement (.managementMessage d chunks) := by
  intro d chunks h
  simp only [Instr.wf, Bool.and_eq_true, decide_eq_true_eq] at h
  simp only [Instr.payload]
  omega
theorem dropGfpFrame : ∀ d f, Statement (.dropGfpFrame d f) := by
  intro d f h
  simp only [Instr.wf, GfpFrame.ok, Bool.and_eq_true, decide_eq_true_eq] at h
  simp only [Instr.payload]
  have : frameMax = 65535 := rfl
  omega
theorem silentEnd : ∀ d noise, Statement (.silentEnd d noise) := fun _ _ _ => Nat.zero_le _
theorem quietecEnd : ∀ d, Statement (.quietecEnd d) := fun _ _ => Nat.zero_le _
theorem answerRx : ∀ d msg snr, Statement (.answerRx d msg snr) := by
  intro d msg snr h
  simp only [Instr.wf, beq_iff_eq] at h
  simp only [Instr.payload]
  omega
theorem callTimeout : ∀ d, Statement (.callTimeout d) := fun _ _ => Nat.zero_le _
theorem prepEnd : ∀ d, Statement (.prepEnd d) := fun _ _ => Nat.zero_le _
theorem probeJudgement : ∀ d snr, Statement (.probeJudgement d snr) := fun _ _ _ => Nat.zero_le _
theorem selectEnd : ∀ d, Statement (.selectEnd d) := fun _ _ => Nat.zero_le _
theorem dropUp : ∀ d, Statement (.dropUp d) := fun _ _ => Nat.zero_le _
theorem syncTimeout : ∀ d, Statement (.syncTimeout d) := fun _ _ => Nat.zero_le _
theorem retry : ∀ d, Statement (.retry d) := fun _ _ => Nat.zero_le _
theorem retrain : ∀ d, Statement (.retrain d) := fun _ _ => Nat.zero_le _
theorem dropDefectJudgement : ∀ d t, Statement (.dropDefectJudgement d t) := fun _ _ _ => Nat.zero_le _
theorem dropOff : ∀ d, Statement (.dropOff d) := fun _ _ => Nat.zero_le _
theorem scrubberRead : ∀ bank wrd fresh, Statement (.scrubberRead bank wrd fresh) := fun _ _ _ _ => Nat.zero_le _
theorem lockBreak : ∀ m t, Statement (.lockBreak m t) := fun _ _ _ => Nat.zero_le _
theorem defaultTargetAccess : ∀ m wr, Statement (.defaultTargetAccess m wr) := fun _ _ _ => Nat.zero_le _
theorem groomingMoves : Statement (.groomingMoves) := fun _ => Nat.zero_le _
theorem itemCommit : ∀ q kind unit, Statement (.itemCommit q kind unit) := fun _ _ _ _ => Nat.zero_le _
theorem downwardItemConsume : ∀ q done, Statement (.downwardItemConsume q done) := fun _ _ _ => Nat.zero_le _
theorem level : Statement (.level) := fun _ => Nat.zero_le _
theorem audioExchange : ∀ pins, Statement (.audioExchange pins) := fun _ _ => Nat.zero_le _
theorem slaveRxFrame : ∀ p periods frame, Statement (.slaveRxFrame p periods frame) := fun _ _ _ _ => Nat.zero_le _
theorem slaveTxFrameStart : ∀ p periods, Statement (.slaveTxFrameStart p periods) := fun _ _ _ => Nat.zero_le _
theorem step : Statement (.step) := fun _ => Nat.zero_le _
theorem captureEvent : ∀ n srcs, Statement (.captureEvent n srcs) := fun _ _ _ => Nat.zero_le _
theorem activeEdge : ∀ o, Statement (.activeEdge o) := fun _ _ => Nat.zero_le _
theorem pulseEnd : ∀ o, Statement (.pulseEnd o) := fun _ _ => Nat.zero_le _
theorem ppsPulse : Statement (.ppsPulse) := fun _ => Nat.zero_le _
theorem ptpTransmit : Statement (.ptpTransmit) := fun _ => Nat.zero_le _
theorem loopFilterUpdate : ∀ t, Statement (.loopFilterUpdate t) := fun _ _ => Nat.zero_le _
theorem referencePulse : ∀ ref7 ago oscNs, Statement (.referencePulse ref7 ago oscNs) := fun _ _ _ _ => Nat.zero_le _
theorem dpllWaitToRestoreEnd : ∀ c, Statement (.dpllWaitToRestoreEnd c) := fun _ _ => Nat.zero_le _
theorem switchComplete : ∀ c phase, Statement (.switchComplete c phase) := fun _ _ _ => Nat.zero_le _
theorem faultEvent : ∀ srcs present, Statement (.faultEvent srcs present) := fun _ _ _ => Nat.zero_le _
theorem watch : Statement (.watch) := fun _ => Nat.zero_le _
theorem countWindowTumble : ∀ src, Statement (.countWindowTumble src) := fun _ _ => Nat.zero_le _
theorem automaticRecovery : Statement (.automaticRecovery) := fun _ => Nat.zero_le _
theorem injectionLand : ∀ addr, Statement (.injectionLand addr) := fun _ _ => Nat.zero_le _
theorem linkUp : ∀ compat, Statement (.linkUp compat) := fun _ _ => Nat.zero_le _
theorem linkDown : Statement (.linkDown) := fun _ => Nat.zero_le _
theorem laneMarker : ∀ a t a' t' compat peerRole peerArmed, Statement (.laneMarker a t a' t' compat peerRole peerArmed) := fun _ _ _ _ _ _ _ _ => Nat.zero_le _
theorem tickRecord : ∀ r, Statement (.tickRecord r) := by
  intro r h
  simp only [Instr.wf, Bool.and_eq_true, decide_eq_true_eq, beq_iff_eq] at h
  simp only [Instr.payload]
  omega
theorem bankRunsApply : ∀ runs tag full, Statement (.bankRunsApply runs tag full) := by
  intro runs tag full h
  simp only [Instr.wf, Bool.and_eq_true, decide_eq_true_eq] at h
  simp only [Instr.payload]
  have := h.1
  split at this <;> omega
theorem add : ∀ seq trib up len lineTick idx cell stamp crc, Statement (.add seq trib up len lineTick idx cell stamp crc) := fun _ _ _ _ _ _ _ _ _ _ => Nat.zero_le _
theorem retire : ∀ seq delivered, Statement (.retire seq delivered) := fun _ _ _ => Nat.zero_le _
theorem cut : ∀ seq lineTick idx, Statement (.cut seq lineTick idx) := fun _ _ _ _ => Nat.zero_le _
theorem attach : ∀ runs tag, Statement (.attach runs tag) := by
  intro runs tag h
  simp only [Instr.wf, Bool.and_eq_true, decide_eq_true_eq] at h
  simp only [Instr.payload]
  omega
theorem armed : Statement (.armed) := fun _ => Nat.zero_le _
theorem tentativeClaimEnd : ∀ peerHigh, Statement (.tentativeClaimEnd peerHigh) := fun _ _ => Nat.zero_le _
theorem tentativeClaimLost : Statement (.tentativeClaimLost) := fun _ => Nat.zero_le _
theorem roleClash : Statement (.roleClash) := fun _ => Nat.zero_le _
theorem peerClaimLoss : Statement (.peerClaimLoss) := fun _ => Nat.zero_le _
theorem shadowLights : Statement (.shadowLights) := fun _ => Nat.zero_le _
theorem litStepDown : Statement (.litStepDown) := fun _ => Nat.zero_le _
theorem claimResume : Statement (.claimResume) := fun _ => Nat.zero_le _
theorem handover : Statement (.handover) := fun _ => Nat.zero_le _
theorem handoverTimeout : Statement (.handoverTimeout) := fun _ => Nat.zero_le _
theorem releaseNotice : Statement (.releaseNotice) := fun _ => Nat.zero_le _
theorem powerPlan : ∀ tsens vin vio pin regFlt, Statement (.powerPlan tsens vin vio pin regFlt) := by
  intro tsens vin vio pin regFlt h
  simp only [Instr.wf, beq_iff_eq] at h
  simp only [Instr.payload]
  omega
theorem nightWake : Statement (.nightWake) := fun _ => Nat.zero_le _
theorem darkWake : Statement (.darkWake) := fun _ => Nat.zero_le _
theorem blockLockChange : ∀ u e, Statement (.blockLockChange u e) := fun _ _ _ => Nat.zero_le _
theorem scheduledWake : ∀ blk, Statement (.scheduledWake blk) := fun _ _ => Nat.zero_le _
theorem powerStateEntry : ∀ blk st, Statement (.powerStateEntry blk st) := fun _ _ _ => Nat.zero_le _
theorem handoverRequest : Statement (.handoverRequest) := fun _ => Nat.zero_le _
theorem fullCopyRequest : Statement (.fullCopyRequest) := fun _ => Nat.zero_le _

end Sys2Proof.Laws.Sized
end

