-- ==== Sys2Proof/Safety.lean ====
section
/-! DEFINITION. What a safe run is, and the invariants of the part: the tick grid against local time, and banks in canonical form. -/

namespace Sys2Proof.Machine

/-- A step went on: it neither faulted nor refused. -/
def Goes (o : Out) : Prop := ∃ t, o = .next t
/-- The part can run every command that waits, in order, and stays where it is safe: no command faults or is refused. -/
def Safe : Nat → State → Prop
  | 0, _ => True
  | n + 1, s => ∃ t, step s = .next t ∧ Safe n t

/-- The tick grid and local time go together (R21, R22, R23, R38): local nanoseconds and seconds lie in their ranges, and the
tick number and the tick in second agree modulo 8, so that every second begins a superframe. -/
def Clock.onGrid (k : Clock) : Prop := k.ns < Config.secNs ∧ k.sec < 2 ^ 48 ∧ k.ticks % 8 = k.tickSec % 8

/-- Every bank of heath words is in canonical form: addresses strictly rise, and no word listed equals its reset value. -/
def Heath.wf (h : Heath) : Prop :=
  h.staged.wf = true ∧ h.live.wf = true ∧ h.status.wf = true ∧ h.statusEnd.wf = true ∧ h.snap.wf = true

/-- What an operation leaves as it was where it is neither the port's nor a commit, mirror, role change, snapshot or reset: the
staged and live configuration (R90), the snapshot and the status words it is taken from (R100), start-up state and the port; and the
status bank stays in canonical form. -/
structure Chip.Keeps (z c : Chip) : Prop where
  staged : c.heath.staged = z.heath.staged
  live : c.heath.live = z.heath.live
  snap : c.heath.snap = z.heath.snap
  statusEnd : c.heath.statusEnd = z.heath.statusEnd
  boot : c.boot = z.boot
  port : c.port = z.port
  wf : z.heath.status.wf = true → c.heath.status.wf = true

/-- The ST word at `a` of a row and table, or its status word (R87, R89). -/
def stWord (a : Nat) : Prop := ∃ w, wordSpec a = some w ∧ w.kind = .st
/-- The word at `a` is a status word. -/
def statusWord (a : Nat) : Prop := ∃ w, wordSpec a = some w ∧ w.kind = .status

/-- From `s` to `t` nothing moves but the block state: the queue and the clock stay, and so do configuration, snapshot, start-up state
and port (`Chip.Keeps`). -/
def State.Holds (s t : State) : Prop := t.pending = s.pending ∧ t.clk = s.clk ∧ Chip.Keeps s.chip t.chip
/-- As `State.Holds`, while ordinary core-clock edges of the tick may pass: the tick number and the second stay. -/
def State.Runs (s t : State) : Prop :=
  t.pending = s.pending ∧ t.clk.ticks = s.clk.ticks ∧ t.clk.sec = s.clk.sec ∧ s.clk.evc ≤ t.clk.evc ∧ Chip.Keeps s.chip t.chip
/-- From `s` to `t` only start-up state changes. -/
def State.OnlyBoot (s t : State) : Prop := t = { s with chip := { s.chip with boot := t.chip.boot } }
/-- From `s` to `t` only the port changes. -/
def State.OnlyPort (s t : State) : Prop := t = { s with chip := { s.chip with port := t.chip.port } }
/-- From `s` to `t` only the port and the window registers change. -/
def State.OnlyWindow (s t : State) : Prop := t = { s with chip := { s.chip with port := t.chip.port, win := t.chip.win } }
/-- From `s` to `t` only the port and DIR change. -/
def State.OnlyDir (s t : State) : Prop := t = { s with chip := { s.chip with port := t.chip.port, dir := t.chip.dir } }
/-- From `s` to `t` only the window registers change. -/
def State.OnlyWin (s t : State) : Prop := t = { s with chip := { s.chip with win := t.chip.win } }
/-- From `s` to `t` only the meadow changes. -/
def State.OnlyMead (s t : State) : Prop := t = { s with chip := { s.chip with mead := t.chip.mead } }
/-- From `s` to `t` only the twin engine's own state changes. -/
def State.OnlyTwin (s t : State) : Prop := t = { s with chip := { s.chip with twin := t.chip.twin } }
/-- From `s` to `t` only the power manager changes. -/
def State.OnlyPow (s t : State) : Prop := t = { s with chip := { s.chip with pow := t.chip.pow } }
/-- From `s` to `t` only drop `d` changes, but for status words and what fault events reach. -/
def State.OnlyDrop (s t : State) (d : Nat) : Prop := s.Holds t ∧ ∀ e, e ≠ d → t.chip.d e = s.chip.d e

/-- From `s` to `t` only the port, the window registers and DIR change. -/
def State.OnlyHost (s t : State) : Prop :=
  t = { s with chip := { s.chip with port := t.chip.port, win := t.chip.win, dir := t.chip.dir } }
/-- Reset actions, outcome, revert and snapshot of the present boundary have come about, or it is none (R70, R96). -/
def State.committed (s : State) : Prop := s.clk.idx = 0 → s.chip.boundaryWork s.clk = s.chip
/-- Nothing of the boundary's own work is still to do: the present edge is no boundary, or its reset actions, outcome, revert, step and
snapshot have come about (R70, R96, R107, R298). -/
def State.settled (s : State) : Prop := s.committed ∧ s.boundaryDone = s
/-- The core clock runs, the banks are in canonical form, and nothing of a boundary is still to do. -/
def State.serving (s : State) : Prop := s.chip.running = true ∧ s.chip.heath.wf ∧ s.settled
/-- The port takes the beat, as the first of a frame that it serves, or as the next of the frame in progress (R49, R63). -/
def Chip.opens (c : Chip) (b : Beat) : Prop :=
  if b.first = true then c.serves b = true
  else c.portOn = true ∧ c.port.inFrame = true ∧ c.port.opened = false ∧ c.port.stall = .none
/-- The port takes the beat, and all of it comes on one edge. -/
def Chip.takes (c : Chip) (b : Beat) : Prop := b.part = .whole ∧ c.opens b
/-- The command byte of the beat's frame. -/
def Chip.cmdOf (c : Chip) (b : Beat) : Byte := if b.first then b.cmd else c.port.cmd
/-- A write beat that the port takes with a good CRC (R44, R53). -/
def Chip.goodWrite (c : Chip) (b : Beat) : Prop :=
  c.takes b ∧ c.writes b = true ∧ b.crc = beatCrc (c.cmdOf b) b.data b.tag
/-- A read beat that the port takes and the host completes (R53). -/
def Chip.goodRead (c : Chip) (b : Beat) : Prop :=
  c.takes b ∧ c.writes b = false ∧ (if c.port.twoWire = true then b.ack = true else b.crc = crc8 [c.cmdOf b])

/-- The core has stopped: nothing of it is left but start-up state, the clock is back at 0, FAULT_N and LANTERN are low, and every output
is shaded (R444, R445). -/
def State.Stopped (s t : State) : Prop :=
  t.pending = s.pending ∧ t.clk = {} ∧ t.chip.running = false ∧ t.chip.shaded = true ∧ t.chip.twin.claim = false ∧
    t.chip = { boot := t.chip.boot, col := { faultn := { level := true }, lantern := false }, free := t.chip.free }

/-! ### What statements about the blocks say -/

/-- A cause bit of a block stands (R76). -/
def Chip.hasCause (c : Chip) (g : CauseReg) (row n : Nat) : Prop := (c.st g.cause row).testBit n = true
/-- DEF, SF and SD of uplink `u` read what its unmasked defects give (R120, R121). -/
def Chip.defsRead (c : Chip) (u : Nat) : Prop :=
  c.st UPLSTAT.DEF u = c.maskDefs u (c.u u).defs ∧ c.st UPLSTAT.SF u = bit (c.sfOf u (c.st UPLSTAT.DEF u)) ∧
    c.st UPLSTAT.SD u = bit (c.sdOf u (c.st UPLSTAT.DEF u))
/-- Client frames of a tributary discarded under a cause (R149). -/
def Chip.disc (c : Chip) (r : Nat) (up : Bool) (cause : Nat) : Nat :=
  vget (if up then (c.t r).upDisc else (c.t r).dnDisc) (cause - 1) 0
/-- From `s` to `t` the client frame `bs` is written whole as the last item of tributary `r`, or no space is left for it: then
nothing is written, and one NOSPACE counts (R144, R230).  No other tributary changes. -/
def State.Stored (s t : State) (r : Nat) (up : Bool) (bs : List Byte) : Prop :=
  (∀ x, x ≠ r → t.chip.t x = s.chip.t x) ∧
  ((∃ it : Item, it.trib = r ∧ it.up = up ∧ it.data = bs ∧ it.cells.length = cellsFor bs.length ∧
      t.chip.items r up = s.chip.items r up ++ [it]) ∨
    (t.chip.items r up = s.chip.items r up ∧ t.chip.disc r up cNospace = wrapAdd 32 (s.chip.disc r up cNospace) 1))
/-- From `s` to `t` the client frame is refused under a cause: one more counted, and no item written. -/
def State.Turned (s t : State) (r : Nat) (up : Bool) (cause : Nat) : Prop :=
  (∀ x, x ≠ r → t.chip.t x = s.chip.t x) ∧ t.chip.items r up = s.chip.items r up ∧
    t.chip.disc r up cause = wrapAdd 32 (s.chip.disc r up cause) 1
/-- A producer's whole message stands complete in queue `q`, as its newest open item. -/
def State.Queued (s t : State) (q kind unit : Nat) (bs : List Byte) : Prop :=
  ∃ e, (t.chip.q q).opens = (s.chip.q q).opens ++
    [{ kind := kind, unit := unit, bytes := bs, words := itemWords bs.length, doneAt := some e }]

end Sys2Proof.Machine

namespace Sys2Proof

/-- Commands that can bring the clock back to 0: the release edge and what stops the core. -/
def Instr.stopsClock : Instr → Bool
  | .coreResetRelease .. | .brownOut | .pinReset _ | .tapInstruction .. => true
  | _ => false
/-- Commands that are not the port's, and neither start or stop the part, nor pass a tick boundary, commit, revert, snapshot, mirror
or take over. -/
def Instr.lineSide : Instr → Bool
  | .vinRise .. | .powerOn _ | .railsReady | .s2Restart | .coreResetRelease .. | .brownOut | .pinReset _ | .rstNHigh | .tapReset
  | .tapInstruction .. | .vioLoss | .vioReturn | .portReady | .tickBoundary .. | .watch => false
  | .beatAbort .. | .burstEnd | .startStopCondition .. | .sdaRelease | .stretchRelease | .stretchTimeout | .qdataStallEnd
  | .invalidIndexAccess _ | .registerWrite _ | .warmResetRequest _ | .claimLit .. | .yieldToShadow _ | .leavePair _
  | .softwareInterrupt _ | .hdataRead _ | .hdataWrite _ | .schemaLock _ | .revertRequest _ | .snapreq _ | .commitRequest _
  | .icauseClear _ | .glintRead _ | .queueSelect _ | .flush _ | .replay _ | .qdataRead _ | .qdataWrite _ => false
  | .warmResetActions | .warmResetComplete | .revertPerform | .snapshot | .commitApply | .bankRunsApply .. | .attach .. | .shadowLights => false
  | _ => true

end Sys2Proof
end

