-- ==== Sys2Proof/Certificates/Slice0/Obligations.lean ====
section
/-! DEFINITION. The statements for the provers. -/

open Sys2Proof Sys2Proof.Machine

/-- A step runs the command at the front of the queue. Derived from spec/01_tick_and_core_clock.md. -/
def Obligations.StepRunsFront : Prop :=
  ∀ (i : Instr) (rest : List Instr) (s : State), s.pending = i :: rest → step s = exec i { s with pending := rest }

/-- With no command waiting, one core-clock edge passes. Derived from spec/01_tick_and_core_clock.md. It rests on choices of the model: log 1. -/
def Obligations.IdleEdgePasses : Prop :=
  ∀ s : State, s.pending = [] →
    (s.chip.running = true → s.clk.idx < 124999 →
      ∃ t, step s = .next t ∧ t.pending = [] ∧ t.clk.evc = s.clk.evc + 1 ∧ t.clk.idx = s.clk.idx + 1 ∧
        (s.settled → t.clk.ns = s.clk.ns + 1 ∧ s.Runs t)) ∧
    (s.chip.running = true → s.clk.idx = 124999 →
      ∃ t, step s = .next t ∧ t.pending = [] ∧ t.clk.ticks = s.clk.ticks + 1 ∧ t.clk.evc = s.clk.evc + 1) ∧
    (s.chip.running = false → step s = .next s)

/-- What reset leaves. Derived from spec/01_tick_and_core_clock.md, spec/03_window_registers.md, spec/17_startup_and_reset.md. It rests on
choices of the model: log 7. -/
def Obligations.ResetState : Prop :=
  State.reset.pending = [] ∧ State.reset.chip.running = true ∧
    State.reset.clk.tick = 0 ∧ State.reset.clk.idx = 0 ∧ State.reset.clk.sec = 0 ∧ State.reset.clk.ns = 0 ∧ State.reset.clk.tickSec = 0 ∧
    State.reset.clk.evc = 0 ∧
    (∀ a, State.reset.chip.heath.staged.read a = resetWord a ∧ State.reset.chip.heath.live.read a = resetWord a ∧
      State.reset.chip.heath.status.read a = resetWord a) ∧
    State.reset.chip.win.icause = 0#32 ∧ State.reset.chip.win.imask = 0x0003FFFF#32 ∧ State.reset.chip.win.haddr = 0#32 ∧
    State.reset.chip.win.glint = 0#32 ∧ State.reset.chip.win.tsec = 0#32 ∧ State.reset.chip.win.hainc = false ∧
    State.reset.chip.win.fovr = false ∧ State.reset.chip.win.pend = false ∧
    State.reset.chip.twin.role = .solo ∧ State.reset.chip.boot.suShade = true ∧ State.reset.chip.shaded = true ∧
    (∀ d, State.reset.chip.on DROP.EN d = false ∧ (State.reset.chip.d d).ps = .off)

/-- The invariants hold at reset. Derived from spec/01_tick_and_core_clock.md, spec/04_heath_and_commit.md. It rests on choices of the model:
log 7. -/
def Obligations.ResetInvariant : Prop :=
  State.reset.clk.onGrid ∧ State.reset.chip.heath.wf

/-- Every step keeps the tick grid and local time together. Derived from spec/01_tick_and_core_clock.md, spec/12_time.md. -/
def Obligations.GridInvariant : Prop :=
  ∀ s t : State, s.clk.onGrid → step s = .next t → t.clk.onGrid

/-- Every step keeps every bank of heath words canonical. Derived from spec/04_heath_and_commit.md. -/
def Obligations.BankInvariant : Prop :=
  ∀ s t : State, s.chip.heath.wf → step s = .next t → t.chip.heath.wf

/-- Every command of every form completes, and leaves the queue of waiting commands. Derived from spec/00_scope.md. -/
def Obligations.QueueFrame : Prop :=
  ∀ (i : Instr) (s : State), ∃ t, exec i s = .next t ∧ t.pending = s.pending

/-- Only the host, commits, the mirror, role changes and resets touch configuration. Derived from spec/04_heath_and_commit.md,
spec/15_twin_pairing.md. -/
def Obligations.ConfigurationHolds : Prop :=
  ∀ (i : Instr) (s t : State), i.lineSide = true → s.settled → exec i s = .next t → Chip.Keeps s.chip t.chip

/-- The tick number moves only at tick boundaries and resets. Derived from spec/01_tick_and_core_clock.md. -/
def Obligations.TickNumberMoves : Prop :=
  ∀ (i : Instr) (s t : State), i.stopsClock = false → (∀ e b, i ≠ .tickBoundary e b) → exec i s = .next t → t.clk.ticks = s.clk.ticks

/-- TICK_BOUNDARY: the tick number, the tick in second and the superframe. Formalises R22. -/
def Obligations.TickBoundaryCounts : Prop :=
  ∀ (energy bits : Nat) (s : State), s.chip.running = true → s.clk.onGrid →
    ∃ t, exec (.tickBoundary energy bits) s = .next t ∧ t.pending = s.pending ∧ t.clk.idx = 0 ∧
      t.clk.tick = (s.clk.tick + 1) % 2 ^ 32 ∧ (s.settled → t.clk.tickSec = (s.clk.tickSec + 1) % 8000) ∧ t.clk.tickSec = t.clk.ns / 125000 ∧
      (t.clk.superframe = true ↔ t.clk.tick % 8 = 0) ∧ (t.clk.tickSec = 0 → t.clk.tick % 8 = 0) ∧
      t.clk.evc = s.clk.evc + (125000 - s.clk.idx) ∧ t.clk.lastUp = s.clk.up ∧ t.clk.lastDn = s.clk.dn ∧ t.clk.up = 0 ∧ t.clk.dn = 0

/-- SLEW_EDGE: local time adds 2 or 0, within the limits of rate and place. Derived from spec/01_tick_and_core_clock.md, spec/12_time.md. It
rests on choices of the model: log 3. -/
def Obligations.SlewEdges : Prop :=
  ∀ (add2 : Bool) (s : State), s.chip.running = true →
    (s.clk.mayslew add2 = true →
      (s.chip.tim.stepRem = 0 → (s.chip.dp 1).st ≠ .free → (s.chip.dp 1).st ≠ .lost →
        ∃ t, exec (.slewEdge add2) s = .next t ∧ t.clk.ns = s.clk.ns + (if add2 then 2 else 0) ∧
          t.clk.evc = s.clk.evc + (if add2 then 2 else 0) ∧ t.clk.ticks = s.clk.ticks ∧ t.clk.idx ≤ 124983 ∧ 16 ≤ t.clk.idx ∧
          t.clk.sinceSlew = 0 ∧ t.pending = s.pending ∧ Chip.Keeps s.chip t.chip ∧ t.chip.tim.stepRem = 0) ∧
      (s.chip.tim.stepRem ≠ 0 → add2 = decide (0 < s.chip.tim.stepRem) →
        ∃ t, exec (.slewEdge add2) s = .next t ∧ t.clk.ns = s.clk.ns + (if add2 then 2 else 0) ∧
          t.chip.tim.stepRem.natAbs + 1 = s.chip.tim.stepRem.natAbs ∧ t.pending = s.pending ∧ Chip.Keeps s.chip t.chip)) ∧
    (s.clk.sinceSlew < 999 ∨ s.clk.idx < 16 ∨ (if add2 then 124981 else 124983) < s.clk.idx → exec (.slewEdge add2) s = .next s)

/-- BUDGET: the lowest overrunning block stands in BUDGETBLK. Derived from spec/01_tick_and_core_clock.md, spec/16_power_states.md. -/
def Obligations.BudgetOverrun : Prop :=
  ∀ (codes : List (Fin 16)) (s : State), s.chip.running = true →
    ((codes.map (·.val)).filter (fun n => decide (1 ≤ n) && decide (n ≤ 14))) ≠ [] →
    ∃ t, exec (.budget codes) s = .next t ∧ s.Holds t ∧
      t.chip.dir.budgetBlk = (((codes.map (·.val)).filter (fun n => decide (1 ≤ n) && decide (n ≤ 14))) ++ s.chip.dir.budgetNow).foldl min 15 ∧
      ((14 : Fin 16) ∈ codes → t.chip.pow.holdLit = true)

/-- STEP: whole milliseconds at once, the remainder to slew. Derived from spec/12_time.md. -/
def Obligations.StepOfTime : Prop :=
  ∀ (v : Int) (s : State), s.chip.running = true → s.clk.superframe = true → s.committed → s.chip.tim.stepReq = some v →
    0 ≤ (s.clk.time : Int) + stepM (v + s.chip.tim.stepRem) * 1000000 →
    (s.clk.time : Int) + stepM (v + s.chip.tim.stepRem) * 1000000 < 2 ^ 48 * 1000000000 →
    ∃ t, exec .step s = .next t ∧ t.pending = s.pending ∧
      (t.clk.time : Int) = s.clk.time + stepM (v + s.chip.tim.stepRem) * 1000000 ∧
      t.chip.tim.stepRem = stepR (v + s.chip.tim.stepRem) ∧ -500000 ≤ t.chip.tim.stepRem ∧ t.chip.tim.stepRem ≤ 499999 ∧
      t.chip.tim.stepReq = none ∧ t.clk.evc = s.clk.evc ∧ t.clk.ticks = s.clk.ticks ∧ Chip.Keeps s.chip t.chip

/-- VIN_RISE, POWER_ON, RAILS_READY, S2_RESTART: the phases of start-up in their order. Derived from spec/17_startup_and_reset.md. It rests on
choices of the model: log 3. -/
def Obligations.SupplySequence : Prop :=
  (∀ (cold railUp vioSel : Bool) (mv : Nat) (s : State), s.chip.boot.phase = .off →
    ∃ t, exec (.vinRise cold railUp vioSel mv) s = .next t ∧ s.OnlyBoot t ∧
      t.chip.boot.phase = (if cold = false ∧ railUp = true then .s2 else .s1) ∧ t.chip.boot.nextCause = (if cold then 1 else 2)) ∧
  (∀ (mv : Nat) (s : State), s.chip.boot.phase = .s1 →
    (s.chip.boot.vioExt = false ∨ s.chip.vioGood mv = true →
      ∃ t, exec (.powerOn mv) s = .next t ∧ s.OnlyBoot t ∧ t.chip.boot.phase = .s2 ∧ t.chip.boot.ioRailUp = true) ∧
    (s.chip.boot.vioExt = true → s.chip.vioGood mv = false → exec (.powerOn mv) s = .next s)) ∧
  (∀ s : State, s.chip.boot.phase = .s2 →
    (∃ t, exec .railsReady s = .next t ∧ s.OnlyBoot t ∧ t.chip.boot.phase = (if s.held then .hold else .s3)) ∧
    (∃ t, exec .s2Restart s = .next t ∧ s.OnlyBoot t ∧ t.chip.boot.phase = .s2 ∧ t.chip.boot.s2Restarts = s.chip.boot.s2Restarts + 1))

/-- CORE_RESET_RELEASE: the release edge. Derived from spec/01_tick_and_core_clock.md, spec/17_startup_and_reset.md. It rests on choices of
the model: log 7, 11, 16. -/
def Obligations.CoreResetRelease : Prop :=
  ∀ (mode : Bool) (adr : Fin 8) (id : Bool) (boot : Nat) (mem : List (Fin 384)) (bar : List (Fin 96)) (s : State),
    s.chip.boot.phase = .s3 →
    ∃ t, exec (.coreResetRelease mode adr id boot mem bar) s = .next t ∧ t.pending = s.pending ∧ t.clk = {} ∧
      t.chip.running = true ∧ t.chip.boot.cause = s.chip.boot.nextCause ∧ t.chip.boot.bootTime = min 65535 boot ∧
      t.chip.boot.suShade = true ∧ t.chip.shaded = true ∧ t.chip.heath.staged = [] ∧ t.chip.heath.live = [] ∧
      t.chip.win.imask = 0x0003FFFF#32 ∧ t.chip.win.pend = false ∧ t.chip.port.ready = false ∧ t.chip.port.twoWire = mode ∧
      t.chip.port.adr = adr.val ∧ t.chip.twin.role = .solo ∧ t.chip.twin.id = bit id ∧
      (∀ d, copper d = true → ((t.chip.d d).barrier = true ↔ ∃ b ∈ bar, b.val = d))

/-- BROWN_OUT, PIN_RESET and a holding TAP instruction: the core is lost and every output shaded. Derived from spec/17_startup_and_reset.md,
spec/18_package_and_electrical.md. It rests on choices of the model: log 3, 10, 13, 14. -/
def Obligations.CoreStops : Prop :=
  (∀ s : State, s.chip.boot.phase ≠ .off →
    ∃ t, exec .brownOut s = .next t ∧ s.Stopped t ∧ t.chip.boot.phase = .off ∧ t.chip.boot.nextCause = 2) ∧
  (∀ (ns : Nat) (s : State), 1000 ≤ ns → (s.chip.boot.phase = .run ∨ s.chip.boot.phase = .s3 ∨ s.chip.boot.phase = .halted) →
    ∃ t, exec (.pinReset ns) s = .next t ∧ s.Stopped t ∧ t.chip.boot.phase = .hold ∧ t.chip.boot.nextCause = 3 ∧
      t.chip.boot.rstLow = true) ∧
  (∀ (ns : Nat) (s : State), ns < 100 → exec (.pinReset ns) s = .next s) ∧
  (∀ (ns : Nat) (s : State), 100 ≤ ns → ns < 1000 → s.chip.boot.phase = .run →
    ∃ t, exec (.pinReset ns) s = .next t ∧
      ((s.Stopped t ∧ t.chip.boot.phase = .hold) ∨ t = { s with chip := { s.chip with free := s.chip.free + 1 } })) ∧
  (∀ (op : Byte) (cells : BitVec 237) (s : State), tapHolds op = true → (s.chip.boot.phase = .run ∨ s.chip.boot.phase = .s3 ∨ s.chip.boot.phase = .halted) →
    ∃ t, exec (.tapInstruction op cells) s = .next t ∧ s.Stopped t ∧ t.chip.boot.phase = .hold ∧ t.chip.boot.nextCause = 3 ∧
      t.chip.boot.tap = { ir := op, cells := cells })

/-- RST_N_HIGH, TAP_RESET and a TAP instruction that does not hold: S3 begins when nothing holds it back. Derived from
spec/17_startup_and_reset.md, spec/18_package_and_electrical.md. It rests on choices of the model: log 12, 13. -/
def Obligations.HoldEnds : Prop :=
  (∀ s : State, s.chip.boot.phase = .hold →
    (∃ t, exec .rstNHigh s = .next t ∧ s.OnlyBoot t ∧ t.chip.boot.rstLow = false ∧
      t.chip.boot.phase = (if tapHolds s.chip.boot.tap.ir then .hold else .s3)) ∧
    (∃ t, exec .tapReset s = .next t ∧ s.OnlyBoot t ∧ t.chip.boot.tap = {} ∧
      t.chip.boot.phase = (if s.chip.boot.rstLow then .hold else .s3))) ∧
  (∀ (op : Byte) (cells : BitVec 237) (s : State), tapHolds op = false → s.chip.boot.phase = .hold →
    ∃ t, exec (.tapInstruction op cells) s = .next t ∧ s.OnlyBoot t ∧ t.chip.boot.tap = { ir := op, cells := cells } ∧
      t.chip.boot.phase = (if s.chip.boot.rstLow then .hold else .s3)) ∧
  (∀ (op : Byte) (cells : BitVec 237) (s : State), tapHolds op = false → s.chip.boot.phase = .run →
    ∃ t, exec (.tapInstruction op cells) s = .next t ∧ s.OnlyBoot t ∧ t.chip.boot.phase = .run ∧ t.chip.boot.tap = { ir := op, cells := cells })

/-- VIO_LOSS, VIO_RETURN and PORT_READY. Derived from spec/02_alisk_port.md, spec/18_package_and_electrical.md. It rests on choices of the
model: log 15. -/
def Obligations.IoRailAndPort : Prop :=
  (∀ s : State, s.chip.running = true → s.chip.boot.vioExt = true →
    ∃ t, exec .vioLoss s = .next t ∧ t.pending = s.pending ∧ t.clk = s.clk ∧ t.chip.port.vioLost = true ∧ t.chip.port.inFrame = false ∧ t.chip.sdo = none ∧
      t.chip.portOn = false ∧ t.chip.twin.claim = false ∧ t.chip.col.cond.contains 263 = true ∧ t.chip.heath.staged = s.chip.heath.staged ∧
      t.chip.heath.live = s.chip.heath.live ∧ t.chip.boot = s.chip.boot) ∧
  (∀ s : State, s.chip.running = true → s.chip.port.vioLost = true →
    ∃ t, exec .vioReturn s = .next t ∧ t.pending = s.pending ∧ t.clk = s.clk ∧ t.chip.port.vioLost = false ∧ t.chip.port.curErr = true ∧
      t.chip.col.cond.contains 263 = false ∧ t.chip.heath.staged = s.chip.heath.staged ∧ t.chip.heath.live = s.chip.heath.live ∧
      t.chip.boot = s.chip.boot) ∧
  (∀ s : State, s.serving → s.chip.port.ready = false → s.clk.ticks = 0 →
    ∃ t, exec .portReady s = .next t ∧ t.pending = s.pending ∧ t.clk.idx = max s.clk.idx 10000 ∧ t.chip.port.ready = true ∧
      t.chip.port.curErr = false ∧ t.chip.port.prevErr = false ∧ t.chip.heath.staged = s.chip.heath.staged ∧
      t.chip.heath.live = s.chip.heath.live ∧ t.chip.boot = s.chip.boot)

/-- REGISTER_WRITE: HADDR, IMASK, read-only indices, register reads and a failed CRC. Derived from spec/02_alisk_port.md,
spec/03_window_registers.md. It rests on choices of the model: log 50, 51. -/
def Obligations.RegisterBeats : Prop :=
  ∀ (b : Beat) (s : State), s.serving →
    (s.chip.goodWrite b → s.chip.reach b = 3 →
      ∃ t, exec (.registerWrite b) s = .next t ∧ s.OnlyWindow t ∧ t.chip.win = { s.chip.win with haddr := b.data } ∧
        t.chip.port.frames = satAdd 32 s.chip.port.frames 1) ∧
    (s.chip.goodWrite b → s.chip.reach b = 7 →
      ∃ t, exec (.registerWrite b) s = .next t ∧ s.OnlyWindow t ∧ t.chip.win.imask = b.data &&& 0x0003FFFF#32 ∧
        t.chip.win.icause = s.chip.win.icause ∧ t.chip.win.haddr = s.chip.win.haddr ∧
        t.chip.port.frames = satAdd 32 s.chip.port.frames 1) ∧
    (s.chip.goodWrite b → (s.chip.reach b = 0 ∨ s.chip.reach b = 1 ∨ s.chip.reach b = 8 ∨ s.chip.reach b = 9) →
      ∃ t, exec (.registerWrite b) s = .next t ∧ s.OnlyPort t ∧ t.chip.port.frames = satAdd 32 s.chip.port.frames 1) ∧
    (s.chip.takes b → s.chip.writes b = true → b.crc ≠ beatCrc (s.chip.cmdOf b) b.data b.tag →
      s.chip.reach b < 12 → s.chip.reach b ≠ 4 → s.chip.reach b ≠ 11 →
      ∃ t, exec (.registerWrite b) s = .next t ∧ s.OnlyPort t ∧ t.chip.port.crcFail = satAdd 32 s.chip.port.crcFail 1 ∧
        t.chip.port.frames = s.chip.port.frames ∧ t.chip.port.curErr = true) ∧
    (s.chip.goodRead b → s.chip.reach b < 12 → s.chip.reach b ≠ 4 → s.chip.reach b ≠ 8 → s.chip.reach b ≠ 11 →
      (s.chip.reach b = 9 → s.chip.port.tsecSample = [] ∨ b.first = true) →
      ∃ t, exec (.registerWrite b) s = .next t ∧ s.OnlyPort t ∧
        t.chip.port.reply.data = (if s.chip.reach b = 9 then s.chip.win.tsec else s.chip.readReg s.clk (s.chip.reach b)) ∧
        t.chip.port.reply.lead = 0xA5#8 ∧ t.chip.port.frames = satAdd 32 s.chip.port.frames 1) ∧
    (b.part = .starts → s.chip.opens b → s.chip.writes b = false → s.chip.reach b < 12 → s.chip.reach b ≠ 4 → s.chip.reach b ≠ 9 →
      s.chip.reach b ≠ 11 →
      ∃ t, exec (.registerWrite b) s = .next t ∧ s.OnlyPort t ∧ t.chip.port.reply.data = s.chip.readReg s.clk (s.chip.reach b) ∧
        t.chip.port.given = .reg (s.chip.reach b) ∧ t.chip.port.opened = true ∧ t.chip.port.frames = s.chip.port.frames) ∧
    (∀ i, b.part = .ends → s.chip.portOn = true → s.chip.port.opened = true → beatWr s.chip.port.cmd = false → s.chip.port.idx = i →
      i < 12 → i ≠ 4 → i ≠ 8 → i ≠ 11 → s.chip.port.given = .reg i → s.chip.readOk b = true →
      ∃ t, exec (.registerWrite b) s = .next t ∧ s.OnlyPort t ∧ t.chip.port.reply = s.chip.port.reply ∧ t.chip.port.opened = false ∧
        t.chip.port.frames = satAdd 32 s.chip.port.frames 1)

/-- SOFTWARE_INTERRUPT: WCTL.SWINT sets ICAUSE.SWINT, and WCTL holds HAINC and FOVR. Derived from spec/03_window_registers.md. -/
def Obligations.SoftwareInterrupt : Prop :=
  ∀ (b : Beat) (s : State), s.serving → s.chip.goodWrite b → s.chip.reach b = 2 → b.data.getLsbD 2 = true →
    ∃ t, exec (.softwareInterrupt b) s = .next t ∧ t.pending = s.pending ∧ t.clk = s.clk ∧ t.chip.win.icause.getLsbD 17 = true ∧
      t.chip.win.hainc = b.data.getLsbD 1 ∧ t.chip.win.fovr = b.data.getLsbD 0 ∧
      (b.data.toNat / 2 ^ 24 ≠ 0xA3 → b.data.toNat / 2 ^ 16 % 8 = 0 →
        s.OnlyWindow t ∧ t.chip.win.icause = s.chip.win.icause ||| word (2 ^ 17))

/-- INVALID_INDEX_ACCESS: indices 0xC to 0xF, named or stepped onto. Formalises R15. -/
def Obligations.InvalidIndex : Prop :=
  ∀ (b : Beat) (s : State), s.serving → s.chip.takes b → 12 ≤ s.chip.reach b →
    ∃ t, exec (.invalidIndexAccess b) s = .next t ∧ s.OnlyPort t ∧ t.chip.port.curErr = true ∧
      t.chip.port.idxErrs = (if b.first = false ∧ s.chip.port.idxCounted = true then s.chip.port.idxErrs else satAdd 16 s.chip.port.idxErrs 1) ∧
      t.chip.port.frames = s.chip.port.frames ∧
      (s.chip.writes b = false → t.chip.port.reply.data = 0#32 ∧ t.chip.port.reply.tag.getLsbD 4 = true) ∧
      (s.chip.writes b = true → s.chip.port.twoWire = false → t.chip.port.reply.tag.getLsbD 4 = true) ∧
      (s.chip.writes b = true → s.chip.port.twoWire = true → t.chip.port.reply.ack = false ∧ t.chip.port.inFrame = false)

/-- BEAT_ABORT, BURST_END, START_STOP_CONDITION, SDA_RELEASE, STRETCH_TIMEOUT: how a frame ends early. Derived from spec/02_alisk_port.md. It
rests on choices of the model: log 50, 83. -/
def Obligations.FrameEnds : Prop :=
  (∀ (cmd : Byte) (first : Bool) (s : State), s.chip.running = true → s.chip.portOn = true → s.chip.port.twoWire = false →
    (first = true ∧ s.chip.port.stall = .none ∧ s.chip.port.opened = false ∨ first = false ∧ s.chip.port.inFrame = true) →
    ∃ t, exec (.beatAbort cmd first) s = .next t ∧ s.OnlyPort t ∧ t.chip.port.inFrame = false ∧ t.chip.port.curErr = true ∧
      t.chip.sdo = none ∧
      t.chip.port.aborts = satAdd 32 s.chip.port.aborts 1 ∧ t.chip.port.stall = .none) ∧
  (∀ s : State, s.chip.running = true → s.chip.portOn = true → s.chip.port.twoWire = false → s.chip.port.inFrame = true →
    ∃ t, exec .burstEnd s = .next t ∧ s.OnlyPort t ∧ t.chip.port.inFrame = false ∧ t.chip.sdo = none ∧
      (beatAi s.chip.port.cmd = true → s.chip.port.beatDone = true →
        t.chip.port.curErr = s.chip.port.curErr ∧ t.chip.port.aborts = s.chip.port.aborts) ∧
      (beatAi s.chip.port.cmd = false ∨ s.chip.port.beatDone = false →
        t.chip.port.curErr = true ∧ t.chip.port.aborts = satAdd 32 s.chip.port.aborts 1)) ∧
  (∀ (how : BusEnd) (cmd : Byte) (s : State), s.chip.running = true → s.chip.portOn = true → s.chip.port.twoWire = true →
    s.chip.port.inFrame = true →
    ∃ t, exec (.startStopCondition how cmd false) s = .next t ∧ s.OnlyPort t ∧ t.chip.port.inFrame = false ∧
      t.chip.port.aborts =
        (if how = .leadNack ∧ beatWr s.chip.port.cmd = false ∧ s.chip.port.beatDone = true then s.chip.port.aborts
         else satAdd 32 s.chip.port.aborts 1)) ∧
  (∀ s : State, s.chip.running = true → s.chip.portOn = true → s.chip.port.twoWire = true → s.chip.port.inFrame = true →
    beatWr s.chip.port.cmd = false →
    ∃ t, exec .sdaRelease s = .next t ∧ s.OnlyPort t ∧ t.chip.port.sdaFree = satAdd 16 s.chip.port.sdaFree 1 ∧
      t.chip.port.aborts = satAdd 32 s.chip.port.aborts 1 ∧ t.chip.port.inFrame = false) ∧
  (∀ s : State, s.chip.running = true → s.chip.port.stall = .stretch →
    ∃ t, exec .stretchTimeout s = .next t ∧ s.OnlyPort t ∧ t.chip.port.stretchTo = satAdd 16 s.chip.port.stretchTo 1 ∧
      t.chip.port.inFrame = false ∧ t.chip.port.stall = .none ∧ t.chip.port.curErr = true)

/-- HDATA_WRITE: the staged copy takes the word, or a heath error changes nothing. Derived from spec/04_heath_and_commit.md,
spec/03_window_registers.md. It rests on choices of the model: log 71. -/
def Obligations.HdataWrite : Prop :=
  ∀ (b : Beat) (s : State), s.serving → s.chip.goodWrite b → s.chip.reach b = 4 →
    (∀ ws, wordSpec s.chip.win.haddr.toNat = some ws → ws.kind = .st → s.chip.writeError s.chip.win.haddr.toNat b.data = 0 →
      ∃ t, exec (.hdataWrite b) s = .next t ∧ t.pending = s.pending ∧ t.clk = s.clk ∧
        (∀ a, t.chip.heath.staged.read a = if a = s.chip.win.haddr.toNat then b.data &&& ws.mask else s.chip.heath.staged.read a) ∧
        t.chip.heath.live = s.chip.heath.live ∧ t.chip.heath.status = s.chip.heath.status ∧ t.chip.heath.snap = s.chip.heath.snap ∧
        t.chip.boot = s.chip.boot ∧ t.chip.dir = s.chip.dir ∧ t.chip.port.frames = satAdd 32 s.chip.port.frames 1 ∧
        t.chip.win = { s.chip.win with haddr :=
          if s.chip.win.hainc then word (nextAddr s.chip.win.haddr.toNat) else s.chip.win.haddr }) ∧
    (s.chip.writeError s.chip.win.haddr.toNat b.data ≠ 0 →
      ∃ t, exec (.hdataWrite b) s = .next t ∧ t.pending = s.pending ∧ t.clk = s.clk ∧ t.chip.heath = s.chip.heath ∧
        t.chip.win = s.chip.win ∧ t.chip.dir = s.chip.dir ∧ t.chip.boot = s.chip.boot)

/-- The staged bank is frozen, and the live view is read-only. Derived from spec/04_heath_and_commit.md. -/
def Obligations.HeathErrors : Prop :=
  ∀ (b : Beat) (s : State) (ws : WSpec), s.serving → s.chip.goodWrite b → s.chip.reach b = 4 → s.chip.win.warm ≠ .acted →
    addrError s.chip.win.haddr.toNat = 0 → wordSpec s.chip.win.haddr.toNat = some ws → ws.kind = .st →
    (s.chip.win.pend = true ∨ s.chip.dir.revPend = true ∨ s.chip.dir.view = true) →
    s.chip.writeError s.chip.win.haddr.toNat b.data =
        (if s.chip.win.pend = true ∨ s.chip.dir.revPend = true then 0x05 else 0x06) ∧
      ∃ t, exec (.hdataWrite b) s = .next t ∧ t.chip.heath = s.chip.heath ∧ t.chip.win.haddr = s.chip.win.haddr

/-- HDATA_READ: the copy that the view selects, and read-clear bits. Derived from spec/00_scope.md, spec/04_heath_and_commit.md,
spec/03_window_registers.md. It rests on choices of the model: log 83. -/
def Obligations.HdataRead : Prop :=
  ∀ (b : Beat) (s : State), s.serving →
    (∀ ws, s.chip.goodRead b → s.chip.reach b = 4 → wordSpec s.chip.win.haddr.toNat = some ws → 2 ≤ tabOf s.chip.win.haddr.toNat → tabOf s.chip.win.haddr.toNat ≠ 0x50 →
      s.chip.readError s.chip.win.haddr.toNat = 0 →
      (∀ u ∈ s.chip.heath.upsets, ¬ (u.bank = s.chip.viewBank ws.kind ∧ u.addr = s.chip.win.haddr.toNat)) →
      ∃ t, exec (.hdataRead b) s = .next t ∧ t.pending = s.pending ∧ t.clk = s.clk ∧
        t.chip.port.reply.data = (s.chip.bankOf (s.chip.viewBank ws.kind)).read s.chip.win.haddr.toNat |||
          (if tabOf s.chip.win.haddr.toNat = 0x60 ∧ wrdOf s.chip.win.haddr.toNat = 2 ∧ s.chip.dir.snapView = true ∧
            s.chip.raisedNow s.clk (rowOf s.chip.win.haddr.toNat) = true then word (2 ^ 31) else 0#32) ∧
        t.chip.port.reply.tag.getLsbD 2 = false ∧
        t.chip.heath.staged = s.chip.heath.staged ∧ t.chip.heath.live = s.chip.heath.live ∧ t.chip.heath.snap = s.chip.heath.snap ∧
        (∀ a, t.chip.heath.status.read a =
          if a = s.chip.win.haddr.toNat ∧ ws.kind = .status ∧ s.chip.dir.snapView = true then
            s.chip.heath.status.read a &&& ~~~ (t.chip.port.reply.data &&& ws.rc &&& ~~~ s.chip.eventBits a)
          else s.chip.heath.status.read a) ∧
        t.chip.win = { s.chip.win with haddr :=
          if s.chip.win.hainc then word (nextAddr s.chip.win.haddr.toNat) else s.chip.win.haddr }) ∧
    (s.chip.goodRead b → s.chip.reach b = 4 → s.chip.readError s.chip.win.haddr.toNat ≠ 0 →
      s.chip.readError s.chip.win.haddr.toNat ≠ hEcc →
      ∃ t, exec (.hdataRead b) s = .next t ∧ t.pending = s.pending ∧ t.clk = s.clk ∧
        t.chip.port.reply.data = word (s.chip.readError s.chip.win.haddr.toNat) ∧ t.chip.port.reply.tag.getLsbD 2 = true ∧
        t.chip.heath = s.chip.heath ∧ t.chip.win = s.chip.win) ∧
    (∀ (a : Nat) (v : Word) (ws : WSpec), b.part = .ends → s.chip.portOn = true → s.chip.port.opened = true →
      beatWr s.chip.port.cmd = false → s.chip.port.idx = 4 → s.chip.port.given = .heath a v → s.chip.readOk b = true →
      wordSpec a = some ws → ws.kind = .status → s.chip.dir.snapView = true →
      ∃ t, exec (.hdataRead b) s = .next t ∧ t.pending = s.pending ∧ t.clk = s.clk ∧ t.chip.port.reply = s.chip.port.reply ∧
        t.chip.port.frames = satAdd 32 s.chip.port.frames 1 ∧
        ∀ x, t.chip.heath.status.read x =
          if x = a then s.chip.heath.status.read a &&& ~~~ (v &&& ws.rc &&& ~~~ s.chip.eventBits a) else s.chip.heath.status.read x)

/-- Auto-increment stays in the table. Derived from spec/04_heath_and_commit.md. -/
def Obligations.AddressSteps : Prop :=
  ∀ a rows words kind : Nat, a < 2 ^ 32 → directory (tabOf a) = some (rows, words, kind) → rowOf a < rows → wrdOf a < words →
    tabOf (nextAddr a) = tabOf a ∧
    (wrdOf a + 1 < words → rowOf (nextAddr a) = rowOf a ∧ wrdOf (nextAddr a) = wrdOf a + 1) ∧
    (wrdOf a + 1 = words → wrdOf (nextAddr a) = 0 ∧ rowOf (nextAddr a) = if rowOf a + 1 = rows then 0 else rowOf a + 1)

/-- SCHEMA_LOCK, REVERT_REQUEST, SNAPREQ: writes of DIR and GLOBAL. Derived from spec/04_heath_and_commit.md. It rests on choices of the
model: log 20. -/
def Obligations.DirAndSnapshotRequests : Prop :=
  ∀ (b : Beat) (s : State), s.serving → s.chip.goodWrite b → s.chip.reach b = 4 → s.chip.win.warm ≠ .acted →
    s.chip.mead.brokeHeath = false →
    (s.chip.win.haddr.toNat = hAddr 0 0 0 → s.chip.dir.slock = false → b.data.toNat % 16 ≠ 0 →
      ∃ t, exec (.schemaLock b) s = .next t ∧ s.OnlyHost t ∧ t.chip.dir.slock = true ∧ t.chip.dir.hostSchema = b.data.toNat % 16 ∧
        t.chip.dir.view = s.chip.dir.view ∧ (t.chip.schemaOk = true ↔ b.data.toNat % 16 = 1)) ∧
    (s.chip.win.haddr.toNat = hAddr 0 0 0 → s.chip.dir.slock = true → b.data.toNat % 16 ≠ s.chip.dir.hostSchema →
      s.chip.writeError s.chip.win.haddr.toNat b.data = 0x07 ∧
      ∃ t, exec (.schemaLock b) s = .next t ∧ t.chip.dir = s.chip.dir ∧ t.chip.heath = s.chip.heath ∧ t.chip.win = s.chip.win) ∧
    (s.chip.win.haddr.toNat = hAddr 0 0 1 → b.data.getLsbD 8 = true → s.chip.win.pend = false →
      ∃ t, exec (.revertRequest b) s = .next t ∧ s.OnlyHost t ∧ t.chip.dir.revPend = true ∧ t.chip.dir.view = b.data.getLsbD 0 ∧
        t.chip.frozen = true) ∧
    (s.chip.win.haddr.toNat = hAddr 0 0 1 → b.data.getLsbD 8 = true → s.chip.win.pend = true →
      s.chip.writeError s.chip.win.haddr.toNat b.data = 0x08 ∧
      ∃ t, exec (.revertRequest b) s = .next t ∧ t.chip.dir = s.chip.dir ∧ t.chip.heath = s.chip.heath) ∧
    (s.chip.win.haddr.toNat = hAddr 1 0 5 → b.data.getLsbD 0 = true →
      ∃ t, exec (.snapreq b) s = .next t ∧ s.OnlyHost t ∧ t.chip.dir.snapPend = true ∧ t.chip.dir.snapView = b.data.getLsbD 2 ∧
        t.chip.dir.snapSec = b.data.getLsbD 1)

/-- COMMIT_REQUEST: pending until its boundary, deferred in the fence. Derived from spec/03_window_registers.md, spec/04_heath_and_commit.md. -/
def Obligations.CommitRequests : Prop :=
  ∀ (b : Beat) (s : State), s.serving → s.chip.goodWrite b → s.chip.reach b = 5 → b.data.toNat / 2 ^ 24 = 0xC1 →
    s.chip.win.warm ≠ .acted →
    (s.chip.win.pend = false →
      ∃ t, exec (.commitRequest b) s = .next t ∧ t.pending = s.pending ∧ t.clk = s.clk ∧ t.chip.win.pend = true ∧
        t.chip.win.lastTag = b.data.toNat / 256 % 256 ∧ t.chip.win.rej = false ∧
        t.chip.win.defer = (s.clk.inFence && !s.chip.win.fovr) ∧ t.chip.win.fenceReject = (s.clk.inFence && s.chip.win.fovr) ∧
        t.chip.win.commitIn = (if s.clk.inFence = true ∧ s.chip.win.fovr = false then 2 else 1) ∧ t.chip.win.verdict = none ∧
        t.chip.frozen = true ∧ t.chip.heath = s.chip.heath ∧ t.chip.dir = s.chip.dir) ∧
    (s.chip.win.pend = true →
      ∃ t, exec (.commitRequest b) s = .next t ∧ s.OnlyWindow t ∧
        t.chip.win = { s.chip.win with lastTag := b.data.toNat / 256 % 256, rej := false })

/-- ICAUSE_CLEAR, RE_ARM_GAP_END, GLINT_READ: the interrupt registers. Derived from spec/03_window_registers.md, spec/02_alisk_port.md. It
rests on choices of the model: log 2. -/
def Obligations.InterruptCauses : Prop :=
  (∀ (b : Beat) (s : State), s.serving → s.chip.goodWrite b → s.chip.reach b = 6 →
    ∃ t, exec (.icauseClear b) s = .next t ∧ s.OnlyWindow t ∧
      t.chip.win.icause = s.chip.win.icause &&& ~~~ (b.data &&& ~~~ (if s.chip.win.setNo = s.clk.edges then s.chip.win.setBits else 0#32)) ∧
      t.chip.win.gapEnd = some (s.clk.evc + 32) ∧ t.chip.win.intn.final = false ∧ t.chip.win.imask = s.chip.win.imask ∧
      t.chip.win.glint = s.chip.win.glint ∧ t.chip.win.tsec = s.chip.win.tsec) ∧
  (∀ (s : State) (e : Nat), s.serving → s.chip.win.gapEnd = some e → e ≤ s.clk.evc + (124999 - s.clk.idx) →
    ∃ t, exec .reArmGapEnd s = .next t ∧ s.Runs t ∧ t.clk.evc = max s.clk.evc e ∧ t.chip.win.gapEnd = none ∧
      t.chip.win.intn.final = (t.chip.win.icause &&& ~~~ t.chip.win.imask != 0#32) ∧
      (e ≤ s.clk.evc → s.OnlyWin t ∧ t.chip.win.icause = s.chip.win.icause ∧ t.chip.win.imask = s.chip.win.imask)) ∧
  (∀ (b : Beat) (s : State), s.serving → s.chip.goodRead b → s.chip.reach b = 8 →
    ∃ t, exec (.glintRead b) s = .next t ∧ s.OnlyWindow t ∧ t.chip.port.reply.data = s.chip.win.glint ∧
      t.chip.win = { s.chip.win with glmulti := false } ∧ t.chip.port.frames = satAdd 32 s.chip.port.frames 1 ∧
      (t.chip.port.inFrame = true → t.chip.port.tsecSample = [s.chip.win.tsec]))

/-- QUEUE_SELECT, FLUSH, REPLAY: writes of QSEL. Derived from spec/03_window_registers.md, spec/10_host_queues.md, spec/02_alisk_port.md. -/
def Obligations.QueueSelection : Prop :=
  ∀ (b : Beat) (s : State), s.serving → s.chip.goodWrite b → s.chip.reach b = 10 →
    (b.data.toNat % 16 < 12 →
      ∃ t, exec (.queueSelect b) s = .next t ∧ t.pending = s.pending ∧ t.clk = s.clk ∧ t.chip.win.qid = b.data.toNat % 16 ∧
        t.chip.heath.staged = s.chip.heath.staged ∧ t.chip.heath.live = s.chip.heath.live ∧ t.chip.boot = s.chip.boot) ∧
    (12 ≤ b.data.toNat % 16 →
      ∃ t, exec (.queueSelect b) s = .next t ∧ t.pending = s.pending ∧ t.clk = s.clk ∧ t.chip.win.qid = s.chip.win.qid ∧
        t.chip.heath.staged = s.chip.heath.staged ∧ t.chip.heath.live = s.chip.heath.live ∧ t.chip.boot = s.chip.boot) ∧
    (b.data.toNat % 16 < 8 → b.data.getLsbD 5 = true → s.chip.qEn (b.data.toNat % 16) = true →
      ∃ t, exec (.flush b) s = .next t ∧ t.pending = s.pending ∧ t.clk = s.clk ∧ (t.chip.q (b.data.toNat % 16)).items = [] ∧
        (t.chip.q (b.data.toNat % 16)).opens = [] ∧ (t.chip.q (b.data.toNat % 16)).copy = none ∧
        t.chip.heath.staged = s.chip.heath.staged ∧ t.chip.heath.live = s.chip.heath.live ∧
        (∀ i, i ≠ b.data.toNat % 16 → (t.chip.q i).items = (s.chip.q i).items ∧ (t.chip.q i).copy = (s.chip.q i).copy)) ∧
    (8 ≤ b.data.toNat % 16 → b.data.toNat % 16 < 12 → b.data.getLsbD 5 = true → s.chip.qEn (b.data.toNat % 16) = true →
      ∃ t, exec (.flush b) s = .next t ∧ t.pending = s.pending ∧ t.clk = s.clk ∧ (t.chip.q (b.data.toNat % 16)).hostOpen = [] ∧
        (t.chip.q (b.data.toNat % 16)).items =
          (if (s.chip.q (b.data.toNat % 16)).begun then (s.chip.q (b.data.toNat % 16)).items.take 1 else [])) ∧
    (b.data.toNat % 16 < 8 → b.data.getLsbD 6 = true → b.data.getLsbD 5 = false → s.chip.qEn (b.data.toNat % 16) = true →
      ∃ t, exec (.replay b) s = .next t ∧ t.pending = s.pending ∧ t.clk = s.clk ∧ (t.chip.q (b.data.toNat % 16)).replay = true ∧
        (t.chip.q (b.data.toNat % 16)).items = (s.chip.q (b.data.toNat % 16)).items ∧
        (t.chip.q (b.data.toNat % 16)).copy = (s.chip.q (b.data.toNat % 16)).copy)

/-- QDATA_READ, QDATA_WRITE, QDATA_STALL_END, STRETCH_RELEASE: words to and from the host. Derived from spec/02_alisk_port.md,
spec/10_host_queues.md. It rests on choices of the model: log 83. -/
def Obligations.QueueWords : Prop :=
  (∀ (b : Beat) (s : State) (w : QWord) (ws : List QWord) (r : List (List QWord)), s.serving → s.chip.goodRead b →
    s.chip.reach b = 11 → s.chip.qdataRefused false = false → s.chip.win.qid < 8 → (s.chip.q s.chip.win.qid).replay = false →
    (s.chip.q s.chip.win.qid).ready s.clk = true → (s.chip.q s.chip.win.qid).items = (w :: ws) :: r → w.err = 0 →
    ∃ t, exec (.qdataRead b) s = .next t ∧ t.pending = s.pending ∧ t.clk = s.clk ∧ t.chip.port.reply.data = w.data ∧
      t.chip.port.reply.tag.getLsbD 7 = w.eop ∧ (t.chip.q s.chip.win.qid).copy = some w ∧
      (t.chip.q s.chip.win.qid).items = (if ws = [] then r else ws :: r) ∧ t.chip.port.frames = satAdd 32 s.chip.port.frames 1 ∧
      t.chip.heath.staged = s.chip.heath.staged ∧ t.chip.heath.live = s.chip.heath.live) ∧
  (∀ (b : Beat) (s : State), s.serving → s.chip.goodWrite b → s.chip.reach b = 11 → s.chip.qdataRefused true = false →
    s.chip.win.qid < 12 → 0 < s.chip.qFree s.chip.win.qid → (tagVcnt b.tag = 0 ∨ tagEop b.tag = true) →
    ∃ t, exec (.qdataWrite b) s = .next t ∧ t.pending = s.pending ∧ t.clk = s.clk ∧
      (tagEop b.tag = true → (t.chip.q s.chip.win.qid).hostOpen = [] ∧ (t.chip.q s.chip.win.qid).items =
        (s.chip.q s.chip.win.qid).items ++ [(s.chip.q s.chip.win.qid).hostOpen ++ [⟨b.data, true, tagVcnt b.tag, 0⟩]]) ∧
      (tagEop b.tag = false → (t.chip.q s.chip.win.qid).items = (s.chip.q s.chip.win.qid).items ∧
        (t.chip.q s.chip.win.qid).hostOpen = (s.chip.q s.chip.win.qid).hostOpen ++ [⟨b.data, false, tagVcnt b.tag, 0⟩]) ∧
      t.chip.heath.staged = s.chip.heath.staged ∧ t.chip.heath.live = s.chip.heath.live) ∧
  (∀ (b : Beat) (s : State) (w : QWord) (ws : List QWord) (r : List (List QWord)), s.chip.running = true → s.chip.port.stall = .read →
    s.chip.port.held = some b → b.part = .whole → s.chip.port.idx = 11 → beatWr s.chip.port.cmd = false → s.chip.readOk b = true →
    s.chip.qdataRefused false = false → s.chip.win.qid < 8 → (s.chip.q s.chip.win.qid).replay = false →
    (s.chip.q s.chip.win.qid).ready s.clk = true → (s.chip.q s.chip.win.qid).items = (w :: ws) :: r → w.err = 0 →
    ∃ t, exec .qdataStallEnd s = .next t ∧ t.pending = s.pending ∧ t.clk = s.clk ∧ t.chip.port.stall = .none ∧
      t.chip.port.reply.data = w.data ∧ (t.chip.q s.chip.win.qid).copy = some w) ∧
  (∀ (b : Beat) (s : State), s.chip.running = true → s.chip.port.stall = .stretch → s.chip.port.held = some b → b.part = .whole → s.chip.port.idx = 11 →
    beatWr s.chip.port.cmd = true → s.chip.writeOk b = true → s.chip.qdataRefused true = false → s.chip.win.qid < 12 →
    0 < s.chip.qFree s.chip.win.qid → tagEop b.tag = true →
    ∃ t, exec .stretchRelease s = .next t ∧ t.pending = s.pending ∧ t.clk = s.clk ∧ t.chip.port.stall = .none ∧
      (t.chip.q s.chip.win.qid).items =
        (s.chip.q s.chip.win.qid).items ++ [(s.chip.q s.chip.win.qid).hostOpen ++ [⟨b.data, true, tagVcnt b.tag, 0⟩]])

/-- CLAIM_LIT, YIELD_TO_SHADOW, LEAVE_PAIR: role requests and how they are turned away. Derived from spec/15_twin_pairing.md,
spec/03_window_registers.md. It rests on choices of the model: log 52, 58. -/
def Obligations.RoleRequests : Prop :=
  ∀ (b : Beat) (s : State), s.serving → s.chip.goodWrite b → s.chip.reach b = 2 → b.data.toNat / 2 ^ 24 ≠ 0xA3 →
    s.chip.win.warm = .idle →
    (b.data.toNat / 2 ^ 16 % 8 = 1 → s.chip.twin.role = .shadow → s.chip.twin.req = none → s.chip.col.shade = false →
      s.chip.st TWIN.ARMED 0 = 0 → s.chip.port.vioLost = false →
      ∃ t, exec (.claimLit b false) s = .next t ∧ t.pending = s.pending ∧ t.clk = s.clk ∧
        t.chip.twin.req = some (.tentative (s.clk.evc + 4096)) ∧ t.chip.twin.claim = true ∧ t.chip.twin.role = .shadow ∧
        t.chip.heath.staged = s.chip.heath.staged ∧ t.chip.heath.live = s.chip.heath.live) ∧
    (b.data.toNat / 2 ^ 16 % 8 = 2 → s.chip.twin.role = .lit → s.chip.twin.req = none → s.chip.st TWIN.LINKUP 0 = 1 →
      (s.chip.twin.peerArmed = true →
        ∃ t, exec (.yieldToShadow b) s = .next t ∧ t.pending = s.pending ∧ t.clk = s.clk ∧
          t.chip.twin = { s.chip.twin with req := some (.handover s.clk.pos none) } ∧ t.chip.heath = s.chip.heath) ∧
      (s.chip.twin.peerArmed = false →
        ∃ t, exec (.yieldToShadow b) s = .next t ∧ t.chip.twin.req = none ∧ t.chip.st TWIN.RQRES 0 = rqNotready ∧
          t.chip.twin.role = .lit ∧ t.chip.heath.staged = s.chip.heath.staged ∧ t.chip.heath.live = s.chip.heath.live)) ∧
    (b.data.toNat / 2 ^ 16 % 8 = 3 → s.chip.twin.req = none →
      (s.chip.twin.role = .shadow →
        ∃ t, exec (.leavePair b) s = .next t ∧ t.pending = s.pending ∧ t.clk = s.clk ∧
          t.chip.twin = { s.chip.twin with req := some .leave, soloDue := true } ∧ t.chip.heath = s.chip.heath) ∧
      (s.chip.twin.role = .lit →
        ∃ t, exec (.leavePair b) s = .next t ∧ t.chip.twin.role = .lit ∧ t.chip.twin.req = none ∧
          t.chip.st TWIN.RQRES 0 = rqLitleave)) ∧
    (b.data.toNat / 2 ^ 16 % 8 = 1 → s.chip.twin.role = .solo →
      ∃ t, exec (.claimLit b false) s = .next t ∧ t.chip.twin.role = .solo ∧ t.chip.st TWIN.RQRES 0 = rqNopair ∧
        t.chip.win.icause.getLsbD 13 = true)

/-- WARM_RESET_REQUEST, WARM_RESET_ACTIONS, WARM_RESET_COMPLETE. Derived from spec/03_window_registers.md, spec/17_startup_and_reset.md. It
rests on choices of the model: log 17, 18, 20. -/
def Obligations.WarmReset : Prop :=
  (∀ (b : Beat) (s : State), s.serving → s.chip.goodWrite b → s.chip.reach b = 2 → b.data.toNat / 2 ^ 24 = 0xA3 →
    s.chip.win.warm = .idle →
    ∃ t, exec (.warmResetRequest b) s = .next t ∧ s.OnlyWindow t ∧ t.chip.win.warm = .asked ∧ t.chip.win.warmIn = 1 ∧
      t.chip.win.haddr = s.chip.win.haddr ∧ t.chip.win.imask = s.chip.win.imask) ∧
  (∀ s : State, s.chip.running = true → s.clk.idx = 0 → s.chip.win.warm = .asked → s.chip.win.warmIn = 0 →
    ∃ t, exec .warmResetActions s = .next t ∧ t.pending = s.pending ∧ t.clk = s.clk ∧ t.chip.win.warm = .acted ∧
      t.chip.heath.staged = [] ∧ (∀ a, t.chip.heath.live.read a =
        if tabOf a = 0x50 ∨ tabOf a = 0x58 ∨ tabOf a = 0x59 then s.chip.heath.live.read a else resetWord a) ∧
      t.chip.win.imask = 0x0003FFFF#32 ∧ t.chip.win.haddr = 0#32 ∧ t.chip.win.pend = false ∧ t.chip.dir.slock = false ∧
      t.chip.twin.role = .solo ∧ t.chip.shaded = true ∧ t.chip.port = s.chip.port ∧ t.chip.tim = s.chip.tim ∧ t.chip.dpll = s.chip.dpll ∧
      t.chip.boot = { s.chip.boot with suShade := true } ∧ (∀ d, (t.chip.d d).ps = .off)) ∧
  (∀ s : State, s.chip.running = true → s.clk.idx = 0 → s.chip.win.warm = .acted → s.chip.win.warmIn = 0 →
    ∃ t, exec .warmResetComplete s = .next t ∧ t.pending = s.pending ∧ t.clk = s.clk ∧ t.chip.win.warm = .idle ∧
      t.chip.win.icause.getLsbD 16 = true ∧ t.chip.boot = { s.chip.boot with warms := satAdd 16 s.chip.boot.warms 1 } ∧
      t.chip.heath.staged = s.chip.heath.staged ∧ t.chip.heath.live = s.chip.heath.live ∧ t.chip.port = s.chip.port)

/-- COMMIT_VERDICT, COMMIT_APPLY: the verdict at cycle index 124,999 and the two outcomes at the boundary. Derived from
spec/04_heath_and_commit.md, spec/03_window_registers.md, spec/15_twin_pairing.md. It rests on choices of the model: log 2, 3, 63, 71. -/
def Obligations.CommitOutcomes : Prop :=
  (∀ s : State, s.serving → s.chip.win.pend = true → s.chip.win.commitIn = 1 → s.chip.win.verdict = none →
    ∃ t, exec .commitVerdict s = .next t ∧ s.Runs t ∧ t.clk.idx = 124999 ∧ t.chip.win.pend = true ∧
      t.chip.win.verdict = some (if s.chip.verdictSchema = false then 0x01 else if s.chip.twin.role = .shadow then 0x02
        else if s.chip.win.fenceReject = true then 0x03 else if s.chip.dir.revPend = true then 0x04
        else t.chip.lowestStanding t.clk)) ∧
  (∀ (v : Nat) (s : State), s.chip.running = true → s.clk.idx = 0 → s.chip.win.pend = true → s.chip.win.commitIn = 0 →
    s.chip.warmActs = false → s.chip.win.verdict = some v → v ≠ 0 →
    ∃ t, exec .commitApply s = .next t ∧ s.OnlyHost t ∧ t.chip.port = s.chip.port ∧ t.chip.win.pend = false ∧ t.chip.win.rej = true ∧
      t.chip.win.rejCause = v ∧ t.chip.win.appTag = s.chip.win.appTag ∧ t.chip.win.icause.getLsbD 1 = true ∧
      t.chip.dir.rejected = wrapAdd 16 s.chip.dir.rejected 1 ∧ t.chip.dir.rejAddr = s.chip.rejectAddr v) ∧
  (∀ s : State, s.chip.running = true → s.clk.idx = 0 → s.chip.win.pend = true → s.chip.win.commitIn = 0 →
    s.chip.warmActs = false → s.chip.win.verdict = some 0 → (∀ u ∈ s.chip.heath.upsets, u.bank ≠ 0) →
    ∃ t, exec .commitApply s = .next t ∧ t.pending = s.pending ∧ t.clk = s.clk ∧ t.chip.heath.live = s.chip.heath.staged ∧
      t.chip.heath.staged = s.chip.heath.staged ∧ t.chip.boot = { s.chip.boot with suShade := false } ∧ t.chip.port = s.chip.port ∧
      t.chip.win.pend = false ∧ t.chip.win.rej = false ∧ t.chip.win.appTag = s.chip.win.lastTag ∧
      t.chip.win.icause.getLsbD 0 = true ∧ t.chip.dir.applied = wrapAdd 16 s.chip.dir.applied 1 ∧
      t.chip.dir.rejAddr = 0xFFFFFFFF#32 ∧
      t.chip.twin.role = (if s.chip.heath.staged.fld TWIN.PAIREN 0 = 1 then
        (if s.chip.twin.role = .solo then .shadow else s.chip.twin.role) else .solo)) ∧
  (∀ s : State, s.chip.win.pend = false → exec .commitVerdict s = .next (s.actAt 124999 fun _ c => c) ∧ exec .commitApply s = .next s)

/-- REVERT_PERFORM, SNAPSHOT, HEATH_SCRUB: copies of banks and the heath's own check. Derived from spec/04_heath_and_commit.md. It rests on
choices of the model: log 3, 20, 23. -/
def Obligations.RevertSnapshotScrub : Prop :=
  (∀ s : State, s.chip.running = true → s.clk.idx = 0 → s.chip.dir.revDue = true → s.chip.warmActs = false →
    ∃ t, exec .revertPerform s = .next t ∧ t = { s with chip := { s.chip with heath := t.chip.heath, dir := t.chip.dir } } ∧
      t.chip.heath.staged = s.chip.heath.live ∧ t.chip.heath.live = s.chip.heath.live ∧ t.chip.heath.status = s.chip.heath.status ∧
      t.chip.heath.snap = s.chip.heath.snap ∧ t.chip.heath.standing = [] ∧
      t.chip.dir = { s.chip.dir with revPend := false, revDue := false }) ∧
  (∀ s : State, s.chip.running = true → s.clk.idx = 0 → s.chip.dir.snapDue = true →
    ∃ t, exec .snapshot s = .next t ∧ t.pending = s.pending ∧ t.clk = s.clk ∧ t.chip.heath.snap = s.chip.heath.statusEnd ∧
      t.chip.heath.statusEnd = s.chip.heath.statusEnd ∧ t.chip.heath.staged = s.chip.heath.staged ∧
      t.chip.heath.live = s.chip.heath.live ∧ t.chip.boot = s.chip.boot ∧ t.chip.port = s.chip.port ∧
      t.chip.dir.snapPend = (s.chip.dir.snapPend && !s.chip.dir.reqDue) ∧ t.chip.dir.snapTick = s.clk.tick ∧ t.chip.dir.snapSeq = wrapAdd 16 s.chip.dir.snapSeq 1 ∧
      t.chip.dir.revPend = s.chip.dir.revPend ∧ t.chip.dir.hostSchema = s.chip.dir.hostSchema) ∧
  (∀ (b : Fin 2) (a : Nat) (n : Fin 3) (s : State), s.serving → stWord a → addrError a = 0 →
    (∀ u ∈ s.chip.heath.upsets, ¬ (u.bank = b.val ∧ u.addr = a)) →
    ∃ t, exec (.heathScrub b a n) s = .next t ∧ s.Holds t ∧
      (n = 0 → t = s) ∧
      (n = 1 → t.chip.dir.eccFix = min 65535 (s.chip.dir.eccFix + 1) ∧ t.chip.heath.upsets = s.chip.heath.upsets ∧
        t.chip.win = s.chip.win ∧ t.chip.col = s.chip.col) ∧
      (n = 2 → t.chip.dir.eccFix = s.chip.dir.eccFix ∧ t.chip.heath.upsets = ⟨b.val, a, 2, true⟩ :: s.chip.heath.upsets)) ∧
  (∀ s : State, s.chip.dir.revDue = false → s.chip.dir.snapDue = false →
    exec .revertPerform s = .next s ∧ exec .snapshot s = .next s)

/-- UPLINK_INTEGRATION, OTN_FRAME, BLOCK_LOCK_CHANGE: defects, their masks and the counters. Derived from spec/05_uplink_framing.md. It rests
on choices of the model: log 3, 4, 6, 34, 84, 85, 86, 88. -/
def Obligations.UplinkDefects : Prop :=
  (∀ (u : Fin 4) (x : UplinkTick) (s : State), s.serving → s.clk.idx ≤ 15 → s.chip.done.contains u.val = false →
    s.chip.lv UPL.MODE u.val ≠ 0 → (s.chip.u u.val).start < s.clk.ticks → (s.chip.u u.val).defs < 2 ^ 27 →
    ∃ t, exec (.uplinkIntegration u x) s = .next t ∧ s.Holds t ∧ u.val ∈ t.chip.done ∧ t.chip.defsRead u.val ∧
      t.chip.st UPLSTAT.TEMP u.val = unsigned 16 x.temp ∧
      t.chip.st UPLSTAT.RXPWR u.val = (if x.rxPwr < -4000 then 0x8000 else unsigned 16 x.rxPwr) ∧
      (x.rxPwr < signed 16 (s.chip.lv UPL.LOSSET u.val) → s.chip.on UPL.LOOPNE u.val = false → t.chip.st UPLSTAT.DEF u.val = 1)) ∧
  (∀ (u : Fin 4) (f : OtnFrame) (s : State), s.serving → RuleCtx.otn (s.chip.lv UPL.MODE u.val) = true →
    s.chip.lineDown u.val (s.chip.u u.val).defs = false → s.chip.loopDead u.val = false → (s.chip.u u.val).defs < 2 ^ 27 →
    ∃ t, exec (.otnFrame u f) s = .next t ∧ s.Holds t ∧ t.chip.defsRead u.val ∧
      t.chip.st UPLSTAT.FECCOR u.val = wrapAdd UPLSTAT.FECCOR.width (s.chip.st UPLSTAT.FECCOR u.val) f.fecCor ∧
      t.chip.st UPLSTAT.FECUNC u.val = wrapAdd UPLSTAT.FECUNC.width (s.chip.st UPLSTAT.FECUNC u.val) f.fecUnc) ∧
  (∀ (u : Fin 4) (e : PcsEvent) (s : State), s.serving → RuleCtx.eth (s.chip.lv UPL.MODE u.val) = true →
    s.chip.lineDown u.val (s.chip.u u.val).defs = false → s.chip.loopDead u.val = false → (s.chip.u u.val).defs < 2 ^ 27 →
    ∃ t, exec (.blockLockChange u e) s = .next t ∧ s.Holds t ∧ t.chip.defsRead u.val ∧
      (e = .blockLock false → t.chip.st UPLSTAT.DEF u.val = 2 ^ 21 ∧ t.chip.st UPLSTAT.SF u.val = 1) ∧
      (∀ p, e = .localFault p → has (s.chip.u u.val).defs 21 = false → has (t.chip.st UPLSTAT.DEF u.val) 23 = p)) ∧
  (∀ (u : Fin 4) (f : OtnFrame) (e : PcsEvent) (s : State), s.chip.lv UPL.MODE u.val = 0 →
    exec (.otnFrame u f) s = .next s ∧ exec (.blockLockChange u e) s = .next s) ∧
  (∀ (u : Fin 4) (x : UplinkTick) (s : State), 15 + bit s.clk.skip < s.clk.idx ∨ s.chip.done.contains u.val = true →
    exec (.uplinkIntegration u x) s = .next s)

/-- GFP_FRAME_RX, ETHERNET_FRAME_RX, DROP_GFP_FRAME: client frames come into the meadow whole, or are counted. Derived from
spec/06_uplink_mapping_protection.md, spec/07_drop_frame.md, spec/09_meadow_crossbar_grooming.md. It rests on choices of the model: log
27, 44, 45. -/
def Obligations.ClientFrames : Prop :=
  (∀ (u : Fin 4) (f : GfpFrame) (s : State), s.serving → RuleCtx.otn (s.chip.lv UPL.MODE u.val) = true →
    s.chip.st UPLSTAT.SF u.val = 0 → vget s.chip.gfp u.val .hunt = .sync → f.core = 0 → f.pli ≠ 0 → s.chip.selected u.val = true →
    f.hecOk = true → f.pti = 0 → f.exi = 1 → (f.pfi = true → f.fcsOk = true) → f.part = .whole → s.chip.on UPL.LOOPNE u.val = false →
    (s.chip.u u.val).rx = none →
    (∀ r, s.chip.tribByKey u.val f.cid = some r → s.chip.liveBad 0x12 r = false →
      (s.chip.on TRIB.ENDN r = true → f.client.length ≤ s.chip.lv TRIB.MAXLEN r → (s.chip.t r).dn = [] →
        s.chip.headCause (s.chip.lv TRIB.DROP r) = none →
        ∃ t, exec (.gfpFrameRx u f) s = .next t ∧ s.Holds t ∧ s.Stored t r false f.client) ∧
      (s.chip.on TRIB.ENDN r = false → ∃ t, exec (.gfpFrameRx u f) s = .next t ∧ s.Holds t ∧ s.Turned t r false cDisabled)) ∧
    (s.chip.tribByKey u.val f.cid = none →
      ∃ t, exec (.gfpFrameRx u f) s = .next t ∧ s.Holds t ∧ t.chip.trib = s.chip.trib ∧
        t.chip.st (Chip.hecFld APS.UNKNOWN0 APS.UNKNOWN1 u.val) (u.val / 2) =
          wrapAdd (Chip.hecFld APS.UNKNOWN0 APS.UNKNOWN1 u.val).width (s.chip.st (Chip.hecFld APS.UNKNOWN0 APS.UNKNOWN1 u.val) (u.val / 2)) 1)) ∧
  (∀ (u : Fin 4) (f : EtherFrame) (s : State) (r : Nat), s.serving → RuleCtx.eth (s.chip.lv UPL.MODE u.val) = true →
    s.chip.st UPLSTAT.SF u.val = 0 → s.chip.ptpMatch u.val f.bytes = false → s.chip.selected u.val = true → f.fcsOk = true →
    f.part = .whole → f.errored = false → s.chip.on UPL.LOOPNE u.val = false → (s.chip.u u.val).rx = none →
    beField f.bytes 12 13 = 0x88A8 → 20 ≤ f.bytes.length → s.chip.tribByKey u.val (beField f.bytes 14 15 % 4096) = some r →
    s.chip.liveBad 0x12 r = false → s.chip.on TRIB.ENDN r = true → f.bytes.length - 4 ≤ s.chip.lv TRIB.MAXLEN r →
    (s.chip.t r).dn = [] → s.chip.headCause (s.chip.lv TRIB.DROP r) = none →
    ∃ t, exec (.ethernetFrameRx u f) s = .next t ∧ s.Holds t ∧
      s.Stored t r false (f.bytes.take 12 ++ (f.bytes.drop 16).take (f.bytes.length - 20) ++
        etherFcs (f.bytes.take 12 ++ (f.bytes.drop 16).take (f.bytes.length - 20)))) ∧
  (∀ (d : Fin 96) (f : GfpFrame) (s : State), s.serving → s.chip.takesBlocks d.val = true → (s.chip.d d.val).gfp = .sync →
    (s.chip.d d.val).rxItem = none → f.part = .whole → f.core = 0 → f.pli ≠ 0 → f.hecOk = true → f.pti = 0 → f.exi = 1 → f.pfi = false →
    (∀ r, s.chip.tribByDcid d.val f.cid = some r → s.chip.dropDef d.val eXCON = false → s.chip.liveBad 0x12 r = false →
      (s.chip.on TRIB.ENUP r = true → 60 ≤ f.client.length → f.client.length ≤ s.chip.lv TRIB.MAXLEN r →
        ∃ t, exec (.dropGfpFrame d f) s = .next t ∧ s.Holds t ∧ s.Stored t r true f.client) ∧
      (s.chip.on TRIB.ENUP r = false → ∃ t, exec (.dropGfpFrame d f) s = .next t ∧ s.Holds t ∧ s.Turned t r true cDisabled)) ∧
    (s.chip.tribByDcid d.val f.cid = none → (s.chip.d d.val).ps = .up →
      ∃ t, exec (.dropGfpFrame d f) s = .next t ∧ s.OnlyDrop t d.val ∧ t.chip.trib = s.chip.trib ∧
        t.chip.st DROPSTAT.UNKDCID d.val = wrapAdd DROPSTAT.UNKDCID.width (s.chip.st DROPSTAT.UNKDCID d.val) 1))

/-- SCHEDULER_CREDIT_REFILL, UPSTREAM_ITEM_SENT: allowances and whole items upstream. Derived from spec/06_uplink_mapping_protection.md,
spec/15_twin_pairing.md. It rests on choices of the model: log 2, 3, 6, 37, 38, 87, 88. -/
def Obligations.UpstreamScheduling : Prop :=
  (∀ s : State, s.serving → s.clk.idx ≤ 271 → s.chip.done.contains 4 = false →
    ∃ t, exec .schedulerCreditRefill s = .next t ∧ s.Runs t ∧ t.clk.idx = max s.clk.idx 16 ∧ 4 ∈ t.chip.done ∧
      ∀ r < 256, (t.chip.t r).allow = s.chip.lv TRIB.UPCAP r * 64) ∧
  (∀ (u : Fin 4) (s : State) (r : Nat) (it : Item) (l : List Item), s.serving → s.chip.twin.role ≠ .shadow →
    s.chip.ptpWaits s.clk (s.chip.schedOf u.val) = false →
    (s.chip.lv APS.MODE (s.chip.schedOf u.val / 2) = 0 ∨ s.chip.ptpWaits s.clk (s.chip.schedOf u.val + 1) = false) →
    (s.chip.schedule (s.chip.schedOf u.val)).1 = some r → r < 256 → (s.chip.t r).up = it :: l → it.trib = r → it.up = true →
    (s.chip.shaded = false → s.chip.schedSends (s.chip.schedOf u.val) = true →
      (∀ x ∈ s.chip.mead.upsets, x.cell ∉ it.cells) →
      ∃ t, exec (.upstreamItemSent u) s = .next t ∧ s.Holds t ∧ t.chip.items r true = l ∧ t.chip.items r false = s.chip.items r false ∧
        (t.chip.t r).upFrames = wrapAdd 32 (s.chip.t r).upFrames 1 ∧
        (t.chip.t r).upBytes = wrapAdd 32 (s.chip.t r).upBytes it.data.length) ∧
    (s.chip.shaded = true →
      ∃ t, exec (.upstreamItemSent u) s = .next t ∧ s.Holds t ∧ t.chip.items r true = l ∧
        t.chip.disc r true cShade = wrapAdd 32 (s.chip.disc r true cShade) 1) ∧
    (s.chip.shaded = false → s.chip.schedSends (s.chip.schedOf u.val) = false →
      ∃ t, exec (.upstreamItemSent u) s = .next t ∧ s.Holds t ∧ t.chip.items r true = l ∧
        t.chip.disc r true cNopath = wrapAdd 32 (s.chip.disc r true cNopath) 1)) ∧
  (∀ s : State, 271 + bit s.clk.skip < s.clk.idx → exec .schedulerCreditRefill s = .next s) ∧
  (∀ (u : Fin 4) (s : State), s.chip.twin.role = .shadow → exec (.upstreamItemSent u) s = .next s)

/-- HOLD_OFF_EXPIRY, SELECTOR_MOVE, WAIT_TO_RESTORE_END, FOPNR: requests and the selector of a pair. Derived from
spec/06_uplink_mapping_protection.md. It rests on choices of the model: log 2, 3. -/
def Obligations.Protection : Prop :=
  (∀ (p : Fin 2) (w : Fin 4) (e : Nat) (s : State), s.serving → s.chip.lv APS.MODE p.val ≠ 0 →
    vget (s.chip.pair p.val).since w.val none = some e →
    (e + s.chip.lv APS.HOLDOFF p.val * 8 * 125000 ≤ s.clk.pos → (s.chip.apsConds p.val).getD w.val false = true →
      ∃ t, exec (.holdOffExpiry p w) s = .next t ∧ s.Holds t ∧ t.chip.apsPassed p.val w.val = true ∧
        ∀ q, q ≠ p.val → t.chip.pair q = s.chip.pair q) ∧
    (s.clk.pos < e + s.chip.lv APS.HOLDOFF p.val * 8 * 125000 → exec (.holdOffExpiry p w) s = .next s)) ∧
  (∀ (p : Fin 2) (s : State), s.serving → s.clk.idx = 0 → s.chip.lv APS.MODE p.val ≠ 0 → s.chip.liveBad 0x13 p.val = false →
    (s.chip.st APS.ACTIVE p.val = bit (s.chip.apsTarget s.clk p.val) → exec (.selectorMove p) s = .next s) ∧
    (s.chip.st APS.ACTIVE p.val ≠ bit (s.chip.apsTarget s.clk p.val) →
      ∃ t, exec (.selectorMove p) s = .next t ∧ s.Holds t ∧ t.chip.st APS.ACTIVE p.val = bit (s.chip.apsTarget s.clk p.val) ∧
        t.chip.st APS.SWITCHES p.val = wrapAdd 32 (s.chip.st APS.SWITCHES p.val) 1 ∧ t.chip.hasCause .aps p.val 0 ∧
        t.chip.aps = s.chip.aps)) ∧
  (∀ (p : Fin 2) (e : Nat) (s : State), s.serving → s.clk.idx ≤ 271 → (s.chip.pair p.val).wtrEnd = some e →
    e ≤ s.clk.ticks →
    ∃ t, exec (.waitToRestoreEnd p) s = .next t ∧ s.Runs t ∧ t.clk.idx = max s.clk.idx 16 ∧ (t.chip.pair p.val).wtrEnd = none ∧
      t.chip.st APS.WTRRUN p.val = 0 ∧ t.chip.hasCause .aps p.val 5) ∧
  (∀ (p : Fin 2) (e : Nat) (s : State), s.serving → (s.chip.pair p.val).differ = some e → s.chip.st APS.FOPNR p.val = 0 →
    (e + 400 * 125000 ≤ s.clk.pos →
      ∃ t, exec (.fopnr p) s = .next t ∧ s.Holds t ∧ t.chip.st APS.FOPNR p.val = 1 ∧ t.chip.hasCause .aps p.val 2 ∧
        t.chip.aps = s.chip.aps) ∧
    (s.clk.pos < e + 400 * 125000 → exec (.fopnr p) s = .next s))

/-- SLOT_MAP_OFFER, APPLY_NEXT, GENERATION_APPLY, SMFLT: the steps of a slot-map generation. Derived from spec/07_drop_frame.md. It rests on
choices of the model: log 3, 80. -/
def Obligations.SlotMapSteps : Prop :=
  (∀ (d : Fin 96) (s : State), s.serving → s.clk.superframe = true →
    (s.chip.twin.role ≠ .shadow → (s.chip.d d.val).sm = .waiting → (s.chip.d d.val).rx = .sync →
      ∃ t, exec (.slotMapOffer d) s = .next t ∧ s.OnlyDrop t d.val ∧ t.chip.st SLOTMAP.STATE (2 * d.val) = 2 ∧
        t.chip.d d.val = { s.chip.d d.val with
          txMch := if Chip.midMch (s.chip.d d.val) = true then {} else (s.chip.d d.val).txMch, sm := .offered, offerAge := 0, echoed := false } ∧
        (Chip.midMch (s.chip.d d.val) = true → (s.chip.d d.val).txMch.queue < 4 →
          (t.chip.q (8 + (s.chip.d d.val).txMch.queue)).begun = false)) ∧
    (s.chip.twin.role ≠ .shadow → (s.chip.d d.val).sm = .offered → echoedBefore s.clk (s.chip.d d.val) = true →
      ∃ t, exec (.applyNext d) s = .next t ∧ s.OnlyDrop t d.val ∧ t.chip.st SLOTMAP.STATE (2 * d.val) = 3 ∧
        t.chip.d d.val = { s.chip.d d.val with sm := .applyNext, offerAge := 0 }) ∧
    ((s.chip.d d.val).sm = .applyNext → 1 ≤ (s.chip.d d.val).offerAge → (s.chip.d d.val).genNext ≠ (s.chip.d d.val).genLive →
      ∃ t, exec (.generationApply d) s = .next t ∧ s.OnlyDrop t d.val ∧ (t.chip.d d.val).sm = .idle ∧
        (t.chip.d d.val).genLive = (s.chip.d d.val).genNext ∧ (t.chip.d d.val).genBefore = (s.chip.d d.val).genLive ∧
        (t.chip.d d.val).gens = ((s.chip.d d.val).genTick, (s.chip.d d.val).genLive) :: (s.chip.d d.val).gens ∧
        (t.chip.d d.val).genTick = s.clk.ticks ∧ (t.chip.d d.val).inUse = 1 - (s.chip.d d.val).inUse ∧
        t.chip.st SLOTMAP.STATE (2 * d.val) = 0 ∧ t.chip.dropDef d.val eSMFLT = false ∧ t.chip.hasCause .slot (2 * d.val) 0) ∧
    (s.chip.twin.role ≠ .shadow → (s.chip.d d.val).sm = .offered → echoedBefore s.clk (s.chip.d d.val) = false → 4 ≤ (s.chip.d d.val).offerAge →
      ∃ t, exec (.smflt d) s = .next t ∧ s.OnlyDrop t d.val ∧ t.chip.dropDef d.val eSMFLT = true ∧ t.chip.d d.val = s.chip.d d.val)) ∧
  (∀ (d : Fin 96) (s : State), s.clk.superframe = false →
    exec (.slotMapOffer d) s = .next s ∧ exec (.applyNext d) s = .next s ∧ exec (.generationApply d) s = .next s ∧
      exec (.smflt d) s = .next s)

/-- UPSTREAM_HEADER_RX: alignment, and the fields of a good header. Derived from spec/07_drop_frame.md. It rests on choices of the model: log
3, 4, 41, 42, 80. -/
def Obligations.UpstreamHeaders : Prop :=
  (∀ (d : Fin 96) (h : UpHeader) (s : State), s.serving → s.chip.hearsFrames d.val = true →
    ¬ ((s.chip.d d.val).ps = .listen ∧ copper d.val = true) →
    ((s.chip.d d.val).rx = .hunt → beField h.bytes 0 7 = upFaw →
      ∃ t, exec (.upstreamHeaderRx d h) s = .next t ∧ s.OnlyDrop t d.val ∧ (t.chip.d d.val).rx = .presync) ∧
    ((s.chip.d d.val).rx = .hunt → ones 64 (beField h.bytes 0 7 ^^^ upFaw) ≠ 0 →
      ∃ t, exec (.upstreamHeaderRx d h) s = .next t ∧ s.OnlyDrop t d.val ∧ (t.chip.d d.val).rx = .hunt) ∧
    ((s.chip.d d.val).rx = .presync → ones 64 (beField h.bytes 0 7 ^^^ upFaw) ≤ 3 →
      ∃ t, exec (.upstreamHeaderRx d h) s = .next t ∧ s.OnlyDrop t d.val ∧ (t.chip.d d.val).rx = .sync ∧
        t.chip.dropDef d.val eLOF = false) ∧
    ((s.chip.d d.val).rx = .presync → 3 < ones 64 (beField h.bytes 0 7 ^^^ upFaw) →
      ∃ t, exec (.upstreamHeaderRx d h) s = .next t ∧ s.OnlyDrop t d.val ∧ (t.chip.d d.val).rx = .hunt) ∧
    ((s.chip.d d.val).rx = .sync → (s.chip.d d.val).errRun = 3 → 3 < ones 64 (beField h.bytes 0 7 ^^^ upFaw) →
      ∃ t, exec (.upstreamHeaderRx d h) s = .next t ∧ s.OnlyDrop t d.val ∧ (t.chip.d d.val).rx = .hunt ∧
        t.chip.dropDef d.val eLOF = true) ∧
    ((s.chip.d d.val).rx = .sync → ones 64 (beField h.bytes 0 7 ^^^ upFaw) ≤ 3 → Chip.goodHeader h.bytes = true →
      ∃ t, exec (.upstreamHeaderRx d h) s = .next t ∧ s.OnlyDrop t d.val ∧ (t.chip.d d.val).rx = .sync ∧
        t.chip.st SLOTMAP.FELIVE (2 * d.val) = byteAt h.bytes 24 ∧ t.chip.st SLOTMAP.FEECHO (2 * d.val + 1) = byteAt h.bytes 25 ∧
        t.chip.st SLOTMAP.FESTORED (2 * d.val + 1) = bit (byteAt h.bytes 26 == 1) ∧ (t.chip.d d.val).delays.length ≤ 9) ∧
    ((s.chip.d d.val).rx = .sync → ones 64 (beField h.bytes 0 7 ^^^ upFaw) ≤ 3 →
      Chip.goodHeader h.bytes = false →
      ∃ t, exec (.upstreamHeaderRx d h) s = .next t ∧ s.OnlyDrop t d.val ∧
        t.chip.d d.val = Chip.badFrame (s.chip.lineTick s.clk) { s.chip.d d.val with errRun := 0 } ∧
        ((s.chip.d d.val).ps = .up → t.chip.st DROPSTAT.BADHDR d.val = wrapAdd DROPSTAT.BADHDR.width (s.chip.st DROPSTAT.BADHDR d.val) 1))) ∧
  (∀ (d : Fin 96) (h : UpHeader) (s : State), s.serving → (s.chip.d d.val).ps = .listen → copper d.val = true →
    (s.chip.d d.val).mode = 0 → (s.chip.d d.val).downRx = .hunt →
    ∃ t, exec (.upstreamHeaderRx d h) s = .next t ∧ s.OnlyDrop t d.val ∧
      t.chip.d d.val = (if beField h.down 0 7 = 0x5E1CA39B71D40B6E then { s.chip.d d.val with downRx := .presync, downErr := 0 }
        else { s.chip.d d.val with downErr := 0, trying := (s.chip.d d.val).trying % 3 + 1 })) ∧
  (∀ (d : Fin 96) (h : UpHeader) (s : State), s.chip.hearsFrames d.val = false →
    ¬ ((s.chip.d d.val).ps = .listen ∧ copper d.val = true) → exec (.upstreamHeaderRx d h) s = .next s)

/-- AUDIO_BLOCK_RX, SMALL_BLOCK_MESSAGE, MANAGEMENT_MESSAGE: upstream blocks and messages. Derived from spec/07_drop_frame.md,
spec/10_host_queues.md, spec/11_audio_ports.md. It rests on choices of the model: log 3, 39, 80, 81. -/
def Obligations.DropBlocks : Prop :=
  (∀ (d : Fin 96) (b echo : Nat) (bs : List Byte) (e : RunEnt) (s : State), s.serving → s.chip.takesBlocks d.val = true →
    s.chip.ignored d.val echo b = false → b < blocksOf (s.chip.d d.val).mode → s.chip.ticksAgo s.clk echo ≤ 3 → runAt (s.chip.runsAt s.clk d.val echo) true b = some e →
    e.typ = tAudio → s.chip.dropDef d.val eXCON = false →
    ∃ t, exec (.audioBlockRx d b echo bs) s = .next t ∧ t = { s with chip := { s.chip with aud := t.chip.aud, mead := t.chip.mead } } ∧
      ∃ x ∈ t.chip.aud.blocks, x.drop = d.val ∧ x.chan = e.chan + (b - e.start) ∧ x.echo = echo ∧
        ((s.chip.d d.val).badEchos.contains echo = true → x.rate = 5) ∧
        ((s.chip.d d.val).badEchos.contains echo = false →
          bs.length = 20 ∧ (bs.drop 19).head? = some (crc8 (bs.take 19)) ∧ byteAt bs 18 % 64 = echo % 64 → x.rate = byteAt bs 18 / 64) ∧
        ((s.chip.d d.val).badEchos.contains echo = false → ¬ (bs.length = 20 ∧ (bs.drop 19).head? = some (crc8 (bs.take 19)) ∧ byteAt bs 18 % 64 = echo % 64) → x.rate = 4)) ∧
  (∀ (d : Fin 96) (sk : SmallKind) (echo b : Nat) (bs : List Byte) (q : Nat) (e : RunEnt) (s : State), s.serving →
    s.chip.takesBlocks d.val = true → s.chip.ignored d.val echo b = false → b < blocksOf (s.chip.d d.val).mode → s.chip.ticksAgo s.clk echo ≤ 3 →
    runAt (s.chip.runsAt s.clk d.val echo) true b = some e → e.typ = (Chip.kindOf sk).2 → s.chip.dropDef d.val eXCON = false → bs.length = 20 →
    ((bs.drop 19).head? = some (crc8 (bs.take 19)) → has (byteAt bs 0) 7 = true → has (byteAt bs 0) 6 = true → byteAt bs 0 % 32 ≠ 0 →
      Chip.rxOpen (s.chip.d d.val) (Chip.kindOf sk).1 = false → s.chip.rxQueue d.val (Chip.kindOf sk).1 = some q → q < 12 → s.chip.qEn q = true →
      (s.chip.q q).openOf (Chip.kindOf sk).1 d.val = none → s.chip.qRoom q (min 18 (byteAt bs 0 % 32)) = true →
      ∃ t, exec (.smallBlockMessage d sk echo [(b, bs)]) s = .next t ∧ s.OnlyDrop t d.val ∧
        s.Queued t q (Chip.kindOf sk).1 d.val ((bs.drop 1).take (min 18 (byteAt bs 0 % 32))) ∧
        Chip.rxOpen (t.chip.d d.val) (Chip.kindOf sk).1 = false) ∧
    ((bs.drop 19).head? ≠ some (crc8 (bs.take 19)) →
      ∃ t, exec (.smallBlockMessage d sk echo [(b, bs)]) s = .next t ∧ s.OnlyDrop t d.val ∧
        Chip.rxRun (t.chip.d d.val) (Chip.kindOf sk).1 ≠ some e.start ∧
        (Chip.rxRun (s.chip.d d.val) (Chip.kindOf sk).1 ≠ some e.start → t.chip.d d.val =
          (if has (byteAt bs 0) 7 = true ∧ (s.chip.d d.val).rxLost.contains ((Chip.kindOf sk).1, e.start) = false then
            { s.chip.d d.val with rxLost := ((Chip.kindOf sk).1, e.start) :: (s.chip.d d.val).rxLost } else s.chip.d d.val)))) ∧
  (∀ (d : Fin 96) (bs : List Byte) (q : Nat) (s : State), s.serving → s.chip.takesBlocks d.val = true →
    bs.length = 31 → has (byteAt bs 0) 7 = true → has (byteAt bs 0) 6 = true → byteAt bs 0 % 32 ≠ 0 →
    Chip.rxOpen (s.chip.d d.val) 0 = false → s.chip.rxQueue d.val 0 = some q → q < 12 → s.chip.qEn q = true →
    (s.chip.q q).openOf 0 d.val = none → s.chip.qRoom q (min 30 (byteAt bs 0 % 32)) = true →
    ∃ t, exec (.managementMessage d [bs]) s = .next t ∧ s.OnlyDrop t d.val ∧
      s.Queued t q 0 d.val ((bs.drop 1).take (min 30 (byteAt bs 0 % 32))) ∧ Chip.rxOpen (t.chip.d d.val) 0 = false) ∧
  (∀ (d : Fin 96) (b echo : Nat) (sk : SmallKind) (bs : List Byte) (l : List (List Byte)) (m : List (Nat × List Byte)) (s : State),
    (s.chip.takesBlocks d.val = false →
      exec (.audioBlockRx d b echo bs) s = .next s ∧ exec (.smallBlockMessage d sk echo m) s = .next s ∧
        exec (.managementMessage d l) s = .next s) ∧
    (s.chip.ignored d.val echo b = true →
      exec (.audioBlockRx d b echo bs) s = .next s ∧ exec (.smallBlockMessage d sk echo [(b, bs)]) s = .next s))

/-- SILENT_END, QUIETEC_END, PREP_END, SELECT_END, ANSWER_RX, PROBE_JUDGEMENT: a training attempt goes on. Derived from spec/08_drop_ports.md.
It rests on choices of the model: log 3, 41, 42. -/
def Obligations.TrainingSteps : Prop :=
  (∀ (d : Fin 96) (n : Byte) (s : State), s.serving → s.chip.shaded = false → s.clk.idx = 0 → (s.chip.d d.val).ps = .silent →
    (8 ≤ (s.chip.d d.val).age →
      ∃ t, exec (.silentEnd d n) s = .next t ∧ s.OnlyDrop t d.val ∧ (t.chip.d d.val).ps = (if copper d.val then .quietec else .call) ∧
        (t.chip.d d.val).age = 0 ∧ t.chip.st DROPSTAT.NOISE d.val = n.toNat ∧
        t.chip.st DROPSTAT.PSTATE d.val = (if copper d.val then 2 else 3)) ∧
    ((s.chip.d d.val).age < 8 → exec (.silentEnd d n) s = .next s)) ∧
  (∀ (d : Fin 96) (s : State), s.serving → s.chip.shaded = false → s.clk.idx = 0 →
    ((s.chip.d d.val).ps = .quietec → 16 ≤ (s.chip.d d.val).age →
      ∃ t, exec (.quietecEnd d) s = .next t ∧ s.OnlyDrop t d.val ∧ t.chip.d d.val = { s.chip.d d.val with ps := .call, age := 0, train := Chip.Training.fresh (s.chip.d d.val).train } ∧
        t.chip.st DROPSTAT.PSTATE d.val = 3) ∧
    ((s.chip.d d.val).ps = .prep → 4 ≤ (s.chip.d d.val).age →
      ∃ t, exec (.prepEnd d) s = .next t ∧ s.OnlyDrop t d.val ∧ t.chip.d d.val = { s.chip.d d.val with ps := .probe, age := 0, train := Chip.Training.fresh (s.chip.d d.val).train } ∧
        t.chip.st DROPSTAT.PSTATE d.val = 5) ∧
    ((s.chip.d d.val).age < 16 → exec (.quietecEnd d) s = .next s) ∧ ((s.chip.d d.val).age < 4 → exec (.prepEnd d) s = .next s) ∧
    (s.clk.superframe = true → (s.chip.d d.val).ps = .select → (s.chip.d d.val).awaiting = false → 4 ≤ (s.chip.d d.val).age →
      ∃ t, exec (.selectEnd d) s = .next t ∧ s.OnlyDrop t d.val ∧ (t.chip.d d.val).ps = .select ∧ (t.chip.d d.val).awaiting = true ∧
        (t.chip.d d.val).mode = (s.chip.d d.val).train.chosen ∧ (t.chip.d d.val).rx = .hunt ∧ (t.chip.d d.val).age = 0)) ∧
  (∀ (d : Fin 96) (w m : List Byte) (snr : Byte) (s : State), s.serving → (s.chip.d d.val).ps = .call → w.length = 8 →
    m.length = 40 →
    ((s.chip.d d.val).train.hunt = .hunt →
      ∃ t, exec (.answerRx d (w ++ m) snr) s = .next t ∧ s.OnlyDrop t d.val ∧ t.chip.heath = s.chip.heath ∧
        (t.chip.d d.val).train = { (s.chip.d d.val).train with
          hunt := if beField w 0 7 = upTrain then .presync else .hunt, errRun := 0,
          pre := if beField w 0 7 = upTrain then some (m, snr.toNat) else none }) ∧
    ((s.chip.d d.val).train.hunt = .sync → beField w 0 7 = upTrain →
      (beField m 38 39 = crc16 (m.take 38) → byteAt m 0 = 0x81 →
        ((s.chip.d d.val).train.pre = none → (s.chip.d d.val).train.answers = 0 →
          ∃ t, exec (.answerRx d (w ++ m) snr) s = .next t ∧ s.OnlyDrop t d.val ∧ (t.chip.d d.val).train.answers = 1 ∧
            (t.chip.d d.val).train.lastEcho = beField m 4 7 ∧ (t.chip.d d.val).train.caps = byteAt m 3 ∧
            (t.chip.d d.val).train.ownSnr = snr.toNat ∧ t.chip.st DROPSTAT.SNRDN d.val = byteAt m 9) ∧
        ((s.chip.d d.val).train.pre = none → (s.chip.d d.val).train.answers = 1 →
          beField m 4 7 = ((s.chip.d d.val).train.lastEcho + 1) % 2 ^ 32 →
          ∃ t, exec (.answerRx d (w ++ m) snr) s = .next t ∧ s.OnlyDrop t d.val ∧ (t.chip.d d.val).train.answers = 2 ∧
            (t.chip.d d.val).train.snrA = (s.chip.d d.val).train.snrB ∧ (t.chip.d d.val).train.snrB = byteAt m 9)) ∧
      ((s.chip.d d.val).train.pre = none → beField m 38 39 ≠ crc16 (m.take 38) →
        ∃ t, exec (.answerRx d (w ++ m) snr) s = .next t ∧ s.OnlyDrop t d.val ∧ t.chip.heath = s.chip.heath ∧
          (t.chip.d d.val).train = { (s.chip.d d.val).train with errRun := 0 }))) ∧
  (∀ (d : Fin 96) (snr : Byte) (s : State), s.serving → (s.chip.d d.val).ps = .probe → (s.chip.d d.val).age = 15 →
    (s.chip.d d.val).train.judged = false → s.clk.idx = 124999 →
    ∃ t, exec (.probeJudgement d snr) s = .next t ∧ s.OnlyDrop t d.val ∧
      t.chip.d d.val = { s.chip.d d.val with train := { (s.chip.d d.val).train with
        judged := true
        chosen := if s.chip.snrPass d.val (s.chip.d d.val).train.cand snr.toNat = true ∧
          s.chip.snrPass d.val (s.chip.d d.val).train.cand (s.chip.d d.val).train.probeSnr = true then
            (s.chip.d d.val).train.cand else 0 } }) ∧
  (∀ (d : Fin 96) (snr : Byte) (s : State), s.serving →
    (s.toIdx 124999).clk.idx = 124999 ∧ exec (.probeJudgement d snr) s = exec (.probeJudgement d snr) (s.toIdx 124999))

/-- DROP_UP, CALL_TIMEOUT, SYNC_TIMEOUT, RETRY, RETRAIN, DROP_OFF: how a drop comes up, fails, tries again and goes off. Derived from
spec/08_drop_ports.md. It rests on choices of the model: log 3, 40, 41, 43. -/
def Obligations.TrainingEnds : Prop :=
  (∀ (d : Fin 96) (s : State), s.serving → s.chip.shaded = false → s.clk.idx = 0 → (s.chip.d d.val).ps = .select → (s.chip.d d.val).awaiting = true →
    ((s.chip.d d.val).rx = .sync →
      ∃ t, exec (.dropUp d) s = .next t ∧ s.OnlyDrop t d.val ∧ (t.chip.d d.val).ps = .up ∧ (t.chip.d d.val).age = 0 ∧
        (t.chip.d d.val).mode = (s.chip.d d.val).mode ∧ t.chip.st DROPSTAT.PSTATE d.val = 7 ∧ t.chip.hasCause .drop d.val 31 ∧
        t.chip.dropDef d.val eTRFAIL = false ∧
        t.chip.dropDef d.val eMODELOW = decide ((s.chip.d d.val).mode < s.chip.lv DROP.MODE d.val)) ∧
    ((s.chip.d d.val).rx ≠ .sync → 64 ≤ (s.chip.d d.val).age →
      ∃ t, exec (.syncTimeout d) s = .next t ∧ s.OnlyDrop t d.val ∧ (t.chip.d d.val).ps = .wait ∧ (t.chip.d d.val).mode = 0 ∧
        t.chip.dropDef d.val eTRFAIL = true ∧
        t.chip.st DROPSTAT.TRFAILS d.val = wrapAdd DROPSTAT.TRFAILS.width (s.chip.st DROPSTAT.TRFAILS d.val) 1)) ∧
  (∀ (d : Fin 96) (s : State), s.serving → s.chip.shaded = false → s.clk.idx = 0 →
    ((s.chip.d d.val).ps = .call → 64 ≤ (s.chip.d d.val).age → (s.chip.d d.val).train.answers < 2 →
      ∃ t, exec (.callTimeout d) s = .next t ∧ s.OnlyDrop t d.val ∧ (t.chip.d d.val).ps = .wait ∧ t.chip.dropDef d.val eTRFAIL = true ∧
        t.chip.st DROPSTAT.TRFAILS d.val = wrapAdd DROPSTAT.TRFAILS.width (s.chip.st DROPSTAT.TRFAILS d.val) 1) ∧
    ((s.chip.d d.val).ps = .call → (s.chip.d d.val).age < 64 → exec (.callTimeout d) s = .next s) ∧
    ((s.chip.d d.val).ps = .wait → s.chip.lv DROP.RETRYGAP d.val ≤ (s.chip.d d.val).age →
      ∃ t, exec (.retry d) s = .next t ∧ s.OnlyDrop t d.val ∧ (t.chip.d d.val).ps = .silent ∧ (t.chip.d d.val).age = 0 ∧
        t.chip.dropDef d.val eLOF = true ∧
        t.chip.st DROPSTAT.TRAINS d.val = wrapAdd DROPSTAT.TRAINS.width (s.chip.st DROPSTAT.TRAINS d.val) 1) ∧
    ((s.chip.d d.val).ps = .wait → (s.chip.d d.val).age < s.chip.lv DROP.RETRYGAP d.val → exec (.retry d) s = .next s) ∧
    (∀ e, (s.chip.d d.val).ps = .up → (s.chip.d d.val).closing = false →
      ((s.chip.d d.val).retrain = some e ∧ e < s.clk.ticks ∨
        (s.chip.d d.val).lofSince = some e ∧ s.chip.lv DROP.LOFRT d.val ≠ 0 ∧ e + s.chip.lv DROP.LOFRT d.val * 8 * 125000 ≤ s.clk.pos) →
      ∃ t, exec (.retrain d) s = .next t ∧ s.OnlyDrop t d.val ∧ (t.chip.d d.val).ps = .silent ∧ (t.chip.d d.val).mode = 0 ∧
        t.chip.dropDef d.val eLOF = true) ∧
    ((s.chip.d d.val).closing = true → 1 ≤ (s.chip.d d.val).age →
      ∃ t, exec (.dropOff d) s = .next t ∧ s.OnlyDrop t d.val ∧ (t.chip.d d.val).ps = .off ∧ (t.chip.d d.val).closing = false ∧
        t.chip.st DROPSTAT.PSTATE d.val = 0 ∧ t.chip.st DROPSTAT.DEF d.val = s.chip.st DROPSTAT.DEF d.val &&& 2 ^ eSMFLT ∧
        ∀ r, ∀ it ∈ (t.chip.t r).dn, it.dest ≠ d.val))

/-- DROP_DEFECT_JUDGEMENT: the defects of the tick just closed. Derived from spec/08_drop_ports.md. It rests on choices of the model: log 3,
4, 6, 73. -/
def Obligations.DropDefects : Prop :=
  (∀ (d : Fin 96) (x : DropTick) (s : State), s.serving → s.clk.idx ≤ 127 + bit s.clk.skip → s.chip.done.contains (100 + d.val) = false →
    (s.chip.d d.val).ps ≠ .off →
    ∃ t, exec (.dropDefectJudgement d x) s = .next t ∧ s.OnlyDrop t d.val ∧ 100 + d.val ∈ t.chip.done ∧
      t.chip.st DROPSTAT.TEMP d.val = unsigned 16 x.temp ∧ (t.chip.d d.val).ps = (s.chip.d d.val).ps ∧
      (copper d.val = true → x.leak = true → t.chip.dropDef d.val eISO = true) ∧
      ((s.chip.d d.val).ps = .up → 1 ≤ (s.chip.d d.val).age →
        t.chip.dropDef d.val eMODELOW = decide ((s.chip.d d.val).mode < s.chip.lv DROP.MODE d.val) ∧
        (x.pwr < (if copper d.val = true then -4500 else -3000) →
          t.chip.dropDef d.val eLOS = true ∧ t.chip.dropDef d.val eLOL = false ∧ t.chip.dropDef d.val eLFD = false ∧
          t.chip.dropDef d.val eSNRLOW = false))) ∧
  (∀ (d : Fin 96) (x : DropTick) (s : State), s.serving → s.clk.idx ≤ 127 + bit s.clk.skip → s.chip.done.contains (100 + d.val) = false →
    (s.chip.d d.val).ps = .off →
    exec (.dropDefectJudgement d x) s = .next { s with chip := { s.chip with done := (100 + d.val) :: s.chip.done } }) ∧
  (∀ (d : Fin 96) (x : DropTick) (s : State), 127 + bit s.clk.skip < s.clk.idx ∨ s.chip.done.contains (100 + d.val) = true →
    exec (.dropDefectJudgement d x) s = .next s)

/-- SCRUBBER_READ, LOCK_BREAK, DEFAULT_TARGET_ACCESS, GROOMING_MOVES: the meadow and the crossbar. Derived from
spec/09_meadow_crossbar_grooming.md. It rests on choices of the model: log 2, 3, 6, 29, 90. -/
def Obligations.MeadowCommands : Prop :=
  (∀ (b : Fin 16) (w : Fin 8) (n : Fin 3) (s : State), s.serving →
    (∀ x ∈ s.chip.mead.upsets, x.cell ≠ vget s.chip.mead.scrubRow b.val 0 * 16 + b.val) →
    ∃ t, exec (.scrubberRead b w n) s = .next t ∧ s.Holds t ∧ (n ≠ 2 → s.OnlyMead t) ∧
      vget t.chip.mead.scrubRow b.val 0 = (vget s.chip.mead.scrubRow b.val 0 + 1) % 32768 ∧
      t.chip.mead.scrubs = (if vget s.chip.mead.scrubRow b.val 0 + 1 = 32768 then wrapAdd 32 s.chip.mead.scrubs 1 else s.chip.mead.scrubs) ∧
      t.chip.mead.eccCor = wrapAdd 32 s.chip.mead.eccCor (if n = 1 then 1 else 0) ∧
      t.chip.mead.eccUnc = wrapAdd 32 s.chip.mead.eccUnc (if n = 2 then 1 else 0) ∧ t.chip.trib = s.chip.trib) ∧
  (∀ (m : Fin 8) (g : Fin 19) (s : State), s.serving →
    ((s.chip.lv XBAR.LOCKEN 0).testBit m.val = true →
      ((m = 0 ∧ (g = 16 ∨ g = 17)) ∨ (m = 6 ∧ g = 17) ∨ (m = 7 ∧ g = 16 ∧ s.chip.twin.role ≠ .solo)) →
      ∃ t, exec (.lockBreak m g) s = .next t ∧ s.Holds t ∧ t.chip.mead.lockBrk = wrapAdd 16 s.chip.mead.lockBrk 1 ∧
        t.chip.mead.brokeHeath = (s.chip.mead.brokeHeath || (m == 0 && g == 16)) ∧
        t.chip.mead.brokeQueue = (s.chip.mead.brokeQueue || (m == 0 && g == 17)) ∧
        t.chip.mead.brokeTime = (s.chip.mead.brokeTime || m == 6) ∧
        (m = 7 → s.chip.twin.role = .shadow → t.chip.twin.brokeRuns = true) ∧
        (m = 7 → s.chip.twin.role ≠ .shadow → t.chip.mirrors = true → t.chip.twin.backlog = fullBank)) ∧
    ((s.chip.lv XBAR.LOCKEN 0).testBit m.val = false ∨
      ¬ ((m = 0 ∧ (g = 16 ∨ g = 17)) ∨ (m = 6 ∧ g = 17) ∨ (m = 7 ∧ g = 16 ∧ s.chip.twin.role ≠ .solo)) → exec (.lockBreak m g) s = .next s)) ∧
  (∀ (m : Fin 8) (wr : Bool) (s : State), s.serving →
    ∃ t, exec (.defaultTargetAccess m wr) s = .next t ∧ s.Holds t ∧ t.chip.mead.defTgt = wrapAdd 16 s.chip.mead.defTgt 1 ∧
      t.chip.mead.defLast = bit wr * 8 + m.val) ∧
  (∀ s : State, s.serving → s.clk.idx ≤ 119999 → s.chip.done.contains 5 = false →
    (∀ g ∈ s.chip.mead.outNext, g.tick = s.clk.ticks + 1) →
    ∃ t, exec .groomingMoves s = .next t ∧ s.Runs t ∧ t.clk.idx = max s.clk.idx 256 ∧ 5 ∈ t.chip.done ∧
      (∀ g ∈ t.chip.mead.outNext, g.tick = s.clk.ticks + 1) ∧
      ∀ r ∈ t.chip.groomRows, ∀ i < s.chip.lv GROOM.HEIGHT r, ∀ j < s.chip.lv GROOM.WIDTH r,
        (s.chip.lv GROOM.DSTDROP r + i, s.chip.lv GROOM.DSTBLK r + j) ∈ t.chip.mead.absentNext ∨
        ∃ g ∈ t.chip.mead.outNext, g.drop = s.chip.lv GROOM.DSTDROP r + i ∧ g.blk = s.chip.lv GROOM.DSTBLK r + j ∧
          g.typ = s.chip.lv GROOM.TYPE r)

/-- ITEM_COMMIT, DOWNWARD_ITEM_CONSUME, LEVEL: items in and out of the queues inside the part. Derived from spec/10_host_queues.md. It rests
on choices of the model: log 2, 3, 6, 26, 87. -/
def Obligations.QueueItems : Prop :=
  (∀ (q : Fin 8) (kind : Fin 16) (unit : Byte) (o : OpenItem) (e : Nat) (s : State), s.serving →
    (s.chip.q q.val).wholeOf kind.val unit.toNat = some o → o.doneAt = some e →
    (e + 2 ≤ s.clk.evc + (124999 - s.clk.idx) →
      ∃ t, exec (.itemCommit q kind unit) s = .next t ∧ s.Runs t ∧ t.clk.evc = max s.clk.evc (e + 2)) ∧
    (e + 2 ≤ s.clk.evc → o.hurt = 0 →
     ∃ t, exec (.itemCommit q kind unit) s = .next t ∧ s.Holds t ∧
      (t.chip.q q.val).items = (s.chip.q q.val).items ++
        [⟨word (unit.toNat * 2 ^ 24 + kind.val * 2 ^ 20 + (s.chip.q q.val).gap * 2 ^ 16 + o.bytes.length), false, 0, 0⟩ ::
          ⟨t.clk.stamp, false, 0, 0⟩ :: packWords o.bytes] ∧
      (t.chip.q q.val).gap = 0 ∧ t.chip.hasCause .qup q.val 1 ∧ (∀ i, i ≠ q.val → t.chip.q i = s.chip.q i))) ∧
  (∀ (q : Fin 4) (w : Consumer) (ws : List QWord) (l : List (List QWord)) (s : State), s.serving →
    s.chip.consumer q.val = some w → s.chip.canSend w = true → (s.chip.q (8 + q.val)).items = ws :: l →
    (∀ x ∈ ws, x.err = 0) →
    (s.chip.segments w = true → exec (.downwardItemConsume q false) s = .next s) ∧
    ((s.chip.q (8 + q.val)).begun = false → (s.chip.q (8 + q.val)).ready s.clk = true → s.chip.qEn (8 + q.val) = true → s.chip.segments w = false →
      ∃ t, exec (.downwardItemConsume q false) s = .next t ∧
        t = { s with chip := { s.chip with que := t.chip.que, drop := t.chip.drop, upl := t.chip.upl } } ∧
        (t.chip.q (8 + q.val)).begun = true ∧ (t.chip.q (8 + q.val)).items = ws :: l ∧
        (∀ d < 96, w = .mch d → (t.chip.d d).txMch.rest = itemBytes ws) ∧ (∀ d < 96, w = .mbk d → (t.chip.d d).txMbk.rest = itemBytes ws) ∧
        (∀ d < 96, w = .sns d → (t.chip.d d).txSns.rest = itemBytes ws) ∧ (∀ u < 4, w = .gcc u → (t.chip.u u).gcc.rest = itemBytes ws)) ∧
    ((s.chip.q (8 + q.val)).begun = true → (s.chip.txOf w).rest = [] →
      ∃ t, exec (.downwardItemConsume q true) s = .next t ∧ s.Holds t ∧ (t.chip.q (8 + q.val)).items = l ∧
        (t.chip.q (8 + q.val)).begun = false ∧ t.chip.hasCause .qdn (8 + q.val) 1)) ∧
  (∀ s : State, s.serving → s.clk.idx ≤ 7 → s.chip.done.contains 7 = false →
    ∃ t, exec .level s = .next t ∧ s.Runs t ∧ t.clk.idx = 7 ∧ 7 ∈ t.chip.done ∧
      ∀ i < 12, t.chip.atLevel i = true → (t.chip.st QUEUE.CAUSE i).testBit 0 = true)

/-- AUDIO_EXCHANGE, SLAVE_RX_FRAME, SLAVE_TX_FRAME_START: the exchange and the slave sides. Derived from spec/11_audio_ports.md. It rests on
choices of the model: log 3, 4, 6. -/
def Obligations.AudioCommands : Prop :=
  (∀ (pins : List (List Bool)) (s : State), s.serving → 1 ≤ s.clk.idx → s.clk.idx ≤ 1023 →
    s.chip.done.contains 9 = false →
    ∃ t, exec (.audioExchange pins) s = .next t ∧ s.Holds t ∧ 9 ∈ t.chip.done ∧
      t.chip.aud.feeds.map (·.chan) = (s.chip.routes 0).map (fun n => s.chip.lv AROUTE.CHAN n) ∧
      ∀ b ∈ t.chip.aud.blocks, b ∈ s.chip.aud.blocks ∧ b.echo ≠ (s.clk.ticks + s.chip.st TWIN.TNOFS 0 + 2 ^ 32 - 2) % 2 ^ 32) ∧
  (∀ (p : Fin 8) (n : Nat) (f : List Bool) (s : State), s.serving → (s.chip.side p.val true).on = true →
    s.chip.master p.val true = false →
    (n = s.chip.frameW p.val → (s.chip.side p.val true).store.length < 32 →
      ∃ t, exec (.slaveRxFrame p n f) s = .next t ∧ s.Holds t ∧
        (t.chip.side p.val true).store = (s.chip.side p.val true).store ++ [bitsFrame (s.chip.lv AUDIO.FMT p.val) (s.chip.on AUDIO.WLEN p.val) f] ∧
        ∀ q rx, (q ≠ p.val ∨ rx = false) → t.chip.side q rx = s.chip.side q rx) ∧
    (n = s.chip.frameW p.val → 32 ≤ (s.chip.side p.val true).store.length →
      (s.chip.side p.val true).run = true →
      ∃ t, exec (.slaveRxFrame p n f) s = .next t ∧ s.Holds t ∧ (t.chip.side p.val true).store = (s.chip.side p.val true).store ∧
        t.chip.st AUDIO.RXOVER p.val = wrapAdd AUDIO.RXOVER.width (s.chip.st AUDIO.RXOVER p.val) 1) ∧
    (n ≠ s.chip.frameW p.val →
      ∃ t, exec (.slaveRxFrame p n f) s = .next t ∧ s.Holds t ∧ (t.chip.side p.val true).store = (s.chip.side p.val true).store ∧
        t.chip.st AUDIO.BADFRM p.val = wrapAdd AUDIO.BADFRM.width (s.chip.st AUDIO.BADFRM p.val) 1)) ∧
  (∀ (p : Fin 8) (n : Nat) (s : State), s.serving → s.chip.sideEn p.val false = true → s.chip.master p.val false = false →
    (s.chip.side p.val false).run = true → n = s.chip.frameW p.val →
    (∀ f l, (s.chip.side p.val false).store = f :: l →
      ∃ t, exec (.slaveTxFrameStart p n) s = .next t ∧ s.Holds t ∧ (t.chip.side p.val false).store = l ∧
        (t.chip.side p.val false).last = f ∧ ∀ q rx, (q ≠ p.val ∨ rx = true) → t.chip.side q rx = s.chip.side q rx) ∧
    ((s.chip.side p.val false).store = [] →
      ∃ t, exec (.slaveTxFrameStart p n) s = .next t ∧ s.Holds t ∧ (t.chip.side p.val false).store = [] ∧
        t.chip.st AUDIO.TXUNDER p.val = wrapAdd AUDIO.TXUNDER.width (s.chip.st AUDIO.TXUNDER p.val) 1)) ∧
  (∀ (p : Fin 8) (n : Nat) (f : List Bool) (s : State),
    ((s.chip.side p.val true).on = false ∨ s.chip.master p.val true = true → exec (.slaveRxFrame p n f) s = .next s) ∧
    (s.serving → s.chip.sideEn p.val false = false ∨ s.chip.master p.val false = true →
      ∃ t, exec (.slaveTxFrameStart p n) s = .next t ∧ s.Holds t ∧
        t.chip.side p.val false = { s.chip.side p.val false with tail := false } ∧
        ∀ q rx, (q ≠ p.val ∨ rx = true) → t.chip.side q rx = s.chip.side q rx))

/-- CAPTURE_EVENT: the sources of one cycle make one event. Formalises R302. -/
def Obligations.CaptureEvents : Prop :=
  (∀ (n : Fin 4) (srcs : List (Fin 15 × Bool)) (mask : Nat) (s : State), s.serving → s.clk.onGrid →
    mask = s.chip.capMask n.val (srcs.map fun p => (p.1.val, p.2)) →
    s.chip.on TIME.CAP_EN (2 + n.val) = true → mask ≠ 0 → s.chip.tim.taken.contains n.val = false →
    ∃ t, exec (.captureEvent n srcs) s = .next t ∧ s.Holds t ∧
      t.chip.st TIME.CAP_FIREMASK (2 + n.val) = mask ∧ t.chip.st TIME.CAP_COINC (2 + n.val) = bit (decide (1 < (bitsIn 15 mask).length)) ∧
      t.chip.st TIME.CAP_STAMP (2 + n.val) = s.clk.stamp.toNat ∧ t.chip.st TIME.CAP_SECHI (2 + n.val) = s.clk.sec / 2 ^ 32 ∧
      t.chip.st TIME.CAP_SECLO (2 + n.val) = s.clk.sec % 2 ^ 32 ∧ t.chip.st TIME.CAP_NS (2 + n.val) = s.clk.ns ∧
      t.chip.st TIME.CAP_EVENTS (2 + n.val) = wrapAdd TIME.CAP_EVENTS.width (s.chip.st TIME.CAP_EVENTS (2 + n.val)) 1 ∧
      t.chip.st TIME.CAP_COINCS (2 + n.val) =
        wrapAdd TIME.CAP_COINCS.width (s.chip.st TIME.CAP_COINCS (2 + n.val)) (bit (decide (1 < (bitsIn 15 mask).length))) ∧
      t.chip.hasCause .tcap (2 + n.val) 0 ∧ (1 < (bitsIn 15 mask).length → t.chip.hasCause .tcap (2 + n.val) 1) ∧
      (∀ m, m ≠ n.val → m < 4 → t.chip.st TIME.CAP_EVENTS (2 + m) = s.chip.st TIME.CAP_EVENTS (2 + m) ∧
        t.chip.st TIME.CAP_STAMP (2 + m) = s.chip.st TIME.CAP_STAMP (2 + m)) ∧
      (s.chip.on TIME.CAP_QREC (2 + n.val) = true → s.chip.on TIME.TQUEN 1 = true → s.chip.mead.brokeTime = false →
        s.chip.qEn (s.chip.lv TIME.TQU 1) = true → s.chip.qRoom (s.chip.lv TIME.TQU 1) 20 = true →
        ∃ e, (t.chip.q (s.chip.lv TIME.TQU 1)).opens = (s.chip.q (s.chip.lv TIME.TQU 1)).opens ++
          [⟨7, 0x80 + n.val, wordBytes (word (0x10000000 + bit (decide (1 < (bitsIn 15 mask).length)) * 2 ^ 23 + mask)) ++
            wordBytes s.clk.stamp ++ Chip.timeWords3 s.clk.time, itemWords 20, some e, 0, 0⟩]))

/-- ACTIVE_EDGE, PPS_PULSE, PULSE_END, PTP_TRANSMIT: timed outputs and PTP messages. Derived from spec/12_time.md. It rests on choices of the
model: log 2, 3, 72. -/
def Obligations.TimedOutputs : Prop :=
  (∀ (o : Fin 8) (e : Nat) (s : State), s.serving → s.chip.dueEdge s.clk o.val = some e → (s.chip.out o.val).active = false →
    e - s.clk.time ≤ 124999 - s.clk.idx →
    ∃ t, exec (.activeEdge o) s = .next t ∧ s.Runs t ∧ t.clk.time = max s.clk.time e ∧ (t.chip.out o.val).active = true ∧
      (t.chip.out o.val).pulseEnd = t.clk.evc + s.chip.lv TIME.OUT_WIDTH (6 + o.val) ∧
      t.chip.st TIME.OUT_LASTEDGE (6 + o.val) = t.clk.stamp.toNat ∧ t.chip.st TIME.OUT_ACTIVE (6 + o.val) = 1 ∧
      t.chip.st TIME.OUT_FIRES (6 + o.val) = wrapAdd TIME.OUT_FIRES.width (s.chip.st TIME.OUT_FIRES (6 + o.val)) 1) ∧
  (∀ (e : Nat) (s : State), s.serving → s.chip.dueEdge s.clk 8 = some e → (s.chip.out 8).active = false →
    e - s.clk.time ≤ 124999 - s.clk.idx →
    ∃ t, exec .ppsPulse s = .next t ∧ s.Runs t ∧ t.clk.time = max s.clk.time e ∧ (t.chip.out 8).active = true ∧
      (t.chip.out 8).pulseEnd = t.clk.evc + s.chip.lv TIME.PPS_WIDTH 14 ∧ t.chip.st TIME.PPS_LASTEDGE 14 = t.clk.stamp.toNat ∧
      t.chip.st TIME.PPS_PULSES 14 = wrapAdd TIME.PPS_PULSES.width (s.chip.st TIME.PPS_PULSES 14) 1 ∧ t.chip.hasCause .pps 14 0) ∧
  (∀ (o : Fin 9) (s : State), s.serving → (s.chip.out o.val).active = true →
    (s.chip.out o.val).pulseEnd ≤ s.clk.evc + (124999 - s.clk.idx) →
    ∃ t, exec (.pulseEnd o) s = .next t ∧ s.Runs t ∧ t.clk.evc = max s.clk.evc (s.chip.out o.val).pulseEnd ∧
      (t.chip.out o.val).active = false ∧
      t.chip.st (if o.val = 8 then TIME.PPS_ACTIVE else TIME.OUT_ACTIVE) (6 + o.val) = 0) ∧
  (∀ (ws : List QWord) (l : List (List QWord)) (s : State), s.serving → s.chip.on TIME.PTPDEN 1 = true →
    s.chip.shaded = false → s.chip.qEn (8 + s.chip.lv TIME.PTPQD 1) = true →
    (s.chip.q (8 + s.chip.lv TIME.PTPQD 1)).ready s.clk = true → (s.chip.q (8 + s.chip.lv TIME.PTPQD 1)).items = ws :: l →
    (∀ w ∈ ws, w.err = 0) →
    ∀ u, u = (ws.headD ⟨0#32, true, 0, 0⟩).data.toNat / 2 ^ 28 % 4 →
    ((s.chip.lv TIME.PTPU 1).testBit u = true → 60 ≤ (itemBytes (ws.drop 1)).length → (itemBytes (ws.drop 1)).length ≤ 1518 →
      s.chip.sendsClient u = true →
      ∃ t, exec .ptpTransmit s = .next t ∧ s.Holds t ∧ (t.chip.q (8 + s.chip.lv TIME.PTPQD 1)).items = l ∧
        t.chip.st { TIME.PTPTX with wrd := 12 + u } 1 =
          wrapAdd TIME.PTPTX.width (s.chip.st { TIME.PTPTX with wrd := 12 + u } 1) 1) ∧
    ((s.chip.lv TIME.PTPU 1).testBit u = false ∨ (itemBytes (ws.drop 1)).length < 60 ∨ 1518 < (itemBytes (ws.drop 1)).length →
      ∃ t, exec .ptpTransmit s = .next t ∧ s.Holds t ∧ (t.chip.q (8 + s.chip.lv TIME.PTPQD 1)).items = l ∧
        t.chip.st { TIME.PTPTXBAD with wrd := 12 + u } 1 =
          wrapAdd TIME.PTPTXBAD.width (s.chip.st { TIME.PTPTXBAD with wrd := 12 + u } 1) 1)) ∧
  (∀ (n : Fin 4) (srcs : List (Fin 15 × Bool)) (s : State), s.settled → s.chip.on TIME.CAP_EN (2 + n.val) = false →
    exec (.captureEvent n srcs) s = .next s)

/-- LOOP_FILTER_UPDATE, REFERENCE_PULSE, DPLL_WAIT_TO_RESTORE_END, SWITCH_COMPLETE: references and channels. Derived from
spec/13_references_and_dpll.md. It rests on choices of the model: log 2, 3, 4, 6, 70, 82. -/
def Obligations.ReferencesAndChannels : Prop :=
  (∀ (x : LoopTick) (s : State), s.serving → s.clk.idx ≤ 511 → s.chip.done.contains 6 = false →
    ∃ t, exec (.loopFilterUpdate x) s = .next t ∧ s.Runs t ∧ t.clk.idx = 511 ∧ 6 ∈ t.chip.done ∧
      t.chip.dir.coreOfs = unsigned 20 (max (-200000) (min 200000 (x.core / 1000))) ∧
      -200000000 ≤ (t.chip.dp 0).out ∧ (t.chip.dp 0).out ≤ 200000000 ∧
      (-200000000 ≤ (s.chip.dp 0).out → (s.chip.dp 0).out ≤ 200000000 → ((t.chip.dp 0).out - (s.chip.dp 0).out).natAbs ≤ 500000) ∧
      ∀ r < 4, t.chip.liveBad 0x59 r = false → has (t.chip.mon r).defs 0 = decide (s.chip.lv UPL.MODE r = 0)) ∧
  (∀ (r7 : Bool) (ago osc : Nat) (s : State) (r : Nat), s.serving → r = (if r7 then 7 else 5) →
    (s.chip.pulseRef r = true →
      ∃ t e, exec (.referencePulse r7 ago osc) s = .next t ∧ s.Holds t ∧ (t.chip.mon r).last = e ∧
        (∀ ch < 2, (t.chip.dp ch).target ≠ some r → (t.chip.dp ch).sel = some r → (ch = 1 → s.chip.tim.stepRem = 0) →
          (t.chip.dp ch).meas = some e) ∧
        -8000000000 ≤ e ∧ e < 8000000000 ∧
        (e - (((s.clk.time : Int) - (ago : Int)) * 16 - signed 32 (s.chip.lv REF.PHOFS r))) % 16000000000 = 0 ∧
        (t.chip.mon r).pulseAt = s.clk.ticks ∧ has (t.chip.mon r).defs 0 = false ∧
        has (t.chip.mon r).defs 2 = decide (50000 < ((osc : Int) - 1000000000).natAbs)) ∧
    (s.chip.pulseRef r = false → exec (.referencePulse r7 ago osc) s = .next s)) ∧
  (∀ (c : Fin 2) (r x e : Nat) (s : State), s.serving → s.clk.idx ≤ 511 → (s.chip.dp c.val).wtr = some (r, e) →
    (s.chip.dp c.val).sel = some x → e ≤ s.clk.ticks → (s.chip.dp c.val).target = none → s.chip.maySelect c.val r = true →
    s.chip.ranksAbove c.val r x = true →
    ∃ t, exec (.dpllWaitToRestoreEnd c) s = .next t ∧ s.Holds t ∧ (t.chip.dp c.val).target = some r ∧ (t.chip.dp c.val).wtr = none ∧
      (t.chip.dp c.val).sel = some x ∧ t.chip.st DPLL.SWITCHING c.val = 1 ∧ t.chip.hasCause .dpll c.val 2) ∧
  (∀ (c : Fin 2) (ph : Int) (r : Nat) (s : State), s.serving → s.clk.idx ≤ 511 → (s.chip.dp c.val).target = some r →
    s.chip.switchReady s.clk c.val = true →
    ∃ t, exec (.switchComplete c ph) s = .next t ∧ s.Holds t ∧ (t.chip.dp c.val).sel = some r ∧
      ((t.chip.dp c.val).st = .acq ∨ (t.chip.dp c.val).st = .lock) ∧ t.chip.hasCause .dpll c.val 1 ∧
      t.chip.st DPLL.PBOFS c.val = unsigned 32 (if c.val = 0 then ph
        else if s.chip.twin.role ≠ .shadow ∧ s.chip.on DPLL.PBO 1 = true then (s.chip.mon r).last else 0) ∧
      t.chip.st DPLL.SWITCHES c.val = wrapAdd DPLL.SWITCHES.width (s.chip.st DPLL.SWITCHES c.val) 1)

/-- FAULT_EVENT, COUNT_WINDOW_TUMBLE: events, classes and what they raise. Derived from spec/14_faults_and_shade.md. It rests on choices of
the model: log 3, 49, 89. -/
def Obligations.FaultEvents : Prop :=
  (∀ (x : Fin 384) (s : State), s.serving → unusedSrc x.val = false → levelSrc x.val = false →
    (s.chip.lv FSRC.SEV x.val ≠ 0 → s.chip.on FSRC.CLASS x.val = false →
      ∃ t, exec (.faultEvent [x] true) s = .next t ∧ s.Holds t ∧
        t.chip.st FSRC.RAISES x.val = wrapAdd FSRC.RAISES.width (s.chip.st FSRC.RAISES x.val) 1 ∧
        t.chip.st FSRC.EVENTS x.val = wrapAdd FSRC.EVENTS.width (s.chip.st FSRC.EVENTS x.val) 1 ∧
        (s.chip.lv FSRC.SEV x.val = 1 → t.chip.col.flt = s.chip.col.flt ∧ t.chip.col.shade = s.chip.col.shade) ∧
        (2 ≤ s.chip.lv FSRC.SEV x.val → x.val ∈ t.chip.col.flt ∧ t.chip.st FSRC.FLT x.val = 1 ∧ t.chip.col.faultn.final = true) ∧
        (s.chip.lv FSRC.SEV x.val = 3 → t.chip.col.shade = true ∧ t.chip.shaded = true)) ∧
    (s.chip.lv FSRC.SEV x.val ≠ 0 → s.chip.on FSRC.CLASS x.val = true →
      s.clk.ticks - assoc s.chip.col.winOpen x.val 0 < s.chip.lv FSRC.W x.val →
      s.chip.st FSRC.WCOUNT x.val + 1 ≠ s.chip.lv FSRC.N x.val →
      ∃ t, exec (.faultEvent [x] true) s = .next t ∧ s.Holds t ∧
        t.chip.st FSRC.WCOUNT x.val = satAdd FSRC.WCOUNT.width (s.chip.st FSRC.WCOUNT x.val) 1 ∧
        t.chip.st FSRC.EVENTS x.val = s.chip.st FSRC.EVENTS x.val ∧ t.chip.col.flt = s.chip.col.flt ∧
        t.chip.col.shade = s.chip.col.shade ∧ t.chip.col.faultn = s.chip.col.faultn) ∧
    (s.chip.lv FSRC.SEV x.val = 0 →
      ∃ l b, exec (.faultEvent [x] true) s = .next { s with chip := { s.chip with col := { s.chip.col with
        edge := l, edgeNo := s.clk.edges, edgeLoud := b } } })) ∧
  (∀ (x : Fin 384) (s : State), s.serving → unusedSrc x.val = false → levelSrc x.val = true →
    (∃ t, exec (.faultEvent [x] true) s = .next t ∧ s.Holds t ∧ x.val ∈ t.chip.col.cond) ∧
    (∃ t, exec (.faultEvent [x] false) s = .next t ∧ s.Holds t ∧ x.val ∉ t.chip.col.cond ∧ t.chip.col.flt = s.chip.col.flt)) ∧
  (∀ (x : Fin 384) (p : Bool) (s : State), unusedSrc x.val = true → exec (.faultEvent [x] p) s = .next s) ∧
  (∀ (x : Fin 384) (s : State), s.serving → s.clk.idx = 0 → s.chip.on FSRC.CLASS x.val = true →
    0 < s.chip.lv FSRC.W x.val → s.chip.lv FSRC.W x.val ≤ s.clk.ticks - assoc s.chip.col.winOpen x.val 0 →
    ∃ t, exec (.countWindowTumble x) s = .next t ∧ s.Holds t ∧ t.chip.st FSRC.WCOUNT x.val = 0 ∧
      s.clk.ticks - assoc t.chip.col.winOpen x.val 0 < s.chip.lv FSRC.W x.val ∧ t.chip.col.flt = s.chip.col.flt)

/-- AUTOMATIC_RECOVERY, INJECTION_LAND, WATCH: the collector on its own. Derived from spec/14_faults_and_shade.md. It rests on choices of the
model: log 3, 25. -/
def Obligations.RecoveryInjectionWatch : Prop :=
  (∀ s : State, s.serving → s.clk.idx = 0 →
    (s.chip.recoveryDue s.clk = true →
      ∃ t, exec .automaticRecovery s = .next t ∧ s.Holds t ∧
        (∀ x, x ∈ t.chip.col.flt ↔ x ∈ s.chip.col.flt ∧ x ∉ s.chip.recoverable s.clk) ∧
        t.chip.st FGRP.RECOVERIES 23 = satAdd FGRP.RECOVERIES.width (s.chip.st FGRP.RECOVERIES 23) 1 ∧
        t.chip.st FGRP.RECRUN 23 = satAdd FGRP.RECRUN.width (s.chip.st FGRP.RECRUN 23) 1 ∧ t.chip.hasCause .fgrp 23 6) ∧
    (s.chip.recoveryDue s.clk = false → exec .automaticRecovery s = .next s)) ∧
  (∀ (a tgt bits e : Nat) (s : State), s.serving → s.chip.col.inj = some (tgt, bits, e) →
    (e < s.clk.edges →
      ∃ t, exec (.injectionLand a) s = .next t ∧ s.Holds t ∧ t.chip.col.inj = none ∧ t.chip.st FGRP.INJARM 23 = 0 ∧
        t.chip.hasCause .fgrp 23 7 ∧
        (224 ≤ tgt → tgt ≤ 239 → t.chip.mead.upsets = ⟨a / 8, a % 8, bits⟩ :: s.chip.mead.upsets) ∧
        (tgt = 240 → t.chip.heath.upsets = ⟨0, a, bits, false⟩ :: s.chip.heath.upsets)) ∧
    (s.clk.edges ≤ e → exec (.injectionLand a) s = .next s)) ∧
  (∀ s : State, s.serving →
    ∃ t, exec .watch s = .next t ∧ t.pending = s.pending ∧ t.clk = s.clk ∧ t.chip.boot.phase = .halted ∧ t.chip.running = false ∧
      t.chip.boot.watchShade = true ∧ t.chip.shaded = true ∧ t.chip.col.faultn = { level := true } ∧
      t.chip.heath.staged = s.chip.heath.staged ∧ t.chip.heath.live = s.chip.heath.live)

/-- LINK_UP, LINK_DOWN, LANE_MARKER, TICK_RECORD: the link and what it carries. Derived from spec/15_twin_pairing.md. It rests on choices of
the model: log 3, 54, 57, 62. -/
def Obligations.TwinLink : Prop :=
  (∀ (w : Word) (s : State), s.serving → s.chip.twin.role ≠ .solo → s.chip.st TWIN.LINKUP 0 = 0 →
    ∃ t, exec (.linkUp w) s = .next t ∧ s.Holds t ∧ t.chip.st TWIN.LINKUP 0 = 1 ∧ t.chip.st TWIN.PEERCOMPAT 0 = w.toNat ∧
      t.chip.st TWIN.COMPATOK 0 = (if w.toNat / 2 ^ 16 = 0x0101 ∧ w.toNat % 2 ≠ s.chip.twin.id then 1 else 0) ∧
      t.chip.twin.role = s.chip.twin.role ∧ t.chip.hasCause .twin 0 1) ∧
  (∀ s : State, s.serving → s.chip.twin.role ≠ .solo →
    ∃ t, exec .linkDown s = .next t ∧ s.Holds t ∧ t.chip.st TWIN.LINKUP 0 = 0 ∧ t.chip.st TWIN.PEERROLE 0 = 0 ∧
      t.chip.st TWIN.ARMED 0 = 0 ∧ t.chip.twin.peerArmed = false ∧ t.chip.twin.attach = .none ∧ t.chip.twin.role = s.chip.twin.role) ∧
  (∀ (a t1 a' t2 : Int) (w : Word) (r : Fin 3) (arm : Bool) (s : State), s.serving → s.chip.twin.role = .shadow →
    s.chip.st TWIN.LINKUP 0 = 1 →
    (w.toNat / 2 ^ 16 = 0x0101 → w.toNat % 2 ≠ s.chip.twin.id →
      ∃ t, exec (.laneMarker a t1 a' t2 w r arm) s = .next t ∧ s.Holds t ∧ t.chip.st TWIN.PEERROLE 0 = r.val ∧
        t.chip.st TWIN.LINKDLY 0 = unsigned 32 (((a - t1) + (a' - t2)) / 2 + signed 32 (s.chip.lv TWIN.DELAYTRIM 0)) ∧
        (t.chip.mon 4).last = (a - t1) - (((a - t1) + (a' - t2)) / 2 + signed 32 (s.chip.lv TWIN.DELAYTRIM 0)) ∧
        t.chip.twin.peerArmed = (arm && r == 2)) ∧
    (¬ (w.toNat / 2 ^ 16 = 0x0101 ∧ w.toNat % 2 ≠ s.chip.twin.id) → s.chip.st TWIN.COMPATOK 0 = 1 →
      ∃ t, exec (.laneMarker a t1 a' t2 w r arm) s = .next t ∧ s.Holds t ∧ t.chip.st TWIN.LINKUP 0 = 0)) ∧
  (∀ (r : TickRec) (s : State), s.serving → s.chip.mirrored = true →
    ∃ t, exec (.tickRecord r) s = .next t ∧ s.Holds t ∧ t.chip.twin.digestBad = !r.same ∧
      (r.same = true → r.tag.toNat = s.chip.st TWIN.MIRTAG 0 → t.chip.st TWIN.BANKLAG 0 = 0) ∧
      (r.same = false → t.chip.st TWIN.BANKLAG 0 = satAdd TWIN.BANKLAG.width (s.chip.st TWIN.BANKLAG 0) 1 ∧ t.chip.twin.askCopy = true) ∧
      (r.oldest = none → t.chip.twin.gaps = [] ∧ t.chip.st TWIN.MIRLOSS 0 = 0) ∧
      ∀ d < 96, ∀ u sm live nx, r.drops[d]? = some (u, sm, live, nx) →
        (t.chip.d d).genLive = live ∧ (t.chip.d d).genNext = nx ∧ (t.chip.d d).inUse = bit u ∧ (t.chip.d d).sm.code = sm.val) ∧
  (∀ (w : Word) (r : TickRec) (a t1 a' t2 : Int) (p : Fin 3) (arm : Bool) (s : State), s.chip.twin.role = .solo →
    exec (.linkUp w) s = .next s ∧ exec .linkDown s = .next s ∧ exec (.tickRecord r) s = .next s ∧
      exec (.laneMarker a t1 a' t2 w p arm) s = .next s)

/-- BANK_RUNS_APPLY, ATTACH, FULL_COPY_REQUEST: the mirrored bank. Derived from spec/15_twin_pairing.md. It rests on choices of the model: log
3, 75. -/
def Obligations.MirrorBanks : Prop :=
  (∀ (runs : List BankRun) (tag : Byte) (s : State), s.serving → s.clk.idx = 0 → s.chip.mirrored = true →
    (s.chip.twin.heldRuns = [] → s.chip.twin.brokeRuns = false → ∀ full : Bool,
      ∃ t, exec (.bankRunsApply runs tag full) s = .next t ∧ t.pending = s.pending ∧ t.clk = s.clk ∧
        t.chip.heath.live = withRuns (if full then keepTabs s.chip.heath.live (fun x => x == 0x70) else s.chip.heath.live) runs ∧
        t.chip.heath.staged = s.chip.heath.staged ∧ t.chip.boot = s.chip.boot ∧ t.chip.port = s.chip.port ∧
        t.chip.win.appTag = tag.toNat ∧ t.chip.st TWIN.MIRTAG 0 = tag.toNat ∧ t.chip.twin.role = .shadow ∧
        (full = true → t.chip.twin.fullCopy = true)) ∧
    (s.chip.twin.heldRuns ≠ [] → ∀ full : Bool,
      ∃ t, exec (.bankRunsApply runs tag full) s = .next t ∧ s.OnlyTwin t ∧
        t.chip.twin = { s.chip.twin with heldRuns := s.chip.twin.heldRuns ++ [(runs, tag, full)] }) ∧
    (s.chip.twin.heldRuns = [] → s.chip.twin.brokeRuns = true → ∀ full : Bool,
      ∃ t, exec (.bankRunsApply runs tag full) s = .next t ∧ s.Holds t ∧ t.chip.twin.brokeRuns = false ∧
        t.chip.twin.heldRuns = [(runs, tag, full)] ∧
        t.chip.st TWIN.BANKLAG 0 = satAdd TWIN.BANKLAG.width (s.chip.st TWIN.BANKLAG 0) 1) ∧
    (s.chip.twin.attach = .copy →
      ∃ t, exec (.attach runs tag) s = .next t ∧ t.pending = s.pending ∧ t.clk = s.clk ∧ t.chip.twin.attach = .align ∧
        t.chip.twin.fullCopy = true ∧ t.chip.heath.staged = s.chip.heath.staged ∧ t.chip.boot = s.chip.boot ∧
        t.chip.heath.live = withRuns (keepTabs s.chip.heath.live (fun x => x == 0x70)) runs)) ∧
  (∀ (runs : List BankRun) (tag : Byte) (full : Bool) (s : State), s.chip.mirrored = false →
    exec (.bankRunsApply runs tag full) s = .next s ∧ exec (.attach runs tag) s = .next s) ∧
  (∀ s : State, s.serving →
    (s.chip.mirrors = true → ∃ t, exec .fullCopyRequest s = .next t ∧ s.OnlyTwin t ∧ t.chip.twin = { s.chip.twin with backlog := 24576 }) ∧
    (s.chip.mirrors = false → exec .fullCopyRequest s = .next s)) ∧
  (∀ (b : Bank) (runs : List BankRun) (a : Nat), tabOf a = 0x70 → b.wf = true → (withRuns b runs).read a = b.read a)

/-- ADD, RETIRE, CUT: descriptors of items. Derived from spec/15_twin_pairing.md. It rests on choices of the model: log 3, 31, 56, 74. -/
def Obligations.MirrorDescriptors : Prop :=
  (∀ (seq : Nat) (tr : Byte) (up : Bool) (len lt i cell : Nat) (st crc : Word) (s : State), s.serving → s.chip.mirrored = true →
    s.chip.copyFor { seq := seq % 2 ^ 32, trib := tr.toNat, up, len, crc, comAt := s.chip.lineEvc s.clk lt i, cell, stamp := st } = none →
    ∃ t, exec (.add seq tr up len lt i cell st crc) s = .next t ∧ s.Holds t ∧
      t.chip.twin.adds = s.chip.twin.adds ++
        [{ seq := seq % 2 ^ 32, trib := tr.toNat, up, len, crc, comAt := s.chip.lineEvc s.clk lt i, cell, stamp := st }] ∧
      t.chip.twin.lastSeq = some (seq % 2 ^ 32) ∧
      (s.chip.twin.lastSeq = none ∨ (∃ l, s.chip.twin.lastSeq = some l ∧ seq % 2 ^ 32 = (l + 1) % 2 ^ 32) →
        t.chip.twin.gaps = s.chip.twin.gaps) ∧
      (∀ l, s.chip.twin.lastSeq = some l → seq % 2 ^ 32 ≠ (l + 1) % 2 ^ 32 →
        t.chip.twin.gaps = s.chip.twin.gaps ++ [(seq % 2 ^ 32 + 2 ^ 32 - 1) % 2 ^ 32] ∧ t.chip.st TWIN.MIRLOSS 0 = 1)) ∧
  (∀ (seq : Nat) (ok : Bool) (s : State), s.serving → s.chip.mirrored = true →
    ∃ t, exec (.retire seq ok) s = .next t ∧ s.Holds t ∧ (∀ x ∈ t.chip.twin.adds, x.seq ≠ seq % 2 ^ 32) ∧
      (∀ x ∈ s.chip.twin.adds, x.seq ≠ seq % 2 ^ 32 → x ∈ t.chip.twin.adds) ∧
      ∀ r up, ∀ it ∈ t.chip.items r up, it.seq ≠ some (seq % 2 ^ 32)) ∧
  (∀ (seq lt i l : Nat) (s : State), s.serving → s.chip.mirrored = true → s.chip.twin.lastSeq = some l →
    (seqAfter seq l = true →
      ∃ t, exec (.cut seq lt i) s = .next t ∧ s.Holds t ∧ t.chip.twin.gaps = s.chip.twin.gaps ++ [seq % 2 ^ 32] ∧
        t.chip.twin.lastSeq = some (seq % 2 ^ 32) ∧ t.chip.st TWIN.MIRLOSS 0 = 1 ∧ t.chip.twin.horizon = s.chip.twin.horizon) ∧
    (seqAfter seq l = false → s.chip.twin.gaps = [] →
      ∃ t, exec (.cut seq lt i) s = .next t ∧ s.Holds t ∧ t.chip.twin.gaps = [] ∧
        t.chip.twin.horizon = max s.chip.twin.horizon (s.chip.lineEvc s.clk lt i))) ∧
  (∀ (seq : Nat) (tr : Byte) (up ok : Bool) (len lt i cell : Nat) (st crc : Word) (s : State), s.chip.mirrored = false →
    exec (.add seq tr up len lt i cell st crc) s = .next s ∧ exec (.retire seq ok) s = .next s ∧ exec (.cut seq lt i) s = .next s)

/-- TENTATIVE_CLAIM_END, TENTATIVE_CLAIM_LOST, ROLE_CLASH, PEER_CLAIM_LOSS, CLAIM_RESUME, ARMED: claims of the lit role. Derived from
spec/15_twin_pairing.md. It rests on choices of the model: log 2, 3, 52. -/
def Obligations.Claims : Prop :=
  (∀ (hi : Bool) (e : Nat) (s : State), s.serving → s.chip.twin.role = .shadow → s.chip.twin.req = some (.tentative e) →
    s.chip.twin.lightDue = false →
    (e ≤ s.clk.evc + (124999 - s.clk.idx) →
      ∃ t, exec (.tentativeClaimEnd hi) s = .next t ∧ s.Runs t ∧ t.clk.evc = max s.clk.evc e ∧ t.chip.twin.role = .shadow ∧
        t.chip.twin.peer = hi ∧ (hi = false → t.chip.twin.lightDue = true ∧ t.chip.twin.req = some (.tentative e)) ∧
        (hi = true → t.chip.twin.req = none ∧ t.chip.twin.claim = false ∧
          t.chip.st TWIN.RQRES 0 = (if s.chip.sameId then rqIdclash else rqPeerlit))) ∧
    (∃ t, exec .tentativeClaimLost s = .next t ∧ s.Holds t ∧ t.chip.twin.role = .shadow ∧ t.chip.twin.peer = true ∧
      (s.chip.sameId = true → t.chip.twin.req = none ∧ t.chip.st TWIN.RQRES 0 = rqIdclash) ∧
      (s.chip.sameId = false → s.chip.twin.id = 1 → t.chip.twin.req = none ∧ t.chip.st TWIN.RQRES 0 = rqLost ∧ t.chip.twin.claim = false) ∧
      (s.chip.sameId = false → s.chip.twin.id ≠ 1 → t.chip.twin.req = some (.tentative e) ∧ t.chip.twin.claim = s.chip.twin.claim))) ∧
  (∀ s : State, s.serving → s.chip.twin.role = .lit → s.chip.twin.claim = true →
    ∃ t, exec .roleClash s = .next t ∧ s.Holds t ∧ t.chip.twin.role = .lit ∧ t.chip.twin.peer = true ∧
      (s.chip.twin.id = 1 → t.chip.twin.downDue = true ∧ t.chip.shaded = true) ∧
      (s.chip.twin.id ≠ 1 → t.chip.twin.downDue = s.chip.twin.downDue)) ∧
  (∀ s : State, s.serving → s.chip.st TWIN.ARMED 0 = 1 → s.chip.twin.lightDue = false → s.chip.port.vioLost = false →
    ∃ t, exec .peerClaimLoss s = .next t ∧ s.Holds t ∧ t.chip.twin.lightDue = true ∧ t.chip.twin.peer = false ∧
      t.chip.twin.claim = true ∧ t.chip.twin.role = s.chip.twin.role) ∧
  (∀ (e : Nat) (s : State), s.serving → s.chip.twin.keepLow = some e →
    (e + 3 ≤ s.clk.ticks →
      ∃ t, exec .claimResume s = .next t ∧ s.Holds t ∧ t.chip.twin.keepLow = none ∧ t.chip.twin.peer = false ∧
        (s.chip.twin.role = .lit → s.chip.shaded = false → s.chip.port.vioLost = false → t.chip.twin.claim = true)) ∧
    (s.clk.ticks < e + 3 → exec .claimResume s = .next s)) ∧
  (∀ s : State, s.serving → s.chip.st TWIN.ARMED 0 = 0 →
    (s.chip.armable = true → s.chip.compatible = true → s.chip.st TWIN.BANKLAG 0 ≤ 4 → s.chip.twin.digestBad = false →
      s.chip.twin.farTicks.hi < 8 →
      ∃ t, exec .armed s = .next t ∧ s.Holds t ∧ t.chip.st TWIN.ARMED 0 = 1 ∧ t.chip.hasCause .twin 0 3 ∧
        t.chip.twin = s.chip.twin) ∧
    (s.chip.armable = false → exec .armed s = .next s))

/-- SHADOW_LIGHTS, LIT_STEP_DOWN, HANDOVER: a part changes role on a tick boundary. Derived from spec/15_twin_pairing.md. It rests on choices
of the model: log 3, 59. -/
def Obligations.RoleChanges : Prop :=
  (∀ s : State, s.serving → s.clk.idx = 0 → s.chip.twin.role = .shadow → s.chip.twin.handLight = none →
    (s.chip.twin.lightDue = true → s.chip.col.shade = true →
      ∃ t, exec .shadowLights s = .next t ∧ t.pending = s.pending ∧ t.clk = s.clk ∧ t.chip.twin.role = .shadow ∧
        t.chip.twin.lightDue = false ∧ t.chip.heath.staged = s.chip.heath.staged ∧ t.chip.heath.live = s.chip.heath.live ∧
        (∀ e, s.chip.twin.req = some (.tentative e) → t.chip.twin.req = none ∧ t.chip.st TWIN.RQRES 0 = rqShade)) ∧
    (s.chip.twin.lightDue = true → s.chip.col.shade = false →
      ∃ t, exec .shadowLights s = .next t ∧ t.pending = s.pending ∧ t.clk = s.clk ∧ t.chip.twin.role = .lit ∧
        t.chip.heath.staged = s.chip.heath.live ∧ t.chip.heath.live = s.chip.heath.live ∧ t.chip.boot = s.chip.boot ∧
        t.chip.port = s.chip.port ∧ t.chip.st TWIN.ARMED 0 = 0 ∧ t.chip.twin.adds = [] ∧ t.chip.twin.req = none ∧
        t.chip.twin.lightDue = false ∧
        (s.chip.twin.req = none →
          t.chip.st TWIN.TAKEOVERS 0 = wrapAdd TWIN.TAKEOVERS.width (s.chip.st TWIN.TAKEOVERS 0) 1 ∧ t.chip.hasCause .twin 0 5)) ∧
    (s.chip.twin.lightDue = false → exec .shadowLights s = .next s)) ∧
  (∀ s : State, s.serving → s.clk.idx = 0 → s.chip.twin.role = .lit →
    (s.chip.twin.keepLow ≠ none →
      ∃ t, exec .litStepDown s = .next t ∧ s.Holds t ∧ t.chip.twin.role = .shadow ∧ t.chip.twin.peer = true ∧ t.chip.shaded = true) ∧
    (s.chip.twin.keepLow = none → exec .litStepDown s = .next s) ∧
    (∀ e l, s.chip.twin.req = some (.handover e l) →
      (s.clk.superframe = true → e + 2 * 125000 ≤ s.clk.pos → s.chip.st TWIN.BANKLAG 0 = 0 →
        ∃ t, exec .handover s = .next t ∧ s.Holds t ∧ t.chip.twin.role = .shadow ∧ t.chip.twin.req = none ∧
          t.chip.st TWIN.RQRES 0 = rqGranted ∧ t.chip.st TWIN.HANDOVERS 0 = wrapAdd TWIN.HANDOVERS.width (s.chip.st TWIN.HANDOVERS 0) 1) ∧
      (s.clk.superframe = false ∨ s.clk.pos < e + 2 * 125000 ∨ s.chip.st TWIN.BANKLAG 0 ≠ 0 → exec .handover s = .next s))) ∧
  (∀ (e : Nat) (s : State), s.serving → s.clk.idx = 0 → s.chip.twin.role = .shadow →
    s.chip.twin.req = some (.handover e (some (s.chip.lineTick s.clk))) →
    ∃ t, exec .handover s = .next t ∧ s.OnlyTwin t ∧ t.chip.twin = { s.chip.twin with handLight := some (s.clk.ticks + 1) })

/-- HANDOVER_REQUEST, HANDOVER_TIMEOUT, RELEASE_NOTICE: requests that come over the link. Derived from spec/15_twin_pairing.md. It rests on
choices of the model: log 3, 58. -/
def Obligations.HandoverRequests : Prop :=
  (∀ s : State, s.serving →
    (s.chip.twin.role = .lit → s.chip.st TWIN.LINKUP 0 = 1 → s.chip.twin.peerArmed = true → s.chip.twin.req = none →
      ∃ t, exec .handoverRequest s = .next t ∧ s.OnlyTwin t ∧ t.chip.twin = { s.chip.twin with req := some (.handover s.clk.pos none) }) ∧
    (s.chip.twin.role ≠ .lit ∨ s.chip.st TWIN.LINKUP 0 ≠ 1 ∨ s.chip.twin.peerArmed = false ∨ s.chip.twin.req ≠ none →
      exec .handoverRequest s = .next s) ∧
    (s.chip.mirrored = true → ∃ t, exec .releaseNotice s = .next t ∧ s.OnlyTwin t ∧ t.chip.twin = { s.chip.twin with soloDue := true }) ∧
    (s.chip.mirrored = false → exec .releaseNotice s = .next s)) ∧
  (∀ (e : Nat) (l : Option Nat) (s : State), s.serving → s.chip.twin.req = some (.handover e l) → s.chip.twin.handLight = none →
    (e + 64 * 125000 ≤ s.clk.pos →
      ∃ t, exec .handoverTimeout s = .next t ∧ s.Holds t ∧ t.chip.twin = { s.chip.twin with req := none } ∧
        t.chip.st TWIN.RQRES 0 = rqNotready ∧ t.chip.win.icause.getLsbD 13 = true) ∧
    (s.clk.pos < e + 64 * 125000 → exec .handoverTimeout s = .next s))

/-- POWER_PLAN, NIGHT_WAKE, DARK_WAKE, SCHEDULED_WAKE, POWER_STATE_ENTRY: the power manager. Derived from spec/16_power_states.md. It rests on
choices of the model: log 2, 3, 6, 66, 68. -/
def Obligations.PowerBlocks : Prop :=
  (∀ (l : List Int) (vin vio pin : Nat) (reg : Bool) (s : State), s.serving → s.clk.idx ≤ 62999 → s.chip.done.contains 8 = false →
    ∃ t p, exec (.powerPlan l vin vio pin reg) s = .next t ∧ s.Runs t ∧ t.clk.idx = max s.clk.idx 62000 ∧ 8 ∈ t.chip.done ∧
      t.chip.pow.plan = some p ∧ (∀ b ∈ p, b < 209 ∧ t.chip.needs s.chip.heath.live b = false) ∧
      (∀ i < 16, t.chip.st (POWER.TSENS.at i) 0 = unsigned 16 (l.getD i 0)) ∧ t.chip.st POWER.VIN 0 = vin % 2 ^ POWER.VIN.width) ∧
  (∀ s : State, s.serving → s.clk.idx ≤ 64900 →
    ∃ t, exec .nightWake s = .next t ∧ s.Runs t ∧ t.clk.idx = 64900 ∧
      ∀ p, t.chip.pow.plan = some p → ∀ b < 209, b ∉ p → t.chip.blk b = t.chip.nightState →
        t.chip.pow.wake.any (fun w => w.1 == b) = true) ∧
  (∀ s : State, s.serving → s.clk.idx ≤ 122990 →
    ∃ t, exec .darkWake s = .next t ∧ s.Runs t ∧ t.clk.idx = 122990 ∧
      ∀ b < 209, t.chip.blk b = .dark → t.chip.pow.wake.any (fun w => w.1 == b) = true) ∧
  (∀ (b : Nat) (s : State), s.serving →
    (s.chip.blk b ≠ .night → s.chip.blk b ≠ .lit → s.chip.pow.wake.any (fun w => w.1 == b) = false →
      ∃ t, exec (.scheduledWake b) s = .next t ∧ s.OnlyPow t ∧
        t.chip.pow = { s.chip.pow with wake := s.chip.pow.wake ++ [(b, s.clk.evc + (s.chip.blk b).latency)] }) ∧
    (s.chip.blk b = .night ∨ s.chip.blk b = .lit → exec (.scheduledWake b) s = .next s)) ∧
  (∀ (b : Nat) (st : Fin 4) (x : PwrState) (s : State), s.serving →
    (st = 1 ∧ x = .dim ∨ st = 2 ∧ x = .dusk ∨ st = 3 ∧ x = .dark) →
    (s.chip.blk b = .lit → b < 226 → s.chip.mayRest s.clk b x = true →
      (s.chip.enabled b = false ∨ (s.chip.on POWER.DEEPDIS 0 = false ∧ s.chip.pow.heldLit = false)) → (x = .dark → s.clk.idx < 122990) →
      ∃ t, exec (.powerStateEntry b st) s = .next t ∧ s.OnlyPow t ∧ t.chip.blk b = x ∧ ∀ i, i ≠ b → t.chip.blk i = s.chip.blk i) ∧
    (s.chip.blk b ≠ .lit ∨ s.chip.mayRest s.clk b x = false ∨ (s.chip.enabled b = true ∧ s.chip.on POWER.DEEPDIS 0 = true) →
      exec (.powerStateEntry b st) s = .next s))
end

