-- ==== Sys2Proof/Laws/Bank.lean ====
section
/-! SUPPORT. Laws of heath banks: reading after writing, and the canonical form that every write keeps. -/

namespace Sys2Proof.Machine
set_option Elab.async false

namespace Bank

/-! ### Reading after writing -/

theorem find_put_same (b : Bank) (a : Nat) (w : Word) : (b.put a w).find a = some w := by
  induction b with
  | nil => simp [put, find]
  | cons p r ih =>
    obtain ⟨x, v⟩ := p
    unfold put
    split
    · simp [find]
    · split
      · simp [find]
      · rename_i h; simp [find, h, ih]

theorem find_put_other (b : Bank) {a a' : Nat} (w : Word) (h : a' ≠ a) : (b.put a w).find a' = b.find a' := by
  induction b with
  | nil => simp [put, find, Ne.symm h]
  | cons p r ih =>
    obtain ⟨x, v⟩ := p
    unfold put
    split
    · simp [find, Ne.symm h]
    · split
      · rename_i e; subst e; simp [find, Ne.symm h]
      · simp [find, ih]

theorem find_drop_other (b : Bank) {a a' : Nat} (h : a' ≠ a) : (b.drop a).find a' = b.find a' := by
  induction b with
  | nil => rfl
  | cons p r ih =>
    obtain ⟨x, v⟩ := p
    unfold drop
    split
    · rename_i e; subst e; simp [find, Ne.symm h]
    · simp [find, ih]

/-- Below the lowest address nothing is listed. -/
theorem find_of_wfFrom (b : Bank) {l a : Nat} (h : wfFrom (some l) b = true) (ha : a ≤ l) : b.find a = none := by
  induction b generalizing l with
  | nil => rfl
  | cons p r ih =>
    obtain ⟨x, v⟩ := p
    simp [wfFrom] at h
    have hx : x ≠ a := by omega
    simp only [find, hx, if_false]
    exact ih h.2 (by omega)

theorem find_drop_same (b : Bank) (a : Nat) (lo : Option Nat) (h : wfFrom lo b = true) : (b.drop a).find a = none := by
  induction b generalizing lo with
  | nil => rfl
  | cons p r ih =>
    obtain ⟨x, v⟩ := p
    simp only [wfFrom, Bool.and_eq_true] at h
    unfold drop
    split
    · rename_i e; subst e; exact find_of_wfFrom r h.2 (Nat.le_refl _)
    · rename_i e; simp only [find, e, if_false]; exact ih _ h.2

/-- A word reads as it was written. -/
theorem read_write_same (b : Bank) (a : Nat) (w : Word) (h : b.wf = true) : (b.write a w).read a = w := by
  unfold write
  by_cases e : w = resetWord a
  · rw [if_pos e, read, find_drop_same b a none h]; exact e.symm
  · rw [if_neg e, read, find_put_same]

/-- Every other word reads as before. -/
theorem read_write_other (b : Bank) {a a' : Nat} (w : Word) (h : a' ≠ a) : (b.write a w).read a' = b.read a' := by
  unfold write
  by_cases e : w = resetWord a
  · rw [if_pos e, read, find_drop_other b h, read]
  · rw [if_neg e, read, find_put_other b w h, read]

/-- A read after a write. -/
theorem read_write (b : Bank) (a a' : Nat) (w : Word) (h : b.wf = true) :
    (b.write a w).read a' = if a' = a then w else b.read a' := by
  split
  · rename_i e; subst e; exact read_write_same b a' w h
  · rename_i e; exact read_write_other b w e

/-! ### The canonical form -/

theorem wfFrom_weaken (b : Bank) {l l' : Nat} (h : wfFrom (some l') b = true) (hl : l ≤ l') : wfFrom (some l) b = true := by
  cases b with
  | nil => rfl
  | cons p r =>
    obtain ⟨x, v⟩ := p
    simp [wfFrom] at h ⊢
    exact ⟨⟨by omega, h.1.2⟩, h.2⟩

theorem wfFrom_none (b : Bank) {l : Nat} (h : wfFrom (some l) b = true) : wfFrom none b = true := by
  cases b with
  | nil => rfl
  | cons p r =>
    obtain ⟨x, v⟩ := p
    simp [wfFrom] at h ⊢
    exact ⟨h.1.2, h.2⟩

theorem wfFrom_put (b : Bank) (lo : Option Nat) (a : Nat) (w : Word) (h : wfFrom lo b = true) (hl : ∀ l, lo = some l → l < a)
    (hw : w ≠ resetWord a) : wfFrom lo (b.put a w) = true := by
  induction b generalizing lo with
  | nil =>
    cases lo with
    | none => simp [put, wfFrom, hw]
    | some l => simp [put, wfFrom, hw, hl l rfl]
  | cons p r ih =>
    obtain ⟨x, v⟩ := p
    simp only [wfFrom, Bool.and_eq_true] at h
    unfold put
    split
    · rename_i hx
      simp only [wfFrom, Bool.and_eq_true, decide_eq_true_eq]
      refine ⟨⟨?_, hw⟩, ⟨hx, ?_⟩, h.2⟩
      · cases lo with
        | none => rfl
        | some l => simpa using hl l rfl
      · simpa using h.1.2
    · split
      · rename_i e
        subst e
        simp only [wfFrom, Bool.and_eq_true, decide_eq_true_eq]
        exact ⟨⟨h.1.1, hw⟩, h.2⟩
      · rename_i h1 h2
        simp only [wfFrom, Bool.and_eq_true]
        exact ⟨h.1, ih (some x) h.2 (fun l e => by cases e; omega)⟩

theorem wfFrom_drop (b : Bank) (lo : Option Nat) (a : Nat) (h : wfFrom lo b = true) : wfFrom lo (b.drop a) = true := by
  induction b generalizing lo with
  | nil => exact h
  | cons p r ih =>
    obtain ⟨x, v⟩ := p
    simp only [wfFrom, Bool.and_eq_true] at h
    unfold drop
    split
    · cases lo with
      | none => exact wfFrom_none r h.2
      | some l =>
        have : l < x := by simpa using h.1.1
        exact wfFrom_weaken r h.2 (by omega)
    · simp only [wfFrom, Bool.and_eq_true]
      exact ⟨h.1, ih _ h.2⟩

/-- A write keeps the canonical form. -/
theorem wf_write (b : Bank) (a : Nat) (w : Word) (h : b.wf = true) : (b.write a w).wf = true := by
  unfold write
  split
  · exact wfFrom_drop b none a h
  · rename_i hw; exact wfFrom_put b none a w h (fun l e => by cases e) hw

/-- The empty bank is in canonical form: every word at its reset value. -/
theorem wf_nil : Bank.wf [] = true := rfl
@[simp] theorem read_nil (a : Nat) : Bank.read [] a = resetWord a := rfl

theorem wf_setFld (b : Bank) (f : Fld) (r v : Nat) (h : b.wf = true) : (b.setFld f r v).wf = true := wf_write _ _ _ h

/-- Words of a bank that pass a test keep the canonical form. -/
theorem wfFrom_filter (b : Bank) (lo : Option Nat) (p : Nat × Word → Bool) (h : wfFrom lo b = true) : wfFrom lo (b.filter p) = true := by
  induction b generalizing lo with
  | nil => exact h
  | cons q r ih =>
    obtain ⟨x, v⟩ := q
    simp only [wfFrom, Bool.and_eq_true] at h
    by_cases hp : p (x, v) = true
    · rw [List.filter_cons_of_pos hp]
      simp only [wfFrom, Bool.and_eq_true]
      exact ⟨h.1, ih _ h.2⟩
    · rw [List.filter_cons_of_neg hp]
      cases lo with
      | none => exact ih _ (wfFrom_none r h.2)
      | some l =>
        have : l < x := by simpa using h.1.1
        exact ih _ (wfFrom_weaken r h.2 (by omega))

/-- Two banks in canonical form that read alike are equal on what they list. -/
theorem read_of_find_none {b : Bank} {a : Nat} (h : b.find a = none) : b.read a = resetWord a := by simp [read, h]

end Bank

/-! ### Fields of a word -/

namespace Fld

theorem get_lt (f : Fld) (w : Word) : f.get w < 2 ^ f.width := Nat.mod_lt _ (Nat.two_pow_pos _)

/-- Bits of a field's mask. -/
theorem getLsbD_mask (f : Fld) (i : Nat) (hi : i < 32) : f.mask.getLsbD i = (decide (f.lo ≤ i) && decide (i < f.lo + f.width)) := by
  simp only [mask, BitVec.getLsbD_shiftLeft, BitVec.getLsbD_ofNat, Nat.testBit_two_pow_sub_one, hi, decide_true, Bool.true_and]
  by_cases h : f.lo ≤ i
  · have h1 : ¬ i < f.lo := by omega
    have h2 : i - f.lo < 32 := by omega
    have h3 : (i - f.lo < f.width) ↔ (i < f.lo + f.width) := by omega
    simp [h, h1, h2, h3]
  · have h1 : i < f.lo := by omega
    simp [h, h1]

/-- Bit `i` of a word with a field replaced. -/
theorem getLsbD_put (f : Fld) (w : Word) (v i : Nat) (hi : i < 32) :
    (f.put w v).getLsbD i = if f.lo ≤ i ∧ i < f.lo + f.width then v.testBit (i - f.lo) else w.getLsbD i := by
  simp only [put, BitVec.getLsbD_or, BitVec.getLsbD_and, BitVec.getLsbD_not, hi, decide_true, Bool.true_and, getLsbD_mask f i hi,
    BitVec.getLsbD_shiftLeft, BitVec.getLsbD_ofNat]
  by_cases h : f.lo ≤ i ∧ i < f.lo + f.width
  · have h1 : ¬ i < f.lo := by omega
    have h2 : i - f.lo < 32 := by omega
    simp [h, h1, h2]
  · by_cases h1 : f.lo ≤ i
    · have h2 : ¬ i < f.lo + f.width := fun e => h ⟨h1, e⟩
      simp [h1, h2]
    · simp [h1]

/-- Bit `i` of a field's value. -/
theorem testBit_get (f : Fld) (w : Word) (i : Nat) : (f.get w).testBit i = (decide (i < f.width) && w.getLsbD (f.lo + i)) := by
  simp [get, Nat.testBit_mod_two_pow, Nat.testBit_div_two_pow, BitVec.getLsbD, Nat.add_comm]

/-- A field that lies in the word reads as it was put, on its width. -/
theorem get_put (f : Fld) (w : Word) (v : Nat) (h : f.lo + f.width ≤ 32) : f.get (f.put w v) = v % 2 ^ f.width := by
  apply Nat.eq_of_testBit_eq
  intro i
  rw [testBit_get, Nat.testBit_mod_two_pow]
  by_cases hi : i < f.width
  · rw [getLsbD_put f w v _ (by omega)]
    simp [hi]
  · simp [hi]

/-- A field reads as before after a field beside it was put. -/
theorem get_put_other (f g : Fld) (w : Word) (v : Nat) (hf : f.lo + f.width ≤ 32)
    (h : f.lo + f.width ≤ g.lo ∨ g.lo + g.width ≤ f.lo) : f.get (g.put w v) = f.get w := by
  apply Nat.eq_of_testBit_eq
  intro i
  rw [testBit_get, testBit_get]
  by_cases hi : i < f.width
  · rw [getLsbD_put g w v _ (by omega)]
    have : ¬ (g.lo ≤ f.lo + i ∧ f.lo + i < g.lo + g.width) := by omega
    simp [hi, this]
  · simp [hi]

end Fld

namespace Bank

/-- A field reads as it was set. -/
theorem fld_setFld_same (b : Bank) (f : Fld) (r v : Nat) (h : b.wf = true) (hf : f.lo + f.width ≤ 32) :
    (b.setFld f r v).fld f r = v % 2 ^ f.width := by
  simp only [fld, setFld, read_write_same _ _ _ h, Fld.get_put f _ v hf]

/-- A field in another word reads as before. -/
theorem fld_setFld_word (b : Bank) (f g : Fld) (r q v : Nat) (h : g.addr q ≠ f.addr r) : (b.setFld f r v).fld g q = b.fld g q := by
  simp only [fld, setFld, read_write_other _ _ h]

/-- A field beside it in the same word reads as before. -/
theorem fld_setFld_beside (b : Bank) (f g : Fld) (r q v : Nat) (hb : b.wf = true) (hg : g.lo + g.width ≤ 32)
    (h : g.lo + g.width ≤ f.lo ∨ f.lo + f.width ≤ g.lo) : (b.setFld f r v).fld g q = b.fld g q := by
  simp only [fld, setFld]
  by_cases e : g.addr q = f.addr r
  · rw [e, read_write_same _ _ _ hb, Fld.get_put_other g f _ v hg h]
  · rw [read_write_other _ _ e]

end Bank

end Sys2Proof.Machine
end

