-- ==== Sys2Proof/Laws/State.lean ====
section
/-! SUPPORT. What each named update of the part leaves and gives, field by field. -/

namespace Sys2Proof.Machine.Chip
set_option Elab.async false

variable (c : Chip)

@[simp] theorem onQ_boot (i : Nat) (f : Queue → Queue) : (c.onQ i f).boot = c.boot := rfl
@[simp] theorem onQ_port (i : Nat) (f : Queue → Queue) : (c.onQ i f).port = c.port := rfl
@[simp] theorem onQ_win (i : Nat) (f : Queue → Queue) : (c.onQ i f).win = c.win := rfl
@[simp] theorem onQ_dir (i : Nat) (f : Queue → Queue) : (c.onQ i f).dir = c.dir := rfl
@[simp] theorem onQ_heath (i : Nat) (f : Queue → Queue) : (c.onQ i f).heath = c.heath := rfl
@[simp] theorem onQ_col (i : Nat) (f : Queue → Queue) : (c.onQ i f).col = c.col := rfl
@[simp] theorem onQ_que (i : Nat) (f : Queue → Queue) : (c.onQ i f).que = vupd c.que i f := rfl
@[simp] theorem onQ_upl (i : Nat) (f : Queue → Queue) : (c.onQ i f).upl = c.upl := rfl
@[simp] theorem onQ_trib (i : Nat) (f : Queue → Queue) : (c.onQ i f).trib = c.trib := rfl
@[simp] theorem onQ_sched (i : Nat) (f : Queue → Queue) : (c.onQ i f).sched = c.sched := rfl
@[simp] theorem onQ_gfp (i : Nat) (f : Queue → Queue) : (c.onQ i f).gfp = c.gfp := rfl
@[simp] theorem onQ_aps (i : Nat) (f : Queue → Queue) : (c.onQ i f).aps = c.aps := rfl
@[simp] theorem onQ_mead (i : Nat) (f : Queue → Queue) : (c.onQ i f).mead = c.mead := rfl
@[simp] theorem onQ_drop (i : Nat) (f : Queue → Queue) : (c.onQ i f).drop = c.drop := rfl
@[simp] theorem onQ_aud (i : Nat) (f : Queue → Queue) : (c.onQ i f).aud = c.aud := rfl
@[simp] theorem onQ_tim (i : Nat) (f : Queue → Queue) : (c.onQ i f).tim = c.tim := rfl
@[simp] theorem onQ_dpll (i : Nat) (f : Queue → Queue) : (c.onQ i f).dpll = c.dpll := rfl
@[simp] theorem onQ_twin (i : Nat) (f : Queue → Queue) : (c.onQ i f).twin = c.twin := rfl
@[simp] theorem onQ_pow (i : Nat) (f : Queue → Queue) : (c.onQ i f).pow = c.pow := rfl
@[simp] theorem onQ_qramFixed (i : Nat) (f : Queue → Queue) : (c.onQ i f).qramFixed = c.qramFixed := rfl
@[simp] theorem onQ_done (i : Nat) (f : Queue → Queue) : (c.onQ i f).done = c.done := rfl
@[simp] theorem onQ_free (i : Nat) (f : Queue → Queue) : (c.onQ i f).free = c.free := rfl

@[simp] theorem onU_boot (i : Nat) (f : Uplink → Uplink) : (c.onU i f).boot = c.boot := rfl
@[simp] theorem onU_port (i : Nat) (f : Uplink → Uplink) : (c.onU i f).port = c.port := rfl
@[simp] theorem onU_win (i : Nat) (f : Uplink → Uplink) : (c.onU i f).win = c.win := rfl
@[simp] theorem onU_dir (i : Nat) (f : Uplink → Uplink) : (c.onU i f).dir = c.dir := rfl
@[simp] theorem onU_heath (i : Nat) (f : Uplink → Uplink) : (c.onU i f).heath = c.heath := rfl
@[simp] theorem onU_col (i : Nat) (f : Uplink → Uplink) : (c.onU i f).col = c.col := rfl
@[simp] theorem onU_que (i : Nat) (f : Uplink → Uplink) : (c.onU i f).que = c.que := rfl
@[simp] theorem onU_upl (i : Nat) (f : Uplink → Uplink) : (c.onU i f).upl = vupd c.upl i f := rfl
@[simp] theorem onU_trib (i : Nat) (f : Uplink → Uplink) : (c.onU i f).trib = c.trib := rfl
@[simp] theorem onU_sched (i : Nat) (f : Uplink → Uplink) : (c.onU i f).sched = c.sched := rfl
@[simp] theorem onU_gfp (i : Nat) (f : Uplink → Uplink) : (c.onU i f).gfp = c.gfp := rfl
@[simp] theorem onU_aps (i : Nat) (f : Uplink → Uplink) : (c.onU i f).aps = c.aps := rfl
@[simp] theorem onU_mead (i : Nat) (f : Uplink → Uplink) : (c.onU i f).mead = c.mead := rfl
@[simp] theorem onU_drop (i : Nat) (f : Uplink → Uplink) : (c.onU i f).drop = c.drop := rfl
@[simp] theorem onU_aud (i : Nat) (f : Uplink → Uplink) : (c.onU i f).aud = c.aud := rfl
@[simp] theorem onU_tim (i : Nat) (f : Uplink → Uplink) : (c.onU i f).tim = c.tim := rfl
@[simp] theorem onU_dpll (i : Nat) (f : Uplink → Uplink) : (c.onU i f).dpll = c.dpll := rfl
@[simp] theorem onU_twin (i : Nat) (f : Uplink → Uplink) : (c.onU i f).twin = c.twin := rfl
@[simp] theorem onU_pow (i : Nat) (f : Uplink → Uplink) : (c.onU i f).pow = c.pow := rfl
@[simp] theorem onU_qramFixed (i : Nat) (f : Uplink → Uplink) : (c.onU i f).qramFixed = c.qramFixed := rfl
@[simp] theorem onU_done (i : Nat) (f : Uplink → Uplink) : (c.onU i f).done = c.done := rfl
@[simp] theorem onU_free (i : Nat) (f : Uplink → Uplink) : (c.onU i f).free = c.free := rfl

@[simp] theorem onT_boot (i : Nat) (f : Trib → Trib) : (c.onT i f).boot = c.boot := rfl
@[simp] theorem onT_port (i : Nat) (f : Trib → Trib) : (c.onT i f).port = c.port := rfl
@[simp] theorem onT_win (i : Nat) (f : Trib → Trib) : (c.onT i f).win = c.win := rfl
@[simp] theorem onT_dir (i : Nat) (f : Trib → Trib) : (c.onT i f).dir = c.dir := rfl
@[simp] theorem onT_heath (i : Nat) (f : Trib → Trib) : (c.onT i f).heath = c.heath := rfl
@[simp] theorem onT_col (i : Nat) (f : Trib → Trib) : (c.onT i f).col = c.col := rfl
@[simp] theorem onT_que (i : Nat) (f : Trib → Trib) : (c.onT i f).que = c.que := rfl
@[simp] theorem onT_upl (i : Nat) (f : Trib → Trib) : (c.onT i f).upl = c.upl := rfl
@[simp] theorem onT_trib (i : Nat) (f : Trib → Trib) : (c.onT i f).trib = vupd c.trib i f := rfl
@[simp] theorem onT_sched (i : Nat) (f : Trib → Trib) : (c.onT i f).sched = c.sched := rfl
@[simp] theorem onT_gfp (i : Nat) (f : Trib → Trib) : (c.onT i f).gfp = c.gfp := rfl
@[simp] theorem onT_aps (i : Nat) (f : Trib → Trib) : (c.onT i f).aps = c.aps := rfl
@[simp] theorem onT_mead (i : Nat) (f : Trib → Trib) : (c.onT i f).mead = c.mead := rfl
@[simp] theorem onT_drop (i : Nat) (f : Trib → Trib) : (c.onT i f).drop = c.drop := rfl
@[simp] theorem onT_aud (i : Nat) (f : Trib → Trib) : (c.onT i f).aud = c.aud := rfl
@[simp] theorem onT_tim (i : Nat) (f : Trib → Trib) : (c.onT i f).tim = c.tim := rfl
@[simp] theorem onT_dpll (i : Nat) (f : Trib → Trib) : (c.onT i f).dpll = c.dpll := rfl
@[simp] theorem onT_twin (i : Nat) (f : Trib → Trib) : (c.onT i f).twin = c.twin := rfl
@[simp] theorem onT_pow (i : Nat) (f : Trib → Trib) : (c.onT i f).pow = c.pow := rfl
@[simp] theorem onT_qramFixed (i : Nat) (f : Trib → Trib) : (c.onT i f).qramFixed = c.qramFixed := rfl
@[simp] theorem onT_done (i : Nat) (f : Trib → Trib) : (c.onT i f).done = c.done := rfl
@[simp] theorem onT_free (i : Nat) (f : Trib → Trib) : (c.onT i f).free = c.free := rfl

@[simp] theorem onD_boot (i : Nat) (f : Drop → Drop) : (c.onD i f).boot = c.boot := rfl
@[simp] theorem onD_port (i : Nat) (f : Drop → Drop) : (c.onD i f).port = c.port := rfl
@[simp] theorem onD_win (i : Nat) (f : Drop → Drop) : (c.onD i f).win = c.win := rfl
@[simp] theorem onD_dir (i : Nat) (f : Drop → Drop) : (c.onD i f).dir = c.dir := rfl
@[simp] theorem onD_heath (i : Nat) (f : Drop → Drop) : (c.onD i f).heath = c.heath := rfl
@[simp] theorem onD_col (i : Nat) (f : Drop → Drop) : (c.onD i f).col = c.col := rfl
@[simp] theorem onD_que (i : Nat) (f : Drop → Drop) : (c.onD i f).que = c.que := rfl
@[simp] theorem onD_upl (i : Nat) (f : Drop → Drop) : (c.onD i f).upl = c.upl := rfl
@[simp] theorem onD_trib (i : Nat) (f : Drop → Drop) : (c.onD i f).trib = c.trib := rfl
@[simp] theorem onD_sched (i : Nat) (f : Drop → Drop) : (c.onD i f).sched = c.sched := rfl
@[simp] theorem onD_gfp (i : Nat) (f : Drop → Drop) : (c.onD i f).gfp = c.gfp := rfl
@[simp] theorem onD_aps (i : Nat) (f : Drop → Drop) : (c.onD i f).aps = c.aps := rfl
@[simp] theorem onD_mead (i : Nat) (f : Drop → Drop) : (c.onD i f).mead = c.mead := rfl
@[simp] theorem onD_drop (i : Nat) (f : Drop → Drop) : (c.onD i f).drop = vupd c.drop i f := rfl
@[simp] theorem onD_aud (i : Nat) (f : Drop → Drop) : (c.onD i f).aud = c.aud := rfl
@[simp] theorem onD_tim (i : Nat) (f : Drop → Drop) : (c.onD i f).tim = c.tim := rfl
@[simp] theorem onD_dpll (i : Nat) (f : Drop → Drop) : (c.onD i f).dpll = c.dpll := rfl
@[simp] theorem onD_twin (i : Nat) (f : Drop → Drop) : (c.onD i f).twin = c.twin := rfl
@[simp] theorem onD_pow (i : Nat) (f : Drop → Drop) : (c.onD i f).pow = c.pow := rfl
@[simp] theorem onD_qramFixed (i : Nat) (f : Drop → Drop) : (c.onD i f).qramFixed = c.qramFixed := rfl
@[simp] theorem onD_done (i : Nat) (f : Drop → Drop) : (c.onD i f).done = c.done := rfl
@[simp] theorem onD_free (i : Nat) (f : Drop → Drop) : (c.onD i f).free = c.free := rfl

@[simp] theorem onP_boot (i : Nat) (f : Aps → Aps) : (c.onP i f).boot = c.boot := rfl
@[simp] theorem onP_port (i : Nat) (f : Aps → Aps) : (c.onP i f).port = c.port := rfl
@[simp] theorem onP_win (i : Nat) (f : Aps → Aps) : (c.onP i f).win = c.win := rfl
@[simp] theorem onP_dir (i : Nat) (f : Aps → Aps) : (c.onP i f).dir = c.dir := rfl
@[simp] theorem onP_heath (i : Nat) (f : Aps → Aps) : (c.onP i f).heath = c.heath := rfl
@[simp] theorem onP_col (i : Nat) (f : Aps → Aps) : (c.onP i f).col = c.col := rfl
@[simp] theorem onP_que (i : Nat) (f : Aps → Aps) : (c.onP i f).que = c.que := rfl
@[simp] theorem onP_upl (i : Nat) (f : Aps → Aps) : (c.onP i f).upl = c.upl := rfl
@[simp] theorem onP_trib (i : Nat) (f : Aps → Aps) : (c.onP i f).trib = c.trib := rfl
@[simp] theorem onP_sched (i : Nat) (f : Aps → Aps) : (c.onP i f).sched = c.sched := rfl
@[simp] theorem onP_gfp (i : Nat) (f : Aps → Aps) : (c.onP i f).gfp = c.gfp := rfl
@[simp] theorem onP_aps (i : Nat) (f : Aps → Aps) : (c.onP i f).aps = vupd c.aps i f := rfl
@[simp] theorem onP_mead (i : Nat) (f : Aps → Aps) : (c.onP i f).mead = c.mead := rfl
@[simp] theorem onP_drop (i : Nat) (f : Aps → Aps) : (c.onP i f).drop = c.drop := rfl
@[simp] theorem onP_aud (i : Nat) (f : Aps → Aps) : (c.onP i f).aud = c.aud := rfl
@[simp] theorem onP_tim (i : Nat) (f : Aps → Aps) : (c.onP i f).tim = c.tim := rfl
@[simp] theorem onP_dpll (i : Nat) (f : Aps → Aps) : (c.onP i f).dpll = c.dpll := rfl
@[simp] theorem onP_twin (i : Nat) (f : Aps → Aps) : (c.onP i f).twin = c.twin := rfl
@[simp] theorem onP_pow (i : Nat) (f : Aps → Aps) : (c.onP i f).pow = c.pow := rfl
@[simp] theorem onP_qramFixed (i : Nat) (f : Aps → Aps) : (c.onP i f).qramFixed = c.qramFixed := rfl
@[simp] theorem onP_done (i : Nat) (f : Aps → Aps) : (c.onP i f).done = c.done := rfl
@[simp] theorem onP_free (i : Nat) (f : Aps → Aps) : (c.onP i f).free = c.free := rfl

@[simp] theorem onM_boot (f : Meadow → Meadow) : (c.onM f).boot = c.boot := rfl
@[simp] theorem onM_port (f : Meadow → Meadow) : (c.onM f).port = c.port := rfl
@[simp] theorem onM_win (f : Meadow → Meadow) : (c.onM f).win = c.win := rfl
@[simp] theorem onM_dir (f : Meadow → Meadow) : (c.onM f).dir = c.dir := rfl
@[simp] theorem onM_heath (f : Meadow → Meadow) : (c.onM f).heath = c.heath := rfl
@[simp] theorem onM_col (f : Meadow → Meadow) : (c.onM f).col = c.col := rfl
@[simp] theorem onM_que (f : Meadow → Meadow) : (c.onM f).que = c.que := rfl
@[simp] theorem onM_upl (f : Meadow → Meadow) : (c.onM f).upl = c.upl := rfl
@[simp] theorem onM_trib (f : Meadow → Meadow) : (c.onM f).trib = c.trib := rfl
@[simp] theorem onM_sched (f : Meadow → Meadow) : (c.onM f).sched = c.sched := rfl
@[simp] theorem onM_gfp (f : Meadow → Meadow) : (c.onM f).gfp = c.gfp := rfl
@[simp] theorem onM_aps (f : Meadow → Meadow) : (c.onM f).aps = c.aps := rfl
@[simp] theorem onM_mead (f : Meadow → Meadow) : (c.onM f).mead = f c.mead := rfl
@[simp] theorem onM_drop (f : Meadow → Meadow) : (c.onM f).drop = c.drop := rfl
@[simp] theorem onM_aud (f : Meadow → Meadow) : (c.onM f).aud = c.aud := rfl
@[simp] theorem onM_tim (f : Meadow → Meadow) : (c.onM f).tim = c.tim := rfl
@[simp] theorem onM_dpll (f : Meadow → Meadow) : (c.onM f).dpll = c.dpll := rfl
@[simp] theorem onM_twin (f : Meadow → Meadow) : (c.onM f).twin = c.twin := rfl
@[simp] theorem onM_pow (f : Meadow → Meadow) : (c.onM f).pow = c.pow := rfl
@[simp] theorem onM_qramFixed (f : Meadow → Meadow) : (c.onM f).qramFixed = c.qramFixed := rfl
@[simp] theorem onM_done (f : Meadow → Meadow) : (c.onM f).done = c.done := rfl
@[simp] theorem onM_free (f : Meadow → Meadow) : (c.onM f).free = c.free := rfl

@[simp] theorem onCol_boot (f : Collector → Collector) : (c.onCol f).boot = c.boot := rfl
@[simp] theorem onCol_port (f : Collector → Collector) : (c.onCol f).port = c.port := rfl
@[simp] theorem onCol_win (f : Collector → Collector) : (c.onCol f).win = c.win := rfl
@[simp] theorem onCol_dir (f : Collector → Collector) : (c.onCol f).dir = c.dir := rfl
@[simp] theorem onCol_heath (f : Collector → Collector) : (c.onCol f).heath = c.heath := rfl
@[simp] theorem onCol_col (f : Collector → Collector) : (c.onCol f).col = f c.col := rfl
@[simp] theorem onCol_que (f : Collector → Collector) : (c.onCol f).que = c.que := rfl
@[simp] theorem onCol_upl (f : Collector → Collector) : (c.onCol f).upl = c.upl := rfl
@[simp] theorem onCol_trib (f : Collector → Collector) : (c.onCol f).trib = c.trib := rfl
@[simp] theorem onCol_sched (f : Collector → Collector) : (c.onCol f).sched = c.sched := rfl
@[simp] theorem onCol_gfp (f : Collector → Collector) : (c.onCol f).gfp = c.gfp := rfl
@[simp] theorem onCol_aps (f : Collector → Collector) : (c.onCol f).aps = c.aps := rfl
@[simp] theorem onCol_mead (f : Collector → Collector) : (c.onCol f).mead = c.mead := rfl
@[simp] theorem onCol_drop (f : Collector → Collector) : (c.onCol f).drop = c.drop := rfl
@[simp] theorem onCol_aud (f : Collector → Collector) : (c.onCol f).aud = c.aud := rfl
@[simp] theorem onCol_tim (f : Collector → Collector) : (c.onCol f).tim = c.tim := rfl
@[simp] theorem onCol_dpll (f : Collector → Collector) : (c.onCol f).dpll = c.dpll := rfl
@[simp] theorem onCol_twin (f : Collector → Collector) : (c.onCol f).twin = c.twin := rfl
@[simp] theorem onCol_pow (f : Collector → Collector) : (c.onCol f).pow = c.pow := rfl
@[simp] theorem onCol_qramFixed (f : Collector → Collector) : (c.onCol f).qramFixed = c.qramFixed := rfl
@[simp] theorem onCol_done (f : Collector → Collector) : (c.onCol f).done = c.done := rfl
@[simp] theorem onCol_free (f : Collector → Collector) : (c.onCol f).free = c.free := rfl

@[simp] theorem onPort_boot (f : Port → Port) : (c.onPort f).boot = c.boot := rfl
@[simp] theorem onPort_port (f : Port → Port) : (c.onPort f).port = f c.port := rfl
@[simp] theorem onPort_win (f : Port → Port) : (c.onPort f).win = c.win := rfl
@[simp] theorem onPort_dir (f : Port → Port) : (c.onPort f).dir = c.dir := rfl
@[simp] theorem onPort_heath (f : Port → Port) : (c.onPort f).heath = c.heath := rfl
@[simp] theorem onPort_col (f : Port → Port) : (c.onPort f).col = c.col := rfl
@[simp] theorem onPort_que (f : Port → Port) : (c.onPort f).que = c.que := rfl
@[simp] theorem onPort_upl (f : Port → Port) : (c.onPort f).upl = c.upl := rfl
@[simp] theorem onPort_trib (f : Port → Port) : (c.onPort f).trib = c.trib := rfl
@[simp] theorem onPort_sched (f : Port → Port) : (c.onPort f).sched = c.sched := rfl
@[simp] theorem onPort_gfp (f : Port → Port) : (c.onPort f).gfp = c.gfp := rfl
@[simp] theorem onPort_aps (f : Port → Port) : (c.onPort f).aps = c.aps := rfl
@[simp] theorem onPort_mead (f : Port → Port) : (c.onPort f).mead = c.mead := rfl
@[simp] theorem onPort_drop (f : Port → Port) : (c.onPort f).drop = c.drop := rfl
@[simp] theorem onPort_aud (f : Port → Port) : (c.onPort f).aud = c.aud := rfl
@[simp] theorem onPort_tim (f : Port → Port) : (c.onPort f).tim = c.tim := rfl
@[simp] theorem onPort_dpll (f : Port → Port) : (c.onPort f).dpll = c.dpll := rfl
@[simp] theorem onPort_twin (f : Port → Port) : (c.onPort f).twin = c.twin := rfl
@[simp] theorem onPort_pow (f : Port → Port) : (c.onPort f).pow = c.pow := rfl
@[simp] theorem onPort_qramFixed (f : Port → Port) : (c.onPort f).qramFixed = c.qramFixed := rfl
@[simp] theorem onPort_done (f : Port → Port) : (c.onPort f).done = c.done := rfl
@[simp] theorem onPort_free (f : Port → Port) : (c.onPort f).free = c.free := rfl

@[simp] theorem onDir_boot (f : Dir → Dir) : (c.onDir f).boot = c.boot := rfl
@[simp] theorem onDir_port (f : Dir → Dir) : (c.onDir f).port = c.port := rfl
@[simp] theorem onDir_win (f : Dir → Dir) : (c.onDir f).win = c.win := rfl
@[simp] theorem onDir_dir (f : Dir → Dir) : (c.onDir f).dir = f c.dir := rfl
@[simp] theorem onDir_heath (f : Dir → Dir) : (c.onDir f).heath = c.heath := rfl
@[simp] theorem onDir_col (f : Dir → Dir) : (c.onDir f).col = c.col := rfl
@[simp] theorem onDir_que (f : Dir → Dir) : (c.onDir f).que = c.que := rfl
@[simp] theorem onDir_upl (f : Dir → Dir) : (c.onDir f).upl = c.upl := rfl
@[simp] theorem onDir_trib (f : Dir → Dir) : (c.onDir f).trib = c.trib := rfl
@[simp] theorem onDir_sched (f : Dir → Dir) : (c.onDir f).sched = c.sched := rfl
@[simp] theorem onDir_gfp (f : Dir → Dir) : (c.onDir f).gfp = c.gfp := rfl
@[simp] theorem onDir_aps (f : Dir → Dir) : (c.onDir f).aps = c.aps := rfl
@[simp] theorem onDir_mead (f : Dir → Dir) : (c.onDir f).mead = c.mead := rfl
@[simp] theorem onDir_drop (f : Dir → Dir) : (c.onDir f).drop = c.drop := rfl
@[simp] theorem onDir_aud (f : Dir → Dir) : (c.onDir f).aud = c.aud := rfl
@[simp] theorem onDir_tim (f : Dir → Dir) : (c.onDir f).tim = c.tim := rfl
@[simp] theorem onDir_dpll (f : Dir → Dir) : (c.onDir f).dpll = c.dpll := rfl
@[simp] theorem onDir_twin (f : Dir → Dir) : (c.onDir f).twin = c.twin := rfl
@[simp] theorem onDir_pow (f : Dir → Dir) : (c.onDir f).pow = c.pow := rfl
@[simp] theorem onDir_qramFixed (f : Dir → Dir) : (c.onDir f).qramFixed = c.qramFixed := rfl
@[simp] theorem onDir_done (f : Dir → Dir) : (c.onDir f).done = c.done := rfl
@[simp] theorem onDir_free (f : Dir → Dir) : (c.onDir f).free = c.free := rfl

@[simp] theorem onHeath_boot (f : Heath → Heath) : (c.onHeath f).boot = c.boot := rfl
@[simp] theorem onHeath_port (f : Heath → Heath) : (c.onHeath f).port = c.port := rfl
@[simp] theorem onHeath_win (f : Heath → Heath) : (c.onHeath f).win = c.win := rfl
@[simp] theorem onHeath_dir (f : Heath → Heath) : (c.onHeath f).dir = c.dir := rfl
@[simp] theorem onHeath_heath (f : Heath → Heath) : (c.onHeath f).heath = f c.heath := rfl
@[simp] theorem onHeath_col (f : Heath → Heath) : (c.onHeath f).col = c.col := rfl
@[simp] theorem onHeath_que (f : Heath → Heath) : (c.onHeath f).que = c.que := rfl
@[simp] theorem onHeath_upl (f : Heath → Heath) : (c.onHeath f).upl = c.upl := rfl
@[simp] theorem onHeath_trib (f : Heath → Heath) : (c.onHeath f).trib = c.trib := rfl
@[simp] theorem onHeath_sched (f : Heath → Heath) : (c.onHeath f).sched = c.sched := rfl
@[simp] theorem onHeath_gfp (f : Heath → Heath) : (c.onHeath f).gfp = c.gfp := rfl
@[simp] theorem onHeath_aps (f : Heath → Heath) : (c.onHeath f).aps = c.aps := rfl
@[simp] theorem onHeath_mead (f : Heath → Heath) : (c.onHeath f).mead = c.mead := rfl
@[simp] theorem onHeath_drop (f : Heath → Heath) : (c.onHeath f).drop = c.drop := rfl
@[simp] theorem onHeath_aud (f : Heath → Heath) : (c.onHeath f).aud = c.aud := rfl
@[simp] theorem onHeath_tim (f : Heath → Heath) : (c.onHeath f).tim = c.tim := rfl
@[simp] theorem onHeath_dpll (f : Heath → Heath) : (c.onHeath f).dpll = c.dpll := rfl
@[simp] theorem onHeath_twin (f : Heath → Heath) : (c.onHeath f).twin = c.twin := rfl
@[simp] theorem onHeath_pow (f : Heath → Heath) : (c.onHeath f).pow = c.pow := rfl
@[simp] theorem onHeath_qramFixed (f : Heath → Heath) : (c.onHeath f).qramFixed = c.qramFixed := rfl
@[simp] theorem onHeath_done (f : Heath → Heath) : (c.onHeath f).done = c.done := rfl
@[simp] theorem onHeath_free (f : Heath → Heath) : (c.onHeath f).free = c.free := rfl

@[simp] theorem onTime_boot (f : TimeEng → TimeEng) : (c.onTime f).boot = c.boot := rfl
@[simp] theorem onTime_port (f : TimeEng → TimeEng) : (c.onTime f).port = c.port := rfl
@[simp] theorem onTime_win (f : TimeEng → TimeEng) : (c.onTime f).win = c.win := rfl
@[simp] theorem onTime_dir (f : TimeEng → TimeEng) : (c.onTime f).dir = c.dir := rfl
@[simp] theorem onTime_heath (f : TimeEng → TimeEng) : (c.onTime f).heath = c.heath := rfl
@[simp] theorem onTime_col (f : TimeEng → TimeEng) : (c.onTime f).col = c.col := rfl
@[simp] theorem onTime_que (f : TimeEng → TimeEng) : (c.onTime f).que = c.que := rfl
@[simp] theorem onTime_upl (f : TimeEng → TimeEng) : (c.onTime f).upl = c.upl := rfl
@[simp] theorem onTime_trib (f : TimeEng → TimeEng) : (c.onTime f).trib = c.trib := rfl
@[simp] theorem onTime_sched (f : TimeEng → TimeEng) : (c.onTime f).sched = c.sched := rfl
@[simp] theorem onTime_gfp (f : TimeEng → TimeEng) : (c.onTime f).gfp = c.gfp := rfl
@[simp] theorem onTime_aps (f : TimeEng → TimeEng) : (c.onTime f).aps = c.aps := rfl
@[simp] theorem onTime_mead (f : TimeEng → TimeEng) : (c.onTime f).mead = c.mead := rfl
@[simp] theorem onTime_drop (f : TimeEng → TimeEng) : (c.onTime f).drop = c.drop := rfl
@[simp] theorem onTime_aud (f : TimeEng → TimeEng) : (c.onTime f).aud = c.aud := rfl
@[simp] theorem onTime_tim (f : TimeEng → TimeEng) : (c.onTime f).tim = f c.tim := rfl
@[simp] theorem onTime_dpll (f : TimeEng → TimeEng) : (c.onTime f).dpll = c.dpll := rfl
@[simp] theorem onTime_twin (f : TimeEng → TimeEng) : (c.onTime f).twin = c.twin := rfl
@[simp] theorem onTime_pow (f : TimeEng → TimeEng) : (c.onTime f).pow = c.pow := rfl
@[simp] theorem onTime_qramFixed (f : TimeEng → TimeEng) : (c.onTime f).qramFixed = c.qramFixed := rfl
@[simp] theorem onTime_done (f : TimeEng → TimeEng) : (c.onTime f).done = c.done := rfl
@[simp] theorem onTime_free (f : TimeEng → TimeEng) : (c.onTime f).free = c.free := rfl

@[simp] theorem onTwin_boot (f : Twin → Twin) : (c.onTwin f).boot = c.boot := rfl
@[simp] theorem onTwin_port (f : Twin → Twin) : (c.onTwin f).port = c.port := rfl
@[simp] theorem onTwin_win (f : Twin → Twin) : (c.onTwin f).win = c.win := rfl
@[simp] theorem onTwin_dir (f : Twin → Twin) : (c.onTwin f).dir = c.dir := rfl
@[simp] theorem onTwin_heath (f : Twin → Twin) : (c.onTwin f).heath = c.heath := rfl
@[simp] theorem onTwin_col (f : Twin → Twin) : (c.onTwin f).col = c.col := rfl
@[simp] theorem onTwin_que (f : Twin → Twin) : (c.onTwin f).que = c.que := rfl
@[simp] theorem onTwin_upl (f : Twin → Twin) : (c.onTwin f).upl = c.upl := rfl
@[simp] theorem onTwin_trib (f : Twin → Twin) : (c.onTwin f).trib = c.trib := rfl
@[simp] theorem onTwin_sched (f : Twin → Twin) : (c.onTwin f).sched = c.sched := rfl
@[simp] theorem onTwin_gfp (f : Twin → Twin) : (c.onTwin f).gfp = c.gfp := rfl
@[simp] theorem onTwin_aps (f : Twin → Twin) : (c.onTwin f).aps = c.aps := rfl
@[simp] theorem onTwin_mead (f : Twin → Twin) : (c.onTwin f).mead = c.mead := rfl
@[simp] theorem onTwin_drop (f : Twin → Twin) : (c.onTwin f).drop = c.drop := rfl
@[simp] theorem onTwin_aud (f : Twin → Twin) : (c.onTwin f).aud = c.aud := rfl
@[simp] theorem onTwin_tim (f : Twin → Twin) : (c.onTwin f).tim = c.tim := rfl
@[simp] theorem onTwin_dpll (f : Twin → Twin) : (c.onTwin f).dpll = c.dpll := rfl
@[simp] theorem onTwin_twin (f : Twin → Twin) : (c.onTwin f).twin = f c.twin := rfl
@[simp] theorem onTwin_pow (f : Twin → Twin) : (c.onTwin f).pow = c.pow := rfl
@[simp] theorem onTwin_qramFixed (f : Twin → Twin) : (c.onTwin f).qramFixed = c.qramFixed := rfl
@[simp] theorem onTwin_done (f : Twin → Twin) : (c.onTwin f).done = c.done := rfl
@[simp] theorem onTwin_free (f : Twin → Twin) : (c.onTwin f).free = c.free := rfl

@[simp] theorem onPow_boot (f : Power → Power) : (c.onPow f).boot = c.boot := rfl
@[simp] theorem onPow_port (f : Power → Power) : (c.onPow f).port = c.port := rfl
@[simp] theorem onPow_win (f : Power → Power) : (c.onPow f).win = c.win := rfl
@[simp] theorem onPow_dir (f : Power → Power) : (c.onPow f).dir = c.dir := rfl
@[simp] theorem onPow_heath (f : Power → Power) : (c.onPow f).heath = c.heath := rfl
@[simp] theorem onPow_col (f : Power → Power) : (c.onPow f).col = c.col := rfl
@[simp] theorem onPow_que (f : Power → Power) : (c.onPow f).que = c.que := rfl
@[simp] theorem onPow_upl (f : Power → Power) : (c.onPow f).upl = c.upl := rfl
@[simp] theorem onPow_trib (f : Power → Power) : (c.onPow f).trib = c.trib := rfl
@[simp] theorem onPow_sched (f : Power → Power) : (c.onPow f).sched = c.sched := rfl
@[simp] theorem onPow_gfp (f : Power → Power) : (c.onPow f).gfp = c.gfp := rfl
@[simp] theorem onPow_aps (f : Power → Power) : (c.onPow f).aps = c.aps := rfl
@[simp] theorem onPow_mead (f : Power → Power) : (c.onPow f).mead = c.mead := rfl
@[simp] theorem onPow_drop (f : Power → Power) : (c.onPow f).drop = c.drop := rfl
@[simp] theorem onPow_aud (f : Power → Power) : (c.onPow f).aud = c.aud := rfl
@[simp] theorem onPow_tim (f : Power → Power) : (c.onPow f).tim = c.tim := rfl
@[simp] theorem onPow_dpll (f : Power → Power) : (c.onPow f).dpll = c.dpll := rfl
@[simp] theorem onPow_twin (f : Power → Power) : (c.onPow f).twin = c.twin := rfl
@[simp] theorem onPow_pow (f : Power → Power) : (c.onPow f).pow = f c.pow := rfl
@[simp] theorem onPow_qramFixed (f : Power → Power) : (c.onPow f).qramFixed = c.qramFixed := rfl
@[simp] theorem onPow_done (f : Power → Power) : (c.onPow f).done = c.done := rfl
@[simp] theorem onPow_free (f : Power → Power) : (c.onPow f).free = c.free := rfl

@[simp] theorem onBoot_boot (f : Boot → Boot) : (c.onBoot f).boot = f c.boot := rfl
@[simp] theorem onBoot_port (f : Boot → Boot) : (c.onBoot f).port = c.port := rfl
@[simp] theorem onBoot_win (f : Boot → Boot) : (c.onBoot f).win = c.win := rfl
@[simp] theorem onBoot_dir (f : Boot → Boot) : (c.onBoot f).dir = c.dir := rfl
@[simp] theorem onBoot_heath (f : Boot → Boot) : (c.onBoot f).heath = c.heath := rfl
@[simp] theorem onBoot_col (f : Boot → Boot) : (c.onBoot f).col = c.col := rfl
@[simp] theorem onBoot_que (f : Boot → Boot) : (c.onBoot f).que = c.que := rfl
@[simp] theorem onBoot_upl (f : Boot → Boot) : (c.onBoot f).upl = c.upl := rfl
@[simp] theorem onBoot_trib (f : Boot → Boot) : (c.onBoot f).trib = c.trib := rfl
@[simp] theorem onBoot_sched (f : Boot → Boot) : (c.onBoot f).sched = c.sched := rfl
@[simp] theorem onBoot_gfp (f : Boot → Boot) : (c.onBoot f).gfp = c.gfp := rfl
@[simp] theorem onBoot_aps (f : Boot → Boot) : (c.onBoot f).aps = c.aps := rfl
@[simp] theorem onBoot_mead (f : Boot → Boot) : (c.onBoot f).mead = c.mead := rfl
@[simp] theorem onBoot_drop (f : Boot → Boot) : (c.onBoot f).drop = c.drop := rfl
@[simp] theorem onBoot_aud (f : Boot → Boot) : (c.onBoot f).aud = c.aud := rfl
@[simp] theorem onBoot_tim (f : Boot → Boot) : (c.onBoot f).tim = c.tim := rfl
@[simp] theorem onBoot_dpll (f : Boot → Boot) : (c.onBoot f).dpll = c.dpll := rfl
@[simp] theorem onBoot_twin (f : Boot → Boot) : (c.onBoot f).twin = c.twin := rfl
@[simp] theorem onBoot_pow (f : Boot → Boot) : (c.onBoot f).pow = c.pow := rfl
@[simp] theorem onBoot_qramFixed (f : Boot → Boot) : (c.onBoot f).qramFixed = c.qramFixed := rfl
@[simp] theorem onBoot_done (f : Boot → Boot) : (c.onBoot f).done = c.done := rfl
@[simp] theorem onBoot_free (f : Boot → Boot) : (c.onBoot f).free = c.free := rfl

@[simp] theorem onWin_boot (f : Window → Window) : (c.onWin f).boot = c.boot := rfl
@[simp] theorem onWin_port (f : Window → Window) : (c.onWin f).port = c.port := rfl
@[simp] theorem onWin_win (f : Window → Window) : (c.onWin f).win = f c.win := rfl
@[simp] theorem onWin_dir (f : Window → Window) : (c.onWin f).dir = c.dir := rfl
@[simp] theorem onWin_heath (f : Window → Window) : (c.onWin f).heath = c.heath := rfl
@[simp] theorem onWin_col (f : Window → Window) : (c.onWin f).col = c.col := rfl
@[simp] theorem onWin_que (f : Window → Window) : (c.onWin f).que = c.que := rfl
@[simp] theorem onWin_upl (f : Window → Window) : (c.onWin f).upl = c.upl := rfl
@[simp] theorem onWin_trib (f : Window → Window) : (c.onWin f).trib = c.trib := rfl
@[simp] theorem onWin_sched (f : Window → Window) : (c.onWin f).sched = c.sched := rfl
@[simp] theorem onWin_gfp (f : Window → Window) : (c.onWin f).gfp = c.gfp := rfl
@[simp] theorem onWin_aps (f : Window → Window) : (c.onWin f).aps = c.aps := rfl
@[simp] theorem onWin_mead (f : Window → Window) : (c.onWin f).mead = c.mead := rfl
@[simp] theorem onWin_drop (f : Window → Window) : (c.onWin f).drop = c.drop := rfl
@[simp] theorem onWin_aud (f : Window → Window) : (c.onWin f).aud = c.aud := rfl
@[simp] theorem onWin_tim (f : Window → Window) : (c.onWin f).tim = c.tim := rfl
@[simp] theorem onWin_dpll (f : Window → Window) : (c.onWin f).dpll = c.dpll := rfl
@[simp] theorem onWin_twin (f : Window → Window) : (c.onWin f).twin = c.twin := rfl
@[simp] theorem onWin_pow (f : Window → Window) : (c.onWin f).pow = c.pow := rfl
@[simp] theorem onWin_qramFixed (f : Window → Window) : (c.onWin f).qramFixed = c.qramFixed := rfl
@[simp] theorem onWin_done (f : Window → Window) : (c.onWin f).done = c.done := rfl
@[simp] theorem onWin_free (f : Window → Window) : (c.onWin f).free = c.free := rfl

@[simp] theorem withStatus_boot (b : Bank) : (c.withStatus b).boot = c.boot := rfl
@[simp] theorem withStatus_port (b : Bank) : (c.withStatus b).port = c.port := rfl
@[simp] theorem withStatus_win (b : Bank) : (c.withStatus b).win = c.win := rfl
@[simp] theorem withStatus_dir (b : Bank) : (c.withStatus b).dir = c.dir := rfl
@[simp] theorem withStatus_heath (b : Bank) : (c.withStatus b).heath = { c.heath with status := b } := rfl
@[simp] theorem withStatus_col (b : Bank) : (c.withStatus b).col = c.col := rfl
@[simp] theorem withStatus_que (b : Bank) : (c.withStatus b).que = c.que := rfl
@[simp] theorem withStatus_upl (b : Bank) : (c.withStatus b).upl = c.upl := rfl
@[simp] theorem withStatus_trib (b : Bank) : (c.withStatus b).trib = c.trib := rfl
@[simp] theorem withStatus_sched (b : Bank) : (c.withStatus b).sched = c.sched := rfl
@[simp] theorem withStatus_gfp (b : Bank) : (c.withStatus b).gfp = c.gfp := rfl
@[simp] theorem withStatus_aps (b : Bank) : (c.withStatus b).aps = c.aps := rfl
@[simp] theorem withStatus_mead (b : Bank) : (c.withStatus b).mead = c.mead := rfl
@[simp] theorem withStatus_drop (b : Bank) : (c.withStatus b).drop = c.drop := rfl
@[simp] theorem withStatus_aud (b : Bank) : (c.withStatus b).aud = c.aud := rfl
@[simp] theorem withStatus_tim (b : Bank) : (c.withStatus b).tim = c.tim := rfl
@[simp] theorem withStatus_dpll (b : Bank) : (c.withStatus b).dpll = c.dpll := rfl
@[simp] theorem withStatus_twin (b : Bank) : (c.withStatus b).twin = c.twin := rfl
@[simp] theorem withStatus_pow (b : Bank) : (c.withStatus b).pow = c.pow := rfl
@[simp] theorem withStatus_qramFixed (b : Bank) : (c.withStatus b).qramFixed = c.qramFixed := rfl
@[simp] theorem withStatus_done (b : Bank) : (c.withStatus b).done = c.done := rfl
@[simp] theorem withStatus_free (b : Bank) : (c.withStatus b).free = c.free := rfl

end Sys2Proof.Machine.Chip
end

