-- ==== Sys2Proof/Laws/Status.lean ====
section
/-! SUPPORT. Units of a block, status fields and cause bits: what reading gives after a change, and what a change leaves. -/

namespace Sys2Proof.Machine
set_option Elab.async false

/-! ### Units of a block -/

theorem vget_vupd_same {α : Type} {n : Nat} (v : Vector α n) (i : Nat) (f : α → α) (d : α) (h : i < n) :
    vget (vupd v i f) i d = f (vget v i d) := by
  simp [vget, vupd, h]

theorem vget_vupd_other {α : Type} {n : Nat} (v : Vector α n) (i j : Nat) (f : α → α) (d : α) (h : j ≠ i) :
    vget (vupd v i f) j d = vget v j d := by
  unfold vupd
  split
  · simp [vget, Ne.symm h]
  · rfl

/-- What each pass keeps, all passes keep. -/
theorem overN_keeps {α : Type} (P : α → Prop) (n : Nat) (f : Nat → α → α) (h : ∀ i a, P a → P (f i a)) (a : α) (ha : P a) :
    P (overN n f a) := by
  unfold overN
  generalize List.range n = l
  induction l generalizing a with
  | nil => exact ha
  | cons i r ih => exact ih _ (h i a ha)

namespace Chip

@[simp] theorem q_onQ_same (c : Chip) (i : Nat) (f : Queue → Queue) (h : i < 12) : (c.onQ i f).q i = f (c.q i) := vget_vupd_same _ _ _ _ h
theorem q_onQ_other (c : Chip) (i j : Nat) (f : Queue → Queue) (h : j ≠ i) : (c.onQ i f).q j = c.q j := vget_vupd_other _ _ _ _ _ h
@[simp] theorem u_onU_same (c : Chip) (i : Nat) (f : Uplink → Uplink) (h : i < 4) : (c.onU i f).u i = f (c.u i) := vget_vupd_same _ _ _ _ h
theorem u_onU_other (c : Chip) (i j : Nat) (f : Uplink → Uplink) (h : j ≠ i) : (c.onU i f).u j = c.u j := vget_vupd_other _ _ _ _ _ h
@[simp] theorem t_onT_same (c : Chip) (i : Nat) (f : Trib → Trib) (h : i < 256) : (c.onT i f).t i = f (c.t i) := vget_vupd_same _ _ _ _ h
theorem t_onT_other (c : Chip) (i j : Nat) (f : Trib → Trib) (h : j ≠ i) : (c.onT i f).t j = c.t j := vget_vupd_other _ _ _ _ _ h
@[simp] theorem d_onD_same (c : Chip) (i : Nat) (f : Drop → Drop) (h : i < 96) : (c.onD i f).d i = f (c.d i) := vget_vupd_same _ _ _ _ h
theorem d_onD_other (c : Chip) (i j : Nat) (f : Drop → Drop) (h : j ≠ i) : (c.onD i f).d j = c.d j := vget_vupd_other _ _ _ _ _ h
@[simp] theorem pair_onP_same (c : Chip) (i : Nat) (f : Aps → Aps) (h : i < 2) : (c.onP i f).pair i = f (c.pair i) := vget_vupd_same _ _ _ _ h
theorem pair_onP_other (c : Chip) (i j : Nat) (f : Aps → Aps) (h : j ≠ i) : (c.onP i f).pair j = c.pair j := vget_vupd_other _ _ _ _ _ h

/-! ### Status fields -/

@[simp] theorem withStatus_heath_staged (c : Chip) (b : Bank) : (c.withStatus b).heath.staged = c.heath.staged := rfl
@[simp] theorem withStatus_heath_live (c : Chip) (b : Bank) : (c.withStatus b).heath.live = c.heath.live := rfl
@[simp] theorem withStatus_heath_statusEnd (c : Chip) (b : Bank) : (c.withStatus b).heath.statusEnd = c.heath.statusEnd := rfl
@[simp] theorem withStatus_heath_snap (c : Chip) (b : Bank) : (c.withStatus b).heath.snap = c.heath.snap := rfl
@[simp] theorem withStatus_heath_recEnd (c : Chip) (b : Bank) : (c.withStatus b).heath.recEnd = c.heath.recEnd := rfl
@[simp] theorem withStatus_heath_standing (c : Chip) (b : Bank) : (c.withStatus b).heath.standing = c.heath.standing := rfl
@[simp] theorem withStatus_heath_upsets (c : Chip) (b : Bank) : (c.withStatus b).heath.upsets = c.heath.upsets := rfl
@[simp] theorem withStatus_heath_fixedNow (c : Chip) (b : Bank) : (c.withStatus b).heath.fixedNow = c.heath.fixedNow := rfl
@[simp] theorem lv_withStatus (c : Chip) (b : Bank) (g : Fld) (q : Nat) : (c.withStatus b).lv g q = c.lv g q := rfl
@[simp] theorem sg_withStatus (c : Chip) (b : Bank) (g : Fld) (q : Nat) : (c.withStatus b).sg g q = c.sg g q := rfl
@[simp] theorem on_withStatus (c : Chip) (b : Bank) (g : Fld) (q : Nat) : (c.withStatus b).on g q = c.on g q := rfl

@[simp] theorem setSt_boot (c : Chip) (f : Fld) (r v : Nat) : (c.setSt f r v).boot = c.boot := withStatus_boot c _
@[simp] theorem setSt_port (c : Chip) (f : Fld) (r v : Nat) : (c.setSt f r v).port = c.port := withStatus_port c _
@[simp] theorem setSt_win (c : Chip) (f : Fld) (r v : Nat) : (c.setSt f r v).win = c.win := withStatus_win c _
@[simp] theorem setSt_dir (c : Chip) (f : Fld) (r v : Nat) : (c.setSt f r v).dir = c.dir := withStatus_dir c _
@[simp] theorem setSt_col (c : Chip) (f : Fld) (r v : Nat) : (c.setSt f r v).col = c.col := withStatus_col c _
@[simp] theorem setSt_que (c : Chip) (f : Fld) (r v : Nat) : (c.setSt f r v).que = c.que := withStatus_que c _
@[simp] theorem setSt_upl (c : Chip) (f : Fld) (r v : Nat) : (c.setSt f r v).upl = c.upl := withStatus_upl c _
@[simp] theorem setSt_trib (c : Chip) (f : Fld) (r v : Nat) : (c.setSt f r v).trib = c.trib := withStatus_trib c _
@[simp] theorem setSt_sched (c : Chip) (f : Fld) (r v : Nat) : (c.setSt f r v).sched = c.sched := withStatus_sched c _
@[simp] theorem setSt_gfp (c : Chip) (f : Fld) (r v : Nat) : (c.setSt f r v).gfp = c.gfp := withStatus_gfp c _
@[simp] theorem setSt_aps (c : Chip) (f : Fld) (r v : Nat) : (c.setSt f r v).aps = c.aps := withStatus_aps c _
@[simp] theorem setSt_mead (c : Chip) (f : Fld) (r v : Nat) : (c.setSt f r v).mead = c.mead := withStatus_mead c _
@[simp] theorem setSt_drop (c : Chip) (f : Fld) (r v : Nat) : (c.setSt f r v).drop = c.drop := withStatus_drop c _
@[simp] theorem setSt_aud (c : Chip) (f : Fld) (r v : Nat) : (c.setSt f r v).aud = c.aud := withStatus_aud c _
@[simp] theorem setSt_tim (c : Chip) (f : Fld) (r v : Nat) : (c.setSt f r v).tim = c.tim := withStatus_tim c _
@[simp] theorem setSt_dpll (c : Chip) (f : Fld) (r v : Nat) : (c.setSt f r v).dpll = c.dpll := withStatus_dpll c _
@[simp] theorem setSt_twin (c : Chip) (f : Fld) (r v : Nat) : (c.setSt f r v).twin = c.twin := withStatus_twin c _
@[simp] theorem setSt_pow (c : Chip) (f : Fld) (r v : Nat) : (c.setSt f r v).pow = c.pow := withStatus_pow c _
@[simp] theorem setSt_qramFixed (c : Chip) (f : Fld) (r v : Nat) : (c.setSt f r v).qramFixed = c.qramFixed := withStatus_qramFixed c _
@[simp] theorem setSt_done (c : Chip) (f : Fld) (r v : Nat) : (c.setSt f r v).done = c.done := withStatus_done c _
@[simp] theorem setSt_free (c : Chip) (f : Fld) (r v : Nat) : (c.setSt f r v).free = c.free := withStatus_free c _
@[simp] theorem setSt_heath_staged (c : Chip) (f : Fld) (r v : Nat) : (c.setSt f r v).heath.staged = c.heath.staged := withStatus_heath_staged c _
@[simp] theorem setSt_heath_live (c : Chip) (f : Fld) (r v : Nat) : (c.setSt f r v).heath.live = c.heath.live := withStatus_heath_live c _
@[simp] theorem setSt_heath_statusEnd (c : Chip) (f : Fld) (r v : Nat) : (c.setSt f r v).heath.statusEnd = c.heath.statusEnd := withStatus_heath_statusEnd c _
@[simp] theorem setSt_heath_snap (c : Chip) (f : Fld) (r v : Nat) : (c.setSt f r v).heath.snap = c.heath.snap := withStatus_heath_snap c _
@[simp] theorem setSt_heath_recEnd (c : Chip) (f : Fld) (r v : Nat) : (c.setSt f r v).heath.recEnd = c.heath.recEnd := withStatus_heath_recEnd c _
@[simp] theorem setSt_heath_standing (c : Chip) (f : Fld) (r v : Nat) : (c.setSt f r v).heath.standing = c.heath.standing := withStatus_heath_standing c _
@[simp] theorem setSt_heath_upsets (c : Chip) (f : Fld) (r v : Nat) : (c.setSt f r v).heath.upsets = c.heath.upsets := withStatus_heath_upsets c _
@[simp] theorem setSt_heath_fixedNow (c : Chip) (f : Fld) (r v : Nat) : (c.setSt f r v).heath.fixedNow = c.heath.fixedNow := withStatus_heath_fixedNow c _
@[simp] theorem lv_setSt (c : Chip) (f : Fld) (r v : Nat) (g : Fld) (q : Nat) : (c.setSt f r v).lv g q = c.lv g q := lv_withStatus c _ g q
@[simp] theorem sg_setSt (c : Chip) (f : Fld) (r v : Nat) (g : Fld) (q : Nat) : (c.setSt f r v).sg g q = c.sg g q := sg_withStatus c _ g q
@[simp] theorem on_setSt (c : Chip) (f : Fld) (r v : Nat) (g : Fld) (q : Nat) : (c.setSt f r v).on g q = c.on g q := on_withStatus c _ g q
theorem setSt_wf (c : Chip) (f : Fld) (r v : Nat) (h : c.heath.status.wf = true) : (c.setSt f r v).heath.status.wf = true := by
  rw [setSt, withStatus_heath]; exact Bank.wf_setFld _ _ _ _ h
theorem st_setSt (c : Chip) (f g : Fld) (r q v : Nat) : (c.setSt f r v).st g q = (c.heath.status.setFld f r v).fld g q := by
  rw [st, setSt, withStatus_heath]

@[simp] theorem addSt_boot (c : Chip) (f : Fld) (r n : Nat) : (c.addSt f r n).boot = c.boot := setSt_boot c f r _
@[simp] theorem addSt_port (c : Chip) (f : Fld) (r n : Nat) : (c.addSt f r n).port = c.port := setSt_port c f r _
@[simp] theorem addSt_win (c : Chip) (f : Fld) (r n : Nat) : (c.addSt f r n).win = c.win := setSt_win c f r _
@[simp] theorem addSt_dir (c : Chip) (f : Fld) (r n : Nat) : (c.addSt f r n).dir = c.dir := setSt_dir c f r _
@[simp] theorem addSt_col (c : Chip) (f : Fld) (r n : Nat) : (c.addSt f r n).col = c.col := setSt_col c f r _
@[simp] theorem addSt_que (c : Chip) (f : Fld) (r n : Nat) : (c.addSt f r n).que = c.que := setSt_que c f r _
@[simp] theorem addSt_upl (c : Chip) (f : Fld) (r n : Nat) : (c.addSt f r n).upl = c.upl := setSt_upl c f r _
@[simp] theorem addSt_trib (c : Chip) (f : Fld) (r n : Nat) : (c.addSt f r n).trib = c.trib := setSt_trib c f r _
@[simp] theorem addSt_sched (c : Chip) (f : Fld) (r n : Nat) : (c.addSt f r n).sched = c.sched := setSt_sched c f r _
@[simp] theorem addSt_gfp (c : Chip) (f : Fld) (r n : Nat) : (c.addSt f r n).gfp = c.gfp := setSt_gfp c f r _
@[simp] theorem addSt_aps (c : Chip) (f : Fld) (r n : Nat) : (c.addSt f r n).aps = c.aps := setSt_aps c f r _
@[simp] theorem addSt_mead (c : Chip) (f : Fld) (r n : Nat) : (c.addSt f r n).mead = c.mead := setSt_mead c f r _
@[simp] theorem addSt_drop (c : Chip) (f : Fld) (r n : Nat) : (c.addSt f r n).drop = c.drop := setSt_drop c f r _
@[simp] theorem addSt_aud (c : Chip) (f : Fld) (r n : Nat) : (c.addSt f r n).aud = c.aud := setSt_aud c f r _
@[simp] theorem addSt_tim (c : Chip) (f : Fld) (r n : Nat) : (c.addSt f r n).tim = c.tim := setSt_tim c f r _
@[simp] theorem addSt_dpll (c : Chip) (f : Fld) (r n : Nat) : (c.addSt f r n).dpll = c.dpll := setSt_dpll c f r _
@[simp] theorem addSt_twin (c : Chip) (f : Fld) (r n : Nat) : (c.addSt f r n).twin = c.twin := setSt_twin c f r _
@[simp] theorem addSt_pow (c : Chip) (f : Fld) (r n : Nat) : (c.addSt f r n).pow = c.pow := setSt_pow c f r _
@[simp] theorem addSt_qramFixed (c : Chip) (f : Fld) (r n : Nat) : (c.addSt f r n).qramFixed = c.qramFixed := setSt_qramFixed c f r _
@[simp] theorem addSt_done (c : Chip) (f : Fld) (r n : Nat) : (c.addSt f r n).done = c.done := setSt_done c f r _
@[simp] theorem addSt_free (c : Chip) (f : Fld) (r n : Nat) : (c.addSt f r n).free = c.free := setSt_free c f r _
@[simp] theorem addSt_heath_staged (c : Chip) (f : Fld) (r n : Nat) : (c.addSt f r n).heath.staged = c.heath.staged := setSt_heath_staged c f r _
@[simp] theorem addSt_heath_live (c : Chip) (f : Fld) (r n : Nat) : (c.addSt f r n).heath.live = c.heath.live := setSt_heath_live c f r _
@[simp] theorem addSt_heath_statusEnd (c : Chip) (f : Fld) (r n : Nat) : (c.addSt f r n).heath.statusEnd = c.heath.statusEnd := setSt_heath_statusEnd c f r _
@[simp] theorem addSt_heath_snap (c : Chip) (f : Fld) (r n : Nat) : (c.addSt f r n).heath.snap = c.heath.snap := setSt_heath_snap c f r _
@[simp] theorem addSt_heath_recEnd (c : Chip) (f : Fld) (r n : Nat) : (c.addSt f r n).heath.recEnd = c.heath.recEnd := setSt_heath_recEnd c f r _
@[simp] theorem addSt_heath_standing (c : Chip) (f : Fld) (r n : Nat) : (c.addSt f r n).heath.standing = c.heath.standing := setSt_heath_standing c f r _
@[simp] theorem addSt_heath_upsets (c : Chip) (f : Fld) (r n : Nat) : (c.addSt f r n).heath.upsets = c.heath.upsets := setSt_heath_upsets c f r _
@[simp] theorem addSt_heath_fixedNow (c : Chip) (f : Fld) (r n : Nat) : (c.addSt f r n).heath.fixedNow = c.heath.fixedNow := setSt_heath_fixedNow c f r _
@[simp] theorem lv_addSt (c : Chip) (f : Fld) (r n : Nat) (g : Fld) (q : Nat) : (c.addSt f r n).lv g q = c.lv g q := lv_setSt c f r _ g q
@[simp] theorem sg_addSt (c : Chip) (f : Fld) (r n : Nat) (g : Fld) (q : Nat) : (c.addSt f r n).sg g q = c.sg g q := sg_setSt c f r _ g q
@[simp] theorem on_addSt (c : Chip) (f : Fld) (r n : Nat) (g : Fld) (q : Nat) : (c.addSt f r n).on g q = c.on g q := on_setSt c f r _ g q
theorem addSt_wf (c : Chip) (f : Fld) (r n : Nat) (h : c.heath.status.wf = true) : (c.addSt f r n).heath.status.wf = true := setSt_wf c f r _ h

@[simp] theorem satSt_boot (c : Chip) (f : Fld) (r n : Nat) : (c.satSt f r n).boot = c.boot := setSt_boot c f r _
@[simp] theorem satSt_port (c : Chip) (f : Fld) (r n : Nat) : (c.satSt f r n).port = c.port := setSt_port c f r _
@[simp] theorem satSt_win (c : Chip) (f : Fld) (r n : Nat) : (c.satSt f r n).win = c.win := setSt_win c f r _
@[simp] theorem satSt_dir (c : Chip) (f : Fld) (r n : Nat) : (c.satSt f r n).dir = c.dir := setSt_dir c f r _
@[simp] theorem satSt_col (c : Chip) (f : Fld) (r n : Nat) : (c.satSt f r n).col = c.col := setSt_col c f r _
@[simp] theorem satSt_que (c : Chip) (f : Fld) (r n : Nat) : (c.satSt f r n).que = c.que := setSt_que c f r _
@[simp] theorem satSt_upl (c : Chip) (f : Fld) (r n : Nat) : (c.satSt f r n).upl = c.upl := setSt_upl c f r _
@[simp] theorem satSt_trib (c : Chip) (f : Fld) (r n : Nat) : (c.satSt f r n).trib = c.trib := setSt_trib c f r _
@[simp] theorem satSt_sched (c : Chip) (f : Fld) (r n : Nat) : (c.satSt f r n).sched = c.sched := setSt_sched c f r _
@[simp] theorem satSt_gfp (c : Chip) (f : Fld) (r n : Nat) : (c.satSt f r n).gfp = c.gfp := setSt_gfp c f r _
@[simp] theorem satSt_aps (c : Chip) (f : Fld) (r n : Nat) : (c.satSt f r n).aps = c.aps := setSt_aps c f r _
@[simp] theorem satSt_mead (c : Chip) (f : Fld) (r n : Nat) : (c.satSt f r n).mead = c.mead := setSt_mead c f r _
@[simp] theorem satSt_drop (c : Chip) (f : Fld) (r n : Nat) : (c.satSt f r n).drop = c.drop := setSt_drop c f r _
@[simp] theorem satSt_aud (c : Chip) (f : Fld) (r n : Nat) : (c.satSt f r n).aud = c.aud := setSt_aud c f r _
@[simp] theorem satSt_tim (c : Chip) (f : Fld) (r n : Nat) : (c.satSt f r n).tim = c.tim := setSt_tim c f r _
@[simp] theorem satSt_dpll (c : Chip) (f : Fld) (r n : Nat) : (c.satSt f r n).dpll = c.dpll := setSt_dpll c f r _
@[simp] theorem satSt_twin (c : Chip) (f : Fld) (r n : Nat) : (c.satSt f r n).twin = c.twin := setSt_twin c f r _
@[simp] theorem satSt_pow (c : Chip) (f : Fld) (r n : Nat) : (c.satSt f r n).pow = c.pow := setSt_pow c f r _
@[simp] theorem satSt_qramFixed (c : Chip) (f : Fld) (r n : Nat) : (c.satSt f r n).qramFixed = c.qramFixed := setSt_qramFixed c f r _
@[simp] theorem satSt_done (c : Chip) (f : Fld) (r n : Nat) : (c.satSt f r n).done = c.done := setSt_done c f r _
@[simp] theorem satSt_free (c : Chip) (f : Fld) (r n : Nat) : (c.satSt f r n).free = c.free := setSt_free c f r _
@[simp] theorem satSt_heath_staged (c : Chip) (f : Fld) (r n : Nat) : (c.satSt f r n).heath.staged = c.heath.staged := setSt_heath_staged c f r _
@[simp] theorem satSt_heath_live (c : Chip) (f : Fld) (r n : Nat) : (c.satSt f r n).heath.live = c.heath.live := setSt_heath_live c f r _
@[simp] theorem satSt_heath_statusEnd (c : Chip) (f : Fld) (r n : Nat) : (c.satSt f r n).heath.statusEnd = c.heath.statusEnd := setSt_heath_statusEnd c f r _
@[simp] theorem satSt_heath_snap (c : Chip) (f : Fld) (r n : Nat) : (c.satSt f r n).heath.snap = c.heath.snap := setSt_heath_snap c f r _
@[simp] theorem satSt_heath_recEnd (c : Chip) (f : Fld) (r n : Nat) : (c.satSt f r n).heath.recEnd = c.heath.recEnd := setSt_heath_recEnd c f r _
@[simp] theorem satSt_heath_standing (c : Chip) (f : Fld) (r n : Nat) : (c.satSt f r n).heath.standing = c.heath.standing := setSt_heath_standing c f r _
@[simp] theorem satSt_heath_upsets (c : Chip) (f : Fld) (r n : Nat) : (c.satSt f r n).heath.upsets = c.heath.upsets := setSt_heath_upsets c f r _
@[simp] theorem satSt_heath_fixedNow (c : Chip) (f : Fld) (r n : Nat) : (c.satSt f r n).heath.fixedNow = c.heath.fixedNow := setSt_heath_fixedNow c f r _
@[simp] theorem lv_satSt (c : Chip) (f : Fld) (r n : Nat) (g : Fld) (q : Nat) : (c.satSt f r n).lv g q = c.lv g q := lv_setSt c f r _ g q
@[simp] theorem sg_satSt (c : Chip) (f : Fld) (r n : Nat) (g : Fld) (q : Nat) : (c.satSt f r n).sg g q = c.sg g q := sg_setSt c f r _ g q
@[simp] theorem on_satSt (c : Chip) (f : Fld) (r n : Nat) (g : Fld) (q : Nat) : (c.satSt f r n).on g q = c.on g q := on_setSt c f r _ g q
theorem satSt_wf (c : Chip) (f : Fld) (r n : Nat) (h : c.heath.status.wf = true) : (c.satSt f r n).heath.status.wf = true := setSt_wf c f r _ h

@[simp] theorem markEvent_boot (c : Chip) (a : Nat) (w : Word) : (c.markEvent a w).boot = c.boot := rfl
@[simp] theorem markEvent_port (c : Chip) (a : Nat) (w : Word) : (c.markEvent a w).port = c.port := rfl
@[simp] theorem markEvent_win (c : Chip) (a : Nat) (w : Word) : (c.markEvent a w).win = c.win := rfl
@[simp] theorem markEvent_dir (c : Chip) (a : Nat) (w : Word) : (c.markEvent a w).dir = c.dir := rfl
@[simp] theorem markEvent_col (c : Chip) (a : Nat) (w : Word) : (c.markEvent a w).col = c.col := rfl
@[simp] theorem markEvent_que (c : Chip) (a : Nat) (w : Word) : (c.markEvent a w).que = c.que := rfl
@[simp] theorem markEvent_upl (c : Chip) (a : Nat) (w : Word) : (c.markEvent a w).upl = c.upl := rfl
@[simp] theorem markEvent_trib (c : Chip) (a : Nat) (w : Word) : (c.markEvent a w).trib = c.trib := rfl
@[simp] theorem markEvent_sched (c : Chip) (a : Nat) (w : Word) : (c.markEvent a w).sched = c.sched := rfl
@[simp] theorem markEvent_gfp (c : Chip) (a : Nat) (w : Word) : (c.markEvent a w).gfp = c.gfp := rfl
@[simp] theorem markEvent_aps (c : Chip) (a : Nat) (w : Word) : (c.markEvent a w).aps = c.aps := rfl
@[simp] theorem markEvent_mead (c : Chip) (a : Nat) (w : Word) : (c.markEvent a w).mead = c.mead := rfl
@[simp] theorem markEvent_drop (c : Chip) (a : Nat) (w : Word) : (c.markEvent a w).drop = c.drop := rfl
@[simp] theorem markEvent_aud (c : Chip) (a : Nat) (w : Word) : (c.markEvent a w).aud = c.aud := rfl
@[simp] theorem markEvent_tim (c : Chip) (a : Nat) (w : Word) : (c.markEvent a w).tim = c.tim := rfl
@[simp] theorem markEvent_dpll (c : Chip) (a : Nat) (w : Word) : (c.markEvent a w).dpll = c.dpll := rfl
@[simp] theorem markEvent_twin (c : Chip) (a : Nat) (w : Word) : (c.markEvent a w).twin = c.twin := rfl
@[simp] theorem markEvent_pow (c : Chip) (a : Nat) (w : Word) : (c.markEvent a w).pow = c.pow := rfl
@[simp] theorem markEvent_qramFixed (c : Chip) (a : Nat) (w : Word) : (c.markEvent a w).qramFixed = c.qramFixed := rfl
@[simp] theorem markEvent_done (c : Chip) (a : Nat) (w : Word) : (c.markEvent a w).done = c.done := rfl
@[simp] theorem markEvent_free (c : Chip) (a : Nat) (w : Word) : (c.markEvent a w).free = c.free := rfl
@[simp] theorem markEvent_heath_staged (c : Chip) (a : Nat) (w : Word) : (c.markEvent a w).heath.staged = c.heath.staged := rfl
@[simp] theorem markEvent_heath_live (c : Chip) (a : Nat) (w : Word) : (c.markEvent a w).heath.live = c.heath.live := rfl
@[simp] theorem markEvent_heath_status (c : Chip) (a : Nat) (w : Word) : (c.markEvent a w).heath.status = c.heath.status := rfl
@[simp] theorem markEvent_heath_statusEnd (c : Chip) (a : Nat) (w : Word) : (c.markEvent a w).heath.statusEnd = c.heath.statusEnd := rfl
@[simp] theorem markEvent_heath_snap (c : Chip) (a : Nat) (w : Word) : (c.markEvent a w).heath.snap = c.heath.snap := rfl
@[simp] theorem markEvent_heath_recEnd (c : Chip) (a : Nat) (w : Word) : (c.markEvent a w).heath.recEnd = c.heath.recEnd := rfl
@[simp] theorem markEvent_heath_standing (c : Chip) (a : Nat) (w : Word) : (c.markEvent a w).heath.standing = c.heath.standing := rfl
@[simp] theorem markEvent_heath_upsets (c : Chip) (a : Nat) (w : Word) : (c.markEvent a w).heath.upsets = c.heath.upsets := rfl
@[simp] theorem markEvent_heath_fixedNow (c : Chip) (a : Nat) (w : Word) : (c.markEvent a w).heath.fixedNow = c.heath.fixedNow := rfl
@[simp] theorem lv_markEvent (c : Chip) (a : Nat) (w : Word) (g : Fld) (q : Nat) : (c.markEvent a w).lv g q = c.lv g q := rfl
@[simp] theorem sg_markEvent (c : Chip) (a : Nat) (w : Word) (g : Fld) (q : Nat) : (c.markEvent a w).sg g q = c.sg g q := rfl
@[simp] theorem st_markEvent (c : Chip) (a : Nat) (w : Word) (g : Fld) (q : Nat) : (c.markEvent a w).st g q = c.st g q := rfl
@[simp] theorem on_markEvent (c : Chip) (a : Nat) (w : Word) (g : Fld) (q : Nat) : (c.markEvent a w).on g q = c.on g q := rfl

@[simp] theorem orSt_boot (c : Chip) (f : Fld) (r n : Nat) : (c.orSt f r n).boot = c.boot := (markEvent_boot _ _ _).trans (setSt_boot c f r _)
@[simp] theorem orSt_port (c : Chip) (f : Fld) (r n : Nat) : (c.orSt f r n).port = c.port := (markEvent_port _ _ _).trans (setSt_port c f r _)
@[simp] theorem orSt_win (c : Chip) (f : Fld) (r n : Nat) : (c.orSt f r n).win = c.win := (markEvent_win _ _ _).trans (setSt_win c f r _)
@[simp] theorem orSt_dir (c : Chip) (f : Fld) (r n : Nat) : (c.orSt f r n).dir = c.dir := (markEvent_dir _ _ _).trans (setSt_dir c f r _)
@[simp] theorem orSt_col (c : Chip) (f : Fld) (r n : Nat) : (c.orSt f r n).col = c.col := (markEvent_col _ _ _).trans (setSt_col c f r _)
@[simp] theorem orSt_que (c : Chip) (f : Fld) (r n : Nat) : (c.orSt f r n).que = c.que := (markEvent_que _ _ _).trans (setSt_que c f r _)
@[simp] theorem orSt_upl (c : Chip) (f : Fld) (r n : Nat) : (c.orSt f r n).upl = c.upl := (markEvent_upl _ _ _).trans (setSt_upl c f r _)
@[simp] theorem orSt_trib (c : Chip) (f : Fld) (r n : Nat) : (c.orSt f r n).trib = c.trib := (markEvent_trib _ _ _).trans (setSt_trib c f r _)
@[simp] theorem orSt_sched (c : Chip) (f : Fld) (r n : Nat) : (c.orSt f r n).sched = c.sched := (markEvent_sched _ _ _).trans (setSt_sched c f r _)
@[simp] theorem orSt_gfp (c : Chip) (f : Fld) (r n : Nat) : (c.orSt f r n).gfp = c.gfp := (markEvent_gfp _ _ _).trans (setSt_gfp c f r _)
@[simp] theorem orSt_aps (c : Chip) (f : Fld) (r n : Nat) : (c.orSt f r n).aps = c.aps := (markEvent_aps _ _ _).trans (setSt_aps c f r _)
@[simp] theorem orSt_mead (c : Chip) (f : Fld) (r n : Nat) : (c.orSt f r n).mead = c.mead := (markEvent_mead _ _ _).trans (setSt_mead c f r _)
@[simp] theorem orSt_drop (c : Chip) (f : Fld) (r n : Nat) : (c.orSt f r n).drop = c.drop := (markEvent_drop _ _ _).trans (setSt_drop c f r _)
@[simp] theorem orSt_aud (c : Chip) (f : Fld) (r n : Nat) : (c.orSt f r n).aud = c.aud := (markEvent_aud _ _ _).trans (setSt_aud c f r _)
@[simp] theorem orSt_tim (c : Chip) (f : Fld) (r n : Nat) : (c.orSt f r n).tim = c.tim := (markEvent_tim _ _ _).trans (setSt_tim c f r _)
@[simp] theorem orSt_dpll (c : Chip) (f : Fld) (r n : Nat) : (c.orSt f r n).dpll = c.dpll := (markEvent_dpll _ _ _).trans (setSt_dpll c f r _)
@[simp] theorem orSt_twin (c : Chip) (f : Fld) (r n : Nat) : (c.orSt f r n).twin = c.twin := (markEvent_twin _ _ _).trans (setSt_twin c f r _)
@[simp] theorem orSt_pow (c : Chip) (f : Fld) (r n : Nat) : (c.orSt f r n).pow = c.pow := (markEvent_pow _ _ _).trans (setSt_pow c f r _)
@[simp] theorem orSt_qramFixed (c : Chip) (f : Fld) (r n : Nat) : (c.orSt f r n).qramFixed = c.qramFixed := (markEvent_qramFixed _ _ _).trans (setSt_qramFixed c f r _)
@[simp] theorem orSt_done (c : Chip) (f : Fld) (r n : Nat) : (c.orSt f r n).done = c.done := (markEvent_done _ _ _).trans (setSt_done c f r _)
@[simp] theorem orSt_free (c : Chip) (f : Fld) (r n : Nat) : (c.orSt f r n).free = c.free := (markEvent_free _ _ _).trans (setSt_free c f r _)
@[simp] theorem orSt_heath_staged (c : Chip) (f : Fld) (r n : Nat) : (c.orSt f r n).heath.staged = c.heath.staged :=
  (markEvent_heath_staged _ _ _).trans (setSt_heath_staged c f r _)
@[simp] theorem orSt_heath_live (c : Chip) (f : Fld) (r n : Nat) : (c.orSt f r n).heath.live = c.heath.live :=
  (markEvent_heath_live _ _ _).trans (setSt_heath_live c f r _)
theorem orSt_heath_status (c : Chip) (f : Fld) (r n : Nat) : (c.orSt f r n).heath.status = (c.setSt f r (c.st f r ||| n)).heath.status :=
  markEvent_heath_status _ _ _
@[simp] theorem orSt_heath_statusEnd (c : Chip) (f : Fld) (r n : Nat) : (c.orSt f r n).heath.statusEnd = c.heath.statusEnd :=
  (markEvent_heath_statusEnd _ _ _).trans (setSt_heath_statusEnd c f r _)
@[simp] theorem orSt_heath_snap (c : Chip) (f : Fld) (r n : Nat) : (c.orSt f r n).heath.snap = c.heath.snap :=
  (markEvent_heath_snap _ _ _).trans (setSt_heath_snap c f r _)
@[simp] theorem orSt_heath_recEnd (c : Chip) (f : Fld) (r n : Nat) : (c.orSt f r n).heath.recEnd = c.heath.recEnd :=
  (markEvent_heath_recEnd _ _ _).trans (setSt_heath_recEnd c f r _)
@[simp] theorem orSt_heath_standing (c : Chip) (f : Fld) (r n : Nat) : (c.orSt f r n).heath.standing = c.heath.standing :=
  (markEvent_heath_standing _ _ _).trans (setSt_heath_standing c f r _)
@[simp] theorem orSt_heath_upsets (c : Chip) (f : Fld) (r n : Nat) : (c.orSt f r n).heath.upsets = c.heath.upsets :=
  (markEvent_heath_upsets _ _ _).trans (setSt_heath_upsets c f r _)
@[simp] theorem orSt_heath_fixedNow (c : Chip) (f : Fld) (r n : Nat) : (c.orSt f r n).heath.fixedNow = c.heath.fixedNow :=
  (markEvent_heath_fixedNow _ _ _).trans (setSt_heath_fixedNow c f r _)
@[simp] theorem lv_orSt (c : Chip) (f : Fld) (r n : Nat) (g : Fld) (q : Nat) : (c.orSt f r n).lv g q = c.lv g q :=
  (lv_markEvent _ _ _ g q).trans (lv_setSt c f r _ g q)
@[simp] theorem sg_orSt (c : Chip) (f : Fld) (r n : Nat) (g : Fld) (q : Nat) : (c.orSt f r n).sg g q = c.sg g q :=
  (sg_markEvent _ _ _ g q).trans (sg_setSt c f r _ g q)
@[simp] theorem on_orSt (c : Chip) (f : Fld) (r n : Nat) (g : Fld) (q : Nat) : (c.orSt f r n).on g q = c.on g q :=
  (on_markEvent _ _ _ g q).trans (on_setSt c f r _ g q)
theorem orSt_wf (c : Chip) (f : Fld) (r n : Nat) (h : c.heath.status.wf = true) : (c.orSt f r n).heath.status.wf = true := by
  rw [orSt_heath_status]; exact setSt_wf c f r _ h

/-- A status field reads as it was set. -/
theorem st_setSt_same (c : Chip) (f : Fld) (r v : Nat) (h : c.heath.status.wf = true) (hf : f.lo + f.width ≤ 32) :
    (c.setSt f r v).st f r = v % 2 ^ f.width := by
  rw [st_setSt]; exact Bank.fld_setFld_same _ _ _ _ h hf
/-- A status field in another word reads as before. -/
theorem st_setSt_word (c : Chip) (f g : Fld) (r q v : Nat) (h : g.addr q ≠ f.addr r) : (c.setSt f r v).st g q = c.st g q := by
  rw [st_setSt]; exact Bank.fld_setFld_word _ _ _ _ _ _ h
/-- A status field beside it reads as before. -/
theorem st_setSt_beside (c : Chip) (f g : Fld) (r q v : Nat) (hb : c.heath.status.wf = true) (hg : g.lo + g.width ≤ 32)
    (h : g.lo + g.width ≤ f.lo ∨ f.lo + f.width ≤ g.lo) : (c.setSt f r v).st g q = c.st g q := by
  rw [st_setSt]; exact Bank.fld_setFld_beside _ _ _ _ _ _ hb hg h
/-- A counter that wraps. -/
theorem st_addSt_same (c : Chip) (f : Fld) (r n : Nat) (h : c.heath.status.wf = true) (hf : f.lo + f.width ≤ 32) :
    (c.addSt f r n).st f r = (c.st f r + n) % 2 ^ f.width := by
  unfold addSt
  rw [st_setSt_same c f r _ h hf, wrapAdd, Nat.mod_mod]
/-- Cause bits that were set stay, and the new ones come to them. -/
theorem st_orSt_same (c : Chip) (f : Fld) (r n : Nat) (h : c.heath.status.wf = true) (hf : f.lo + f.width ≤ 32) :
    (c.orSt f r n).st f r = (c.st f r ||| n) % 2 ^ f.width :=
  (st_markEvent _ _ _ f r).trans (st_setSt_same c f r _ h hf)

/-! ### Cause bits and interrupt causes -/

@[simp] theorem icause_boot (c : Chip) (k : Clock) (n : Nat) : (c.icause k n).boot = c.boot := onWin_boot c _
@[simp] theorem icause_port (c : Chip) (k : Clock) (n : Nat) : (c.icause k n).port = c.port := onWin_port c _
@[simp] theorem icause_dir (c : Chip) (k : Clock) (n : Nat) : (c.icause k n).dir = c.dir := onWin_dir c _
@[simp] theorem icause_heath (c : Chip) (k : Clock) (n : Nat) : (c.icause k n).heath = c.heath := onWin_heath c _
@[simp] theorem icause_col (c : Chip) (k : Clock) (n : Nat) : (c.icause k n).col = c.col := onWin_col c _
@[simp] theorem icause_que (c : Chip) (k : Clock) (n : Nat) : (c.icause k n).que = c.que := onWin_que c _
@[simp] theorem icause_upl (c : Chip) (k : Clock) (n : Nat) : (c.icause k n).upl = c.upl := onWin_upl c _
@[simp] theorem icause_trib (c : Chip) (k : Clock) (n : Nat) : (c.icause k n).trib = c.trib := onWin_trib c _
@[simp] theorem icause_sched (c : Chip) (k : Clock) (n : Nat) : (c.icause k n).sched = c.sched := onWin_sched c _
@[simp] theorem icause_gfp (c : Chip) (k : Clock) (n : Nat) : (c.icause k n).gfp = c.gfp := onWin_gfp c _
@[simp] theorem icause_aps (c : Chip) (k : Clock) (n : Nat) : (c.icause k n).aps = c.aps := onWin_aps c _
@[simp] theorem icause_mead (c : Chip) (k : Clock) (n : Nat) : (c.icause k n).mead = c.mead := onWin_mead c _
@[simp] theorem icause_drop (c : Chip) (k : Clock) (n : Nat) : (c.icause k n).drop = c.drop := onWin_drop c _
@[simp] theorem icause_aud (c : Chip) (k : Clock) (n : Nat) : (c.icause k n).aud = c.aud := onWin_aud c _
@[simp] theorem icause_tim (c : Chip) (k : Clock) (n : Nat) : (c.icause k n).tim = c.tim := onWin_tim c _
@[simp] theorem icause_dpll (c : Chip) (k : Clock) (n : Nat) : (c.icause k n).dpll = c.dpll := onWin_dpll c _
@[simp] theorem icause_twin (c : Chip) (k : Clock) (n : Nat) : (c.icause k n).twin = c.twin := onWin_twin c _
@[simp] theorem icause_pow (c : Chip) (k : Clock) (n : Nat) : (c.icause k n).pow = c.pow := onWin_pow c _
@[simp] theorem icause_qramFixed (c : Chip) (k : Clock) (n : Nat) : (c.icause k n).qramFixed = c.qramFixed := onWin_qramFixed c _
@[simp] theorem icause_done (c : Chip) (k : Clock) (n : Nat) : (c.icause k n).done = c.done := onWin_done c _
@[simp] theorem icause_free (c : Chip) (k : Clock) (n : Nat) : (c.icause k n).free = c.free := onWin_free c _
@[simp] theorem lv_onWin (c : Chip) (w : Window → Window) (f : Fld) (r : Nat) : (c.onWin w).lv f r = c.lv f r := rfl
@[simp] theorem sg_onWin (c : Chip) (w : Window → Window) (f : Fld) (r : Nat) : (c.onWin w).sg f r = c.sg f r := rfl
@[simp] theorem on_onWin (c : Chip) (w : Window → Window) (f : Fld) (r : Nat) : (c.onWin w).on f r = c.on f r := rfl
@[simp] theorem st_onWin (c : Chip) (w : Window → Window) (f : Fld) (r : Nat) : (c.onWin w).st f r = c.st f r := rfl
@[simp] theorem lv_icause (c : Chip) (k : Clock) (n : Nat) (f : Fld) (r : Nat) : (c.icause k n).lv f r = c.lv f r := lv_onWin c _ f r
@[simp] theorem sg_icause (c : Chip) (k : Clock) (n : Nat) (f : Fld) (r : Nat) : (c.icause k n).sg f r = c.sg f r := sg_onWin c _ f r
@[simp] theorem on_icause (c : Chip) (k : Clock) (n : Nat) (f : Fld) (r : Nat) : (c.icause k n).on f r = c.on f r := on_onWin c _ f r
@[simp] theorem st_icause (c : Chip) (k : Clock) (n : Nat) (f : Fld) (r : Nat) : (c.icause k n).st f r = c.st f r := st_onWin c _ f r
/-- An interrupt cause bit that is set. -/
theorem icause_bits (c : Chip) (k : Clock) (n : Nat) : (c.icause k n).win.icause = c.win.icause ||| word (2 ^ n) := by
  rw [icause, onWin_win]; rfl

/-- Everything that setting cause bits can do: the bits come to the block's cause field, and an enabled one is a cause event. -/
theorem cause_cases (c : Chip) (k : Clock) (g : CauseReg) (row bits : Nat) :
    c.cause k g row bits = c.orSt g.cause row bits ∨ c.cause k g row bits = (c.orSt g.cause row bits).icause k g.icause := by
  unfold cause
  dsimp only
  split
  · exact .inl rfl
  · exact .inr rfl

@[simp] theorem cause_boot (c : Chip) (k : Clock) (g : CauseReg) (row bits : Nat) : (c.cause k g row bits).boot = c.boot := by
  rcases cause_cases c k g row bits with h | h <;> simp [h]
@[simp] theorem cause_port (c : Chip) (k : Clock) (g : CauseReg) (row bits : Nat) : (c.cause k g row bits).port = c.port := by
  rcases cause_cases c k g row bits with h | h <;> simp [h]
@[simp] theorem cause_dir (c : Chip) (k : Clock) (g : CauseReg) (row bits : Nat) : (c.cause k g row bits).dir = c.dir := by
  rcases cause_cases c k g row bits with h | h <;> simp [h]
@[simp] theorem cause_col (c : Chip) (k : Clock) (g : CauseReg) (row bits : Nat) : (c.cause k g row bits).col = c.col := by
  rcases cause_cases c k g row bits with h | h <;> simp [h]
@[simp] theorem cause_que (c : Chip) (k : Clock) (g : CauseReg) (row bits : Nat) : (c.cause k g row bits).que = c.que := by
  rcases cause_cases c k g row bits with h | h <;> simp [h]
@[simp] theorem cause_upl (c : Chip) (k : Clock) (g : CauseReg) (row bits : Nat) : (c.cause k g row bits).upl = c.upl := by
  rcases cause_cases c k g row bits with h | h <;> simp [h]
@[simp] theorem cause_trib (c : Chip) (k : Clock) (g : CauseReg) (row bits : Nat) : (c.cause k g row bits).trib = c.trib := by
  rcases cause_cases c k g row bits with h | h <;> simp [h]
@[simp] theorem cause_sched (c : Chip) (k : Clock) (g : CauseReg) (row bits : Nat) : (c.cause k g row bits).sched = c.sched := by
  rcases cause_cases c k g row bits with h | h <;> simp [h]
@[simp] theorem cause_gfp (c : Chip) (k : Clock) (g : CauseReg) (row bits : Nat) : (c.cause k g row bits).gfp = c.gfp := by
  rcases cause_cases c k g row bits with h | h <;> simp [h]
@[simp] theorem cause_aps (c : Chip) (k : Clock) (g : CauseReg) (row bits : Nat) : (c.cause k g row bits).aps = c.aps := by
  rcases cause_cases c k g row bits with h | h <;> simp [h]
@[simp] theorem cause_mead (c : Chip) (k : Clock) (g : CauseReg) (row bits : Nat) : (c.cause k g row bits).mead = c.mead := by
  rcases cause_cases c k g row bits with h | h <;> simp [h]
@[simp] theorem cause_drop (c : Chip) (k : Clock) (g : CauseReg) (row bits : Nat) : (c.cause k g row bits).drop = c.drop := by
  rcases cause_cases c k g row bits with h | h <;> simp [h]
@[simp] theorem cause_aud (c : Chip) (k : Clock) (g : CauseReg) (row bits : Nat) : (c.cause k g row bits).aud = c.aud := by
  rcases cause_cases c k g row bits with h | h <;> simp [h]
@[simp] theorem cause_tim (c : Chip) (k : Clock) (g : CauseReg) (row bits : Nat) : (c.cause k g row bits).tim = c.tim := by
  rcases cause_cases c k g row bits with h | h <;> simp [h]
@[simp] theorem cause_dpll (c : Chip) (k : Clock) (g : CauseReg) (row bits : Nat) : (c.cause k g row bits).dpll = c.dpll := by
  rcases cause_cases c k g row bits with h | h <;> simp [h]
@[simp] theorem cause_twin (c : Chip) (k : Clock) (g : CauseReg) (row bits : Nat) : (c.cause k g row bits).twin = c.twin := by
  rcases cause_cases c k g row bits with h | h <;> simp [h]
@[simp] theorem cause_pow (c : Chip) (k : Clock) (g : CauseReg) (row bits : Nat) : (c.cause k g row bits).pow = c.pow := by
  rcases cause_cases c k g row bits with h | h <;> simp [h]
@[simp] theorem cause_qramFixed (c : Chip) (k : Clock) (g : CauseReg) (row bits : Nat) : (c.cause k g row bits).qramFixed = c.qramFixed := by
  rcases cause_cases c k g row bits with h | h <;> simp [h]
@[simp] theorem cause_done (c : Chip) (k : Clock) (g : CauseReg) (row bits : Nat) : (c.cause k g row bits).done = c.done := by
  rcases cause_cases c k g row bits with h | h <;> simp [h]
@[simp] theorem cause_free (c : Chip) (k : Clock) (g : CauseReg) (row bits : Nat) : (c.cause k g row bits).free = c.free := by
  rcases cause_cases c k g row bits with h | h <;> simp [h]
@[simp] theorem cause_heath_staged (c : Chip) (k : Clock) (g : CauseReg) (row bits : Nat) : (c.cause k g row bits).heath.staged = c.heath.staged := by
  rcases cause_cases c k g row bits with h | h <;> simp [h]
@[simp] theorem cause_heath_live (c : Chip) (k : Clock) (g : CauseReg) (row bits : Nat) : (c.cause k g row bits).heath.live = c.heath.live := by
  rcases cause_cases c k g row bits with h | h <;> simp [h]
@[simp] theorem cause_heath_statusEnd (c : Chip) (k : Clock) (g : CauseReg) (row bits : Nat) : (c.cause k g row bits).heath.statusEnd = c.heath.statusEnd := by
  rcases cause_cases c k g row bits with h | h <;> simp [h]
@[simp] theorem cause_heath_snap (c : Chip) (k : Clock) (g : CauseReg) (row bits : Nat) : (c.cause k g row bits).heath.snap = c.heath.snap := by
  rcases cause_cases c k g row bits with h | h <;> simp [h]
@[simp] theorem cause_heath_recEnd (c : Chip) (k : Clock) (g : CauseReg) (row bits : Nat) : (c.cause k g row bits).heath.recEnd = c.heath.recEnd := by
  rcases cause_cases c k g row bits with h | h <;> simp [h]
@[simp] theorem cause_heath_standing (c : Chip) (k : Clock) (g : CauseReg) (row bits : Nat) : (c.cause k g row bits).heath.standing = c.heath.standing := by
  rcases cause_cases c k g row bits with h | h <;> simp [h]
@[simp] theorem cause_heath_upsets (c : Chip) (k : Clock) (g : CauseReg) (row bits : Nat) : (c.cause k g row bits).heath.upsets = c.heath.upsets := by
  rcases cause_cases c k g row bits with h | h <;> simp [h]
@[simp] theorem cause_heath_fixedNow (c : Chip) (k : Clock) (g : CauseReg) (row bits : Nat) : (c.cause k g row bits).heath.fixedNow = c.heath.fixedNow := by
  rcases cause_cases c k g row bits with h | h <;> simp [h]
@[simp] theorem cause_status (c : Chip) (k : Clock) (g : CauseReg) (row bits : Nat) :
    (c.cause k g row bits).heath.status = (c.orSt g.cause row bits).heath.status := by
  rcases cause_cases c k g row bits with h | h <;> simp [h]
theorem cause_wf (c : Chip) (k : Clock) (g : CauseReg) (row bits : Nat) (h : c.heath.status.wf = true) :
    (c.cause k g row bits).heath.status.wf = true := by
  rw [cause_status]; exact orSt_wf c _ _ _ h
@[simp] theorem lv_cause (c : Chip) (k : Clock) (g : CauseReg) (row bits : Nat) (f : Fld) (r : Nat) :
    (c.cause k g row bits).lv f r = c.lv f r := by
  simp only [lv, cause_heath_live]
@[simp] theorem on_cause (c : Chip) (k : Clock) (g : CauseReg) (row bits : Nat) (f : Fld) (r : Nat) :
    (c.cause k g row bits).on f r = c.on f r := by
  simp only [on, lv_cause]
/-- An enabled cause bit sets the block's interrupt cause (R76). -/
theorem cause_icause (c : Chip) (k : Clock) (g : CauseReg) (row bits : Nat) (h : bits &&& c.lv g.en row ≠ 0) :
    (c.cause k g row bits).win.icause = c.win.icause ||| word (2 ^ g.icause) := by
  unfold cause
  simp only [lv_orSt, h, if_false, icause_bits, orSt_win]

end Chip

end Sys2Proof.Machine
end

