-- ==== Sys2Proof/Laws/Edge.lean ====
section
/-! SUPPORT. How the clock moves and what each form of a command does to the whole state. -/

namespace Sys2Proof.Machine
set_option Elab.async false

/-! ### The clock -/

namespace Clock

theorem idx_lt (k : Clock) : k.idx < 125000 := Nat.mod_lt _ (by decide)
theorem idx_le (k : Clock) : k.idx ≤ Config.lastIdx := Nat.le_of_lt_succ k.idx_lt

@[simp] theorem elapse_ticks (k : Clock) (n : Nat) : (k.elapse n).ticks = k.ticks := rfl
@[simp] theorem elapse_sec (k : Clock) (n : Nat) : (k.elapse n).sec = k.sec := rfl
theorem elapse_ns (k : Clock) (n : Nat) : (k.elapse n).ns = k.ns + min n (124999 - k.idx) := rfl
theorem elapse_evc (k : Clock) (n : Nat) : (k.elapse n).evc = k.evc + min n (124999 - k.idx) := rfl

/-- Ordinary edges move the cycle index on, to the last one at most. -/
theorem elapse_idx (k : Clock) (n : Nat) : (k.elapse n).idx = min (k.idx + n) 124999 := by
  have h := k.idx_lt
  show (k.ns + min n (124999 - k.idx)) % 125000 = _
  have : k.idx = k.ns % 125000 := rfl
  omega
/-- Ordinary edges stay in the tick. -/
theorem elapse_tickSec (k : Clock) (n : Nat) : (k.elapse n).tickSec = k.tickSec := by
  have h := k.idx_lt
  show (k.ns + min n (124999 - k.idx)) / 125000 = k.ns / 125000
  have : k.idx = k.ns % 125000 := rfl
  omega

theorem onGrid_elapse (k : Clock) (n : Nat) (h : k.onGrid) : (k.elapse n).onGrid := by
  obtain ⟨h1, h2, h3⟩ := h
  refine ⟨?_, h2, ?_⟩
  · have h' := k.idx_lt
    show k.ns + min n (124999 - k.idx) < 1000000000
    have e : k.idx = k.ns % 125000 := rfl
    have h1' : k.ns < 1000000000 := h1
    omega
  · rw [elapse_tickSec]; exact h3

/-- Nanoseconds and seconds at the edge that begins a tick. -/
theorem nextTick_ns (k : Clock) :
    (k.ns + 1 < 1000000000 ∧ k.nextTick.ns = k.ns + 1 ∧ k.nextTick.sec = k.sec) ∨
    (1000000000 ≤ k.ns + 1 ∧ k.nextTick.ns = k.ns + 1 - 1000000000 ∧ k.nextTick.sec = (k.sec + 1) % 2 ^ 48) := by
  by_cases h : k.ns + 1 ≥ Config.secNs
  · exact .inr ⟨h, if_pos h, if_pos h⟩
  · exact .inl ⟨Nat.lt_of_not_le h, if_neg h, if_neg h⟩

/-- The edge after cycle index 124,999 begins a tick. -/
theorem nextTick_idx (k : Clock) (h : k.onGrid) (hi : k.idx = 124999) : k.nextTick.idx = 0 := by
  obtain ⟨h1, -, -⟩ := h
  have h1' : k.ns < 1000000000 := h1
  have e : k.ns % 125000 = 124999 := hi
  have h0 := nextTick_ns k
  show k.nextTick.ns % 125000 = 0
  omega

@[simp] theorem nextTick_ticks (k : Clock) : k.nextTick.ticks = k.ticks + 1 := rfl
@[simp] theorem nextTick_evc (k : Clock) : k.nextTick.evc = k.evc + 1 := rfl

theorem onGrid_nextTick (k : Clock) (h : k.onGrid) (hi : k.idx = 124999) : k.nextTick.onGrid := by
  obtain ⟨h1, h2, h3⟩ := h
  have h1' : k.ns < 1000000000 := h1
  have h3' : k.ticks % 8 = k.ns / 125000 % 8 := h3
  have e : k.ns % 125000 = 124999 := hi
  have h0 := nextTick_ns k
  refine ⟨?_, ?_, ?_⟩
  · show k.nextTick.ns < 1000000000
    omega
  · rcases h0 with ⟨-, -, hs⟩ | ⟨-, -, hs⟩ <;> rw [hs]
    · exact h2
    · exact Nat.mod_lt _ (by decide)
  · show (k.ticks + 1) % 8 = k.nextTick.ns / 125000 % 8
    omega

/-- A step of whole milliseconds from a boundary edge leaves it a boundary edge. -/
theorem stepMs_idx (k : Clock) (m : Int) (h : k.idx = 0) : (k.stepMs m).idx = 0 := by
  have e : k.ns % 125000 = 0 := h
  show (((k.sec * 1000000000 + k.ns : Nat) : Int) + m * 1000000).toNat % 1000000000 % 125000 = 0
  omega
/-- A step on a superframe boundary stays on the grid (R23). -/
theorem onGrid_stepMs (k : Clock) (m : Int) (h : k.onGrid) (hs : k.superframe = true) : (k.stepMs m).onGrid := by
  obtain ⟨-, -, h3⟩ := h
  simp only [superframe, Bool.and_eq_true, beq_iff_eq] at hs
  have e : k.ns % 125000 = 0 := hs.1
  have h3' : k.ticks % 8 = k.ns / 125000 % 8 := h3
  have h8 : k.ticks % 8 = 0 := hs.2
  refine ⟨Nat.mod_lt _ (by decide), Nat.mod_lt _ (by decide), ?_⟩
  show k.ticks % 8 = (((k.sec * 1000000000 + k.ns : Nat) : Int) + m * 1000000).toNat % 1000000000 / 125000 % 8
  omega

end Clock

/-! ### Forms of a command -/

namespace State

theorem act_running (s : State) (f : Clock → Chip → Chip) (h : s.chip.running = true) : s.act f = { s with chip := f s.clk s.chip } := by
  unfold act; rw [if_pos h]
theorem act_stopped (s : State) (f : Clock → Chip → Chip) (h : s.chip.running = false) : s.act f = s := by
  unfold act; simp [h]
@[simp] theorem act_pending (s : State) (f : Clock → Chip → Chip) : (s.act f).pending = s.pending := by
  unfold act; split <;> rfl
@[simp] theorem act_clk (s : State) (f : Clock → Chip → Chip) : (s.act f).clk = s.clk := by
  unfold act; split <;> rfl

@[simp] theorem applyStep_pending (s : State) : s.applyStep.pending = s.pending := by unfold applyStep; split <;> rfl
theorem applyStep_clk (s : State) : s.applyStep.clk = s.clk ∨ ∃ m, s.applyStep.clk = s.clk.stepMs m := by
  unfold applyStep; split
  · exact .inl rfl
  · exact .inr ⟨_, rfl⟩
/-- What a step does to the state: nothing, or a step of local time and some work on the chip. -/
theorem stepBoundary_form (s : State) :
    s.stepBoundary = s ∨ s.clk.superframe = true ∧ ∃ c, s.stepBoundary = { s.applyStep with chip := c } := by
  unfold stepBoundary; split
  · rename_i h
    right; refine ⟨h.2.1, ?_⟩
    dsimp only
    split
    · exact ⟨_, rfl⟩
    · exact ⟨_, rfl⟩
  · exact .inl rfl
@[simp] theorem stepBoundary_pending (s : State) : s.stepBoundary.pending = s.pending := by
  rcases stepBoundary_form s with e | ⟨-, c, e⟩ <;> rw [e]
  exact applyStep_pending s
/-- A step leaves the clock, but for local time on a superframe boundary. -/
theorem stepBoundary_clk (s : State) : s.stepBoundary.clk = s.clk ∨ s.clk.superframe = true ∧ ∃ m, s.stepBoundary.clk = s.clk.stepMs m := by
  rcases stepBoundary_form s with e | ⟨h, c, e⟩ <;> rw [e]
  · exact .inl rfl
  · rcases applyStep_clk s with g | ⟨m, g⟩
    · exact .inl g
    · exact .inr ⟨h, m, g⟩
@[simp] theorem stepBoundary_ticks (s : State) : s.stepBoundary.clk.ticks = s.clk.ticks := by
  rcases stepBoundary_clk s with e | ⟨-, m, e⟩ <;> rw [e] <;> rfl
@[simp] theorem stepBoundary_evc (s : State) : s.stepBoundary.clk.evc = s.clk.evc := by
  rcases stepBoundary_clk s with e | ⟨-, m, e⟩ <;> rw [e] <;> rfl
@[simp] theorem boundaryDone_pending (s : State) : s.boundaryDone.pending = s.pending := by
  unfold boundaryDone; split
  · exact stepBoundary_pending _
  · rfl
@[simp] theorem boundaryDone_ticks (s : State) : s.boundaryDone.clk.ticks = s.clk.ticks := by
  unfold boundaryDone; split
  · exact stepBoundary_ticks _
  · rfl
@[simp] theorem boundaryDone_evc (s : State) : s.boundaryDone.clk.evc = s.clk.evc := by
  unfold boundaryDone; split
  · exact stepBoundary_evc _
  · rfl
theorem boundaryDone_clk (s : State) : s.boundaryDone.clk = s.clk ∨ s.clk.superframe = true ∧ ∃ m, s.boundaryDone.clk = s.clk.stepMs m := by
  unfold boundaryDone; split
  · exact stepBoundary_clk { s with chip := s.chip.boundaryWork s.clk }
  · exact .inl rfl
/-- On an edge that is no boundary there is no boundary's work. -/
theorem boundaryDone_of_idx (s : State) (h : s.clk.idx ≠ 0) : s.boundaryDone = s := by
  unfold boundaryDone; rw [if_neg (fun e => h e.2)]
theorem boundaryDone_idx (s : State) : s.boundaryDone.clk.idx = s.clk.idx := by
  rcases boundaryDone_clk s with e | ⟨h, m, e⟩
  · rw [e]
  · rw [e]
    have h0 : s.clk.idx = 0 := by
      simp only [Clock.superframe, Bool.and_eq_true, beq_iff_eq] at h; exact h.1
    rw [h0]; exact Clock.stepMs_idx _ _ h0
theorem onGrid_boundaryDone (s : State) (h : s.clk.onGrid) : s.boundaryDone.clk.onGrid := by
  rcases boundaryDone_clk s with e | ⟨g, m, e⟩
  · rw [e]; exact h
  · rw [e]; exact Clock.onGrid_stepMs _ _ h g

@[simp] theorem depart_pending (s : State) : s.depart.pending = s.pending := by
  unfold depart; split
  · exact boundaryDone_pending s
  · rfl
theorem depart_clk (s : State) : s.depart.clk = if s.chip.running then s.boundaryDone.clk else s.clk := by
  unfold depart; split <;> rfl
@[simp] theorem depart_ticks (s : State) : s.depart.clk.ticks = s.clk.ticks := by
  rw [depart_clk]; split
  · exact boundaryDone_ticks s
  · rfl
@[simp] theorem depart_evc (s : State) : s.depart.clk.evc = s.clk.evc := by
  rw [depart_clk]; split
  · exact boundaryDone_evc s
  · rfl
@[simp] theorem depart_idx (s : State) : s.depart.clk.idx = s.clk.idx := by
  rw [depart_clk]; split
  · exact boundaryDone_idx s
  · rfl
theorem onGrid_depart (s : State) (h : s.clk.onGrid) : s.depart.clk.onGrid := by
  rw [depart_clk]; split
  · exact onGrid_boundaryDone s h
  · exact h

@[simp] theorem elapse_pending (s : State) (n : Nat) : (s.elapse n).pending = s.pending := by
  unfold elapse; split
  · rfl
  · exact depart_pending s
theorem elapse_zero (s : State) : s.elapse 0 = s := by unfold elapse; rw [if_pos rfl]
theorem elapse_clk (s : State) (n : Nat) (h : n ≠ 0) : (s.elapse n).clk = s.depart.clk.elapse n := by
  unfold elapse; rw [if_neg h]

@[simp] theorem toIdx_pending (s : State) (i : Nat) : (s.toIdx i).pending = s.pending := elapse_pending _ _
/-- Moving to a cycle index ahead arrives there; one already passed leaves the state as it is. -/
theorem toIdx_idx (s : State) (i : Nat) (h : i ≤ 124999) : (s.toIdx i).clk.idx = max s.clk.idx i := by
  unfold toIdx
  by_cases e : i - s.clk.idx = 0
  · rw [e, elapse_zero]; omega
  · rw [elapse_clk _ _ e, Clock.elapse_idx, depart_idx]
    have := s.clk.idx_lt
    omega
@[simp] theorem toIdx_ticks (s : State) (i : Nat) : (s.toIdx i).clk.ticks = s.clk.ticks := by
  unfold toIdx
  by_cases e : i - s.clk.idx = 0
  · rw [e, elapse_zero]
  · rw [elapse_clk _ _ e]; exact depart_ticks s
theorem toIdx_self (s : State) (i : Nat) (h : i ≤ s.clk.idx) : s.toIdx i = s := by
  unfold toIdx; rw [Nat.sub_eq_zero_of_le h, elapse_zero]
theorem onGrid_elapse (s : State) (n : Nat) (h : s.clk.onGrid) : (s.elapse n).clk.onGrid := by
  by_cases e : n = 0
  · rw [e, elapse_zero]; exact h
  · rw [elapse_clk _ _ e]; exact Clock.onGrid_elapse _ _ (onGrid_depart s h)
theorem onGrid_toIdx (s : State) (i : Nat) (h : s.clk.onGrid) : (s.toIdx i).clk.onGrid := onGrid_elapse s _ h

theorem actAt_running (s : State) (i : Nat) (f : Clock → Chip → Chip) (h : s.chip.running = true) :
    s.actAt i f = { s.toIdx i with chip := f (s.toIdx i).clk (s.toIdx i).chip } := by
  unfold actAt; rw [if_pos h]
@[simp] theorem actAt_pending (s : State) (i : Nat) (f : Clock → Chip → Chip) : (s.actAt i f).pending = s.pending := by
  unfold actAt; split
  · exact toIdx_pending s i
  · rfl
theorem onGrid_actAt (s : State) (i : Nat) (f : Clock → Chip → Chip) (h : s.clk.onGrid) : (s.actAt i f).clk.onGrid := by
  unfold actAt; split
  · exact onGrid_toIdx s i h
  · exact h

@[simp] theorem actBoundary_pending (s : State) (f : Clock → Chip → Chip) : (s.actBoundary f).pending = s.pending := by
  unfold actBoundary; split
  · exact act_pending s f
  · rfl
@[simp] theorem actBoundary_clk (s : State) (f : Clock → Chip → Chip) : (s.actBoundary f).clk = s.clk := by
  unfold actBoundary; split
  · exact act_clk s f
  · rfl
/-- A boundary command on a boundary of a running part. -/
theorem actBoundary_running (s : State) (f : Clock → Chip → Chip) (h : s.chip.running = true) (hi : s.clk.idx = 0) :
    s.actBoundary f = { s with chip := f s.clk s.chip } := by
  unfold actBoundary; rw [if_pos hi, act_running s f h]

@[simp] theorem inWindow_pending (s : State) (lo hi code : Nat) (f : Clock → Chip → Chip) : (s.inWindow lo hi code f).pending = s.pending := by
  unfold inWindow; split
  · rfl
  · exact actAt_pending s _ _
theorem onGrid_inWindow (s : State) (lo hi code : Nat) (f : Clock → Chip → Chip) (h : s.clk.onGrid) :
    (s.inWindow lo hi code f).clk.onGrid := by
  unfold inWindow; split
  · exact h
  · exact onGrid_actAt s _ _ h
/-- Window work is done at the window's first index, or on the present edge inside it, and once. -/
theorem inWindow_fresh (s : State) (lo hi code : Nat) (f : Clock → Chip → Chip) (h : s.chip.running = true) (hi' : s.clk.idx ≤ hi)
    (hd : (s.toIdx lo).chip.done.contains code = false) :
    s.inWindow lo hi code f = { s.toIdx lo with
      chip := { f (s.toIdx lo).clk (s.toIdx lo).chip with done := code :: (s.toIdx lo).chip.done } } := by
  unfold inWindow
  rw [if_neg (by omega), actAt_running _ _ _ h]
  simp only [hd, Bool.false_eq_true, if_false]

end State

end Sys2Proof.Machine
end

