-- ==== Sys2Proof/Laws/Kept.lean ====
section
/-! SUPPORT. One lemma for each operation of the blocks: it keeps the configuration, the snapshot, start-up state and the port, and the
status bank stays canonical (`Chip.Keeps`).  The operations of the port, of commits, mirrors, resets and role changes that do not
are absent. -/

namespace Sys2Proof.Machine.Chip
set_option Elab.async false
set_option linter.unusedTactic false
set_option linter.unreachableTactic false
namespace Keeps
theorem refl (z : Chip) : Keeps z z := ⟨rfl, rfl, rfl, rfl, rfl, rfl, id⟩
theorem trans {a b c : Chip} (h : Keeps a b) (g : Keeps b c) : Keeps a c :=
  ⟨g.staged.trans h.staged, g.live.trans h.live, g.snap.trans h.snap, g.statusEnd.trans h.statusEnd, g.boot.trans h.boot,
   g.port.trans h.port, fun w => g.wf (h.wf w)⟩

/-! ### Closure -/
theorem ite {z a b : Chip} {p : Prop} [Decidable p] (ha : Keeps z a) (hb : Keeps z b) : Keeps z (if p then a else b) := by
  split <;> assumption
theorem iteElse {z a c : Chip} {p : Prop} [Decidable p] (h : Keeps z c) (ha : Keeps z c → Keeps z a) :
    Keeps z (if p then a else c) := ite (ha h) h
theorem foldl {z c : Chip} {α : Type} (l : List α) {f : Chip → α → Chip} (h : Keeps z c)
    (hf : ∀ a x, Keeps z a → Keeps z (f a x)) : Keeps z (l.foldl f c) := by
  induction l generalizing c with
  | nil => exact h
  | cons x r ih => exact ih (hf _ _ h)
theorem overN {z c : Chip} (n : Nat) {f : Nat → Chip → Chip} (h : Keeps z c)
    (hf : ∀ i a, Keeps z a → Keeps z (f i a)) : Keeps z (overN n f c) := overN_keeps (Keeps z) n f hf c h
/-- A record update that leaves the four fields alone. -/
theorem upd {z c : Chip} (h : Keeps z c) (win dir col que upl trib sched gfp aps mead drop aud tim dpll twin pow qf dn fr) :
    Keeps z ⟨c.boot, c.port, win, dir, c.heath, col, que, upl, trib, sched, gfp, aps, mead, drop, aud, tim, dpll, twin, pow, qf, dn, fr⟩ :=
  ⟨h.staged, h.live, h.snap, h.statusEnd, h.boot, h.port, h.wf⟩

/-! ### The named updates -/
theorem withStatus {z c : Chip} {b : Bank} (h : Keeps z c) (hb : z.heath.status.wf = true → b.wf = true) : Keeps z (c.withStatus b) :=
  ⟨h.staged, h.live, h.snap, h.statusEnd, h.boot, h.port, hb⟩
theorem setSt {z c : Chip} (f : Fld) (r v : Nat) (h : Keeps z c) : Keeps z (c.setSt f r v) :=
  withStatus h (fun w => Bank.wf_setFld _ _ _ _ (h.wf w))
theorem addSt {z c : Chip} (f : Fld) (r v : Nat) (h : Keeps z c) : Keeps z (c.addSt f r v) := setSt f r _ h
theorem satSt {z c : Chip} (f : Fld) (r v : Nat) (h : Keeps z c) : Keeps z (c.satSt f r v) := setSt f r _ h
theorem markEvent {z c : Chip} (a : Nat) (w : Word) (h : Keeps z c) : Keeps z (c.markEvent a w) :=
  ⟨h.staged, h.live, h.snap, h.statusEnd, h.boot, h.port, h.wf⟩
theorem orSt {z c : Chip} (f : Fld) (r v : Nat) (h : Keeps z c) : Keeps z (c.orSt f r v) := markEvent _ _ (setSt f r _ h)
theorem onQ {z c : Chip} (i : Nat) (f) (h : Keeps z c) : Keeps z (c.onQ i f) :=
  ⟨h.staged, h.live, h.snap, h.statusEnd, h.boot, h.port, h.wf⟩
theorem onU {z c : Chip} (i : Nat) (f) (h : Keeps z c) : Keeps z (c.onU i f) :=
  ⟨h.staged, h.live, h.snap, h.statusEnd, h.boot, h.port, h.wf⟩
theorem onT {z c : Chip} (i : Nat) (f) (h : Keeps z c) : Keeps z (c.onT i f) :=
  ⟨h.staged, h.live, h.snap, h.statusEnd, h.boot, h.port, h.wf⟩
theorem onD {z c : Chip} (i : Nat) (f) (h : Keeps z c) : Keeps z (c.onD i f) :=
  ⟨h.staged, h.live, h.snap, h.statusEnd, h.boot, h.port, h.wf⟩
theorem onP {z c : Chip} (i : Nat) (f) (h : Keeps z c) : Keeps z (c.onP i f) :=
  ⟨h.staged, h.live, h.snap, h.statusEnd, h.boot, h.port, h.wf⟩
theorem onM {z c : Chip} (f) (h : Keeps z c) : Keeps z (c.onM f) :=
  ⟨h.staged, h.live, h.snap, h.statusEnd, h.boot, h.port, h.wf⟩
theorem onCol {z c : Chip} (f) (h : Keeps z c) : Keeps z (c.onCol f) :=
  ⟨h.staged, h.live, h.snap, h.statusEnd, h.boot, h.port, h.wf⟩
theorem onDir {z c : Chip} (f) (h : Keeps z c) : Keeps z (c.onDir f) :=
  ⟨h.staged, h.live, h.snap, h.statusEnd, h.boot, h.port, h.wf⟩
theorem onTime {z c : Chip} (f) (h : Keeps z c) : Keeps z (c.onTime f) :=
  ⟨h.staged, h.live, h.snap, h.statusEnd, h.boot, h.port, h.wf⟩
theorem onTwin {z c : Chip} (f) (h : Keeps z c) : Keeps z (c.onTwin f) :=
  ⟨h.staged, h.live, h.snap, h.statusEnd, h.boot, h.port, h.wf⟩
theorem onPow {z c : Chip} (f) (h : Keeps z c) : Keeps z (c.onPow f) :=
  ⟨h.staged, h.live, h.snap, h.statusEnd, h.boot, h.port, h.wf⟩
theorem onWin {z c : Chip} (f) (h : Keeps z c) : Keeps z (c.onWin f) :=
  ⟨h.staged, h.live, h.snap, h.statusEnd, h.boot, h.port, h.wf⟩
theorem onHeath {z c : Chip} {f : Heath → Heath} (h : Keeps z c) (hf : ∀ x, (f x).staged = x.staged ∧ (f x).live = x.live ∧
    (f x).snap = x.snap ∧ (f x).statusEnd = x.statusEnd ∧ (f x).status = x.status) : Keeps z (c.onHeath f) :=
  have e := hf c.heath
  ⟨e.1.trans h.staged, e.2.1.trans h.live, e.2.2.1.trans h.snap, e.2.2.2.1.trans h.statusEnd, h.boot, h.port,
   fun w => (congrArg Bank.wf e.2.2.2.2).trans (h.wf w)⟩
theorem draw {z c : Chip} (h : Keeps z c) : Keeps z c.draw.2 := ⟨h.staged, h.live, h.snap, h.statusEnd, h.boot, h.port, h.wf⟩
theorem icause {z c : Chip} (k : Clock) (n : Nat) (h : Keeps z c) : Keeps z (c.icause k n) := onWin _ h
theorem settle {z c : Chip} (k : Clock) (h : Keeps z c) : Keeps z (c.settle k) :=
  ⟨h.staged, h.live, h.snap, h.statusEnd, h.boot, h.port, h.wf⟩
theorem cause {z c : Chip} (k : Clock) (g : CauseReg) (r b : Nat) (h : Keeps z c) : Keeps z (c.cause k g r b) :=
  ite (orSt _ _ _ h) (icause _ _ (orSt _ _ _ h))
theorem causeIf {z c : Chip} (k : Clock) (g : CauseReg) (r b : Nat) (h : Keeps z c) : Keeps z (c.causeIf k g r b) :=
  ite h (cause _ _ _ _ h)
theorem draw_eq {z c y : Chip} {a} (e : c.draw = (a, y)) (h : Keeps z c) : Keeps z y := by
  have := Keeps.draw h; rw [e] at this; exact this
theorem qSync {z c : Chip} (i : Nat) (hz : Keeps z c) : Keeps z (c.qSync i) := by
  unfold Chip.qSync
  repeat' (first | with_reducible assumption | with_reducible exact Keeps.refl _ | with_reducible apply Keeps.setSt | (intro; intros))
theorem qDropped {z c : Chip} (k : Clock) (i : Nat) (hz : Keeps z c) : Keeps z (c.qDropped k i) := by
  unfold Chip.qDropped
  repeat' (first | with_reducible assumption | with_reducible exact Keeps.refl _ | with_reducible apply Keeps.addSt | with_reducible apply Keeps.onQ | with_reducible apply Keeps.cause | (intro; intros))
theorem qRewound {z c : Chip} (k : Clock) (i : Nat) (hz : Keeps z c) : Keeps z (c.qRewound k i) := by
  unfold Chip.qRewound
  repeat' (first | with_reducible assumption | with_reducible exact Keeps.refl _ | with_reducible apply Keeps.addSt | with_reducible apply Keeps.cause | (intro; intros))
theorem qRewounds {z c : Chip} (k : Clock) (i n : Nat) (hz : Keeps z c) : Keeps z (c.qRewounds k i n) := by
  unfold Chip.qRewounds
  repeat' (first | with_reducible assumption | with_reducible exact Keeps.refl _ | with_reducible apply Keeps.addSt | with_reducible apply Keeps.cause | with_reducible apply Keeps.iteElse | (intro; intros))
theorem qCommit {z c : Chip} (k : Clock) (i kind unit : Nat) (hz : Keeps z c) : Keeps z (c.qCommit k i kind unit) := by
  unfold Chip.qCommit
  repeat' (first | with_reducible assumption | with_reducible exact Keeps.refl _ | with_reducible apply Keeps.onQ | with_reducible apply Keeps.qSync | with_reducible apply Keeps.cause | with_reducible apply Keeps.iteElse | (intro; intros) | fail_if_no_progress extract_lets | split)
theorem qRewind {z c : Chip} (k : Clock) (i kind unit : Nat) (hz : Keeps z c) : Keeps z (c.qRewind k i kind unit) := by
  unfold Chip.qRewind
  repeat' (first | with_reducible assumption | with_reducible exact Keeps.refl _ | with_reducible apply Keeps.onQ | with_reducible apply Keeps.qRewound | with_reducible apply Keeps.iteElse | (intro; intros) | fail_if_no_progress extract_lets | split)
theorem qBegin {z c : Chip} (k : Clock) (i kind unit : Nat) (hz : Keeps z c) : Keeps z (c.qBegin k i kind unit) := by
  unfold Chip.qBegin
  repeat' (first | with_reducible assumption | with_reducible exact Keeps.refl _ | with_reducible apply Keeps.qCommit | with_reducible apply Keeps.qRewind | with_reducible apply Keeps.onQ | (intro; intros))
theorem qPush {z c : Chip} (k : Clock) (i kind unit : Nat) (bs : List Byte) (hz : Keeps z c) : Keeps z (c.qPush k i kind unit bs) := by
  unfold Chip.qPush
  repeat' (first | with_reducible assumption | with_reducible exact Keeps.refl _ | with_reducible apply Keeps.onQ | with_reducible apply Keeps.qDropped | with_reducible apply Keeps.iteElse | (intro; intros))
theorem qEnd {z c : Chip} (i kind unit e : Nat) (hz : Keeps z c) : Keeps z (c.qEnd i kind unit e) := by
  unfold Chip.qEnd
  repeat' (first | with_reducible assumption | with_reducible exact Keeps.refl _ | with_reducible apply Keeps.onQ | (intro; intros))
theorem qRecord {z c : Chip} (k : Clock) (i kind unit : Nat) (bs : List Byte) (e : Nat) (hz : Keeps z c) : Keeps z (c.qRecord k i kind unit bs e).1 := by
  unfold Chip.qRecord
  repeat' (first | with_reducible assumption | with_reducible exact Keeps.refl _ | with_reducible apply Keeps.onQ | with_reducible apply Keeps.qDropped | with_reducible apply Keeps.iteElse | (intro; intros) | fail_if_no_progress extract_lets | split)
theorem qRecord_eq {z c y : Chip} (k : Clock) (i kind unit : Nat) (bs : List Byte) (e : Nat)  {az} (ez : c.qRecord k i kind unit bs e = (y, az)) (hz : Keeps z c) : Keeps z y := by
  have := Keeps.qRecord k i kind unit bs e hz; rw [ez] at this; exact this
theorem beginRecord {z c : Chip} (k : Clock) (r : RecDue) (hz : Keeps z c) : Keeps z (c.beginRecord k r) := by
  unfold Chip.beginRecord
  repeat' (first | with_reducible assumption | with_reducible exact Keeps.refl _ | (with_reducible refine Keeps.qRecord_eq (by with_reducible assumption) ?_) | with_reducible apply Keeps.qRecord | with_reducible apply Keeps.iteElse | with_reducible apply Keeps.upd | (intro; intros) | fail_if_no_progress extract_lets | split)
theorem qFlush {z c : Chip} (k : Clock) (i : Nat) (whole : Bool) (hz : Keeps z c) : Keeps z (c.qFlush k i whole) := by
  unfold Chip.qFlush
  repeat' (first | with_reducible assumption | with_reducible exact Keeps.refl _ | with_reducible apply Keeps.onQ | with_reducible apply Keeps.qRewounds | with_reducible apply Keeps.addSt | with_reducible apply Keeps.qSync | with_reducible apply Keeps.qRewound | with_reducible apply Keeps.qDropped | with_reducible apply Keeps.iteElse | (intro; intros))
theorem qPop {z c : Chip} (i : Nat) (w : QWord) (err : Bool) (hz : Keeps z c) : Keeps z (c.qPop i w err) := by
  unfold Chip.qPop
  repeat' (first | with_reducible assumption | with_reducible exact Keeps.refl _ | with_reducible apply Keeps.onQ | with_reducible apply Keeps.qSync | with_reducible apply Keeps.upd | (intro; intros) | fail_if_no_progress extract_lets | split)
theorem qReturn {z c : Chip} (k : Clock) (i : Nat) (hz : Keeps z c) : Keeps z (c.qReturn k i) := by
  unfold Chip.qReturn
  repeat' (first | with_reducible assumption | with_reducible exact Keeps.refl _ | with_reducible apply Keeps.onQ | with_reducible apply Keeps.qRewound | with_reducible apply Keeps.iteElse | (intro; intros))
theorem qAbandon {z c : Chip} (k : Clock) (i : Nat) (hz : Keeps z c) : Keeps z (c.qAbandon k i) := by
  unfold Chip.qAbandon
  repeat' (first | with_reducible assumption | with_reducible exact Keeps.refl _ | with_reducible apply Keeps.onQ | with_reducible apply Keeps.qSync | with_reducible apply Keeps.qDropped | (intro; intros))
theorem qFinish {z c : Chip} (k : Clock) (i : Nat) (hz : Keeps z c) : Keeps z (c.qFinish k i) := by
  unfold Chip.qFinish
  repeat' (first | with_reducible assumption | with_reducible exact Keeps.refl _ | with_reducible apply Keeps.onQ | with_reducible apply Keeps.qSync | with_reducible apply Keeps.cause | (intro; intros))


/-! ### Blocks -/
theorem setBlk {z c : Chip} (b : Nat) (s : PwrState) (hz : Keeps z c) : Keeps z (c.setBlk b s) := by
  unfold Chip.setBlk
  repeat' (first | with_reducible assumption | with_reducible exact Keeps.refl _ | with_reducible apply Keeps.onPow | (intro; intros))
theorem beginWake {z c : Chip} (b e : Nat) (hz : Keeps z c) : Keeps z (c.beginWake b e) := by
  unfold Chip.beginWake
  repeat' (first | with_reducible assumption | with_reducible exact Keeps.refl _ | with_reducible apply Keeps.onPow | with_reducible apply Keeps.iteElse | (intro; intros))
theorem endWakes {z c : Chip} (e : Nat) (hz : Keeps z c) : Keeps z (c.endWakes e) := by
  unfold Chip.endWakes
  repeat' (first | with_reducible assumption | with_reducible exact Keeps.refl _ | with_reducible apply Keeps.setBlk | with_reducible apply Keeps.foldl | with_reducible apply Keeps.iteElse | (intro; intros))

/-! ### Shade -/
theorem syncLasers {z c : Chip} (hz : Keeps z c) : Keeps z (c.syncLasers) := by
  unfold Chip.syncLasers
  repeat' (first | with_reducible assumption | with_reducible exact Keeps.refl _ | with_reducible apply Keeps.onU | with_reducible apply Keeps.overN | with_reducible apply Keeps.iteElse | (intro; intros))
theorem syncClaim {z c : Chip} (k : Clock) (hz : Keeps z c) : Keeps z (c.syncClaim k) := by
  unfold Chip.syncClaim
  repeat' (first | with_reducible assumption | with_reducible exact Keeps.refl _ | with_reducible apply Keeps.onTwin | with_reducible apply Keeps.setSt | (intro; intros))
theorem disarm {z c : Chip} (k : Clock) (hz : Keeps z c) : Keeps z (c.disarm k) := by
  unfold Chip.disarm
  repeat' (first | with_reducible assumption | with_reducible exact Keeps.refl _ | with_reducible apply Keeps.setSt | with_reducible apply Keeps.cause | with_reducible apply Keeps.iteElse | (intro; intros))
theorem onSide {z c : Chip} (p : Nat) (rx : Bool) (f : ASide → ASide) (hz : Keeps z c) : Keeps z (c.onSide p rx f) := by
  unfold Chip.onSide
  repeat' (first | with_reducible assumption | with_reducible exact Keeps.refl _ | with_reducible apply Keeps.iteElse | with_reducible apply Keeps.upd | (intro; intros))
theorem syncSide {z c : Chip} (p : Nat) (rx : Bool) (hz : Keeps z c) : Keeps z (c.syncSide p rx) := by
  unfold Chip.syncSide
  repeat' (first | with_reducible assumption | with_reducible exact Keeps.refl _ | with_reducible apply Keeps.setSt | with_reducible apply Keeps.iteElse | (intro; intros))
theorem setRun {z c : Chip} (k : Clock) (p : Nat) (rx b : Bool) (hz : Keeps z c) : Keeps z (c.setRun k p rx b) := by
  unfold Chip.setRun
  repeat' (first | with_reducible assumption | with_reducible exact Keeps.refl _ | with_reducible apply Keeps.onSide | with_reducible apply Keeps.syncSide | with_reducible apply Keeps.cause | with_reducible apply Keeps.iteElse | (intro; intros))
theorem stopSide {z c : Chip} (k : Clock) (p : Nat) (rx : Bool) (hz : Keeps z c) : Keeps z (c.stopSide k p rx) := by
  unfold Chip.stopSide
  repeat' (first | with_reducible assumption | with_reducible exact Keeps.refl _ | with_reducible apply Keeps.onSide | with_reducible apply Keeps.addSt | with_reducible apply Keeps.setRun | (intro; intros))
theorem shadeBlocks {z c : Chip} (hz : Keeps z c) : Keeps z (c.shadeBlocks) := by
  unfold Chip.shadeBlocks
  repeat' (first | with_reducible assumption | with_reducible exact Keeps.refl _ | with_reducible apply Keeps.setBlk | with_reducible apply Keeps.overN | with_reducible apply Keeps.iteElse | (intro; intros))
theorem wakeUplinks {z c : Chip} (k : Clock) (hz : Keeps z c) : Keeps z (c.wakeUplinks k) := by
  unfold Chip.wakeUplinks
  repeat' (first | with_reducible assumption | with_reducible exact Keeps.refl _ | with_reducible apply Keeps.beginWake | with_reducible apply Keeps.overN | with_reducible apply Keeps.iteElse | (intro; intros))
theorem shadeFalls {z c : Chip} (k : Clock) (hz : Keeps z c) : Keeps z (c.shadeFalls k) := by
  unfold Chip.shadeFalls
  repeat' (first | with_reducible assumption | with_reducible exact Keeps.refl _ | with_reducible apply Keeps.syncLasers | with_reducible apply Keeps.shadeBlocks | with_reducible apply Keeps.stopSide | with_reducible apply Keeps.qReturn | with_reducible apply Keeps.onU | with_reducible apply Keeps.syncClaim | (with_reducible refine Keeps.schedule_eq (by with_reducible assumption) ?_) | with_reducible apply Keeps.schedule | with_reducible apply Keeps.overN | with_reducible apply Keeps.iteElse | with_reducible apply Keeps.upd | (intro; intros))
theorem shadeLifts {z c : Chip} (k : Clock) (hz : Keeps z c) : Keeps z (c.shadeLifts k) := by
  unfold Chip.shadeLifts
  repeat' (first | with_reducible assumption | with_reducible exact Keeps.refl _ | with_reducible apply Keeps.syncLasers | with_reducible apply Keeps.wakeUplinks | with_reducible apply Keeps.syncClaim | (intro; intros))
theorem reshade {z c : Chip} (k : Clock) (was : Bool) (hz : Keeps z c) : Keeps z (c.reshade k was) := by
  unfold Chip.reshade
  repeat' (first | with_reducible assumption | with_reducible exact Keeps.refl _ | with_reducible apply Keeps.syncClaim | with_reducible apply Keeps.shadeFalls | with_reducible apply Keeps.shadeLifts | with_reducible apply Keeps.iteElse | (intro; intros))

/-! ### Collector -/
theorem putEntry {z c : Chip} (k : Clock) (g i kind src seq : Nat) (hz : Keeps z c) : Keeps z (c.putEntry k g i kind src seq) :=
  withStatus hz (fun w => Bank.wf_write _ _ _ (Bank.wf_write _ _ _ (Bank.wf_write _ _ _ (Bank.wf_write _ _ _ (hz.wf w)))))
theorem history {z c : Chip} (k : Clock) (g kind src : Nat) (hz : Keeps z c) : Keeps z (c.history k g kind src) := by
  unfold Chip.history
  repeat' (first | with_reducible assumption | with_reducible exact Keeps.refl _ | with_reducible apply Keeps.putEntry | with_reducible apply Keeps.setSt | with_reducible apply Keeps.onCol | with_reducible apply Keeps.iteElse | (intro; intros))
theorem latch {z c : Chip} (k : Clock) (g kind src : Nat) (hz : Keeps z c) : Keeps z (c.latch k g kind src) := by
  unfold Chip.latch
  repeat' (first | with_reducible assumption | with_reducible exact Keeps.refl _ | with_reducible apply Keeps.putEntry | with_reducible apply Keeps.setSt | with_reducible apply Keeps.satSt | with_reducible apply Keeps.cause | with_reducible apply Keeps.iteElse | (intro; intros))
theorem rearm {z c : Chip} (g : Nat) (hz : Keeps z c) : Keeps z (c.rearm g) := by
  unfold Chip.rearm
  repeat' (first | with_reducible assumption | with_reducible exact Keeps.refl _ | with_reducible apply Keeps.setSt | (intro; intros))
theorem syncFaultN {z c : Chip} (k : Clock) (hz : Keeps z c) : Keeps z (c.syncFaultN k) := by
  unfold Chip.syncFaultN
  repeat' (first | with_reducible assumption | with_reducible exact Keeps.refl _ | with_reducible apply Keeps.onCol | (intro; intros))
theorem putFlt {z c : Chip} (s : Nat) (b : Bool) (hz : Keeps z c) : Keeps z (c.putFlt s b) := by
  unfold Chip.putFlt
  repeat' (first | with_reducible assumption | with_reducible exact Keeps.refl _ | with_reducible apply Keeps.onCol | with_reducible apply Keeps.setSt | (intro; intros))
theorem syncShade {z c : Chip} (k : Clock) (src : Nat) (hz : Keeps z c) : Keeps z (c.syncShade k src) := by
  unfold Chip.syncShade
  repeat' (first | with_reducible assumption | with_reducible exact Keeps.refl _ | with_reducible apply Keeps.onCol | with_reducible apply Keeps.onTwin | with_reducible apply Keeps.disarm | with_reducible apply Keeps.setSt | with_reducible apply Keeps.cause | with_reducible apply Keeps.reshade | with_reducible apply Keeps.iteElse | (intro; intros))
theorem markEdge {z c : Chip} (k : Clock) (s : Nat) (loud : Bool) (hz : Keeps z c) : Keeps z (c.markEdge k s loud) := by
  unfold Chip.markEdge
  repeat' (first | with_reducible assumption | with_reducible exact Keeps.refl _ | with_reducible apply Keeps.onCol | (intro; intros))
theorem fltEvent {z c : Chip} (k : Clock) (s : Nat) (hz : Keeps z c) : Keeps z (c.fltEvent k s) := by
  unfold Chip.fltEvent
  repeat' (first | with_reducible apply Keeps.markEdge | with_reducible assumption | with_reducible exact Keeps.refl _ | with_reducible apply Keeps.addSt | with_reducible apply Keeps.onCol | with_reducible apply Keeps.history | with_reducible apply Keeps.latch | with_reducible apply Keeps.cause | with_reducible apply Keeps.setSt | with_reducible apply Keeps.putFlt | with_reducible apply Keeps.syncFaultN | with_reducible apply Keeps.syncShade | with_reducible apply Keeps.iteElse | (intro; intros))
theorem tumble {z c : Chip} (k : Clock) (s : Nat) (hz : Keeps z c) : Keeps z (c.tumble k s) := by
  unfold Chip.tumble
  repeat' (first | with_reducible assumption | with_reducible exact Keeps.refl _ | with_reducible apply Keeps.onCol | with_reducible apply Keeps.setSt | with_reducible apply Keeps.iteElse | (intro; intros))
theorem openWindow {z c : Chip} (k : Clock) (s : Nat) (hz : Keeps z c) : Keeps z (c.openWindow k s) := by
  unfold Chip.openWindow
  repeat' (first | with_reducible assumption | with_reducible exact Keeps.refl _ | with_reducible apply Keeps.onCol | with_reducible apply Keeps.setSt | (intro; intros))
theorem srcEvent {z c : Chip} (k : Clock) (s : Nat) (hz : Keeps z c) : Keeps z (c.srcEvent k s) := by
  unfold Chip.srcEvent
  repeat' (first | with_reducible apply Keeps.markEdge | with_reducible assumption | with_reducible exact Keeps.refl _ | with_reducible apply Keeps.tumble | with_reducible apply Keeps.addSt | with_reducible apply Keeps.satSt | with_reducible apply Keeps.fltEvent | with_reducible apply Keeps.iteElse | (intro; intros))
theorem setCond {z c : Chip} (k : Clock) (s : Nat) (present : Bool) (hz : Keeps z c) : Keeps z (c.setCond k s present) := by
  unfold Chip.setCond
  repeat' (first | with_reducible assumption | with_reducible exact Keeps.refl _ | with_reducible apply Keeps.onCol | with_reducible apply Keeps.setSt | with_reducible apply Keeps.srcEvent | with_reducible apply Keeps.iteElse | (intro; intros))
theorem injLanded {z c : Chip} (k : Clock) (tgt : Nat) (hz : Keeps z c) : Keeps z (c.injLanded k tgt) := by
  unfold Chip.injLanded
  repeat' (first | with_reducible assumption | with_reducible exact Keeps.refl _ | with_reducible apply Keeps.onCol | with_reducible apply Keeps.setSt | with_reducible apply Keeps.cause | with_reducible apply Keeps.history | (intro; intros))
theorem raise {z c : Chip} (k : Clock) (srcs : List Nat) (hz : Keeps z c) : Keeps z (c.raise k srcs) := by
  unfold Chip.raise
  repeat' (first | with_reducible assumption | with_reducible exact Keeps.refl _ | with_reducible apply Keeps.srcEvent | with_reducible apply Keeps.foldl | with_reducible apply Keeps.iteElse | (intro; intros))
theorem cleared {z c : Chip} (k : Clock) (s : Nat) (hz : Keeps z c) : Keeps z (c.cleared k s) := by
  unfold Chip.cleared
  repeat' (first | with_reducible assumption | with_reducible exact Keeps.refl _ | with_reducible apply Keeps.cause | with_reducible apply Keeps.history | (intro; intros))
theorem clearFlt {z c : Chip} (k : Clock) (s : Nat) (hz : Keeps z c) : Keeps z (c.clearFlt k s) := by
  unfold Chip.clearFlt
  repeat' (first | with_reducible assumption | with_reducible exact Keeps.refl _ | with_reducible apply Keeps.cleared | with_reducible apply Keeps.putFlt | (intro; intros))
theorem recover {z c : Chip} (k : Clock) (hz : Keeps z c) : Keeps z (c.recover k) := by
  unfold Chip.recover
  repeat' (first | with_reducible assumption | with_reducible exact Keeps.refl _ | with_reducible apply Keeps.clearFlt | with_reducible apply Keeps.rearm | with_reducible apply Keeps.satSt | with_reducible apply Keeps.cause | with_reducible apply Keeps.syncFaultN | with_reducible apply Keeps.syncShade | with_reducible apply Keeps.foldl | with_reducible apply Keeps.overN | with_reducible apply Keeps.iteElse | (intro; intros))
theorem quietCount {z c : Chip} (hz : Keeps z c) : Keeps z (c.quietCount) := by
  unfold Chip.quietCount
  repeat' (first | with_reducible assumption | with_reducible exact Keeps.refl _ | with_reducible apply Keeps.satSt | with_reducible apply Keeps.setSt | with_reducible apply Keeps.onCol | with_reducible apply Keeps.iteElse | (intro; intros))
theorem lanternTick {z c : Chip} (k : Clock) (hz : Keeps z c) : Keeps z (c.lanternTick k) := by
  unfold Chip.lanternTick
  repeat' (first | with_reducible assumption | with_reducible exact Keeps.refl _ | with_reducible apply Keeps.onCol | (intro; intros))
theorem loseGroup {z c : Chip} (k : Clock) (g : Nat) (hz : Keeps z c) : Keeps z (c.loseGroup k g) := by
  unfold Chip.loseGroup
  repeat' (first | with_reducible assumption | with_reducible exact Keeps.refl _ | with_reducible apply Keeps.putFlt | with_reducible apply Keeps.openWindow | with_reducible apply Keeps.syncFaultN | with_reducible apply Keeps.syncShade | with_reducible apply Keeps.foldl | with_reducible apply Keeps.iteElse | (intro; intros))

/-! ### Dpll -/
theorem onCh {z c : Chip} (ch : Nat) (f : Channel → Channel) (hz : Keeps z c) : Keeps z (c.onCh ch f) := by
  unfold Chip.onCh
  repeat' (first | with_reducible assumption | with_reducible exact Keeps.refl _ | with_reducible apply Keeps.iteElse | with_reducible apply Keeps.upd | (intro; intros))
theorem onRef {z c : Chip} (r : Nat) (f : RefMon → RefMon) (hz : Keeps z c) : Keeps z (c.onRef r f) := by
  unfold Chip.onRef
  repeat' (first | with_reducible assumption | with_reducible exact Keeps.refl _ | with_reducible apply Keeps.iteElse | with_reducible apply Keeps.upd | (intro; intros))
theorem syncCh {z c : Chip} (k : Clock) (ch : Nat) (hz : Keeps z c) : Keeps z (c.syncCh k ch) := by
  unfold Chip.syncCh
  repeat' (first | with_reducible assumption | with_reducible exact Keeps.refl _ | with_reducible apply Keeps.setSt | with_reducible apply Keeps.setCond | with_reducible apply Keeps.overN | with_reducible apply Keeps.iteElse | (intro; intros) | fail_if_no_progress extract_lets | split)
theorem enter {z c : Chip} (k : Clock) (ch : Nat) (st : DState) (hz : Keeps z c) : Keeps z (c.enter k ch st) := by
  unfold Chip.enter
  repeat' (first | with_reducible assumption | with_reducible exact Keeps.refl _ | with_reducible apply Keeps.addSt | with_reducible apply Keeps.onCh | with_reducible apply Keeps.orSt | with_reducible apply Keeps.cause | with_reducible apply Keeps.syncCh | with_reducible apply Keeps.iteElse | (intro; intros))
theorem holdover {z c : Chip} (k : Clock) (ch : Nat) (hz : Keeps z c) : Keeps z (c.holdover k ch) := by
  unfold Chip.holdover
  repeat' (first | with_reducible assumption | with_reducible exact Keeps.refl _ | with_reducible apply Keeps.enter | (intro; intros))
theorem setHist {z c : Chip} (k : Clock) (ch : Nat) (b : Bool) (hz : Keeps z c) : Keeps z (c.setHist k ch b) := by
  unfold Chip.setHist
  repeat' (first | with_reducible assumption | with_reducible exact Keeps.refl _ | with_reducible apply Keeps.onCh | with_reducible apply Keeps.setSt | with_reducible apply Keeps.cause | with_reducible apply Keeps.iteElse | (intro; intros))
theorem beginSwitch {z c : Chip} (k : Clock) (ch r : Nat) (hz : Keeps z c) : Keeps z (c.beginSwitch k ch r) := by
  unfold Chip.beginSwitch
  repeat' (first | with_reducible assumption | with_reducible exact Keeps.refl _ | with_reducible apply Keeps.onCh | with_reducible apply Keeps.cause | with_reducible apply Keeps.syncCh | (intro; intros))
theorem choose {z c : Chip} (k : Clock) (ch : Nat) (hz : Keeps z c) : Keeps z (c.choose k ch) := by
  unfold Chip.choose
  repeat' (first | with_reducible assumption | with_reducible exact Keeps.refl _ | with_reducible apply Keeps.beginSwitch | with_reducible apply Keeps.iteElse | (intro; intros) | fail_if_no_progress extract_lets | split)
theorem loseSel {z c : Chip} (k : Clock) (ch : Nat) (hz : Keeps z c) : Keeps z (c.loseSel k ch) := by
  unfold Chip.loseSel
  repeat' (first | with_reducible assumption | with_reducible exact Keeps.refl _ | with_reducible apply Keeps.onCh | with_reducible apply Keeps.holdover | with_reducible apply Keeps.syncCh | with_reducible apply Keeps.choose | with_reducible apply Keeps.iteElse | (intro; intros))
theorem abandon {z c : Chip} (k : Clock) (ch : Nat) (hz : Keeps z c) : Keeps z (c.abandon k ch) := by
  unfold Chip.abandon
  repeat' (first | with_reducible assumption | with_reducible exact Keeps.refl _ | with_reducible apply Keeps.onCh | with_reducible apply Keeps.cause | with_reducible apply Keeps.syncCh | with_reducible apply Keeps.choose | (intro; intros))
theorem chanLoses {z c : Chip} (k : Clock) (r ch : Nat) (hz : Keeps z c) : Keeps z (c.chanLoses k r ch) := by
  unfold Chip.chanLoses
  repeat' (first | with_reducible assumption | with_reducible exact Keeps.refl _ | with_reducible apply Keeps.onCh | with_reducible apply Keeps.loseSel | with_reducible apply Keeps.abandon | with_reducible apply Keeps.syncCh | with_reducible apply Keeps.iteElse | (intro; intros) | fail_if_no_progress extract_lets | split)
theorem syncRef {z c : Chip} (r : Nat) (hz : Keeps z c) : Keeps z (c.syncRef r) := by
  unfold Chip.syncRef
  repeat' (first | with_reducible assumption | with_reducible exact Keeps.refl _ | with_reducible apply Keeps.setSt | (intro; intros))
theorem setRefDefs {z c : Chip} (k : Clock) (r new : Nat) (hz : Keeps z c) : Keeps z (c.setRefDefs k r new) := by
  unfold Chip.setRefDefs
  repeat' (first | with_reducible assumption | with_reducible exact Keeps.refl _ | with_reducible apply Keeps.onRef | with_reducible apply Keeps.setSt | with_reducible apply Keeps.addSt | with_reducible apply Keeps.syncRef | with_reducible apply Keeps.causeIf | with_reducible apply Keeps.chanLoses | with_reducible apply Keeps.iteElse | (intro; intros))
theorem setRefDef {z c : Chip} (k : Clock) (r n : Nat) (b : Bool) (hz : Keeps z c) : Keeps z (c.setRefDef k r n b) := by
  unfold Chip.setRefDef
  repeat' (first | with_reducible assumption | with_reducible exact Keeps.refl _ | with_reducible apply Keeps.setRefDefs | (intro; intros))
theorem refRole {z c : Chip} (k : Clock) (hz : Keeps z c) : Keeps z (c.refRole k) := by
  unfold Chip.refRole
  repeat' (first | with_reducible assumption | with_reducible exact Keeps.refl _ | with_reducible apply Keeps.setRefDef | (intro; intros))
theorem qualify {z c : Chip} (k : Clock) (r : Nat) (hz : Keeps z c) : Keeps z (c.qualify k r) := by
  unfold Chip.qualify
  repeat' (first | with_reducible assumption | with_reducible exact Keeps.refl _ | with_reducible apply Keeps.onRef | with_reducible apply Keeps.syncRef | with_reducible apply Keeps.cause | with_reducible apply Keeps.choose | with_reducible apply Keeps.onCh | with_reducible apply Keeps.syncCh | with_reducible apply Keeps.overN | with_reducible apply Keeps.iteElse | (intro; intros) | fail_if_no_progress extract_lets | split)
theorem reportFmeas {z c : Chip} (t : LoopTick) (r : Nat) (hz : Keeps z c) : Keeps z (c.reportFmeas t r) := by
  unfold Chip.reportFmeas
  repeat' (first | with_reducible assumption | with_reducible exact Keeps.refl _ | with_reducible apply Keeps.setSt | with_reducible apply Keeps.iteElse | (intro; intros) | fail_if_no_progress extract_lets | split)
theorem measure {z c : Chip} (k : Clock) (ch : Nat) (e : Int) (hz : Keeps z c) : Keeps z (c.measure k ch e) := by
  unfold Chip.measure
  repeat' (first | with_reducible assumption | with_reducible exact Keeps.refl _ | with_reducible apply Keeps.setSt | with_reducible apply Keeps.onCh | with_reducible apply Keeps.enter | with_reducible apply Keeps.iteElse | (intro; intros))
theorem clampTick {z c : Chip} (k : Clock) (b : Bool) (hz : Keeps z c) : Keeps z (c.clampTick k b) := by
  unfold Chip.clampTick
  repeat' (first | with_reducible assumption | with_reducible exact Keeps.refl _ | with_reducible apply Keeps.onCh | with_reducible apply Keeps.setSt | with_reducible apply Keeps.cause | with_reducible apply Keeps.setCond | with_reducible apply Keeps.iteElse | (intro; intros))
theorem moveOut {z c : Chip} (k : Clock) (ch : Nat) (hz : Keeps z c) : Keeps z (c.moveOut k ch) := by
  unfold Chip.moveOut
  repeat' (first | with_reducible assumption | with_reducible exact Keeps.refl _ | with_reducible apply Keeps.onCh | with_reducible apply Keeps.setSt | with_reducible apply Keeps.clampTick | with_reducible apply Keeps.history | with_reducible apply Keeps.iteElse | with_reducible apply Keeps.upd | (intro; intros))
theorem histTick {z c : Chip} (k : Clock) (ch : Nat) (hz : Keeps z c) : Keeps z (c.histTick k ch) := by
  unfold Chip.histTick
  repeat' (first | with_reducible assumption | with_reducible exact Keeps.refl _ | with_reducible apply Keeps.onCh | with_reducible apply Keeps.setSt | with_reducible apply Keeps.setHist | with_reducible apply Keeps.iteElse | with_reducible apply Keeps.upd | (intro; intros))
theorem coreTick {z c : Chip} (k : Clock) (v : Int) (hz : Keeps z c) : Keeps z (c.coreTick k v) := by
  unfold Chip.coreTick
  repeat' (first | with_reducible assumption | with_reducible exact Keeps.refl _ | with_reducible apply Keeps.srcEvent | with_reducible apply Keeps.onDir | with_reducible apply Keeps.iteElse | with_reducible apply Keeps.upd | (intro; intros))
theorem afterSwitch {z c : Chip} (k : Clock) (ch : Nat) (recheck : Bool) (hz : Keeps z c) : Keeps z (c.afterSwitch k ch recheck) := by
  unfold Chip.afterSwitch
  repeat' (first | with_reducible assumption | with_reducible exact Keeps.refl _ | with_reducible apply Keeps.beginSwitch | with_reducible apply Keeps.onCh | with_reducible apply Keeps.iteElse | (intro; intros) | fail_if_no_progress extract_lets | split)
theorem completeSwitch {z c : Chip} (k : Clock) (ch : Nat) (phase : Int) (hz : Keeps z c) : Keeps z (c.completeSwitch k ch phase) := by
  unfold Chip.completeSwitch
  repeat' (first | with_reducible assumption | with_reducible exact Keeps.refl _ | with_reducible apply Keeps.onCh | with_reducible apply Keeps.setSt | with_reducible apply Keeps.addSt | with_reducible apply Keeps.cause | with_reducible apply Keeps.enter | with_reducible apply Keeps.afterSwitch | with_reducible apply Keeps.syncCh | with_reducible apply Keeps.iteElse | (intro; intros) | fail_if_no_progress extract_lets | split)
theorem deliver {z c : Chip} (r : Nat) (e : Int) (hz : Keeps z c) : Keeps z (c.deliver r e) := by
  unfold Chip.deliver
  repeat' (first | with_reducible assumption | with_reducible exact Keeps.refl _ | with_reducible apply Keeps.onRef | with_reducible apply Keeps.onCh | with_reducible apply Keeps.setSt | with_reducible apply Keeps.overN | with_reducible apply Keeps.iteElse | (intro; intros))
theorem refApply {z c : Chip} (k : Clock) (old : Bank) (r : Nat) (hz : Keeps z c) : Keeps z (c.refApply k old r) := by
  unfold Chip.refApply
  repeat' (first | with_reducible assumption | with_reducible exact Keeps.refl _ | with_reducible apply Keeps.onRef | with_reducible apply Keeps.setRefDef | with_reducible apply Keeps.deliver | with_reducible apply Keeps.iteElse | (intro; intros))
theorem chanApply {z c : Chip} (k : Clock) (old : Bank) (first : Bool) (ch : Nat) (hz : Keeps z c) : Keeps z (c.chanApply k old first ch) := by
  unfold Chip.chanApply
  repeat' (first | with_reducible assumption | with_reducible exact Keeps.refl _ | with_reducible apply Keeps.setHist | with_reducible apply Keeps.onCh | with_reducible apply Keeps.syncCh | with_reducible apply Keeps.enter | with_reducible apply Keeps.abandon | with_reducible apply Keeps.loseSel | with_reducible apply Keeps.choose | with_reducible apply Keeps.holdover | with_reducible apply Keeps.beginSwitch | with_reducible apply Keeps.iteElse | (intro; intros) | fail_if_no_progress extract_lets | split)
theorem dpllApply {z c : Chip} (k : Clock) (old : Bank) (first : Bool) (hz : Keeps z c) : Keeps z (c.dpllApply k old first) := by
  unfold Chip.dpllApply
  repeat' (first | with_reducible assumption | with_reducible exact Keeps.refl _ | with_reducible apply Keeps.refApply | with_reducible apply Keeps.chanApply | with_reducible apply Keeps.overN | with_reducible apply Keeps.iteElse | (intro; intros))
theorem holdTicks {z c : Chip} (hz : Keeps z c) : Keeps z (c.holdTicks) := by
  unfold Chip.holdTicks
  repeat' (first | with_reducible assumption | with_reducible exact Keeps.refl _ | with_reducible apply Keeps.addSt | with_reducible apply Keeps.overN | with_reducible apply Keeps.iteElse | (intro; intros))

/-! ### MeadowOps -/
theorem syncPools {z c : Chip} (k : Clock) (hz : Keeps z c) : Keeps z (c.syncPools k) := by
  unfold Chip.syncPools
  repeat' (first | with_reducible assumption | with_reducible exact Keeps.refl _ | with_reducible apply Keeps.setCond | (intro; intros))
theorem freeCells {z c : Chip} (k : Clock) (up : Bool) (cells : List Nat) (hz : Keeps z c) : Keeps z (c.freeCells k up cells) := by
  unfold Chip.freeCells
  repeat' (first | with_reducible assumption | with_reducible exact Keeps.refl _ | with_reducible apply Keeps.onM | with_reducible apply Keeps.syncPools | (intro; intros))
theorem sendDesc {z c : Chip} (hz : Keeps z c) : Keeps z (c.sendDesc) := by
  unfold Chip.sendDesc
  repeat' (first | with_reducible assumption | with_reducible exact Keeps.refl _ | with_reducible apply Keeps.addSt | with_reducible apply Keeps.onTwin | (with_reducible refine Keeps.draw_eq (by with_reducible assumption) ?_) | with_reducible apply Keeps.draw | with_reducible apply Keeps.iteElse | (intro; intros))
theorem sendAdd {z c : Chip} (hz : Keeps z c) : Keeps z (c.sendAdd).2 := by
  unfold Chip.sendAdd
  repeat' (first | with_reducible assumption | with_reducible exact Keeps.refl _ | with_reducible apply Keeps.onTwin | with_reducible apply Keeps.sendDesc | (intro; intros))
theorem sendAdd_eq {z c y : Chip}  {a0} (ez : c.sendAdd = (a0, y)) (hz : Keeps z c) : Keeps z y := by
  have := Keeps.sendAdd  hz; rw [ez] at this; exact this
theorem retire {z c : Chip} (it : Item) (cause : Nat) (hz : Keeps z c) : Keeps z (c.retire it cause) := by
  unfold Chip.retire
  repeat' (first | with_reducible assumption | with_reducible exact Keeps.refl _ | with_reducible apply Keeps.sendDesc | with_reducible apply Keeps.iteElse | (intro; intros))
theorem setItems {z c : Chip} (t : Nat) (up : Bool) (l : List Item) (hz : Keeps z c) : Keeps z (c.setItems t up l) := by
  unfold Chip.setItems
  repeat' (first | with_reducible assumption | with_reducible exact Keeps.refl _ | with_reducible apply Keeps.onT | (intro; intros))
theorem countDisc {z c : Chip} (t : Nat) (up : Bool) (cause : Nat) (hz : Keeps z c) : Keeps z (c.countDisc t up cause) := by
  unfold Chip.countDisc
  repeat' (first | with_reducible assumption | with_reducible exact Keeps.refl _ | with_reducible apply Keeps.onT | (intro; intros))
theorem failRecord {z c : Chip} (k : Clock) (flag : Fld) (cause t : Nat) (up : Bool) (cell len : Nat) (stamp : Word) (e : Nat) (hz : Keeps z c) : Keeps z (c.failRecord k flag cause t up cell len stamp e) := by
  unfold Chip.failRecord
  repeat' (first | with_reducible assumption | with_reducible exact Keeps.refl _ | (with_reducible refine Keeps.qRecord_eq (by with_reducible assumption) ?_) | with_reducible apply Keeps.qRecord | with_reducible apply Keeps.iteElse | (intro; intros) | fail_if_no_progress extract_lets | split)
theorem discardItem {z c : Chip} (k : Clock) (it : Item) (cause : Nat) (hz : Keeps z c) : Keeps z (c.discardItem k it cause) := by
  unfold Chip.discardItem
  repeat' (first | with_reducible assumption | with_reducible exact Keeps.refl _ | with_reducible apply Keeps.countDisc | with_reducible apply Keeps.freeCells | with_reducible apply Keeps.retire | with_reducible apply Keeps.failRecord | with_reducible apply Keeps.iteElse | (intro; intros))
theorem deliverItem {z c : Chip} (k : Clock) (it : Item) (hz : Keeps z c) : Keeps z (c.deliverItem k it) := by
  unfold Chip.deliverItem
  repeat' (first | with_reducible assumption | with_reducible exact Keeps.refl _ | with_reducible apply Keeps.onT | with_reducible apply Keeps.freeCells | with_reducible apply Keeps.retire | (intro; intros))
theorem readCells {z c : Chip} (k : Clock) (cells : List Nat) (hz : Keeps z c) : Keeps z (c.readCells k cells).2 := by
  unfold Chip.readCells
  repeat' (first | with_reducible assumption | with_reducible exact Keeps.refl _ | with_reducible apply Keeps.onM | with_reducible apply Keeps.srcEvent | with_reducible apply Keeps.foldl | with_reducible apply Keeps.iteElse | (intro; intros))
theorem readCells_eq {z c y : Chip} (k : Clock) (cells : List Nat)  {a0} (ez : c.readCells k cells = (a0, y)) (hz : Keeps z c) : Keeps z y := by
  have := Keeps.readCells k cells hz; rw [ez] at this; exact this

/-! ### Rules -/
theorem restand {z c : Chip} (k : Clock) (a : Option Nat) (hz : Keeps z c) : Keeps z (c.restand k a) := by
  unfold Chip.restand
  repeat' (first | with_reducible assumption | with_reducible exact Keeps.refl _ | with_reducible apply Keeps.cause | (with_reducible refine Keeps.onHeath ?_ (fun _ => ⟨rfl, rfl, rfl, rfl, rfl⟩)) | (intro; intros))

/-! ### Time -/
theorem onOut {z c : Chip} (o : Nat) (f : Output → Output) (hz : Keeps z c) : Keeps z (c.onOut o f) := by
  unfold Chip.onOut
  repeat' (first | with_reducible assumption | with_reducible exact Keeps.refl _ | with_reducible apply Keeps.onTime | (intro; intros))
theorem syncOut {z c : Chip} (o : Nat) (hz : Keeps z c) : Keeps z (c.syncOut o) := by
  unfold Chip.syncOut
  repeat' (first | with_reducible assumption | with_reducible exact Keeps.refl _ | with_reducible apply Keeps.setSt | with_reducible apply Keeps.iteElse | (intro; intros))
theorem setLate {z c : Chip} (k : Clock) (o : Nat) (hz : Keeps z c) : Keeps z (c.setLate k o) := by
  unfold Chip.setLate
  repeat' (first | with_reducible assumption | with_reducible exact Keeps.refl _ | with_reducible apply Keeps.setSt | with_reducible apply Keeps.cause | with_reducible apply Keeps.onTime | (intro; intros))
theorem makeEdge {z c : Chip} (k : Clock) (o t : Nat) (hz : Keeps z c) : Keeps z (c.makeEdge k o t) := by
  unfold Chip.makeEdge
  repeat' (first | with_reducible assumption | with_reducible exact Keeps.refl _ | with_reducible apply Keeps.onTime | with_reducible apply Keeps.onOut | with_reducible apply Keeps.addSt | with_reducible apply Keeps.setSt | with_reducible apply Keeps.cause | with_reducible apply Keeps.syncOut | with_reducible apply Keeps.iteElse | with_reducible apply Keeps.upd | (intro; intros))
theorem endPulse {z c : Chip} (k : Clock) (o : Nat) (hz : Keeps z c) : Keeps z (c.endPulse k o) := by
  unfold Chip.endPulse
  repeat' (first | with_reducible assumption | with_reducible exact Keeps.refl _ | with_reducible apply Keeps.onOut | with_reducible apply Keeps.syncOut | with_reducible apply Keeps.iteElse | (intro; intros))
theorem outApply {z c : Chip} (k : Clock) (old : Bank) (o : Nat) (hz : Keeps z c) : Keeps z (c.outApply k old o) := by
  unfold Chip.outApply
  repeat' (first | with_reducible assumption | with_reducible exact Keeps.refl _ | with_reducible apply Keeps.setSt | with_reducible apply Keeps.onOut | with_reducible apply Keeps.syncOut | with_reducible apply Keeps.setLate | with_reducible apply Keeps.iteElse | (intro; intros) | fail_if_no_progress extract_lets | split)
theorem timeApply {z c : Chip} (k : Clock) (old : Bank) (step : Bool) (hz : Keeps z c) : Keeps z (c.timeApply k old step) := by
  unfold Chip.timeApply
  repeat' (first | with_reducible assumption | with_reducible exact Keeps.refl _ | with_reducible apply Keeps.onTime | with_reducible apply Keeps.outApply | with_reducible apply Keeps.overN | with_reducible apply Keeps.iteElse | (intro; intros))
theorem jumpOut {z c : Chip} (k : Clock) (t0 t1 o : Nat) (hz : Keeps z c) : Keeps z (c.jumpOut k t0 t1 o) := by
  unfold Chip.jumpOut
  repeat' (first | with_reducible assumption | with_reducible exact Keeps.refl _ | with_reducible apply Keeps.onOut | with_reducible apply Keeps.syncOut | with_reducible apply Keeps.setLate | with_reducible apply Keeps.iteElse | (intro; intros) | fail_if_no_progress extract_lets | split)
theorem tqRecord {z c : Chip} (k : Clock) (unit : Nat) (bs : List Byte) (hz : Keeps z c) : Keeps z (c.tqRecord k unit bs).1 := by
  unfold Chip.tqRecord
  repeat' (first | with_reducible assumption | with_reducible exact Keeps.refl _ | with_reducible apply Keeps.onM | with_reducible apply Keeps.qDropped | with_reducible apply Keeps.onTime | (with_reducible refine Keeps.qRecord_eq (by with_reducible assumption) ?_) | with_reducible apply Keeps.qRecord | with_reducible apply Keeps.iteElse | (intro; intros) | fail_if_no_progress extract_lets | split)
theorem tqRecord_eq {z c y : Chip} (k : Clock) (unit : Nat) (bs : List Byte)  {az} (ez : c.tqRecord k unit bs = (y, az)) (hz : Keeps z c) : Keeps z y := by
  have := Keeps.tqRecord k unit bs hz; rw [ez] at this; exact this
theorem ptpReceive {z c : Chip} (k : Clock) (u : Nat) (f : EtherFrame) (hz : Keeps z c) : Keeps z (c.ptpReceive k u f) := by
  unfold Chip.ptpReceive
  repeat' (first | with_reducible assumption | with_reducible exact Keeps.refl _ | with_reducible apply Keeps.addSt | (with_reducible refine Keeps.tqRecord_eq (by with_reducible assumption) ?_) | with_reducible apply Keeps.tqRecord | with_reducible apply Keeps.iteElse | (intro; intros))
theorem takeHead {z c : Chip} (k : Clock) (i : Nat) (hz : Keeps z c) : Keeps z (c.takeHead k i).2 := by
  unfold Chip.takeHead
  cases (c.q i).items with
  | nil => exact hz
  | cons ws r =>
    dsimp only
    generalize hy : (if (ws.any fun w => w.err == 1) = true then _ else c : Chip) = y
    have h1 : Keeps z y := by
      rw [← hy]; split
      · exact upd hz ..
      · exact hz
    split
    · exact qAbandon _ _ (srcEvent _ _ h1)
    · exact h1
theorem takeHead_eq {z c y : Chip} (k : Clock) (i : Nat) {a0} (ez : c.takeHead k i = (a0, y)) (hz : Keeps z c) : Keeps z y := by
  have := Keeps.takeHead k i hz; rw [ez] at this; exact this
theorem capture {z c : Chip} (k : Clock) (n : Nat) (pins : List (Nat × Bool)) (hz : Keeps z c) : Keeps z (c.capture k n pins) := by
  unfold Chip.capture
  repeat' (first | with_reducible assumption | with_reducible exact Keeps.refl _ | with_reducible apply Keeps.onTime | with_reducible apply Keeps.setSt | with_reducible apply Keeps.addSt | with_reducible apply Keeps.cause | (with_reducible refine Keeps.tqRecord_eq (by with_reducible assumption) ?_) | with_reducible apply Keeps.tqRecord | with_reducible apply Keeps.iteElse | with_reducible apply Keeps.upd | (intro; intros))
theorem apsHold {z c : Chip} (k : Clock) (p : Nat) (formed : Bool) (hz : Keeps z c) : Keeps z (c.apsHold k p formed) := by
  unfold Chip.apsHold
  repeat' (first | with_reducible assumption | with_reducible exact Keeps.refl _ | with_reducible apply Keeps.onP | with_reducible apply Keeps.overN | with_reducible apply Keeps.iteElse | (intro; intros))
theorem apsAim {z c : Chip} (k : Clock) (p : Nat) (b : Bool) (hz : Keeps z c) : Keeps z (c.apsAim k p b) := by
  unfold Chip.apsAim
  repeat' (first | with_reducible assumption | with_reducible exact Keeps.refl _ | with_reducible apply Keeps.onP | with_reducible apply Keeps.iteElse | with_reducible apply Keeps.upd | (intro; intros))
theorem apsLfd {z c : Chip} (k : Clock) (p : Nat) (hz : Keeps z c) : Keeps z (c.apsLfd k p) := by
  unfold Chip.apsLfd
  repeat' (first | with_reducible assumption | with_reducible exact Keeps.refl _ | with_reducible apply Keeps.setSt | with_reducible apply Keeps.cause | with_reducible apply Keeps.iteElse | (intro; intros))
theorem apsBlank {z c : Chip} (p : Nat) (hz : Keeps z c) : Keeps z (c.apsBlank p) := by
  unfold Chip.apsBlank
  exact onP _ _ (foldl _ hz (fun a x ha => withStatus ha (fun w => Bank.wf_write _ _ _ (ha.wf w))))
theorem lineSend {z c : Chip} (k : Clock) (u : Nat) (bs : List Byte) (hz : Keeps z c) : Keeps z (c.lineSend k u bs) := by
  unfold Chip.lineSend
  repeat' (first | with_reducible assumption | with_reducible exact Keeps.refl _ | with_reducible apply Keeps.onU | with_reducible apply Keeps.iteElse | with_reducible apply Keeps.upd | (intro; intros) | fail_if_no_progress extract_lets | split)
theorem consequent {z c : Chip} (u d : Nat) (hz : Keeps z c) : Keeps z (c.consequent u d) := by
  unfold Chip.consequent
  repeat' (first | with_reducible assumption | with_reducible exact Keeps.refl _ | with_reducible apply Keeps.onU | (intro; intros))
theorem gccRewind {z c : Chip} (k : Clock) (u q : Nat) (hz : Keeps z c) : Keeps z (c.gccRewind k u q) := by
  unfold Chip.gccRewind
  repeat' (first | with_reducible assumption | with_reducible exact Keeps.refl _ | with_reducible apply Keeps.qRewind | with_reducible apply Keeps.onU | (intro; intros))
theorem takeTti {z c : Chip} (u : Nat) (rx : Fld) (bs : List Byte) (hz : Keeps z c) : Keeps z (c.takeTti u rx bs).1 := by
  unfold Chip.takeTti
  repeat' (first | with_reducible assumption | with_reducible exact Keeps.refl _ | with_reducible apply Keeps.setSt | with_reducible apply Keeps.overN | with_reducible apply Keeps.iteElse | (intro; intros) | fail_if_no_progress extract_lets | split)
theorem takeTti_eq {z c y : Chip} (u : Nat) (rx : Fld) (bs : List Byte)  {az} (ez : c.takeTti u rx bs = (y, az)) (hz : Keeps z c) : Keeps z y := by
  have := Keeps.takeTti u rx bs hz; rw [ez] at this; exact this
theorem gccByte {z c : Chip} (k : Clock) (u q : Nat) (b : Byte) (hz : Keeps z c) : Keeps z (c.gccByte k u q b) := by
  unfold Chip.gccByte
  repeat' (first | with_reducible assumption | with_reducible exact Keeps.refl _ | with_reducible apply Keeps.addSt | with_reducible apply Keeps.onU | with_reducible apply Keeps.qPush | with_reducible apply Keeps.iteElse | with_reducible apply Keeps.upd | (intro; intros) | fail_if_no_progress extract_lets | split)
theorem gccFrame {z c : Chip} (k : Clock) (u : Nat) (f : OtnRx) (hz : Keeps z c) : Keeps z (c.gccFrame k u f) := by
  unfold Chip.gccFrame
  repeat' (first | with_reducible assumption | with_reducible exact Keeps.refl _ | with_reducible apply Keeps.qBegin | with_reducible apply Keeps.onU | with_reducible apply Keeps.gccByte | with_reducible apply Keeps.onQ | with_reducible apply Keeps.qDropped | with_reducible apply Keeps.qEnd | with_reducible apply Keeps.foldl | with_reducible apply Keeps.iteElse | with_reducible apply Keeps.upd | (intro; intros))
theorem alignFrame {z c : Chip} (u raw : Nat) (f : OtnRx) (hz : Keeps z c) : Keeps z (c.alignFrame u raw f).1 := by
  unfold Chip.alignFrame
  repeat' (first | with_reducible assumption | with_reducible exact Keeps.refl _ | with_reducible apply Keeps.onU | with_reducible apply Keeps.iteElse | with_reducible apply Keeps.upd | (intro; intros) | (with_reducible refine Keeps.ofIte (by with_reducible assumption) ?_ ?_) | fail_if_no_progress extract_lets | split | (show Keeps _ (Prod.fst (Prod.mk _ _)); dsimp only))
theorem alignFrame_eq {z c y : Chip} (u raw : Nat) (f : OtnRx) {w0} (ez : c.alignFrame u raw f = (y, w0)) (hz : Keeps z c) : Keeps z y := by
  have := Keeps.alignFrame u raw f hz; rw [ez] at this; exact this
theorem overheadFrame {z c : Chip} (u raw : Nat) (f : OtnRx) (hz : Keeps z c) : Keeps z (c.overheadFrame u raw f).1 := by
  unfold Chip.overheadFrame
  repeat' (first | with_reducible assumption | with_reducible exact Keeps.refl _ | with_reducible apply Keeps.onU | with_reducible apply Keeps.iteElse | with_reducible apply Keeps.upd | (intro; intros) | (with_reducible refine Keeps.ofIte (by with_reducible assumption) ?_ ?_) | fail_if_no_progress extract_lets | split | (show Keeps _ (Prod.fst (Prod.mk _ _)); dsimp only))
theorem overheadFrame_eq {z c y : Chip} (u raw : Nat) (f : OtnRx) {w0} (ez : c.overheadFrame u raw f = (y, w0)) (hz : Keeps z c) : Keeps z y := by
  have := Keeps.overheadFrame u raw f hz; rw [ez] at this; exact this
theorem ofIte {z y : Chip} {p : Prop} [Decidable p] {α : Type} {a b : Chip × α} {v} (e : (if p then a else b) = (y, v))
    (ha : Keeps z a.1) (hb : Keeps z b.1) : Keeps z y := by
  split at e
  · rw [e] at ha; exact ha
  · rw [e] at hb; exact hb
theorem overheadHeld {z c : Chip} (u : Nat) (hz : Keeps z c) : Keeps z (c.overheadHeld u) := Keeps.onU u _ hz
theorem countLayer {z c : Chip} (u : Nat) (bipF beiF : Fld) (bip bei : Nat) (hz : Keeps z c) : Keeps z (c.countLayer u bipF beiF bip bei) := by
  unfold Chip.countLayer
  repeat' (first | with_reducible assumption | with_reducible exact Keeps.refl _ | with_reducible apply Keeps.addSt | (intro; intros))
theorem countFrame {z c : Chip} (u raw : Nat) (f : OtnRx) (hz : Keeps z c) : Keeps z (c.countFrame u raw f) := by
  unfold Chip.countFrame
  repeat' (first | with_reducible assumption | with_reducible exact Keeps.refl _ | with_reducible apply Keeps.addSt | with_reducible apply Keeps.countLayer | with_reducible apply Keeps.onU | with_reducible apply Keeps.iteElse | with_reducible apply Keeps.upd | (intro; intros))
theorem judgeLine {z c : Chip} (u raw : Nat) (t : UplinkTick) (hz : Keeps z c) : Keeps z (c.judgeLine u raw t).1 := by
  unfold Chip.judgeLine
  repeat' (first | with_reducible assumption | with_reducible exact Keeps.refl _ | with_reducible apply Keeps.onU | (intro; intros))
theorem judgeLine_eq {z c y : Chip} (u raw : Nat) (t : UplinkTick)  {az} (ez : c.judgeLine u raw t = (y, az)) (hz : Keeps z c) : Keeps z y := by
  have := Keeps.judgeLine u raw t hz; rw [ez] at this; exact this
theorem judgeAlign {z c : Chip} (u raw : Nat) (hz : Keeps z c) : Keeps z (c.judgeAlign u raw).1 := by
  unfold Chip.judgeAlign
  repeat' (first | with_reducible assumption | with_reducible exact Keeps.refl _ | with_reducible apply Keeps.onU | (intro; intros))
theorem judgeAlign_eq {z c y : Chip} (u raw : Nat)  {az} (ez : c.judgeAlign u raw = (y, az)) (hz : Keeps z c) : Keeps z y := by
  have := Keeps.judgeAlign u raw hz; rw [ez] at this; exact this
theorem judgeBer {z c : Chip} (u raw : Nat) (t : UplinkTick) (hz : Keeps z c) : Keeps z (c.judgeBer u raw t).1 := by
  unfold Chip.judgeBer
  repeat' (first | with_reducible assumption | with_reducible exact Keeps.refl _ | with_reducible apply Keeps.onU | (intro; intros))
theorem judgeBer_eq {z c y : Chip} (u raw : Nat) (t : UplinkTick)  {az} (ez : c.judgeBer u raw t = (y, az)) (hz : Keeps z c) : Keeps z y := by
  have := Keeps.judgeBer u raw t hz; rw [ez] at this; exact this
theorem judgeDeg {z c : Chip} (u raw : Nat) (sf : Bool) (hz : Keeps z c) : Keeps z (c.judgeDeg u raw sf).1 := by
  unfold Chip.judgeDeg
  repeat' (first | with_reducible assumption | with_reducible exact Keeps.refl _ | with_reducible apply Keeps.onU | (intro; intros))
theorem judgeDeg_eq {z c y : Chip} (u raw : Nat) (sf : Bool)  {az} (ez : c.judgeDeg u raw sf = (y, az)) (hz : Keeps z c) : Keeps z y := by
  have := Keeps.judgeDeg u raw sf hz; rw [ez] at this; exact this
theorem judgeOptics {z c : Chip} (k : Clock) (u : Nat) (t : UplinkTick) (hz : Keeps z c) : Keeps z (c.judgeOptics k u t).1 := by
  unfold Chip.judgeOptics
  repeat' (first | with_reducible assumption | with_reducible exact Keeps.refl _ | with_reducible apply Keeps.onU | with_reducible apply Keeps.setSt | with_reducible apply Keeps.setCond | (intro; intros))
theorem judgeOptics_eq {z c y : Chip} (k : Clock) (u : Nat) (t : UplinkTick)  {az} (ez : c.judgeOptics k u t = (y, az)) (hz : Keeps z c) : Keeps z y := by
  have := Keeps.judgeOptics k u t hz; rw [ez] at this; exact this
theorem refreshOptics {z c : Chip} (u : Nat) (t : UplinkTick) (hz : Keeps z c) : Keeps z (c.refreshOptics u t) := by
  unfold Chip.refreshOptics
  repeat' (first | with_reducible assumption | with_reducible exact Keeps.refl _ | with_reducible apply Keeps.setSt | (intro; intros))
theorem countTick {z c : Chip} (u raw : Nat) (t : UplinkTick) (hz : Keeps z c) : Keeps z (c.countTick u raw t) := by
  unfold Chip.countTick
  repeat' (first | with_reducible assumption | with_reducible exact Keeps.refl _ | with_reducible apply Keeps.addSt | with_reducible apply Keeps.onU | with_reducible apply Keeps.iteElse | (intro; intros))
theorem opticsOnly {z c : Chip} (k : Clock) (u : Nat) (t : UplinkTick) (hz : Keeps z c) : Keeps z (c.opticsOnly k u t) :=
  Keeps.causeIf _ _ _ _ (Keeps.judgeOptics k u t hz)
theorem slip {z c : Chip} (p : Nat) (rx : Bool) (f : Fld) (n : Nat) (hz : Keeps z c) : Keeps z (c.slip p rx f n) := by
  unfold Chip.slip
  repeat' (first | with_reducible assumption | with_reducible exact Keeps.refl _ | with_reducible apply Keeps.addSt | with_reducible apply Keeps.onSide | with_reducible apply Keeps.iteElse | (intro; intros))
theorem startSide {z c : Chip} (k : Clock) (p : Nat) (rx : Bool) (hz : Keeps z c) : Keeps z (c.startSide k p rx) := by
  unfold Chip.startSide
  repeat' (first | with_reducible assumption | with_reducible exact Keeps.refl _ | with_reducible apply Keeps.onSide | with_reducible apply Keeps.syncSide | with_reducible apply Keeps.iteElse | (intro; intros))
theorem endSide {z c : Chip} (k : Clock) (old : Bank) (p : Nat) (rx : Bool) (hz : Keeps z c) : Keeps z (c.endSide k old p rx) := by
  unfold Chip.endSide
  repeat' (first | with_reducible assumption | with_reducible exact Keeps.refl _ | with_reducible apply Keeps.onSide | with_reducible apply Keeps.addSt | with_reducible apply Keeps.setRun | with_reducible apply Keeps.stopSide | with_reducible apply Keeps.iteElse | (intro; intros))
theorem rewatch {z c : Chip} (k : Clock) (p : Nat) (rx : Bool) (hz : Keeps z c) : Keeps z (c.rewatch k p rx) := by
  unfold Chip.rewatch
  repeat' (first | with_reducible assumption | with_reducible exact Keeps.refl _ | with_reducible apply Keeps.onSide | with_reducible apply Keeps.upd | (intro; intros))
theorem setAudDef {z c : Chip} (k : Clock) (p new : Nat) (hz : Keeps z c) : Keeps z (c.setAudDef k p new) := by
  unfold Chip.setAudDef
  repeat' (first | with_reducible assumption | with_reducible exact Keeps.refl _ | with_reducible apply Keeps.setSt | with_reducible apply Keeps.causeIf | with_reducible apply Keeps.setCond | (intro; intros))
theorem slotSamples {z c : Chip} (p drop chan echo : Nat) (hz : Keeps z c) : Keeps z (c.slotSamples p drop chan echo).2 := by
  unfold Chip.slotSamples
  repeat' (first | with_reducible assumption | with_reducible exact Keeps.refl _ | with_reducible apply Keeps.addSt | with_reducible apply Keeps.iteElse | (intro; intros) | fail_if_no_progress extract_lets | split)
theorem slotSamples_eq {z c y : Chip} (p drop chan echo : Nat)  {a0} (ez : c.slotSamples p drop chan echo = (a0, y)) (hz : Keeps z c) : Keeps z y := by
  have := Keeps.slotSamples p drop chan echo hz; rw [ez] at this; exact this
theorem judgeAudio {z c : Chip} (k : Clock) (p : Nat) (hz : Keeps z c) : Keeps z (c.judgeAudio k p) := by
  unfold Chip.judgeAudio
  repeat' (first | with_reducible assumption | with_reducible exact Keeps.refl _ | with_reducible apply Keeps.onSide | with_reducible apply Keeps.setRun | with_reducible apply Keeps.setAudDef | with_reducible apply Keeps.iteElse | (intro; intros) | fail_if_no_progress extract_lets | split)
theorem rememberValid {z c : Chip} (echo : Nat) (hz : Keeps z c) : Keeps z (c.rememberValid echo) := by
  unfold Chip.rememberValid
  repeat' (first | with_reducible assumption | with_reducible exact Keeps.refl _ | with_reducible apply Keeps.foldl | with_reducible apply Keeps.iteElse | with_reducible apply Keeps.upd | (intro; intros))
theorem sawStart {z c : Chip} (k : Clock) (p : Nat) (rx good : Bool) (hz : Keeps z c) : Keeps z (c.sawStart k p rx good) := by
  unfold Chip.sawStart
  repeat' (first | with_reducible assumption | with_reducible exact Keeps.refl _ | with_reducible apply Keeps.onSide | with_reducible apply Keeps.addSt | with_reducible apply Keeps.iteElse | (intro; intros))
theorem slaveRx {z c : Chip} (k : Clock) (p periods : Nat) (frame : List Nat) (hz : Keeps z c) : Keeps z (c.slaveRx k p periods frame) := by
  unfold Chip.slaveRx
  repeat' (first | with_reducible assumption | with_reducible exact Keeps.refl _ | with_reducible apply Keeps.sawStart | with_reducible apply Keeps.slip | with_reducible apply Keeps.onSide | with_reducible apply Keeps.syncSide | with_reducible apply Keeps.iteElse | (intro; intros))
theorem slaveTx {z c : Chip} (k : Clock) (p periods : Nat) (hz : Keeps z c) : Keeps z (c.slaveTx k p periods) := by
  unfold Chip.slaveTx
  repeat' (first | with_reducible assumption | with_reducible exact Keeps.refl _ | with_reducible apply Keeps.sawStart | with_reducible apply Keeps.setRun | with_reducible apply Keeps.slip | with_reducible apply Keeps.onSide | with_reducible apply Keeps.syncSide | with_reducible apply Keeps.iteElse | (intro; intros) | fail_if_no_progress extract_lets | split)
theorem beginFrames {z c : Chip} (k : Clock) (p : Nat) (rx : Bool) (n0 : Nat) (hz : Keeps z c) : Keeps z (c.beginFrames k p rx n0) := by
  induction n0 generalizing c  p rx with
  | zero =>
    unfold Chip.beginFrames
    repeat' (first | with_reducible assumption | with_reducible exact Keeps.refl _ | with_reducible apply Keeps.onSide | with_reducible apply Keeps.setRun | with_reducible apply Keeps.syncSide | with_reducible apply Keeps.iteElse | with_reducible apply Keeps.upd | (intro; intros))
  | succ m ih =>
    unfold Chip.beginFrames
    repeat' (first | with_reducible assumption | with_reducible exact Keeps.refl _ | with_reducible apply ih | with_reducible apply Keeps.onSide | with_reducible apply Keeps.setRun | with_reducible apply Keeps.syncSide | with_reducible apply Keeps.iteElse | with_reducible apply Keeps.upd | (intro; intros))
theorem audioPass {z c : Chip} (k : Clock) (hz : Keeps z c) : Keeps z (c.audioPass k) := by
  unfold Chip.audioPass
  repeat' (first | with_reducible assumption | with_reducible exact Keeps.refl _ | with_reducible apply Keeps.beginFrames | with_reducible apply Keeps.overN | (intro; intros))
theorem audioOpen {z c : Chip} (k : Clock) (hz : Keeps z c) : Keeps z (c.audioOpen k) := by
  unfold Chip.audioOpen
  repeat' (first | with_reducible assumption | with_reducible exact Keeps.refl _ | with_reducible apply Keeps.startSide | with_reducible apply Keeps.audioPass | with_reducible apply Keeps.overN | (intro; intros))
theorem sidePpm {z c : Chip} (p : Nat) (rx : Bool) (hz : Keeps z c) : Keeps z (c.sidePpm p rx) := by
  unfold Chip.sidePpm
  repeat' (first | with_reducible assumption | with_reducible exact Keeps.refl _ | with_reducible apply Keeps.setSt | with_reducible apply Keeps.onSide | with_reducible apply Keeps.iteElse | (intro; intros))
theorem audioSecond {z c : Chip} (hz : Keeps z c) : Keeps z (c.audioSecond) := by
  unfold Chip.audioSecond
  repeat' (first | with_reducible assumption | with_reducible exact Keeps.refl _ | with_reducible apply Keeps.sidePpm | with_reducible apply Keeps.overN | with_reducible apply Keeps.iteElse | (intro; intros))

/-! ### DropOps -/
theorem syncDropSrc {z c : Chip} (k : Clock) (d : Nat) (hz : Keeps z c) : Keeps z (c.syncDropSrc k d) := by
  unfold Chip.syncDropSrc
  repeat' (first | with_reducible assumption | with_reducible exact Keeps.refl _ | with_reducible apply Keeps.setCond | (intro; intros))
theorem setDropDefs {z c : Chip} (k : Clock) (d new : Nat) (hz : Keeps z c) : Keeps z (c.setDropDefs k d new) := by
  unfold Chip.setDropDefs
  repeat' (first | with_reducible assumption | with_reducible exact Keeps.refl _ | with_reducible apply Keeps.setSt | with_reducible apply Keeps.causeIf | with_reducible apply Keeps.syncDropSrc | (intro; intros))
theorem setDropDef {z c : Chip} (k : Clock) (d n : Nat) (b : Bool) (hz : Keeps z c) : Keeps z (c.setDropDef k d n b) := by
  unfold Chip.setDropDef
  repeat' (first | with_reducible assumption | with_reducible exact Keeps.refl _ | with_reducible apply Keeps.setDropDefs | (intro; intros))
theorem countUp {z c : Chip} (f : Fld) (d n : Nat) (hz : Keeps z c) : Keeps z (c.countUp f d n) := by
  unfold Chip.countUp
  repeat' (first | with_reducible assumption | with_reducible exact Keeps.refl _ | with_reducible apply Keeps.addSt | with_reducible apply Keeps.iteElse | (intro; intros))
theorem slotCause {z c : Chip} (k : Clock) (d bits : Nat) (hz : Keeps z c) : Keeps z (c.slotCause k d bits) := by
  unfold Chip.slotCause
  repeat' (first | with_reducible assumption | with_reducible exact Keeps.refl _ | with_reducible apply Keeps.cause | (intro; intros))
theorem syncSlot {z c : Chip} (d : Nat) (hz : Keeps z c) : Keeps z (c.syncSlot d) := by
  unfold Chip.syncSlot
  repeat' (first | with_reducible assumption | with_reducible exact Keeps.refl _ | with_reducible apply Keeps.setSt | (intro; intros))
theorem setSlotDef {z c : Chip} (k : Clock) (d n : Nat) (f : Fld) (on off : Nat) (b : Bool) (hz : Keeps z c) : Keeps z (c.setSlotDef k d n f on off b) := by
  unfold Chip.setSlotDef
  repeat' (first | with_reducible assumption | with_reducible exact Keeps.refl _ | with_reducible apply Keeps.setSt | with_reducible apply Keeps.setDropDef | with_reducible apply Keeps.slotCause | with_reducible apply Keeps.iteElse | (intro; intros))
theorem setSmflt {z c : Chip} (k : Clock) (d : Nat) (b : Bool) (hz : Keeps z c) : Keeps z (c.setSmflt k d b) := by
  unfold Chip.setSmflt
  repeat' (first | with_reducible assumption | with_reducible exact Keeps.refl _ | with_reducible apply Keeps.setSlotDef | (intro; intros))
theorem setSmmis {z c : Chip} (k : Clock) (d : Nat) (b : Bool) (hz : Keeps z c) : Keeps z (c.setSmmis k d b) := by
  unfold Chip.setSmmis
  repeat' (first | with_reducible assumption | with_reducible exact Keeps.refl _ | with_reducible apply Keeps.setSlotDef | (intro; intros))
theorem setRange {z c : Chip} (k : Clock) (d : Nat) (b : Bool) (hz : Keeps z c) : Keeps z (c.setRange k d b) := by
  unfold Chip.setRange
  repeat' (first | with_reducible assumption | with_reducible exact Keeps.refl _ | with_reducible apply Keeps.setSlotDef | (intro; intros))
theorem setXcon {z c : Chip} (k : Clock) (d : Nat) (b : Bool) (hz : Keeps z c) : Keeps z (c.setXcon k d b) := by
  unfold Chip.setXcon
  repeat' (first | with_reducible assumption | with_reducible exact Keeps.refl _ | with_reducible apply Keeps.setSlotDef | (intro; intros))
theorem triggerOffer {z c : Chip} (d : Nat) (hz : Keeps z c) : Keeps z (c.triggerOffer d) := by
  unfold Chip.triggerOffer
  repeat' (first | with_reducible assumption | with_reducible exact Keeps.refl _ | with_reducible apply Keeps.onD | with_reducible apply Keeps.syncSlot | (intro; intros))
theorem withdrawOffer {z c : Chip} (k : Clock) (d : Nat) (hz : Keeps z c) : Keeps z (c.withdrawOffer k d) := by
  unfold Chip.withdrawOffer
  repeat' (first | with_reducible assumption | with_reducible exact Keeps.refl _ | with_reducible apply Keeps.onD | with_reducible apply Keeps.syncSlot | with_reducible apply Keeps.setSmflt | with_reducible apply Keeps.slotCause | (intro; intros))
theorem reOffer {z c : Chip} (k : Clock) (d : Nat) (hz : Keeps z c) : Keeps z (c.reOffer k d) := by
  unfold Chip.reOffer
  repeat' (first | with_reducible assumption | with_reducible exact Keeps.refl _ | with_reducible apply Keeps.onD | with_reducible apply Keeps.syncSlot | with_reducible apply Keeps.slotCause | (intro; intros))
theorem applyGen {z c : Chip} (k : Clock) (d : Nat) (hz : Keeps z c) : Keeps z (c.applyGen k d) := by
  unfold Chip.applyGen
  repeat' (first | with_reducible assumption | with_reducible exact Keeps.refl _ | with_reducible apply Keeps.onD | with_reducible apply Keeps.syncSlot | with_reducible apply Keeps.setSmflt | with_reducible apply Keeps.slotCause | with_reducible apply Keeps.iteElse | (intro; intros))
theorem setRxOpen {z c : Chip} (d kind : Nat) (b : Option Nat) (hz : Keeps z c) : Keeps z (c.setRxOpen d kind b) := by
  unfold Chip.setRxOpen
  repeat' (first | with_reducible assumption | with_reducible exact Keeps.refl _ | with_reducible apply Keeps.onD | (intro; intros))
theorem loseRx {z c : Chip} (k : Clock) (d kind : Nat) (hz : Keeps z c) : Keeps z (c.loseRx k d kind) := by
  unfold Chip.loseRx
  repeat' (first | with_reducible assumption | with_reducible exact Keeps.refl _ | with_reducible apply Keeps.setRxOpen | with_reducible apply Keeps.qRewind | with_reducible apply Keeps.qRewound | with_reducible apply Keeps.onQ | with_reducible apply Keeps.iteElse | (intro; intros) | fail_if_no_progress extract_lets | split)
theorem loseAllRx {z c : Chip} (k : Clock) (d : Nat) (hz : Keeps z c) : Keeps z (c.loseAllRx k d) := by
  unfold Chip.loseAllRx
  repeat' (first | with_reducible assumption | with_reducible exact Keeps.refl _ | with_reducible apply Keeps.loseRx | with_reducible apply Keeps.foldl | with_reducible apply Keeps.iteElse | (intro; intros))
theorem loseGone {z c : Chip} (k : Clock) (d n : Nat) (hz : Keeps z c) : Keeps z (c.loseGone k d n) := by
  unfold Chip.loseGone
  refine foldl _ hz fun a i h => ?_
  split
  · exact ite h (loseRx k d i h)
  · exact h
theorem haltGone {z c : Chip} (k : Clock) (d : Nat) (hz : Keeps z c) : Keeps z (c.haltGone k d) := by
  unfold Chip.haltGone
  repeat' (first | with_reducible assumption | with_reducible exact Keeps.refl _ | with_reducible apply Keeps.qReturn | with_reducible apply Keeps.onD | with_reducible apply Keeps.iteElse | (intro; intros))
theorem haltMch {z c : Chip} (k : Clock) (d : Nat) (hz : Keeps z c) : Keeps z (c.haltMch k d) := by
  unfold Chip.haltMch
  exact ite (onD d _ (qReturn k _ hz)) hz
theorem stopTx {z c : Chip} (k : Clock) (d : Nat) (hz : Keeps z c) : Keeps z (c.stopTx k d) := by
  unfold Chip.stopTx
  repeat' (first | with_reducible assumption | with_reducible exact Keeps.refl _ | with_reducible apply Keeps.qReturn | with_reducible apply Keeps.onD | with_reducible apply Keeps.iteElse | (intro; intros))
theorem dropHeads {z c : Chip} (k : Clock) (t : Nat) (n0 : Nat) (hz : Keeps z c) : Keeps z (c.dropHeads k t n0) := by
  induction n0 generalizing c with
  | zero => unfold Chip.dropHeads; repeat' (first | with_reducible assumption | (intro; intros))
  | succ n ih => unfold Chip.dropHeads; repeat' (first | with_reducible apply ih | with_reducible assumption | with_reducible exact Keeps.refl _ | with_reducible apply Keeps.setItems | with_reducible apply Keeps.discardItem | with_reducible apply Keeps.iteElse | (intro; intros) | fail_if_no_progress extract_lets | split)
theorem dropAllHeads {z c : Chip} (k : Clock) (hz : Keeps z c) : Keeps z (c.dropAllHeads k) := by
  unfold Chip.dropAllHeads
  repeat' (first | with_reducible assumption | with_reducible exact Keeps.refl _ | with_reducible apply Keeps.dropHeads | with_reducible apply Keeps.overN | with_reducible apply Keeps.iteElse | (intro; intros))
theorem disposeItems {z c : Chip} (k : Clock) (t : Nat) (up : Bool) (p : Item → Bool) (hz : Keeps z c) : Keeps z (c.disposeItems k t up p) := by
  unfold Chip.disposeItems
  repeat' (first | with_reducible assumption | with_reducible exact Keeps.refl _ | with_reducible apply Keeps.discardItem | with_reducible apply Keeps.setItems | with_reducible apply Keeps.foldl | with_reducible apply Keeps.iteElse | (intro; intros))
theorem disposeDrop {z c : Chip} (k : Clock) (d : Nat) (hz : Keeps z c) : Keeps z (c.disposeDrop k d) := by
  unfold Chip.disposeDrop
  repeat' (first | with_reducible assumption | with_reducible exact Keeps.refl _ | with_reducible apply Keeps.disposeItems | with_reducible apply Keeps.overN | with_reducible apply Keeps.iteElse | (intro; intros))
theorem breakPacket {z c : Chip} (d : Nat) (hz : Keeps z c) : Keeps z (c.breakPacket d) := by
  unfold Chip.breakPacket
  repeat' (first | with_reducible assumption | with_reducible exact Keeps.refl _ | with_reducible apply Keeps.onT | with_reducible apply Keeps.onD | with_reducible apply Keeps.iteElse | (intro; intros) | fail_if_no_progress extract_lets | split)
theorem setPs {z c : Chip} (k : Clock) (d : Nat) (ps : PState) (hz : Keeps z c) : Keeps z (c.setPs k d ps) := by
  unfold Chip.setPs
  repeat' (first | with_reducible assumption | with_reducible exact Keeps.refl _ | with_reducible apply Keeps.onD | with_reducible apply Keeps.setSt | with_reducible apply Keeps.syncDropSrc | (intro; intros))
theorem leaveSync {z c : Chip} (k : Clock) (d : Nat) (hz : Keeps z c) : Keeps z (c.leaveSync k d) := by
  unfold Chip.leaveSync
  repeat' (first | with_reducible assumption | with_reducible exact Keeps.refl _ | with_reducible apply Keeps.loseAllRx | with_reducible apply Keeps.onD | with_reducible apply Keeps.syncSlot | with_reducible apply Keeps.iteElse | (intro; intros))
theorem raiseLof {z c : Chip} (k : Clock) (d : Nat) (hz : Keeps z c) : Keeps z (c.raiseLof k d) := by
  unfold Chip.raiseLof
  repeat' (first | with_reducible assumption | with_reducible exact Keeps.refl _ | with_reducible apply Keeps.countUp | with_reducible apply Keeps.onD | with_reducible apply Keeps.setDropDef | with_reducible apply Keeps.iteElse | (intro; intros))
theorem enterUp {z c : Chip} (k : Clock) (d : Nat) (hz : Keeps z c) : Keeps z (c.enterUp k d) := by
  unfold Chip.enterUp
  repeat' (first | with_reducible assumption | with_reducible exact Keeps.refl _ | with_reducible apply Keeps.onD | with_reducible apply Keeps.setPs | with_reducible apply Keeps.cause | with_reducible apply Keeps.setDropDefs | (intro; intros))
theorem enterSelect {z c : Chip} (k : Clock) (d m : Nat) (hz : Keeps z c) : Keeps z (c.enterSelect k d m) := by
  unfold Chip.enterSelect
  repeat' (first | with_reducible assumption | with_reducible exact Keeps.refl _ | with_reducible apply Keeps.onD | with_reducible apply Keeps.setSt | with_reducible apply Keeps.setPs | (intro; intros))
theorem offerTick {z c : Chip} (d : Nat) (hz : Keeps z c) : Keeps z (c.offerTick d) := by
  unfold Chip.offerTick
  repeat' (first | with_reducible assumption | with_reducible exact Keeps.refl _ | with_reducible apply Keeps.onD | (intro; intros))

/-! ### DropFrame -/
theorem readPacket {z c : Chip} (k : Clock) (d n : Nat) (hz : Keeps z c) : Keeps z (c.readPacket k d n) := by
  unfold Chip.readPacket
  repeat' (first | with_reducible assumption | with_reducible exact Keeps.refl _ | with_reducible apply Keeps.onD | (with_reducible refine Keeps.readCells_eq (by with_reducible assumption) ?_) | with_reducible apply Keeps.readCells | with_reducible apply Keeps.iteElse | (intro; intros) | fail_if_no_progress extract_lets | split)
theorem endPacket {z c : Chip} (k : Clock) (d : Nat) (hz : Keeps z c) : Keeps z (c.endPacket k d) := by
  unfold Chip.endPacket
  repeat' (first | with_reducible assumption | with_reducible exact Keeps.refl _ | with_reducible apply Keeps.onD | with_reducible apply Keeps.setItems | with_reducible apply Keeps.discardItem | with_reducible apply Keeps.deliverItem | with_reducible apply Keeps.dropHeads | with_reducible apply Keeps.iteElse | (intro; intros) | fail_if_no_progress extract_lets | split)
theorem delayNow {z c : Chip} (k : Clock) (d : Nat) (hz : Keeps z c) : Keeps z (c.delayNow k d).2 := by
  unfold Chip.delayNow
  repeat' (first | with_reducible assumption | with_reducible exact Keeps.refl _ | (with_reducible refine Keeps.draw_eq (by with_reducible assumption) ?_) | with_reducible apply Keeps.draw | with_reducible apply Keeps.iteElse | (intro; intros) | (with_reducible refine Keeps.ofIte (by with_reducible assumption) ?_ ?_) | fail_if_no_progress extract_lets | split | (show Keeps _ (Prod.snd (Prod.mk _ _)); dsimp only))
theorem delayNow_eq {z c y : Chip} (k : Clock) (d : Nat) {w0} (ez : c.delayNow k d = (w0, y)) (hz : Keeps z c) : Keeps z y := by
  have := Keeps.delayNow k d hz; rw [ez] at this; exact this
theorem mgmtBytes {z c : Chip} (k : Clock) (d : Nat) (hz : Keeps z c) : Keeps z (c.mgmtBytes k d).2 := by
  unfold Chip.mgmtBytes
  repeat' (first | with_reducible assumption | with_reducible exact Keeps.refl _ | with_reducible apply Keeps.onD | with_reducible apply Keeps.iteElse | (intro; intros) | fail_if_no_progress extract_lets | split)
theorem mgmtBytes_eq {z c y : Chip} (k : Clock) (d : Nat)  {a0} (ez : c.mgmtBytes k d = (a0, y)) (hz : Keeps z c) : Keeps z y := by
  have := Keeps.mgmtBytes k d hz; rw [ez] at this; exact this
theorem composeHeader {z c : Chip} (k : Clock) (d dark : Nat) (hz : Keeps z c) : Keeps z (c.composeHeader k d dark).2 := by
  unfold Chip.composeHeader
  repeat' (first | with_reducible assumption | with_reducible exact Keeps.refl _ | (with_reducible refine Keeps.delayNow_eq (by with_reducible assumption) ?_) | with_reducible apply Keeps.delayNow | (with_reducible refine Keeps.mgmtBytes_eq (by with_reducible assumption) ?_) | with_reducible apply Keeps.mgmtBytes | with_reducible apply Keeps.setSt | with_reducible apply Keeps.onD | with_reducible apply Keeps.iteElse | with_reducible apply Keeps.upd | (intro; intros) | (with_reducible refine Keeps.ofIte (by with_reducible assumption) ?_ ?_) | fail_if_no_progress extract_lets | split | (show Keeps _ (Prod.snd (Prod.mk _ _)); dsimp only))
theorem composeHeader_eq {z c y : Chip} (k : Clock) (d dark : Nat) {w0} (ez : c.composeHeader k d dark = (w0, y)) (hz : Keeps z c) : Keeps z y := by
  have := Keeps.composeHeader k d dark hz; rw [ez] at this; exact this
theorem writeHalf {z c : Chip} (h : Nat × Nat) (hz : Keeps z c) : Keeps z (c.writeHalf h) := by
  unfold Chip.writeHalf
  repeat' (first | with_reducible assumption | with_reducible exact Keeps.refl _ | with_reducible apply Keeps.onM | with_reducible apply Keeps.iteElse | with_reducible apply Keeps.upd | (intro; intros))
theorem readHalf {z c : Chip} (k : Clock) (h : Nat × Nat) (hz : Keeps z c) : Keeps z (c.readHalf k h).2 := by
  unfold Chip.readHalf
  repeat' (first | with_reducible assumption | with_reducible exact Keeps.refl _ | with_reducible apply Keeps.onM | with_reducible apply Keeps.srcEvent | with_reducible apply Keeps.foldl | with_reducible apply Keeps.iteElse | with_reducible apply Keeps.upd | (intro; intros) | (with_reducible refine Keeps.ofIte (by with_reducible assumption) ?_ ?_) | fail_if_no_progress extract_lets | split | (show Keeps _ (Prod.snd (Prod.mk _ _)); dsimp only))
theorem readHalf_eq {z c y : Chip} (k : Clock) (h : Nat × Nat) {w0} (ez : c.readHalf k h = (w0, y)) (hz : Keeps z c) : Keeps z y := by
  have := Keeps.readHalf k h hz; rw [ez] at this; exact this
theorem takeSource {z c : Chip} (n : Nat) (up : Bool) (d b : Nat) (hz : Keeps z c) : Keeps z (c.takeSource n up d b) := by
  unfold Chip.takeSource
  repeat' (first | with_reducible assumption | with_reducible exact Keeps.refl _ | with_reducible apply Keeps.writeHalf | with_reducible apply Keeps.iteElse | (intro; intros))
theorem skipGroomed {z c : Chip} (d n : Nat) (hz : Keeps z c) : Keeps z (c.skipGroomed d n) := by
  unfold Chip.skipGroomed
  repeat' (first | with_reducible assumption | with_reducible exact Keeps.refl _ | with_reducible apply Keeps.onM | with_reducible apply Keeps.iteElse | with_reducible apply Keeps.upd | (intro; intros))
theorem openFrame {z c : Chip} (k : Clock) (d : Nat) (hz : Keeps z c) : Keeps z (c.openFrame k d) := by
  unfold Chip.openFrame
  repeat' (first | with_reducible assumption | with_reducible exact Keeps.refl _ | (with_reducible refine Keeps.composeHeader_eq (by with_reducible assumption) ?_) | with_reducible apply Keeps.composeHeader | with_reducible apply Keeps.onD | with_reducible apply Keeps.countUp | with_reducible apply Keeps.skipGroomed | with_reducible apply Keeps.upd | (intro; intros) | fail_if_no_progress extract_lets | split)
theorem closeFrame {z c : Chip} (k : Clock) (d : Nat) (hz : Keeps z c) : Keeps z (c.closeFrame k d) := by
  unfold Chip.closeFrame
  repeat' (first | with_reducible assumption | with_reducible exact Keeps.refl _ | with_reducible apply Keeps.onD | with_reducible apply Keeps.upd | (intro; intros))
theorem commitWake {z c : Chip} (k : Clock) (hz : Keeps z c) : Keeps z (c.commitWake k) := by
  unfold Chip.commitWake
  repeat' (first | with_reducible assumption | with_reducible exact Keeps.refl _ | with_reducible apply Keeps.beginWake | with_reducible apply Keeps.foldl | with_reducible apply Keeps.iteElse | (intro; intros))

/-! ### RoleOps -/
theorem reqCause {z c : Chip} (k : Clock) (hz : Keeps z c) : Keeps z (c.reqCause k) := by
  unfold Chip.reqCause
  repeat' (first | with_reducible assumption | with_reducible exact Keeps.refl _ | with_reducible apply Keeps.orSt | with_reducible apply Keeps.icause | (intro; intros))
theorem settleReq {z c : Chip} (k : Clock) (code : Nat) (hz : Keeps z c) : Keeps z (c.settleReq k code) := by
  unfold Chip.settleReq
  repeat' (first | with_reducible assumption | with_reducible exact Keeps.refl _ | with_reducible apply Keeps.onTwin | with_reducible apply Keeps.setSt | with_reducible apply Keeps.reqCause | (intro; intros))
theorem roleRequest {z c : Chip} (k : Clock) (req : Nat) (hz : Keeps z c) : Keeps z (c.roleRequest k req) := by
  unfold Chip.roleRequest
  repeat' (first | with_reducible assumption | with_reducible exact Keeps.refl _ | with_reducible apply Keeps.settleReq | with_reducible apply Keeps.setSt | with_reducible apply Keeps.reqCause | with_reducible apply Keeps.onTwin | with_reducible apply Keeps.syncClaim | with_reducible apply Keeps.iteElse | (intro; intros))
theorem setPeer {z c : Chip} (l : Bool) (hz : Keeps z c) : Keeps z (c.setPeer l) := by
  unfold Chip.setPeer
  repeat' (first | with_reducible assumption | with_reducible exact Keeps.refl _ | with_reducible apply Keeps.onTwin | with_reducible apply Keeps.setSt | (intro; intros))

/-! ### ApplyOps -/
theorem forRows {z c : Chip} (rows : List Nat) {f : Nat → Chip → Chip} (hz : Keeps z c) (hf : ∀ r a, Keeps z a → Keeps z (f r a)) :
    Keeps z (c.forRows rows f) := foldl _ hz (fun a x h => hf x a h)
theorem grpMode {z c : Chip} (old : Bank) (g : Nat) (hz : Keeps z c) : Keeps z (c.grpMode old g) := by
  unfold Chip.grpMode
  repeat' (first | with_reducible assumption | with_reducible exact Keeps.refl _ | with_reducible apply Keeps.setSt | with_reducible apply Keeps.rearm | with_reducible apply Keeps.overN | with_reducible apply Keeps.iteElse | (intro; intros))
theorem srcWindow {z c : Chip} (k : Clock) (old : Bank) (s : Nat) (hz : Keeps z c) : Keeps z (c.srcWindow k old s) := by
  unfold Chip.srcWindow
  repeat' (first | with_reducible assumption | with_reducible exact Keeps.refl _ | with_reducible apply Keeps.openWindow | with_reducible apply Keeps.iteElse | (intro; intros))
theorem grpRearm {z c : Chip} (old : Bank) (g : Nat) (hz : Keeps z c) : Keeps z (c.grpRearm old g) := by
  unfold Chip.grpRearm
  repeat' (first | with_reducible assumption | with_reducible exact Keeps.refl _ | with_reducible apply Keeps.setSt | with_reducible apply Keeps.rearm | with_reducible apply Keeps.iteElse | (intro; intros))
theorem injApply {z c : Chip} (k : Clock) (old : Bank) (hz : Keeps z c) : Keeps z (c.injApply k old) := by
  unfold Chip.injApply
  repeat' (first | with_reducible assumption | with_reducible exact Keeps.refl _ | with_reducible apply Keeps.setSt | with_reducible apply Keeps.onCol | with_reducible apply Keeps.iteElse | (intro; intros))
theorem colApply {z c : Chip} (k : Clock) (old : Bank) (hz : Keeps z c) : Keeps z (c.colApply k old) := by
  unfold Chip.colApply
  repeat' (first | with_reducible assumption | with_reducible exact Keeps.refl _ | with_reducible apply Keeps.injApply | with_reducible apply Keeps.syncShade | with_reducible apply Keeps.syncFaultN | with_reducible apply Keeps.forRows | with_reducible apply Keeps.grpRearm | with_reducible apply Keeps.grpMode | with_reducible apply Keeps.srcWindow | with_reducible apply Keeps.putFlt | with_reducible apply Keeps.cleared | with_reducible apply Keeps.srcEvent | with_reducible apply Keeps.iteElse | (intro; intros))
theorem dropQueues {z c : Chip} (k : Clock) (old : Bank) (d : Nat) (hz : Keeps z c) : Keeps z (c.dropQueues k old d) := by
  unfold Chip.dropQueues
  repeat' (first | with_reducible assumption | with_reducible exact Keeps.refl _ | with_reducible apply Keeps.setRxOpen | with_reducible apply Keeps.qReturn | with_reducible apply Keeps.onD | with_reducible apply Keeps.iteElse | (intro; intros))
theorem timingApply {z c : Chip} (old : Bank) (hz : Keeps z c) : Keeps z (c.timingApply old) := by
  unfold Chip.timingApply
  exact ite hz (overN 96 hz fun d a h => setRxOpen d 7 none h)
theorem slotApply {z c : Chip} (k : Clock) (old : Bank) (d : Nat) (hz : Keeps z c) : Keeps z (c.slotApply k old d) := by
  unfold Chip.slotApply
  repeat' (first | with_reducible assumption | with_reducible exact Keeps.refl _ | with_reducible apply Keeps.triggerOffer | with_reducible apply Keeps.withdrawOffer | with_reducible apply Keeps.iteElse | (intro; intros))
theorem wakeLate {z c : Chip} (k : Clock) (p : PwrState → Bool) (hz : Keeps z c) : Keeps z (c.wakeLate k p) := by
  unfold Chip.wakeLate
  repeat' (first | with_reducible assumption | with_reducible exact Keeps.refl _ | with_reducible apply Keeps.beginWake | with_reducible apply Keeps.onU | with_reducible apply Keeps.addSt | with_reducible apply Keeps.cause | with_reducible apply Keeps.onPow | with_reducible apply Keeps.foldl | with_reducible apply Keeps.iteElse | (intro; intros))
theorem lateWakes {z c : Chip} (k : Clock) (hz : Keeps z c) : Keeps z (c.lateWakes k) := by
  unfold Chip.lateWakes
  repeat' (first | with_reducible assumption | with_reducible exact Keeps.refl _ | with_reducible apply Keeps.wakeLate | (intro; intros))
theorem nightLate {z c : Chip} (k : Clock) (hz : Keeps z c) : Keeps z (c.nightLate k) := by
  unfold Chip.nightLate
  repeat' (first | with_reducible assumption | with_reducible exact Keeps.refl _ | with_reducible apply Keeps.wakeLate | (intro; intros))
theorem setTwn {z c : Chip} (k : Clock) (f : Fld) (v n : Nat) (hz : Keeps z c) : Keeps z (c.setTwn k f v n) := by
  unfold Chip.setTwn
  repeat' (first | with_reducible assumption | with_reducible exact Keeps.refl _ | with_reducible apply Keeps.setSt | with_reducible apply Keeps.cause | with_reducible apply Keeps.iteElse | (intro; intros))
theorem syncTwin {z c : Chip} (k : Clock) (hz : Keeps z c) : Keeps z (c.syncTwin k) := by
  unfold Chip.syncTwin
  repeat' (first | with_reducible assumption | with_reducible exact Keeps.refl _ | with_reducible apply Keeps.disarm | with_reducible apply Keeps.setCond | with_reducible apply Keeps.iteElse | (intro; intros))
theorem tryAttach {z c : Chip} (hz : Keeps z c) : Keeps z (c.tryAttach) := by
  unfold Chip.tryAttach
  repeat' (first | with_reducible assumption | with_reducible exact Keeps.refl _ | with_reducible apply Keeps.onTwin | with_reducible apply Keeps.iteElse | (intro; intros))
theorem endAttach {z c : Chip} (hz : Keeps z c) : Keeps z (c.endAttach) := by
  unfold Chip.endAttach
  repeat' (first | with_reducible assumption | with_reducible exact Keeps.refl _ | with_reducible apply Keeps.onTwin | (intro; intros))
theorem takeCompat {z c : Chip} (k : Clock) (w : Word) (hz : Keeps z c) : Keeps z (c.takeCompat k w) := by
  unfold Chip.takeCompat
  repeat' (first | with_reducible assumption | with_reducible exact Keeps.refl _ | with_reducible apply Keeps.onTwin | with_reducible apply Keeps.setSt | with_reducible apply Keeps.setTwn | with_reducible apply Keeps.srcEvent | with_reducible apply Keeps.iteElse | (intro; intros))
theorem linkDown {z c : Chip} (k : Clock) (hz : Keeps z c) : Keeps z (c.linkDown k) := by
  unfold Chip.linkDown
  repeat' (first | with_reducible assumption | with_reducible exact Keeps.refl _ | with_reducible apply Keeps.setTwn | with_reducible apply Keeps.endAttach | with_reducible apply Keeps.onTwin | with_reducible apply Keeps.refRole | with_reducible apply Keeps.syncTwin | (intro; intros))
theorem sweepCopies {z c : Chip} (k : Clock) (hz : Keeps z c) : Keeps z (c.sweepCopies k) := by
  unfold Chip.sweepCopies
  repeat' (first | with_reducible assumption | with_reducible exact Keeps.refl _ | with_reducible apply Keeps.discardItem | with_reducible apply Keeps.setItems | with_reducible apply Keeps.foldl | with_reducible apply Keeps.overN | with_reducible apply Keeps.iteElse | (intro; intros))
theorem setHorizon {z c : Chip} (k : Clock) (e : Nat) (hz : Keeps z c) : Keeps z (c.setHorizon k e) := by
  unfold Chip.setHorizon
  repeat' (first | with_reducible assumption | with_reducible exact Keeps.refl _ | with_reducible apply Keeps.onTwin | with_reducible apply Keeps.sweepCopies | with_reducible apply Keeps.iteElse | (intro; intros))
theorem sawGap {z c : Chip} (k : Clock) (last : Nat) (hz : Keeps z c) : Keeps z (c.sawGap k last) := by
  unfold Chip.sawGap
  repeat' (first | with_reducible assumption | with_reducible exact Keeps.refl _ | with_reducible apply Keeps.onTwin | with_reducible apply Keeps.setSt | with_reducible apply Keeps.cause | (intro; intros))
theorem takeSeq {z c : Chip} (k : Clock) (s : Nat) (hz : Keeps z c) : Keeps z (c.takeSeq k s) := by
  unfold Chip.takeSeq
  repeat' (first | with_reducible assumption | with_reducible exact Keeps.refl _ | with_reducible apply Keeps.sawGap | with_reducible apply Keeps.onTwin | with_reducible apply Keeps.iteElse | (intro; intros) | fail_if_no_progress extract_lets | split)
theorem addDesc {z c : Chip} (k : Clock) (d : Desc) (hz : Keeps z c) : Keeps z (c.addDesc k d) := by
  unfold Chip.addDesc
  repeat' (first | with_reducible assumption | with_reducible exact Keeps.refl _ | with_reducible apply Keeps.takeSeq | with_reducible apply Keeps.setItems | with_reducible apply Keeps.onTwin | with_reducible apply Keeps.setHorizon | with_reducible apply Keeps.iteElse | (intro; intros) | fail_if_no_progress extract_lets | split)
theorem retireDesc {z c : Chip} (k : Clock) (s : Nat) (hz : Keeps z c) : Keeps z (c.retireDesc k s) := by
  unfold Chip.retireDesc
  repeat' (first | with_reducible assumption | with_reducible exact Keeps.refl _ | with_reducible apply Keeps.onTwin | with_reducible apply Keeps.discardItem | with_reducible apply Keeps.setItems | with_reducible apply Keeps.foldl | with_reducible apply Keeps.overN | with_reducible apply Keeps.iteElse | (intro; intros))
theorem mapItems {z c : Chip} (f : Item → Item) (hz : Keeps z c) : Keeps z (c.mapItems f) := by
  unfold Chip.mapItems
  repeat' (first | with_reducible assumption | with_reducible exact Keeps.refl _ | with_reducible apply Keeps.onT | with_reducible apply Keeps.overN | with_reducible apply Keeps.iteElse | (intro; intros))
theorem setRole {z c : Chip} (k : Clock) (r : Role) (hz : Keeps z c) : Keeps z (c.setRole k r) := by
  unfold Chip.setRole
  repeat' (first | with_reducible assumption | with_reducible exact Keeps.refl _ | with_reducible apply Keeps.onTwin | with_reducible apply Keeps.cause | (intro; intros))
theorem afterRole {z c : Chip} (k : Clock) (was : Bool) (hz : Keeps z c) : Keeps z (c.afterRole k was) := by
  unfold Chip.afterRole
  repeat' (first | with_reducible assumption | with_reducible exact Keeps.refl _ | with_reducible apply Keeps.refRole | with_reducible apply Keeps.dpllApply | with_reducible apply Keeps.reshade | with_reducible apply Keeps.tryAttach | with_reducible apply Keeps.syncTwin | (intro; intros))
theorem lightItem {z c : Chip} (k : Clock) (it : Item) (hz : Keeps z c) : Keeps z (c.lightItem k it) := by
  unfold Chip.lightItem
  repeat' (first | with_reducible assumption | with_reducible exact Keeps.refl _ | with_reducible apply Keeps.addSt | with_reducible apply Keeps.setItems | with_reducible apply Keeps.discardItem | with_reducible apply Keeps.iteElse | (intro; intros))
theorem lightItems {z c : Chip} (k : Clock) (hz : Keeps z c) : Keeps z (c.lightItems k) := by
  unfold Chip.lightItems
  repeat' (first | with_reducible assumption | with_reducible exact Keeps.refl _ | with_reducible apply Keeps.lightItem | with_reducible apply Keeps.setItems | with_reducible apply Keeps.countDisc | with_reducible apply Keeps.addSt | with_reducible apply Keeps.failRecord | with_reducible apply Keeps.onTwin | with_reducible apply Keeps.srcEvent | with_reducible apply Keeps.foldl | with_reducible apply Keeps.overN | with_reducible apply Keeps.iteElse | (intro; intros))
theorem judgeSensors {z c : Chip} (k : Clock) (l : List Int) (hz : Keeps z c) : Keeps z (c.judgeSensors k l) := by
  unfold Chip.judgeSensors
  repeat' (first | with_reducible assumption | with_reducible exact Keeps.refl _ | with_reducible apply Keeps.onPow | with_reducible apply Keeps.cause | with_reducible apply Keeps.iteElse | (intro; intros))
theorem judgeHeat {z c : Chip} (k : Clock) (l : List Int) (hz : Keeps z c) : Keeps z (c.judgeHeat k l) := by
  unfold Chip.judgeHeat
  repeat' (first | with_reducible assumption | with_reducible exact Keeps.refl _ | with_reducible apply Keeps.setSt | with_reducible apply Keeps.onPow | with_reducible apply Keeps.cause | with_reducible apply Keeps.setCond | with_reducible apply Keeps.iteElse | (intro; intros))
theorem judgeSupply {z c : Chip} (k : Clock) (vin vio pin : Nat) (reg : Bool) (hz : Keeps z c) : Keeps z (c.judgeSupply k vin vio pin reg) := by
  unfold Chip.judgeSupply
  repeat' (first | with_reducible assumption | with_reducible exact Keeps.refl _ | with_reducible apply Keeps.setSt | with_reducible apply Keeps.onPow | with_reducible apply Keeps.causeIf | with_reducible apply Keeps.setCond | (intro; intros))
theorem powerPlan {z c : Chip} (k : Clock) (tsens : List Int) (vin vio pin : Nat) (reg : Bool) (hz : Keeps z c) : Keeps z (c.powerPlan k tsens vin vio pin reg) := by
  unfold Chip.powerPlan
  repeat' (first | with_reducible assumption | with_reducible exact Keeps.refl _ | with_reducible apply Keeps.setSt | with_reducible apply Keeps.judgeSensors | with_reducible apply Keeps.judgeHeat | with_reducible apply Keeps.judgeSupply | with_reducible apply Keeps.onPow | with_reducible apply Keeps.overN | with_reducible apply Keeps.iteElse | (intro; intros))
theorem nightWake {z c : Chip} (k : Clock) (hz : Keeps z c) : Keeps z (c.nightWake k) := by
  unfold Chip.nightWake
  repeat' (first | with_reducible assumption | with_reducible exact Keeps.refl _ | with_reducible apply Keeps.beginWake | with_reducible apply Keeps.foldl | with_reducible apply Keeps.iteElse | (intro; intros) | fail_if_no_progress extract_lets | split)
theorem darkWake {z c : Chip} (k : Clock) (hz : Keeps z c) : Keeps z (c.darkWake k) := by
  unfold Chip.darkWake
  repeat' (first | with_reducible assumption | with_reducible exact Keeps.refl _ | with_reducible apply Keeps.beginWake | with_reducible apply Keeps.foldl | with_reducible apply Keeps.iteElse | (intro; intros))
theorem enterState {z c : Chip} (k : Clock) (b : Nat) (s : PwrState) (hz : Keeps z c) : Keeps z (c.enterState k b s) := by
  unfold Chip.enterState
  repeat' (first | with_reducible assumption | with_reducible exact Keeps.refl _ | with_reducible apply Keeps.setBlk | with_reducible apply Keeps.iteElse | (intro; intros))

/-! ### Heath -/
theorem meetEcc {z c : Chip} (k : Clock) (bank a : Nat) (hz : Keeps z c) : Keeps z (c.meetEcc k bank a) := by
  unfold Chip.meetEcc
  repeat' (first | with_reducible assumption | with_reducible exact Keeps.refl _ | (with_reducible refine Keeps.onHeath ?_ (fun _ => ⟨rfl, rfl, rfl, rfl, rfl⟩)) | with_reducible apply Keeps.onDir | with_reducible apply Keeps.srcEvent | with_reducible apply Keeps.restand | with_reducible apply Keeps.iteElse | (intro; intros) | fail_if_no_progress extract_lets | split)
theorem meetRead {z c : Chip} (k : Clock) (a : Nat) (hz : Keeps z c) : Keeps z (c.meetRead k a) := by
  unfold Chip.meetRead
  repeat' (first | with_reducible assumption | with_reducible exact Keeps.refl _ | with_reducible apply Keeps.meetEcc | (intro; intros) | fail_if_no_progress extract_lets | split)
theorem bumpAddr {z c : Chip} (hz : Keeps z c) : Keeps z (c.bumpAddr) := by
  unfold Chip.bumpAddr
  repeat' (first | with_reducible assumption | with_reducible exact Keeps.refl _ | with_reducible apply Keeps.onWin | with_reducible apply Keeps.iteElse | (intro; intros))

/-! ### CommitOps -/
theorem takeVerdict {z c : Chip} (k : Clock) (hz : Keeps z c) : Keeps z (c.takeVerdict k) := by
  unfold Chip.takeVerdict
  repeat' (first | with_reducible assumption | with_reducible exact Keeps.refl _ | with_reducible apply Keeps.restand | with_reducible apply Keeps.onWin | with_reducible apply Keeps.iteElse | (intro; intros))
theorem readStaged {z c : Chip} (k : Clock) (hz : Keeps z c) : Keeps z (c.readStaged k) := by
  unfold Chip.readStaged
  repeat' (first | with_reducible assumption | with_reducible exact Keeps.refl _ | with_reducible apply Keeps.meetEcc | with_reducible apply Keeps.foldl | with_reducible apply Keeps.iteElse | (intro; intros))
theorem commitRejects {z c : Chip} (k : Clock) (cause : Nat) (hz : Keeps z c) : Keeps z (c.commitRejects k cause) := by
  unfold Chip.commitRejects
  repeat' (first | with_reducible assumption | with_reducible exact Keeps.refl _ | with_reducible apply Keeps.onDir | with_reducible apply Keeps.onWin | with_reducible apply Keeps.icause | (intro; intros))
theorem heathCheck {z c : Chip} (k : Clock) (bank a fresh : Nat) (hz : Keeps z c) : Keeps z (c.heathCheck k bank a fresh) := by
  unfold Chip.heathCheck
  repeat' (first | with_reducible assumption | with_reducible exact Keeps.refl _ | (with_reducible refine Keeps.onHeath ?_ (fun _ => ⟨rfl, rfl, rfl, rfl, rfl⟩)) | with_reducible apply Keeps.meetEcc | with_reducible apply Keeps.iteElse | (intro; intros) | fail_if_no_progress extract_lets | split)

/-! ### DropCmd -/
theorem blocksRead {z c : Chip} (k : Clock) (hz : Keeps z c) : Keeps z (c.blocksRead k) := by
  unfold Chip.blocksRead
  repeat' (first | with_reducible assumption | with_reducible exact Keeps.refl _ | (with_reducible refine Keeps.draw_eq (by with_reducible assumption) ?_) | with_reducible apply Keeps.draw | with_reducible apply Keeps.meetEcc | with_reducible apply Keeps.foldl | with_reducible apply Keeps.iteElse | (intro; intros) | fail_if_no_progress extract_lets | split)
theorem huntWord {z c : Chip} (k : Clock) (d errs : Nat) (hz : Keeps z c) : Keeps z (c.huntWord k d errs) := by
  unfold Chip.huntWord
  repeat' (first | with_reducible assumption | with_reducible exact Keeps.refl _ | with_reducible apply Keeps.leaveSync | with_reducible apply Keeps.raiseLof | with_reducible apply Keeps.onD | with_reducible apply Keeps.setDropDef | with_reducible apply Keeps.iteElse | (intro; intros))
theorem checkSmlive {z c : Chip} (k : Clock) (d live echo : Nat) (hz : Keeps z c) : Keeps z (c.checkSmlive k d live echo) := by
  unfold Chip.checkSmlive
  repeat' (first | with_reducible assumption | with_reducible exact Keeps.refl _ | with_reducible apply Keeps.onD | with_reducible apply Keeps.setSmmis | with_reducible apply Keeps.reOffer | with_reducible apply Keeps.iteElse | (intro; intros))
theorem rangeHeader {z c : Chip} (k : Clock) (d echo ago : Nat) (ofscor : Int) (hz : Keeps z c) : Keeps z (c.rangeHeader k d echo ago ofscor) := by
  unfold Chip.rangeHeader
  repeat' (first | with_reducible assumption | with_reducible exact Keeps.refl _ | with_reducible apply Keeps.onD | with_reducible apply Keeps.setSt | with_reducible apply Keeps.setRange | with_reducible apply Keeps.iteElse | (intro; intros))
theorem twinHeader {z c : Chip} (k : Clock) (d : Nat) (bs : List Byte) (hz : Keeps z c) : Keeps z (c.twinHeader k d bs) := by
  unfold Chip.twinHeader
  repeat' (first | with_reducible assumption | with_reducible exact Keeps.refl _ | with_reducible apply Keeps.onD | with_reducible apply Keeps.leaveSync | with_reducible apply Keeps.raiseLof | with_reducible apply Keeps.iteElse | with_reducible apply Keeps.upd | (intro; intros) | fail_if_no_progress extract_lets | split)
theorem rxPiece {z c : Chip} (k : Clock) (d kind run : Nat) (sop eop : Bool) (data : List Byte) (hz : Keeps z c) : Keeps z (c.rxPiece k d kind run sop eop data) := by
  unfold Chip.rxPiece
  repeat' (first | with_reducible assumption | with_reducible exact Keeps.refl _ | with_reducible apply Keeps.loseRx | with_reducible apply Keeps.setRxOpen | with_reducible apply Keeps.qBegin | with_reducible apply Keeps.qPush | with_reducible apply Keeps.qEnd | with_reducible apply Keeps.addSt | with_reducible apply Keeps.iteElse | (intro; intros) | fail_if_no_progress extract_lets | split)
theorem mgmtRx {z c : Chip} (k : Clock) (d : Nat) (bs : List Byte) (hz : Keeps z c) : Keeps z (c.mgmtRx k d bs) := by
  unfold Chip.mgmtRx
  repeat' (first | with_reducible assumption | with_reducible exact Keeps.refl _ | with_reducible apply Keeps.rxPiece | (intro; intros))
theorem trainMsg {z c : Chip} (k : Clock) (d : Nat) (msg : List Byte) (snr : Nat) (hz : Keeps z c) : Keeps z (c.trainMsg k d msg snr) := by
  unfold Chip.trainMsg
  repeat' (first | with_reducible assumption | with_reducible exact Keeps.refl _ | with_reducible apply Keeps.setSt | with_reducible apply Keeps.onD | with_reducible apply Keeps.foldl | with_reducible apply Keeps.iteElse | (intro; intros))
theorem trainWord {z c : Chip} (d : Nat) (bytes : List Byte) (snr : Nat) (hz : Keeps z c) : Keeps z (c.trainWord d bytes snr) :=
  onD d _ hz
theorem trainMsgs {z c : Chip} (k : Clock) (d : Nat) (pre : Option (List Byte × Nat)) (msg : List Byte) (snr : Nat) (hz : Keeps z c) :
    Keeps z (c.trainMsgs k d pre msg snr) := by
  unfold Chip.trainMsgs
  refine ite hz ?_
  split
  · exact trainMsg k d _ _ (trainMsg k d _ _ hz)
  · exact trainMsg k d _ _ hz
theorem answerRx {z c : Chip} (k : Clock) (d : Nat) (bytes : List Byte) (snr : Nat) (hz : Keeps z c) : Keeps z (c.answerRx k d bytes snr) := by
  unfold Chip.answerRx
  exact ite hz (trainMsgs k d _ _ _ (trainWord d bytes snr hz))
theorem judgeDrop {z c : Chip} (k : Clock) (d : Nat) (t : DropTick) (hz : Keeps z c) : Keeps z (c.judgeDrop k d t) := by
  unfold Chip.judgeDrop
  repeat' (first | with_reducible assumption | with_reducible exact Keeps.refl _ | with_reducible apply Keeps.setSt | with_reducible apply Keeps.onD | with_reducible apply Keeps.setDropDefs | with_reducible apply Keeps.iteElse | (intro; intros))

/-! ### Map -/
theorem unknownFrame {z c : Chip} (u : Nat) (hz : Keeps z c) : Keeps z (c.unknownFrame u) := by
  unfold Chip.unknownFrame
  repeat' (first | with_reducible assumption | with_reducible exact Keeps.refl _ | with_reducible apply Keeps.addSt | (intro; intros))
theorem refuseFrame {z c : Chip} (k : Clock) (t : Nat) (up : Bool) (cause len : Nat) (hz : Keeps z c) : Keeps z (c.refuseFrame k t up cause len) := by
  unfold Chip.refuseFrame
  repeat' (first | with_reducible assumption | with_reducible exact Keeps.refl _ | with_reducible apply Keeps.countDisc | with_reducible apply Keeps.failRecord | (with_reducible refine Keeps.draw_eq (by with_reducible assumption) ?_) | with_reducible apply Keeps.draw | with_reducible apply Keeps.iteElse | (intro; intros))
theorem visit {z : Chip} (u : Nat) (n : Nat) : ∀ (r : Nat) {c : Chip}, Keeps z c → Keeps z (c.visit u r n).2 := by
  induction n with
  | zero => intro r c hz; exact hz
  | succ m ih =>
    intro r c hz
    unfold Chip.visit
    extract_lets t c1
    have h1 : Keeps z c1 := onT _ _ hz
    split
    · split
      · exact h1
      · exact ih _ h1
    · exact ih _ hz
theorem visit_eq {z c y : Chip} (u r : Nat) (n0 : Nat) {a0} (ez : c.visit u r n0 = (a0, y)) (hz : Keeps z c) : Keeps z y := by
  have := Keeps.visit u n0 r hz; rw [ez] at this; exact this
theorem schedule {z c : Chip} (u : Nat) (hz : Keeps z c) : Keeps z (c.schedule u).2 := by
  unfold Chip.schedule
  repeat' (first | with_reducible assumption | with_reducible exact Keeps.refl _ | (with_reducible refine Keeps.visit_eq (by with_reducible assumption) ?_) | with_reducible apply Keeps.visit | with_reducible apply Keeps.iteElse | (intro; intros) | fail_if_no_progress extract_lets | split)
theorem schedule_eq {z c y : Chip} (u : Nat)  {a0} (ez : c.schedule u = (a0, y)) (hz : Keeps z c) : Keeps z y := by
  have := Keeps.schedule u hz; rw [ez] at this; exact this
theorem lineItem {z c : Chip} (k : Clock) (w : Nat) (it : Item) (hz : Keeps z c) : Keeps z (c.lineItem k w it) := by
  unfold Chip.lineItem
  repeat' (first | with_reducible assumption | with_reducible exact Keeps.refl _ | (with_reducible refine Keeps.readCells_eq (by with_reducible assumption) ?_) | with_reducible apply Keeps.readCells | with_reducible apply Keeps.discardItem | with_reducible apply Keeps.lineSend | with_reducible apply Keeps.deliverItem | with_reducible apply Keeps.iteElse | with_reducible apply Keeps.upd | (intro; intros) | fail_if_no_progress extract_lets | split)
theorem scrub {z c : Chip} (k : Clock) (b w fresh : Nat) (hz : Keeps z c) : Keeps z (c.scrub k b w fresh) := by
  unfold Chip.scrub
  repeat' (first | with_reducible assumption | with_reducible exact Keeps.refl _ | with_reducible apply Keeps.onM | with_reducible apply Keeps.srcEvent | with_reducible apply Keeps.loseBlock | with_reducible apply Keeps.foldl | with_reducible apply Keeps.iteElse | (intro; intros))
theorem breakLock {z c : Chip} (k : Clock) (m t : Nat) (hz : Keeps z c) : Keeps z (c.breakLock k m t) := by
  unfold Chip.breakLock
  repeat' (first | with_reducible assumption | with_reducible exact Keeps.refl _ | with_reducible apply Keeps.onM | with_reducible apply Keeps.srcEvent | with_reducible apply Keeps.onTwin | with_reducible apply Keeps.iteElse | (intro; intros))
theorem sourceBlock {z c : Chip} (k : Clock) (up : Bool) (d b typ : Nat) (hz : Keeps z c) : Keeps z (c.sourceBlock k up d b typ).2 := by
  unfold Chip.sourceBlock
  repeat' (first | with_reducible assumption | with_reducible exact Keeps.refl _ | (with_reducible refine Keeps.readHalf_eq (by with_reducible assumption) ?_) | with_reducible apply Keeps.readHalf | with_reducible apply Keeps.iteElse | (intro; intros) | (with_reducible refine Keeps.ofIte (by with_reducible assumption) ?_ ?_) | fail_if_no_progress extract_lets | split | (show Keeps _ (Prod.snd (Prod.mk _ _)); dsimp only))
theorem sourceBlock_eq {z c y : Chip} (k : Clock) (up : Bool) (d b typ : Nat) {w0} (ez : c.sourceBlock k up d b typ = (w0, y)) (hz : Keeps z c) : Keeps z y := by
  have := Keeps.sourceBlock k up d b typ hz; rw [ez] at this; exact this
theorem commitRequest {z c : Chip} (k : Clock) (tag : Nat) (hz : Keeps z c) : Keeps z (c.commitRequest k tag) := by
  unfold Chip.commitRequest
  repeat' (first | with_reducible assumption | with_reducible exact Keeps.refl _ | with_reducible apply Keeps.onWin | with_reducible apply Keeps.commitWake | with_reducible apply Keeps.iteElse | (intro; intros))
theorem wctlWrite {z c : Chip} (k : Clock) (v : Word) (hz : Keeps z c) : Keeps z (c.wctlWrite k v) := by
  unfold Chip.wctlWrite
  repeat' (first | with_reducible assumption | with_reducible exact Keeps.refl _ | with_reducible apply Keeps.onWin | with_reducible apply Keeps.icause | with_reducible apply Keeps.roleRequest | with_reducible apply Keeps.iteElse | (intro; intros))
theorem icauseWrite {z c : Chip} (k : Clock) (v : Word) (hz : Keeps z c) : Keeps z (c.icauseWrite k v) := by
  unfold Chip.icauseWrite
  repeat' (first | with_reducible assumption | with_reducible exact Keeps.refl _ | with_reducible apply Keeps.onWin | (intro; intros))
theorem qselWrite {z c : Chip} (k : Clock) (v : Word) (hz : Keeps z c) : Keeps z (c.qselWrite k v) := by
  unfold Chip.qselWrite
  repeat' (first | with_reducible assumption | with_reducible exact Keeps.refl _ | with_reducible apply Keeps.onQ | with_reducible apply Keeps.onWin | with_reducible apply Keeps.qFlush | with_reducible apply Keeps.iteElse | (intro; intros))
theorem writeReg {z c : Chip} (k : Clock) (idx : Nat) (v : Word) (hz : Keeps z c) : Keeps z (c.writeReg k idx v) := by
  unfold Chip.writeReg
  repeat' (first | with_reducible assumption | with_reducible exact Keeps.refl _ | with_reducible apply Keeps.wctlWrite | with_reducible apply Keeps.onWin | with_reducible apply Keeps.commitRequest | with_reducible apply Keeps.icauseWrite | with_reducible apply Keeps.qselWrite | with_reducible apply Keeps.iteElse | (intro; intros) | fail_if_no_progress extract_lets | split)

/-! ### QueueCmd -/
theorem clearMarks {z c : Chip} (hz : Keeps z c) : Keeps z (c.clearMarks) := by
  have h1 : ∀ y, Keeps z y → Keeps z ({ y with
      tim := { y.tim with lateNow := false, tqLost := false }
      mead := { y.mead with fixedNow := false }
      heath := { y.heath with fixedNow := false }
      qramFixed := false
      pow := { y.pow with lateNow := false, sensNow := false }
      twin := { y.twin with lossNow := false } } : Chip) := fun y h => ⟨h.staged, h.live, h.snap, h.statusEnd, h.boot, h.port, h.wf⟩
  exact h1 _ (overN _ (overN _ (overN _ hz (fun _ _ h => onU _ _ h)) (fun _ _ h => onSide _ _ _ (onSide _ _ _ h))) (fun _ _ h => onQ _ _ h))
theorem closeDown {z c : Chip} (k : Clock) (hz : Keeps z c) : Keeps z (c.closeDown k) := by
  unfold Chip.closeDown
  repeat' (first | with_reducible assumption | with_reducible exact Keeps.refl _ | with_reducible apply Keeps.disposeItems | with_reducible apply Keeps.onT | with_reducible apply Keeps.onU | with_reducible apply Keeps.overN | with_reducible apply Keeps.iteElse | (intro; intros))
theorem countEnergy {z c : Chip} (energy bits : Nat) (hz : Keeps z c) : Keeps z (c.countEnergy energy bits) := by
  unfold Chip.countEnergy
  repeat' (first | with_reducible assumption | with_reducible exact Keeps.refl _ | with_reducible apply Keeps.addSt | with_reducible apply Keeps.onPow | (intro; intros))
theorem blocksTick {z c : Chip} (hz : Keeps z c) : Keeps z (c.blocksTick) := by
  unfold Chip.blocksTick
  repeat' (first | with_reducible assumption | with_reducible exact Keeps.refl _ | with_reducible apply Keeps.setBlk | with_reducible apply Keeps.onPow | with_reducible apply Keeps.foldl | with_reducible apply Keeps.iteElse | (intro; intros))
theorem secondWork {z c : Chip} (k : Clock) (hz : Keeps z c) : Keeps z (c.secondWork k) := by
  unfold Chip.secondWork
  repeat' (first | with_reducible assumption | with_reducible exact Keeps.refl _ | with_reducible apply Keeps.icause | with_reducible apply Keeps.audioSecond | with_reducible apply Keeps.addSt | with_reducible apply Keeps.onD | with_reducible apply Keeps.onDir | with_reducible apply Keeps.overN | with_reducible apply Keeps.iteElse | with_reducible apply Keeps.upd | (intro; intros))
theorem budget {z c : Chip} (k : Clock) (codes : List Nat) (hz : Keeps z c) : Keeps z (c.budget k codes) := by
  unfold Chip.budget
  repeat' (first | with_reducible assumption | with_reducible exact Keeps.refl _ | with_reducible apply Keeps.onDir | with_reducible apply Keeps.onPow | with_reducible apply Keeps.srcEvent | with_reducible apply Keeps.foldl | with_reducible apply Keeps.iteElse | (intro; intros))

/-! ### Twin -/
theorem takePeer {z c : Chip} (k : Clock) (role : Nat) (armed : Bool) (hz : Keeps z c) : Keeps z (c.takePeer k role armed) := by
  unfold Chip.takePeer
  repeat' (first | with_reducible assumption | with_reducible exact Keeps.refl _ | with_reducible apply Keeps.setTwn | with_reducible apply Keeps.onTwin | with_reducible apply Keeps.endAttach | with_reducible apply Keeps.tryAttach | with_reducible apply Keeps.iteElse | (intro; intros))
theorem linkUp {z c : Chip} (k : Clock) (w : Word) (hz : Keeps z c) : Keeps z (c.linkUp k w) := by
  unfold Chip.linkUp
  repeat' (first | with_reducible assumption | with_reducible exact Keeps.refl _ | with_reducible apply Keeps.takeCompat | with_reducible apply Keeps.setTwn | with_reducible apply Keeps.onTwin | with_reducible apply Keeps.tryAttach | with_reducible apply Keeps.refRole | with_reducible apply Keeps.syncTwin | with_reducible apply Keeps.iteElse | (intro; intros))
theorem laneMarker {z c : Chip} (k : Clock) (a t a' t' : Int) (w : Word) (role : Nat) (armed : Bool) (hz : Keeps z c) : Keeps z (c.laneMarker k a t a' t' w role armed) := by
  unfold Chip.laneMarker
  repeat' (first | with_reducible assumption | with_reducible exact Keeps.refl _ | with_reducible apply Keeps.takeCompat | with_reducible apply Keeps.syncTwin | with_reducible apply Keeps.linkDown | with_reducible apply Keeps.takePeer | with_reducible apply Keeps.setSt | with_reducible apply Keeps.deliver | with_reducible apply Keeps.iteElse | (intro; intros))
theorem followSlot {z c : Chip} (k : Clock) (d : Nat) (r : Bool × Fin 4 × Nat × Nat) (hz : Keeps z c) : Keeps z (c.followSlot k d r) := by
  unfold Chip.followSlot
  repeat' (first | with_reducible assumption | with_reducible exact Keeps.refl _ | with_reducible apply Keeps.onD | with_reducible apply Keeps.syncSlot | (intro; intros))
theorem followStep {z c : Chip} (s : Option (Int × Int × Nat)) (hz : Keeps z c) : Keeps z (c.followStep s) := by
  unfold Chip.followStep
  repeat' (first | with_reducible assumption | with_reducible exact Keeps.refl _ | with_reducible apply Keeps.onTime | with_reducible apply Keeps.onTwin | with_reducible apply Keeps.iteElse | (intro; intros) | fail_if_no_progress extract_lets | split)
theorem followAttach {z c : Chip} (k : Clock) (r : TickRec) (hz : Keeps z c) : Keeps z (c.followAttach k r) := by
  unfold Chip.followAttach
  repeat' (first | with_reducible assumption | with_reducible exact Keeps.refl _ | with_reducible apply Keeps.onTime | with_reducible apply Keeps.onTwin | with_reducible apply Keeps.settle | with_reducible apply Keeps.setSt | with_reducible apply Keeps.iteElse | (intro; intros))
theorem tickRecord {z c : Chip} (k : Clock) (r : TickRec) (hz : Keeps z c) : Keeps z (c.tickRecord k r) := by
  unfold Chip.tickRecord
  repeat' (first | with_reducible assumption | with_reducible exact Keeps.refl _ | with_reducible apply Keeps.followSlot | with_reducible apply Keeps.followStep | with_reducible apply Keeps.satSt | with_reducible apply Keeps.setSt | with_reducible apply Keeps.onTwin | with_reducible apply Keeps.sawGap | with_reducible apply Keeps.setHorizon | with_reducible apply Keeps.followAttach | with_reducible apply Keeps.syncTwin | with_reducible apply Keeps.foldl | with_reducible apply Keeps.iteElse | (intro; intros) | fail_if_no_progress extract_lets | split)
theorem claimEnd {z c : Chip} (k : Clock) (peerHigh : Bool) (hz : Keeps z c) : Keeps z (c.claimEnd k peerHigh) := by
  unfold Chip.claimEnd
  repeat' (first | with_reducible assumption | with_reducible exact Keeps.refl _ | with_reducible apply Keeps.setPeer | with_reducible apply Keeps.onTwin | with_reducible apply Keeps.settleReq | with_reducible apply Keeps.srcEvent | with_reducible apply Keeps.syncClaim | with_reducible apply Keeps.iteElse | (intro; intros))
theorem claimLost {z c : Chip} (k : Clock) (hz : Keeps z c) : Keeps z (c.claimLost k) := by
  unfold Chip.claimLost
  repeat' (first | with_reducible assumption | with_reducible exact Keeps.refl _ | with_reducible apply Keeps.setPeer | with_reducible apply Keeps.settleReq | with_reducible apply Keeps.srcEvent | with_reducible apply Keeps.syncClaim | with_reducible apply Keeps.iteElse | (intro; intros))
theorem wakeOutputs {z c : Chip} (k : Clock) (hz : Keeps z c) : Keeps z (c.wakeOutputs k) := by
  unfold Chip.wakeOutputs
  repeat' (first | with_reducible assumption | with_reducible exact Keeps.refl _ | with_reducible apply Keeps.beginWake | with_reducible apply Keeps.foldl | with_reducible apply Keeps.iteElse | (intro; intros))

end Keeps
end Sys2Proof.Machine.Chip

namespace Sys2Proof.Machine.State
set_option Elab.async false
open Chip (Keeps)

theorem act_keeps (s : State) {f : Clock → Chip → Chip} (hf : ∀ k c, Keeps c (f k c)) : Keeps s.chip (s.act f).chip := by
  unfold act; split
  · exact hf _ _
  · exact Keeps.refl _
theorem actBoundary_keeps (s : State) {f : Clock → Chip → Chip} (hf : ∀ k c, Keeps c (f k c)) :
    Keeps s.chip (s.actBoundary f).chip := by
  unfold actBoundary; split
  · exact act_keeps _ hf
  · exact Keeps.refl _
end Sys2Proof.Machine.State
end

