-- ==== Sys2Proof/Laws/Quiet.lean ====
section
/-! SUPPORT. What a fault event, a cause and a change of the shade leave alone (`Chip.Quiet`): besides the configuration, every block
but the collector, the window, the queues, the uplinks' lasers, the audio sides, the twin and the power manager, and every status word
outside those blocks' tables. -/

namespace Sys2Proof.Machine
set_option Elab.async false
set_option linter.unusedTactic false
set_option linter.unreachableTactic false

/-- A table whose status words no fault event, cause or change of the shade writes. -/
def quietTab (t : Nat) : Bool := t != 0x38 && t != 0x40 && t != 0x60 && t != 0x61 && t != 0x62 && t != 0x70
/-- A field of one of the other tables. -/
def Fld.loud (f : Fld) : Bool := !quietTab f.tab && decide (f.wrd < 4096) && decide (f.tab < 256)

theorem tabOf_hAddr {t r w : Nat} (ht : t < 256) (hr : r < 4096) (hw : w < 4096) : tabOf (hAddr t r w) = t := by
  unfold tabOf hAddr; omega
theorem grpOf_lt {s : Nat} (h : s < 384) : grpOf s < 24 := by unfold grpOf; omega

structure Chip.Quiet (z c : Chip) : Prop extends Chip.Keeps z c where
  dir : c.dir = z.dir
  trib : c.trib = z.trib
  sched : c.sched = z.sched
  gfp : c.gfp = z.gfp
  aps : c.aps = z.aps
  mead : c.mead = z.mead
  drop : c.drop = z.drop
  tim : c.tim = z.tim
  dpll : c.dpll = z.dpll
  qramFixed : c.qramFixed = z.qramFixed
  done : c.done = z.done
  free : c.free = z.free
  words : ∀ a, quietTab (tabOf a) = true → c.heath.status.read a = z.heath.status.read a

namespace Chip.Quiet

theorem refl (z : Chip) : Quiet z z := ⟨Keeps.refl z, rfl, rfl, rfl, rfl, rfl, rfl, rfl, rfl, rfl, rfl, rfl, rfl, fun _ _ => rfl⟩
theorem trans {a b c : Chip} (h : Quiet a b) (g : Quiet b c) : Quiet a c :=
  ⟨h.toKeeps.trans g.toKeeps, g.dir.trans h.dir, g.trib.trans h.trib, g.sched.trans h.sched, g.gfp.trans h.gfp, g.aps.trans h.aps,
   g.mead.trans h.mead, g.drop.trans h.drop, g.tim.trans h.tim, g.dpll.trans h.dpll, g.qramFixed.trans h.qramFixed,
   g.done.trans h.done, g.free.trans h.free, fun a q => (g.words a q).trans (h.words a q)⟩
theorem ite {z a b : Chip} {p : Prop} [Decidable p] (ha : Quiet z a) (hb : Quiet z b) : Quiet z (if p then a else b) := by
  split <;> assumption
theorem iteElse {z a c : Chip} {p : Prop} [Decidable p] (h : Quiet z c) (ha : Quiet z c → Quiet z a) :
    Quiet z (if p then a else c) := ite (ha h) h
theorem foldl {z c : Chip} {α : Type} (l : List α) {f : Chip → α → Chip} (h : Quiet z c)
    (hf : ∀ a, ∀ x ∈ l, Quiet z a → Quiet z (f a x)) : Quiet z (l.foldl f c) := by
  induction l generalizing c with
  | nil => exact h
  | cons x r ih => exact ih (hf _ _ (List.mem_cons_self ..) h) (fun a y hy => hf a y (List.mem_cons_of_mem _ hy))
theorem overN {z c : Chip} (n : Nat) {f : Nat → Chip → Chip} (h : Quiet z c)
    (hf : ∀ i, i < n → ∀ a, Quiet z a → Quiet z (f i a)) : Quiet z (overN n f c) :=
  foldl _ h (fun a x hx ha => hf x (List.mem_range.mp hx) a ha)
theorem setSt {z c : Chip} (f : Fld) (r v : Nat) (hf : f.loud = true) (hr : r < 4096) (h : Quiet z c) : Quiet z (c.setSt f r v) := by
  refine ⟨Keeps.setSt f r v h.toKeeps, (setSt_dir c f r v).trans h.dir, (setSt_trib c f r v).trans h.trib,
    (setSt_sched c f r v).trans h.sched, (setSt_gfp c f r v).trans h.gfp, (setSt_aps c f r v).trans h.aps,
    (setSt_mead c f r v).trans h.mead, (setSt_drop c f r v).trans h.drop, (setSt_tim c f r v).trans h.tim,
    (setSt_dpll c f r v).trans h.dpll, (setSt_qramFixed c f r v).trans h.qramFixed, (setSt_done c f r v).trans h.done,
    (setSt_free c f r v).trans h.free, fun a q => (Bank.read_write_other _ _ ?_).trans (h.words a q)⟩
  intro e
  simp only [Fld.loud, Bool.and_eq_true, decide_eq_true_eq, Bool.not_eq_true'] at hf
  rw [e, Fld.addr, tabOf_hAddr hf.2 hr hf.1.2, hf.1.1] at q
  cases q
theorem addSt {z c : Chip} (f : Fld) (r v : Nat) (hf : f.loud = true) (hr : r < 4096) (h : Quiet z c) : Quiet z (c.addSt f r v) :=
  setSt f r _ hf hr h
theorem satSt {z c : Chip} (f : Fld) (r v : Nat) (hf : f.loud = true) (hr : r < 4096) (h : Quiet z c) : Quiet z (c.satSt f r v) :=
  setSt f r _ hf hr h
theorem markEvent {z c : Chip} (a : Nat) (w : Word) (h : Quiet z c) : Quiet z (c.markEvent a w) :=
  ⟨Keeps.markEvent a w h.toKeeps, h.dir, h.trib, h.sched, h.gfp, h.aps, h.mead, h.drop, h.tim, h.dpll, h.qramFixed, h.done, h.free,
   h.words⟩
theorem orSt {z c : Chip} (f : Fld) (r v : Nat) (hf : f.loud = true) (hr : r < 4096) (h : Quiet z c) : Quiet z (c.orSt f r v) :=
  markEvent _ _ (setSt f r _ hf hr h)
theorem onQ {z c : Chip} (i : Nat) (f) (h : Quiet z c) : Quiet z (c.onQ i f) :=
  ⟨Keeps.onQ i f h.toKeeps, h.dir, h.trib, h.sched, h.gfp, h.aps, h.mead, h.drop, h.tim, h.dpll, h.qramFixed, h.done, h.free, h.words⟩
theorem onU {z c : Chip} (i : Nat) (f) (h : Quiet z c) : Quiet z (c.onU i f) :=
  ⟨Keeps.onU i f h.toKeeps, h.dir, h.trib, h.sched, h.gfp, h.aps, h.mead, h.drop, h.tim, h.dpll, h.qramFixed, h.done, h.free, h.words⟩
theorem onCol {z c : Chip} (f) (h : Quiet z c) : Quiet z (c.onCol f) :=
  ⟨Keeps.onCol f h.toKeeps, h.dir, h.trib, h.sched, h.gfp, h.aps, h.mead, h.drop, h.tim, h.dpll, h.qramFixed, h.done, h.free, h.words⟩
theorem onTwin {z c : Chip} (f) (h : Quiet z c) : Quiet z (c.onTwin f) :=
  ⟨Keeps.onTwin f h.toKeeps, h.dir, h.trib, h.sched, h.gfp, h.aps, h.mead, h.drop, h.tim, h.dpll, h.qramFixed, h.done, h.free, h.words⟩
theorem onPow {z c : Chip} (f) (h : Quiet z c) : Quiet z (c.onPow f) :=
  ⟨Keeps.onPow f h.toKeeps, h.dir, h.trib, h.sched, h.gfp, h.aps, h.mead, h.drop, h.tim, h.dpll, h.qramFixed, h.done, h.free, h.words⟩
theorem onWin {z c : Chip} (f) (h : Quiet z c) : Quiet z (c.onWin f) :=
  ⟨Keeps.onWin f h.toKeeps, h.dir, h.trib, h.sched, h.gfp, h.aps, h.mead, h.drop, h.tim, h.dpll, h.qramFixed, h.done, h.free, h.words⟩
theorem icause {z c : Chip} (k : Clock) (n : Nat) (h : Quiet z c) : Quiet z (c.icause k n) := onWin _ h
theorem cause {z c : Chip} (k : Clock) (g : CauseReg) (r b : Nat) (hf : g.cause.loud = true) (hr : r < 4096) (h : Quiet z c) :
    Quiet z (c.cause k g r b) :=
  ite (orSt _ _ _ hf hr h) (icause _ _ (orSt _ _ _ hf hr h))
theorem qReg_loud (i : Nat) : (qReg i).cause.loud = true := by unfold qReg; split <;> rfl
/-- Cause bits of any block: the status words outside its own cause word stay. -/
theorem cause_other {c : Chip} (k : Clock) (g : CauseReg) (r b a : Nat) (ha : a ≠ g.cause.addr r) :
    (c.cause k g r b).heath.status.read a = c.heath.status.read a := by
  rw [cause_status]; exact Bank.read_write_other _ _ ha
theorem setBlk {z c : Chip} (b : Nat) (s : PwrState) (hz : Quiet z c) : Quiet z (c.setBlk b s) := by
  unfold Chip.setBlk
  repeat' (first | with_reducible assumption | omega | exact Fld.get_lt _ _ | with_reducible exact grpOf_lt (by assumption) | with_reducible exact qReg_loud _ | with_reducible rfl | exact rfl | with_reducible exact Quiet.refl _ | with_reducible apply Quiet.onPow | (intro; intros))
theorem beginWake {z c : Chip} (b e : Nat) (hz : Quiet z c) : Quiet z (c.beginWake b e) := by
  unfold Chip.beginWake
  repeat' (first | with_reducible assumption | omega | exact Fld.get_lt _ _ | with_reducible exact grpOf_lt (by assumption) | with_reducible exact qReg_loud _ | with_reducible rfl | exact rfl | with_reducible exact Quiet.refl _ | with_reducible apply Quiet.onPow | with_reducible apply Quiet.iteElse | (intro; intros))
theorem endWakes {z c : Chip} (e : Nat) (hz : Quiet z c) : Quiet z (c.endWakes e) := by
  unfold Chip.endWakes
  repeat' (first | with_reducible assumption | omega | exact Fld.get_lt _ _ | with_reducible exact grpOf_lt (by assumption) | with_reducible exact qReg_loud _ | with_reducible rfl | exact rfl | with_reducible exact Quiet.refl _ | with_reducible apply Quiet.setBlk | with_reducible apply Quiet.foldl | with_reducible apply Quiet.iteElse | (intro; intros))
theorem qRewound {z c : Chip} (k : Clock) (i : Nat) (hi : i < 4096) (hz : Quiet z c) : Quiet z (c.qRewound k i) := by
  unfold Chip.qRewound
  repeat' (first | with_reducible assumption | omega | exact Fld.get_lt _ _ | with_reducible exact grpOf_lt (by assumption) | with_reducible exact qReg_loud _ | with_reducible rfl | exact rfl | with_reducible exact Quiet.refl _ | with_reducible apply Quiet.addSt | with_reducible apply Quiet.cause | (intro; intros))
theorem qReturn {z c : Chip} (k : Clock) (i : Nat) (hi : i < 4096) (hz : Quiet z c) : Quiet z (c.qReturn k i) := by
  unfold Chip.qReturn
  repeat' (first | with_reducible assumption | omega | exact Fld.get_lt _ _ | with_reducible exact grpOf_lt (by assumption) | with_reducible exact qReg_loud _ | with_reducible rfl | exact rfl | with_reducible exact Quiet.refl _ | with_reducible apply Quiet.onQ | with_reducible apply Quiet.qRewound | with_reducible apply Quiet.iteElse | (intro; intros))
theorem syncLasers {z c : Chip} (hz : Quiet z c) : Quiet z (c.syncLasers) := by
  unfold Chip.syncLasers
  repeat' (first | with_reducible assumption | omega | exact Fld.get_lt _ _ | with_reducible exact grpOf_lt (by assumption) | with_reducible exact qReg_loud _ | with_reducible rfl | exact rfl | with_reducible exact Quiet.refl _ | with_reducible apply Quiet.onU | with_reducible apply Quiet.overN | with_reducible apply Quiet.iteElse | (intro; intros))
theorem syncClaim {z c : Chip} (k : Clock) (hz : Quiet z c) : Quiet z (c.syncClaim k) := by
  unfold Chip.syncClaim
  repeat' (first | with_reducible assumption | omega | exact Fld.get_lt _ _ | with_reducible exact grpOf_lt (by assumption) | with_reducible exact qReg_loud _ | with_reducible rfl | exact rfl | with_reducible exact Quiet.refl _ | with_reducible apply Quiet.onTwin | with_reducible apply Quiet.setSt | (intro; intros))
theorem disarm {z c : Chip} (k : Clock) (hz : Quiet z c) : Quiet z (c.disarm k) := by
  unfold Chip.disarm
  repeat' (first | with_reducible assumption | omega | exact Fld.get_lt _ _ | with_reducible exact grpOf_lt (by assumption) | with_reducible exact qReg_loud _ | with_reducible rfl | exact rfl | with_reducible exact Quiet.refl _ | with_reducible apply Quiet.setSt | with_reducible apply Quiet.cause | with_reducible apply Quiet.iteElse | (intro; intros))
theorem onSide {z c : Chip} (p : Nat) (rx : Bool) (f) (h : Quiet z c) : Quiet z (c.onSide p rx f) :=
  ⟨Keeps.onSide p rx f h.toKeeps, h.dir, h.trib, h.sched, h.gfp, h.aps, h.mead, h.drop, h.tim, h.dpll, h.qramFixed, h.done, h.free, h.words⟩
theorem syncSide {z c : Chip} (p : Nat) (rx : Bool) (hp : p < 4096) (hz : Quiet z c) : Quiet z (c.syncSide p rx) := by
  unfold Chip.syncSide
  repeat' (first | with_reducible assumption | omega | exact Fld.get_lt _ _ | with_reducible exact grpOf_lt (by assumption) | with_reducible exact qReg_loud _ | with_reducible rfl | exact rfl | with_reducible exact Quiet.refl _ | with_reducible apply Quiet.setSt | with_reducible apply Quiet.iteElse | (intro; intros))
theorem setRun {z c : Chip} (k : Clock) (p : Nat) (rx b : Bool) (hp : p < 4096) (hz : Quiet z c) : Quiet z (c.setRun k p rx b) := by
  unfold Chip.setRun
  repeat' (first | with_reducible assumption | omega | exact Fld.get_lt _ _ | with_reducible exact grpOf_lt (by assumption) | with_reducible exact qReg_loud _ | with_reducible rfl | exact rfl | with_reducible exact Quiet.refl _ | with_reducible apply Quiet.onSide | with_reducible apply Quiet.syncSide | with_reducible apply Quiet.cause | with_reducible apply Quiet.iteElse | (intro; intros))
theorem stopSide {z c : Chip} (k : Clock) (p : Nat) (rx : Bool) (hp : p < 4096) (hz : Quiet z c) : Quiet z (c.stopSide k p rx) := by
  unfold Chip.stopSide
  repeat' (first | with_reducible assumption | omega | exact Fld.get_lt _ _ | with_reducible exact grpOf_lt (by assumption) | with_reducible exact qReg_loud _ | with_reducible rfl | exact rfl | with_reducible exact Quiet.refl _ | with_reducible apply Quiet.onSide | with_reducible apply Quiet.addSt | with_reducible apply Quiet.setRun | (intro; intros))
theorem shadeBlocks {z c : Chip} (hz : Quiet z c) : Quiet z (c.shadeBlocks) := by
  unfold Chip.shadeBlocks
  repeat' (first | with_reducible assumption | omega | exact Fld.get_lt _ _ | with_reducible exact grpOf_lt (by assumption) | with_reducible exact qReg_loud _ | with_reducible rfl | exact rfl | with_reducible exact Quiet.refl _ | with_reducible apply Quiet.setBlk | with_reducible apply Quiet.overN | with_reducible apply Quiet.iteElse | (intro; intros))
theorem wakeUplinks {z c : Chip} (k : Clock) (hz : Quiet z c) : Quiet z (c.wakeUplinks k) := by
  unfold Chip.wakeUplinks
  repeat' (first | with_reducible assumption | omega | exact Fld.get_lt _ _ | with_reducible exact grpOf_lt (by assumption) | with_reducible exact qReg_loud _ | with_reducible rfl | exact rfl | with_reducible exact Quiet.refl _ | with_reducible apply Quiet.beginWake | with_reducible apply Quiet.overN | with_reducible apply Quiet.iteElse | (intro; intros))
theorem shadeFalls {z c : Chip} (k : Clock) (hz : Quiet z c) : Quiet z (c.shadeFalls k) := by
  unfold Chip.shadeFalls
  repeat' (first | with_reducible assumption | omega | exact Fld.get_lt _ _ | with_reducible exact grpOf_lt (by assumption) | with_reducible exact qReg_loud _ | with_reducible rfl | exact rfl | with_reducible exact Quiet.refl _ | with_reducible apply Quiet.syncLasers | with_reducible apply Quiet.shadeBlocks | with_reducible apply Quiet.stopSide | with_reducible apply Quiet.qReturn | with_reducible apply Quiet.onU | with_reducible apply Quiet.syncClaim | with_reducible apply Quiet.overN | with_reducible apply Quiet.iteElse | (intro; intros))
theorem shadeLifts {z c : Chip} (k : Clock) (hz : Quiet z c) : Quiet z (c.shadeLifts k) := by
  unfold Chip.shadeLifts
  repeat' (first | with_reducible assumption | omega | exact Fld.get_lt _ _ | with_reducible exact grpOf_lt (by assumption) | with_reducible exact qReg_loud _ | with_reducible rfl | exact rfl | with_reducible exact Quiet.refl _ | with_reducible apply Quiet.syncLasers | with_reducible apply Quiet.wakeUplinks | with_reducible apply Quiet.syncClaim | (intro; intros))
theorem reshade {z c : Chip} (k : Clock) (was : Bool) (hz : Quiet z c) : Quiet z (c.reshade k was) := by
  unfold Chip.reshade
  repeat' (first | with_reducible assumption | omega | exact Fld.get_lt _ _ | with_reducible exact grpOf_lt (by assumption) | with_reducible exact qReg_loud _ | with_reducible rfl | exact rfl | with_reducible exact Quiet.refl _ | with_reducible apply Quiet.syncClaim | with_reducible apply Quiet.shadeFalls | with_reducible apply Quiet.shadeLifts | with_reducible apply Quiet.iteElse | (intro; intros))
theorem putEntry {z c : Chip} (k : Clock) (g i kind src seq : Nat) (hg : g < 24) (hi : i < 16) (h : Quiet z c) :
    Quiet z (c.putEntry k g i kind src seq) := by
  have hn : ∀ a w, quietTab (tabOf a) = true → w < 4096 → a ≠ hAddr 0x62 (16 * g + i) w := by
    intro a w q hw e
    rw [e, tabOf_hAddr (by decide) (by omega) hw] at q; cases q
  have e : ∀ a, quietTab (tabOf a) = true → (c.putEntry k g i kind src seq).heath.status.read a = c.heath.status.read a := fun a q =>
    (Bank.read_write_other _ _ (hn a 3 q (by decide))).trans ((Bank.read_write_other _ _ (hn a 2 q (by decide))).trans
      ((Bank.read_write_other _ _ (hn a 1 q (by decide))).trans (Bank.read_write_other _ _ (hn a 0 q (by decide)))))
  exact ⟨Keeps.putEntry k g i kind src seq h.toKeeps, (withStatus_dir ..).trans h.dir, (withStatus_trib ..).trans h.trib,
    (withStatus_sched ..).trans h.sched, (withStatus_gfp ..).trans h.gfp, (withStatus_aps ..).trans h.aps,
    (withStatus_mead ..).trans h.mead, (withStatus_drop ..).trans h.drop, (withStatus_tim ..).trans h.tim,
    (withStatus_dpll ..).trans h.dpll, (withStatus_qramFixed ..).trans h.qramFixed, (withStatus_done ..).trans h.done,
    (withStatus_free ..).trans h.free, fun a q => (e a q).trans (h.words a q)⟩
theorem history {z c : Chip} (k : Clock) (g kind src : Nat) (hg : g < 24) (hz : Quiet z c) : Quiet z (c.history k g kind src) := by
  unfold Chip.history
  repeat' (first | with_reducible assumption | omega | exact Fld.get_lt _ _ | with_reducible exact grpOf_lt (by assumption) | with_reducible exact qReg_loud _ | with_reducible rfl | exact rfl | with_reducible exact Quiet.refl _ | with_reducible apply Quiet.putEntry | with_reducible apply Quiet.setSt | with_reducible apply Quiet.onCol | with_reducible apply Quiet.iteElse | (intro; intros))
theorem latch {z c : Chip} (k : Clock) (g kind src : Nat) (hg : g < 24) (hz : Quiet z c) : Quiet z (c.latch k g kind src) := by
  unfold Chip.latch
  repeat' (first | with_reducible assumption | omega | exact Fld.get_lt _ _ | with_reducible exact grpOf_lt (by assumption) | with_reducible exact qReg_loud _ | with_reducible rfl | exact rfl | with_reducible exact Quiet.refl _ | with_reducible apply Quiet.putEntry | with_reducible apply Quiet.setSt | with_reducible apply Quiet.satSt | with_reducible apply Quiet.cause | with_reducible apply Quiet.iteElse | (intro; intros))
theorem rearm {z c : Chip} (g : Nat) (hg : g < 4096) (hz : Quiet z c) : Quiet z (c.rearm g) := by
  unfold Chip.rearm
  repeat' (first | with_reducible assumption | omega | exact Fld.get_lt _ _ | with_reducible exact grpOf_lt (by assumption) | with_reducible exact qReg_loud _ | with_reducible rfl | exact rfl | with_reducible exact Quiet.refl _ | with_reducible apply Quiet.setSt | (intro; intros))
theorem syncFaultN {z c : Chip} (k : Clock) (hz : Quiet z c) : Quiet z (c.syncFaultN k) := by
  unfold Chip.syncFaultN
  repeat' (first | with_reducible assumption | omega | exact Fld.get_lt _ _ | with_reducible exact grpOf_lt (by assumption) | with_reducible exact qReg_loud _ | with_reducible rfl | exact rfl | with_reducible exact Quiet.refl _ | with_reducible apply Quiet.onCol | (intro; intros))
theorem putFlt {z c : Chip} (s : Nat) (b : Bool) (hs : s < 384) (hz : Quiet z c) : Quiet z (c.putFlt s b) := by
  unfold Chip.putFlt
  repeat' (first | with_reducible assumption | omega | exact Fld.get_lt _ _ | with_reducible exact grpOf_lt (by assumption) | (with_reducible exact Nat.lt_trans (grpOf_lt (by assumption)) (by decide)) | with_reducible exact qReg_loud _ | with_reducible rfl | exact rfl | with_reducible exact Quiet.refl _ | with_reducible apply Quiet.onCol | with_reducible apply Quiet.setSt | (intro; intros))
theorem syncShade {z c : Chip} (k : Clock) (src : Nat) (hz : Quiet z c) : Quiet z (c.syncShade k src) := by
  unfold Chip.syncShade
  repeat' (first | with_reducible assumption | omega | exact Fld.get_lt _ _ | with_reducible exact grpOf_lt (by assumption) | with_reducible exact qReg_loud _ | with_reducible rfl | exact rfl | with_reducible exact Quiet.refl _ | with_reducible apply Quiet.onCol | with_reducible apply Quiet.onTwin | with_reducible apply Quiet.disarm | with_reducible apply Quiet.setSt | with_reducible apply Quiet.cause | with_reducible apply Quiet.reshade | with_reducible apply Quiet.iteElse | (intro; intros))
theorem markEdge {z c : Chip} (k : Clock) (s : Nat) (loud : Bool) (hz : Quiet z c) : Quiet z (c.markEdge k s loud) := by
  unfold Chip.markEdge
  repeat' (first | with_reducible assumption | with_reducible rfl | exact rfl | with_reducible exact Quiet.refl _ | with_reducible apply Quiet.onCol | (intro; intros))
theorem fltEvent {z c : Chip} (k : Clock) (s : Nat) (hs : s < 384) (hz : Quiet z c) : Quiet z (c.fltEvent k s) := by
  unfold Chip.fltEvent
  repeat' (first | with_reducible apply Quiet.markEdge | with_reducible assumption | omega | exact Fld.get_lt _ _ | with_reducible exact grpOf_lt (by assumption) | (with_reducible exact Nat.lt_trans (grpOf_lt (by assumption)) (by decide)) | with_reducible exact qReg_loud _ | with_reducible rfl | exact rfl | with_reducible exact Quiet.refl _ | with_reducible apply Quiet.addSt | with_reducible apply Quiet.onCol | with_reducible apply Quiet.history | with_reducible apply Quiet.latch | with_reducible apply Quiet.cause | with_reducible apply Quiet.setSt | with_reducible apply Quiet.putFlt | with_reducible apply Quiet.syncFaultN | with_reducible apply Quiet.syncShade | with_reducible apply Quiet.iteElse | (intro; intros))
theorem tumble {z c : Chip} (k : Clock) (s : Nat) (hs : s < 4096) (hz : Quiet z c) : Quiet z (c.tumble k s) := by
  unfold Chip.tumble
  repeat' (first | with_reducible assumption | omega | exact Fld.get_lt _ _ | with_reducible exact grpOf_lt (by assumption) | with_reducible exact qReg_loud _ | with_reducible rfl | exact rfl | with_reducible exact Quiet.refl _ | with_reducible apply Quiet.onCol | with_reducible apply Quiet.setSt | with_reducible apply Quiet.iteElse | (intro; intros))
theorem openWindow {z c : Chip} (k : Clock) (s : Nat) (hs : s < 4096) (hz : Quiet z c) : Quiet z (c.openWindow k s) := by
  unfold Chip.openWindow
  repeat' (first | with_reducible assumption | omega | exact Fld.get_lt _ _ | with_reducible exact grpOf_lt (by assumption) | with_reducible exact qReg_loud _ | with_reducible rfl | exact rfl | with_reducible exact Quiet.refl _ | with_reducible apply Quiet.onCol | with_reducible apply Quiet.setSt | (intro; intros))
theorem srcEvent {z c : Chip} (k : Clock) (s : Nat) (hs : s < 384) (hz : Quiet z c) : Quiet z (c.srcEvent k s) := by
  unfold Chip.srcEvent
  repeat' (first | with_reducible apply Quiet.markEdge | with_reducible assumption | omega | exact Fld.get_lt _ _ | with_reducible exact grpOf_lt (by assumption) | (with_reducible exact Nat.lt_trans (grpOf_lt (by assumption)) (by decide)) | with_reducible exact qReg_loud _ | with_reducible rfl | exact rfl | with_reducible exact Quiet.refl _ | with_reducible apply Quiet.tumble | with_reducible apply Quiet.addSt | with_reducible apply Quiet.satSt | with_reducible apply Quiet.fltEvent | with_reducible apply Quiet.iteElse | (intro; intros))
theorem setCond {z c : Chip} (k : Clock) (s : Nat) (present : Bool) (hs : s < 384) (hz : Quiet z c) : Quiet z (c.setCond k s present) := by
  unfold Chip.setCond
  repeat' (first | with_reducible assumption | omega | exact Fld.get_lt _ _ | with_reducible exact grpOf_lt (by assumption) | (with_reducible exact Nat.lt_trans (grpOf_lt (by assumption)) (by decide)) | with_reducible exact qReg_loud _ | with_reducible rfl | exact rfl | with_reducible exact Quiet.refl _ | with_reducible apply Quiet.onCol | with_reducible apply Quiet.setSt | with_reducible apply Quiet.srcEvent | with_reducible apply Quiet.iteElse | (intro; intros))
theorem injLanded {z c : Chip} (k : Clock) (tgt : Nat) (ht : tgt < 384) (hz : Quiet z c) : Quiet z (c.injLanded k tgt) := by
  unfold Chip.injLanded
  repeat' (first | with_reducible assumption | omega | exact Fld.get_lt _ _ | with_reducible exact grpOf_lt (by assumption) | (with_reducible exact Nat.lt_trans (grpOf_lt (by assumption)) (by decide)) | with_reducible exact qReg_loud _ | with_reducible rfl | exact rfl | with_reducible exact Quiet.refl _ | with_reducible apply Quiet.onCol | with_reducible apply Quiet.setSt | with_reducible apply Quiet.cause | with_reducible apply Quiet.history | (intro; intros))
theorem cleared {z c : Chip} (k : Clock) (s : Nat) (hs : s < 384) (hz : Quiet z c) : Quiet z (c.cleared k s) := by
  unfold Chip.cleared
  repeat' (first | with_reducible assumption | omega | exact Fld.get_lt _ _ | with_reducible exact grpOf_lt (by assumption) | (with_reducible exact Nat.lt_trans (grpOf_lt (by assumption)) (by decide)) | with_reducible exact qReg_loud _ | with_reducible rfl | exact rfl | with_reducible exact Quiet.refl _ | with_reducible apply Quiet.putFlt | with_reducible apply Quiet.cause | with_reducible apply Quiet.history | (intro; intros))
theorem clearFlt {z c : Chip} (k : Clock) (s : Nat) (hs : s < 384) (hz : Quiet z c) : Quiet z (c.clearFlt k s) := by
  unfold Chip.clearFlt
  repeat' (first | with_reducible apply Quiet.cleared | with_reducible assumption | omega | exact Fld.get_lt _ _ | with_reducible exact grpOf_lt (by assumption) | (with_reducible exact Nat.lt_trans (grpOf_lt (by assumption)) (by decide)) | with_reducible exact qReg_loud _ | with_reducible rfl | exact rfl | with_reducible exact Quiet.refl _ | with_reducible apply Quiet.putFlt | with_reducible apply Quiet.cause | with_reducible apply Quiet.history | (intro; intros))
theorem raise {z c : Chip} (k : Clock) (srcs : List Nat) (hs : ∀ s ∈ srcs, s < 384) (hz : Quiet z c) : Quiet z (c.raise k srcs) := by
  unfold Chip.raise
  repeat' (first | with_reducible assumption | omega | with_reducible exact hs _ (by assumption) | exact Fld.get_lt _ _ | with_reducible exact grpOf_lt (by assumption) | with_reducible exact qReg_loud _ | with_reducible rfl | exact rfl | with_reducible exact Quiet.refl _ | with_reducible apply Quiet.srcEvent | with_reducible apply Quiet.foldl | with_reducible apply Quiet.iteElse | (intro; intros))

end Chip.Quiet
end Sys2Proof.Machine
end

