-- ==== Sys2Proof/Machine/Package.lean ====
section
/-! DEFINITION. Balls, fibre positions and pulls of the package (chapter 18): which line or signal each one carries, and which pulls
are connected. -/

namespace Sys2Proof.Machine

/-- The letters of ball rows (R457). -/
def rowLetters : List Char := "ABCDEFGHJKLMNPTUVWY".toList
/-- Letter `n` of the rows. -/
def rowLetter (n : Nat) : Char := rowLetters.getD n 'A'
/-- The name of the row with index `i`, 0 to 63 (R457). -/
def rowName (i : Nat) : String :=
  if i < 19 then String.ofList [rowLetter i] else String.ofList [rowLetter (i / 19 - 1), rowLetter (i % 19)]

/-- Groups of balls (Table 18.2). -/
inductive BallGroup where
  | line | lnc | nc | gnd | twin | sig | vio | vin
  deriving DecidableEq, Repr

/-- The group of the ball in the row with index `i` and column `c`, 1 to 64 (R458). -/
def ballGroup (i c : Nat) : BallGroup :=
  match i with
  | 0 | 1 | 62 | 63 => if c % 2 = 1 then .line else .lnc
  | 2 | 61 => .nc
  | 3 => if c ≤ 24 ∧ c % 3 ≠ 1 then .twin else .gnd
  | 4 => if c ≤ 36 then .sig else .gnd
  | 5 => if c ≤ 48 then .sig else if c ≤ 56 then .vio else .gnd
  | 59 | 60 => if c ≤ 32 then .vin else .gnd
  | _ => .gnd

/-- The row index and column of the positive and of the negative line ball of copper drop `d` (R458). -/
def lineBalls (d : Nat) : (Nat × Nat) × (Nat × Nat) :=
  if d < 32 then ((0, 2 * d + 1), (1, 2 * d + 1)) else ((62, 2 * (d - 32) + 1), (63, 2 * (d - 32) + 1))
/-- The column in row D of the positive ball of twin lane `l`; the negative one follows it (R458). -/
def twinBall (tx : Bool) (l : Nat) : Nat := 3 * (if tx then l else l + 4) + 2
/-- The signals of row E in column order (Table 18.3). -/
def sigRowE : List String :=
  ["ALK_SCK", "ALK_SS_N", "ALK_SDI", "ALK_SDO", "ALK_MODE", "ALK_ADR0", "ALK_ADR1", "ALK_ADR2"] ++
  ["INT_N", "FAULT_N", "LANTERN", "RST_N", "VIO_SEL", "TWN_CLAIM", "TWN_PEER", "TWN_ID"] ++
  ["TCK", "TMS", "TDI", "TDO", "TRST_N", "TCAP0", "TCAP1", "TCAP2", "TCAP3"] ++
  ["TOUT0", "TOUT1", "TOUT2", "TOUT3", "TOUT4", "TOUT5", "TOUT6", "TOUT7", "PPS_OUT", "REFIN0", "REFIN1"]
/-- The audio pins of a port in the column order of row F (Table 18.2). -/
def sigRowF : List String := ["RXBCK", "RXWS", "RXD", "TXBCK", "TXWS", "TXD"]
/-- The signal of a SIG ball (Table 18.2, Table 18.3): in row F the port and its pin. -/
def sigBall (i c : Nat) : Option (Option Nat × String) :=
  if ballGroup i c ≠ .sig ∨ c = 0 then none
  else if i = 4 then some (none, sigRowE.getD (c - 1) "")
  else some (some ((c - 1) / 6), sigRowF.getD ((c - 1) % 6) "")

/-- What a fibre position carries: an uplink's transmit or receive, a drop both ways, or nothing (R461). -/
inductive Fibre where
  | upTx (u : Nat) | upRx (u : Nat) | drop (d : Nat) | dark
  deriving DecidableEq, Repr
/-- Position `k` of receptacle PORT-U (0), PORT-DA (1) or PORT-DB (2), counted from 1 (Table 18.4). -/
def fibreAt (port k : Nat) : Fibre :=
  match port with
  | 0 => if k = 0 ∨ 8 < k then .dark else if k % 2 = 1 then .upTx ((k - 1) / 2) else .upRx ((k - 2) / 2)
  | 1 => if 1 ≤ k ∧ k ≤ 16 then .drop (63 + k) else .dark
  | 2 => if 1 ≤ k ∧ k ≤ 16 then .drop (79 + k) else .dark
  | _ => .dark

/-- Internal pulls of SIG balls (Table 18.8). -/
inductive Pull where
  | weakUp | weakUpAlways | weakDown | strongUp
  deriving DecidableEq, Repr
/-- The strong pull-ups of the 2-wire bus are connected (R467, R480): with ALK_MODE sampled as 1, from the end of S3, while boundary
scan does not drive the balls. -/
def Chip.strongPulls (c : Chip) : Bool := c.port.twoWire && c.running && !tapDrives c.boot.tap.ir
/-- The pull that a SIG ball carries (R466). -/
def Chip.pullOf (c : Chip) (i col : Nat) : Option Pull :=
  match sigBall i col with
  | some (some _, _) => some .weakDown
  | some (none, s) =>
    if ["ALK_SS_N", "RST_N", "TMS", "TDI", "TRST_N"].contains s then some .weakUp
    else if ["TWN_PEER", "TCK", "TCAP0", "TCAP1", "TCAP2", "TCAP3"].contains s then some .weakDown
    else if s = "VIO_SEL" then some .weakUpAlways
    else if (s = "ALK_SCK" ∨ s = "ALK_SDI") ∧ c.strongPulls = true then some .strongUp
    else none
  | none => none
/-- DELAYTRIM that two lane delays in ps ask for, in 1/16 ns rounded to the nearest unit (R476). -/
def trimOf (fromPeer toPeer : Int) : Int := ((fromPeer - toPeer) * 16 + 1000) / 2000

end Sys2Proof.Machine
end

