-- ==== Sys2Proof/Tests/Slice0.lean ====
section
/-! SUPPORT. Tests: ill-formed commands refused, check values and worked examples of the spec, and a witness for every statement. -/

namespace Sys2Proof.Tests
set_option Elab.async false
open Sys2Proof.Machine

/-- A part that runs, on cycle index `i` of tick `tk` after reset, its port ready, with changes made one after another. -/
def sAt (i tk : Nat) (l : List (Chip → Chip)) : State :=
  { clk := { ticks := tk, ns := tk * 125000 + i, evc := tk * 125000 + i, edges := tk * 125000 + i }
    chip := l.foldl (fun c f => f c) { port := { ready := true } } }
/-- Live fields set: field, row, value. -/
def lvs (l : List (Fld × Nat × Nat)) (c : Chip) : Chip :=
  c.onHeath fun h => { h with live := l.foldl (fun b x => b.setFld x.1 x.2.1 x.2.2) h.live }
/-- Status fields set. -/
def sts (l : List (Fld × Nat × Nat)) (c : Chip) : Chip := l.foldl (fun c x => c.setSt x.1 x.2.1 x.2.2) c
def onCh (i : Nat) (f : Channel → Channel) (c : Chip) : Chip := { c with dpll := { c.dpll with chan := vupd c.dpll.chan i f } }
def onRef (i : Nat) (f : RefMon → RefMon) (c : Chip) : Chip := { c with dpll := { c.dpll with ref := vupd c.dpll.ref i f } }
def onOut (i : Nat) (f : Output → Output) (c : Chip) : Chip := c.onTime fun t => { t with out := vupd t.out i f }
def onSide (p : Nat) (rx : Bool) (f : ASide → ASide) (c : Chip) : Chip :=
  { c with aud := if rx then { c.aud with rx := vupd c.aud.rx p f } else { c.aud with tx := vupd c.aud.tx p f } }
/-- A one-beat write frame to window index `i`, and a one-beat read frame. -/
def wb (i d : Nat) (tag : Byte) : Beat :=
  { cmd := byte (0x80 + i), first := true, last := true, data := word d, tag, crc := beatCrc (byte (0x80 + i)) (word d) tag, ack := true }
def rb (i : Nat) : Beat :=
  { cmd := byte i, first := true, last := true, data := 0#32, tag := 0#8, crc := crc8 [byte i], ack := true }
/-- The layout of the first words of a table. -/
def headSpec (t : Nat) : WSpec := (wordsOf t).headD ⟨0, 0, 2, 0, 0, .st, 0#32, 0#32, 0#32⟩
def upTick : UplinkTick := ⟨-500, -100, 4000, 30000, 12, 0, 0, 0, 0, 0, 8192, 0⟩
/-- An OTU2 frame of zeros with the alignment word of R112, its FEC having corrected 3 bits. -/
def otuFrame : OtnFrame :=
  let oh : OtnOh := ⟨[0xF6, 0xF6, 0xF6, 0x28, 0x28, 0x28] ++ zeros 58, 0⟩
  ⟨oh, oh, 3, 1, 0⟩
def gfp (n : Nat) : GfpFrame := ⟨0, n + 12, 0, false, 1, true, 5, true, zeros n, .whole⟩
def etherFrame : EtherFrame := ⟨zeros 12 ++ [0x88, 0xA8, 0x00, 0x05] ++ zeros 52, true, 0, .whole, false⟩
/-- An upstream header with the alignment word given, its CRC-16 off by `bad`. -/
def upHead (faw bad : Nat) : UpHeader := ⟨beBytes 8 faw ++ zeros 70 ++ beBytes 2 (crc16 (zeros 70) + bad), none, [], 0⟩
/-- A message block of `n` bytes that carries a whole message of `len` zero bytes. -/
def msgBlock (n len : Nat) : List Byte :=
  let b := byte (0xC0 + len) :: zeros (n - 2)
  b ++ [crc8 b]
/-- An ANSWER frame echoing a tick. -/
def answer (echo : Nat) : List Byte :=
  let b := 0x81#8 :: zeros 3 ++ beBytes 4 echo ++ zeros 30
  b ++ beBytes 2 (crc16 b)
def dropTick : DropTick := ⟨-500, -100, 300, 4000, 30000, 30, 0, false⟩
def ptpItem : List QWord := ⟨0x30000000#32, false, 0, 0⟩ :: (List.replicate 14 ⟨0#32, false, 0, 0⟩ ++ [⟨0#32, true, 0, 0⟩])
def loopTick : LoopTick := ⟨List.replicate 8 none, [true, true], none, 0⟩
def tickRec : TickRec := ⟨0, 0, none, [], 0, none, 0, true, none⟩

/-! ### The premises of the statements -/

/-- No reset action, outcome, revert or snapshot waits for a boundary. -/
def calm (c : Chip) : Bool :=
  decide (c.win.warm = .idle) && (!c.win.pend || c.win.commitIn != 0) && !c.dir.revDue && !c.dir.snapDue
theorem boundary_calm (c : Chip) (k : Clock) (h : calm c = true) : c.boundaryWork k = c := by
  simp only [calm, Bool.and_eq_true, Bool.or_eq_true, decide_eq_true_eq, Bool.not_eq_true', bne_iff_ne] at h
  obtain ⟨⟨⟨h1, h2⟩, h3⟩, h4⟩ := h
  have h5 : (c.win.pend && c.win.commitIn == 0) = false := by
    rcases h2 with h | h <;> simp [h]
  simp [Chip.boundaryWork, Chip.warmActions, Chip.warmDone, Chip.warmActs, Chip.commitOutcome, Chip.revert, Chip.snapshot, h1, h3, h4, h5]
theorem settled_of {s : State} (h : (s.clk.idx != 0 || (calm s.chip && s.chip.tim.stepReq.isNone)) = true) : s.settled := by
  rcases Bool.or_eq_true _ _ |>.mp h with h | h
  · have h0 : s.clk.idx ≠ 0 := by simpa using h
    exact ⟨fun e => absurd e h0, by unfold State.boundaryDone; rw [if_neg (fun e => h0 e.2)]⟩
  · rw [Bool.and_eq_true] at h
    have e : s.chip.boundaryWork s.clk = s.chip := boundary_calm _ _ h.1
    have g : s.stepBoundary = s := by
      unfold State.stepBoundary; rw [if_neg]; rintro ⟨-, -, hs⟩
      have := h.2; rw [Option.isNone_iff_eq_none] at this; rw [this] at hs; cases hs
    refine ⟨fun _ => e, ?_⟩
    unfold State.boundaryDone
    split
    · rw [e]; show (let s := s.stepBoundary; { s with chip := s.chip.snapshot s.clk }) = s
      rw [g]
      have hc := h.1
      simp only [calm, Bool.and_eq_true, Bool.or_eq_true, decide_eq_true_eq, Bool.not_eq_true', bne_iff_ne] at hc
      have : s.chip.snapshot s.clk = s.chip := by simp [Chip.snapshot, hc.2]
      dsimp only; rw [this]
    · rfl
theorem committed_of {s : State} (h : (s.clk.idx != 0 || calm s.chip) = true) : s.committed := by
  intro h0; rcases Bool.or_eq_true _ _ |>.mp h with h | h
  · simp [h0] at h
  · exact boundary_calm _ _ h
theorem serving_of {s : State} (h : (s.chip.running && s.chip.heath.staged.wf && s.chip.heath.live.wf && s.chip.heath.status.wf &&
    s.chip.heath.statusEnd.wf && s.chip.heath.snap.wf && (s.clk.idx != 0 || (calm s.chip && s.chip.tim.stepReq.isNone))) = true) : s.serving := by
  simp only [Bool.and_eq_true] at h
  obtain ⟨⟨⟨⟨⟨⟨h0, h1⟩, h2⟩, h3⟩, h4⟩, h5⟩, h6⟩ := h
  exact ⟨h0, ⟨h1, h2, h3, h4, h5⟩, settled_of h6⟩

/-! ### Small states -/

/-- What holds of the state that a command leads to. -/
def after (o : Out) (p : State → Bool) : Bool :=
  match o with
  | .next t => p t
  | _ => false
/-- The part as the first commit leaves it: HOSTSCHEMA locked, the start-up shade ended. -/
def litPart (c : Chip) : Chip :=
  (c.onBoot fun b => { b with suShade := false }).onDir fun d => { d with slock := true, hostSchema := 1, applied := 1 }

/-! ### Ill-formed commands -/

/-- One ill-formed command for every check of `Instr.wf`. -/
def illFormed : List Instr :=
  [.vinRise true false false 65536, .powerOn 65536, .coreResetRelease false 0 false 0 [0] [], .coreResetRelease false 0 false 0 [] [64],
   .budget [0], .budget [15], .heathScrub 0 (2 ^ 32) 0, .otnFrame 0 { otuFrame with line := ⟨zeros 63, 0⟩ }, .otnFrame 0 { otuFrame with fixed := ⟨zeros 65, 0⟩ },
   .otnFrame 0 { otuFrame with fecCor := 4097 }, .otnFrame 0 { otuFrame with fecUnc := 64 },
   .gfpFrameRx 0 { gfp 60 with pti := 8 }, .dropGfpFrame 0 { gfp 60 with cid := 256 }, .upstreamHeaderRx 0 ⟨zeros 79, none, [], 0⟩,
   .upstreamHeaderRx 0 ⟨zeros 80, none, zeros 81, 0⟩, .upstreamHeaderRx 0 ⟨zeros 80, some (zeros 39993), [], 0⟩,
   .audioBlockRx 0 3 0 (zeros 20), .audioBlockRx 0 4 0 (zeros 19), .smallBlockMessage 0 .sensor 0 [(2000, zeros 20)],
   .managementMessage 0 [zeros 30], .answerRx 0 (zeros 47) 0]
/-- The same for the rest. -/
def illFormed2 : List Instr :=
  [.audioExchange (List.replicate 9 []), .slaveRxFrame 0 64 (List.replicate 65536 true),
   .captureEvent 0 (List.replicate 16 (0, true)),
   .loopFilterUpdate { loopTick with fmeas := [] }, .loopFilterUpdate { loopTick with active := [] },
   .faultEvent (List.replicate 385 0) true, .injectionLand (2 ^ 32), .tickRecord tickRec,
   .bankRunsApply [(2 ^ 32, 0#32)] 0 false, .add (2 ^ 32) 0 true 60 0 0 0 0#32 0#32, .add 0 0 true 65536 0 0 0 0#32 0#32,
   .add 0 0 true 60 0 125000 0 0#32 0#32, .retire (2 ^ 32) true, .cut 0 (2 ^ 32) 0, .attach [(2 ^ 32, 0#32)] 0,
   .powerPlan [] 0 0 0 false, .scheduledWake 226, .powerStateEntry 226 1, .powerStateEntry 0 0]
theorem test_ill_formed : illFormed.all (fun i => !i.wf) = true := by decide +kernel
theorem test_ill_formed_too : illFormed2.all (fun i => !i.wf) = true := by decide +kernel
theorem test_well_formed : ([.watch, .answerRx 3 (beBytes 8 upTrain ++ answer 7) 0, .gfpFrameRx 0 (gfp 60), .powerStateEntry 225 3] : List Instr).all Instr.wf = true := by
  decide +kernel
/-- No row of the operation table has bits. -/
theorem test_no_words : decodeTableWord 32 0 = none ∧ State.reset.withFetchWord 32 0 = State.reset := ⟨rfl, rfl⟩

/-! ### Check values of the spec -/

/-- Table 2.4. -/
theorem test_crc8 : (crc8 [0x00], crc8 [0x04], crc8 [0x83, 0x00], crc8 [0x83, 0x20, 0x01, 0x10, 0x03, 0x00]) = (0xF3#8, 0xEF#8, 0x5E#8, 0xD7#8) := by
  decide +kernel
/-- "123456789" (R173, R187). -/
def digits : List Byte := (List.range 9).map fun n => byte (0x31 + n)
theorem test_crc16 : crc16 digits = 0x29B1 ∧ crc16 [0x00] = 0xE1F0 := by decide +kernel
theorem test_crc32 : crc32 digits = 0xCBF43926 := by decide +kernel
/-- The run entries of the worked map of chapter 7. -/
theorem test_run_entries : runEnt 0xA0080101 = ⟨true, tAudio, 4, 1, 1⟩ ∧ (runEnt 0x1017E900).start = 11 ∧ (runEnt 0x1017E900).len = 489 := by
  decide +kernel

/-! ### Worked examples of the spec, one step each -/

/-- Chapter 4: the first read of WID answers 0x9640_5401 and CRC 0x40. -/
theorem test_wid : after (exec (.registerWrite (rb 0)) (sAt 10000 0 []))
    (fun t => t.chip.port.reply.data == 0x96405401#32 && t.chip.port.reply.crc == 0x40#8) = true := by decide +kernel
/-- Chapter 4: the write of HOSTSCHEMA answers CRC 0x35 and locks it. -/
theorem test_host_schema : after (exec (.schemaLock (wb 4 1 0)) (sAt 12660 0 []))
    (fun t => t.chip.port.reply.crc == 0x35#8 && t.chip.dir.slock && t.chip.schemaOk) = true := by decide +kernel
/-- Chapter 4: HCOMMIT reads 0x8000_2A00 after the request, and the answer's CRC is 0x20. -/
theorem test_commit_request : after (exec (.commitRequest (wb 5 0xC1002A00 0)) (sAt 14000 0 []))
    (fun t => t.chip.port.reply.crc == 0x20#8 && t.chip.hcommitWord == 0x80002A00#32 && t.chip.win.commitIn == 1) = true := by decide +kernel
/-- R34: a request in the fence takes effect one boundary later. -/
theorem test_commit_fence : after (exec (.commitRequest (wb 5 0xC1002A00 0)) (sAt 123000 0 []))
    (fun t => t.chip.win.commitIn == 2 && t.chip.win.defer) = true := by decide +kernel
/-- Chapter 3: the commit applied at tick 26,000 asserts INT_N 4 edges later, and HCOMMIT reads 0x0000_1717. -/
theorem test_commit_applied : after (exec .commitApply (sAt 0 26000 [litPart, fun c => c.onWin fun w =>
      { w with pend := true, verdict := some 0, lastTag := 0x17, imask := 0x3FFFE#32 }]))
    (fun t => t.chip.hcommitWord == 0x1717#32 && t.chip.win.icause == 1#32 && t.chip.win.intn.sched == [(3250000004, true)]) = true := by
  decide +kernel
/-- Chapter 2: HDATA answers 3,900 aborted beats with CRC 0x49. -/
theorem test_aborts : after (exec (.hdataRead (rb 4)) (sAt 0 0
      [fun c => (c.onWin fun w => { w with haddr := 0x01001002#32 }).onPort fun p => { p with aborts := 3900 }]))
    (fun t => t.chip.port.reply.data == 0xF3C#32 && t.chip.port.reply.crc == 0x49#8) = true := by decide +kernel
/-- Chapter 4: HAINC passes from word 31 of row 5 of DROPSTAT to word 0 of row 6. -/
theorem test_address_steps : nextAddr 0x2100501F = 0x21006000 := by decide +kernel
/-- Chapter 12: a step of 5.000 25 s at tick 20,008. -/
theorem test_step : after (exec .step ⟨[], { ticks := 20008, sec := 2, ns := 501000000, evc := 2501000000 },
      ({} : Chip).onTime fun x => { x with stepReq := some 5000250000 }⟩)
    (fun t => t.clk.sec == 7 && t.clk.ns == 501000000 && t.clk.tickSec == 4008 && t.clk.tofs == 5000000000 &&
      t.chip.st TIME.LASTSTEP 0 == 0x95123B40 && t.chip.st TIME.LASTSTEPMS 0 == 0x1388 && t.chip.tim.stepRem == 250000) = true := by
  decide +kernel
/-- Chapter 14: the second uncorrectable word in its window is a SEVERE fault event, written as 0x90E3_0000 with its stamp and time. -/
theorem test_fault_event : after (exec (.faultEvent [227] true)
      ⟨[], { ticks := 70098, sec := 8, ns := 762252040, evc := 8762252040 },
        sts [(FSRC.WCOUNT, 227, 1)] (lvs [(FSRC.SEV, 227, 3), (FSRC.CLASS, 227, 1), (FSRC.N, 227, 2), (FSRC.W, 227, 8000),
          (FGRP.CAUSEEN, 14, 5)] { col := { winOpen := [(227, 70000)] } })⟩)
    (fun t => t.chip.heath.status.read 0x620E0000 == 0x90E30000#32 && t.chip.heath.status.read 0x620E0001 == 0x0A455B08#32 &&
      t.chip.heath.status.read 0x620E0002 == 8#32 && t.chip.heath.status.read 0x620E0003 == 0x2D6F0B08#32 && t.chip.col.shade &&
      t.chip.col.flt == [227]) = true := by decide +kernel
/-- Chapter 7: the frame that echoes tick 40,040, stamped 63,342 ns after its cycle index 0 with OFSCOR 0x18, gives a delay of 420.25 ns. -/
theorem test_ranging : ((({} : Chip).rangeHeader { ticks := 40041 } 12 40040 61658 24).d 12 |>.delays) = [(0, some 107584)] := by decide +kernel
/-- Chapter 10: the second word of a 7-byte message commits the item. -/
theorem test_short_message : after (exec (.qdataWrite (wb 11 0x05060700 0xE0)) (sAt 0 0 [litPart, lvs [(QUEUE.EN, 9, 1), (QUEUE.SIZE, 9, 1)],
      fun c => (c.onWin fun w => { w with qid := 9 }).onQ 9 fun q => { q with hostOpen := [⟨0x01020304#32, false, 0, 0⟩] }]))
    (fun t => ((t.chip.q 9).items.map itemBytes) == [[1, 2, 3, 4, 5, 6, 7]] && (t.chip.q 9).hostOpen == []) = true := by decide +kernel
/-- Chapter 8: 24.25 dB does not reach 26.5 dB and 3 dB of margin; 31.25 dB does. -/
theorem test_probe : (lvs [(DROP.MARGIN, 3, 12)] {}).snrPass 3 3 97 = false ∧ (lvs [(DROP.MARGIN, 3, 12)] {}).snrPass 3 2 125 = true := by decide +kernel
/-- R38: the machine right after reset. -/
theorem test_reset : State.reset.chip.running = true ∧ State.reset.pending = [] ∧ State.reset.clk.ticks = 0 ∧ State.reset.chip.win.imask = 0x0003FFFF#32 ∧
    State.reset.chip.shaded = true ∧ State.reset.chip.heath.live = [] ∧ State.reset.chip.twin.role = .solo := by decide +kernel



/-! ### The codes of the lines -/

/-- R171: the first six bytes of the scrambler's sequence. -/
theorem test_scrambler : Chip.scrBytes (2 ^ 23 - 1) (zeros 6) = [0x00, 0x00, 0x3E, 0x00, 0x0F, 0xFC] := by decide +kernel
/-- R167: 0b00, 0b01, 0b11 and 0b10 as PAM-4 levels. -/
theorem test_pam4 : Chip.lineSymbols .pam4 [0x1E#8] = [-3, -1, 1, 3] := by decide +kernel
/-- R140: an idle frame is the bare core header. -/
theorem test_gfp_idle : gfpCore 0 = [0xB6, 0xAB, 0x31, 0xE0] := by decide +kernel
/-- Chapter 11: the driving and the sampling edge of period 1 of 128, and the frame sync that rises at period 32, index 31,250. -/
theorem test_audio_edges : driveEdge 128 1 = 977 ∧ sampleEdge 128 1 = 1465 ∧ driveEdge 128 32 = 31250 ∧
    wsLevel 0 31 = false ∧ wsLevel 0 32 = true := by decide +kernel

/-! ### The boundary scan (R479, R480): IDCODE, and an enable cell that drives its ball -/

theorem test_idcode : tapIdcode = 0x096400A9#32 := by decide
theorem test_extest_drives_enabled_ball :
    ({ ir := 0x00, cells := 0b100110 } : Tap).ball 0 = some true ∧ ({ ir := 0x00, cells := 0b100110 } : Tap).ball 1 = some false ∧
      ({ ir := 0x00, cells := 0b100110 } : Tap).ball 2 = none ∧ ({ ir := 0x05, cells := 0b100110 } : Tap).ball 0 = none := by decide

/-- Chapter 18, worked example: the balls of D45, A5_TXWS and TWN_RX2P, position 11 of PORT-DB, and the trims of both twins. -/
theorem test_package : lineBalls 45 = ((62, 27), (63, 27)) ∧ rowName 62 = "CF" ∧ rowName 63 = "CG" ∧
    sigBall 5 35 = some (some 5, "TXWS") ∧ rowName 3 = "D" ∧ twinBall false 2 = 20 ∧ ballGroup 3 20 = .twin ∧
    fibreAt 2 11 = .drop 90 ∧ trimOf 1224 1020 = 2 ∧ trimOf 1020 1224 = -2 := by decide +kernel

/-! ### Witnesses: for each statement, concrete values that meet its hypotheses, clause by clause -/

theorem wit_StepRunsFront :
    ∃ (i : Instr) (rest : List Instr) (s : State), (s.pending = i :: rest) :=
  ⟨.watch, [], ({ pending := [.watch] }), by decide +kernel⟩

theorem wit_IdleEdgePasses :
    (∃ (s : State), (s.pending = []) ∧ (s.chip.running = true) ∧ (s.clk.idx < 124999)) ∧
    (∃ (s : State), (s.pending = []) ∧ (s.chip.running = true) ∧ (s.clk.idx = 124999)) :=
  ⟨⟨(sAt 124998 0 []), by decide +kernel⟩,
   ⟨(sAt 124999 0 []), by decide +kernel⟩⟩

theorem wit_TickBoundaryCounts :
    ∃ (s : State), (s.chip.running = true) ∧ (s.clk.onGrid) :=
  ⟨(sAt 124999 7 []), by unfold Clock.onGrid; decide +kernel⟩

theorem wit_SlewEdges :
    (∃ (add2 : Bool) (s : State), (s.chip.running = true) ∧ (s.clk.mayslew add2 = true) ∧ (s.chip.tim.stepRem = 0) ∧ ((s.chip.dp 1).st ≠ .free) ∧ ((s.chip.dp 1).st ≠ .lost)) ∧
    (∃ (add2 : Bool) (s : State), (s.chip.running = true) ∧ (s.clk.mayslew add2 = true) ∧ (s.chip.tim.stepRem ≠ 0) ∧ (add2 = decide (0 < s.chip.tim.stepRem))) ∧
    (∃ (add2 : Bool) (s : State), (s.chip.running = true) ∧ (s.clk.sinceSlew < 999 ∨ s.clk.idx < 16 ∨ (if add2 then 124981 else 124983) < s.clk.idx)) :=
  ⟨⟨false, (sAt 124983 0 [(onCh 1 fun x => { x with st := .lock })]), by decide +kernel⟩,
   ⟨true, (sAt 16 0 [(fun c => c.onTime fun x => { x with stepRem := 1 })]), by decide +kernel⟩,
   ⟨true, (sAt 15 0 []), by decide +kernel⟩⟩

theorem wit_BudgetOverrun :
    ∃ (codes : List (Fin 16)) (s : State), (s.chip.running = true) ∧ (((codes.map (·.val)).filter (fun n => decide (1 ≤ n) && decide (n ≤ 14))) ≠ []) :=
  ⟨[14, 0], (sAt 0 0 []), by decide +kernel⟩

theorem wit_StepOfTime :
    ∃ (v : Int) (s : State), (s.chip.running = true) ∧ (s.clk.superframe = true) ∧ (s.committed) ∧ (s.chip.tim.stepReq = some v) ∧ (0 ≤ (s.clk.time : Int) + stepM (v + s.chip.tim.stepRem) * 1000000) ∧ ((s.clk.time : Int) + stepM (v + s.chip.tim.stepRem) * 1000000 < 2 ^ 48 * 1000000000) :=
  ⟨1500000, (sAt 0 8 [(fun c => c.onTime fun x => { x with stepReq := some 1500000 })]), by decide +kernel, by decide +kernel, committed_of (by decide +kernel), by decide +kernel⟩

theorem wit_SupplySequence :
    (∃ (s : State), (s.chip.boot.phase = .off)) ∧
    (∃ (mv : Nat) (s : State), (s.chip.boot.phase = .s1) ∧ (s.chip.boot.vioExt = false ∨ s.chip.vioGood mv = true)) ∧
    (∃ (mv : Nat) (s : State), (s.chip.boot.phase = .s1) ∧ (s.chip.boot.vioExt = true) ∧ (s.chip.vioGood mv = false)) ∧
    (∃ (s : State), (s.chip.boot.phase = .s2)) ∧
    (∃ (s : State), (s.chip.boot.phase = .s2)) :=
  ⟨⟨(sAt 0 0 [(fun c => c.onBoot fun x => { x with phase := .off })]), by decide +kernel⟩,
   ⟨1980, (sAt 0 0 [(fun c => c.onBoot fun x => { x with phase := .s1, vioExt := true })]), by decide +kernel⟩,
   ⟨1981, (sAt 0 0 [(fun c => c.onBoot fun x => { x with phase := .s1, vioExt := true })]), by decide +kernel⟩,
   ⟨(sAt 0 0 [(fun c => c.onBoot fun x => { x with phase := .s2 })]), by decide +kernel⟩,
   ⟨(sAt 0 0 [(fun c => c.onBoot fun x => { x with phase := .s2 })]), by decide +kernel⟩⟩

theorem wit_CoreResetRelease :
    ∃ (s : State), (s.chip.boot.phase = .s3) :=
  ⟨(sAt 0 0 [(fun c => c.onBoot fun x => { x with phase := .s3 })]), by decide +kernel⟩

theorem wit_CoreStops :
    (∃ (s : State), (s.chip.boot.phase ≠ .off)) ∧
    (∃ (ns : Nat) (s : State), (1000 ≤ ns) ∧ ((s.chip.boot.phase = .run ∨ s.chip.boot.phase = .s3 ∨ s.chip.boot.phase = .halted))) ∧
    (∃ (ns : Nat), (ns < 100)) ∧
    (∃ (ns : Nat) (s : State), (100 ≤ ns) ∧ (ns < 1000) ∧ (s.chip.boot.phase = .run)) ∧
    (∃ (op : Byte) (s : State), (tapHolds op = true) ∧ ((s.chip.boot.phase = .run ∨ s.chip.boot.phase = .s3 ∨ s.chip.boot.phase = .halted))) :=
  ⟨⟨(sAt 0 0 []), by decide +kernel⟩,
   ⟨1000, (sAt 0 0 [(fun c => c.onBoot fun x => { x with phase := .halted })]), by decide +kernel⟩,
   ⟨99, by decide +kernel⟩,
   ⟨999, (sAt 0 0 []), by decide +kernel⟩,
   ⟨0x05, (sAt 0 0 []), by decide +kernel⟩⟩

theorem wit_HoldEnds :
    (∃ (s : State), (s.chip.boot.phase = .hold)) ∧
    (∃ (s : State), (s.chip.boot.phase = .hold)) ∧
    (∃ (op : Byte) (s : State), (tapHolds op = false) ∧ (s.chip.boot.phase = .hold)) ∧
    (∃ (op : Byte) (s : State), (tapHolds op = false) ∧ (s.chip.boot.phase = .run)) :=
  ⟨⟨(sAt 0 0 [(fun c => c.onBoot fun x => { x with phase := .hold })]), by decide +kernel⟩,
   ⟨(sAt 0 0 [(fun c => c.onBoot fun x => { x with phase := .hold })]), by decide +kernel⟩,
   ⟨0xFF, (sAt 0 0 [(fun c => c.onBoot fun x => { x with phase := .hold })]), by decide +kernel⟩,
   ⟨0x02, (sAt 0 0 []), by decide +kernel⟩⟩

theorem wit_IoRailAndPort :
    (∃ (s : State), (s.chip.running = true) ∧ (s.chip.boot.vioExt = true)) ∧
    (∃ (s : State), (s.chip.running = true) ∧ (s.chip.port.vioLost = true)) ∧
    (∃ (s : State), (s.serving) ∧ (s.chip.port.ready = false) ∧ (s.clk.ticks = 0)) :=
  ⟨⟨(sAt 0 0 [(fun c => c.onBoot fun x => { x with vioExt := true })]), by decide +kernel⟩,
   ⟨(sAt 0 0 [(fun c => c.onPort fun x => { x with vioLost := true })]), by decide +kernel⟩,
   ⟨(sAt 0 0 [(fun c => c.onPort fun x => { x with ready := false })]), serving_of (by decide +kernel), by decide +kernel⟩⟩

theorem wit_RegisterBeats :
    (∃ (b : Beat) (s : State), (s.serving) ∧ (s.chip.goodWrite b) ∧ (s.chip.reach b = 3)) ∧
    (∃ (b : Beat) (s : State), (s.serving) ∧ (s.chip.goodWrite b) ∧ (s.chip.reach b = 7)) ∧
    (∃ (b : Beat) (s : State), (s.serving) ∧ (s.chip.goodWrite b) ∧ ((s.chip.reach b = 0 ∨ s.chip.reach b = 1 ∨ s.chip.reach b = 8 ∨ s.chip.reach b = 9))) ∧
    (∃ (b : Beat) (s : State), (s.serving) ∧ (s.chip.takes b) ∧ (s.chip.writes b = true) ∧ (b.crc ≠ beatCrc (s.chip.cmdOf b) b.data b.tag) ∧ (s.chip.reach b < 12) ∧ (s.chip.reach b ≠ 4) ∧ (s.chip.reach b ≠ 11)) ∧
    (∃ (b : Beat) (s : State), (s.serving) ∧ (s.chip.goodRead b) ∧ (s.chip.reach b < 12) ∧ (s.chip.reach b ≠ 4) ∧ (s.chip.reach b ≠ 8) ∧ (s.chip.reach b ≠ 11) ∧ ((s.chip.reach b = 9 → s.chip.port.tsecSample = [] ∨ b.first = true))) ∧
    (∃ (b : Beat) (s : State), (s.serving) ∧ (b.part = .starts) ∧ (s.chip.opens b) ∧ (s.chip.writes b = false) ∧ (s.chip.reach b < 12) ∧ (s.chip.reach b ≠ 4) ∧ (s.chip.reach b ≠ 9) ∧ (s.chip.reach b ≠ 11)) ∧
    (∃ (b : Beat) (s : State) (i : _), (s.serving) ∧ (b.part = .ends) ∧ (s.chip.portOn = true) ∧ (s.chip.port.opened = true) ∧ (beatWr s.chip.port.cmd = false) ∧ (s.chip.port.idx = i) ∧ (i < 12) ∧ (i ≠ 4) ∧ (i ≠ 8) ∧ (i ≠ 11) ∧ (s.chip.port.given = .reg i) ∧ (s.chip.readOk b = true)) :=
  ⟨⟨(wb 3 0xFFFFFFFF 0), (sAt 0 0 []), serving_of (by decide +kernel), by unfold Chip.goodWrite Chip.takes Chip.opens; decide +kernel⟩,
   ⟨(wb 7 0xFFFFFFFF 0), (sAt 0 0 []), serving_of (by decide +kernel), by unfold Chip.goodWrite Chip.takes Chip.opens; decide +kernel⟩,
   ⟨(wb 9 0 0), (sAt 0 0 []), serving_of (by decide +kernel), by unfold Chip.goodWrite Chip.takes Chip.opens; decide +kernel⟩,
   ⟨({ wb 10 0 0 with crc := 0 }), (sAt 0 0 []), serving_of (by decide +kernel), by unfold Chip.takes Chip.opens; decide +kernel⟩,
   ⟨(rb 0), (sAt 0 0 []), serving_of (by decide +kernel), by unfold Chip.goodRead Chip.takes Chip.opens; decide +kernel⟩,
   ⟨({ rb 0 with part := .starts }), (sAt 0 0 []), serving_of (by decide +kernel), by unfold Chip.opens; decide +kernel⟩,
   ⟨({ rb 3 with part := .ends }), (sAt 0 0 [(fun c => c.onPort fun x => { x with inFrame := true, opened := true, idx := 3, cmd := byte 3, given := .reg 3 })]), 3, serving_of (by decide +kernel), by decide +kernel⟩⟩

theorem wit_SoftwareInterrupt :
    ∃ (b : Beat) (s : State), (s.serving) ∧ (s.chip.goodWrite b) ∧ (s.chip.reach b = 2) ∧ (b.data.getLsbD 2 = true) :=
  ⟨(wb 2 4 0), (sAt 0 0 []), serving_of (by decide +kernel), by unfold Chip.goodWrite Chip.takes Chip.opens; decide +kernel⟩

theorem wit_InvalidIndex :
    ∃ (b : Beat) (s : State), (s.serving) ∧ (s.chip.takes b) ∧ (12 ≤ s.chip.reach b) :=
  ⟨(wb 12 0 0), (sAt 0 0 []), serving_of (by decide +kernel), by unfold Chip.takes Chip.opens; decide +kernel⟩

theorem wit_FrameEnds :
    (∃ (first : Bool) (s : State), (s.chip.running = true) ∧ (s.chip.portOn = true) ∧ (s.chip.port.twoWire = false) ∧ ((first = true ∧ s.chip.port.stall = .none ∧ s.chip.port.opened = false ∨ first = false ∧ s.chip.port.inFrame = true))) ∧
    (∃ (s : State), (s.chip.running = true) ∧ (s.chip.portOn = true) ∧ (s.chip.port.twoWire = false) ∧ (s.chip.port.inFrame = true)) ∧
    (∃ (s : State), (s.chip.running = true) ∧ (s.chip.portOn = true) ∧ (s.chip.port.twoWire = true) ∧ (s.chip.port.inFrame = true)) ∧
    (∃ (s : State), (s.chip.running = true) ∧ (s.chip.portOn = true) ∧ (s.chip.port.twoWire = true) ∧ (s.chip.port.inFrame = true) ∧ (beatWr s.chip.port.cmd = false)) ∧
    (∃ (s : State), (s.chip.running = true) ∧ (s.chip.port.stall = .stretch)) :=
  ⟨⟨true, (sAt 0 0 []), by decide +kernel⟩,
   ⟨(sAt 0 0 [(fun c => c.onPort fun x => { x with inFrame := true, cmd := 0x40, beatDone := true })]), by decide +kernel⟩,
   ⟨(sAt 0 0 [(fun c => c.onPort fun x => { x with twoWire := true, inFrame := true })]), by decide +kernel⟩,
   ⟨(sAt 0 0 [(fun c => c.onPort fun x => { x with twoWire := true, inFrame := true, cmd := 4 })]), by decide +kernel⟩,
   ⟨(sAt 0 0 [(fun c => c.onPort fun x => { x with stall := .stretch })]), by decide +kernel⟩⟩

theorem wit_HdataWrite :
    (∃ (b : Beat) (s : State) (ws : _), (s.serving) ∧ (s.chip.goodWrite b) ∧ (s.chip.reach b = 4) ∧ (wordSpec s.chip.win.haddr.toNat = some ws) ∧ (ws.kind = .st) ∧ (s.chip.writeError s.chip.win.haddr.toNat b.data = 0)) ∧
    (∃ (b : Beat) (s : State), (s.serving) ∧ (s.chip.goodWrite b) ∧ (s.chip.reach b = 4) ∧ (s.chip.writeError s.chip.win.haddr.toNat b.data ≠ 0)) :=
  ⟨⟨(wb 4 0x80000000 0), (sAt 0 0 [(fun c => c.onWin fun x => { x with haddr := word (TRIB.VALID.addr 255) })]), (headSpec 0x12), serving_of (by decide +kernel), by unfold Chip.goodWrite Chip.takes Chip.opens; decide +kernel⟩,
   ⟨(wb 4 1 0), (sAt 0 0 [(fun c => c.onWin fun x => { x with haddr := word (0xEE000000) })]), serving_of (by decide +kernel), by unfold Chip.goodWrite Chip.takes Chip.opens; decide +kernel⟩⟩

theorem wit_HeathErrors :
    ∃ (b : Beat) (s : State) (ws : WSpec), (s.serving) ∧ (s.chip.goodWrite b) ∧ (s.chip.reach b = 4) ∧ (s.chip.win.warm ≠ .acted) ∧ (addrError s.chip.win.haddr.toNat = 0) ∧ (wordSpec s.chip.win.haddr.toNat = some ws) ∧ (ws.kind = .st) ∧ ((s.chip.win.pend = true ∨ s.chip.dir.revPend = true ∨ s.chip.dir.view = true)) :=
  ⟨(wb 4 1 0), (sAt 0 0 [(fun c => c.onWin fun x => { x with haddr := word (TRIB.VALID.addr 255) }), (fun c => c.onWin fun x => { x with pend := true, commitIn := 1 })]), (headSpec 0x12), serving_of (by decide +kernel), by unfold Chip.goodWrite Chip.takes Chip.opens; decide +kernel⟩

theorem wit_HdataRead :
    (∃ (b : Beat) (s : State) (ws : _), (s.serving) ∧ (s.chip.goodRead b) ∧ (s.chip.reach b = 4) ∧ (wordSpec s.chip.win.haddr.toNat = some ws) ∧ (2 ≤ tabOf s.chip.win.haddr.toNat) ∧ (tabOf s.chip.win.haddr.toNat ≠ 0x50) ∧ (s.chip.readError s.chip.win.haddr.toNat = 0) ∧ ((∀ u ∈ s.chip.heath.upsets, ¬ (u.bank = s.chip.viewBank ws.kind ∧ u.addr = s.chip.win.haddr.toNat)))) ∧
    (∃ (b : Beat) (s : State), (s.serving) ∧ (s.chip.goodRead b) ∧ (s.chip.reach b = 4) ∧ (s.chip.readError s.chip.win.haddr.toNat ≠ 0) ∧ (s.chip.readError s.chip.win.haddr.toNat ≠ hEcc)) ∧
    (∃ (b : Beat) (s : State) (a : Nat) (v : Word) (ws : WSpec), (s.serving) ∧ (b.part = .ends) ∧ (s.chip.portOn = true) ∧ (s.chip.port.opened = true) ∧ (beatWr s.chip.port.cmd = false) ∧ (s.chip.port.idx = 4) ∧ (s.chip.port.given = .heath a v) ∧ (s.chip.readOk b = true) ∧ (wordSpec a = some ws) ∧ (ws.kind = .status) ∧ (s.chip.dir.snapView = true)) :=
  ⟨⟨(rb 4), (sAt 0 0 [(fun c => c.onWin fun x => { x with haddr := word (TRIB.VALID.addr 255) })]), (headSpec 0x12), serving_of (by decide +kernel), by unfold Chip.goodRead Chip.takes Chip.opens; decide +kernel⟩,
   ⟨(rb 4), (sAt 0 0 [(fun c => c.onWin fun x => { x with haddr := word (0x12100000) })]), serving_of (by decide +kernel), by unfold Chip.goodRead Chip.takes Chip.opens; decide +kernel⟩,
   ⟨({ rb 4 with part := .ends }), (sAt 0 0 [(fun c => c.onPort fun x => { x with inFrame := true, opened := true, idx := 4, cmd := byte 4, given := .heath (UPLSTAT.CAUSE.addr 3) 0#32 }), (fun c => c.onDir fun x => { x with snapView := true })]), (UPLSTAT.CAUSE.addr 3), 0, ((wordSpec (UPLSTAT.CAUSE.addr 3)).getD (headSpec 0x11)), serving_of (by decide +kernel), by decide +kernel⟩⟩

theorem wit_DirAndSnapshotRequests :
    (∃ (b : Beat) (s : State), (s.serving) ∧ (s.chip.goodWrite b) ∧ (s.chip.reach b = 4) ∧ (s.chip.win.warm ≠ .acted) ∧ (s.chip.mead.brokeHeath = false) ∧ (s.chip.win.haddr.toNat = hAddr 0 0 0) ∧ (s.chip.dir.slock = false) ∧ (b.data.toNat % 16 ≠ 0)) ∧
    (∃ (b : Beat) (s : State), (s.serving) ∧ (s.chip.goodWrite b) ∧ (s.chip.reach b = 4) ∧ (s.chip.win.warm ≠ .acted) ∧ (s.chip.mead.brokeHeath = false) ∧ (s.chip.win.haddr.toNat = hAddr 0 0 0) ∧ (s.chip.dir.slock = true) ∧ (b.data.toNat % 16 ≠ s.chip.dir.hostSchema)) ∧
    (∃ (b : Beat) (s : State), (s.serving) ∧ (s.chip.goodWrite b) ∧ (s.chip.reach b = 4) ∧ (s.chip.win.warm ≠ .acted) ∧ (s.chip.mead.brokeHeath = false) ∧ (s.chip.win.haddr.toNat = hAddr 0 0 1) ∧ (b.data.getLsbD 8 = true) ∧ (s.chip.win.pend = false)) ∧
    (∃ (b : Beat) (s : State), (s.serving) ∧ (s.chip.goodWrite b) ∧ (s.chip.reach b = 4) ∧ (s.chip.win.warm ≠ .acted) ∧ (s.chip.mead.brokeHeath = false) ∧ (s.chip.win.haddr.toNat = hAddr 0 0 1) ∧ (b.data.getLsbD 8 = true) ∧ (s.chip.win.pend = true)) ∧
    (∃ (b : Beat) (s : State), (s.serving) ∧ (s.chip.goodWrite b) ∧ (s.chip.reach b = 4) ∧ (s.chip.win.warm ≠ .acted) ∧ (s.chip.mead.brokeHeath = false) ∧ (s.chip.win.haddr.toNat = hAddr 1 0 5) ∧ (b.data.getLsbD 0 = true)) :=
  ⟨⟨(wb 4 1 0), (sAt 0 0 [(fun c => c.onWin fun x => { x with haddr := word (0) })]), serving_of (by decide +kernel), by unfold Chip.goodWrite Chip.takes Chip.opens; decide +kernel⟩,
   ⟨(wb 4 1 0), (sAt 0 0 [(fun c => c.onWin fun x => { x with haddr := word (0) }), (fun c => c.onDir fun x => { x with slock := true })]), serving_of (by decide +kernel), by unfold Chip.goodWrite Chip.takes Chip.opens; decide +kernel⟩,
   ⟨(wb 4 256 0), (sAt 0 0 [(fun c => c.onWin fun x => { x with haddr := word (1) })]), serving_of (by decide +kernel), by unfold Chip.goodWrite Chip.takes Chip.opens; decide +kernel⟩,
   ⟨(wb 4 256 0), (sAt 0 0 [(fun c => c.onWin fun x => { x with haddr := word (1) }), (fun c => c.onWin fun x => { x with pend := true, commitIn := 1 })]), serving_of (by decide +kernel), by unfold Chip.goodWrite Chip.takes Chip.opens; decide +kernel⟩,
   ⟨(wb 4 1 0), (sAt 0 0 [(fun c => c.onWin fun x => { x with haddr := word (hAddr 1 0 5) })]), serving_of (by decide +kernel), by unfold Chip.goodWrite Chip.takes Chip.opens; decide +kernel⟩⟩

theorem wit_CommitRequests :
    (∃ (b : Beat) (s : State), (s.serving) ∧ (s.chip.goodWrite b) ∧ (s.chip.reach b = 5) ∧ (b.data.toNat / 2 ^ 24 = 0xC1) ∧ (s.chip.win.warm ≠ .acted) ∧ (s.chip.win.pend = false)) ∧
    (∃ (b : Beat) (s : State), (s.serving) ∧ (s.chip.goodWrite b) ∧ (s.chip.reach b = 5) ∧ (b.data.toNat / 2 ^ 24 = 0xC1) ∧ (s.chip.win.warm ≠ .acted) ∧ (s.chip.win.pend = true)) :=
  ⟨⟨(wb 5 0xC1000700 0), (sAt 0 0 []), serving_of (by decide +kernel), by unfold Chip.goodWrite Chip.takes Chip.opens; decide +kernel⟩,
   ⟨(wb 5 0xC1000700 0), (sAt 0 0 [(fun c => c.onWin fun x => { x with pend := true, commitIn := 1 })]), serving_of (by decide +kernel), by unfold Chip.goodWrite Chip.takes Chip.opens; decide +kernel⟩⟩

theorem wit_InterruptCauses :
    (∃ (b : Beat) (s : State), (s.serving) ∧ (s.chip.goodWrite b) ∧ (s.chip.reach b = 6)) ∧
    (∃ (s : State) (e : Nat), (s.serving) ∧ (s.chip.win.gapEnd = some e) ∧ (e ≤ s.clk.evc + (124999 - s.clk.idx))) ∧
    (∃ (b : Beat) (s : State), (s.serving) ∧ (s.chip.goodRead b) ∧ (s.chip.reach b = 8)) :=
  ⟨⟨(wb 6 1 0), (sAt 0 0 []), serving_of (by decide +kernel), by unfold Chip.goodWrite Chip.takes Chip.opens; decide +kernel⟩,
   ⟨(sAt 0 0 [(fun c => c.onWin fun x => { x with gapEnd := some 124999 })]), 124999, serving_of (by decide +kernel), by decide +kernel⟩,
   ⟨(rb 8), (sAt 0 0 []), serving_of (by decide +kernel), by unfold Chip.goodRead Chip.takes Chip.opens; decide +kernel⟩⟩

theorem wit_QueueSelection :
    (∃ (b : Beat) (s : State), (s.serving) ∧ (s.chip.goodWrite b) ∧ (s.chip.reach b = 10) ∧ (b.data.toNat % 16 < 12)) ∧
    (∃ (b : Beat) (s : State), (s.serving) ∧ (s.chip.goodWrite b) ∧ (s.chip.reach b = 10) ∧ (12 ≤ b.data.toNat % 16)) ∧
    (∃ (b : Beat) (s : State), (s.serving) ∧ (s.chip.goodWrite b) ∧ (s.chip.reach b = 10) ∧ (b.data.toNat % 16 < 8) ∧ (b.data.getLsbD 5 = true) ∧ (s.chip.qEn (b.data.toNat % 16) = true)) ∧
    (∃ (b : Beat) (s : State), (s.serving) ∧ (s.chip.goodWrite b) ∧ (s.chip.reach b = 10) ∧ (8 ≤ b.data.toNat % 16) ∧ (b.data.toNat % 16 < 12) ∧ (b.data.getLsbD 5 = true) ∧ (s.chip.qEn (b.data.toNat % 16) = true)) ∧
    (∃ (b : Beat) (s : State), (s.serving) ∧ (s.chip.goodWrite b) ∧ (s.chip.reach b = 10) ∧ (b.data.toNat % 16 < 8) ∧ (b.data.getLsbD 6 = true) ∧ (b.data.getLsbD 5 = false) ∧ (s.chip.qEn (b.data.toNat % 16) = true)) :=
  ⟨⟨(wb 10 11 0), (sAt 0 0 []), serving_of (by decide +kernel), by unfold Chip.goodWrite Chip.takes Chip.opens; decide +kernel⟩,
   ⟨(wb 10 12 0), (sAt 0 0 []), serving_of (by decide +kernel), by unfold Chip.goodWrite Chip.takes Chip.opens; decide +kernel⟩,
   ⟨(wb 10 0x27 0), (sAt 0 0 [(lvs [(QUEUE.EN, 7, 1), (QUEUE.SIZE, 7, 1)])]), serving_of (by decide +kernel), by unfold Chip.goodWrite Chip.takes Chip.opens; decide +kernel⟩,
   ⟨(wb 10 0x2B 0), (sAt 0 0 [(lvs [(QUEUE.EN, 11, 1), (QUEUE.SIZE, 11, 1)])]), serving_of (by decide +kernel), by unfold Chip.goodWrite Chip.takes Chip.opens; decide +kernel⟩,
   ⟨(wb 10 0x47 0), (sAt 0 0 [(lvs [(QUEUE.EN, 7, 1), (QUEUE.SIZE, 7, 1)])]), serving_of (by decide +kernel), by unfold Chip.goodWrite Chip.takes Chip.opens; decide +kernel⟩⟩

theorem wit_QueueWords :
    (∃ (b : Beat) (s : State) (w : QWord) (ws : List QWord) (r : List (List QWord)), (s.serving) ∧ (s.chip.goodRead b) ∧ (s.chip.reach b = 11) ∧ (s.chip.qdataRefused false = false) ∧ (s.chip.win.qid < 8) ∧ ((s.chip.q s.chip.win.qid).replay = false) ∧ ((s.chip.q s.chip.win.qid).ready s.clk = true) ∧ ((s.chip.q s.chip.win.qid).items = (w :: ws) :: r) ∧ (w.err = 0)) ∧
    (∃ (b : Beat) (s : State), (s.serving) ∧ (s.chip.goodWrite b) ∧ (s.chip.reach b = 11) ∧ (s.chip.qdataRefused true = false) ∧ (s.chip.win.qid < 12) ∧ (0 < s.chip.qFree s.chip.win.qid) ∧ ((tagVcnt b.tag = 0 ∨ tagEop b.tag = true))) ∧
    (∃ (b : Beat) (s : State) (w : QWord) (ws : List QWord) (r : List (List QWord)), (s.chip.running = true) ∧ (s.chip.port.stall = .read) ∧ (s.chip.port.held = some b) ∧ (b.part = .whole) ∧ (s.chip.port.idx = 11) ∧ (beatWr s.chip.port.cmd = false) ∧ (s.chip.readOk b = true) ∧ (s.chip.qdataRefused false = false) ∧ (s.chip.win.qid < 8) ∧ ((s.chip.q s.chip.win.qid).replay = false) ∧ ((s.chip.q s.chip.win.qid).ready s.clk = true) ∧ ((s.chip.q s.chip.win.qid).items = (w :: ws) :: r) ∧ (w.err = 0)) ∧
    (∃ (b : Beat) (s : State), (s.chip.running = true) ∧ (s.chip.port.stall = .stretch) ∧ (s.chip.port.held = some b) ∧ (b.part = .whole) ∧ (s.chip.port.idx = 11) ∧ (beatWr s.chip.port.cmd = true) ∧ (s.chip.writeOk b = true) ∧ (s.chip.qdataRefused true = false) ∧ (s.chip.win.qid < 12) ∧ (0 < s.chip.qFree s.chip.win.qid) ∧ (tagEop b.tag = true)) :=
  ⟨⟨(rb 11), (sAt 0 0 [(lvs [(QUEUE.EN, 7, 1), (QUEUE.SIZE, 7, 1)]), (fun c => c.onWin fun x => { x with qid := 7 }), (fun c => c.onQ 7 fun x => { x with items := [[⟨7#32, true, 0, 0⟩]] })]), (⟨7#32, true, 0, 0⟩), [], [], serving_of (by decide +kernel), by unfold Chip.goodRead Chip.takes Chip.opens; decide +kernel⟩,
   ⟨(wb 11 5 0x80), (sAt 0 0 [(lvs [(QUEUE.EN, 8, 1), (QUEUE.SIZE, 8, 1)]), (fun c => c.onWin fun x => { x with qid := 8 })]), serving_of (by decide +kernel), by unfold Chip.goodWrite Chip.takes Chip.opens; decide +kernel⟩,
   ⟨(rb 11), (sAt 0 0 [(lvs [(QUEUE.EN, 7, 1), (QUEUE.SIZE, 7, 1)]), (fun c => c.onWin fun x => { x with qid := 7 }), (fun c => c.onQ 7 fun x => { x with items := [[⟨7#32, true, 0, 0⟩]] }), (fun c => c.onPort fun x => { x with stall := .read, held := some (rb 11), idx := 11, cmd := 11 })]), (⟨7#32, true, 0, 0⟩), [], [], by decide +kernel⟩,
   ⟨(wb 11 5 0x80), (sAt 0 0 [(lvs [(QUEUE.EN, 8, 1), (QUEUE.SIZE, 8, 1)]), (fun c => c.onWin fun x => { x with qid := 8 }), (fun c => c.onPort fun x => { x with stall := .stretch, held := some (wb 11 5 0x80), idx := 11, cmd := 0x8B })]), by decide +kernel⟩⟩

theorem wit_RoleRequests :
    (∃ (b : Beat) (s : State), (s.serving) ∧ (s.chip.goodWrite b) ∧ (s.chip.reach b = 2) ∧ (b.data.toNat / 2 ^ 24 ≠ 0xA3) ∧ (s.chip.win.warm = .idle) ∧ (b.data.toNat / 2 ^ 16 % 8 = 1) ∧ (s.chip.twin.role = .shadow) ∧ (s.chip.twin.req = none) ∧ (s.chip.col.shade = false) ∧ (s.chip.st TWIN.ARMED 0 = 0) ∧ (s.chip.port.vioLost = false)) ∧
    (∃ (b : Beat) (s : State), (s.serving) ∧ (s.chip.goodWrite b) ∧ (s.chip.reach b = 2) ∧ (b.data.toNat / 2 ^ 24 ≠ 0xA3) ∧ (s.chip.win.warm = .idle) ∧ (b.data.toNat / 2 ^ 16 % 8 = 2) ∧ (s.chip.twin.role = .lit) ∧ (s.chip.twin.req = none) ∧ (s.chip.st TWIN.LINKUP 0 = 1) ∧ (s.chip.twin.peerArmed = true)) ∧
    (∃ (b : Beat) (s : State), (s.serving) ∧ (s.chip.goodWrite b) ∧ (s.chip.reach b = 2) ∧ (b.data.toNat / 2 ^ 24 ≠ 0xA3) ∧ (s.chip.win.warm = .idle) ∧ (b.data.toNat / 2 ^ 16 % 8 = 2) ∧ (s.chip.twin.role = .lit) ∧ (s.chip.twin.req = none) ∧ (s.chip.st TWIN.LINKUP 0 = 1) ∧ (s.chip.twin.peerArmed = false)) ∧
    (∃ (b : Beat) (s : State), (s.serving) ∧ (s.chip.goodWrite b) ∧ (s.chip.reach b = 2) ∧ (b.data.toNat / 2 ^ 24 ≠ 0xA3) ∧ (s.chip.win.warm = .idle) ∧ (b.data.toNat / 2 ^ 16 % 8 = 3) ∧ (s.chip.twin.req = none) ∧ (s.chip.twin.role = .shadow)) ∧
    (∃ (b : Beat) (s : State), (s.serving) ∧ (s.chip.goodWrite b) ∧ (s.chip.reach b = 2) ∧ (b.data.toNat / 2 ^ 24 ≠ 0xA3) ∧ (s.chip.win.warm = .idle) ∧ (b.data.toNat / 2 ^ 16 % 8 = 3) ∧ (s.chip.twin.req = none) ∧ (s.chip.twin.role = .lit)) ∧
    (∃ (b : Beat) (s : State), (s.serving) ∧ (s.chip.goodWrite b) ∧ (s.chip.reach b = 2) ∧ (b.data.toNat / 2 ^ 24 ≠ 0xA3) ∧ (s.chip.win.warm = .idle) ∧ (b.data.toNat / 2 ^ 16 % 8 = 1) ∧ (s.chip.twin.role = .solo)) :=
  ⟨⟨(wb 2 0x10000 0), (sAt 0 0 [(fun c => c.onTwin fun x => { x with role := .shadow })]), serving_of (by decide +kernel), by unfold Chip.goodWrite Chip.takes Chip.opens; decide +kernel⟩,
   ⟨(wb 2 0x20000 0), (sAt 0 0 [(fun c => c.onTwin fun x => { x with role := .lit, peerArmed := true }), (sts [(TWIN.LINKUP, 0, 1)])]), serving_of (by decide +kernel), by unfold Chip.goodWrite Chip.takes Chip.opens; decide +kernel⟩,
   ⟨(wb 2 0x20000 0), (sAt 0 0 [(fun c => c.onTwin fun x => { x with role := .lit }), (sts [(TWIN.LINKUP, 0, 1)])]), serving_of (by decide +kernel), by unfold Chip.goodWrite Chip.takes Chip.opens; decide +kernel⟩,
   ⟨(wb 2 0x30000 0), (sAt 0 0 [(fun c => c.onTwin fun x => { x with role := .shadow })]), serving_of (by decide +kernel), by unfold Chip.goodWrite Chip.takes Chip.opens; decide +kernel⟩,
   ⟨(wb 2 0x30000 0), (sAt 0 0 [(fun c => c.onTwin fun x => { x with role := .lit })]), serving_of (by decide +kernel), by unfold Chip.goodWrite Chip.takes Chip.opens; decide +kernel⟩,
   ⟨(wb 2 0x10000 0), (sAt 0 0 []), serving_of (by decide +kernel), by unfold Chip.goodWrite Chip.takes Chip.opens; decide +kernel⟩⟩

theorem wit_WarmReset :
    (∃ (b : Beat) (s : State), (s.serving) ∧ (s.chip.goodWrite b) ∧ (s.chip.reach b = 2) ∧ (b.data.toNat / 2 ^ 24 = 0xA3) ∧ (s.chip.win.warm = .idle)) ∧
    (∃ (s : State), (s.chip.running = true) ∧ (s.clk.idx = 0) ∧ (s.chip.win.warm = .asked) ∧ (s.chip.win.warmIn = 0)) ∧
    (∃ (s : State), (s.chip.running = true) ∧ (s.clk.idx = 0) ∧ (s.chip.win.warm = .acted) ∧ (s.chip.win.warmIn = 0)) :=
  ⟨⟨(wb 2 0xA3000000 0), (sAt 0 0 []), serving_of (by decide +kernel), by unfold Chip.goodWrite Chip.takes Chip.opens; decide +kernel⟩,
   ⟨(sAt 0 1 [(fun c => c.onWin fun x => { x with warm := .asked })]), by decide +kernel⟩,
   ⟨(sAt 0 1 [(fun c => c.onWin fun x => { x with warm := .acted })]), by decide +kernel⟩⟩

theorem wit_CommitOutcomes :
    (∃ (s : State), (s.serving) ∧ (s.chip.win.pend = true) ∧ (s.chip.win.commitIn = 1) ∧ (s.chip.win.verdict = none)) ∧
    (∃ (v : Nat) (s : State), (s.chip.running = true) ∧ (s.clk.idx = 0) ∧ (s.chip.win.pend = true) ∧ (s.chip.win.commitIn = 0) ∧ (s.chip.warmActs = false) ∧ (s.chip.win.verdict = some v) ∧ (v ≠ 0)) ∧
    (∃ (s : State), (s.chip.running = true) ∧ (s.clk.idx = 0) ∧ (s.chip.win.pend = true) ∧ (s.chip.win.commitIn = 0) ∧ (s.chip.warmActs = false) ∧ (s.chip.win.verdict = some 0) ∧ ((∀ u ∈ s.chip.heath.upsets, u.bank ≠ 0))) ∧
    (∃ (s : State), (s.chip.win.pend = false)) :=
  ⟨⟨(sAt 5 0 [(fun c => c.onWin fun x => { x with pend := true, commitIn := 1 })]), serving_of (by decide +kernel), by decide +kernel⟩,
   ⟨1, (sAt 0 1 [(fun c => c.onWin fun x => { x with pend := true, verdict := some 1 })]), by decide +kernel⟩,
   ⟨(sAt 0 1 [(fun c => c.onWin fun x => { x with pend := true, verdict := some 0 }), (fun c => c.onHeath fun x => { x with upsets := [⟨1, TRIB.VALID.addr 0, 1, false⟩] })]), by decide +kernel⟩,
   ⟨(sAt 0 0 []), by decide +kernel⟩⟩

theorem wit_RevertSnapshotScrub :
    (∃ (s : State), (s.chip.running = true) ∧ (s.clk.idx = 0) ∧ (s.chip.dir.revDue = true) ∧ (s.chip.warmActs = false)) ∧
    (∃ (s : State), (s.chip.running = true) ∧ (s.clk.idx = 0) ∧ (s.chip.dir.snapDue = true)) ∧
    (∃ (b : Fin 2) (a : Nat) (s : State), (s.serving) ∧ (stWord a) ∧ (addrError a = 0) ∧ ((∀ u ∈ s.chip.heath.upsets, ¬ (u.bank = b.val ∧ u.addr = a)))) ∧
    (∃ (s : State), (s.chip.dir.revDue = false) ∧ (s.chip.dir.snapDue = false)) :=
  ⟨⟨(sAt 0 1 [(fun c => c.onDir fun x => { x with revDue := true })]), by decide +kernel⟩,
   ⟨(sAt 0 1 [(fun c => c.onDir fun x => { x with snapDue := true })]), by decide +kernel⟩,
   ⟨1, (TRIB.VALID.addr 255), (sAt 0 0 []), serving_of (by decide +kernel), ⟨headSpec 0x12, by decide +kernel⟩, by decide +kernel⟩,
   ⟨(sAt 0 0 []), by decide +kernel⟩⟩

theorem wit_UplinkDefects :
    (∃ (u : Fin 4) (s : State), (s.serving) ∧ (s.clk.idx ≤ 15) ∧ (s.chip.done.contains u.val = false) ∧ (s.chip.lv UPL.MODE u.val ≠ 0) ∧ ((s.chip.u u.val).start < s.clk.ticks) ∧ ((s.chip.u u.val).defs < 2 ^ 27)) ∧
    (∃ (u : Fin 4) (s : State), (s.serving) ∧ (RuleCtx.otn (s.chip.lv UPL.MODE u.val) = true) ∧ (s.chip.lineDown u.val (s.chip.u u.val).defs = false) ∧ (s.chip.loopDead u.val = false) ∧ ((s.chip.u u.val).defs < 2 ^ 27)) ∧
    (∃ (u : Fin 4) (s : State), (s.serving) ∧ (RuleCtx.eth (s.chip.lv UPL.MODE u.val) = true) ∧ (s.chip.lineDown u.val (s.chip.u u.val).defs = false) ∧ (s.chip.loopDead u.val = false) ∧ ((s.chip.u u.val).defs < 2 ^ 27)) ∧
    (∃ (u : Fin 4) (s : State), (s.chip.lv UPL.MODE u.val = 0)) ∧
    (∃ (u : Fin 4) (s : State), (15 + bit s.clk.skip < s.clk.idx ∨ s.chip.done.contains u.val = true)) :=
  ⟨⟨3, (sAt 15 1 [(lvs [(UPL.MODE, 3, 1)])]), serving_of (by decide +kernel), by decide +kernel⟩,
   ⟨3, (sAt 0 0 [(lvs [(UPL.MODE, 3, 2)])]), serving_of (by decide +kernel), by decide +kernel⟩,
   ⟨3, (sAt 0 0 [(lvs [(UPL.MODE, 3, 4)])]), serving_of (by decide +kernel), by decide +kernel⟩,
   ⟨0, (sAt 0 0 []), by decide +kernel⟩,
   ⟨0, (sAt 16 0 []), by decide +kernel⟩⟩

theorem wit_ClientFrames :
    (∃ (u : Fin 4) (f : GfpFrame) (s : State) (r : _), (s.serving) ∧ (RuleCtx.otn (s.chip.lv UPL.MODE u.val) = true) ∧ (s.chip.st UPLSTAT.SF u.val = 0) ∧ (vget s.chip.gfp u.val .hunt = .sync) ∧ (f.core = 0) ∧ (f.pli ≠ 0) ∧ (s.chip.selected u.val = true) ∧ (f.hecOk = true) ∧ (f.pti = 0) ∧ (f.exi = 1) ∧ ((f.pfi = true → f.fcsOk = true)) ∧ (f.part = .whole) ∧ (s.chip.on UPL.LOOPNE u.val = false) ∧ ((s.chip.u u.val).rx = none) ∧ (s.chip.tribByKey u.val f.cid = some r) ∧ (s.chip.liveBad 0x12 r = false) ∧ (s.chip.on TRIB.ENDN r = true) ∧ (f.client.length ≤ s.chip.lv TRIB.MAXLEN r) ∧ ((s.chip.t r).dn = []) ∧ (s.chip.headCause (s.chip.lv TRIB.DROP r) = none)) ∧
    (∃ (u : Fin 4) (f : GfpFrame) (s : State) (r : _), (s.serving) ∧ (RuleCtx.otn (s.chip.lv UPL.MODE u.val) = true) ∧ (s.chip.st UPLSTAT.SF u.val = 0) ∧ (vget s.chip.gfp u.val .hunt = .sync) ∧ (f.core = 0) ∧ (f.pli ≠ 0) ∧ (s.chip.selected u.val = true) ∧ (f.hecOk = true) ∧ (f.pti = 0) ∧ (f.exi = 1) ∧ ((f.pfi = true → f.fcsOk = true)) ∧ (f.part = .whole) ∧ (s.chip.on UPL.LOOPNE u.val = false) ∧ ((s.chip.u u.val).rx = none) ∧ (s.chip.tribByKey u.val f.cid = some r) ∧ (s.chip.liveBad 0x12 r = false) ∧ (s.chip.on TRIB.ENDN r = false)) ∧
    (∃ (u : Fin 4) (f : GfpFrame) (s : State), (s.serving) ∧ (RuleCtx.otn (s.chip.lv UPL.MODE u.val) = true) ∧ (s.chip.st UPLSTAT.SF u.val = 0) ∧ (vget s.chip.gfp u.val .hunt = .sync) ∧ (f.core = 0) ∧ (f.pli ≠ 0) ∧ (s.chip.selected u.val = true) ∧ (f.hecOk = true) ∧ (f.pti = 0) ∧ (f.exi = 1) ∧ ((f.pfi = true → f.fcsOk = true)) ∧ (f.part = .whole) ∧ (s.chip.on UPL.LOOPNE u.val = false) ∧ ((s.chip.u u.val).rx = none) ∧ (s.chip.tribByKey u.val f.cid = none)) ∧
    (∃ (u : Fin 4) (f : EtherFrame) (s : State) (r : Nat), (s.serving) ∧ (RuleCtx.eth (s.chip.lv UPL.MODE u.val) = true) ∧ (s.chip.st UPLSTAT.SF u.val = 0) ∧ (s.chip.ptpMatch u.val f.bytes = false) ∧ (s.chip.selected u.val = true) ∧ (f.fcsOk = true) ∧ (f.part = .whole) ∧ (f.errored = false) ∧ (s.chip.on UPL.LOOPNE u.val = false) ∧ ((s.chip.u u.val).rx = none) ∧ (beField f.bytes 12 13 = 0x88A8) ∧ (20 ≤ f.bytes.length) ∧ (s.chip.tribByKey u.val (beField f.bytes 14 15 % 4096) = some r) ∧ (s.chip.liveBad 0x12 r = false) ∧ (s.chip.on TRIB.ENDN r = true) ∧ (f.bytes.length - 4 ≤ s.chip.lv TRIB.MAXLEN r) ∧ ((s.chip.t r).dn = []) ∧ (s.chip.headCause (s.chip.lv TRIB.DROP r) = none)) ∧
    (∃ (d : Fin 96) (f : GfpFrame) (s : State) (r : _), (s.serving) ∧ (s.chip.takesBlocks d.val = true) ∧ ((s.chip.d d.val).gfp = .sync) ∧ ((s.chip.d d.val).rxItem = none) ∧ (f.part = .whole) ∧ (f.core = 0) ∧ (f.pli ≠ 0) ∧ (f.hecOk = true) ∧ (f.pti = 0) ∧ (f.exi = 1) ∧ (f.pfi = false) ∧ (s.chip.tribByDcid d.val f.cid = some r) ∧ (s.chip.dropDef d.val eXCON = false) ∧ (s.chip.liveBad 0x12 r = false) ∧ (s.chip.on TRIB.ENUP r = true) ∧ (60 ≤ f.client.length) ∧ (f.client.length ≤ s.chip.lv TRIB.MAXLEN r)) ∧
    (∃ (d : Fin 96) (f : GfpFrame) (s : State) (r : _), (s.serving) ∧ (s.chip.takesBlocks d.val = true) ∧ ((s.chip.d d.val).gfp = .sync) ∧ ((s.chip.d d.val).rxItem = none) ∧ (f.part = .whole) ∧ (f.core = 0) ∧ (f.pli ≠ 0) ∧ (f.hecOk = true) ∧ (f.pti = 0) ∧ (f.exi = 1) ∧ (f.pfi = false) ∧ (s.chip.tribByDcid d.val f.cid = some r) ∧ (s.chip.dropDef d.val eXCON = false) ∧ (s.chip.liveBad 0x12 r = false) ∧ (s.chip.on TRIB.ENUP r = false)) ∧
    (∃ (d : Fin 96) (f : GfpFrame) (s : State), (s.serving) ∧ (s.chip.takesBlocks d.val = true) ∧ ((s.chip.d d.val).gfp = .sync) ∧ ((s.chip.d d.val).rxItem = none) ∧ (f.part = .whole) ∧ (f.core = 0) ∧ (f.pli ≠ 0) ∧ (f.hecOk = true) ∧ (f.pti = 0) ∧ (f.exi = 1) ∧ (f.pfi = false) ∧ (s.chip.tribByDcid d.val f.cid = none) ∧ ((s.chip.d d.val).ps = .up)) :=
  ⟨⟨3, (gfp 60), (sAt 0 0 [(lvs [(UPL.MODE, 3, 1), (TRIB.VALID, 255, 1), (TRIB.UPL, 255, 3), (TRIB.KEY, 255, 5), (TRIB.DROP, 255, 95), (TRIB.DCID, 255, 5), (TRIB.ENDN, 255, 1)]), (fun c => { c with gfp := vupd c.gfp 3 fun _ => .sync }), (fun c => c.onD 95 fun x => { x with ps := .up, rx := .sync, gfp := .sync, mode := 1 })]), 255, serving_of (by decide +kernel), by decide +kernel⟩,
   ⟨3, (gfp 60), (sAt 0 0 [(lvs [(UPL.MODE, 3, 1), (TRIB.VALID, 255, 1), (TRIB.UPL, 255, 3), (TRIB.KEY, 255, 5), (TRIB.DROP, 255, 95), (TRIB.DCID, 255, 5)]), (fun c => { c with gfp := vupd c.gfp 3 fun _ => .sync }), (fun c => c.onD 95 fun x => { x with ps := .up, rx := .sync, gfp := .sync, mode := 1 })]), 255, serving_of (by decide +kernel), by decide +kernel⟩,
   ⟨3, (gfp 60), (sAt 0 0 [(lvs [(UPL.MODE, 3, 1)]), (fun c => { c with gfp := vupd c.gfp 3 fun _ => .sync }), (fun c => c.onD 95 fun x => { x with ps := .up, rx := .sync, gfp := .sync, mode := 1 })]), serving_of (by decide +kernel), by decide +kernel⟩,
   ⟨3, etherFrame, (sAt 0 0 [(lvs [(UPL.MODE, 3, 3), (TRIB.VALID, 255, 1), (TRIB.UPL, 255, 3), (TRIB.KEY, 255, 5), (TRIB.DROP, 255, 95), (TRIB.ENDN, 255, 1)]), (fun c => c.onD 95 fun x => { x with ps := .up, rx := .sync, gfp := .sync, mode := 1 })]), 255, serving_of (by decide +kernel), by decide +kernel⟩,
   ⟨95, (gfp 60), (sAt 0 0 [(lvs [(UPL.MODE, 3, 1), (TRIB.VALID, 255, 1), (TRIB.UPL, 255, 3), (TRIB.KEY, 255, 5), (TRIB.DROP, 255, 95), (TRIB.DCID, 255, 5), (TRIB.ENUP, 255, 1), (TRIB.MAXLEN, 255, 60)]), (fun c => c.onD 95 fun x => { x with ps := .up, rx := .sync, gfp := .sync, mode := 1 })]), 255, serving_of (by decide +kernel), by decide +kernel⟩,
   ⟨95, (gfp 60), (sAt 0 0 [(lvs [(UPL.MODE, 3, 1), (TRIB.VALID, 255, 1), (TRIB.UPL, 255, 3), (TRIB.KEY, 255, 5), (TRIB.DROP, 255, 95), (TRIB.DCID, 255, 5)]), (fun c => c.onD 95 fun x => { x with ps := .up, rx := .sync, gfp := .sync, mode := 1 })]), 255, serving_of (by decide +kernel), by decide +kernel⟩,
   ⟨95, (gfp 60), (sAt 0 0 [(fun c => c.onD 95 fun x => { x with ps := .up, rx := .sync, gfp := .sync, mode := 1 })]), serving_of (by decide +kernel), by decide +kernel⟩⟩

theorem wit_UpstreamScheduling :
    (∃ (s : State), (s.serving) ∧ (s.clk.idx ≤ 271) ∧ (s.chip.done.contains 4 = false)) ∧
    (∃ (u : Fin 4) (s : State) (r : Nat) (it : Item) (l : List Item), (s.serving) ∧ (s.chip.twin.role ≠ .shadow) ∧ (s.chip.ptpWaits s.clk (s.chip.schedOf u.val) = false) ∧ ((s.chip.lv APS.MODE (s.chip.schedOf u.val / 2) = 0 ∨ s.chip.ptpWaits s.clk (s.chip.schedOf u.val + 1) = false)) ∧ ((s.chip.schedule (s.chip.schedOf u.val)).1 = some r) ∧ (r < 256) ∧ ((s.chip.t r).up = it :: l) ∧ (it.trib = r) ∧ (it.up = true) ∧ (s.chip.shaded = false) ∧ (s.chip.schedSends (s.chip.schedOf u.val) = true) ∧ ((∀ x ∈ s.chip.mead.upsets, x.cell ∉ it.cells))) ∧
    (∃ (u : Fin 4) (s : State) (r : Nat) (it : Item) (l : List Item), (s.serving) ∧ (s.chip.twin.role ≠ .shadow) ∧ (s.chip.ptpWaits s.clk (s.chip.schedOf u.val) = false) ∧ ((s.chip.lv APS.MODE (s.chip.schedOf u.val / 2) = 0 ∨ s.chip.ptpWaits s.clk (s.chip.schedOf u.val + 1) = false)) ∧ ((s.chip.schedule (s.chip.schedOf u.val)).1 = some r) ∧ (r < 256) ∧ ((s.chip.t r).up = it :: l) ∧ (it.trib = r) ∧ (it.up = true) ∧ (s.chip.shaded = true)) ∧
    (∃ (u : Fin 4) (s : State) (r : Nat) (it : Item) (l : List Item), (s.serving) ∧ (s.chip.twin.role ≠ .shadow) ∧ (s.chip.ptpWaits s.clk (s.chip.schedOf u.val) = false) ∧ ((s.chip.lv APS.MODE (s.chip.schedOf u.val / 2) = 0 ∨ s.chip.ptpWaits s.clk (s.chip.schedOf u.val + 1) = false)) ∧ ((s.chip.schedule (s.chip.schedOf u.val)).1 = some r) ∧ (r < 256) ∧ ((s.chip.t r).up = it :: l) ∧ (it.trib = r) ∧ (it.up = true) ∧ (s.chip.shaded = false) ∧ (s.chip.schedSends (s.chip.schedOf u.val) = false)) ∧
    (∃ (s : State), (271 + bit s.clk.skip < s.clk.idx)) ∧
    (∃ (s : State), (s.chip.twin.role = .shadow)) :=
  ⟨⟨(sAt 271 0 []), serving_of (by decide +kernel), by decide +kernel⟩,
   ⟨3, (sAt 0 0 [(lvs [(TRIB.VALID, 255, 1), (TRIB.UPL, 255, 3), (TRIB.KEY, 255, 5), (TRIB.ENUP, 255, 1)]), (fun c => c.onT 255 fun x => { x with up := [⟨255, true, 3, 5, zeros 60, [17], 0#32, 0, false, false, none⟩] }), (fun c => c.onBoot fun x => { x with suShade := false }), (fun c => c.onU 3 fun x => { x with laser := true })]), 255, (⟨255, true, 3, 5, zeros 60, [17], 0#32, 0, false, false, none⟩), [], serving_of (by decide +kernel), by decide +kernel⟩,
   ⟨3, (sAt 0 0 [(lvs [(TRIB.VALID, 255, 1), (TRIB.UPL, 255, 3), (TRIB.KEY, 255, 5), (TRIB.ENUP, 255, 1)]), (fun c => c.onT 255 fun x => { x with up := [⟨255, true, 3, 5, zeros 60, [17], 0#32, 0, false, false, none⟩] })]), 255, (⟨255, true, 3, 5, zeros 60, [17], 0#32, 0, false, false, none⟩), [], serving_of (by decide +kernel), by decide +kernel⟩,
   ⟨3, (sAt 0 0 [(lvs [(TRIB.VALID, 255, 1), (TRIB.UPL, 255, 3), (TRIB.KEY, 255, 5), (TRIB.ENUP, 255, 1)]), (fun c => c.onT 255 fun x => { x with up := [⟨255, true, 3, 5, zeros 60, [17], 0#32, 0, false, false, none⟩] }), (fun c => c.onBoot fun x => { x with suShade := false })]), 255, (⟨255, true, 3, 5, zeros 60, [17], 0#32, 0, false, false, none⟩), [], serving_of (by decide +kernel), by decide +kernel⟩,
   ⟨(sAt 272 0 []), by decide +kernel⟩,
   ⟨(sAt 0 0 [(fun c => c.onTwin fun x => { x with role := .shadow })]), by decide +kernel⟩⟩

theorem wit_Protection :
    (∃ (p : Fin 2) (w : Fin 4) (e : Nat) (s : State), (s.serving) ∧ (s.chip.lv APS.MODE p.val ≠ 0) ∧ (vget (s.chip.pair p.val).since w.val none = some e) ∧ (e + s.chip.lv APS.HOLDOFF p.val * 8 * 125000 ≤ s.clk.pos) ∧ ((s.chip.apsConds p.val).getD w.val false = true)) ∧
    (∃ (p : Fin 2) (w : Fin 4) (e : Nat) (s : State), (s.serving) ∧ (s.chip.lv APS.MODE p.val ≠ 0) ∧ (vget (s.chip.pair p.val).since w.val none = some e) ∧ (s.clk.pos < e + s.chip.lv APS.HOLDOFF p.val * 8 * 125000)) ∧
    (∃ (p : Fin 2) (s : State), (s.serving) ∧ (s.clk.idx = 0) ∧ (s.chip.lv APS.MODE p.val ≠ 0) ∧ (s.chip.liveBad 0x13 p.val = false) ∧ (s.chip.st APS.ACTIVE p.val = bit (s.chip.apsTarget s.clk p.val))) ∧
    (∃ (p : Fin 2) (s : State), (s.serving) ∧ (s.clk.idx = 0) ∧ (s.chip.lv APS.MODE p.val ≠ 0) ∧ (s.chip.liveBad 0x13 p.val = false) ∧ (s.chip.st APS.ACTIVE p.val ≠ bit (s.chip.apsTarget s.clk p.val))) ∧
    (∃ (p : Fin 2) (e : Nat) (s : State), (s.serving) ∧ (s.clk.idx ≤ 271) ∧ ((s.chip.pair p.val).wtrEnd = some e) ∧ (e ≤ s.clk.ticks)) ∧
    (∃ (p : Fin 2) (e : Nat) (s : State), (s.serving) ∧ ((s.chip.pair p.val).differ = some e) ∧ (s.chip.st APS.FOPNR p.val = 0) ∧ (e + 400 * 125000 ≤ s.clk.pos)) ∧
    (∃ (p : Fin 2) (e : Nat) (s : State), (s.serving) ∧ ((s.chip.pair p.val).differ = some e) ∧ (s.chip.st APS.FOPNR p.val = 0) ∧ (s.clk.pos < e + 400 * 125000)) :=
  ⟨⟨1, 0, 0, (sAt 0 8 [(lvs [(APS.MODE, 1, 1), (APS.HOLDOFF, 1, 1)]), (sts [(UPLSTAT.SF, 2, 1)]), (fun c => c.onP 1 fun x => { x with since := x.since.set 0 (some 0) })]), serving_of (by decide +kernel), by decide +kernel⟩,
   ⟨1, 0, 0, (sAt 124999 7 [(lvs [(APS.MODE, 1, 1), (APS.HOLDOFF, 1, 1)]), (fun c => c.onP 1 fun x => { x with since := x.since.set 0 (some 0) })]), serving_of (by decide +kernel), by decide +kernel⟩,
   ⟨1, (sAt 0 1 [(lvs [(APS.MODE, 1, 1)])]), serving_of (by decide +kernel), by decide +kernel⟩,
   ⟨1, (sAt 0 1 [(lvs [(APS.MODE, 1, 1)]), (fun c => c.onP 1 fun x => { x with want := true })]), serving_of (by decide +kernel), by decide +kernel⟩,
   ⟨1, 5, (sAt 271 5 [(fun c => c.onP 1 fun x => { x with wtrEnd := some 5 })]), serving_of (by decide +kernel), by decide +kernel⟩,
   ⟨1, 0, (sAt 0 400 [(fun c => c.onP 1 fun x => { x with differ := some 0 })]), serving_of (by decide +kernel), by decide +kernel⟩,
   ⟨1, 0, (sAt 124999 399 [(fun c => c.onP 1 fun x => { x with differ := some 0 })]), serving_of (by decide +kernel), by decide +kernel⟩⟩

theorem wit_SlotMapSteps :
    (∃ (d : Fin 96) (s : State), (s.serving) ∧ (s.clk.superframe = true) ∧ (s.chip.twin.role ≠ .shadow) ∧ ((s.chip.d d.val).sm = .waiting) ∧ ((s.chip.d d.val).rx = .sync)) ∧
    (∃ (d : Fin 96) (s : State), (s.serving) ∧ (s.clk.superframe = true) ∧ (s.chip.twin.role ≠ .shadow) ∧ ((s.chip.d d.val).sm = .offered) ∧ (echoedBefore s.clk (s.chip.d d.val) = true)) ∧
    (∃ (d : Fin 96) (s : State), (s.serving) ∧ (s.clk.superframe = true) ∧ ((s.chip.d d.val).sm = .applyNext) ∧ (1 ≤ (s.chip.d d.val).offerAge) ∧ ((s.chip.d d.val).genNext ≠ (s.chip.d d.val).genLive)) ∧
    (∃ (d : Fin 96) (s : State), (s.serving) ∧ (s.clk.superframe = true) ∧ (s.chip.twin.role ≠ .shadow) ∧ ((s.chip.d d.val).sm = .offered) ∧ (echoedBefore s.clk (s.chip.d d.val) = false) ∧ (4 ≤ (s.chip.d d.val).offerAge)) ∧
    (∃ (s : State), (s.clk.superframe = false)) :=
  ⟨⟨95, (sAt 0 8 [(fun c => c.onD 95 fun x => { x with sm := .waiting, rx := .sync, txMch := { rest := [7#8], first := false, busy := true } })]), serving_of (by decide +kernel), by decide +kernel⟩,
   ⟨95, (sAt 0 8 [(fun c => c.onD 95 fun x => { x with sm := .offered, echoed := true, echoAt := 0 })]), serving_of (by decide +kernel), by decide +kernel⟩,
   ⟨95, (sAt 0 8 [(fun c => c.onD 95 fun x => { x with sm := .applyNext, offerAge := 1, genNext := 7 })]), serving_of (by decide +kernel), by decide +kernel⟩,
   ⟨95, (sAt 0 8 [(fun c => c.onD 95 fun x => { x with sm := .offered, offerAge := 4 })]), serving_of (by decide +kernel), by decide +kernel⟩,
   ⟨(sAt 0 1 []), by decide +kernel⟩⟩

theorem wit_UpstreamHeaders :
    (∃ (d : Fin 96) (h : UpHeader) (s : State), (s.serving) ∧ (s.chip.hearsFrames d.val = true) ∧ (¬ ((s.chip.d d.val).ps = .listen ∧ copper d.val = true)) ∧ ((s.chip.d d.val).rx = .hunt) ∧ (beField h.bytes 0 7 = upFaw)) ∧
    (∃ (d : Fin 96) (h : UpHeader) (s : State), (s.serving) ∧ (s.chip.hearsFrames d.val = true) ∧ (¬ ((s.chip.d d.val).ps = .listen ∧ copper d.val = true)) ∧ ((s.chip.d d.val).rx = .hunt) ∧ (ones 64 (beField h.bytes 0 7 ^^^ upFaw) ≠ 0)) ∧
    (∃ (d : Fin 96) (h : UpHeader) (s : State), (s.serving) ∧ (s.chip.hearsFrames d.val = true) ∧ (¬ ((s.chip.d d.val).ps = .listen ∧ copper d.val = true)) ∧ ((s.chip.d d.val).rx = .presync) ∧ (ones 64 (beField h.bytes 0 7 ^^^ upFaw) ≤ 3)) ∧
    (∃ (d : Fin 96) (h : UpHeader) (s : State), (s.serving) ∧ (s.chip.hearsFrames d.val = true) ∧ (¬ ((s.chip.d d.val).ps = .listen ∧ copper d.val = true)) ∧ ((s.chip.d d.val).rx = .presync) ∧ (3 < ones 64 (beField h.bytes 0 7 ^^^ upFaw))) ∧
    (∃ (d : Fin 96) (h : UpHeader) (s : State), (s.serving) ∧ (s.chip.hearsFrames d.val = true) ∧ (¬ ((s.chip.d d.val).ps = .listen ∧ copper d.val = true)) ∧ ((s.chip.d d.val).rx = .sync) ∧ ((s.chip.d d.val).errRun = 3) ∧ (3 < ones 64 (beField h.bytes 0 7 ^^^ upFaw))) ∧
    (∃ (d : Fin 96) (h : UpHeader) (s : State), (s.serving) ∧ (s.chip.hearsFrames d.val = true) ∧ (¬ ((s.chip.d d.val).ps = .listen ∧ copper d.val = true)) ∧ ((s.chip.d d.val).rx = .sync) ∧ (ones 64 (beField h.bytes 0 7 ^^^ upFaw) ≤ 3) ∧ (Chip.goodHeader h.bytes = true)) ∧
    (∃ (d : Fin 96) (h : UpHeader) (s : State), (s.serving) ∧ (s.chip.hearsFrames d.val = true) ∧ (¬ ((s.chip.d d.val).ps = .listen ∧ copper d.val = true)) ∧ ((s.chip.d d.val).rx = .sync) ∧ (ones 64 (beField h.bytes 0 7 ^^^ upFaw) ≤ 3) ∧ (Chip.goodHeader h.bytes = false)) ∧
    (∃ (d : Fin 96) (s : State), (s.serving) ∧ ((s.chip.d d.val).ps = .listen) ∧ (copper d.val = true) ∧ ((s.chip.d d.val).mode = 0) ∧ ((s.chip.d d.val).downRx = .hunt)) ∧
    (∃ (d : Fin 96) (s : State), (s.chip.hearsFrames d.val = false) ∧ (¬ ((s.chip.d d.val).ps = .listen ∧ copper d.val = true))) :=
  ⟨⟨95, (upHead upFaw 0), (sAt 0 0 [(fun c => c.onD 95 fun x => { x with ps := .up, rx := .hunt })]), serving_of (by decide +kernel), by decide +kernel⟩,
   ⟨95, (upHead (upFaw - 1) 0), (sAt 0 0 [(fun c => c.onD 95 fun x => { x with ps := .up, rx := .hunt })]), serving_of (by decide +kernel), by decide +kernel⟩,
   ⟨95, (upHead (upFaw ^^^ 7) 0), (sAt 0 0 [(fun c => c.onD 95 fun x => { x with ps := .up, rx := .presync })]), serving_of (by decide +kernel), by decide +kernel⟩,
   ⟨95, (upHead (upFaw ^^^ 15) 0), (sAt 0 0 [(fun c => c.onD 95 fun x => { x with ps := .up, rx := .presync })]), serving_of (by decide +kernel), by decide +kernel⟩,
   ⟨95, (upHead (upFaw ^^^ 15) 0), (sAt 0 0 [(fun c => c.onD 95 fun x => { x with ps := .up, rx := .sync, errRun := 3 })]), serving_of (by decide +kernel), by decide +kernel⟩,
   ⟨95, (upHead (upFaw ^^^ 7) 0), (sAt 0 0 [(fun c => c.onD 95 fun x => { x with ps := .up, rx := .sync })]), serving_of (by decide +kernel), by decide +kernel⟩,
   ⟨95, (upHead upFaw 1), (sAt 0 0 [(fun c => c.onD 95 fun x => { x with ps := .up, rx := .sync })]), serving_of (by decide +kernel), by decide +kernel⟩,
   ⟨63, (sAt 0 0 [(fun c => c.onTwin fun x => { x with role := .shadow }), (fun c => c.onD 63 fun x => { x with ps := .listen })]), serving_of (by decide +kernel), by decide +kernel⟩,
   ⟨95, (sAt 0 0 []), by decide +kernel⟩⟩

theorem wit_DropBlocks :
    (∃ (d : Fin 96) (b : Nat) (echo : Nat) (e : RunEnt) (s : State), (s.serving) ∧ (s.chip.takesBlocks d.val = true) ∧ (s.chip.ignored d.val echo b = false) ∧ (b < blocksOf (s.chip.d d.val).mode) ∧ (s.chip.ticksAgo s.clk echo ≤ 3) ∧ (runAt (s.chip.runsAt s.clk d.val echo) true b = some e) ∧ (e.typ = tAudio) ∧ (s.chip.dropDef d.val eXCON = false)) ∧
    (∃ (d : Fin 96) (sk : SmallKind) (echo : Nat) (b : Nat) (bs : List Byte) (q : Nat) (e : RunEnt) (s : State), (s.serving) ∧ (s.chip.takesBlocks d.val = true) ∧ (s.chip.ignored d.val echo b = false) ∧ (b < blocksOf (s.chip.d d.val).mode) ∧ (s.chip.ticksAgo s.clk echo ≤ 3) ∧ (runAt (s.chip.runsAt s.clk d.val echo) true b = some e) ∧ (e.typ = (Chip.kindOf sk).2) ∧ (s.chip.dropDef d.val eXCON = false) ∧ (bs.length = 20) ∧ ((bs.drop 19).head? = some (crc8 (bs.take 19))) ∧ (has (byteAt bs 0) 7 = true) ∧ (has (byteAt bs 0) 6 = true) ∧ (byteAt bs 0 % 32 ≠ 0) ∧ (Chip.rxOpen (s.chip.d d.val) (Chip.kindOf sk).1 = false) ∧ (s.chip.rxQueue d.val (Chip.kindOf sk).1 = some q) ∧ (q < 12) ∧ (s.chip.qEn q = true) ∧ ((s.chip.q q).openOf (Chip.kindOf sk).1 d.val = none) ∧ (s.chip.qRoom q (min 18 (byteAt bs 0 % 32)) = true)) ∧
    (∃ (d : Fin 96) (sk : SmallKind) (echo : Nat) (b : Nat) (bs : List Byte) (e : RunEnt) (s : State), (s.serving) ∧ (s.chip.takesBlocks d.val = true) ∧ (s.chip.ignored d.val echo b = false) ∧ (b < blocksOf (s.chip.d d.val).mode) ∧ (s.chip.ticksAgo s.clk echo ≤ 3) ∧ (runAt (s.chip.runsAt s.clk d.val echo) true b = some e) ∧ (e.typ = (Chip.kindOf sk).2) ∧ (s.chip.dropDef d.val eXCON = false) ∧ (bs.length = 20) ∧ ((bs.drop 19).head? ≠ some (crc8 (bs.take 19)))) ∧
    (∃ (d : Fin 96) (bs : List Byte) (q : Nat) (s : State), (s.serving) ∧ (s.chip.takesBlocks d.val = true) ∧ (bs.length = 31) ∧ (has (byteAt bs 0) 7 = true) ∧ (has (byteAt bs 0) 6 = true) ∧ (byteAt bs 0 % 32 ≠ 0) ∧ (Chip.rxOpen (s.chip.d d.val) 0 = false) ∧ (s.chip.rxQueue d.val 0 = some q) ∧ (q < 12) ∧ (s.chip.qEn q = true) ∧ ((s.chip.q q).openOf 0 d.val = none) ∧ (s.chip.qRoom q (min 30 (byteAt bs 0 % 32)) = true)) ∧
    (∃ (d : Fin 96) (s : State), (s.chip.takesBlocks d.val = false)) ∧
    (∃ (d : Fin 96) (b : Nat) (echo : Nat) (s : State), (s.chip.ignored d.val echo b = true)) :=
  ⟨⟨95, 124, 0, (⟨true, tAudio, 124, 1, 3⟩), (sAt 3 3 [(fun c => c.onD 95 fun x => { x with ps := .up, rx := .sync, mode := 1, genLive := 1 }), (lvs [(SLOTMAP.RUNS, 190, 1), ((SLOTMAP.RUN.at 0), 190, (2 ^ 31 + tAudio * 2 ^ 28 + 124 * 2 ^ 17 + 256 + 3))])]), serving_of (by decide +kernel), by decide +kernel⟩,
   ⟨95, .sensor, 0, 124, (msgBlock 20 1), 7, (⟨true, tSensor, 124, 1, 0⟩), (sAt 3 3 [(fun c => c.onD 95 fun x => { x with ps := .up, rx := .sync, mode := 1, genLive := 1 }), (lvs [(SLOTMAP.RUNS, 190, 1), ((SLOTMAP.RUN.at 0), 190, (2 ^ 31 + tSensor * 2 ^ 28 + 124 * 2 ^ 17 + 256 + 0))]), (lvs [(DROP.SNSUEN, 95, 1), (DROP.SNSUQ, 95, 7), (QUEUE.EN, 7, 1), (QUEUE.SIZE, 7, 1)])]), serving_of (by decide +kernel), by decide +kernel⟩,
   ⟨95, .sensor, 0, 124, (zeros 20), (⟨true, tSensor, 124, 1, 0⟩), (sAt 3 3 [(fun c => c.onD 95 fun x => { x with ps := .up, rx := .sync, mode := 1, genLive := 1 }), (lvs [(SLOTMAP.RUNS, 190, 1), ((SLOTMAP.RUN.at 0), 190, (2 ^ 31 + tSensor * 2 ^ 28 + 124 * 2 ^ 17 + 256 + 0))])]), serving_of (by decide +kernel), by decide +kernel⟩,
   ⟨95, (0xC1#8 :: zeros 30), 7, (sAt 3 3 [(fun c => c.onD 95 fun x => { x with ps := .up, rx := .sync, mode := 1, genLive := 1 }), (lvs [(DROP.MCHUEN, 95, 1), (DROP.MCHUQ, 95, 7), (QUEUE.EN, 7, 1), (QUEUE.SIZE, 7, 1)])]), serving_of (by decide +kernel), by decide +kernel⟩,
   ⟨0, (sAt 0 0 []), by decide +kernel⟩,
   ⟨95, 124, 0, (sAt 0 0 [(fun c => c.onD 95 fun x => { x with mode := 1, rxDark := some (0, 1) })]), by decide +kernel⟩⟩

theorem wit_TrainingSteps :
    (∃ (d : Fin 96) (s : State), (s.serving) ∧ (s.chip.shaded = false) ∧ (s.clk.idx = 0) ∧ ((s.chip.d d.val).ps = .silent) ∧ (8 ≤ (s.chip.d d.val).age)) ∧
    (∃ (d : Fin 96) (s : State), (s.serving) ∧ (s.chip.shaded = false) ∧ (s.clk.idx = 0) ∧ ((s.chip.d d.val).ps = .silent) ∧ ((s.chip.d d.val).age < 8)) ∧
    (∃ (d : Fin 96) (s : State), (s.serving) ∧ (s.chip.shaded = false) ∧ (s.clk.idx = 0) ∧ ((s.chip.d d.val).ps = .quietec) ∧ (16 ≤ (s.chip.d d.val).age)) ∧
    (∃ (d : Fin 96) (s : State), (s.serving) ∧ (s.chip.shaded = false) ∧ (s.clk.idx = 0) ∧ ((s.chip.d d.val).ps = .prep) ∧ (4 ≤ (s.chip.d d.val).age)) ∧
    (∃ (d : Fin 96) (s : State), (s.serving) ∧ (s.chip.shaded = false) ∧ (s.clk.idx = 0) ∧ ((s.chip.d d.val).age < 16)) ∧
    (∃ (d : Fin 96) (s : State), (s.serving) ∧ (s.chip.shaded = false) ∧ (s.clk.idx = 0) ∧ ((s.chip.d d.val).age < 4)) ∧
    (∃ (d : Fin 96) (s : State), (s.serving) ∧ (s.chip.shaded = false) ∧ (s.clk.idx = 0) ∧ (s.clk.superframe = true) ∧ ((s.chip.d d.val).ps = .select) ∧ ((s.chip.d d.val).awaiting = false) ∧ (4 ≤ (s.chip.d d.val).age)) ∧
    (∃ (d : Fin 96) (w : List Byte) (m : List Byte) (s : State), (s.serving) ∧ ((s.chip.d d.val).ps = .call) ∧ (w.length = 8) ∧ (m.length = 40) ∧ ((s.chip.d d.val).train.hunt = .hunt)) ∧
    (∃ (d : Fin 96) (w : List Byte) (m : List Byte) (s : State), (s.serving) ∧ ((s.chip.d d.val).ps = .call) ∧ (w.length = 8) ∧ (m.length = 40) ∧ ((s.chip.d d.val).train.hunt = .sync) ∧ (beField w 0 7 = upTrain) ∧ (beField m 38 39 = crc16 (m.take 38)) ∧ (byteAt m 0 = 0x81) ∧ ((s.chip.d d.val).train.pre = none) ∧ ((s.chip.d d.val).train.answers = 0)) ∧
    (∃ (d : Fin 96) (w : List Byte) (m : List Byte) (s : State), (s.serving) ∧ ((s.chip.d d.val).ps = .call) ∧ (w.length = 8) ∧ (m.length = 40) ∧ ((s.chip.d d.val).train.hunt = .sync) ∧ (beField w 0 7 = upTrain) ∧ (beField m 38 39 = crc16 (m.take 38)) ∧ (byteAt m 0 = 0x81) ∧ ((s.chip.d d.val).train.pre = none) ∧ ((s.chip.d d.val).train.answers = 1) ∧ (beField m 4 7 = ((s.chip.d d.val).train.lastEcho + 1) % 2 ^ 32)) ∧
    (∃ (d : Fin 96) (w : List Byte) (m : List Byte) (s : State), (s.serving) ∧ ((s.chip.d d.val).ps = .call) ∧ (w.length = 8) ∧ (m.length = 40) ∧ ((s.chip.d d.val).train.hunt = .sync) ∧ (beField w 0 7 = upTrain) ∧ ((s.chip.d d.val).train.pre = none) ∧ (beField m 38 39 ≠ crc16 (m.take 38))) ∧
    (∃ (d : Fin 96) (s : State), (s.serving) ∧ ((s.chip.d d.val).ps = .probe) ∧ ((s.chip.d d.val).age = 15) ∧ ((s.chip.d d.val).train.judged = false) ∧ (s.clk.idx = 124999)) ∧
    (∃ (s : State), (s.serving)) :=
  ⟨⟨95, (sAt 0 8 [(fun c => c.onD 95 fun x => { x with ps := .silent, age := 8 }), (fun c => c.onBoot fun x => { x with suShade := false })]), serving_of (by decide +kernel), by decide +kernel⟩,
   ⟨95, (sAt 0 8 [(fun c => c.onD 95 fun x => { x with ps := .silent, age := 7 }), (fun c => c.onBoot fun x => { x with suShade := false })]), serving_of (by decide +kernel), by decide +kernel⟩,
   ⟨95, (sAt 0 8 [(fun c => c.onD 95 fun x => { x with ps := .quietec, age := 16 }), (fun c => c.onBoot fun x => { x with suShade := false })]), serving_of (by decide +kernel), by decide +kernel⟩,
   ⟨95, (sAt 0 8 [(fun c => c.onD 95 fun x => { x with ps := .prep, age := 4 }), (fun c => c.onBoot fun x => { x with suShade := false })]), serving_of (by decide +kernel), by decide +kernel⟩,
   ⟨95, (sAt 0 8 [(fun c => c.onD 95 fun x => { x with ps := .quietec, age := 15 }), (fun c => c.onBoot fun x => { x with suShade := false })]), serving_of (by decide +kernel), by decide +kernel⟩,
   ⟨95, (sAt 0 8 [(fun c => c.onD 95 fun x => { x with ps := .prep, age := 3 }), (fun c => c.onBoot fun x => { x with suShade := false })]), serving_of (by decide +kernel), by decide +kernel⟩,
   ⟨95, (sAt 0 8 [(fun c => c.onD 95 fun x => { x with ps := .select, age := 4 }), (fun c => c.onBoot fun x => { x with suShade := false })]), serving_of (by decide +kernel), by decide +kernel⟩,
   ⟨95, (beBytes 8 upTrain), (answer 41), (sAt 0 8 [(fun c => c.onD 95 fun x => { x with ps := .call })]), serving_of (by decide +kernel), by decide +kernel⟩,
   ⟨95, (beBytes 8 upTrain), (answer 41), (sAt 0 8 [(fun c => c.onD 95 fun x => { x with ps := .call, train := { hunt := .sync } })]), serving_of (by decide +kernel), by decide +kernel⟩,
   ⟨95, (beBytes 8 upTrain), (answer 42), (sAt 0 8 [(fun c => c.onD 95 fun x => { x with ps := .call, train := { hunt := .sync, answers := 1, lastEcho := 41 } })]), serving_of (by decide +kernel), by decide +kernel⟩,
   ⟨95, (beBytes 8 upTrain), (zeros 40), (sAt 0 8 [(fun c => c.onD 95 fun x => { x with ps := .call, train := { hunt := .sync } })]), serving_of (by decide +kernel), by decide +kernel⟩,
   ⟨95, (sAt 124999 8 [(fun c => c.onD 95 fun x => { x with ps := .probe, age := 15 })]), serving_of (by decide +kernel), by decide +kernel⟩,
   ⟨(sAt 0 8 []), serving_of (by decide +kernel)⟩⟩

theorem wit_TrainingEnds :
    (∃ (d : Fin 96) (s : State), (s.serving) ∧ (s.chip.shaded = false) ∧ (s.clk.idx = 0) ∧ ((s.chip.d d.val).ps = .select) ∧ ((s.chip.d d.val).awaiting = true) ∧ ((s.chip.d d.val).rx = .sync)) ∧
    (∃ (d : Fin 96) (s : State), (s.serving) ∧ (s.chip.shaded = false) ∧ (s.clk.idx = 0) ∧ ((s.chip.d d.val).ps = .select) ∧ ((s.chip.d d.val).awaiting = true) ∧ ((s.chip.d d.val).rx ≠ .sync) ∧ (64 ≤ (s.chip.d d.val).age)) ∧
    (∃ (d : Fin 96) (s : State), (s.serving) ∧ (s.chip.shaded = false) ∧ (s.clk.idx = 0) ∧ ((s.chip.d d.val).ps = .call) ∧ (64 ≤ (s.chip.d d.val).age) ∧ ((s.chip.d d.val).train.answers < 2)) ∧
    (∃ (d : Fin 96) (s : State), (s.serving) ∧ (s.chip.shaded = false) ∧ (s.clk.idx = 0) ∧ ((s.chip.d d.val).ps = .call) ∧ ((s.chip.d d.val).age < 64)) ∧
    (∃ (d : Fin 96) (s : State), (s.serving) ∧ (s.chip.shaded = false) ∧ (s.clk.idx = 0) ∧ ((s.chip.d d.val).ps = .wait) ∧ (s.chip.lv DROP.RETRYGAP d.val ≤ (s.chip.d d.val).age)) ∧
    (∃ (d : Fin 96) (s : State), (s.serving) ∧ (s.chip.shaded = false) ∧ (s.clk.idx = 0) ∧ ((s.chip.d d.val).ps = .wait) ∧ ((s.chip.d d.val).age < s.chip.lv DROP.RETRYGAP d.val)) ∧
    (∃ (d : Fin 96) (s : State) (e : _), (s.serving) ∧ (s.chip.shaded = false) ∧ (s.clk.idx = 0) ∧ ((s.chip.d d.val).ps = .up) ∧ ((s.chip.d d.val).closing = false) ∧ (((s.chip.d d.val).retrain = some e ∧ e < s.clk.ticks ∨ (s.chip.d d.val).lofSince = some e ∧ s.chip.lv DROP.LOFRT d.val ≠ 0 ∧ e + s.chip.lv DROP.LOFRT d.val * 8 * 125000 ≤ s.clk.pos))) ∧
    (∃ (d : Fin 96) (s : State), (s.serving) ∧ (s.chip.shaded = false) ∧ (s.clk.idx = 0) ∧ ((s.chip.d d.val).closing = true) ∧ (1 ≤ (s.chip.d d.val).age)) :=
  ⟨⟨95, (sAt 0 8 [(fun c => c.onD 95 fun x => { x with ps := .select, awaiting := true, rx := .sync }), (fun c => c.onBoot fun x => { x with suShade := false })]), serving_of (by decide +kernel), by decide +kernel⟩,
   ⟨95, (sAt 0 8 [(fun c => c.onD 95 fun x => { x with ps := .select, awaiting := true, age := 64 }), (fun c => c.onBoot fun x => { x with suShade := false })]), serving_of (by decide +kernel), by decide +kernel⟩,
   ⟨95, (sAt 0 8 [(fun c => c.onD 95 fun x => { x with ps := .call, age := 64 }), (fun c => c.onBoot fun x => { x with suShade := false })]), serving_of (by decide +kernel), by decide +kernel⟩,
   ⟨95, (sAt 0 8 [(fun c => c.onD 95 fun x => { x with ps := .call, age := 63 }), (fun c => c.onBoot fun x => { x with suShade := false })]), serving_of (by decide +kernel), by decide +kernel⟩,
   ⟨95, (sAt 0 8 [(fun c => c.onD 95 fun x => { x with ps := .wait, age := 8000 }), (fun c => c.onBoot fun x => { x with suShade := false })]), serving_of (by decide +kernel), by decide +kernel⟩,
   ⟨95, (sAt 0 8 [(fun c => c.onD 95 fun x => { x with ps := .wait, age := 7999 }), (fun c => c.onBoot fun x => { x with suShade := false })]), serving_of (by decide +kernel), by decide +kernel⟩,
   ⟨95, (sAt 0 2 [(fun c => c.onD 95 fun x => { x with ps := .up, retrain := some 1 }), (fun c => c.onBoot fun x => { x with suShade := false })]), 1, serving_of (by decide +kernel), by decide +kernel⟩,
   ⟨95, (sAt 0 8 [(fun c => c.onD 95 fun x => { x with ps := .up, closing := true, age := 1 }), (fun c => c.onBoot fun x => { x with suShade := false })]), serving_of (by decide +kernel), by decide +kernel⟩⟩

theorem wit_DropDefects :
    (∃ (d : Fin 96) (s : State), (s.serving) ∧ (s.clk.idx ≤ 127 + bit s.clk.skip) ∧ (s.chip.done.contains (100 + d.val) = false) ∧ ((s.chip.d d.val).ps ≠ .off)) ∧
    (∃ (d : Fin 96) (s : State), (s.serving) ∧ (s.clk.idx ≤ 127 + bit s.clk.skip) ∧ (s.chip.done.contains (100 + d.val) = false) ∧ ((s.chip.d d.val).ps = .off)) ∧
    (∃ (d : Fin 96) (s : State), (127 + bit s.clk.skip < s.clk.idx ∨ s.chip.done.contains (100 + d.val) = true)) :=
  ⟨⟨95, (sAt 127 0 [(fun c => c.onD 95 fun x => { x with ps := .up })]), serving_of (by decide +kernel), by decide +kernel⟩,
   ⟨95, (sAt 127 0 []), serving_of (by decide +kernel), by decide +kernel⟩,
   ⟨95, (sAt 128 0 []), by decide +kernel⟩⟩

theorem wit_MeadowCommands :
    (∃ (b : Fin 16) (s : State), (s.serving) ∧ ((∀ x ∈ s.chip.mead.upsets, x.cell ≠ vget s.chip.mead.scrubRow b.val 0 * 16 + b.val))) ∧
    (∃ (m : Fin 8) (g : Fin 19) (s : State), (s.serving) ∧ ((s.chip.lv XBAR.LOCKEN 0).testBit m.val = true) ∧ (((m = 0 ∧ (g = 16 ∨ g = 17)) ∨ (m = 6 ∧ g = 17) ∨ (m = 7 ∧ g = 16 ∧ s.chip.twin.role ≠ .solo)))) ∧
    (∃ (m : Fin 8) (g : Fin 19) (s : State), (s.serving) ∧ ((s.chip.lv XBAR.LOCKEN 0).testBit m.val = false ∨ ¬ ((m = 0 ∧ (g = 16 ∨ g = 17)) ∨ (m = 6 ∧ g = 17) ∨ (m = 7 ∧ g = 16 ∧ s.chip.twin.role ≠ .solo)))) ∧
    (∃ (s : State), (s.serving)) ∧
    (∃ (s : State), (s.serving) ∧ (s.clk.idx ≤ 119999) ∧ (s.chip.done.contains 5 = false) ∧ ((∀ g ∈ s.chip.mead.outNext, g.tick = s.clk.ticks + 1))) :=
  ⟨⟨15, (sAt 0 0 []), serving_of (by decide +kernel), by decide +kernel⟩,
   ⟨7, 16, (sAt 0 0 [(fun c => c.onTwin fun x => { x with role := .lit })]), serving_of (by decide +kernel), by decide +kernel⟩,
   ⟨1, 18, (sAt 0 0 []), serving_of (by decide +kernel), by decide +kernel⟩,
   ⟨(sAt 0 0 []), serving_of (by decide +kernel)⟩,
   ⟨(sAt 119999 0 []), serving_of (by decide +kernel), by decide +kernel⟩⟩

theorem wit_QueueItems :
    (∃ (q : Fin 8) (kind : Fin 16) (unit : Byte) (o : OpenItem) (e : Nat) (s : State), (s.serving) ∧ ((s.chip.q q.val).wholeOf kind.val unit.toNat = some o) ∧ (o.doneAt = some e) ∧ (e + 2 ≤ s.clk.evc + (124999 - s.clk.idx))) ∧
    (∃ (q : Fin 8) (kind : Fin 16) (unit : Byte) (o : OpenItem) (e : Nat) (s : State), (s.serving) ∧ ((s.chip.q q.val).wholeOf kind.val unit.toNat = some o) ∧ (o.doneAt = some e) ∧ (e + 2 ≤ s.clk.evc) ∧ (o.hurt = 0)) ∧
    (∃ (q : Fin 4) (w : Consumer) (ws : List QWord) (l : List (List QWord)) (s : State), (s.serving) ∧ (s.chip.consumer q.val = some w) ∧ (s.chip.canSend w = true) ∧ ((s.chip.q (8 + q.val)).items = ws :: l) ∧ ((∀ x ∈ ws, x.err = 0)) ∧ (s.chip.segments w = true)) ∧
    (∃ (q : Fin 4) (w : Consumer) (ws : List QWord) (l : List (List QWord)) (s : State), (s.serving) ∧ (s.chip.consumer q.val = some w) ∧ (s.chip.canSend w = true) ∧ ((s.chip.q (8 + q.val)).items = ws :: l) ∧ ((∀ x ∈ ws, x.err = 0)) ∧ ((s.chip.q (8 + q.val)).begun = false) ∧ ((s.chip.q (8 + q.val)).ready s.clk = true) ∧ (s.chip.qEn (8 + q.val) = true) ∧ (s.chip.segments w = false)) ∧
    (∃ (q : Fin 4) (w : Consumer) (ws : List QWord) (l : List (List QWord)) (s : State), (s.serving) ∧ (s.chip.consumer q.val = some w) ∧ (s.chip.canSend w = true) ∧ ((s.chip.q (8 + q.val)).items = ws :: l) ∧ ((∀ x ∈ ws, x.err = 0)) ∧ ((s.chip.q (8 + q.val)).begun = true) ∧ ((s.chip.txOf w).rest = [])) ∧
    (∃ (s : State), (s.serving) ∧ (s.clk.idx ≤ 7) ∧ (s.chip.done.contains 7 = false)) :=
  ⟨⟨7, 3, 7, (⟨3, 7, zeros 5, 4, some 4, 0, 0⟩), 4, (sAt 4 0 [(fun c => c.onQ 7 fun x => { x with opens := [⟨3, 7, zeros 5, 4, some 4, 0, 0⟩] })]), serving_of (by decide +kernel), by decide +kernel⟩,
   ⟨7, 3, 7, (⟨3, 7, zeros 5, 4, some 4, 0, 0⟩), 4, (sAt 6 0 [(fun c => c.onQ 7 fun x => { x with opens := [⟨3, 7, zeros 5, 4, some 4, 0, 0⟩] })]), serving_of (by decide +kernel), by decide +kernel⟩,
   ⟨3, (.mch 95), [⟨7#32, true, 0, 0⟩], [], (sAt 0 0 [(fun c => c.onBoot fun x => { x with suShade := false }), (lvs [(DROP.MCHDEN, 95, 1), (DROP.MCHDQ, 95, 3)]), (fun c => c.onD 95 fun x => { x with ps := .up, sm := .offered }), (fun c => c.onQ 11 fun x => { x with items := [[⟨7#32, true, 0, 0⟩]] })]), serving_of (by decide +kernel), by decide +kernel⟩,
   ⟨3, (.gcc 3), [⟨7#32, true, 0, 0⟩], [], (sAt 0 0 [(lvs [(UPL.GCCDNEN, 3, 1), (UPL.GCCQD, 3, 3), (UPL.MODE, 3, 1), (QUEUE.EN, 11, 1)]), (fun c => c.onBoot fun x => { x with suShade := false }), (fun c => c.onU 3 fun x => { x with laser := true }), (fun c => c.onQ 11 fun x => { x with items := [[⟨7#32, true, 0, 0⟩]], begun := false })]), serving_of (by decide +kernel), by decide +kernel⟩,
   ⟨3, (.gcc 3), [⟨7#32, true, 0, 0⟩], [], (sAt 0 0 [(lvs [(UPL.GCCDNEN, 3, 1), (UPL.GCCQD, 3, 3), (UPL.MODE, 3, 1), (QUEUE.EN, 11, 1)]), (fun c => c.onBoot fun x => { x with suShade := false }), (fun c => c.onU 3 fun x => { x with laser := true }), (fun c => c.onQ 11 fun x => { x with items := [[⟨7#32, true, 0, 0⟩]], begun := true })]), serving_of (by decide +kernel), by decide +kernel⟩,
   ⟨(sAt 7 0 []), serving_of (by decide +kernel), by decide +kernel⟩⟩

theorem wit_AudioCommands :
    (∃ (s : State), (s.serving) ∧ (1 ≤ s.clk.idx) ∧ (s.clk.idx ≤ 1023) ∧ (s.chip.done.contains 9 = false)) ∧
    (∃ (p : Fin 8) (n : Nat) (s : State), (s.serving) ∧ ((s.chip.side p.val true).on = true) ∧ (s.chip.master p.val true = false) ∧ (n = s.chip.frameW p.val) ∧ ((s.chip.side p.val true).store.length < 32)) ∧
    (∃ (p : Fin 8) (n : Nat) (s : State), (s.serving) ∧ ((s.chip.side p.val true).on = true) ∧ (s.chip.master p.val true = false) ∧ (n = s.chip.frameW p.val) ∧ (32 ≤ (s.chip.side p.val true).store.length) ∧ ((s.chip.side p.val true).run = true)) ∧
    (∃ (p : Fin 8) (n : Nat) (s : State), (s.serving) ∧ ((s.chip.side p.val true).on = true) ∧ (s.chip.master p.val true = false) ∧ (n ≠ s.chip.frameW p.val)) ∧
    (∃ (p : Fin 8) (n : Nat) (s : State) (f : _) (l : _), (s.serving) ∧ (s.chip.sideEn p.val false = true) ∧ (s.chip.master p.val false = false) ∧ ((s.chip.side p.val false).run = true) ∧ (n = s.chip.frameW p.val) ∧ ((s.chip.side p.val false).store = f :: l)) ∧
    (∃ (p : Fin 8) (n : Nat) (s : State), (s.serving) ∧ (s.chip.sideEn p.val false = true) ∧ (s.chip.master p.val false = false) ∧ ((s.chip.side p.val false).run = true) ∧ (n = s.chip.frameW p.val) ∧ ((s.chip.side p.val false).store = [])) ∧
    (∃ (p : Fin 8) (s : State), ((s.chip.side p.val true).on = false ∨ s.chip.master p.val true = true)) ∧
    (∃ (p : Fin 8) (s : State), (s.serving) ∧ (s.chip.sideEn p.val false = false ∨ s.chip.master p.val false = true)) :=
  ⟨⟨(sAt 1023 0 []), serving_of (by decide +kernel), by decide +kernel⟩,
   ⟨7, 64, (sAt 0 0 [(onSide 7 true fun x => { x with on := true })]), serving_of (by decide +kernel), by decide +kernel⟩,
   ⟨7, 64, (sAt 0 0 [(onSide 7 true fun x => { x with on := true, run := true, store := List.replicate 32 [1, 2] })]), serving_of (by decide +kernel), by decide +kernel⟩,
   ⟨7, 63, (sAt 0 0 [(onSide 7 true fun x => { x with on := true })]), serving_of (by decide +kernel), by decide +kernel⟩,
   ⟨7, 64, (sAt 0 0 [(lvs [(AUDIO.TXEN, 7, 1)]), (onSide 7 false fun x => { x with on := true, run := true, store := [[1, 2]] })]), [1, 2], [], serving_of (by decide +kernel), by decide +kernel⟩,
   ⟨7, 64, (sAt 0 0 [(lvs [(AUDIO.TXEN, 7, 1)]), (onSide 7 false fun x => { x with on := true, run := true })]), serving_of (by decide +kernel), by decide +kernel⟩,
   ⟨7, (sAt 0 0 []), by decide +kernel⟩,
   ⟨7, (sAt 0 0 []), serving_of (by decide +kernel), by decide +kernel⟩⟩

theorem wit_CaptureEvents :
    ∃ (n : Fin 4) (srcs : List (Fin 15 × Bool)) (mask : Nat) (s : State), (s.serving) ∧ (s.clk.onGrid) ∧ (mask = s.chip.capMask n.val (srcs.map fun p => (p.1.val, p.2))) ∧ (s.chip.on TIME.CAP_EN (2 + n.val) = true) ∧ (mask ≠ 0) ∧ (s.chip.tim.taken.contains n.val = false) :=
  ⟨3, [(14, true), (0, false)], (2 ^ 14), (sAt 5 0 [(lvs [(TIME.CAP_EN, 5, 1), (TIME.CAP_EDGE, 5, 1), (TIME.CAP_SRCMASK, 5, (2 ^ 14))])]), serving_of (by decide +kernel), by unfold Clock.onGrid; decide +kernel⟩

theorem wit_TimedOutputs :
    (∃ (o : Fin 8) (e : Nat) (s : State), (s.serving) ∧ (s.chip.dueEdge s.clk o.val = some e) ∧ ((s.chip.out o.val).active = false) ∧ (e - s.clk.time ≤ 124999 - s.clk.idx)) ∧
    (∃ (e : Nat) (s : State), (s.serving) ∧ (s.chip.dueEdge s.clk 8 = some e) ∧ ((s.chip.out 8).active = false) ∧ (e - s.clk.time ≤ 124999 - s.clk.idx)) ∧
    (∃ (o : Fin 9) (s : State), (s.serving) ∧ ((s.chip.out o.val).active = true) ∧ ((s.chip.out o.val).pulseEnd ≤ s.clk.evc + (124999 - s.clk.idx))) ∧
    (∃ (ws : List QWord) (l : List (List QWord)) (s : State) (u : _), (s.serving) ∧ (s.chip.on TIME.PTPDEN 1 = true) ∧ (s.chip.shaded = false) ∧ (s.chip.qEn (8 + s.chip.lv TIME.PTPQD 1) = true) ∧ ((s.chip.q (8 + s.chip.lv TIME.PTPQD 1)).ready s.clk = true) ∧ ((s.chip.q (8 + s.chip.lv TIME.PTPQD 1)).items = ws :: l) ∧ ((∀ w ∈ ws, w.err = 0)) ∧ (u = (ws.headD ⟨0#32, true, 0, 0⟩).data.toNat / 2 ^ 28 % 4) ∧ ((s.chip.lv TIME.PTPU 1).testBit u = true) ∧ (60 ≤ (itemBytes (ws.drop 1)).length) ∧ ((itemBytes (ws.drop 1)).length ≤ 1518) ∧ (s.chip.sendsClient u = true)) ∧
    (∃ (ws : List QWord) (l : List (List QWord)) (s : State) (u : _), (s.serving) ∧ (s.chip.on TIME.PTPDEN 1 = true) ∧ (s.chip.shaded = false) ∧ (s.chip.qEn (8 + s.chip.lv TIME.PTPQD 1) = true) ∧ ((s.chip.q (8 + s.chip.lv TIME.PTPQD 1)).ready s.clk = true) ∧ ((s.chip.q (8 + s.chip.lv TIME.PTPQD 1)).items = ws :: l) ∧ ((∀ w ∈ ws, w.err = 0)) ∧ (u = (ws.headD ⟨0#32, true, 0, 0⟩).data.toNat / 2 ^ 28 % 4) ∧ ((s.chip.lv TIME.PTPU 1).testBit u = false ∨ (itemBytes (ws.drop 1)).length < 60 ∨ 1518 < (itemBytes (ws.drop 1)).length)) ∧
    (∃ (n : Fin 4) (s : State), (s.settled) ∧ (s.chip.on TIME.CAP_EN (2 + n.val) = false)) :=
  ⟨⟨7, 1000, (sAt 1 0 [(lvs [(TIME.OUT_MODE, 13, 2), (TIME.OUT_PERIOD, 13, 1000)])]), serving_of (by decide +kernel), by decide +kernel⟩,
   ⟨0, (sAt 0 0 [(lvs [(TIME.PPS_EN, 14, 1)])]), serving_of (by decide +kernel), by decide +kernel⟩,
   ⟨8, (sAt 0 0 [(onOut 8 fun x => { x with active := true, pulseEnd := 124999 })]), serving_of (by decide +kernel), by decide +kernel⟩,
   ⟨ptpItem, [], (sAt 0 0 [(lvs [(TIME.PTPDEN, 1, 1), (TIME.PTPQD, 1, 3), (QUEUE.EN, 11, 1), (TIME.PTPU, 1, 8)]), (fun c => c.onBoot fun x => { x with suShade := false }), (fun c => c.onU 3 fun x => { x with laser := true }), (fun c => c.onQ 11 fun x => { x with items := [ptpItem] })]), 3, serving_of (by decide +kernel), by decide +kernel⟩,
   ⟨ptpItem, [], (sAt 0 0 [(lvs [(TIME.PTPDEN, 1, 1), (TIME.PTPQD, 1, 3), (QUEUE.EN, 11, 1), (TIME.PTPU, 1, 7)]), (fun c => c.onBoot fun x => { x with suShade := false }), (fun c => c.onU 3 fun x => { x with laser := true }), (fun c => c.onQ 11 fun x => { x with items := [ptpItem] })]), 3, serving_of (by decide +kernel), by decide +kernel⟩,
   ⟨3, (sAt 0 0 []), settled_of (by decide +kernel), by decide +kernel⟩⟩

theorem wit_ReferencesAndChannels :
    (∃ (s : State), (s.serving) ∧ (s.clk.idx ≤ 511) ∧ (s.chip.done.contains 6 = false)) ∧
    (∃ (r7 : Bool) (s : State) (r : Nat), (s.serving) ∧ (r = (if r7 then 7 else 5)) ∧ (s.chip.pulseRef r = true)) ∧
    (∃ (r7 : Bool) (s : State) (r : Nat), (s.serving) ∧ (r = (if r7 then 7 else 5)) ∧ (s.chip.pulseRef r = false)) ∧
    (∃ (c : Fin 2) (r : Nat) (x : Nat) (e : Nat) (s : State), (s.serving) ∧ (s.clk.idx ≤ 511) ∧ ((s.chip.dp c.val).wtr = some (r, e)) ∧ ((s.chip.dp c.val).sel = some x) ∧ (e ≤ s.clk.ticks) ∧ ((s.chip.dp c.val).target = none) ∧ (s.chip.maySelect c.val r = true) ∧ (s.chip.ranksAbove c.val r x = true)) ∧
    (∃ (c : Fin 2) (r : Nat) (s : State), (s.serving) ∧ (s.clk.idx ≤ 511) ∧ ((s.chip.dp c.val).target = some r) ∧ (s.chip.switchReady s.clk c.val = true)) :=
  ⟨⟨(sAt 511 0 []), serving_of (by decide +kernel), by decide +kernel⟩,
   ⟨true, (sAt 5 0 [(lvs [(REF.INFREQ, 7, 0)])]), 7, serving_of (by decide +kernel), by decide +kernel⟩,
   ⟨true, (sAt 0 0 []), 7, serving_of (by decide +kernel), by decide +kernel⟩,
   ⟨1, 2, 5, 7, (sAt 511 7 [(lvs [(DPLL.MODE, 1, 1), (REF.TODEN, 2, 1), (REF.TODPRI, 2, 1), (REF.TODPRI, 5, 2)]), (onCh 1 fun x => { x with wtr := some (2, 7), sel := some 5 }), (onRef 2 fun x => { x with qual := true })]), serving_of (by decide +kernel), by decide +kernel⟩,
   ⟨1, 2, (sAt 511 7 [(onCh 1 fun x => { x with target := some 2, build := 7 })]), serving_of (by decide +kernel), by decide +kernel⟩⟩

theorem wit_FaultEvents :
    (∃ (x : Fin 384) (s : State), (s.serving) ∧ (unusedSrc x.val = false) ∧ (levelSrc x.val = false) ∧ (s.chip.lv FSRC.SEV x.val ≠ 0) ∧ (s.chip.on FSRC.CLASS x.val = false)) ∧
    (∃ (x : Fin 384) (s : State), (s.serving) ∧ (unusedSrc x.val = false) ∧ (levelSrc x.val = false) ∧ (s.chip.lv FSRC.SEV x.val ≠ 0) ∧ (s.chip.on FSRC.CLASS x.val = true) ∧ (s.clk.ticks - assoc s.chip.col.winOpen x.val 0 < s.chip.lv FSRC.W x.val) ∧ (s.chip.st FSRC.WCOUNT x.val + 1 ≠ s.chip.lv FSRC.N x.val)) ∧
    (∃ (x : Fin 384) (s : State), (s.serving) ∧ (unusedSrc x.val = false) ∧ (levelSrc x.val = false) ∧ (s.chip.lv FSRC.SEV x.val = 0)) ∧
    (∃ (x : Fin 384) (s : State), (s.serving) ∧ (unusedSrc x.val = false) ∧ (levelSrc x.val = true)) ∧
    (∃ (x : Fin 384) (s : State), (s.serving) ∧ (unusedSrc x.val = false) ∧ (levelSrc x.val = true)) ∧
    (∃ (x : Fin 384), (unusedSrc x.val = true)) ∧
    (∃ (x : Fin 384) (s : State), (s.serving) ∧ (s.clk.idx = 0) ∧ (s.chip.on FSRC.CLASS x.val = true) ∧ (0 < s.chip.lv FSRC.W x.val) ∧ (s.chip.lv FSRC.W x.val ≤ s.clk.ticks - assoc s.chip.col.winOpen x.val 0)) :=
  ⟨⟨15, (sAt 0 0 []), serving_of (by decide +kernel), by decide +kernel⟩,
   ⟨15, (sAt 0 0 [(lvs [(FSRC.CLASS, 15, 1), (FSRC.N, 15, 3)])]), serving_of (by decide +kernel), by decide +kernel⟩,
   ⟨15, (sAt 0 0 [(lvs [(FSRC.SEV, 15, 0)])]), serving_of (by decide +kernel), by decide +kernel⟩,
   ⟨277, (sAt 0 0 []), serving_of (by decide +kernel), by decide +kernel⟩,
   ⟨277, (sAt 0 0 [(fun c => c.onCol fun x => { x with cond := [277] })]), serving_of (by decide +kernel), by decide +kernel⟩,
   ⟨383, by decide +kernel⟩,
   ⟨15, (sAt 0 1 [(lvs [(FSRC.CLASS, 15, 1)])]), serving_of (by decide +kernel), by decide +kernel⟩⟩

theorem wit_RecoveryInjectionWatch :
    (∃ (s : State), (s.serving) ∧ (s.clk.idx = 0) ∧ (s.chip.recoveryDue s.clk = true)) ∧
    (∃ (s : State), (s.serving) ∧ (s.clk.idx = 0) ∧ (s.chip.recoveryDue s.clk = false)) ∧
    (∃ (tgt : Nat) (bits : Nat) (e : Nat) (s : State), (s.serving) ∧ (s.chip.col.inj = some (tgt, bits, e)) ∧ (e < s.clk.edges)) ∧
    (∃ (tgt : Nat) (bits : Nat) (e : Nat) (s : State), (s.serving) ∧ (s.chip.col.inj = some (tgt, bits, e)) ∧ (s.clk.edges ≤ e)) ∧
    (∃ (s : State), (s.serving)) :=
  ⟨⟨(sAt 0 8 [(lvs [(FGRP.AUTOREC, 0, 1), (FGRP.RECLIM, 23, 1), (FGRP.QUIET, 23, 5)]), (sts [(FGRP.QUIETCNT, 23, 5)]), (fun c => c.onCol fun x => { x with flt := [15] })]), serving_of (by decide +kernel), by decide +kernel⟩,
   ⟨(sAt 0 8 []), serving_of (by decide +kernel), by decide +kernel⟩,
   ⟨0, 1, 3, (sAt 4 0 [(fun c => c.onCol fun x => { x with inj := some (0, 1, 3) })]), serving_of (by decide +kernel), by decide +kernel⟩,
   ⟨0, 1, 3, (sAt 3 0 [(fun c => c.onCol fun x => { x with inj := some (0, 1, 3) })]), serving_of (by decide +kernel), by decide +kernel⟩,
   ⟨(sAt 0 0 []), serving_of (by decide +kernel)⟩⟩

theorem wit_TwinLink :
    (∃ (s : State), (s.serving) ∧ (s.chip.twin.role ≠ .solo) ∧ (s.chip.st TWIN.LINKUP 0 = 0)) ∧
    (∃ (s : State), (s.serving) ∧ (s.chip.twin.role ≠ .solo)) ∧
    (∃ (w : Word) (s : State), (s.serving) ∧ (s.chip.twin.role = .shadow) ∧ (s.chip.st TWIN.LINKUP 0 = 1) ∧ (w.toNat / 2 ^ 16 = 0x0101) ∧ (w.toNat % 2 ≠ s.chip.twin.id)) ∧
    (∃ (w : Word) (s : State), (s.serving) ∧ (s.chip.twin.role = .shadow) ∧ (s.chip.st TWIN.LINKUP 0 = 1) ∧ (¬ (w.toNat / 2 ^ 16 = 0x0101 ∧ w.toNat % 2 ≠ s.chip.twin.id)) ∧ (s.chip.st TWIN.COMPATOK 0 = 1)) ∧
    (∃ (s : State), (s.serving) ∧ (s.chip.mirrored = true)) ∧
    (∃ (s : State), (s.chip.twin.role = .solo)) :=
  ⟨⟨(sAt 0 0 [(fun c => c.onTwin fun x => { x with role := .shadow })]), serving_of (by decide +kernel), by decide +kernel⟩,
   ⟨(sAt 0 0 [(fun c => c.onTwin fun x => { x with role := .shadow }), (sts [(TWIN.LINKUP, 0, 1), (TWIN.COMPATOK, 0, 1)])]), serving_of (by decide +kernel), by decide +kernel⟩,
   ⟨0x01010001#32, (sAt 0 0 [(fun c => c.onTwin fun x => { x with role := .shadow }), (sts [(TWIN.LINKUP, 0, 1)])]), serving_of (by decide +kernel), by decide +kernel⟩,
   ⟨0x01010000#32, (sAt 0 0 [(fun c => c.onTwin fun x => { x with role := .shadow }), (sts [(TWIN.LINKUP, 0, 1), (TWIN.COMPATOK, 0, 1)])]), serving_of (by decide +kernel), by decide +kernel⟩,
   ⟨(sAt 0 0 [(fun c => c.onTwin fun x => { x with role := .shadow }), (sts [(TWIN.LINKUP, 0, 1), (TWIN.COMPATOK, 0, 1)])]), serving_of (by decide +kernel), by decide +kernel⟩,
   ⟨(sAt 0 0 []), by decide +kernel⟩⟩

theorem wit_MirrorBanks :
    (∃ (s : State), (s.serving) ∧ (s.clk.idx = 0) ∧ (s.chip.mirrored = true) ∧ (s.chip.twin.heldRuns = []) ∧ (s.chip.twin.brokeRuns = false)) ∧
    (∃ (s : State), (s.serving) ∧ (s.clk.idx = 0) ∧ (s.chip.mirrored = true) ∧ (s.chip.twin.heldRuns ≠ [])) ∧
    (∃ (s : State), (s.serving) ∧ (s.clk.idx = 0) ∧ (s.chip.mirrored = true) ∧ (s.chip.twin.heldRuns = []) ∧ (s.chip.twin.brokeRuns = true)) ∧
    (∃ (s : State), (s.serving) ∧ (s.clk.idx = 0) ∧ (s.chip.mirrored = true) ∧ (s.chip.twin.attach = .copy)) ∧
    (∃ (s : State), (s.chip.mirrored = false)) ∧
    (∃ (s : State), (s.serving) ∧ (s.chip.mirrors = true)) ∧
    (∃ (s : State), (s.serving) ∧ (s.chip.mirrors = false)) :=
  ⟨⟨(sAt 0 1 [(fun c => c.onTwin fun x => { x with role := .shadow }), (sts [(TWIN.LINKUP, 0, 1), (TWIN.COMPATOK, 0, 1)])]), serving_of (by decide +kernel), by decide +kernel⟩,
   ⟨(sAt 0 1 [(fun c => c.onTwin fun x => { x with role := .shadow }), (sts [(TWIN.LINKUP, 0, 1), (TWIN.COMPATOK, 0, 1)]), (fun c => c.onTwin fun x => { x with heldRuns := [([], 3, false)] })]), serving_of (by decide +kernel), by decide +kernel⟩,
   ⟨(sAt 0 1 [(fun c => c.onTwin fun x => { x with role := .shadow }), (sts [(TWIN.LINKUP, 0, 1), (TWIN.COMPATOK, 0, 1)]), (fun c => c.onTwin fun x => { x with brokeRuns := true })]), serving_of (by decide +kernel), by decide +kernel⟩,
   ⟨(sAt 0 1 [(fun c => c.onTwin fun x => { x with role := .shadow }), (sts [(TWIN.LINKUP, 0, 1), (TWIN.COMPATOK, 0, 1)]), (fun c => c.onTwin fun x => { x with attach := .copy })]), serving_of (by decide +kernel), by decide +kernel⟩,
   ⟨(sAt 0 0 []), by decide +kernel⟩,
   ⟨(sAt 0 0 [(fun c => c.onBoot fun x => { x with suShade := false }), (fun c => c.onTwin fun x => { x with role := .lit }), (sts [(TWIN.LINKUP, 0, 1), (TWIN.COMPATOK, 0, 1)])]), serving_of (by decide +kernel), by decide +kernel⟩,
   ⟨(sAt 0 0 []), serving_of (by decide +kernel), by decide +kernel⟩⟩

theorem wit_MirrorDescriptors :
    (∃ (seq : Nat) (tr : Byte) (up : Bool) (len : Nat) (lt : Nat) (i : Nat) (cell : Nat) (st : Word) (crc : Word) (s : State), (s.serving) ∧ (s.chip.mirrored = true) ∧ (s.chip.copyFor { seq := seq % 2 ^ 32, trib := tr.toNat, up, len, crc, comAt := s.chip.lineEvc s.clk lt i, cell, stamp := st } = none)) ∧
    (∃ (s : State), (s.serving) ∧ (s.chip.mirrored = true)) ∧
    (∃ (seq : Nat) (l : Nat) (s : State), (s.serving) ∧ (s.chip.mirrored = true) ∧ (s.chip.twin.lastSeq = some l) ∧ (seqAfter seq l = true)) ∧
    (∃ (seq : Nat) (l : Nat) (s : State), (s.serving) ∧ (s.chip.mirrored = true) ∧ (s.chip.twin.lastSeq = some l) ∧ (seqAfter seq l = false) ∧ (s.chip.twin.gaps = [])) ∧
    (∃ (s : State), (s.chip.mirrored = false)) :=
  ⟨⟨4, 255, true, 60, 0, 5, 9, 1#32, 2#32, (sAt 5 0 [(fun c => c.onTwin fun x => { x with role := .shadow }), (sts [(TWIN.LINKUP, 0, 1), (TWIN.COMPATOK, 0, 1)])]), serving_of (by decide +kernel), by decide +kernel⟩,
   ⟨(sAt 0 0 [(fun c => c.onTwin fun x => { x with role := .shadow }), (sts [(TWIN.LINKUP, 0, 1), (TWIN.COMPATOK, 0, 1)]), (fun c => c.onTwin fun x => { x with adds := [⟨4, 255, true, 60, 2#32, 5, 9, 1#32⟩] })]), serving_of (by decide +kernel), by decide +kernel⟩,
   ⟨4, 3, (sAt 5 0 [(fun c => c.onTwin fun x => { x with role := .shadow }), (sts [(TWIN.LINKUP, 0, 1), (TWIN.COMPATOK, 0, 1)]), (fun c => c.onTwin fun x => { x with lastSeq := some 3 })]), serving_of (by decide +kernel), by decide +kernel⟩,
   ⟨3, 3, (sAt 5 0 [(fun c => c.onTwin fun x => { x with role := .shadow }), (sts [(TWIN.LINKUP, 0, 1), (TWIN.COMPATOK, 0, 1)]), (fun c => c.onTwin fun x => { x with lastSeq := some 3 })]), serving_of (by decide +kernel), by decide +kernel⟩,
   ⟨(sAt 0 0 []), by decide +kernel⟩⟩

theorem wit_Claims :
    (∃ (e : Nat) (s : State), (s.serving) ∧ (s.chip.twin.role = .shadow) ∧ (s.chip.twin.req = some (.tentative e)) ∧ (s.chip.twin.lightDue = false) ∧ (e ≤ s.clk.evc + (124999 - s.clk.idx))) ∧
    (∃ (e : Nat) (s : State), (s.serving) ∧ (s.chip.twin.role = .shadow) ∧ (s.chip.twin.req = some (.tentative e)) ∧ (s.chip.twin.lightDue = false)) ∧
    (∃ (s : State), (s.serving) ∧ (s.chip.twin.role = .lit) ∧ (s.chip.twin.claim = true)) ∧
    (∃ (s : State), (s.serving) ∧ (s.chip.st TWIN.ARMED 0 = 1) ∧ (s.chip.twin.lightDue = false) ∧ (s.chip.port.vioLost = false)) ∧
    (∃ (e : Nat) (s : State), (s.serving) ∧ (s.chip.twin.keepLow = some e) ∧ (e + 3 ≤ s.clk.ticks)) ∧
    (∃ (e : Nat) (s : State), (s.serving) ∧ (s.chip.twin.keepLow = some e) ∧ (s.clk.ticks < e + 3)) ∧
    (∃ (s : State), (s.serving) ∧ (s.chip.st TWIN.ARMED 0 = 0) ∧ (s.chip.armable = true) ∧ (s.chip.compatible = true) ∧ (s.chip.st TWIN.BANKLAG 0 ≤ 4) ∧ (s.chip.twin.digestBad = false) ∧ (s.chip.twin.farTicks.hi < 8)) ∧
    (∃ (s : State), (s.serving) ∧ (s.chip.st TWIN.ARMED 0 = 0) ∧ (s.chip.armable = false)) :=
  ⟨⟨124999, (sAt 0 0 [(fun c => c.onTwin fun x => { x with role := .shadow, req := some (.tentative 124999) })]), serving_of (by decide +kernel), by decide +kernel⟩,
   ⟨124999, (sAt 0 0 [(fun c => c.onTwin fun x => { x with role := .shadow, req := some (.tentative 124999) })]), serving_of (by decide +kernel), by decide +kernel⟩,
   ⟨(sAt 0 0 [(fun c => c.onTwin fun x => { x with role := .lit, claim := true })]), serving_of (by decide +kernel), by decide +kernel⟩,
   ⟨(sAt 0 0 [(fun c => c.onTwin fun x => { x with role := .shadow }), (sts [(TWIN.LINKUP, 0, 1), (TWIN.COMPATOK, 0, 1)]), (sts [(TWIN.ARMED, 0, 1)])]), serving_of (by decide +kernel), by decide +kernel⟩,
   ⟨5, (sAt 0 8 [(fun c => c.onTwin fun x => { x with keepLow := some 5 })]), serving_of (by decide +kernel), by decide +kernel⟩,
   ⟨5, (sAt 0 7 [(fun c => c.onTwin fun x => { x with keepLow := some 5 })]), serving_of (by decide +kernel), by decide +kernel⟩,
   ⟨(sAt 0 0 [(fun c => c.onTwin fun x => { x with role := .shadow }), (sts [(TWIN.LINKUP, 0, 1), (TWIN.COMPATOK, 0, 1)]), (sts [(TWIN.PEERROLE, 0, 1), (TWIN.PEERCOMPAT, 0, 0x01010001), (TWIN.BANKLAG, 0, 4)]), (fun c => c.onTwin fun x => { x with fullCopy := true, attach := .done, heard := true, farTicks := ⟨7, 0⟩ })]), serving_of (by decide +kernel), by decide +kernel⟩,
   ⟨(sAt 0 0 []), serving_of (by decide +kernel), by decide +kernel⟩⟩

theorem wit_RoleChanges :
    (∃ (s : State), (s.serving) ∧ (s.clk.idx = 0) ∧ (s.chip.twin.role = .shadow) ∧ (s.chip.twin.handLight = none) ∧ (s.chip.twin.lightDue = true) ∧ (s.chip.col.shade = true)) ∧
    (∃ (s : State), (s.serving) ∧ (s.clk.idx = 0) ∧ (s.chip.twin.role = .shadow) ∧ (s.chip.twin.handLight = none) ∧ (s.chip.twin.lightDue = true) ∧ (s.chip.col.shade = false)) ∧
    (∃ (s : State), (s.serving) ∧ (s.clk.idx = 0) ∧ (s.chip.twin.role = .shadow) ∧ (s.chip.twin.handLight = none) ∧ (s.chip.twin.lightDue = false)) ∧
    (∃ (s : State), (s.serving) ∧ (s.clk.idx = 0) ∧ (s.chip.twin.role = .lit) ∧ (s.chip.twin.keepLow ≠ none)) ∧
    (∃ (s : State), (s.serving) ∧ (s.clk.idx = 0) ∧ (s.chip.twin.role = .lit) ∧ (s.chip.twin.keepLow = none)) ∧
    (∃ (s : State) (e : _) (l : _), (s.serving) ∧ (s.clk.idx = 0) ∧ (s.chip.twin.role = .lit) ∧ (s.chip.twin.req = some (.handover e l)) ∧ (s.clk.superframe = true) ∧ (e + 2 * 125000 ≤ s.clk.pos) ∧ (s.chip.st TWIN.BANKLAG 0 = 0)) ∧
    (∃ (s : State) (e : _) (l : _), (s.serving) ∧ (s.clk.idx = 0) ∧ (s.chip.twin.role = .lit) ∧ (s.chip.twin.req = some (.handover e l)) ∧ (s.clk.superframe = false ∨ s.clk.pos < e + 2 * 125000 ∨ s.chip.st TWIN.BANKLAG 0 ≠ 0)) ∧
    (∃ (e : Nat) (s : State), (s.serving) ∧ (s.clk.idx = 0) ∧ (s.chip.twin.role = .shadow) ∧ (s.chip.twin.req = some (.handover e (some (s.chip.lineTick s.clk))))) :=
  ⟨⟨(sAt 0 8 [(fun c => c.onTwin fun x => { x with role := .shadow, lightDue := true }), (fun c => c.onCol fun x => { x with shade := true })]), serving_of (by decide +kernel), by decide +kernel⟩,
   ⟨(sAt 0 8 [(fun c => c.onTwin fun x => { x with role := .shadow, lightDue := true })]), serving_of (by decide +kernel), by decide +kernel⟩,
   ⟨(sAt 0 8 [(fun c => c.onTwin fun x => { x with role := .shadow })]), serving_of (by decide +kernel), by decide +kernel⟩,
   ⟨(sAt 0 8 [(fun c => c.onTwin fun x => { x with role := .lit, keepLow := some 8 })]), serving_of (by decide +kernel), by decide +kernel⟩,
   ⟨(sAt 0 8 [(fun c => c.onTwin fun x => { x with role := .lit })]), serving_of (by decide +kernel), by decide +kernel⟩,
   ⟨(sAt 0 8 [(fun c => c.onTwin fun x => { x with role := .lit, req := some (.handover (6 * 125000) (some 8)) })]), (6 * 125000), (some 8), serving_of (by decide +kernel), by decide +kernel⟩,
   ⟨(sAt 0 8 [(fun c => c.onTwin fun x => { x with role := .lit, req := some (.handover (6 * 125000 + 1) none) })]), (6 * 125000 + 1), none, serving_of (by decide +kernel), by decide +kernel⟩,
   ⟨0, (sAt 0 8 [(fun c => c.onTwin fun x => { x with role := .shadow, req := some (.handover 0 (some 8)) })]), serving_of (by decide +kernel), by decide +kernel⟩⟩

theorem wit_HandoverRequests :
    (∃ (s : State), (s.serving) ∧ (s.chip.twin.role = .lit) ∧ (s.chip.st TWIN.LINKUP 0 = 1) ∧ (s.chip.twin.peerArmed = true) ∧ (s.chip.twin.req = none)) ∧
    (∃ (s : State), (s.serving) ∧ (s.chip.twin.role ≠ .lit ∨ s.chip.st TWIN.LINKUP 0 ≠ 1 ∨ s.chip.twin.peerArmed = false ∨ s.chip.twin.req ≠ none)) ∧
    (∃ (s : State), (s.serving) ∧ (s.chip.mirrored = true)) ∧
    (∃ (s : State), (s.serving) ∧ (s.chip.mirrored = false)) ∧
    (∃ (e : Nat) (l : Option Nat) (s : State), (s.serving) ∧ (s.chip.twin.req = some (.handover e l)) ∧ (s.chip.twin.handLight = none) ∧ (e + 64 * 125000 ≤ s.clk.pos)) ∧
    (∃ (e : Nat) (l : Option Nat) (s : State), (s.serving) ∧ (s.chip.twin.req = some (.handover e l)) ∧ (s.chip.twin.handLight = none) ∧ (s.clk.pos < e + 64 * 125000)) :=
  ⟨⟨(sAt 0 0 [(fun c => c.onTwin fun x => { x with role := .lit, peerArmed := true }), (sts [(TWIN.LINKUP, 0, 1)])]), serving_of (by decide +kernel), by decide +kernel⟩,
   ⟨(sAt 0 0 [(fun c => c.onTwin fun x => { x with role := .lit, peerArmed := true })]), serving_of (by decide +kernel), by decide +kernel⟩,
   ⟨(sAt 0 0 [(fun c => c.onTwin fun x => { x with role := .shadow }), (sts [(TWIN.LINKUP, 0, 1), (TWIN.COMPATOK, 0, 1)])]), serving_of (by decide +kernel), by decide +kernel⟩,
   ⟨(sAt 0 0 []), serving_of (by decide +kernel), by decide +kernel⟩,
   ⟨5, none, (sAt 5 64 [(fun c => c.onTwin fun x => { x with req := some (.handover 5 none) })]), serving_of (by decide +kernel), by decide +kernel⟩,
   ⟨5, none, (sAt 4 64 [(fun c => c.onTwin fun x => { x with req := some (.handover 5 none) })]), serving_of (by decide +kernel), by decide +kernel⟩⟩

theorem wit_PowerBlocks :
    (∃ (s : State), (s.serving) ∧ (s.clk.idx ≤ 62999) ∧ (s.chip.done.contains 8 = false)) ∧
    (∃ (s : State), (s.serving) ∧ (s.clk.idx ≤ 64900)) ∧
    (∃ (s : State), (s.serving) ∧ (s.clk.idx ≤ 122990)) ∧
    (∃ (b : Nat) (s : State), (s.serving) ∧ (s.chip.blk b ≠ .night) ∧ (s.chip.blk b ≠ .lit) ∧ (s.chip.pow.wake.any (fun w => w.1 == b) = false)) ∧
    (∃ (b : Nat) (s : State), (s.serving) ∧ (s.chip.blk b = .night ∨ s.chip.blk b = .lit)) ∧
    (∃ (b : Nat) (st : Fin 4) (x : PwrState) (s : State), (s.serving) ∧ ((st = 1 ∧ x = .dim ∨ st = 2 ∧ x = .dusk ∨ st = 3 ∧ x = .dark)) ∧ (s.chip.blk b = .lit) ∧ (b < 226) ∧ (s.chip.mayRest s.clk b x = true) ∧ ((s.chip.enabled b = false ∨ (s.chip.on POWER.DEEPDIS 0 = false ∧ s.chip.pow.heldLit = false))) ∧ ((x = .dark → s.clk.idx < 122990))) ∧
    (∃ (b : Nat) (st : Fin 4) (x : PwrState) (s : State), (s.serving) ∧ ((st = 1 ∧ x = .dim ∨ st = 2 ∧ x = .dusk ∨ st = 3 ∧ x = .dark)) ∧ (s.chip.blk b ≠ .lit ∨ s.chip.mayRest s.clk b x = false ∨ (s.chip.enabled b = true ∧ s.chip.on POWER.DEEPDIS 0 = true))) :=
  ⟨⟨(sAt 62999 0 []), serving_of (by decide +kernel), by decide +kernel⟩,
   ⟨(sAt 64900 0 []), serving_of (by decide +kernel), by decide +kernel⟩,
   ⟨(sAt 122990 0 []), serving_of (by decide +kernel), by decide +kernel⟩,
   ⟨225, (sAt 0 0 []), serving_of (by decide +kernel), by decide +kernel⟩,
   ⟨0, (sAt 0 0 []), serving_of (by decide +kernel), by decide +kernel⟩,
   ⟨224, 1, .dim, (sAt 0 0 [(fun c => c.onPow fun x => { x with block := vupd x.block 224 fun _ => .lit })]), serving_of (by decide +kernel), by decide +kernel⟩,
   ⟨224, 1, .dim, (sAt 0 0 []), serving_of (by decide +kernel), by decide +kernel⟩⟩

end Sys2Proof.Tests
end

section
/-! PROOFS. Beats at the window indices 0xC to 0xF: the frame that opens, the error that the index brings, and the part's reply
(R15, R50, R56, R65). -/

namespace Sys2Proof.Machine

/-- Bit 4 of the tag byte is IDXERR (R43). -/
theorem getLsbD_mkTag_idxErr (eop : Bool) (vcnt : Nat) (idxErr prevErr hErr qErr : Bool) :
    (mkTag eop vcnt idxErr prevErr hErr qErr).getLsbD 4 = idxErr := by
  have low : ∀ x : Bool, bit x ≤ 1 := fun x => by cases x <;> decide
  have hp := low prevErr
  have hh := low hErr
  have hq := low qErr
  simp only [mkTag, byte, BitVec.getLsbD_ofNat, Nat.testBit_eq_decide_div_mod_eq, Nat.reduceLT, decide_true, Bool.true_and]
  cases idxErr with
  | false => simp only [show bit false = 0 from rfl, decide_eq_false_iff_not]; omega
  | true => simp only [show bit true = 1 from rfl, decide_eq_true_eq]; omega

/-! ### The rule of the shared command form -/

/-- On a serving part nothing of a boundary comes before the beat: a beat command of its kind is the port's own work alone. -/
theorem State.serving.beat_eq {s : State} (hs : s.serving) (b : Beat) {kind : Chip → Bool} (hk : kind s.chip = true) :
    s.beat b kind = { s with chip := s.chip.beat s.clk b } := by
  obtain ⟨hrun, -, -, hdone⟩ := hs
  simp only [State.beat, hk, if_true, hdone, State.act, hrun]

/-- A chip whose port alone differs gives a state whose port alone differs. -/
theorem State.onlyPort_of_rest {s : State} {c : Chip} (h : ∃ p, c = { s.chip with port := p }) : s.OnlyPort { s with chip := c } := by
  obtain ⟨p, rfl⟩ := h
  rfl

namespace Chip

/-! ### A beat opens -/

/-- A beat that begins writes as its frame's command byte says (R41). -/
theorem writes_eq_cmdOf {c : Chip} {b : Beat} (hp : b.part ≠ .ends) : c.writes b = beatWr (c.cmdOf b) := by
  simp [writes, cmdOf, hp]

/-- On `o` beat `b` has opened: the port stands at its command and index, and nothing changes but the port (R41, R65). -/
structure Opened (c : Chip) (b : Beat) (o : Chip) : Prop where
  rest : ∃ p, o = { c with port := p }
  cmd : o.port.cmd = c.cmdOf b
  idx : o.port.idx = c.reach b
  twoWire : o.port.twoWire = c.port.twoWire
  frames : o.port.frames = c.port.frames
  idxErrs : o.port.idxErrs = c.port.idxErrs
  idxCounted : o.port.idxCounted = (!b.first && c.port.idxCounted)

/-- The first beat of a frame opens at the index that the command byte names. -/
theorem opened_beginFrame {c : Chip} {b : Beat} (hp : b.part ≠ .ends) (hf : b.first = true) : Opened c b (c.beginFrame b.cmd) := by
  unfold beginFrame
  split
  · exact ⟨⟨_, rfl⟩, by simp [cmdOf, hf], by simp [reach, hp, hf], rfl, rfl, rfl, by simp [hf]⟩
  · exact ⟨⟨_, rfl⟩, by simp [cmdOf, hf], by simp [reach, hp, hf], rfl, rfl, rfl, by simp [hf]⟩

/-- A later beat of a frame opens at the index that it steps to. -/
theorem opened_step {c : Chip} {b : Beat} (hp : b.part ≠ .ends) (hf : b.first = false) :
    Opened c b (c.onPort fun p => { p with idx := nextIdx p.cmd p.idx }) :=
  ⟨⟨_, rfl⟩, by simp [cmdOf, hf], by simp [reach, hp, hf], rfl, rfl, rfl, by simp [hf]⟩

/-- A beat that the port takes opens. -/
theorem openBeat_of_opens {c : Chip} {b : Beat} (hp : b.part ≠ .ends) (ho : c.opens b) :
    ∃ o, c.openBeat b = some o ∧ Opened c b o := by
  cases hf : b.first with
  | true => exact ⟨_, by simp_all [openBeat, opens], opened_beginFrame hp hf⟩
  | false => exact ⟨_, by simp_all [openBeat, opens], opened_step hp hf⟩

/-! ### The index error -/

/-- From `z` to `c` the beat has failed by its index: the frame's one count of it stands in IDXERRS, its error is kept for the next
frame's PREVERR, no beat took effect, the reply stays, and nothing changes but the port (R55, R56, R65). -/
structure IdxFailed (z c : Chip) : Prop where
  rest : ∃ p, c = { z with port := p }
  curErr : c.port.curErr = true
  idxErrs : c.port.idxErrs = if z.port.idxCounted = true then z.port.idxErrs else satAdd 16 z.port.idxErrs 1
  frames : c.port.frames = z.port.frames
  reply : c.port.reply = z.port.reply

namespace IdxFailed

variable {z c : Chip}

theorem idxError (z : Chip) : IdxFailed z z.idxError := ⟨⟨_, rfl⟩, rfl, rfl, rfl, rfl⟩

theorem crcError (h : IdxFailed z c) : IdxFailed z c.crcError := by
  obtain ⟨⟨p, rfl⟩, -, hidx, hfr, hre⟩ := h
  exact ⟨⟨_, rfl⟩, rfl, hidx, hfr, hre⟩

theorem abortBeat (h : IdxFailed z c) : IdxFailed z c.abortBeat := by
  obtain ⟨⟨p, rfl⟩, -, hidx, hfr, hre⟩ := h
  exact ⟨⟨_, rfl⟩, rfl, hidx, hfr, hre⟩

theorem endFrame (h : IdxFailed z c) : IdxFailed z c.endFrame := by
  obtain ⟨⟨p, rfl⟩, herr, hidx, hfr, hre⟩ := h
  exact ⟨⟨_, rfl⟩, herr, hidx, hfr, hre⟩

/-- A read that the host does not complete, on top of the index error. -/
theorem readFails (h : IdxFailed z c) : IdxFailed z c.readFails := by
  unfold Chip.readFails
  split
  · exact h.abortBeat.endFrame
  · exact h.crcError

/-- A read beat that has been given nothing but the index error fails by its index, whether or not the host completes it. -/
theorem readDone (hg : z.port.given = .bad) (k : Clock) (b : Beat) : IdxFailed z (z.readDone k b) := by
  simp only [Chip.readDone, hg]
  split
  · exact idxError z
  · exact (idxError z).readFails

theorem closeBeat (h : IdxFailed z c) (b : Beat) : IdxFailed z (c.closeBeat b) := by
  unfold Chip.closeBeat
  split
  · exact h.endFrame
  · exact h

end IdxFailed

/-! ### What an open beat at such an index does -/

variable {o : Chip} (k : Clock) (b : Beat)

/-- A read beat at an index from 0xC to 0xF returns 0, and fails by its index whether or not the host completes it. -/
theorem runBeat_read_idxFailed (hw : b.part = .whole) (hr : beatWr o.port.cmd = false) (hi : 12 ≤ o.port.idx) :
    IdxFailed (o.replyRead 0#32 false 0 false false .bad) (o.runBeat k b) := by
  have hrun : o.runBeat k b = ((o.replyRead 0#32 false 0 false false .bad).readDone k b).closeBeat b := by
    simp [runBeat, hr, hw, readSend, hi]
  exact hrun ▸ (IdxFailed.readDone rfl k b).closeBeat b

/-- A 4-wire write beat at such an index is answered, and fails by its index whether or not its CRC is good. -/
theorem runBeat_write_idxFailed (hw : b.part = .whole) (hwr : beatWr o.port.cmd = true) (hi : 12 ≤ o.port.idx) :
    IdxFailed (o.replyWrite true) (o.runBeat k b) := by
  have hrun : o.runBeat k b = (o.writeBeat k b).closeBeat b := by simp [runBeat, hwr, hw]
  have hdone : IdxFailed (o.replyWrite true) (o.writeBeat k b) := by
    simp only [writeBeat, hi, if_true]
    split
    · exact .idxError _
    · exact (IdxFailed.idxError _).crcError
  exact hrun ▸ hdone.closeBeat b

/-- A 2-wire write to such an index fails by its index, without the acknowledge. -/
theorem refuseWrite_idxFailed (o : Chip) (first : Bool) : IdxFailed (o.replyWrite false) (o.refuseWrite first) := by
  unfold refuseWrite
  split
  · exact (IdxFailed.idxError _).endFrame
  · exact (IdxFailed.idxError _).abortBeat.endFrame

/-- The frame of a refused 2-wire write ends. -/
theorem refuseWrite_inFrame (o : Chip) (first : Bool) : (o.refuseWrite first).port.inFrame = false := rfl

/-- A read reply carries the beat's data. -/
theorem replyRead_data (o : Chip) (data : Word) (eop : Bool) (vcnt : Nat) (hErr qErr : Bool) (g : Given) :
    (o.replyRead data eop vcnt hErr qErr g).port.reply.data = data := rfl

/-- A read beat that begins to return its data sets the reply and what it has given, and nothing else. -/
theorem replyRead_eq_withReply (o : Chip) (data : Word) (eop : Bool) (vcnt : Nat) (hErr qErr : Bool) (g : Given) :
    ∃ g' y, o.replyRead data eop vcnt hErr qErr g = { o with port := { o.port with given := g', reply := y } } := ⟨_, _, rfl⟩

/-- A write reply sets the reply, and nothing else. -/
theorem replyWrite_eq_withReply (o : Chip) (ack : Bool) :
    ∃ g y, o.replyWrite ack = { o with port := { o.port with given := g, reply := y } } := ⟨_, _, rfl⟩

/-- The tag byte of a read reply tells of the index. -/
theorem replyRead_tag_idxErr (hi : 12 ≤ o.port.idx) (data : Word) (eop : Bool) (vcnt : Nat) (hErr qErr : Bool) (g : Given) :
    (o.replyRead data eop vcnt hErr qErr g).port.reply.tag.getLsbD 4 = true := by
  simp only [replyRead, onPort_port, getLsbD_mkTag_idxErr, hi, decide_true]

/-- The tag byte of a 4-wire write reply tells of the index. -/
theorem replyWrite_tag_idxErr (h4 : o.port.twoWire = false) (hi : 12 ≤ o.port.idx) (ack : Bool) :
    (o.replyWrite ack).port.reply.tag.getLsbD 4 = true := by
  simp [replyWrite, h4, getLsbD_mkTag_idxErr, hi]

/-- A 2-wire write reply is the acknowledge alone. -/
theorem replyWrite_ack_twoWire (h2 : o.port.twoWire = true) (ack : Bool) : (o.replyWrite ack).port.reply.ack = ack := by
  simp [replyWrite, h2]

/-! ### The whole beat -/

/-- From `c` to `t` a beat at an index from 0xC to 0xF has come and gone, whatever its reply. -/
structure IndexRefused (c : Chip) (b : Beat) (t : Chip) : Prop where
  rest : ∃ p, t = { c with port := p }
  curErr : t.port.curErr = true
  idxErrs : t.port.idxErrs = if b.first = false ∧ c.port.idxCounted = true then c.port.idxErrs else satAdd 16 c.port.idxErrs 1
  frames : t.port.frames = c.port.frames

/-- A beat that opens, is answered and then fails by its index has been refused. -/
theorem Opened.indexRefused {c o r t : Chip} {b : Beat} (h : Opened c b o) (hf : IdxFailed r t)
    (hr : ∃ g y, r = { o with port := { o.port with given := g, reply := y } }) : IndexRefused c b t := by
  obtain ⟨g, y, rfl⟩ := hr
  refine ⟨?_, hf.curErr, hf.idxErrs.trans ?_, hf.frames.trans h.frames⟩
  · obtain ⟨p, rfl⟩ := h.rest
    obtain ⟨q, rfl⟩ := hf.rest
    exact ⟨q, rfl⟩
  · simp only [h.idxErrs, h.idxCounted, Bool.and_eq_true, Bool.not_eq_true']

/-- Past index 0xB no beat waits: a 2-wire write is refused, and any other beat runs. -/
theorem beat_of_opened {c o : Chip} (k : Clock) {b : Beat} (hp : b.part ≠ .ends) (hopen : c.openBeat b = some o) (hi : 12 ≤ o.port.idx) :
    c.beat k b = if (o.port.twoWire && beatWr o.port.cmd) = true then o.refuseWrite b.first else o.runBeat k b := by
  have hwait : o.beatWaits k = false := by simp [beatWaits, show o.port.idx ≠ 11 by omega]
  simp [beat, hp, hopen, hi, hwait]

section
variable {c : Chip} {b : Beat} (k : Clock) (htake : c.takes b) (hi : 12 ≤ c.reach b)
include htake hi

/-- A taken read beat at such an index is refused, and its reply is 0 with IDXERR. -/
theorem beat_idxRead (hwr : c.writes b = false) :
    IndexRefused c b (c.beat k b) ∧
      (c.beat k b).port.reply.data = 0#32 ∧ (c.beat k b).port.reply.tag.getLsbD 4 = true := by
  obtain ⟨hw, ho⟩ := htake
  have hp : b.part ≠ .ends := by simp [hw]
  obtain ⟨o, hopen, hop⟩ := openBeat_of_opens hp ho
  rw [← hop.idx] at hi
  have hcmd : beatWr o.port.cmd = false := by rw [hop.cmd, ← writes_eq_cmdOf hp, hwr]
  have hf := runBeat_read_idxFailed k b hw hcmd hi
  rw [beat_of_opened k hp hopen hi, hcmd, Bool.and_false, if_neg Bool.false_ne_true, hf.reply]
  exact ⟨hop.indexRefused hf (replyRead_eq_withReply ..), replyRead_data .., replyRead_tag_idxErr hi ..⟩

/-- A taken 4-wire write beat at such an index is refused, and its reply carries IDXERR. -/
theorem beat_idxWrite_fourWire (hwr : c.writes b = true) (h4 : c.port.twoWire = false) :
    IndexRefused c b (c.beat k b) ∧ (c.beat k b).port.reply.tag.getLsbD 4 = true := by
  obtain ⟨hw, ho⟩ := htake
  have hp : b.part ≠ .ends := by simp [hw]
  obtain ⟨o, hopen, hop⟩ := openBeat_of_opens hp ho
  rw [← hop.idx] at hi
  have hcmd : beatWr o.port.cmd = true := by rw [hop.cmd, ← writes_eq_cmdOf hp, hwr]
  rw [← hop.twoWire] at h4
  have hf := runBeat_write_idxFailed k b hw hcmd hi
  rw [beat_of_opened k hp hopen hi, h4, Bool.false_and, if_neg Bool.false_ne_true, hf.reply]
  exact ⟨hop.indexRefused hf (replyWrite_eq_withReply ..), replyWrite_tag_idxErr h4 hi true⟩

/-- A taken 2-wire write beat at such an index is refused: it is not acknowledged, and the frame ends. -/
theorem beat_idxWrite_twoWire (hwr : c.writes b = true) (h2 : c.port.twoWire = true) :
    IndexRefused c b (c.beat k b) ∧ (c.beat k b).port.reply.ack = false ∧ (c.beat k b).port.inFrame = false := by
  obtain ⟨hw, ho⟩ := htake
  have hp : b.part ≠ .ends := by simp [hw]
  obtain ⟨o, hopen, hop⟩ := openBeat_of_opens hp ho
  rw [← hop.idx] at hi
  have hcmd : beatWr o.port.cmd = true := by rw [hop.cmd, ← writes_eq_cmdOf hp, hwr]
  rw [← hop.twoWire] at h2
  have hf := refuseWrite_idxFailed o b.first
  rw [beat_of_opened k hp hopen hi, h2, hcmd, Bool.and_true, if_pos rfl, hf.reply]
  exact ⟨hop.indexRefused hf (replyWrite_eq_withReply ..), replyWrite_ack_twoWire h2 false, refuseWrite_inFrame o b.first⟩

/-- Every taken beat at such an index is refused. -/
theorem beat_indexRefused : IndexRefused c b (c.beat k b) := by
  cases hwr : c.writes b with
  | false => exact (beat_idxRead k htake hi hwr).1
  | true =>
    cases h2 : c.port.twoWire with
    | false => exact (beat_idxWrite_fourWire k htake hi hwr h2).1
    | true => exact (beat_idxWrite_twoWire k htake hi hwr h2).1

end

end Chip

/-- Settles O21: the command is the port's beat alone, which its index refuses; the reply follows from the kind of the beat. -/
theorem invalidIndex : Obligations.InvalidIndex := by
  unfold Obligations.InvalidIndex
  intro b s hs htake hi
  have hexec : exec (.invalidIndexAccess b) s = .next { s with chip := s.chip.beat s.clk b } :=
    congrArg Host.Outcome.next (hs.beat_eq b (by simpa using hi))
  obtain ⟨hrest, herr, hidx, hframes⟩ := Chip.beat_indexRefused s.clk htake hi
  exact ⟨_, hexec, State.onlyPort_of_rest hrest, herr, hidx, hframes,
    fun hwr => (Chip.beat_idxRead s.clk htake hi hwr).2,
    fun hwr h4 => (Chip.beat_idxWrite_fourWire s.clk htake hi hwr h4).2,
    fun hwr h2 => (Chip.beat_idxWrite_twoWire s.clk htake hi hwr h2).2⟩

end Sys2Proof.Machine
end

section
/-! PROOFS. TICK_BOUNDARY: the last edge of the tick that it closes, and what the boundary edge makes of it (R20 to R23, R295). -/

namespace Sys2Proof.Machine

/-! ### The clock at a boundary edge -/

namespace Clock

/-- The tick number's 32 bits keep its place in the superframe. -/
theorem tick_mod_eight (k : Clock) : k.tick % 8 = k.ticks % 8 := Nat.mod_mod_of_dvd k.ticks (by decide)

@[simp] theorem nextTick_tick (k : Clock) : k.nextTick.tick = (k.tick + 1) % 2 ^ 32 :=
  (Nat.mod_add_mod k.ticks (2 ^ 32) 1).symm

/-- The tick in second counts from 0 to 7,999. -/
theorem nextTick_tickSec (k : Clock) (h : k.onGrid) (hi : k.idx = 124999) : k.nextTick.tickSec = (k.tickSec + 1) % 8000 := by
  obtain ⟨hns, -, -⟩ := h
  have hns' : k.ns < 1000000000 := hns
  have hidx : k.ns % 125000 = 124999 := hi
  show k.nextTick.ns / 125000 = (k.ns / 125000 + 1) % 8000
  rcases nextTick_ns k with ⟨hlt, hnext, -⟩ | ⟨hle, hnext, -⟩
  · omega
  · omega

/-- On a boundary edge the tick number alone says whether a superframe begins. -/
theorem superframe_iff_tick (k : Clock) (hi : k.idx = 0) : k.superframe = true ↔ k.tick % 8 = 0 := by
  simp [superframe, hi, tick_mod_eight]

/-- On the grid every second begins in the first tick of a superframe. -/
theorem onGrid.tick_of_tickSec_zero {k : Clock} (h : k.onGrid) (h0 : k.tickSec = 0) : k.tick % 8 = 0 := by
  obtain ⟨-, -, hgrid⟩ := h
  rw [tick_mod_eight, hgrid, h0]

end Clock

/-! ### The last edge of a tick -/

namespace State

/-- On its way off an edge the part changes nothing of its clock but local time, where a step is due. -/
theorem depart_clk_cases (s : State) : s.depart.clk = s.clk ∨ ∃ m, s.depart.clk = s.clk.stepMs m := by
  rw [depart_clk]
  split
  · exact (boundaryDone_clk s).imp_right fun ⟨_, hstep⟩ => hstep
  · exact .inl rfl

@[simp] theorem depart_up (s : State) : s.depart.clk.up = s.clk.up := by
  rcases depart_clk_cases s with e | ⟨m, e⟩
  · rw [e]
  · rw [e]; rfl
@[simp] theorem depart_dn (s : State) : s.depart.clk.dn = s.clk.dn := by
  rcases depart_clk_cases s with e | ⟨m, e⟩
  · rw [e]
  · rw [e]; rfl

/-- Where nothing of a boundary is to do on the present edge, the part leaves it with its clock as it is. -/
theorem depart_clk_of_done (s : State) (h : s.boundaryDone = s) : s.depart.clk = s.clk := by
  rw [depart_clk, h, ite_self]

/-- The edges up to a cycle index of the tick are none, or ordinary ones once the part has left the present edge. -/
theorem toIdx_clk_cases (s : State) (i : Nat) :
    i ≤ s.clk.idx ∧ (s.toIdx i).clk = s.clk ∨ (s.toIdx i).clk = s.depart.clk.elapse (i - s.clk.idx) := by
  by_cases h : i ≤ s.clk.idx
  · exact .inl ⟨h, by rw [toIdx_self s i h]⟩
  · exact .inr (elapse_clk s _ (by omega))

@[simp] theorem toIdx_up (s : State) (i : Nat) : (s.toIdx i).clk.up = s.clk.up := by
  rcases toIdx_clk_cases s i with ⟨-, e⟩ | e
  · rw [e]
  · rw [e]; exact depart_up s
@[simp] theorem toIdx_dn (s : State) (i : Nat) : (s.toIdx i).clk.dn = s.clk.dn := by
  rcases toIdx_clk_cases s i with ⟨-, e⟩ | e
  · rw [e]
  · rw [e]; exact depart_dn s

/-- EVC counts the edges passed. -/
theorem toIdx_evc (s : State) (i : Nat) (h : i ≤ 124999) : (s.toIdx i).clk.evc = s.clk.evc + (i - s.clk.idx) := by
  rcases toIdx_clk_cases s i with ⟨hi, e⟩ | e
  · rw [e]; omega
  · rw [e, Clock.elapse_evc, depart_evc, depart_idx]; omega

/-- Where nothing of a boundary is to do, the tick in second stays up to the end of the tick. -/
theorem toIdx_tickSec_of_done (s : State) (i : Nat) (h : s.boundaryDone = s) : (s.toIdx i).clk.tickSec = s.clk.tickSec := by
  rcases toIdx_clk_cases s i with ⟨-, e⟩ | e
  · rw [e]
  · rw [e, Clock.elapse_tickSec, depart_clk_of_done s h]

/-- The part as it leaves the last edge of its tick: the edge that a boundary follows (R21). -/
def lastEdge (s : State) : State := (s.toIdx Config.lastIdx).depart

@[simp] theorem lastEdge_pending (s : State) : s.lastEdge.pending = s.pending := by simp [lastEdge]
@[simp] theorem lastEdge_ticks (s : State) : s.lastEdge.clk.ticks = s.clk.ticks := by simp [lastEdge]
@[simp] theorem lastEdge_tick (s : State) : s.lastEdge.clk.tick = s.clk.tick := congrArg (· % 2 ^ 32) s.lastEdge_ticks
@[simp] theorem lastEdge_up (s : State) : s.lastEdge.clk.up = s.clk.up := by simp [lastEdge]
@[simp] theorem lastEdge_dn (s : State) : s.lastEdge.clk.dn = s.clk.dn := by simp [lastEdge]

theorem toIdx_lastIdx_idx (s : State) : (s.toIdx Config.lastIdx).clk.idx = 124999 :=
  (toIdx_idx s _ le_rfl).trans (max_eq_right s.clk.idx_le)
@[simp] theorem lastEdge_idx (s : State) : s.lastEdge.clk.idx = 124999 := (depart_idx _).trans (toIdx_lastIdx_idx s)
theorem lastEdge_evc (s : State) : s.lastEdge.clk.evc = s.clk.evc + (124999 - s.clk.idx) :=
  (depart_evc _).trans (toIdx_evc s _ le_rfl)
theorem onGrid_lastEdge (s : State) (h : s.clk.onGrid) : s.lastEdge.clk.onGrid := onGrid_depart _ (onGrid_toIdx s _ h)

/-- Only a boundary's own work moves the tick in second before the tick's last edge, and the last edge is no boundary. -/
theorem lastEdge_tickSec_of_done (s : State) (h : s.boundaryDone = s) : s.lastEdge.clk.tickSec = s.clk.tickSec := by
  have hlast : (s.toIdx Config.lastIdx).clk.idx ≠ 0 := by rw [toIdx_lastIdx_idx]; decide
  rw [lastEdge, depart_clk_of_done _ (boundaryDone_of_idx _ hlast), toIdx_tickSec_of_done s _ h]

/-! ### The boundary -/

theorem nextBoundary_clk (s : State) (energy bits : Nat) (h : s.chip.running = true) :
    (s.nextBoundary energy bits).clk = s.lastEdge.clk.nextTick := by
  unfold nextBoundary
  rw [if_pos h]
  rfl
@[simp] theorem nextBoundary_pending (s : State) (energy bits : Nat) : (s.nextBoundary energy bits).pending = s.pending := by
  unfold nextBoundary
  split
  · exact lastEdge_pending s
  · rfl

end State

/-- Settles O10: the boundary's clock is the ordinary edge after the last edge of the tick, whose tick in second is that of the present
edge where no step is still to do. That the edges up to it pass at once is the model's choice (log 2), and so is the place of the
verdict on it (log 19). -/
theorem tickBoundaryCounts : Obligations.TickBoundaryCounts := by
  unfold Obligations.TickBoundaryCounts
  intro energy bits s hrun hgrid
  have hlast : s.lastEdge.clk.idx = 124999 := s.lastEdge_idx
  have hlastGrid : s.lastEdge.clk.onGrid := s.onGrid_lastEdge hgrid
  have hidx : s.lastEdge.clk.nextTick.idx = 0 := Clock.nextTick_idx _ hlastGrid hlast
  have hevc : s.lastEdge.clk.evc + 1 = s.clk.evc + (125000 - s.clk.idx) := by
    have hlt := s.clk.idx_lt
    rw [s.lastEdge_evc]
    omega
  refine ⟨s.nextBoundary energy bits, rfl, s.nextBoundary_pending energy bits, ?_⟩
  rw [s.nextBoundary_clk energy bits hrun]
  exact ⟨hidx, by rw [Clock.nextTick_tick, s.lastEdge_tick],
    fun ⟨_, hdone⟩ => by rw [Clock.nextTick_tickSec _ hlastGrid hlast, s.lastEdge_tickSec_of_done hdone],
    rfl, Clock.superframe_iff_tick _ hidx, (Clock.onGrid_nextTick _ hlastGrid hlast).tick_of_tickSec_zero,
    hevc, s.lastEdge_up, s.lastEdge_dn, rfl, rfl⟩

end Sys2Proof.Machine
end

section
/-! PROOFS. CAPTURE_EVENT: the status words of a capture unit as the fields of one row, the event that its sources make, and the record of
it in TQU (R301, R302, R315). -/

namespace Sys2Proof.Machine

/-! ### Fields of one row -/

namespace Fld

variable {f g : Fld} {r q : Nat}

/-- The field lies in a word of a row. -/
def fits (f : Fld) : Bool := decide (f.lo + f.width ≤ 32) && decide (f.wrd < 4096)
/-- The fields share no bit of a row. -/
def apart (f g : Fld) : Bool := f.wrd != g.wrd || decide (f.lo + f.width ≤ g.lo) || decide (g.lo + g.width ≤ f.lo)

theorem fits_iff : f.fits = true ↔ f.lo + f.width ≤ 32 ∧ f.wrd < 4096 := by simp [fits]
theorem apart_iff : f.apart g = true ↔ f.wrd ≠ g.wrd ∨ f.lo + f.width ≤ g.lo ∨ g.lo + g.width ≤ f.lo := by
  simp [apart, or_assoc]

theorem addr_ne_of_wrd (hf : f.fits = true) (hg : g.fits = true) (h : f.wrd ≠ g.wrd) : f.addr r ≠ g.addr q := by
  have hfw := (fits_iff.mp hf).2
  have hgw := (fits_iff.mp hg).2
  unfold addr hAddr
  omega
theorem addr_ne_of_row (hf : f.fits = true) (hg : g.fits = true) (hr : r < 4096) (hq : q < 4096) (h : r ≠ q) :
    f.addr r ≠ g.addr q := by
  have hfw := (fits_iff.mp hf).2
  have hgw := (fits_iff.mp hg).2
  unfold addr hAddr
  omega

end Fld

namespace Chip

variable {c z : Chip} {k : Clock} {f g : Fld} {r q v n mask : Nat}

/-- A status field that shares no bit with the one set reads as before. -/
theorem st_setSt_apart (hwf : c.heath.status.wf = true) (hf : f.fits = true) (hg : g.fits = true) (h : f.apart g = true) :
    (c.setSt g r v).st f r = c.st f r := by
  by_cases hw : f.wrd = g.wrd
  · exact st_setSt_beside c g f r r v hwf (Fld.fits_iff.mp hf).1 ((Fld.apart_iff.mp h).resolve_left (absurd hw))
  · exact st_setSt_word c g f r r v (Fld.addr_ne_of_wrd hf hg hw)

/-- Status fields of row `r` set one after another. -/
def setRow (c : Chip) (r : Nat) (l : List (Fld × Nat)) : Chip := l.foldl (fun c p => c.setSt p.1 r p.2) c

theorem withStatus_withStatus (c : Chip) (a b : Bank) : (c.withStatus a).withStatus b = c.withStatus b := rfl
/-- Setting status fields replaces the status bank. -/
theorem setRow_form (c : Chip) (r : Nat) (l : List (Fld × Nat)) : ∃ b, c.setRow r l = c.withStatus b := by
  induction l generalizing c with
  | nil => exact ⟨c.heath.status, rfl⟩
  | cons p l ih =>
    obtain ⟨b, e⟩ := ih (c.setSt p.1 r p.2)
    exact ⟨b, e.trans (withStatus_withStatus c _ b)⟩

@[simp] theorem setRow_que (c : Chip) (r : Nat) (l : List (Fld × Nat)) : (c.setRow r l).que = c.que := by
  obtain ⟨b, e⟩ := c.setRow_form r l
  rw [e]; rfl
@[simp] theorem setRow_mead (c : Chip) (r : Nat) (l : List (Fld × Nat)) : (c.setRow r l).mead = c.mead := by
  obtain ⟨b, e⟩ := c.setRow_form r l
  rw [e]; rfl
@[simp] theorem setRow_heath_live (c : Chip) (r : Nat) (l : List (Fld × Nat)) : (c.setRow r l).heath.live = c.heath.live := by
  obtain ⟨b, e⟩ := c.setRow_form r l
  rw [e]; rfl

theorem setRow_wf (l : List (Fld × Nat)) (h : c.heath.status.wf = true) : (c.setRow r l).heath.status.wf = true := by
  induction l generalizing c with
  | nil => exact h
  | cons p l ih => exact ih (setSt_wf c p.1 r p.2 h)

/-- A field that shares no bit with those set reads as before. -/
theorem st_setRow_apart (l : List (Fld × Nat)) (hwf : c.heath.status.wf = true) (hf : f.fits = true)
    (h : ∀ g ∈ l.map Prod.fst, g.fits = true ∧ f.apart g = true) : (c.setRow r l).st f r = c.st f r := by
  induction l generalizing c with
  | nil => rfl
  | cons p l ih =>
    obtain ⟨hp, hl⟩ := List.forall_mem_cons.mp h
    exact (ih (setSt_wf c p.1 r p.2 hwf) hl).trans (st_setSt_apart hwf hf hp.1 hp.2)

/-- Each field set reads as it was set, where no two of them share a bit. -/
theorem st_setRow_mem (l : List (Fld × Nat)) (hwf : c.heath.status.wf = true) (hfit : ∀ g ∈ l.map Prod.fst, g.fits = true)
    (hapart : (l.map Prod.fst).Pairwise fun f g => f.apart g = true) (hm : (f, v) ∈ l) :
    (c.setRow r l).st f r = v % 2 ^ f.width := by
  induction l generalizing c with
  | nil => cases hm
  | cons p l ih =>
    obtain ⟨hp, hl⟩ := List.forall_mem_cons.mp hfit
    obtain ⟨hap, hal⟩ := List.pairwise_cons.mp hapart
    rcases List.mem_cons.mp hm with rfl | hm
    · calc ((c.setSt f r v).setRow r l).st f r
          = (c.setSt f r v).st f r := st_setRow_apart l (setSt_wf c f r v hwf) hp fun g hg => ⟨hl g hg, hap g hg⟩
        _ = v % 2 ^ f.width := st_setSt_same c f r v hwf (Fld.fits_iff.mp hp).1
    · exact ih (setSt_wf c p.1 r p.2 hwf) hl hal hm

/-- The fields of another row read as before. -/
theorem st_setRow_row (l : List (Fld × Nat)) (hf : f.fits = true) (hfit : ∀ g ∈ l.map Prod.fst, g.fits = true) (hr : r < 4096)
    (hq : q < 4096) (h : q ≠ r) : (c.setRow r l).st f q = c.st f q := by
  induction l generalizing c with
  | nil => rfl
  | cons p l ih =>
    obtain ⟨hp, hl⟩ := List.forall_mem_cons.mp hfit
    exact (ih hl).trans (st_setSt_word c p.1 f r q p.2 (Fld.addr_ne_of_row hf hp hq hr h))

/-- A counter of the row that shares no bit with the fields set counts on from where it stood before them. -/
theorem addSt_setRow (l : List (Fld × Nat)) (hwf : c.heath.status.wf = true) (hf : f.fits = true)
    (h : ∀ g ∈ l.map Prod.fst, g.fits = true ∧ f.apart g = true) :
    (c.setRow r l).addSt f r n = c.setRow r (l ++ [(f, wrapAdd f.width (c.st f r) n)]) := by
  rw [addSt, st_setRow_apart l hwf hf h]
  simp [setRow]

/-! ### Cause bits -/

/-- Cause bits leave every other status word. -/
theorem st_cause_of_addr (c : Chip) (k : Clock) (g : CauseReg) (row bits : Nat) (h : f.addr q ≠ g.cause.addr row) :
    (c.cause k g row bits).st f q = c.st f q :=
  congrArg f.get (Quiet.cause_other k g row bits _ h)

/-- A cause bit that is set stands. -/
theorem hasCause_cause (g : CauseReg) (row bits i : Nat) (hwf : c.heath.status.wf = true) (hg : g.cause.fits = true)
    (hi : i < g.cause.width) (hb : bits.testBit i = true) : (c.cause k g row bits).hasCause g row i := by
  have hst : (c.cause k g row bits).st g.cause row = (c.st g.cause row ||| bits) % 2 ^ g.cause.width := by
    rw [← st_orSt_same c g.cause row bits hwf (Fld.fits_iff.mp hg).1, st, cause_status, st]
  simp [hasCause, hst, hi, hb]

/-! ### Records in TQU -/

/-- A drop that a queue counts is quiet: it writes the queue's own status words alone. -/
theorem Quiet.qDropped (k : Clock) (i : Nat) (hi : i < 4096) (hz : Quiet z c) : Quiet z (c.qDropped k i) :=
  Quiet.cause k _ i _ (Quiet.qReg_loud i) hi (Quiet.onQ i _ (Quiet.addSt _ i 1 rfl hi hz))

theorem tqu_lt (c : Chip) : c.lv TIME.TQU 1 < 8 := Fld.get_lt TIME.TQU _

/-- A record of queue `i` leaves the heath as it is, or the queue counts it as dropped. -/
theorem qRecord_heath_cases (c : Chip) (k : Clock) (i kind unit : Nat) (bs : List Byte) (e : Nat) :
    (c.qRecord k i kind unit bs e).1.heath = c.heath ∨ (c.qRecord k i kind unit bs e).1 = c.qDropped k i := by
  unfold qRecord
  split
  · exact .inl rfl
  · split
    · exact .inl rfl
    · exact .inr rfl

/-- A record in TQU, written or dropped, leaves the status words of every table but the queues'. -/
theorem st_tqRecord (c : Chip) (k : Clock) (unit : Nat) (bs : List Byte) (ht : quietTab (tabOf (f.addr q)) = true) :
    (c.tqRecord k unit bs).1.st f q = c.st f q := by
  have hq : c.lv TIME.TQU 1 < 4096 := lt_trans c.tqu_lt (by decide)
  have hdrop : ∀ x : Chip, (x.qDropped k (c.lv TIME.TQU 1)).st f q = x.st f q := fun x =>
    congrArg f.get ((Quiet.qDropped k _ hq (Quiet.refl x)).words _ ht)
  have hrec : ∀ e, (c.qRecord k (c.lv TIME.TQU 1) 7 unit bs e).1.st f q = c.st f q := by
    intro e
    rcases qRecord_heath_cases c k (c.lv TIME.TQU 1) 7 unit bs e with h | h
    · rw [st, st, h]
    · rw [h, hdrop]
  unfold tqRecord
  split
  · rfl
  · dsimp only
    split
    · exact hdrop _
    · split
      · exact hrec _
      · exact hrec _

/-- A record that TQU takes stands whole as its newest open item (R259, R315). -/
theorem opens_tqRecord (unit : Nat) (bs : List Byte) (hen : c.on TIME.TQUEN 1 = true) (hbroke : c.mead.brokeTime = false)
    (hq : c.qEn (c.lv TIME.TQU 1) = true) (hroom : c.qRoom (c.lv TIME.TQU 1) bs.length = true) :
    ((c.tqRecord k unit bs).1.q (c.lv TIME.TQU 1)).opens = (c.q (c.lv TIME.TQU 1)).opens ++
      [⟨7, unit, bs, itemWords bs.length, some (k.evc + bs.length - 1), 0, 0⟩] := by
  have hlt : c.lv TIME.TQU 1 < 12 := lt_trans c.tqu_lt (by decide)
  simp [tqRecord, qRecord, hen, hbroke, hq, hroom, hlt]

/-! ### The event of a capture unit -/

/-- The event has more than one source (R302). -/
def coincides (mask : Nat) : Bool := decide (1 < (bitsIn 15 mask).length)
/-- What an event with FIREMASK `mask` says of itself in the unit's row (R302). -/
def captureStamp (k : Clock) (mask : Nat) : List (Fld × Nat) :=
  [(TIME.CAP_COINC, bit (coincides mask)), (TIME.CAP_FIREMASK, mask), (TIME.CAP_STAMP, k.stamp.toNat),
   (TIME.CAP_SECHI, k.sec / 2 ^ 32), (TIME.CAP_SECLO, k.sec % 2 ^ 32), (TIME.CAP_NS, k.ns)]
/-- All that it writes into the row's words but for its cause bits: the counters too (R302). -/
def captureWords (c : Chip) (k : Clock) (r mask : Nat) : List (Fld × Nat) :=
  captureStamp k mask ++ [(TIME.CAP_EVENTS, wrapAdd TIME.CAP_EVENTS.width (c.st TIME.CAP_EVENTS r) 1)] ++
    [(TIME.CAP_COINCS, wrapAdd TIME.CAP_COINCS.width (c.st TIME.CAP_COINCS r) (bit (coincides mask)))]
/-- The body of the event's capture record (R315). -/
def captureRecord (k : Clock) (mask : Nat) : List Byte :=
  wordBytes (word (0x10000000 + bit (coincides mask) * 2 ^ 23 + mask)) ++ wordBytes k.stamp ++ timeWords3 k.time
/-- Unit `n` has had its event of the present edge (R302). -/
def markTaken (c : Chip) (n : Nat) : Chip := c.onTime fun t => { t with taken := n :: t.taken }
theorem st_markTaken (c : Chip) (n : Nat) (f : Fld) (r : Nat) : (c.markTaken n).st f r = c.st f r := rfl
/-- Unit `n` after its event, but for the capture record (R302). -/
def captured (c : Chip) (k : Clock) (n mask : Nat) : Chip :=
  ((((c.markTaken n).setRow (2 + n) (captureStamp k mask)).addSt TIME.CAP_EVENTS (2 + n) 1).addSt TIME.CAP_COINCS (2 + n)
    (bit (coincides mask))).cause k .tcap (2 + n) (1 + 2 * bit (coincides mask))
/-- The fields that an event writes. -/
def captureFields : List Fld :=
  [TIME.CAP_COINC, TIME.CAP_FIREMASK, TIME.CAP_STAMP, TIME.CAP_SECHI, TIME.CAP_SECLO, TIME.CAP_NS, TIME.CAP_EVENTS, TIME.CAP_COINCS]

theorem mem_captureFields (h : (f, v) ∈ c.captureWords k r mask) : f ∈ captureFields := List.mem_map_of_mem (f := Prod.fst) h
theorem captureFields_tab : ∀ g ∈ captureFields, g.tab = 0x50 := by decide
theorem captureFields_fit : ∀ g ∈ captureFields, g.fits = true := by decide
theorem captureFields_apart : captureFields.Pairwise fun f g => f.apart g = true := by decide

@[simp] theorem length_captureRecord (k : Clock) (mask : Nat) : (captureRecord k mask).length = 20 := rfl

/-- FIREMASK holds sources of SRCMASK alone. -/
theorem capMask_lt (c : Chip) (n : Nat) (pins : List (Nat × Bool)) : c.capMask n pins < 2 ^ TIME.CAP_FIREMASK.width :=
  lt_of_le_of_lt Nat.and_le_right (Fld.get_lt TIME.CAP_SRCMASK _)

/-- The event's fields and counters are set one after another, and then its cause bits. -/
theorem captured_eq (k : Clock) (n mask : Nat) (hwf : c.heath.status.wf = true) :
    c.captured k n mask = ((c.markTaken n).setRow (2 + n) (c.captureWords k (2 + n) mask)).cause k .tcap (2 + n)
      (1 + 2 * bit (coincides mask)) := by
  have hevents : ∀ g ∈ captureFields.take 6, g.fits = true ∧ TIME.CAP_EVENTS.apart g = true := by decide
  have hcoincs : ∀ g ∈ captureFields.take 7, g.fits = true ∧ TIME.CAP_COINCS.apart g = true := by decide
  rw [captured, addSt_setRow (c := c.markTaken n) (captureStamp k mask) hwf rfl hevents,
    addSt_setRow (c := c.markTaken n) (f := TIME.CAP_COINCS) _ hwf rfl ?_, st_markTaken, st_markTaken, captureWords]
  exact hcoincs

/-- What an event writes into the unit's row stands there. -/
theorem st_captured (hwf : c.heath.status.wf = true) (hm : (f, v) ∈ c.captureWords k (2 + n) mask) (hv : v < 2 ^ f.width) :
    (c.captured k n mask).st f (2 + n) = v := by
  have hf := mem_captureFields hm
  have hcause : ∀ g ∈ captureFields, g.wrd ≠ TIME.CAP_CAUSE.wrd := by decide
  calc (c.captured k n mask).st f (2 + n)
      = ((c.markTaken n).setRow (2 + n) (c.captureWords k (2 + n) mask)).st f (2 + n) := by
        rw [captured_eq k n mask hwf]
        exact st_cause_of_addr _ k _ _ _ (Fld.addr_ne_of_wrd (captureFields_fit f hf) rfl (hcause f hf))
    _ = v % 2 ^ f.width := st_setRow_mem (c := c.markTaken n) _ hwf captureFields_fit captureFields_apart hm
    _ = v := Nat.mod_eq_of_lt hv

/-- The cause bits of the event stand. -/
theorem hasCause_captured (hwf : c.heath.status.wf = true) {i : Nat} (hi : i < 8)
    (hb : (1 + 2 * bit (coincides mask)).testBit i = true) : (c.captured k n mask).hasCause .tcap (2 + n) i := by
  rw [captured_eq k n mask hwf]
  exact hasCause_cause .tcap _ _ i (setRow_wf _ hwf) rfl hi hb

/-- The event of one unit leaves the rows of the others. -/
theorem st_captured_row (hwf : c.heath.status.wf = true) (hf : f.fits = true) (hn : 2 + n < 4096) (hq : q < 4096)
    (h : q ≠ 2 + n) : (c.captured k n mask).st f q = c.st f q := by
  calc (c.captured k n mask).st f q
      = ((c.markTaken n).setRow (2 + n) (c.captureWords k (2 + n) mask)).st f q := by
        rw [captured_eq k n mask hwf]
        exact st_cause_of_addr _ k _ _ _ (Fld.addr_ne_of_row hf rfl hq hn h)
    _ = (c.markTaken n).st f q := st_setRow_row _ hf captureFields_fit hn hq h

@[simp] theorem captured_que (c : Chip) (k : Clock) (n mask : Nat) : (c.captured k n mask).que = c.que := by simp [captured, markTaken]
@[simp] theorem captured_mead (c : Chip) (k : Clock) (n mask : Nat) : (c.captured k n mask).mead = c.mead := by simp [captured, markTaken]
@[simp] theorem captured_live (c : Chip) (k : Clock) (n mask : Nat) : (c.captured k n mask).heath.live = c.heath.live := by
  simp [captured, markTaken]
@[simp] theorem lv_captured (c : Chip) (k : Clock) (n mask : Nat) (f : Fld) (r : Nat) : (c.captured k n mask).lv f r = c.lv f r := by
  simp only [lv, captured_live]
@[simp] theorem on_captured (c : Chip) (k : Clock) (n mask : Nat) (f : Fld) (r : Nat) : (c.captured k n mask).on f r = c.on f r := by
  simp only [on, lv_captured]
@[simp] theorem q_captured (c : Chip) (k : Clock) (n mask i : Nat) : (c.captured k n mask).q i = c.q i := by
  simp only [Chip.q, captured_que]

/-- Sources of the enabled unit `n` fire on the present edge for the first time, and make FIREMASK `mask` (R301, R302). -/
structure Fires (c : Chip) (n : Nat) (pins : List (Nat × Bool)) (mask : Nat) : Prop where
  on : c.on TIME.CAP_EN (2 + n) = true
  mask_eq : mask = c.capMask n pins
  ne : mask ≠ 0
  fresh : c.tim.taken.contains n = false

variable {pins : List (Nat × Bool)}

/-- The sources that fire make one event, and its record where QREC is 1. -/
theorem Fires.capture_eq (h : c.Fires n pins mask) (k : Clock) :
    c.capture k n pins = if c.on TIME.CAP_QREC (2 + n) = true then
      ((c.captured k n mask).tqRecord k (0x80 + n) (captureRecord k mask)).1 else c.captured k n mask := by
  obtain ⟨hon, hmask, hne, hfresh⟩ := h
  have hguard : ¬ (!c.on TIME.CAP_EN (2 + n) || mask == 0 || c.tim.taken.contains n) = true := by
    rw [hon, hfresh]
    simp [hne]
  rw [← on_captured c k n mask]
  unfold capture
  rw [← hmask]
  exact if_neg hguard

/-- The record leaves what the event has written into the unit's row. -/
theorem Fires.st_capture (h : c.Fires n pins mask) (k : Clock) (ht : quietTab (tabOf (f.addr q)) = true) :
    (c.capture k n pins).st f q = (c.captured k n mask).st f q := by
  rw [h.capture_eq k]
  split
  · exact st_tqRecord _ k _ _ ht
  · rfl

/-- The words of TIME are no words of a queue. -/
theorem quietTab_addr (hf : f.fits = true) (ht : f.tab = 0x50) (hq : q < 4096) : quietTab (tabOf (f.addr q)) = true := by
  rw [Fld.addr, tabOf_hAddr (by omega) hq (Fld.fits_iff.mp hf).2, ht]
  rfl

section
variable (h : c.Fires n pins mask) (k : Clock) (hn : n < 4) (hwf : c.heath.status.wf = true)
include h hn hwf

/-- After its event the unit's row reads what the event says of itself and counts. -/
theorem Fires.st_capture_same (hm : (f, v) ∈ c.captureWords k (2 + n) mask) (hv : v < 2 ^ f.width) :
    (c.capture k n pins).st f (2 + n) = v := by
  have hf := mem_captureFields hm
  rw [h.st_capture k (quietTab_addr (captureFields_fit f hf) (captureFields_tab f hf) (by omega)), st_captured hwf hm hv]

/-- After it the event's cause bits stand. -/
theorem Fires.hasCause_capture {i : Nat} (hi : i < 8) (hb : (1 + 2 * bit (coincides mask)).testBit i = true) :
    (c.capture k n pins).hasCause .tcap (2 + n) i := by
  rw [hasCause, h.st_capture k (quietTab_addr rfl rfl (by omega))]
  exact hasCause_captured hwf hi hb

/-- The row of another unit reads as before. -/
theorem Fires.st_capture_other (hf : f ∈ captureFields) {m : Nat} (hm : m < 4) (hmn : m ≠ n) :
    (c.capture k n pins).st f (2 + m) = c.st f (2 + m) := by
  have hfit := captureFields_fit f hf
  rw [h.st_capture k (quietTab_addr hfit (captureFields_tab f hf) (by omega)),
    st_captured_row hwf hfit (by omega) (by omega) (by omega)]

end

/-- Where QREC is 1 and TQU takes it, the event's record is written. -/
theorem Fires.opens_capture (h : c.Fires n pins mask) (k : Clock) (hqrec : c.on TIME.CAP_QREC (2 + n) = true)
    (hen : c.on TIME.TQUEN 1 = true) (hbroke : c.mead.brokeTime = false) (hq : c.qEn (c.lv TIME.TQU 1) = true)
    (hroom : c.qRoom (c.lv TIME.TQU 1) 20 = true) :
    ((c.capture k n pins).q (c.lv TIME.TQU 1)).opens = (c.q (c.lv TIME.TQU 1)).opens ++
      [⟨7, 0x80 + n, captureRecord k mask, itemWords 20, some (k.evc + 20 - 1), 0, 0⟩] := by
  have hopens := opens_tqRecord (c := c.captured k n mask) (k := k) (0x80 + n) (captureRecord k mask)
  simp only [qRoom, qEn, qCap, lv_captured, on_captured, captured_mead, q_captured, length_captureRecord] at hopens
  rw [h.capture_eq k, if_pos hqrec]
  exact hopens hen hbroke hq hroom

end Chip

namespace Clock

/-- On the grid the local time of an edge fits the status words of a capture unit. -/
theorem onGrid.sechi_lt {k : Clock} (h : k.onGrid) : k.sec / 2 ^ 32 < 2 ^ TIME.CAP_SECHI.width := by
  obtain ⟨-, hsec, -⟩ := h
  exact Nat.div_lt_of_lt_mul hsec
theorem onGrid.ns_lt {k : Clock} (h : k.onGrid) : k.ns < 2 ^ TIME.CAP_NS.width := lt_trans h.1 (by decide)

end Clock

/-- Settles O49: on the present edge the unit makes one event of the sources, whose status words are the fields of its row set one after
another; the record in TQU leaves them. An active edge counts among the sources where it came before the command (log 79). -/
theorem captureEvents : Obligations.CaptureEvents := by
  unfold Obligations.CaptureEvents
  intro n srcs mask s hs hgrid hmask hon hne hfresh
  obtain ⟨hrun, hheath, -, hdone⟩ := hs
  obtain ⟨-, -, hwf, -, -⟩ := hheath
  have hexec : exec (.captureEvent n srcs) s =
      .next { s with chip := s.chip.capture s.clk n (srcs.map fun p => (p.1.val, p.2)) } := by
    show Host.Outcome.next _ = _
    rw [hdone, s.act_running _ hrun]
  have h : s.chip.Fires n.val (srcs.map fun p => (p.1.val, p.2)) mask := ⟨hon, hmask, hne, hfresh⟩
  have hsame := fun f v => h.st_capture_same (f := f) (v := v) s.clk n.isLt hwf
  have hother := fun f m => h.st_capture_other (f := f) (m := m) s.clk n.isLt hwf
  have hcause := fun i => h.hasCause_capture (i := i) s.clk n.isLt hwf
  have hbit : ∀ b, bit b < 2 ∧ (1 + 2 * bit b).testBit 0 = true := by decide
  have hcoinc : 1 < (bitsIn 15 mask).length → (1 + 2 * bit (Chip.coincides mask)).testBit 1 = true := fun hmany => by
    rw [Chip.coincides, decide_eq_true hmany]; rfl
  refine ⟨_, hexec, ⟨rfl, rfl, Chip.Keeps.capture s.clk n _ (Chip.Keeps.refl _)⟩,
    hsame TIME.CAP_FIREMASK _ ?_ (hmask ▸ s.chip.capMask_lt _ _), hsame TIME.CAP_COINC _ ?_ (hbit _).1,
    hsame TIME.CAP_STAMP _ ?_ s.clk.stamp.isLt, hsame TIME.CAP_SECHI _ ?_ hgrid.sechi_lt,
    hsame TIME.CAP_SECLO _ ?_ (Nat.mod_lt _ (by decide)), hsame TIME.CAP_NS _ ?_ hgrid.ns_lt,
    hsame TIME.CAP_EVENTS _ ?_ (Nat.mod_lt _ (by decide)), hsame TIME.CAP_COINCS _ ?_ (Nat.mod_lt _ (by decide)),
    hcause 0 (by decide) (hbit _).2, fun hmany => hcause 1 (by decide) (hcoinc hmany),
    fun m hmn hm => ⟨hother _ m (by decide) hm hmn, hother _ m (by decide) hm hmn⟩,
    fun hqrec hen hbroke hq hroom => ⟨_, h.opens_capture s.clk hqrec hen hbroke hq hroom⟩⟩
  all_goals simp [Chip.captureWords, Chip.captureStamp, Chip.coincides]

end Sys2Proof.Machine
end

section
/-! PROOFS. How every command moves the queue of waiting commands and the local clock (R21 to R23, R38). -/

namespace Sys2Proof.Machine
open Sys2Proof

namespace State

/-- From `s` to `t` no tick boundary passes and the clock goes on: the queue and the tick number stay, and local time stays with the tick
grid. -/
structure InTick (s t : State) : Prop where
  pending : t.pending = s.pending
  ticks : t.clk.ticks = s.clk.ticks
  onGrid : s.clk.onGrid → t.clk.onGrid

namespace InTick

variable {s t u : State}

theorem refl (s : State) : InTick s s := ⟨rfl, rfl, id⟩
theorem trans (h : InTick s t) (g : InTick t u) : InTick s u :=
  ⟨g.pending.trans h.pending, g.ticks.trans h.ticks, g.onGrid ∘ h.onGrid⟩
theorem withChip (h : InTick s t) (c : Chip) : InTick s { t with chip := c } := ⟨h.pending, h.ticks, h.onGrid⟩
theorem iteOf {p : Prop} [Decidable p] (h : p → InTick s t) (g : ¬ p → InTick s u) : InTick s (if p then t else u) := by
  split
  · exact h ‹_›
  · exact g ‹_›
theorem ite {p : Prop} [Decidable p] (h : InTick s t) (g : InTick s u) : InTick s (if p then t else u) :=
  iteOf (fun _ => h) (fun _ => g)

theorem boundaryDone (s : State) : InTick s s.boundaryDone :=
  ⟨boundaryDone_pending s, boundaryDone_ticks s, onGrid_boundaryDone s⟩
theorem elapse (s : State) (n : Nat) : InTick s (s.elapse n) := by
  refine ⟨elapse_pending s n, ?_, onGrid_elapse s n⟩
  by_cases hn : n = 0
  · rw [hn, elapse_zero]
  · rw [elapse_clk s n hn]; exact depart_ticks s
theorem toEvc (s : State) (e : Nat) : InTick s (s.toEvc e) := elapse s _

theorem act (h : InTick s t) (f : Clock → Chip → Chip) : InTick s (t.act f) :=
  h.trans (ite ((refl t).withChip _) (refl t))
theorem actAt (s : State) (i : Nat) (f : Clock → Chip → Chip) : InTick s (s.actAt i f) :=
  ite ((elapse s _).withChip _) (refl s)
theorem actBoundary (s : State) (f : Clock → Chip → Chip) : InTick s (s.actBoundary f) := ite ((refl s).act f) (refl s)
theorem inWindow (s : State) (lo hi code : Nat) (f : Clock → Chip → Chip) : InTick s (s.inWindow lo hi code f) :=
  ite (refl s) (actAt s _ _)
theorem beat (s : State) (b : Beat) (kind : Chip → Bool) : InTick s (s.beat b kind) :=
  ite ((boundaryDone s).act _) (refl s)

end InTick

/-! ### Commands with a form of their own -/

/-- A slew edge stays in its tick, away from the tick's last cycle indices. -/
theorem onGrid_slew {k : Clock} {add2 : Bool} (hk : k.onGrid) (hmay : k.mayslew add2 = true) : (k.slew add2).onGrid := by
  obtain ⟨hns, hsec, hgrid⟩ := hk
  cases add2 with
  | false => exact ⟨hns, hsec, hgrid⟩
  | true =>
    have hns' : k.ns < 1000000000 := hns
    have hidx : k.ns % 125000 ≤ 124981 := by
      simp only [Clock.mayslew, if_true, Bool.and_eq_true, decide_eq_true_eq] at hmay
      exact hmay.2
    have htick : k.ticks % 8 = k.ns / 125000 % 8 := hgrid
    refine ⟨?_, hsec, ?_⟩
    · show k.ns + 2 < 1000000000
      omega
    · show k.ticks % 8 = (k.ns + 2) / 125000 % 8
      omega

theorem edge_inTick (s : State) (o : Nat) : InTick s (s.edge o) := by
  unfold edge
  refine .ite (.refl s) ?_
  dsimp only
  split
  · exact .boundaryDone s
  · refine .ite (.boundaryDone s) (.ite ?_ (.ite ?_ (.boundaryDone s)))
    · exact ((InTick.boundaryDone s).trans (.elapse _ _)).withChip _
    · exact ((InTick.boundaryDone s).trans (.elapse _ _)).withChip _

end State

open State (InTick)

theorem execSlewEdge_inTick (add2 : Bool) (s : State) : ∃ t, execSlewEdge add2 s = .next t ∧ InTick s t := by
  refine ⟨_, rfl, .iteOf (fun h => ?_) (fun _ => .refl s)⟩
  have hmay : s.clk.mayslew add2 = true := (Bool.and_eq_true _ _ |>.mp (Bool.and_eq_true _ _ |>.mp h).1).2
  exact ⟨rfl, by cases add2 <;> rfl, fun hk => State.onGrid_slew hk hmay⟩

theorem execStep_inTick (s : State) : ∃ t, execStep s = .next t ∧ InTick s t := by
  refine ⟨_, rfl, .ite ?_ (.refl s)⟩
  refine ((InTick.refl s).withChip _).trans ⟨State.stepBoundary_pending _, State.stepBoundary_ticks _, fun hk => ?_⟩
  rcases State.stepBoundary_clk _ with e | ⟨hsf, m, e⟩
  · rw [e]; exact hk
  · rw [e]; exact Clock.onGrid_stepMs _ m hk hsf

theorem execReArmGapEnd_inTick (s : State) : ∃ t, execReArmGapEnd s = .next t ∧ InTick s t := by
  refine ⟨_, rfl, ?_⟩
  split
  · have hmove : ∀ e, InTick s (if s.chip.running = true then s.toEvc e else s) := fun e => .ite (.toEvc s e) (.refl s)
    exact .ite ((hmove _).act _) (hmove _)
  · exact .refl s

theorem execItemCommit_inTick (q : Fin 8) (kind : Fin 16) (unit : Byte) (s : State) :
    ∃ t, execItemCommit q kind unit s = .next t ∧ InTick s t := by
  refine ⟨_, rfl, ?_⟩
  split
  · split
    · exact (InTick.ite (.toEvc s _) (.refl s)).act _
    · exact .refl s
  · exact .refl s

theorem execTentativeClaimEnd_inTick (peerHigh : Bool) (s : State) : ∃ t, execTentativeClaimEnd peerHigh s = .next t ∧ InTick s t := by
  refine ⟨_, rfl, ?_⟩
  split
  · exact (InTick.ite (.toEvc s _) (.refl s)).act _
  · exact .refl s

/-! ### Every command -/

/-- Every command but those of start-up and reset that stop the clock, and but TICK_BOUNDARY, goes on within the tick: by the form in
which it acts on the part. -/
theorem exec_inTick (s : State) : ∀ i : Instr, i.stopsClock = false → (∀ e b, i ≠ .tickBoundary e b) →
    ∃ t, exec i s = .next t ∧ InTick s t
  | .vinRise .., _, _ => ⟨_, rfl, .ite (.refl s) (.ite ((InTick.refl s).withChip _) ((InTick.refl s).withChip _))⟩
  | .powerOn _, _, _ | .railsReady, _, _ | .s2Restart, _, _ => ⟨_, rfl, .ite ((InTick.refl s).withChip _) (.refl s)⟩
  | .rstNHigh, _, _ | .tapReset, _, _ =>
    ⟨_, rfl, .ite ((InTick.refl s).withChip _) ((InTick.refl s).withChip _)⟩
  | .vioLoss, _, _ | .vioReturn, _, _ | .budget _, _, _ | .beatAbort .., _, _ | .burstEnd, _, _ | .startStopCondition .., _, _
  | .sdaRelease, _, _ | .stretchRelease, _, _ | .stretchTimeout, _, _ | .qdataStallEnd, _, _ | .heathScrub .., _, _
  | .otnFrame .., _, _ | .gfpFrameRx .., _, _ | .ethernetFrameRx .., _, _ | .upstreamItemSent _, _, _ | .holdOffExpiry .., _, _
  | .fopnr _, _, _ | .upstreamHeaderRx .., _, _ | .audioBlockRx .., _, _ | .smallBlockMessage .., _, _
  | .managementMessage .., _, _ | .dropGfpFrame .., _, _ | .answerRx .., _, _ | .scrubberRead .., _, _ | .lockBreak .., _, _
  | .defaultTargetAccess .., _, _ | .downwardItemConsume .., _, _ | .slaveRxFrame .., _, _ | .slaveTxFrameStart .., _, _
  | .ptpTransmit, _, _ | .referencePulse .., _, _ | .faultEvent .., _, _ | .injectionLand _, _, _ | .linkUp _, _, _
  | .linkDown, _, _ | .laneMarker .., _, _ | .tickRecord _, _, _ | .add .., _, _ | .retire .., _, _ | .cut .., _, _
  | .armed, _, _ | .tentativeClaimLost, _, _ | .roleClash, _, _ | .peerClaimLoss, _, _ | .claimResume, _, _
  | .handoverTimeout, _, _ | .releaseNotice, _, _ | .handoverRequest, _, _ | .fullCopyRequest, _, _ | .blockLockChange .., _, _
  | .scheduledWake _, _, _ | .powerStateEntry .., _, _ =>
    ⟨_, rfl, (InTick.refl s).act _⟩
  | .captureEvent .., _, _ => ⟨_, rfl, (InTick.boundaryDone s).act _⟩
  | .claimLit .., _, _ => ⟨_, rfl, .ite ((InTick.boundaryDone s).act _) (.refl s)⟩
  | .invalidIndexAccess _, _, _ | .registerWrite _, _, _ | .warmResetRequest _, _, _ | .yieldToShadow _, _, _
  | .leavePair _, _, _ | .softwareInterrupt _, _, _ | .hdataRead _, _, _ | .hdataWrite _, _, _ | .schemaLock _, _, _
  | .revertRequest _, _, _ | .snapreq _, _, _ | .commitRequest _, _, _ | .icauseClear _, _, _ | .glintRead _, _, _
  | .queueSelect _, _, _ | .flush _, _, _ | .replay _, _, _ | .qdataRead _, _, _ | .qdataWrite _, _, _ =>
    ⟨_, rfl, .beat s _ _⟩
  | .warmResetActions, _, _ | .warmResetComplete, _, _ | .revertPerform, _, _ | .snapshot, _, _ | .commitApply, _, _
  | .selectorMove _, _, _ | .slotMapOffer _, _, _ | .applyNext _, _, _ | .generationApply _, _, _ | .smflt _, _, _
  | .silentEnd .., _, _ | .quietecEnd _, _, _ | .callTimeout _, _, _ | .prepEnd _, _, _ | .selectEnd _, _, _ | .dropUp _, _, _
  | .syncTimeout _, _, _ | .retry _, _, _ | .retrain _, _, _ | .dropOff _, _, _ | .countWindowTumble _, _, _
  | .automaticRecovery, _, _ | .bankRunsApply .., _, _ | .attach .., _, _ | .shadowLights, _, _ | .litStepDown, _, _
  | .handover, _, _ =>
    ⟨_, rfl, .actBoundary s _⟩
  | .commitVerdict, _, _ | .probeJudgement .., _, _ => ⟨_, rfl, .actAt s _ _⟩
  | .waitToRestoreEnd _, _, _ => ⟨_, rfl, .ite (.refl s) (.actAt s _ _)⟩
  | .nightWake, _, _ | .darkWake, _, _ => ⟨_, rfl, .ite (.actAt s _ _) (.refl s)⟩
  | .uplinkIntegration .., _, _ | .schedulerCreditRefill, _, _ | .dropDefectJudgement .., _, _ | .groomingMoves, _, _
  | .level, _, _ | .audioExchange _, _, _ | .loopFilterUpdate _, _, _ | .powerPlan .., _, _ =>
    ⟨_, rfl, .inWindow s _ _ _ _⟩
  | .dpllWaitToRestoreEnd _, _, _ | .switchComplete .., _, _ => ⟨_, rfl, .ite (.refl s) ((InTick.refl s).act _)⟩
  | .portReady, _, _ => ⟨_, rfl, .ite ((InTick.ite (.elapse s _) (.refl s)).act _) (.refl s)⟩
  | .pulseEnd _, _, _ => ⟨_, rfl, .ite ((InTick.toEvc s _).act _) (.refl s)⟩
  | .watch, _, _ => ⟨_, rfl, .ite ((InTick.refl s).withChip _) (.refl s)⟩
  | .activeEdge o, _, _ => ⟨_, rfl, s.edge_inTick o⟩
  | .ppsPulse, _, _ => ⟨_, rfl, s.edge_inTick ppsOut⟩
  | .slewEdge add2, _, _ => execSlewEdge_inTick add2 s
  | .step, _, _ => execStep_inTick s
  | .reArmGapEnd, _, _ => execReArmGapEnd_inTick s
  | .itemCommit q kind unit, _, _ => execItemCommit_inTick q kind unit s
  | .tentativeClaimEnd peerHigh, _, _ => execTentativeClaimEnd_inTick peerHigh s
  | .tickBoundary e b, _, h => absurd rfl (h e b)

/-- From `s` to `t` the queue stays, and the clock stays or is back at 0. -/
def State.Halts (s t : State) : Prop := t.pending = s.pending ∧ (t.clk = s.clk ∨ t.clk = {})

namespace State.Halts

theorem sameClock {s t : State} (hp : t.pending = s.pending) (hk : t.clk = s.clk) : Halts s t := ⟨hp, .inl hk⟩
theorem ite {s t u : State} {p : Prop} [Decidable p] (h : Halts s t) (g : Halts s u) : Halts s (if p then t else u) := by
  split <;> assumption
theorem stop (s : State) (p : Phase) (cause : Nat) (f : Boot → Boot) : Halts s (s.stop p cause f) := ⟨rfl, .inr rfl⟩
theorem pinReset (s : State) (f : Boot → Boot) : Halts s (s.pinReset f) := by
  unfold State.pinReset
  split
  case h_4 => exact .sameClock rfl rfl
  all_goals exact .stop s _ _ _
theorem unhold (s : State) (f : Boot → Boot) : Halts s (s.onBoot f).unhold := .ite (.sameClock rfl rfl) (.sameClock rfl rfl)

end State.Halts

/-- A command that starts or stops the core leaves the queue, and the clock as it is or at 0. -/
theorem exec_halts (s : State) : ∀ i : Instr, i.stopsClock = true → ∃ t, exec i s = .next t ∧ s.Halts t
  | .coreResetRelease .., _ => ⟨_, rfl, .ite ⟨rfl, .inr rfl⟩ (.sameClock rfl rfl)⟩
  | .brownOut, _ => ⟨_, rfl, .ite (.sameClock rfl rfl) (.stop s _ _ _)⟩
  | .pinReset _, _ =>
    ⟨_, rfl, .ite (.sameClock rfl rfl) (.ite (.pinReset s _) (.ite (.pinReset { s with chip := s.chip.draw.2 } _) (.sameClock rfl rfl)))⟩
  | .tapInstruction op cells, _ => by
    refine ⟨_, rfl, ?_⟩
    split
    · exact .sameClock rfl rfl
    · exact .sameClock rfl rfl
    · exact .ite (.pinReset s _) (.unhold s _)

/-! ### The statements -/

/-- Settles O7: by its form, every command goes on within the tick, passes its boundary, or starts or stops the core; none touches the
queue. That a command whose condition does not hold answers the same state is the model's choice (log 3). -/
theorem queueFrame : Obligations.QueueFrame := by
  unfold Obligations.QueueFrame
  intro i s
  by_cases hstop : i.stopsClock = true
  · obtain ⟨t, ht, hq, -⟩ := exec_halts s i hstop
    exact ⟨t, ht, hq⟩
  · by_cases hb : ∃ e b, i = .tickBoundary e b
    · obtain ⟨e, b, rfl⟩ := hb
      exact ⟨_, rfl, s.nextBoundary_pending e b⟩
    · obtain ⟨t, ht, hin⟩ := exec_inTick s i (by simpa using hstop) (fun e b he => hb ⟨e, b, he⟩)
      exact ⟨t, ht, hin.pending⟩

/-- Settles O9: within the tick no command moves the tick number. -/
theorem tickNumberMoves : Obligations.TickNumberMoves := by
  unfold Obligations.TickNumberMoves
  intro i s t hstop hb hexec
  obtain ⟨u, hu, hin⟩ := exec_inTick s i hstop hb
  rw [hu] at hexec
  cases hexec
  exact hin.ticks

theorem State.onGrid_nextBoundary (s : State) (energy bits : Nat) (h : s.clk.onGrid) : (s.nextBoundary energy bits).clk.onGrid := by
  by_cases hrun : s.chip.running = true
  · rw [s.nextBoundary_clk energy bits hrun]
    exact Clock.onGrid_nextTick _ (s.onGrid_lastEdge h) s.lastEdge_idx
  · unfold nextBoundary
    rw [if_neg hrun]
    exact h

theorem State.onGrid_idleEdge (s : State) (h : s.clk.onGrid) : s.idleEdge.clk.onGrid := by
  unfold idleEdge
  split
  · split
    · exact s.onGrid_nextBoundary 0 0 h
    · exact onGrid_elapse s 1 h
  · exact h

theorem Clock.onGrid_reset : ({} : Clock).onGrid := ⟨by decide, by decide, rfl⟩

theorem exec_onGrid {i : Instr} {s t : State} (h : s.clk.onGrid) (hexec : exec i s = .next t) : t.clk.onGrid := by
  by_cases hstop : i.stopsClock = true
  · obtain ⟨u, hu, -, hk⟩ := exec_halts s i hstop
    rw [hu] at hexec
    cases hexec
    rcases hk with hk | hk
    · rw [hk]; exact h
    · rw [hk]; exact Clock.onGrid_reset
  · by_cases hb : ∃ e b, i = .tickBoundary e b
    · obtain ⟨e, b, rfl⟩ := hb
      cases hexec
      exact s.onGrid_nextBoundary e b h
    · obtain ⟨u, hu, hin⟩ := exec_inTick s i (by simpa using hstop) (fun e b he => hb ⟨e, b, he⟩)
      rw [hu] at hexec
      cases hexec
      exact hin.onGrid h

/-- Settles O5: a step is a command, or one core-clock edge where none waits; both keep local time on the grid. -/
theorem gridInvariant : Obligations.GridInvariant := by
  unfold Obligations.GridInvariant
  intro s t hgrid hstep
  unfold step at hstep
  split at hstep
  case h_1 =>
    cases hstep
    exact s.onGrid_idleEdge hgrid
  case h_2 i rest _ => exact exec_onGrid (s := { s with pending := rest }) hgrid hstep

end Sys2Proof.Machine
end

section
/-! PROOFS. The rest of the operations of the blocks leave configuration, snapshot, start-up state and port as they are
(`Chip.Keeps`): each follows from the operations that it is made of. -/

namespace Sys2Proof.Machine.Chip
set_option linter.unusedTactic false
set_option linter.unreachableTactic false
namespace Keeps
theorem writeRecords {z c : Chip} (k : Clock) (hz : Keeps z c) : Keeps z (c.writeRecords k) := by
  unfold Chip.writeRecords
  refine ite hz (foldl _ ?_ (fun a x ha => beginRecord k x ha))
  exact onHeath (f := fun h => { h with recDue := h.recDue.filter (fun r => decide (k.idx < r.start)) }) hz
    (fun _ => ⟨rfl, rfl, rfl, rfl, rfl⟩)
theorem filterTick {z c : Chip} (ch : Nat) (e : Option Int) (hz : Keeps z c) : Keeps z (c.filterTick ch e) := by
  unfold Chip.filterTick
  repeat' (first | with_reducible assumption | with_reducible exact Keeps.refl _ | with_reducible apply Keeps.onCh | with_reducible apply Keeps.iteElse | (intro; intros) | fail_if_no_progress extract_lets | split)
theorem stateAim {z c : Chip} (ch : Nat) (hz : Keeps z c) : Keeps z (c.stateAim ch) := by
  unfold Chip.stateAim
  repeat' (first | with_reducible assumption | with_reducible exact Keeps.refl _ | with_reducible apply Keeps.onCh | (intro; intros) | fail_if_no_progress extract_lets | split)
theorem loopTick {z c : Chip} (k : Clock) (t : LoopTick) (ch : Nat) (hz : Keeps z c) : Keeps z (c.loopTick k t ch) := by
  unfold Chip.loopTick
  repeat' (first | with_reducible assumption | with_reducible exact Keeps.refl _ | with_reducible apply Keeps.onCh | with_reducible apply Keeps.measure | with_reducible apply Keeps.filterTick | with_reducible apply Keeps.stateAim | with_reducible apply Keeps.moveOut | with_reducible apply Keeps.histTick | with_reducible apply Keeps.iteElse | (intro; intros) | fail_if_no_progress extract_lets | split)
theorem loopUpdate {z c : Chip} (k : Clock) (t : LoopTick) (hz : Keeps z c) : Keeps z (c.loopUpdate k t) := by
  unfold Chip.loopUpdate
  repeat' (first | with_reducible assumption | with_reducible exact Keeps.refl _ | with_reducible apply Keeps.qualify | with_reducible apply Keeps.setRefDefs | with_reducible apply Keeps.reportFmeas | with_reducible apply Keeps.choose | with_reducible apply Keeps.loopTick | with_reducible apply Keeps.syncCh | with_reducible apply Keeps.coreTick | with_reducible apply Keeps.overN | with_reducible apply Keeps.iteElse | (intro; intros) | fail_if_no_progress extract_lets)
theorem takeCells {z : Chip} (k : Clock) (up : Bool) (n : Nat) : ∀ {c : Chip}, Keeps z c → Keeps z (c.takeCells k up n).2 := by
  induction n with
  | zero => exact fun hz => hz
  | succ n ih =>
    intro c hz
    unfold Chip.takeCells
    split
    next r c₁ hdraw =>
      have h₁ : Keeps z c₁ := draw_eq hdraw hz
      split
      · exact syncPools k (onM _ h₁)
      · exact ih (onM _ h₁)
theorem takeCells_eq {z c y : Chip} (k : Clock) (up : Bool) (n : Nat) {w0} (ez : c.takeCells k up n = (w0, y)) (hz : Keeps z c) :
    Keeps z y := by
  have := Keeps.takeCells k up n hz; rw [ez] at this; exact this
theorem growItem {z c : Chip} (k : Clock) (it : Item) (bs : List Byte) (hz : Keeps z c) : Keeps z (c.growItem k it bs).1 := by
  unfold Chip.growItem
  extract_lets max len need may
  split
  next got c₁ hcells =>
    have h₁ : Keeps z c₁ := takeCells_eq k it.up may hcells hz
    split
    · dsimp only
      exact discardItem k _ _ h₁
    · split
      · dsimp only
        exact discardItem k _ _ h₁
      · exact syncPools k h₁
theorem growItem_eq {z c y : Chip} (k : Clock) (it : Item) (bs : List Byte) {w0} (ez : c.growItem k it bs = (y, w0)) (hz : Keeps z c) :
    Keeps z y := by
  have := Keeps.growItem k it bs hz; rw [ez] at this; exact this
theorem commitItem {z c : Chip} (k : Clock) (it : Item) (hz : Keeps z c) : Keeps z (c.commitItem k it) := by
  unfold Chip.commitItem
  repeat' (first | with_reducible assumption | with_reducible exact Keeps.refl _ | (with_reducible refine Keeps.sendAdd_eq (by with_reducible assumption) ?_) | with_reducible apply Keeps.sendAdd | with_reducible apply Keeps.onTwin | with_reducible apply Keeps.setItems | with_reducible apply Keeps.syncPools | with_reducible apply Keeps.iteElse | (intro; intros) | fail_if_no_progress extract_lets | split)
theorem beginClient {z c : Chip} (k : Clock) (t : Nat) (up : Bool) (dest key : Nat) (bs : List Byte) (whole good : Bool) (hz : Keeps z c) :
    Keeps z (c.beginClient k t up dest key bs whole good).1 := by
  unfold Chip.beginClient
  split
  next hgrow => exact growItem_eq k _ bs hgrow hz
  next c₁ it hgrow =>
    have h₁ : Keeps z c₁ := growItem_eq k _ bs hgrow hz
    split
    · exact h₁
    · split
      · exact commitItem k it h₁
      · exact discardItem k it cCheck h₁
theorem beginClient_eq {z c y : Chip} (k : Clock) (t : Nat) (up : Bool) (dest key : Nat) (bs : List Byte) (whole good : Bool) {w0}
    (ez : c.beginClient k t up dest key bs whole good = (y, w0)) (hz : Keeps z c) : Keeps z y := by
  have := Keeps.beginClient k t up dest key bs whole good hz; rw [ez] at this; exact this
theorem endRx {z c : Chip} (k : Clock) (u cause : Nat) (hz : Keeps z c) : Keeps z (c.endRx k u cause) := by
  unfold Chip.endRx
  repeat' (first | with_reducible assumption | with_reducible exact Keeps.refl _ | with_reducible apply Keeps.onU | with_reducible apply Keeps.discardItem | (intro; intros) | fail_if_no_progress extract_lets | split)
theorem endUp {z c : Chip} (k : Clock) (d cause : Nat) (hz : Keeps z c) : Keeps z (c.endUp k d cause) := by
  unfold Chip.endUp
  repeat' (first | with_reducible assumption | with_reducible exact Keeps.refl _ | with_reducible apply Keeps.onD | with_reducible apply Keeps.discardItem | (intro; intros) | fail_if_no_progress extract_lets | split)
theorem leaveEdge {z c : Chip} (k : Clock) (hz : Keeps z c) : Keeps z (c.leaveEdge k) := by
  unfold Chip.leaveEdge
  repeat' (first | with_reducible assumption | with_reducible exact Keeps.refl _ | with_reducible apply Keeps.capture | with_reducible apply Keeps.onTime | with_reducible apply Keeps.overN | (with_reducible refine Keeps.onHeath ?_ (fun _ => ⟨rfl, rfl, rfl, rfl, rfl⟩)) | with_reducible apply Keeps.iteElse | (intro; intros) | fail_if_no_progress extract_lets)
theorem apsSync {z c : Chip} (k : Clock) (p : Nat) (hz : Keeps z c) : Keeps z (c.apsSync k p) := by
  unfold Chip.apsSync
  repeat' (first | with_reducible assumption | with_reducible exact Keeps.refl _ | with_reducible apply Keeps.setSt | with_reducible apply Keeps.apsAim | with_reducible apply Keeps.onP | with_reducible apply Keeps.cause | with_reducible apply Keeps.iteElse | (intro; intros) | fail_if_no_progress extract_lets)
theorem apsEval {z c : Chip} (k : Clock) (p : Nat) (hz : Keeps z c) : Keeps z (c.apsEval k p) := by
  unfold Chip.apsEval
  repeat' (first | with_reducible assumption | with_reducible exact Keeps.refl _ | with_reducible apply Keeps.apsHold | with_reducible apply Keeps.onP | with_reducible apply Keeps.cause | with_reducible apply Keeps.apsSync | with_reducible apply Keeps.iteElse | (intro; intros) | fail_if_no_progress extract_lets | split)
theorem apsMove {z c : Chip} (k : Clock) (p : Nat) (b : Bool) (hz : Keeps z c) : Keeps z (c.apsMove k p b) := by
  unfold Chip.apsMove
  repeat' (first | with_reducible assumption | with_reducible exact Keeps.refl _ | with_reducible apply Keeps.endRx | with_reducible apply Keeps.setSt | with_reducible apply Keeps.addSt | with_reducible apply Keeps.cause | with_reducible apply Keeps.iteElse | (intro; intros) | fail_if_no_progress extract_lets)
theorem apsReceive {z c : Chip} (k : Clock) (p : Nat) (v : Word) (hz : Keeps z c) : Keeps z (c.apsReceive k p v) := by
  unfold Chip.apsReceive
  repeat' (first | with_reducible assumption | with_reducible exact Keeps.refl _ | with_reducible apply Keeps.onP | with_reducible apply Keeps.setSt | with_reducible apply Keeps.causeIf | with_reducible apply Keeps.apsEval | with_reducible apply Keeps.iteElse | (intro; intros) | fail_if_no_progress extract_lets)
theorem apsApply {z c : Chip} (k : Clock) (old : Bank) (p : Nat) (hz : Keeps z c) : Keeps z (c.apsApply k old p) := by
  unfold Chip.apsApply
  repeat' (first | with_reducible assumption | with_reducible exact Keeps.refl _ | with_reducible apply Keeps.onP | with_reducible apply Keeps.apsBlank | with_reducible apply Keeps.apsHold | with_reducible apply Keeps.apsEval | with_reducible apply Keeps.apsMove | with_reducible apply Keeps.apsLfd | with_reducible apply Keeps.iteElse | (intro; intros) | fail_if_no_progress extract_lets)
theorem gccTake {z c : Chip} (u : Nat) (hz : Keeps z c) : Keeps z (c.gccTake u).2 := by
  unfold Chip.gccTake
  dsimp only
  split
  · exact onU u _ hz
  · exact hz
theorem gccTake_eq {z c y : Chip} (u : Nat) {w0} (ez : c.gccTake u = (w0, y)) (hz : Keeps z c) : Keeps z y := by
  have := Keeps.gccTake u hz; rw [ez] at this; exact this
theorem txFrame {z c : Chip} (k : Clock) (u : Nat) (hz : Keeps z c) : Keeps z (c.txFrame k u) := by
  unfold Chip.txFrame
  repeat' (first | with_reducible assumption | with_reducible exact Keeps.refl _ | with_reducible apply Keeps.onU | (with_reducible refine Keeps.gccTake_eq (by with_reducible assumption) ?_) | with_reducible apply Keeps.gccTake | with_reducible apply Keeps.setSt | with_reducible apply Keeps.apsSync | with_reducible apply Keeps.iteElse | (intro; intros) | fail_if_no_progress extract_lets | split)
theorem txFrames {z : Chip} (k : Clock) (u n : Nat) : ∀ {c : Chip}, Keeps z c → Keeps z (c.txFrames k u n) := by
  induction n with
  | zero => exact fun hz => hz
  | succ n ih => exact fun hz => ih (txFrame k u hz)
theorem dimLaser {z c : Chip} (k : Clock) (u : Nat) (hz : Keeps z c) : Keeps z (c.dimLaser k u) := by
  unfold Chip.dimLaser
  repeat' (first | with_reducible assumption | with_reducible exact Keeps.refl _ | with_reducible apply Keeps.onU | with_reducible apply Keeps.iteElse | (intro; intros) | fail_if_no_progress extract_lets | split)
theorem linesPass {z c : Chip} (k : Clock) (hz : Keeps z c) : Keeps z (c.linesPass k) :=
  overN 4 hz (fun u _ ha => dimLaser k u (txFrames k u _ ha))
theorem laserApply {z c : Chip} (k : Clock) (old : Bank) (u : Nat) (hz : Keeps z c) : Keeps z (c.laserApply k old u) := by
  unfold Chip.laserApply
  repeat' (first | with_reducible assumption | with_reducible exact Keeps.refl _ | with_reducible apply Keeps.onU | with_reducible apply Keeps.dimLaser | with_reducible apply Keeps.iteElse | (intro; intros))
theorem ptpTransmit {z c : Chip} (k : Clock) (hz : Keeps z c) : Keeps z (c.ptpTransmit k) := by
  unfold Chip.ptpTransmit
  split
  next => exact hz
  next u ctl bs _ =>
    extract_lets i
    split
    next c₁ htake => exact takeHead_eq k i htake hz
    next ws c₁ htake =>
      have h₁ : Keeps z c₁ := takeHead_eq k i htake hz
      refine ite (addSt _ _ _ (qFinish k i h₁)) (ite h₁ ?_)
      have h₂ := lineSend k u (bs ++ etherFcs bs) (addSt { TIME.PTPTX with wrd := 12 + u } 1 1 (qFinish k i h₁))
      exact ite (tqRecord k _ _ h₂) h₂
theorem setDefs {z c : Chip} (k : Clock) (u raw extra : Nat) (hz : Keeps z c) : Keeps z (c.setDefs k u raw extra) := by
  unfold Chip.setDefs
  repeat' (first | with_reducible assumption | with_reducible exact Keeps.refl _ | with_reducible apply Keeps.onU | with_reducible apply Keeps.setSt | with_reducible apply Keeps.addSt | with_reducible apply Keeps.causeIf | with_reducible apply Keeps.consequent | with_reducible apply Keeps.setCond | with_reducible apply Keeps.setRefDef | with_reducible apply Keeps.gccRewind | with_reducible apply Keeps.endRx | with_reducible apply Keeps.apsLfd | with_reducible apply Keeps.apsEval | with_reducible apply Keeps.iteElse | with_reducible apply Keeps.upd | (intro; intros) | fail_if_no_progress extract_lets)
theorem acceptFrame {z c : Chip} (u raw : Nat) (f : OtnRx) (hz : Keeps z c) : Keeps z (c.acceptFrame u raw f).1 := by
  unfold Chip.acceptFrame
  repeat' (first | with_reducible assumption | with_reducible apply Keeps.onU | with_reducible apply Keeps.setSt | (with_reducible refine Keeps.takeTti_eq (by with_reducible assumption) ?_) | with_reducible apply Keeps.takeTti | (intro; intros) | (with_reducible refine Keeps.ofIte (by with_reducible assumption) ?_ ?_) | fail_if_no_progress extract_lets | split | (show Keeps _ (Prod.fst (Prod.mk _ _)); dsimp only))
theorem acceptFrame_eq {z c y : Chip} (u raw : Nat) (f : OtnRx) {w0} (ez : c.acceptFrame u raw f = (y, w0)) (hz : Keeps z c) :
    Keeps z y := by
  have := Keeps.acceptFrame u raw f hz; rw [ez] at this; exact this
theorem otnFrame {z c : Chip} (k : Clock) (u : Nat) (f : OtnFrame) (hz : Keeps z c) : Keeps z (c.otnFrame k u f) := by
  unfold Chip.otnFrame
  extract_lets raw g
  refine ite hz ?_
  split
  next c₁ raw₁ h₁ =>
    have k₁ : Keeps z c₁ := alignFrame_eq u raw g h₁ hz
    split
    next c₂ raw₂ extra h₂ =>
      have k₂ : Keeps z c₂ := acceptFrame_eq u raw₁ g h₂ k₁
      split
      next c₃ raw₃ h₃ =>
        have k₃ : Keeps z c₃ := ofIte h₃ (overheadHeld u k₂) (overheadFrame u raw₂ g k₂)
        have k₄ := gccFrame k u g (setDefs k u raw₃ extra (countFrame u raw₃ g k₃))
        exact ite (apsReceive k _ _ k₄) k₄
theorem integrate {z c : Chip} (k : Clock) (u : Nat) (t : UplinkTick) (hz : Keeps z c) : Keeps z (c.integrate k u t) := by
  unfold Chip.integrate
  repeat' (first | with_reducible assumption | with_reducible exact Keeps.refl _ | with_reducible apply Keeps.refreshOptics | with_reducible apply Keeps.opticsOnly | with_reducible apply Keeps.judgeLine | with_reducible apply Keeps.countTick | with_reducible apply Keeps.judgeAlign | with_reducible apply Keeps.judgeBer | with_reducible apply Keeps.onU | with_reducible apply Keeps.judgeDeg | with_reducible apply Keeps.judgeOptics | with_reducible apply Keeps.setDefs | with_reducible apply Keeps.addSt | with_reducible apply Keeps.iteElse | (intro; intros) | fail_if_no_progress extract_lets | split)
theorem pcsEvent {z c : Chip} (k : Clock) (u : Nat) (e : PcsEvent) (hz : Keeps z c) : Keeps z (c.pcsEvent k u e) := by
  unfold Chip.pcsEvent
  repeat' (first | with_reducible assumption | with_reducible exact Keeps.refl _ | with_reducible apply Keeps.foldl | with_reducible apply Keeps.onU | with_reducible apply Keeps.setDefs | with_reducible apply Keeps.iteElse | (intro; intros) | fail_if_no_progress extract_lets | split)
theorem uplApply {z c : Chip} (k : Clock) (old : Bank) (u : Nat) (hz : Keeps z c) : Keeps z (c.uplApply k old u) := by
  unfold Chip.uplApply
  repeat' (first | with_reducible assumption | with_reducible exact Keeps.refl _ | with_reducible apply Keeps.gccRewind | with_reducible apply Keeps.laserApply | with_reducible apply Keeps.qReturn | with_reducible apply Keeps.onU | with_reducible apply Keeps.endRx | with_reducible apply Keeps.setSt | with_reducible apply Keeps.setDefs | with_reducible apply Keeps.apsLfd | with_reducible apply Keeps.iteElse | with_reducible apply Keeps.upd | (intro; intros) | fail_if_no_progress extract_lets)
theorem audioApply {z c : Chip} (k : Clock) (old : Bank) (p : Nat) (hz : Keeps z c) : Keeps z (c.audioApply k old p) := by
  unfold Chip.audioApply
  repeat' (first | with_reducible assumption | with_reducible exact Keeps.refl _ | with_reducible apply Keeps.endSide | with_reducible apply Keeps.rewatch | with_reducible apply Keeps.startSide | with_reducible apply Keeps.setAudDef | with_reducible apply Keeps.iteElse | (intro; intros) | fail_if_no_progress extract_lets)
theorem exchangeTake {z c : Chip} (k : Clock) (p : Nat) (pin : List Bool) (hz : Keeps z c) : Keeps z (c.exchangeTake k p pin).2 := by
  unfold Chip.exchangeTake
  repeat' (first | with_reducible assumption | with_reducible exact Keeps.refl _ | with_reducible apply Keeps.onSide | with_reducible apply Keeps.setRun | with_reducible apply Keeps.slip | with_reducible apply Keeps.syncSide | with_reducible apply Keeps.iteElse | (intro; intros) | fail_if_no_progress extract_lets | split)
/-- What each pass over a list keeps of the part that it carries along, all passes keep. -/
theorem foldlPair {z : Chip} {α β : Type} {f : α × Chip → β → α × Chip} (l : List β) (hf : ∀ p x, Keeps z p.2 → Keeps z (f p x).2) :
    ∀ {p : α × Chip}, Keeps z p.2 → Keeps z (l.foldl f p).2 := by
  induction l with
  | nil => exact fun h => h
  | cons x r ih => exact fun h => ih (hf _ _ h)
theorem foldlPair_eq {z y : Chip} {α β : Type} {f : α × Chip → β → α × Chip} {l : List β} {p : α × Chip} {a}
    (ez : l.foldl f p = (a, y)) (hf : ∀ p x, Keeps z p.2 → Keeps z (f p x).2) (h : Keeps z p.2) : Keeps z y := by
  have := foldlPair l hf h; rw [ez] at this; exact this
theorem exchangeGive {z c : Chip} (p echo : Nat) (hz : Keeps z c) : Keeps z (c.exchangeGive p echo) := by
  unfold Chip.exchangeGive
  extract_lets x n slots rts
  refine ite hz ?_
  split
  next cols c₁ hcols =>
    have h₁ : Keeps z c₁ := by
      refine foldlPair_eq hcols (fun acc s hacc => ?_) hz
      obtain ⟨l, a⟩ := acc
      dsimp only
      split
      · split
        · exact slotSamples p _ _ echo hacc
        · exact hacc
      · exact hacc
    refine foldl _ h₁ (fun a i ha => ?_)
    exact ite (ite (slip p false _ 1 ha) ha) (syncSide p false (onSide p false _ ha))
theorem exchange {z c : Chip} (k : Clock) (pins : List (List Bool)) (hz : Keeps z c) : Keeps z (c.exchange k pins) := by
  unfold Chip.exchange
  extract_lets echo
  split
  next taken c₁ htaken =>
    have h₁ : Keeps z c₁ := foldlPair_eq htaken (fun _ p hacc => exchangeTake k p _ hacc) hz
    have h₂ := overN 8 (upd h₁ c₁.win c₁.dir c₁.col c₁.que c₁.upl c₁.trib c₁.sched c₁.gfp c₁.aps c₁.mead c₁.drop
      { c₁.aud with feeds := c₁.buildFeeds taken } c₁.tim c₁.dpll c₁.twin c₁.pow c₁.qramFixed c₁.done c₁.free)
      (f := fun p c => c.exchangeGive p echo) (fun p _ ha => exchangeGive p echo ha)
    exact overN 8 (rememberValid echo h₂) (fun p a ha => judgeAudio k p ha)
theorem audioBoundary {z c : Chip}  (hz : Keeps z c) : Keeps z (c.audioBoundary ) := by
  unfold Chip.audioBoundary
  repeat' (first | with_reducible assumption | with_reducible exact Keeps.refl _ | with_reducible apply Keeps.onSide | with_reducible apply Keeps.syncSide | with_reducible apply Keeps.overN | with_reducible apply Keeps.iteElse | (intro; intros) | fail_if_no_progress extract_lets)
theorem leaveUp {z c : Chip} (k : Clock) (d : Nat) (hz : Keeps z c) : Keeps z (c.leaveUp k d) := by
  unfold Chip.leaveUp
  repeat' (first | with_reducible assumption | with_reducible exact Keeps.refl _ | with_reducible apply Keeps.stopTx | with_reducible apply Keeps.breakPacket | with_reducible apply Keeps.endUp | with_reducible apply Keeps.leaveSync | with_reducible apply Keeps.onD | with_reducible apply Keeps.setDropDefs | (intro; intros) | fail_if_no_progress extract_lets)
theorem enterSilent {z c : Chip} (k : Clock) (d : Nat) (hz : Keeps z c) : Keeps z (c.enterSilent k d) := by
  unfold Chip.enterSilent
  repeat' (first | with_reducible assumption | with_reducible exact Keeps.refl _ | with_reducible apply Keeps.leaveUp | with_reducible apply Keeps.onD | with_reducible apply Keeps.setPs | with_reducible apply Keeps.addSt | with_reducible apply Keeps.cause | with_reducible apply Keeps.raiseLof | with_reducible apply Keeps.iteElse | (intro; intros) | fail_if_no_progress extract_lets)
theorem trainFail {z c : Chip} (k : Clock) (d : Nat) (hz : Keeps z c) : Keeps z (c.trainFail k d) := by
  unfold Chip.trainFail
  repeat' (first | with_reducible assumption | with_reducible exact Keeps.refl _ | with_reducible apply Keeps.leaveUp | with_reducible apply Keeps.onD | with_reducible apply Keeps.setPs | with_reducible apply Keeps.addSt | with_reducible apply Keeps.setDropDef | (intro; intros) | fail_if_no_progress extract_lets)
theorem enterOff {z c : Chip} (k : Clock) (d : Nat) (hz : Keeps z c) : Keeps z (c.enterOff k d) := by
  unfold Chip.enterOff
  repeat' (first | with_reducible assumption | with_reducible exact Keeps.refl _ | with_reducible apply Keeps.leaveUp | with_reducible apply Keeps.onD | with_reducible apply Keeps.setSmmis | with_reducible apply Keeps.setRange | with_reducible apply Keeps.setXcon | with_reducible apply Keeps.setPs | with_reducible apply Keeps.setSt | with_reducible apply Keeps.setDropDefs | with_reducible apply Keeps.iteElse | (intro; intros) | fail_if_no_progress extract_lets)
theorem enterHeld {z c : Chip} (k : Clock) (d : Nat) (hz : Keeps z c) : Keeps z (c.enterHeld k d) := by
  unfold Chip.enterHeld
  repeat' (first | with_reducible assumption | with_reducible exact Keeps.refl _ | with_reducible apply Keeps.leaveUp | with_reducible apply Keeps.onD | with_reducible apply Keeps.setPs | with_reducible apply Keeps.raiseLof | with_reducible apply Keeps.iteElse | (intro; intros) | fail_if_no_progress extract_lets)
theorem enterListen {z c : Chip} (k : Clock) (d : Nat) (hz : Keeps z c) : Keeps z (c.enterListen k d) := by
  unfold Chip.enterListen
  repeat' (first | with_reducible assumption | with_reducible exact Keeps.refl _ | with_reducible apply Keeps.leaveUp | with_reducible apply Keeps.onD | with_reducible apply Keeps.setPs | with_reducible apply Keeps.raiseLof | with_reducible apply Keeps.iteElse | (intro; intros) | fail_if_no_progress extract_lets)
theorem trainNext {z c : Chip} (k : Clock) (d below : Nat) (hz : Keeps z c) : Keeps z (c.trainNext k d below) := by
  unfold Chip.trainNext
  repeat' (first | with_reducible assumption | with_reducible exact Keeps.refl _ | with_reducible apply Keeps.onD | with_reducible apply Keeps.setPs | with_reducible apply Keeps.enterSelect | with_reducible apply Keeps.trainFail | with_reducible apply Keeps.iteElse | (intro; intros) | fail_if_no_progress extract_lets | split)
theorem dropOpen {z c : Chip} (k : Clock) (d : Nat) (hz : Keeps z c) : Keeps z (c.dropOpen k d) := by
  unfold Chip.dropOpen
  repeat' (first | with_reducible assumption | with_reducible exact Keeps.refl _ | with_reducible apply Keeps.enterHeld | with_reducible apply Keeps.enterSilent | with_reducible apply Keeps.trainNext | with_reducible apply Keeps.enterSelect | with_reducible apply Keeps.iteElse | (intro; intros) | fail_if_no_progress extract_lets)
theorem startPacket {z : Chip} (k : Clock) (d room n : Nat) : ∀ {c : Chip}, Keeps z c → Keeps z (c.startPacket k d room n) := by
  induction n with
  | zero => exact fun hz => onD d _ hz
  | succ n ih =>
    intro c hz
    unfold Chip.startPacket
    split
    next t _ =>
      split
      next it r _ =>
        split
        next bad c₁ hread =>
          have h₁ : Keeps z c₁ := readCells_eq k _ hread hz
          exact ite (ih (discardItem k it _ (setItems t false r h₁))) (onD d _ (setItems t false _ h₁))
      next => exact onD d _ hz
    next => exact onD d _ hz
theorem takePacket {z : Chip} (k : Clock) (d more fuel : Nat) :
    ∀ (n : Nat) {c : Chip}, Keeps z c → Keeps z (c.takePacket k d more fuel n).2 := by
  induction fuel with
  | zero => exact fun _ _ hz => hz
  | succ fuel ih =>
    intro n c hz
    unfold Chip.takePacket
    split
    · exact hz
    · split
      · exact ih n (startPacket k d _ _ hz)
      · have h₁ := onD d (fun x => { x with pkt := x.pkt.drop (min n (c.d d).pkt.length) })
          (readPacket k d (min n (c.d d).pkt.length) hz)
        exact ih _ (ite (endPacket k d h₁) h₁)
theorem localBlock {z c : Chip} (k : Clock) (d : Nat) (runs : List RunEnt) (b : Nat) (hz : Keeps z c) :
    Keeps z (c.localBlock k d runs b).2.2 := by
  unfold Chip.localBlock
  split
  next => exact hz
  next e _ =>
    split
    · split
      · exact hz
      · exact takePacket k d _ 64 20 hz
    · split
      · split <;> exact hz
      · split
        · exact onD d _ hz
        · split
          · split
            · exact ite (addSt TIME.TBSENT 15 1 hz) hz
            · exact hz
          · split
            · exact onD d _ hz
            · exact hz
theorem litBlock {z c : Chip} (k : Clock) (d : Nat) (runs : List RunEnt) (b : Nat) (hz : Keeps z c) : Keeps z (c.litBlock k d runs b).2 := by
  unfold Chip.litBlock
  extract_lets typ own
  have hown : ∀ y, Keeps z y → Keeps z (own y).2 := fun y hy => localBlock k d runs b hy
  split
  next g _ =>
    split
    next bad c₁ hread =>
      have h₁ : Keeps z c₁ := readHalf_eq k _ hread hz
      split
      · extract_lets past
        exact ite (onM _ h₁) h₁
      · exact hown _ (skipGroomed d 1 h₁)
  next => exact hown _ (skipGroomed d _ hz)
theorem composeBlock {z c : Chip} (k : Clock) (d b : Nat) (hz : Keeps z c) : Keeps z (c.composeBlock k d b).2 := by
  unfold Chip.composeBlock
  extract_lets runs x
  split
  · exact hz
  · exact litBlock k d runs b hz
theorem composeBlock_eq {z c y : Chip} (k : Clock) (d b : Nat) {w0} (ez : c.composeBlock k d b = (w0, y)) (hz : Keeps z c) : Keeps z y := by
  have := Keeps.composeBlock k d b hz; rw [ez] at this; exact this
theorem placeBlock {z c : Chip} (k : Clock) (d : Nat) (hz : Keeps z c) : Keeps z (c.placeBlock k d) := by
  unfold Chip.placeBlock
  repeat' (first | with_reducible assumption | with_reducible exact Keeps.refl _ | (with_reducible refine Keeps.composeBlock_eq (by with_reducible assumption) ?_) | with_reducible apply Keeps.composeBlock | with_reducible apply Keeps.takeSource | with_reducible apply Keeps.onD | (intro; intros) | fail_if_no_progress extract_lets | split)
theorem fillFrame {z : Chip} (k : Clock) (d i n : Nat) : ∀ {c : Chip}, Keeps z c → Keeps z (c.fillFrame k d i n) := by
  induction n with
  | zero => exact fun hz => hz
  | succ n ih => exact fun hz => ite hz (ite (closeFrame k d hz) (ite hz (ih (placeBlock k d hz))))
theorem framesPass {z c : Chip} (k : Clock) (hz : Keeps z c) : Keeps z (c.framesPass k) :=
  overN 96 hz (fun d _ ha => ite ha (fillFrame k d k.idx 2001 ha))
theorem leaveBoundary {z c : Chip} (k : Clock) (hz : Keeps z c) : Keeps z (c.leaveBoundary k) := by
  unfold Chip.leaveBoundary
  repeat' (first | with_reducible assumption | with_reducible exact Keeps.refl _ | with_reducible apply Keeps.onD | with_reducible apply Keeps.openFrame | with_reducible apply Keeps.overN | with_reducible apply Keeps.iteElse | (intro; intros) | fail_if_no_progress extract_lets | split)
theorem dropTx {z c : Chip} (q : Nat) (hz : Keeps z c) : Keeps z (c.dropTx q) := by
  unfold Chip.dropTx
  repeat' (first | with_reducible assumption | with_reducible exact Keeps.refl _ | with_reducible apply Keeps.onU | with_reducible apply Keeps.onD | with_reducible apply Keeps.overN | with_reducible apply Keeps.iteElse | (intro; intros) | fail_if_no_progress extract_lets)
theorem queApply {z c : Chip} (k : Clock) (old : Bank) (i : Nat) (hz : Keeps z c) : Keeps z (c.queApply k old i) := by
  unfold Chip.queApply
  repeat' (first | with_reducible assumption | with_reducible exact Keeps.refl _ | with_reducible apply Keeps.dropTx | with_reducible apply Keeps.qFlush | with_reducible apply Keeps.iteElse | (intro; intros) | fail_if_no_progress extract_lets)
theorem queProducers {z c : Chip} (k : Clock) (i : Nat) (hz : Keeps z c) : Keeps z (c.queProducers k i) := by
  unfold Chip.queProducers
  repeat' (first | with_reducible assumption | with_reducible exact Keeps.refl _ | with_reducible apply Keeps.onQ | with_reducible apply Keeps.qRewounds | with_reducible apply Keeps.iteElse | (intro; intros) | fail_if_no_progress extract_lets)
theorem quesApply {z c : Chip} (k : Clock) (old : Bank) (hz : Keeps z c) : Keeps z (c.quesApply k old) := by
  unfold Chip.quesApply
  repeat' (first | with_reducible assumption | with_reducible exact Keeps.refl _ | with_reducible apply Keeps.queProducers | with_reducible apply Keeps.forRows | with_reducible apply Keeps.queApply | with_reducible apply Keeps.overN | (intro; intros))
theorem uplinkApply {z c : Chip} (k : Clock) (old : Bank) (u : Nat) (hz : Keeps z c) : Keeps z (c.uplinkApply k old u) := by
  unfold Chip.uplinkApply
  repeat' (first | with_reducible assumption | with_reducible exact Keeps.refl _ | with_reducible apply Keeps.uplApply | with_reducible apply Keeps.onU | with_reducible apply Keeps.iteElse | (intro; intros) | fail_if_no_progress extract_lets)
theorem tribApply {z c : Chip} (k : Clock) (old : Bank) (t : Nat) (hz : Keeps z c) : Keeps z (c.tribApply k old t) := by
  unfold Chip.tribApply
  repeat' (first | with_reducible assumption | with_reducible exact Keeps.refl _ | with_reducible apply Keeps.endRx | with_reducible apply Keeps.endUp | with_reducible apply Keeps.onT | with_reducible apply Keeps.overN | with_reducible apply Keeps.iteElse | (intro; intros) | fail_if_no_progress extract_lets)
theorem startDrop {z c : Chip} (k : Clock) (d : Nat) (hz : Keeps z c) : Keeps z (c.startDrop k d) := by
  unfold Chip.startDrop
  repeat' (first | with_reducible assumption | with_reducible exact Keeps.refl _ | with_reducible apply Keeps.enterListen | with_reducible apply Keeps.enterHeld | with_reducible apply Keeps.enterSilent | with_reducible apply Keeps.iteElse | (intro; intros))
theorem dropApply {z c : Chip} (k : Clock) (old : Bank) (d : Nat) (hz : Keeps z c) : Keeps z (c.dropApply k old d) := by
  unfold Chip.dropApply
  repeat' (first | with_reducible assumption | with_reducible exact Keeps.refl _ | with_reducible apply Keeps.dropQueues | with_reducible apply Keeps.enterOff | with_reducible apply Keeps.startDrop | with_reducible apply Keeps.onD | with_reducible apply Keeps.setDropDef | with_reducible apply Keeps.endUp | with_reducible apply Keeps.leaveSync | with_reducible apply Keeps.disposeDrop | with_reducible apply Keeps.syncDropSrc | with_reducible apply Keeps.iteElse | (intro; intros) | fail_if_no_progress extract_lets)
theorem applyBank {z c : Chip} (k : Clock) (old : Bank) (step first was : Bool) (hz : Keeps z c) : Keeps z (c.applyBank k old step first was) := by
  unfold Chip.applyBank
  repeat' (first | with_reducible assumption | with_reducible exact Keeps.refl _ | with_reducible apply Keeps.quesApply | with_reducible apply Keeps.colApply | with_reducible apply Keeps.uplinkApply | with_reducible apply Keeps.apsApply | with_reducible apply Keeps.forRows | with_reducible apply Keeps.tribApply | with_reducible apply Keeps.dropApply | with_reducible apply Keeps.foldl | with_reducible apply Keeps.slotApply | with_reducible apply Keeps.audioApply | with_reducible apply Keeps.timeApply | with_reducible apply Keeps.dpllApply | with_reducible apply Keeps.timingApply | with_reducible apply Keeps.reshade | with_reducible apply Keeps.dropAllHeads | with_reducible apply Keeps.lateWakes | with_reducible apply Keeps.syncPools | with_reducible apply Keeps.overN | with_reducible apply Keeps.iteElse | (intro; intros) | fail_if_no_progress extract_lets)
theorem freeAll {z c : Chip} (k : Clock) (cause : Nat) (hz : Keeps z c) : Keeps z (c.freeAll k cause) := by
  unfold Chip.freeAll
  repeat' (first | with_reducible assumption | with_reducible exact Keeps.refl _ | with_reducible apply Keeps.endUp | with_reducible apply Keeps.endRx | with_reducible apply Keeps.foldl | with_reducible apply Keeps.discardItem | with_reducible apply Keeps.setItems | with_reducible apply Keeps.overN | (intro; intros) | fail_if_no_progress extract_lets)
theorem becomeShadow {z c : Chip} (k : Clock) (hz : Keeps z c) : Keeps z (c.becomeShadow k) := by
  unfold Chip.becomeShadow
  repeat' (first | with_reducible assumption | with_reducible exact Keeps.refl _ | with_reducible apply Keeps.setRole | with_reducible apply Keeps.endAttach | with_reducible apply Keeps.onTwin | with_reducible apply Keeps.setSt | with_reducible apply Keeps.mapItems | with_reducible apply Keeps.startDrop | with_reducible apply Keeps.afterRole | with_reducible apply Keeps.overN | with_reducible apply Keeps.iteElse | (intro; intros) | fail_if_no_progress extract_lets)
theorem startMirror {z c : Chip} (hz : Keeps z c) : Keeps z c.startMirror := by
  unfold Chip.startMirror
  refine ite (overN 256 (onTwin _ hz) (fun t a ha => foldl _ ha (fun b up hb => ?_))) hz
  split
  next l c₁ hsent =>
    exact setItems t up l (foldlPair_eq hsent (fun p it hp => sendAdd hp) hb)
theorem openTick {z c : Chip} (k : Clock) (hz : Keeps z c) : Keeps z (c.openTick k) := by
  unfold Chip.openTick
  repeat' (first | with_reducible assumption | with_reducible exact Keeps.refl _ | with_reducible apply Keeps.dropOpen | with_reducible apply Keeps.blocksRead | with_reducible apply Keeps.blocksTick | with_reducible apply Keeps.audioOpen | with_reducible apply Keeps.leaveBoundary | with_reducible apply Keeps.overN | (intro; intros))
theorem useHeader {z c : Chip} (k : Clock) (d : Nat) (was : Hunt) (h : UpHeader) (hz : Keeps z c) : Keeps z (c.useHeader k d was h) := by
  unfold Chip.useHeader
  repeat' (first | with_reducible assumption | with_reducible exact Keeps.refl _ | with_reducible apply Keeps.loseGone | with_reducible apply Keeps.onD | with_reducible apply Keeps.countUp | with_reducible apply Keeps.setSt | with_reducible apply Keeps.setDropDef | with_reducible apply Keeps.setXcon | with_reducible apply Keeps.slotCause | with_reducible apply Keeps.checkSmlive | with_reducible apply Keeps.rangeHeader | with_reducible apply Keeps.iteElse | (intro; intros) | fail_if_no_progress extract_lets | split)
theorem frameHeader {z c : Chip} (k : Clock) (d : Nat) (h : UpHeader) (hz : Keeps z c) : Keeps z (c.frameHeader k d h) := by
  unfold Chip.frameHeader
  repeat' (first | with_reducible assumption | with_reducible exact Keeps.refl _ | with_reducible apply Keeps.huntWord | with_reducible apply Keeps.useHeader | with_reducible apply Keeps.countUp | with_reducible apply Keeps.onD | with_reducible apply Keeps.iteElse | (intro; intros) | fail_if_no_progress extract_lets)
theorem headerRx {z c : Chip} (k : Clock) (d : Nat) (h : UpHeader) (hz : Keeps z c) : Keeps z (c.headerRx k d h) := by
  unfold Chip.headerRx
  repeat' (first | with_reducible assumption | with_reducible exact Keeps.refl _ | with_reducible apply Keeps.twinHeader | with_reducible apply Keeps.frameHeader | with_reducible apply Keeps.iteElse | (intro; intros))
theorem captureUp {z c : Chip} (k : Clock) (d b typ echo : Nat) (bs : List Byte) (hz : Keeps z c) : Keeps z (c.captureUp k d b typ echo bs) := by
  unfold Chip.captureUp
  repeat' (first | with_reducible assumption | with_reducible exact Keeps.refl _ | with_reducible apply Keeps.takeSource | with_reducible apply Keeps.onM | with_reducible apply Keeps.iteElse | (intro; intros) | fail_if_no_progress extract_lets)
theorem audioRx {z c : Chip} (k : Clock) (d b echo : Nat) (bs : List Byte) (hz : Keeps z c) : Keeps z (c.audioRx k d b echo bs) := by
  unfold Chip.audioRx
  refine ite hz ?_
  split
  next => exact hz
  next e _ =>
    refine ite hz ?_
    have h₁ := captureUp k d b tAudio echo bs hz
    exact ite h₁ (upd h₁ ..)
theorem loseFirst {z c : Chip} (k : Clock) (d kind run : Nat) (sop : Bool) (hz : Keeps z c) : Keeps z (c.loseFirst k d kind run sop) := by
  unfold Chip.loseFirst
  repeat' (first | with_reducible assumption | with_reducible exact Keeps.refl _ | with_reducible apply Keeps.onD | with_reducible apply Keeps.qRewound | with_reducible apply Keeps.iteElse | (intro; intros) | fail_if_no_progress extract_lets | split)
theorem smallPiece {z c : Chip} (k : Clock) (d kind run : Nat) (bs : List Byte) (hz : Keeps z c) : Keeps z (c.smallPiece k d kind run bs) := by
  unfold Chip.smallPiece
  repeat' (first | with_reducible assumption | with_reducible exact Keeps.refl _ | with_reducible apply Keeps.loseRx | with_reducible apply Keeps.loseFirst | with_reducible apply Keeps.onD | with_reducible apply Keeps.rxPiece | with_reducible apply Keeps.iteElse | (intro; intros))
theorem smallRx {z c : Chip} (k : Clock) (d : Nat) (sk : SmallKind) (echo b : Nat) (bs : List Byte) (hz : Keeps z c) :
    Keeps z (c.smallRx k d sk echo b bs) := by
  unfold Chip.smallRx
  refine ite hz ?_
  split
  next => exact hz
  next e _ =>
    refine ite hz ?_
    have h₁ := captureUp k d b (kindOf sk).2 echo bs hz
    exact ite h₁ (smallPiece k d _ _ bs h₁)
theorem beginDown {z c : Chip} (k : Clock) (u t : Nat) (whole good : Bool) (bs : List Byte) (hz : Keeps z c) :
    Keeps z (c.beginDown k u t whole good bs) := by
  unfold Chip.beginDown
  refine ite (refuseFrame k t _ _ _ hz) (ite (refuseFrame k t _ _ _ hz) ?_)
  split
  next c₁ open_ hbegin => exact dropHeads k t _ (onU u _ (beginClient_eq k t false _ _ bs whole good hbegin hz))
theorem growDown {z c : Chip} (k : Clock) (u : Nat) (last good : Bool) (bs : List Byte) (finish : Item → Item) (hz : Keeps z c) :
    Keeps z (c.growDown k u last good bs finish) := by
  unfold Chip.growDown
  split
  next => exact hz
  next it _ =>
    split
    next hgrow => exact growItem_eq k it bs hgrow (onU u _ hz)
    next c₁ it₁ hgrow =>
      have h₁ : Keeps z c₁ := growItem_eq k it bs hgrow (onU u _ hz)
      exact ite (onU u _ h₁) (ite (dropHeads k _ _ (commitItem k _ h₁)) (discardItem k it₁ _ h₁))
theorem loopGfp {z c : Chip} (u : Nat) (f : GfpFrame) (hz : Keeps z c) : Keeps z (c.loopGfp u f).2 := by
  unfold Chip.loopGfp
  repeat' (first | with_reducible assumption | with_reducible exact Keeps.refl _ | with_reducible apply Keeps.onU | with_reducible apply Keeps.iteElse | (intro; intros) | fail_if_no_progress extract_lets | split)
theorem loopGfp_eq {z c y : Chip} (u : Nat) (f : GfpFrame) {w0} (ez : c.loopGfp u f = (w0, y)) (hz : Keeps z c) : Keeps z y := by
  have := Keeps.loopGfp u f hz; rw [ez] at this; exact this
theorem loopEther {z c : Chip} (u : Nat) (f : EtherFrame) (hz : Keeps z c) : Keeps z (c.loopEther u f).2 := by
  unfold Chip.loopEther
  repeat' (first | with_reducible assumption | with_reducible exact Keeps.refl _ | with_reducible apply Keeps.onU | with_reducible apply Keeps.iteElse | (intro; intros) | fail_if_no_progress extract_lets | split)
theorem loopEther_eq {z c y : Chip} (u : Nat) (f : EtherFrame) {w0} (ez : c.loopEther u f = (w0, y)) (hz : Keeps z c) : Keeps z y := by
  have := Keeps.loopEther u f hz; rw [ez] at this; exact this
theorem gfpFirst {z c : Chip} (k : Clock) (u : Nat) (f : GfpFrame) (hz : Keeps z c) : Keeps z (c.gfpFirst k u f) := by
  unfold Chip.gfpFirst
  extract_lets c₁
  have h₁ : Keeps z c₁ := endRx k u cCheck hz
  split
  next g sync cor unc _ =>
    have h₂ := addSt (hecFld APS.HECUNC0 APS.HECUNC1 u) (u / 2) unc (addSt (hecFld APS.HECCOR0 APS.HECCOR1 u) (u / 2) cor
      (apsLfd k (u / 2) (upd h₁ c₁.win c₁.dir c₁.col c₁.que c₁.upl c₁.trib c₁.sched (vupd c₁.gfp u fun _ => g) c₁.aps c₁.mead
        c₁.drop c₁.aud c₁.tim c₁.dpll c₁.twin c₁.pow c₁.qramFixed c₁.done c₁.free)))
    refine ite h₂ (ite (addSt _ _ 1 h₂) (ite (unknownFrame u h₂) ?_))
    split
    next => exact unknownFrame u h₂
    next t _ => exact ite h₂ (beginDown k u t _ _ _ h₂)
theorem gfpRx {z c : Chip} (k : Clock) (u : Nat) (f : GfpFrame) (hz : Keeps z c) : Keeps z (c.gfpRx k u f) := by
  unfold Chip.gfpRx
  refine ite hz ?_
  split
  next g c₁ hloop =>
    have h₁ : Keeps z c₁ := loopGfp_eq u f hloop hz
    split
    · exact gfpFirst k u g h₁
    · exact gfpFirst k u g h₁
    · exact growDown k u false true _ id h₁
    · exact growDown k u true _ _ id h₁
theorem etherFirst {z c : Chip} (k : Clock) (u : Nat) (f : EtherFrame) (good : Bool) (hz : Keeps z c) : Keeps z (c.etherFirst k u f good) := by
  unfold Chip.etherFirst
  repeat' (first | with_reducible assumption | with_reducible exact Keeps.refl _ | with_reducible apply Keeps.endRx | with_reducible apply Keeps.ptpReceive | with_reducible apply Keeps.unknownFrame | with_reducible apply Keeps.beginDown | with_reducible apply Keeps.iteElse | (intro; intros) | fail_if_no_progress extract_lets | split)
theorem etherRx {z c : Chip} (k : Clock) (u : Nat) (f : EtherFrame) (hz : Keeps z c) : Keeps z (c.etherRx k u f) := by
  unfold Chip.etherRx
  refine ite hz ?_
  split
  next g c₁ hloop =>
    have h₁ : Keeps z c₁ := loopEther_eq u f hloop hz
    extract_lets good
    split
    · exact etherFirst k u g good h₁
    · exact etherFirst k u g good h₁
    · exact growDown k u false true _ id h₁
    · exact growDown k u true good _ refcs h₁
theorem dropGfpFirst {z c : Chip} (k : Clock) (d : Nat) (f : GfpFrame) (hz : Keeps z c) : Keeps z (c.dropGfpFirst k d f) := by
  unfold Chip.dropGfpFirst
  extract_lets c₁
  have h₁ : Keeps z c₁ := endUp k d cCheck hz
  split
  next g sync cor unc _ =>
    have h₂ := countUp DROPSTAT.GFPUNC d unc (countUp DROPSTAT.GFPCOR d cor
      (onD d (fun x => { x with gfp := g, anyGfp := x.anyGfp || g == .sync }) h₁))
    refine ite h₂ (ite (countUp _ d 1 h₂) (ite h₂ ?_))
    split
    next => exact countUp _ d 1 h₂
    next t _ =>
      refine ite (refuseFrame k t _ _ _ h₂) (ite (refuseFrame k t _ _ _ h₂) (ite (refuseFrame k t _ _ _ h₂) ?_))
      split
      next c₃ open_ hbegin => exact onD d _ (beginClient_eq k t true _ _ _ _ _ hbegin h₂)
theorem growUp {z c : Chip} (k : Clock) (d : Nat) (last : Bool) (bs : List Byte) (hz : Keeps z c) : Keeps z (c.growUp k d last bs) := by
  unfold Chip.growUp
  split
  next => exact hz
  next it _ =>
    split
    next hgrow => exact growItem_eq k it bs hgrow (onD d _ hz)
    next c₁ it₁ hgrow =>
      have h₁ : Keeps z c₁ := growItem_eq k it bs hgrow (onD d _ hz)
      exact ite (onD d _ h₁) (ite (commitItem k it₁ h₁) (discardItem k it₁ _ h₁))
theorem dropGfpRx {z c : Chip} (k : Clock) (d : Nat) (f : GfpFrame) (hz : Keeps z c) : Keeps z (c.dropGfpRx k d f) := by
  unfold Chip.dropGfpRx
  repeat' (first | with_reducible assumption | with_reducible exact Keeps.refl _ | with_reducible apply Keeps.dropGfpFirst | with_reducible apply Keeps.growUp | with_reducible apply Keeps.iteElse | (intro; intros) | fail_if_no_progress extract_lets | split)
theorem sendItem {z c : Chip} (k : Clock) (u : Nat) (hz : Keeps z c) : Keeps z (c.sendItem k u) := by
  unfold Chip.sendItem
  extract_lets w
  refine ite hz ?_
  split
  next pick c₁ hpick =>
    have h₁ : Keeps z c₁ := schedule_eq w hpick hz
    split
    next => exact h₁
    next t =>
      split
      next it r _ =>
        extract_lets n c₂ c₃
        have h₃ : Keeps z c₃ := setItems t true r (onT t _ (upd h₁ ..))
        exact ite (discardItem k it _ h₃) (ite (discardItem k it _ h₃) (lineItem k w it h₃))
      next => exact h₁
theorem moveBlock {z c : Chip} (k : Clock) (r i j : Nat) (hz : Keeps z c) : Keeps z (c.moveBlock k r i j) := by
  unfold Chip.moveBlock
  extract_lets d b typ
  split
  next src c₁ hsrc =>
    have h₁ : Keeps z c₁ := sourceBlock_eq k _ _ _ typ hsrc hz
    split
    · exact onM _ (writeHalf _ h₁)
    · exact onM _ h₁
theorem groom {z c : Chip} (k : Clock) (hz : Keeps z c) : Keeps z (c.groom k) := by
  unfold Chip.groom
  repeat' (first | with_reducible assumption | with_reducible exact Keeps.refl _ | with_reducible apply Keeps.foldl | with_reducible apply Keeps.moveBlock | (intro; intros) | fail_if_no_progress extract_lets)
theorem setTx {z c : Chip} (w : Consumer) (m : TxMsg) (hz : Keeps z c) : Keeps z (c.setTx w m) := by
  unfold Chip.setTx
  repeat' (first | with_reducible assumption | with_reducible exact Keeps.refl _ | with_reducible apply Keeps.onU | with_reducible apply Keeps.onD | (intro; intros) | fail_if_no_progress extract_lets | split)
theorem beginItem {z c : Chip} (k : Clock) (q : Nat) (w : Consumer) (hz : Keeps z c) : Keeps z (c.beginItem k q w) := by
  unfold Chip.beginItem
  repeat' (first | with_reducible assumption | with_reducible exact Keeps.refl _ | with_reducible apply Keeps.onQ | with_reducible apply Keeps.setTx | with_reducible apply Keeps.iteElse | (intro; intros) | fail_if_no_progress extract_lets | split)
theorem finishItem {z c : Chip} (k : Clock) (q : Nat) (w : Consumer) (hz : Keeps z c) : Keeps z (c.finishItem k q w) := by
  unfold Chip.finishItem
  repeat' (first | with_reducible assumption | with_reducible exact Keeps.refl _ | with_reducible apply Keeps.setTx | with_reducible apply Keeps.srcEvent | with_reducible apply Keeps.qAbandon | with_reducible apply Keeps.qFinish | with_reducible apply Keeps.iteElse | with_reducible apply Keeps.upd | (intro; intros) | fail_if_no_progress extract_lets)
end Keeps
end Sys2Proof.Machine.Chip
end

section
/-! PROOFS. Commands that keep configuration, snapshot, start-up state and port: those on the present edge (`State.Holds`), and those for
which ordinary edges may pass first, from the boundary's own work on (`State.Runs`). -/

namespace Sys2Proof.Machine
open Sys2Proof Sys2Proof.Machine.Chip

namespace State

/-- The boundary's own work comes about, where it is still to do, ordinary edges pass, and nothing but block state moves. -/
def Passes (s t : State) : Prop := ∃ n, (boundaryDone^[n] s).Runs t

theorem Holds.refl (s : State) : s.Holds s := ⟨rfl, rfl, .refl _⟩
theorem Holds.trans {s t u : State} (h : s.Holds t) (g : t.Holds u) : s.Holds u := by
  obtain ⟨hp, hk, hc⟩ := h
  obtain ⟨gp, gk, gc⟩ := g
  exact ⟨gp.trans hp, gk.trans hk, hc.trans gc⟩
theorem Holds.runs {s t : State} (h : s.Holds t) : s.Runs t := by
  obtain ⟨hp, hk, hc⟩ := h
  exact ⟨hp, by rw [hk], by rw [hk], by rw [hk], hc⟩
theorem Runs.refl (s : State) : s.Runs s := (Holds.refl s).runs
theorem Runs.trans {s t u : State} (h : s.Runs t) (g : t.Runs u) : s.Runs u := by
  obtain ⟨hp, ht, hs, he, hc⟩ := h
  obtain ⟨gp, gt, gs, ge, gc⟩ := g
  exact ⟨gp.trans hp, gt.trans ht, gs.trans hs, he.trans ge, hc.trans gc⟩

/-- What a command does on the present edge, where it keeps what `Chip.Keeps` names. -/
theorem Holds.act (s : State) {f : Clock → Chip → Chip} (hf : ∀ k c, Keeps c (f k c)) : s.Holds (s.act f) :=
  ⟨s.act_pending f, s.act_clk f, s.act_keeps hf⟩
theorem Holds.actBoundary (s : State) {f : Clock → Chip → Chip} (hf : ∀ k c, Keeps c (f k c)) : s.Holds (s.actBoundary f) :=
  ⟨s.actBoundary_pending f, s.actBoundary_clk f, s.actBoundary_keeps hf⟩
theorem Holds.ite {s t u : State} {p : Prop} [Decidable p] (h : s.Holds t) (g : s.Holds u) : s.Holds (if p then t else u) := by
  split <;> assumption

theorem Passes.ite {s t u : State} {p : Prop} [Decidable p] (h : s.Passes t) (g : s.Passes u) : s.Passes (if p then t else u) := by
  split <;> assumption
theorem Passes.iteOf {s t u : State} {p : Prop} [Decidable p] (h : p → s.Passes t) (g : s.Passes u) :
    s.Passes (if p then t else u) := by
  split
  · exact h ‹_›
  · exact g
theorem Passes.refl (s : State) : s.Passes s := ⟨0, .refl s⟩
theorem Passes.trans_runs {s t u : State} (h : s.Passes t) (g : t.Runs u) : s.Passes u := h.imp fun _ h => h.trans g
theorem Passes.act {s t : State} (h : s.Passes t) {f : Clock → Chip → Chip} (hf : ∀ k c, Keeps c (f k c)) : s.Passes (t.act f) :=
  h.trans_runs (Holds.act t hf).runs
theorem Passes.withChip {s t : State} (h : s.Passes t) {c : Chip} (hc : Keeps t.chip c) : s.Passes { t with chip := c } :=
  h.trans_runs ⟨rfl, rfl, rfl, Nat.le_refl _, hc⟩
theorem Passes.of_boundaryDone {s t : State} (h : s.boundaryDone.Passes t) : s.Passes t := by
  obtain ⟨n, h⟩ := h
  exact ⟨n + 1, h⟩
theorem Holds.passes {s t : State} (h : s.Holds t) : s.Passes t := ⟨0, h.runs⟩
theorem Passes.runs {s t : State} (h : s.Passes t) (hs : s.settled) : s.Runs t := by
  obtain ⟨n, h⟩ := h
  rwa [Function.iterate_fixed hs.2] at h

/-! ### Passing edges -/

/-- What the edges of a tick that pass do to the blocks. -/
theorem edgesPass_keeps {z c : Chip} (k : Clock) (h : Keeps z c) :
    Keeps z ((((((c.endWakes k.evc).settle k).writeRecords k).linesPass k).framesPass k).audioPass k) :=
  (((((h.endWakes _).settle k).writeRecords k).linesPass k).framesPass k).audioPass k

theorem depart_runs (s : State) : s.boundaryDone.Runs s.depart := by
  unfold depart
  split
  · exact ⟨rfl, rfl, rfl, Nat.le_refl _, (Keeps.ite ((Keeps.refl _).openTick _) (.refl _)).leaveEdge _⟩
  next h =>
    have : s.boundaryDone = s := by unfold boundaryDone; rw [if_neg (fun e => h e.1)]
    rw [this]; exact .refl s
theorem elapse_passes (s : State) (n : Nat) : s.Passes (s.elapse n) := by
  by_cases hn : n = 0
  · rw [hn, elapse_zero]; exact .refl s
  · refine .of_boundaryDone ⟨0, s.depart_runs.trans ⟨elapse_pending _ _ |>.trans s.depart_pending.symm, ?_, ?_, ?_, ?_⟩⟩
    · rw [elapse_clk s n hn, Clock.elapse_ticks]
    · rw [elapse_clk s n hn, Clock.elapse_sec]
    · rw [elapse_clk s n hn, Clock.elapse_evc]; exact Nat.le_add_right _ _
    · unfold elapse
      rw [if_neg hn]
      dsimp only
      exact edgesPass_keeps _ (.refl _)
theorem toEvc_passes (s : State) (e : Nat) : s.Passes (s.toEvc e) := s.elapse_passes _
theorem toIdx_passes (s : State) (i : Nat) : s.Passes (s.toIdx i) := s.elapse_passes _

theorem actAt_passes (s : State) (i : Nat) {f : Clock → Chip → Chip} (hf : ∀ k c, Keeps c (f k c)) : s.Passes (s.actAt i f) :=
  .ite ((s.toIdx_passes i).withChip (hf _ _)) (.refl s)
theorem inWindow_passes (s : State) (lo hi code : Nat) {f : Clock → Chip → Chip} (hf : ∀ k c, Keeps c (f k c)) :
    s.Passes (s.inWindow lo hi code f) := by
  refine .ite (.refl s) (s.actAt_passes lo fun k c => .ite (.refl c) ?_)
  obtain ⟨hst, hl, hsn, hse, hb, hp, hw⟩ := hf k c
  exact ⟨hst, hl, hsn, hse, hb, hp, hw⟩

theorem applyStep_keeps (s : State) : Keeps s.chip s.applyStep.chip := by
  unfold applyStep
  split
  · exact .refl _
  · extract_lets rem t k c₁ c₂ c₃ c₄ c₅
    have h₂ : Keeps s.chip c₂ := (((Keeps.refl s.chip).onTime _ |>.addSt _ _ _).setSt _ _ _).setSt _ _ _
    have h₃ : Keeps s.chip c₃ := h₂.cause _ _ _ _
    have h₄ : Keeps s.chip c₄ := .overN 8 h₃ fun i _ ha => .iteElse ha fun ha => ha.jumpOut _ _ _ i
    have h₅ : Keeps s.chip c₅ := .overN 9 h₄ fun i _ ha => ha.onOut i _
    exact h₅
theorem stepBoundary_keeps (s : State) : Keeps s.chip s.stepBoundary.chip := by
  unfold stepBoundary
  split
  · dsimp only
    split
    · exact s.applyStep_keeps.secondWork _
    · exact s.applyStep_keeps
  · exact .refl _

/-! ### Commands with a form of their own -/

theorem edge_passes (s : State) (o : Nat) : s.Passes (s.edge o) := by
  unfold edge
  refine .ite (.refl s) (.of_boundaryDone ?_)
  dsimp only
  split
  · exact .refl _
  · refine .ite (.refl _) ?_
    have hrun := elapse_passes s.boundaryDone
    refine .ite ((hrun _).withChip ?_) (.ite ((hrun _).withChip ?_) (.refl _))
    · exact ((Keeps.refl _).endPulse _ _).makeEdge _ _ _
    · exact (((Keeps.refl _).endPulse _ _).onOut _ _ |>.syncOut _).setLate _ _

end State
end Sys2Proof.Machine
namespace Sys2Proof
/-- Commands of the uplinks, the drops, the meadow and the audio ports on the present edge. -/
def Instr.lineEdge : Instr → Bool
  | .otnFrame .. | .gfpFrameRx .. | .ethernetFrameRx .. | .upstreamItemSent _ | .upstreamHeaderRx .. | .audioBlockRx ..
  | .smallBlockMessage .. | .managementMessage .. | .dropGfpFrame .. | .answerRx .. | .scrubberRead .. | .lockBreak ..
  | .defaultTargetAccess .. | .slaveRxFrame .. | .slaveTxFrameStart .. | .blockLockChange .. | .holdOffExpiry .. | .selectorMove _
  | .fopnr _ | .slotMapOffer _ | .applyNext _ | .generationApply _ | .smflt _ | .silentEnd .. | .quietecEnd _ | .prepEnd _
  | .callTimeout _ | .syncTimeout _ | .selectEnd _ | .dropUp _ | .retry _ | .retrain _ | .dropOff _ => true
  | _ => false
/-- Commands of the heath's check, the queues, time, the collector, the twin engine and the power manager on the present edge that
leave configuration, snapshot, start-up state and port alone. -/
def Instr.coreEdge : Instr → Bool
  | .budget _ | .heathScrub .. | .downwardItemConsume .. | .ptpTransmit | .referencePulse .. | .dpllWaitToRestoreEnd _
  | .switchComplete .. | .faultEvent .. | .countWindowTumble _ | .automaticRecovery | .injectionLand _ | .linkUp _ | .linkDown
  | .laneMarker .. | .tickRecord _ | .add .. | .retire .. | .cut .. | .armed | .tentativeClaimLost | .roleClash | .peerClaimLoss
  | .litStepDown | .claimResume | .handover | .handoverTimeout | .releaseNotice | .handoverRequest | .fullCopyRequest
  | .scheduledWake _ | .powerStateEntry .. => true
  | _ => false
end Sys2Proof

namespace Sys2Proof.Machine
open Sys2Proof Sys2Proof.Machine.Chip

/-! ### Commands on the present edge -/

theorem Chip.Keeps.slaveRxFrame {z c : Chip} (k : Clock) (p periods : Nat) (frame : List Bool) (hz : Keeps z c) :
    Keeps z (c.slaveRx k p periods frame) := by
  unfold Chip.slaveRx
  extract_lets x good c₁
  have h₁ : Keeps z c₁ := hz.sawStart k p true good
  exact .ite hz (.ite h₁ (.ite (.ite (h₁.slip _ _ _ _) h₁) ((h₁.onSide _ _ _).syncSide _ _)))

theorem execDefaultTargetAccess_holds (m : Fin 8) (wr : Bool) (s : State) :
    ∃ t, execDefaultTargetAccess m wr s = .next t ∧ s.Holds t := by
  refine ⟨_, rfl, .act s fun k c => Keeps.srcEvent k _ ?_⟩
  exact (Keeps.refl c).onM _

theorem execFaultEvent_holds (srcs : List (Fin 384)) (present : Bool) (s : State) :
    ∃ t, execFaultEvent srcs present s = .next t ∧ s.Holds t := by
  refine ⟨_, rfl, .act s fun k c => .foldl _ (.refl c) fun a x ha => ?_⟩
  exact .ite ha (.ite (ha.setCond k x _) (.ite (ha.srcEvent k x) ha))

theorem execInjectionLand_holds (addr : Nat) (s : State) : ∃ t, execInjectionLand addr s = .next t ∧ s.Holds t := by
  refine ⟨_, rfl, .act s fun k c => ?_⟩
  split
  · refine .ite (.refl c) ?_
    have h := (Keeps.refl c).injLanded k
    refine .ite (h _ |>.onM _) (.ite (.onHeath (h _) fun _ => ⟨rfl, rfl, rfl, rfl, rfl⟩) (.ite (h _ |>.onQ _ _) ?_))
    exact .ite (.ite ((h _ |>.srcEvent _ _).loseGroup _ _) (h _)) (h _ |>.srcEvent _ _)
  · exact .refl c

theorem execReferencePulse_holds (ref7 : Bool) (ago oscNs : Nat) (s : State) :
    ∃ t, execReferencePulse ref7 ago oscNs s = .next t ∧ s.Holds t :=
  ⟨_, rfl, .act s fun k c => .ite (.refl c) ((((Keeps.refl c).onRef _ _).setRefDefs k _ _).deliver _ _)⟩

theorem execDpllWaitToRestoreEnd_holds (ch : Fin 2) (s : State) : ∃ t, execDpllWaitToRestoreEnd ch s = .next t ∧ s.Holds t := by
  refine ⟨_, rfl, .ite (.refl s) (.act s fun k c => ?_)⟩
  split
  · refine .ite (.refl c) ?_
    have h := (Keeps.refl c).cause k .dpll ch 64
    exact .ite (h.beginSwitch k _ _) ((h.onCh _ _).syncCh _ _)
  · exact .refl c

theorem execRetrain_holds (d : Fin 96) (s : State) : ∃ t, execRetrain d s = .next t ∧ s.Holds t :=
  ⟨_, rfl, .actBoundary s fun k c => .ite (((Keeps.refl c).enterSilent k d).dropAllHeads k) (.refl c)⟩

theorem execCut_holds (seq lineTick idx : Nat) (s : State) : ∃ t, execCut seq lineTick idx s = .next t ∧ s.Holds t := by
  refine ⟨_, rfl, .act s fun k c => .ite ?_ (.refl c)⟩
  refine Keeps.setHorizon k _ ?_
  split
  · exact .ite (((Keeps.refl c).sawGap k _).onTwin _) (.refl c)
  · exact .refl c

theorem execHandover_holds (s : State) : ∃ t, execHandover s = .next t ∧ s.Holds t := by
  refine ⟨_, rfl, .actBoundary s fun k c => ?_⟩
  split
  · exact .ite (.ite ((((Keeps.refl c).becomeShadow k).addSt _ _ _).settleReq k _) (.refl c)) (.ite ((Keeps.refl c).onTwin _) (.refl c))
  · exact .refl c

/-- A command of the uplinks, drops, meadow or audio ports on the present edge moves nothing but block state. -/
theorem exec_holds_of_lineEdge (s : State) : ∀ i : Instr, i.lineEdge = true → ∃ t, exec i s = .next t ∧ s.Holds t
  | .otnFrame u f, _ => ⟨_, rfl, .act s fun k c => (Keeps.refl c).otnFrame k u f⟩
  | .gfpFrameRx u f, _ => ⟨_, rfl, .act s fun k c => (Keeps.refl c).gfpRx k u f⟩
  | .ethernetFrameRx u f, _ => ⟨_, rfl, .act s fun k c => (Keeps.refl c).etherRx k u f⟩
  | .upstreamItemSent u, _ => ⟨_, rfl, .act s fun k c => (Keeps.refl c).sendItem k u⟩
  | .upstreamHeaderRx d h, _ => ⟨_, rfl, .act s fun k c => (Keeps.refl c).headerRx k d h⟩
  | .audioBlockRx .., _ => ⟨_, rfl, .act s fun k c => (Keeps.refl c).audioRx k _ _ _ _⟩
  | .smallBlockMessage .., _ => ⟨_, rfl, .act s fun k c => .foldl _ (.refl c) fun _ _ ha => ha.smallRx k _ _ _ _ _⟩
  | .managementMessage .., _ =>
    ⟨_, rfl, .act s fun k c => .ite (.foldl _ (.refl c) fun _ _ ha => ha.mgmtRx k _ _) (.refl c)⟩
  | .dropGfpFrame d f, _ => ⟨_, rfl, .act s fun k c => (Keeps.refl c).dropGfpRx k d f⟩
  | .answerRx .., _ => ⟨_, rfl, .act s fun k c => (Keeps.refl c).answerRx k _ _ _⟩
  | .scrubberRead .., _ => ⟨_, rfl, .act s fun k c => (Keeps.refl c).scrub k _ _ _⟩
  | .lockBreak .., _ => ⟨_, rfl, .act s fun k c => (Keeps.refl c).breakLock k _ _⟩
  | .defaultTargetAccess m wr, _ => execDefaultTargetAccess_holds m wr s
  | .slaveRxFrame p n frame, _ => ⟨_, rfl, .act s fun k c => (Keeps.refl c).slaveRxFrame k p n frame⟩
  | .slaveTxFrameStart p n, _ => ⟨_, rfl, .act s fun k c => (Keeps.refl c).slaveTx k p n⟩
  | .blockLockChange .., _ => ⟨_, rfl, .act s fun k c => (Keeps.refl c).pcsEvent k _ _⟩
  | .holdOffExpiry .., _ => ⟨_, rfl, .act s fun k c => by
      split
      · exact .ite (((Keeps.refl c).onP _ _).apsEval k _) (.refl c)
      · exact .refl c⟩
  | .selectorMove _, _ => ⟨_, rfl, .actBoundary s fun k c => .ite (.refl c) ((Keeps.refl c).apsMove k _ _)⟩
  | .fopnr _, _ => ⟨_, rfl, .act s fun k c => by
      split
      · exact .ite (((Keeps.refl c).setSt _ _ _).cause k _ _ _) (.refl c)
      · exact .refl c⟩
  | .slotMapOffer _, _ => ⟨_, rfl, .actBoundary s fun k c =>
      .ite ((((Keeps.refl c).haltMch k _).onD _ _).syncSlot _) (.refl c)⟩
  | .applyNext _, _ => ⟨_, rfl, .actBoundary s fun k c => .ite (((Keeps.refl c).onD _ _).syncSlot _) (.refl c)⟩
  | .generationApply _, _ => ⟨_, rfl, .actBoundary s fun k c => .ite (((Keeps.refl c).applyGen k _).haltGone k _) (.refl c)⟩
  | .smflt _, _ => ⟨_, rfl, .actBoundary s fun k c => .ite ((Keeps.refl c).setSmflt k _ _) (.refl c)⟩
  | .silentEnd .., _ => ⟨_, rfl, .actBoundary s fun k c => .ite (((Keeps.refl c).setSt _ _ _).setPs k _ _) (.refl c)⟩
  | .quietecEnd _, _ | .prepEnd _, _ => ⟨_, rfl, .actBoundary s fun k c => .ite ((Keeps.refl c).setPs k _ _) (.refl c)⟩
  | .callTimeout _, _ | .syncTimeout _, _ => ⟨_, rfl, .actBoundary s fun k c => .ite ((Keeps.refl c).trainFail k _) (.refl c)⟩
  | .selectEnd _, _ => ⟨_, rfl, .actBoundary s fun _ c => .ite ((Keeps.refl c).onD _ _) (.refl c)⟩
  | .dropUp _, _ => ⟨_, rfl, .actBoundary s fun k c => .ite ((Keeps.refl c).enterUp k _) (.refl c)⟩
  | .retry _, _ => ⟨_, rfl, .actBoundary s fun k c => .ite ((Keeps.refl c).enterSilent k _) (.refl c)⟩
  | .retrain d, _ => execRetrain_holds d s
  | .dropOff _, _ => ⟨_, rfl, .actBoundary s fun k c =>
      .ite ((((Keeps.refl c).enterOff k _).disposeDrop k _).dropAllHeads k) (.refl c)⟩

/-- Another command of the blocks on the present edge moves nothing but block state. -/
theorem exec_holds_of_coreEdge (s : State) : ∀ i : Instr, i.coreEdge = true → ∃ t, exec i s = .next t ∧ s.Holds t
  | .budget _, _ => ⟨_, rfl, .act s fun k c => (Keeps.refl c).budget k _⟩
  | .heathScrub .., _ => ⟨_, rfl, .act s fun k c => (Keeps.refl c).heathCheck k _ _ _⟩
  | .downwardItemConsume q done, _ => ⟨_, rfl, .act s fun k c => by
      split
      · exact .ite ((Keeps.refl c).finishItem k q _) ((Keeps.refl c).beginItem k q _)
      · exact .refl c⟩
  | .ptpTransmit, _ => ⟨_, rfl, .act s fun k c => (Keeps.refl c).ptpTransmit k⟩
  | .referencePulse ref7 ago oscNs, _ => execReferencePulse_holds ref7 ago oscNs s
  | .dpllWaitToRestoreEnd ch, _ => execDpllWaitToRestoreEnd_holds ch s
  | .switchComplete .., _ =>
    ⟨_, rfl, .ite (.refl s) (.act s fun k c => .ite ((Keeps.refl c).completeSwitch k _ _) (.refl c))⟩
  | .faultEvent srcs present, _ => execFaultEvent_holds srcs present s
  | .countWindowTumble _, _ => ⟨_, rfl, .actBoundary s fun k c => (Keeps.refl c).tumble k _⟩
  | .automaticRecovery, _ => ⟨_, rfl, .actBoundary s fun k c => .ite ((Keeps.refl c).recover k) (.refl c)⟩
  | .injectionLand addr, _ => execInjectionLand_holds addr s
  | .linkUp _, _ => ⟨_, rfl, .act s fun k c => (Keeps.refl c).linkUp k _⟩
  | .linkDown, _ => ⟨_, rfl, .act s fun k c => .ite (.refl c) (((Keeps.refl c).onTwin _).linkDown k)⟩
  | .laneMarker .., _ => ⟨_, rfl, .act s fun k c => (Keeps.refl c).laneMarker k _ _ _ _ _ _ _⟩
  | .tickRecord _, _ => ⟨_, rfl, .act s fun k c => (Keeps.refl c).tickRecord k _⟩
  | .add .., _ => ⟨_, rfl, .act s fun k c => .ite ((Keeps.refl c).addDesc k _) (.refl c)⟩
  | .retire .., _ => ⟨_, rfl, .act s fun k c => .ite ((Keeps.refl c).retireDesc k _) (.refl c)⟩
  | .cut seq lineTick idx, _ => execCut_holds seq lineTick idx s
  | .armed, _ => ⟨_, rfl, .act s fun k c => .ite ((((Keeps.refl c).setSt _ _ _).cause k _ _ _).syncTwin k) (.refl c)⟩
  | .tentativeClaimLost, _ => ⟨_, rfl, .act s fun k c => by
      split
      · exact .ite (.refl c) ((Keeps.refl c).claimLost k)
      · exact .refl c⟩
  | .roleClash, _ => ⟨_, rfl, .act s fun k c =>
      have h := ((Keeps.refl c).setPeer true).srcEvent k 278
      .ite (.ite ((h.onTwin _).reshade k _) h) (.refl c)⟩
  | .peerClaimLoss, _ => ⟨_, rfl, .act s fun k c =>
      .ite (((((Keeps.refl c).setPeer false).onTwin _).syncClaim k).wakeOutputs k) (.refl c)⟩
  | .litStepDown, _ => ⟨_, rfl, .actBoundary s fun k c => .ite (((Keeps.refl c).setPeer true).becomeShadow k) (.refl c)⟩
  | .claimResume, _ => ⟨_, rfl, .act s fun k c => by
      split
      · exact .ite ((((Keeps.refl c).setPeer false).onTwin _).syncClaim k) (.refl c)
      · exact .refl c⟩
  | .handover, _ => execHandover_holds s
  | .handoverTimeout, _ => ⟨_, rfl, .act s fun k c => by
      split
      · exact .ite ((Keeps.refl c).settleReq k _) (.refl c)
      · exact .refl c⟩
  | .releaseNotice, _ | .handoverRequest, _ | .fullCopyRequest, _ =>
    ⟨_, rfl, .act s fun _ c => .ite ((Keeps.refl c).onTwin _) (.refl c)⟩
  | .scheduledWake _, _ => ⟨_, rfl, .act s fun k c => .ite (.refl c) ((Keeps.refl c).beginWake _ _)⟩
  | .powerStateEntry .., _ => ⟨_, rfl, .act s fun k c => by
      split
      · exact (Keeps.refl c).enterState k _ _
      · exact (Keeps.refl c).enterState k _ _
      · exact (Keeps.refl c).enterState k _ _
      · exact .refl c⟩

/-! ### Commands for which edges may pass -/

theorem Clock.idx_of_mayslew {k : Clock} {add2 : Bool} (h : k.mayslew add2 = true) : 16 ≤ k.idx := by
  simp only [Clock.mayslew, Bool.and_eq_true, decide_eq_true_eq] at h
  exact h.1.2
theorem Clock.evc_le_slew (k : Clock) (add2 : Bool) : k.evc ≤ (k.slew add2).evc := by
  cases add2
  · exact Nat.le_refl _
  · exact Nat.le_add_right _ 2

theorem execSlewEdge_passes (add2 : Bool) (s : State) : ∃ t, execSlewEdge add2 s = .next t ∧ s.Passes t := by
  refine ⟨_, rfl, State.Passes.iteOf (fun h => ?_) (.refl s)⟩
  · have hmay : s.clk.mayslew add2 = true := (Bool.and_eq_true _ _ |>.mp (Bool.and_eq_true _ _ |>.mp h).1).2
    have hdone : s.boundaryDone = s := s.boundaryDone_of_idx (by have := Clock.idx_of_mayslew hmay; omega)
    have hdep : Keeps s.chip s.depart.chip := by
      obtain ⟨-, -, -, -, hc⟩ := s.depart_runs
      rwa [hdone] at hc
    have hpass := State.edgesPass_keeps (s.clk.slew add2) hdep
    refine ⟨0, rfl, ?_, ?_, s.clk.evc_le_slew add2, .ite hpass (.ite ((hpass.onTime _).cause _ _ _ _) (hpass.onTime _))⟩
    · cases add2 <;> rfl
    · cases add2 <;> rfl

theorem execReArmGapEnd_passes (s : State) : ∃ t, execReArmGapEnd s = .next t ∧ s.Passes t := by
  refine ⟨_, rfl, ?_⟩
  split
  · have hmove : ∀ e, s.Passes (if s.chip.running = true then s.toEvc e else s) := fun e => .ite (s.toEvc_passes e) (.refl s)
    exact .ite ((hmove _).act fun k c => (Keeps.refl c).onWin _) (hmove _)
  · exact .refl s

theorem execItemCommit_passes (q : Fin 8) (kind : Fin 16) (unit : Byte) (s : State) :
    ∃ t, execItemCommit q kind unit s = .next t ∧ s.Passes t := by
  refine ⟨_, rfl, ?_⟩
  split
  · split
    · exact (State.Passes.ite (s.toEvc_passes _) (.refl s)).act fun k c => .ite ((Keeps.refl c).qCommit k _ _ _) (.refl c)
    · exact .refl s
  · exact .refl s

theorem execTentativeClaimEnd_passes (peerHigh : Bool) (s : State) : ∃ t, execTentativeClaimEnd peerHigh s = .next t ∧ s.Passes t := by
  refine ⟨_, rfl, ?_⟩
  split
  · exact (State.Passes.ite (s.toEvc_passes _) (.refl s)).act fun k c => .ite ((Keeps.refl c).claimEnd k _) (.refl c)
  · exact .refl s

theorem execWaitToRestoreEnd_passes (p : Fin 2) (s : State) : ∃ t, execWaitToRestoreEnd p s = .next t ∧ s.Passes t := by
  refine ⟨_, rfl, .ite (.refl s) (s.actAt_passes _ fun k c => ?_)⟩
  split
  · exact .ite ((((Keeps.refl c).onP _ _).cause k _ _ _).apsSync k _) (.refl c)
  · exact .refl c

/-- A command of the blocks, but STEP, lets edges pass at most, after the boundary's own work. -/
theorem exec_passes_of_not_onEdge (s : State) : ∀ i : Instr, i.lineSide = true → i.lineEdge = false → i.coreEdge = false → i ≠ .step →
    ∃ t, exec i s = .next t ∧ s.Passes t
  | .captureEvent .., _, _, _, _ =>
    ⟨_, rfl, .of_boundaryDone (State.Passes.refl s.boundaryDone |>.act fun k c => (Keeps.refl c).capture k _ _)⟩
  | .activeEdge o, _, _, _, _ => ⟨_, rfl, s.edge_passes o⟩
  | .ppsPulse, _, _, _, _ => ⟨_, rfl, s.edge_passes ppsOut⟩
  | .pulseEnd _, _, _, _, _ => ⟨_, rfl, .ite ((s.toEvc_passes _).act fun k c => (Keeps.refl c).endPulse k _) (.refl s)⟩
  | .slewEdge add2, _, _, _, _ => execSlewEdge_passes add2 s
  | .reArmGapEnd, _, _, _, _ => execReArmGapEnd_passes s
  | .itemCommit q kind unit, _, _, _, _ => execItemCommit_passes q kind unit s
  | .tentativeClaimEnd peerHigh, _, _, _, _ => execTentativeClaimEnd_passes peerHigh s
  | .commitVerdict, _, _, _, _ => ⟨_, rfl, s.actAt_passes _ fun k c => (Keeps.refl c).takeVerdict k⟩
  | .probeJudgement .., _, _, _, _ => ⟨_, rfl, s.actAt_passes _ fun _ c => .ite ((Keeps.refl c).onD _ _) (.refl c)⟩
  | .waitToRestoreEnd p, _, _, _, _ => execWaitToRestoreEnd_passes p s
  | .nightWake, _, _, _, _ => ⟨_, rfl, .ite (s.actAt_passes _ fun k c => (Keeps.refl c).nightWake k) (.refl s)⟩
  | .darkWake, _, _, _, _ => ⟨_, rfl, .ite (s.actAt_passes _ fun k c => (Keeps.refl c).darkWake k) (.refl s)⟩
  | .uplinkIntegration u t, _, _, _, _ => ⟨_, rfl, s.inWindow_passes _ _ _ fun k c => (Keeps.refl c).integrate k u t⟩
  | .schedulerCreditRefill, _, _, _, _ =>
    ⟨_, rfl, s.inWindow_passes _ _ _ fun _ c => .overN 256 (.refl c) fun _ _ ha => ha.onT _ _⟩
  | .dropDefectJudgement d t, _, _, _, _ => ⟨_, rfl, s.inWindow_passes _ _ _ fun k c => (Keeps.refl c).judgeDrop k d t⟩
  | .groomingMoves, _, _, _, _ => ⟨_, rfl, s.inWindow_passes _ _ _ fun k c => (Keeps.refl c).groom k⟩
  | .level, _, _, _, _ =>
    ⟨_, rfl, s.inWindow_passes _ _ _ fun k c => .overN 12 (.refl c) fun _ _ ha => .ite (ha.cause k _ _ _) ha⟩
  | .audioExchange pins, _, _, _, _ => ⟨_, rfl, s.inWindow_passes _ _ _ fun k c => (Keeps.refl c).exchange k pins⟩
  | .loopFilterUpdate t, _, _, _, _ => ⟨_, rfl, s.inWindow_passes _ _ _ fun k c => (Keeps.refl c).loopUpdate k t⟩
  | .powerPlan tsens vin vio pin regFlt, _, _, _, _ =>
    ⟨_, rfl, s.inWindow_passes _ _ _ fun k c => (Keeps.refl c).powerPlan k tsens vin vio pin regFlt⟩
  | .step, _, _, _, h => absurd rfl h

/-- A command of the blocks, but STEP, brings about the boundary's own work at most, lets edges pass, and moves nothing but block
state. -/
theorem exec_passes (s : State) (i : Instr) (hline : i.lineSide = true) (hstep : i ≠ .step) : ∃ t, exec i s = .next t ∧ s.Passes t := by
  by_cases hl : i.lineEdge = true
  · obtain ⟨t, ht, hh⟩ := exec_holds_of_lineEdge s i hl
    exact ⟨t, ht, hh.passes⟩
  · by_cases hc : i.coreEdge = true
    · obtain ⟨t, ht, hh⟩ := exec_holds_of_coreEdge s i hc
      exact ⟨t, ht, hh.passes⟩
    · exact exec_passes_of_not_onEdge s i hline (by simpa using hl) (by simpa using hc) hstep

/-- STEP on a superframe boundary, after the boundary's reset actions, commit and revert. -/
theorem execStep_keeps (s : State) : ∃ t, execStep s = .next t ∧
    (Keeps s.chip t.chip ∨ s.chip.running = true ∧ s.clk.idx = 0 ∧ Keeps (s.chip.boundaryWork s.clk) t.chip) := by
  refine ⟨_, rfl, ?_⟩
  split
  next h =>
    have hidx : s.clk.idx = 0 := by
      simp only [Clock.superframe, Bool.and_eq_true, beq_iff_eq] at h
      exact h.1
    by_cases hrun : s.chip.running = true
    · rw [if_pos hrun]
      exact .inr ⟨hrun, hidx, State.stepBoundary_keeps { s with chip := s.chip.boundaryWork s.clk }⟩
    · rw [if_neg hrun]
      exact .inl s.stepBoundary_keeps
  · exact .inl (.refl _)

/-! ### The statement -/

/-- Settles O8: where nothing of a boundary is still to do, a command of the blocks only lets edges pass and acts on the blocks, and
every operation of the blocks keeps configuration, snapshot, start-up state and port.  It is a frame over settled states, for the
commands named by `Instr.lineSide`. -/
theorem configurationHolds : Obligations.ConfigurationHolds := by
  unfold Obligations.ConfigurationHolds
  intro i s t hline hset hexec
  by_cases hstep : i = .step
  · subst hstep
    obtain ⟨u, hu, hk⟩ := execStep_keeps s
    rw [show exec .step s = .next u from hu] at hexec
    cases hexec
    rcases hk with hk | ⟨-, hidx, hk⟩
    · exact hk
    · rwa [hset.1 hidx] at hk
  · obtain ⟨u, hu, hp⟩ := exec_passes s i hline hstep
    rw [hu] at hexec
    cases hexec
    obtain ⟨-, -, -, -, hk⟩ := hp.runs hset
    exact hk

end Sys2Proof.Machine
end

section
/-! PROOFS. Every command keeps every bank of heath words in canonical form: the operations of the port, commits, mirrors, resets and role
changes that are no `Chip.Keeps` write banks by words, filter them, or copy one into another. -/

namespace Sys2Proof.Machine
open Sys2Proof

/-! ### Banks -/

namespace Bank

theorem wf_filter (b : Bank) (p : Nat × Word → Bool) (h : b.wf = true) : Bank.wf (b.filter p) = true := wfFrom_filter b none p h
theorem wf_foldl_write {α : Type} (l : List α) (b : Bank) (a : α → Nat) (v : α → Word) (p : α → Bool) (h : b.wf = true) :
    (l.foldl (fun b x => if p x = true then b.write (a x) (v x) else b) b).wf = true := by
  induction l generalizing b with
  | nil => exact h
  | cons x l ih =>
    refine ih _ ?_
    dsimp only
    split
    · exact wf_write _ _ _ h
    · exact h

end Bank

theorem wf_keepTabs (b : Bank) (p : Nat → Bool) (h : b.wf = true) : (keepTabs b p).wf = true := b.wf_filter _ h

theorem wf_withRuns (b : Bank) (runs : List BankRun) (h : b.wf = true) : (withRuns b runs).wf = true := by
  unfold withRuns
  induction runs generalizing b with
  | nil => exact h
  | cons r runs ih =>
    refine ih _ ?_
    dsimp only
    split
    · split
      · exact Bank.wf_write _ _ _ h
      · exact h
    · exact h

theorem wf_warmStatus (b : Bank) (h : b.wf = true) : (Chip.warmStatus b).wf = true := by
  refine Bank.wf_setFld _ _ _ _ (overN_keeps (fun n : Bank => n.wf = true) 24 _ ?_ _ (b.wf_filter _ h))
  exact fun g n hn => Bank.wf_setFld _ _ _ _ hn

theorem wf_copied (c : Chip) (h : c.heath.wf) : c.copied.wf = true := by
  have := Bank.wf_foldl_write c.heath.upsets c.heath.staged (fun u => u.addr) (fun u => c.heath.live.read u.addr)
    (fun u => decide (u.bank = 0)) h.1
  simpa only [Chip.copied, decide_eq_true_eq] using this

namespace Chip

theorem Keeps.heath_wf {z c : Chip} (h : Keeps z c) (hz : z.heath.wf) : c.heath.wf := by
  obtain ⟨hst, hl, hw, he, hs⟩ := hz
  exact ⟨h.staged ▸ hst, h.live ▸ hl, h.wf hw, h.statusEnd ▸ he, h.snap ▸ hs⟩

/-- From `z` to `c` banks stay canonical. -/
def Sound (z c : Chip) : Prop := z.heath.wf → c.heath.wf

namespace Sound
variable {z c d : Chip}

theorem refl (z : Chip) : Sound z z := id
theorem trans (h : Sound z c) (g : Sound c d) : Sound z d := g ∘ h
theorem keeps (h : Sound z c) (g : Keeps c d) : Sound z d := h.trans g.heath_wf
theorem ite {p : Prop} [Decidable p] (h : Sound z c) (g : Sound z d) : Sound z (if p then c else d) := by
  split <;> assumption
theorem onPort (h : Sound z c) (f : Port → Port) : Sound z (c.onPort f) := h
theorem onBoot (h : Sound z c) (f : Boot → Boot) : Sound z (c.onBoot f) := h
theorem onWin (h : Sound z c) (f : Window → Window) : Sound z (c.onWin f) := h
theorem onHeath (h : Sound z c) (f : Heath → Heath) (hf : z.heath.wf → ∀ x : Heath, x.wf → (f x).wf) :
    Sound z (c.onHeath f) := fun hz => hf hz _ (h hz)
theorem foldl {α : Type} (l : List α) {f : Chip → α → Chip} (h : Sound z c) (hf : ∀ a x, Sound a (f a x)) :
    Sound z (l.foldl f c) := by
  induction l generalizing c with
  | nil => exact h
  | cons x l ih => exact ih (h.trans (hf c x))

/-! ### The port -/

theorem readEffect (h : Sound z c) (a : Nat) (got : Word) : Sound z (c.readEffect a got) := by
  unfold Chip.readEffect
  split
  · refine .ite (h.trans fun hc => ?_) h
    obtain ⟨hst, hl, hw, he, hs⟩ := hc
    exact ⟨hst, hl, Bank.wf_write _ _ _ hw, he, hs⟩
  · exact h

theorem writeWord (h : Sound z c) (k : Clock) (a : Nat) (v : Word) : Sound z (c.writeWord k a v) := by
  unfold Chip.writeWord
  split
  · refine .ite ?_ h
    have h₁ : Sound z (c.restand k none) := h.keeps ((Keeps.refl c).restand k none)
    refine (h₁.onHeath _ fun _ x hx => ?_).keeps ((Keeps.refl _).restand k _)
    obtain ⟨hst, hl, hw, he, hs⟩ := hx
    exact ⟨Bank.wf_write _ _ _ hst, hl, hw, he, hs⟩
  · exact .ite (.ite h h) (.ite h (.ite h h))

theorem endFrame (h : Sound z c) : Sound z c.endFrame := h
theorem deselect (h : Sound z c) : Sound z c.deselect := h
theorem failed (h : Sound z c) : Sound z c.failed := h
theorem abortBeat (h : Sound z c) : Sound z c.abortBeat := h
theorem idxError (h : Sound z c) : Sound z c.idxError := h
theorem crcError (h : Sound z c) : Sound z c.crcError := h
theorem tookEffect (h : Sound z c) : Sound z c.tookEffect := h
theorem replyRead (h : Sound z c) (data : Word) (eop : Bool) (vcnt : Nat) (hErr qErr : Bool) (g : Given) :
    Sound z (c.replyRead data eop vcnt hErr qErr g) := h
theorem replyWrite (h : Sound z c) (ack : Bool) : Sound z (c.replyWrite ack) := h
theorem stallBeat (h : Sound z c) (b : Beat) (s : Stall) : Sound z (c.stallBeat b s) := h
theorem onM (h : Sound z c) (f : Meadow → Meadow) : Sound z (c.onM f) := h
theorem closeBeat (h : Sound z c) (b : Beat) : Sound z (c.closeBeat b) := .ite h.endFrame h
theorem readFails (h : Sound z c) : Sound z c.readFails := .ite h.abortBeat.endFrame h.crcError
theorem refuseWrite (h : Sound z c) (first : Bool) : Sound z (c.refuseWrite first) :=
  .endFrame (.ite (h.replyWrite false).idxError (h.replyWrite false).idxError.abortBeat)
theorem beginFrame (h : Sound z c) (cmd : Byte) : Sound z (c.beginFrame cmd) := by
  unfold Chip.beginFrame
  exact .onPort (.ite h h.abortBeat) _
theorem openBeat (h : Sound z c) {b : Beat} (hopen : c.openBeat b = some d) : Sound z d := by
  unfold Chip.openBeat at hopen
  split at hopen
  · split at hopen
    · cases hopen; exact h.beginFrame _
    · cases hopen
  · split at hopen
    · cases hopen; exact h.onPort _
    · cases hopen

theorem qdataSend (h : Sound z c) (k : Clock) : Sound z (c.qdataSend k) := by
  unfold Chip.qdataSend
  refine .ite ((h.replyRead _ _ _ _ _ _).onM _) ?_
  dsimp only
  split
  · exact h.replyRead _ _ _ _ _ _
  · split
    · exact h.replyRead _ _ _ _ _ _
    · exact h

theorem readSend (h : Sound z c) (k : Clock) : Sound z (c.readSend k) := by
  unfold Chip.readSend
  extract_lets i a e v c₁ c₂ c₃ w
  refine .ite (h.replyRead _ _ _ _ _ _) (.ite (.ite ?_ ?_) (.ite (h.qdataSend k) ((h.replyRead _ _ _ _ _ _).onPort _)))
  · have h₁ : Sound z c₁ := .ite (h.onPort _) h
    have h₂ : Sound z c₂ := .ite (h₁.onPort _) h₁
    exact (h₂.replyRead _ _ _ _ _ _).keeps ((Keeps.refl _).meetRead k _)
  · have h₃ : Sound z c₃ := h.replyRead _ _ _ _ _ _
    exact .ite (h₃.keeps ((Keeps.refl _).meetRead k _)) h₃

theorem qdataDone (h : Sound z c) (k : Clock) (g : Given) : Sound z (c.qdataDone k g) := by
  unfold Chip.qdataDone
  extract_lets i c₁
  have h₁ : Sound z c₁ := by
    unfold c₁
    split
    · exact h.onPort _
    next w r =>
      have hpop : Keeps c (c.qPop i w (r || w.err == 2)) := (Keeps.refl c).qPop _ _ _
      refine .ite ?_ h
      extract_lets c₂ c₃
      have h₃ : Keeps c c₃ := .iteElse hpop fun hpop => ⟨hpop.1, hpop.2, hpop.3, hpop.4, hpop.5, hpop.6, hpop.7⟩
      exact h.keeps (.ite (h₃.srcEvent k 241) h₃)
    · exact h
  exact (h₁.keeps ((Keeps.refl _).onQ _ _)).tookEffect

theorem readDone (h : Sound z c) (k : Clock) (b : Beat) : Sound z (c.readDone k b) := by
  unfold Chip.readDone
  dsimp only
  generalize c.port.given = g
  split
  · exact .ite h.idxError h.idxError.readFails
  · exact .ite ((h.readEffect _ _).keeps ((Keeps.refl _).bumpAddr)).tookEffect h.readFails
  · exact .ite (h.onM _).tookEffect h.readFails
  · exact .ite (Sound.ite (h.onWin _) h).tookEffect h.readFails
  · exact .ite (h.qdataDone k _) h.readFails

theorem qdataDiscard (h : Sound z c) (k : Clock) (i : Nat) : Sound z (c.qdataDiscard k i) := by
  unfold Chip.qdataDiscard
  extract_lets c₁
  have h₁ : Sound z c₁ := h.keeps (.ite (.refl c) (((Keeps.refl c).onQ _ _).qRewound k _))
  exact (h₁.keeps (((Keeps.refl c₁).qDropped k _).qSync _)).failed
theorem qdataTake (h : Sound z c) (k : Clock) (b : Beat) : Sound z (c.qdataTake k b) := by
  unfold Chip.qdataTake
  exact .ite h.failed (.ite (h.qdataDiscard k _) (h.keeps (((Keeps.refl c).onQ _ _).qSync _)).tookEffect)

theorem writeBeat (h : Sound z c) (k : Clock) (b : Beat) : Sound z (c.writeBeat k b) := by
  unfold Chip.writeBeat
  extract_lets i c₁ a e c₂
  have h₂ : Sound z c₂ := h.replyWrite true
  refine .ite (.ite h.idxError h.idxError.crcError) (.ite h.crcError (.ite (.ite ?_ (h₂.onM _).tookEffect) (.ite (h₂.qdataTake k b) ?_)))
  · exact ((h₂.writeWord k _ _).keeps ((Keeps.refl _).bumpAddr)).tookEffect
  · exact (h₂.keeps ((Keeps.refl _).writeReg k _ _)).tookEffect

theorem runBeat (h : Sound z c) (k : Clock) (b : Beat) : Sound z (c.runBeat k b) := by
  unfold Chip.runBeat
  extract_lets wr c₁
  have h₁ : Sound z c₁ := .ite h (h.readSend k)
  exact .ite (h₁.onPort _) (.closeBeat (.ite (h₁.writeBeat k b) (h₁.readDone k b)) b)

theorem beat (h : Sound z c) (k : Clock) (b : Beat) : Sound z (c.beat k b) := by
  unfold Chip.beat
  extract_lets c₁
  have h₁ : Sound z c₁ := h.onPort _
  refine .ite (.ite h (.closeBeat (.ite (h₁.writeBeat k b) (h₁.readDone k b)) b)) ?_
  split
  · exact h
  next hopen =>
    have h₂ := h.openBeat hopen
    exact .ite (h₂.refuseWrite _) (.ite (h₂.stallBeat b _) (h₂.runBeat k b))

theorem resume (h : Sound z c) (k : Clock) : Sound z (c.resume k) := by
  unfold Chip.resume
  split
  · exact h
  · exact (h.onPort _).runBeat k _

/-! ### Reset, commits, revert and snapshots -/

theorem warmReset (h : Sound z c) (k : Clock) : Sound z (c.warmReset k) := by
  unfold Chip.warmReset
  extract_lets keep boot pow x x₁ x₂ x₃
  have h₀ : Sound z x := h.trans fun hc => by
    obtain ⟨hst, hl, hw, he, hs⟩ := hc
    dsimp only [x, Heath.wf]
    exact ⟨Bank.wf_nil, wf_keepTabs _ _ hl, wf_warmStatus _ hw, wf_warmStatus _ he, wf_warmStatus _ hs⟩
  have h₁ : Keeps x x₁ := .foldl _ (.refl x) fun _ _ ha => ha.setSt _ _ _
  have h₃ : Keeps x x₃ := .overN 9 ((h₁.setSt _ _ _).setSt _ _ _) fun o _ ha => ha.syncOut o
  exact h₀.keeps ((h₃.onWin _).reshade k _)
theorem warmActions (h : Sound z c) (k : Clock) : Sound z (c.warmActions k) := .ite (h.warmReset k) h
theorem warmDone (h : Sound z c) (k : Clock) : Sound z (c.warmDone k) := by
  unfold Chip.warmDone
  exact .ite (((h.onWin _).onBoot _).keeps (((Keeps.refl _).icause k 16).reshade k _)) h

theorem revert (h : Sound z c) : Sound z c.revert := by
  unfold Chip.revert
  refine .ite (Sound.keeps (h.onHeath _ fun _ x hx => ?_) ((Keeps.refl _).onDir _)) h
  obtain ⟨hst, hl, hw, he, hs⟩ := hx
  exact ⟨hl, hl, hw, he, hs⟩

theorem snapshot (h : Sound z c) (k : Clock) : Sound z (c.snapshot k) := by
  unfold Chip.snapshot
  extract_lets c₁ rows recs xrec c₂
  have h₁ : Sound z c₁ := h.keeps ((Keeps.refl c).onDir _)
  have h₂ : Sound z c₂ := h₁.onHeath _ fun _ x hx => by
    obtain ⟨hst, hl, hw, he, hs⟩ := hx
    exact ⟨hst, hl, hw, he, he⟩
  exact .ite h (.ite h₂ (h₂.onM _))

end Sound

theorem Keeps.commitRole {z c : Chip} (k : Clock) (new : Bank) (h : Keeps z c) : Keeps z (c.commitRole k new).1 := by
  unfold Chip.commitRole
  extract_lets pair lit
  split
  · exact h.becomeShadow k
  · split
    · exact (((h.setRole k .solo).endAttach).onTwin _).refRole k
    · exact h

namespace Sound
variable {z c d : Chip}

theorem commitApplies (h : Sound z c) (k : Clock) : Sound z (c.commitApplies k) := by
  unfold Chip.commitApplies
  extract_lets was c₁ old new first
  have h₁ : Sound z c₁ := h.keeps ((Keeps.refl c).readStaged k)
  split
  next c₂ moved hrole =>
    have h₂ : Keeps c₁ c₂ := by
      have := (Keeps.refl c₁).commitRole k new
      rwa [hrole] at this
    extract_lets was c₃ c₄ c₅ c₆ c₇ c₈
    have hnew : z.heath.wf → new.wf = true := fun hz => wf_copied c₁ (h₁ hz)
    have h₃ : Sound z c₃ := (h₁.keeps h₂).onBoot _
    have h₄ : Sound z c₄ := h₃.onHeath _ fun hz x hx => by
      obtain ⟨hst, hl, hw, he, hs⟩ := hx
      exact ⟨hst, hnew hz, hw, he, hs⟩
    have h₆ : Keeps c₄ c₆ := (((Keeps.refl c₄).onDir _).onWin _).icause k 0
    have h₇ : Keeps c₄ c₇ := (h₆.applyBank k _ _ _ _).restand k none
    have h₈ : Keeps c₄ c₈ := .iteElse h₇ fun h => h.onTwin _
    exact h₄.keeps (h₈.syncTwin k)

theorem commitOutcome (h : Sound z c) (k : Clock) : Sound z (c.commitOutcome k) := by
  unfold Chip.commitOutcome
  exact .ite (.onWin (.ite (h.commitApplies k) (h.keeps ((Keeps.refl c).commitRejects k _))) _) h

theorem boundaryWork (h : Sound z c) (k : Clock) : Sound z (c.boundaryWork k) :=
  ((((h.warmActions k).warmDone k).commitOutcome k).revert).snapshot k

/-! ### The mirror and changes of role -/

theorem mirrorApply (h : Sound z c) (k : Clock) {b : Bank} (hb : z.heath.wf → b.wf = true) (tag : Byte) :
    Sound z (c.mirrorApply k b tag) := by
  unfold Chip.mirrorApply
  extract_lets old c₁ c₂
  have h₁ : Sound z c₁ := h.onHeath _ fun hz x hx => by
    obtain ⟨hst, hl, hw, he, hs⟩ := hx
    exact ⟨hst, hb hz, hw, he, hs⟩
  have h₂ : Sound z c₂ := h₁.keeps (((Keeps.refl _).onWin _).setSt _ _ _)
  exact h₂.keeps (((((Keeps.refl _).applyBank k _ _ _ _).restand k none).onTwin _).syncTwin k)

theorem fullCopy (h : Sound z c) (k : Clock) (runs : List BankRun) (tag : Byte) : Sound z (c.fullCopy k runs tag) :=
  (h.keeps ((Keeps.refl c).onTwin _)).mirrorApply k (fun hz => wf_withRuns _ _ (wf_keepTabs _ _ (h hz).2.1)) tag
theorem applyRuns (h : Sound z c) (k : Clock) (r : List BankRun × Byte × Bool) : Sound z (c.applyRuns k r) :=
  .ite (h.fullCopy k _ _) (h.mirrorApply k (fun hz => wf_withRuns _ _ (h hz).2.1) _)
theorem applyHeld (h : Sound z c) (k : Clock) : Sound z (c.applyHeld k) := by
  unfold Chip.applyHeld
  refine .ite h (.ite (h.keeps (((Keeps.refl c).onTwin _).satSt _ _ _)) ?_)
  exact .foldl _ (h.keeps ((Keeps.refl c).onTwin _)) fun a r => (Sound.refl a).applyRuns k r
theorem bankRuns (h : Sound z c) (k : Clock) (runs : List BankRun) (tag : Byte) (full : Bool) : Sound z (c.bankRuns k runs tag full) := by
  unfold Chip.bankRuns
  exact .ite h (.ite (h.keeps ((Keeps.refl c).onTwin _))
    (.ite (h.keeps (((((Keeps.refl c).onTwin _).onTwin _).satSt _ _ _).syncTwin k)) (h.applyRuns k _)))

theorem becomeSolo (h : Sound z c) (k : Clock) : Sound z (c.becomeSolo k) := by
  unfold Chip.becomeSolo
  extract_lets was c₁ old keep c₂ c₃ c₄ c₅
  have h₁ : Sound z c₁ := h.keeps (((Keeps.refl c).freeAll k _).setRole k _)
  have hkeep : z.heath.wf → keep.wf = true := fun hz => by
    obtain ⟨-, hl, -⟩ := h₁ hz
    exact wf_keepTabs _ _ hl
  have h₂ : Sound z c₂ := h₁.onHeath _ fun hz x hx => by
    obtain ⟨hst, hl, hw, he, hs⟩ := hx
    exact ⟨hkeep hz, hkeep hz, hw, he, hs⟩
  have h₃ : Keeps c₂ c₃ := (Keeps.refl c₂).endAttach.onTwin _
  have h₄ : Keeps c₂ c₄ := h₃.disarm k
  have h₅ : Keeps c₂ c₅ := ((h₄.setSt _ _ _).applyBank k _ _ _ _).restand k none
  exact h₂.keeps ((h₅.refRole k).syncTwin k)

theorem light (h : Sound z c) (k : Clock) (why : Nat) : Sound z (c.light k why) := by
  unfold Chip.light
  extract_lets was c₁ c₂ c₃ c₄ c₅ c₆ c₇
  have h₁ : Keeps c c₁ := ((Keeps.refl c).disarm k).setRole k _
  have h₂ : Keeps c c₂ := by
    unfold c₂
    split
    · exact (h₁.addSt _ _ _).cause k _ _ _
    · exact h₁.addSt _ _ _
    · exact h₁
  have h₃ : Keeps c c₃ := .ite (h₂.settleReq k _) (.ite (h₂.reqCause k) h₂)
  have h₄ : Sound z c₄ := ((h.keeps h₃).onHeath _ fun _ x hx => by
    obtain ⟨hst, hl, hw, he, hs⟩ := hx
    exact ⟨hl, hl, hw, he, hs⟩).keeps ((Keeps.refl _).endAttach)
  have h₆ : Keeps c₄ c₆ := (((Keeps.refl c₄).restand k none).setSt _ _ _).lightItems k
  have h₇ : Keeps c₄ c₇ := .overN 96 h₆ fun d _ ha => .ite ha (.ite (ha.enterUp k d) (ha.startDrop k d))
  exact h₄.keeps ((((h₇.afterRole k _).startMirror).nightLate k).dropAllHeads k)

end Sound

theorem Keeps.giveUp {z c : Chip} (k : Clock) (h : Keeps z c) : Keeps z (c.giveUp k) := by
  unfold Chip.giveUp
  extract_lets c₁ c₂
  have h₁ : Keeps z c₁ := h.onTwin _
  have h₂ : Keeps z c₂ := by
    unfold c₂
    split
    · exact h₁
    · exact h₁.settleReq k _
    · exact h₁
  exact .ite (h₂.syncClaim k) h

namespace Sound
variable {z c d : Chip}

theorem shadowLights (h : Sound z c) (k : Clock) :
    Sound z (if c.twin.role ≠ .shadow then c
    else if c.col.shade then c.giveUp k
    else
      match c.twin.handLight with
      | some t => if t ≤ k.ticks then c.light k 2 else c
      | none =>
        if c.twin.lightDue then
          c.light k (match c.twin.req with
            | some (.tentative _) => 1
            | _ => 0)
        else c) := by
  refine .ite h (.ite (h.keeps ((Keeps.refl c).giveUp k)) ?_)
  split
  · exact .ite (h.light k 2) h
  · exact .ite (h.light k _) h

/-! ### The tick boundary -/

theorem twinTick (h : Sound z c) (k : Clock) : Sound z (c.twinTick k) := by
  unfold Chip.twinTick
  extract_lets c₁ c₂ c₃ left c₄
  have h₁ : Sound z c₁ := .ite (h.keeps ((Keeps.refl c).becomeShadow k)) h
  have h₂ : Sound z c₂ := by
    refine .ite ?_ h₁
    split
    · exact (h₁.becomeSolo k).keeps ((Keeps.refl _).settleReq k _)
    · exact (h₁.becomeSolo k).keeps ((Keeps.refl _).settleReq k _)
    · exact h₁.becomeSolo k
  have h₃ : Sound z c₃ := h₂.keeps ((Keeps.refl c₂).onTwin _)
  have h₄ : Keeps c₃ c₄ := (Keeps.refl c₃).onTwin _
  exact .ite h (.ite (h₃.keeps (.syncTwin k (.ite (h₄.setSt _ _ _) (h₄.satSt _ _ _)))) ((h₃.applyHeld k).keeps ((Keeps.refl _).syncTwin k)))

theorem closeTick (h : Sound z c) : Sound z c.closeTick := fun hz => by
  obtain ⟨hst, hl, hw, he, hs⟩ := h hz
  exact ⟨hst, hl, hw, hw, hs⟩

theorem boundary (h : Sound z c) (k : Clock) (energy bits : Nat) : Sound z (c.boundary k energy bits) := by
  unfold Chip.boundary
  extract_lets srcs c₁ c₂ c₃ c₄ c₅ c₆ c₇ c₈ c₉ c₁₀
  have h₁ : Sound z c₁ := h.closeTick.keeps (((((Keeps.refl _).clearMarks).endWakes _).settle k).linesPass k)
  have h₂ : Keeps c₁ c₂ := ((Keeps.refl c₁).quietCount).lanternTick k
  have h₃ : Keeps c₁ c₃ := h₂.forRows _ fun s _ ha => ha.tumble k s
  have h₆ : Keeps c₁ c₆ := ((((h₃.raise k _).closeDown k).countEnergy _ _).holdTicks).audioBoundary
  have h₇ : Keeps c₁ c₇ := .overN 96 h₆ fun d _ ha => ha.onD d _
  have h₈ : Keeps c₁ c₈ := .iteElse h₇ fun h => .overN 96 h fun d _ ha => ha.offerTick d
  have h₁₀ : Sound z c₁₀ := (h₁.keeps (h₈.onM _)).twinTick k
  exact .ite (h₁₀.keeps ((Keeps.refl c₁₀).secondWork k)) h₁₀

end Sound
end Chip
end Sys2Proof.Machine
namespace Sys2Proof.Machine
open Sys2Proof Sys2Proof.Machine.Chip

/-! ### Every command -/

namespace State

/-- From `s` to `t` banks stay canonical. -/
def Sound (s t : State) : Prop := Chip.Sound s.chip t.chip

namespace Sound
variable {s t u : State}

theorem refl (s : State) : Sound s s := id
theorem trans (h : Sound s t) (g : Sound t u) : Sound s u := Chip.Sound.trans h g
theorem ite {p : Prop} [Decidable p] (h : Sound s t) (g : Sound s u) : Sound s (if p then t else u) := by
  split <;> assumption
theorem keeps (h : Chip.Keeps s.chip t.chip) : Sound s t := h.heath_wf
/-- Nothing of the core is left. -/
theorem ofEmpty (h : t.chip.heath = {}) : Sound s t := fun _ => by
  rw [h]
  exact ⟨rfl, rfl, rfl, rfl, rfl⟩

theorem boundaryDone (s : State) : Sound s s.boundaryDone := by
  unfold State.boundaryDone
  refine .ite ?_ (.refl s)
  have h₁ : Sound s { s with chip := s.chip.boundaryWork s.clk } := Chip.Sound.boundaryWork (.refl _) _
  exact Chip.Sound.snapshot (h₁.trans (.keeps (stepBoundary_keeps _))) _

theorem iterate (n : Nat) (s : State) : Sound s (State.boundaryDone^[n] s) := by
  induction n with
  | zero => exact .refl s
  | succ n ih =>
    rw [Function.iterate_succ_apply']
    exact ih.trans (.boundaryDone _)
theorem passes (h : s.Passes t) : Sound s t := by
  obtain ⟨n, -, -, -, -, hk⟩ := h
  exact (iterate n s).trans (.keeps hk)

theorem act (h : Sound s t) {f : Clock → Chip → Chip} (hf : ∀ k c, Chip.Sound c (f k c)) : Sound s (t.act f) :=
  h.trans (.ite (hf _ _) (.refl t))
theorem actBoundary (s : State) {f : Clock → Chip → Chip} (hf : ∀ k c, Chip.Sound c (f k c)) : Sound s (s.actBoundary f) :=
  .ite (.act (.refl s) hf) (.refl s)
theorem beat (s : State) (b : Beat) (kind : Chip → Bool) : Sound s (s.beat b kind) :=
  .ite (.act (.boundaryDone s) fun k c => Chip.Sound.beat (.refl c) k b) (.refl s)

theorem nextBoundary (s : State) (energy bits : Nat) : Sound s (s.nextBoundary energy bits) := by
  unfold State.nextBoundary
  refine .ite ?_ (.refl s)
  obtain ⟨-, -, -, -, hdep⟩ := (s.toIdx Config.lastIdx).depart_runs
  have h : Sound s (s.toIdx Config.lastIdx).depart := (passes (s.toIdx_passes _)).trans ((boundaryDone _).trans (.keeps hdep))
  exact Chip.Sound.boundary (Chip.Sound.keeps h ((Keeps.refl _).takeVerdict _)) _ _ _
theorem idleEdge (s : State) : Sound s s.idleEdge :=
  .ite (.ite (nextBoundary s 0 0) (passes (s.elapse_passes 1))) (.refl s)

theorem stop (s : State) (p : Phase) (cause : Nat) (f : Boot → Boot) : Sound s (s.stop p cause f) := ofEmpty rfl
theorem pinReset (s : State) (f : Boot → Boot) : Sound s (s.pinReset f) := by
  unfold State.pinReset
  split
  case h_4 => exact .refl s
  all_goals exact stop s _ _ _
theorem unhold (s : State) (f : Boot → Boot) : Sound s (s.onBoot f).unhold := .ite (.refl s) (.refl s)
theorem release (s : State) (mode : Bool) (adr : Nat) (twnId : Bool) (boot : Nat) (badMem badBar : List Nat) :
    Sound s (s.release mode adr twnId boot badMem badBar) := by
  unfold State.release
  extract_lets b c₀ c₁ c₂ mems c₃
  have h₀ : Sound s { s with chip := c₀ } := ofEmpty rfl
  have h₃ : Keeps c₀ c₃ :=
    .raise _ _ (.foldl _ (.setSt _ _ _ (.refl c₀)) fun _ d ha => .ite (ha.onD d _) ha)
  exact Chip.Sound.keeps h₀ h₃

end Sound
end State

open State (Sound)

/-- A command of start-up, reset or the I/O rail. -/
theorem exec_sound_of_stopsClock (s : State) : ∀ i : Instr, i.stopsClock = true → ∃ t, exec i s = .next t ∧ Sound s t
  | .coreResetRelease .., _ => ⟨_, rfl, .ite (.release s _ _ _ _ _ _) (.refl s)⟩
  | .brownOut, _ => ⟨_, rfl, .ite (.refl s) (.stop s _ _ _)⟩
  | .pinReset _, _ =>
    ⟨_, rfl, .ite (.refl s) (.ite (.pinReset s _)
      (.trans (t := { s with chip := s.chip.draw.2 }) (.keeps ((Keeps.refl s.chip).draw))
        (.ite (.pinReset { s with chip := s.chip.draw.2 } _) (.refl _))))⟩
  | .tapInstruction op cells, _ => by
    refine ⟨_, rfl, ?_⟩
    dsimp only
    split
    · exact .refl s
    · exact .refl s
    · exact .ite (.pinReset s _) (.unhold s _)

theorem execVioLoss_sound (s : State) : ∃ t, execVioLoss s = .next t ∧ Sound s t :=
  ⟨_, rfl, .act (.refl s) fun k c => .ite (.keeps (.onPort (.refl c) _) (((Keeps.refl _).setCond k _ _).syncClaim k)) (.refl c)⟩
theorem execVioReturn_sound (s : State) : ∃ t, execVioReturn s = .next t ∧ Sound s t :=
  ⟨_, rfl, .act (.refl s) fun k c => .ite (.keeps (.onPort (.refl c) _) (((Keeps.refl _).setCond k _ _).syncClaim k)) (.refl c)⟩
theorem execWatch_sound (s : State) : ∃ t, execWatch s = .next t ∧ Sound s t := by
  refine ⟨_, rfl, .ite ?_ (.refl s)⟩
  unfold State.Sound
  extract_lets c c₁ c₂
  have h : Chip.Sound s.chip c := .onBoot (.refl s.chip) _
  have h₁ : Keeps c c₁ := (Keeps.refl c).onCol _
  dsimp only
  exact (h.keeps (h₁.shadeFalls s.clk)).onBoot _
theorem execPortReady_sound (s : State) : ∃ t, execPortReady s = .next t ∧ Sound s t :=
  ⟨_, rfl, .ite (.act (.ite (.passes (s.toIdx_passes _)) (.refl s)) fun _ c => .onPort (.refl c) _) (.refl s)⟩
theorem execStartStopCondition_sound (how : BusEnd) (cmd : Byte) (first : Bool) (s : State) :
    ∃ t, execStartStopCondition how cmd first s = .next t ∧ Sound s t := by
  refine ⟨_, rfl, .act (.refl s) fun _ c => .ite (.ite (.onPort (.ite ?_ (.refl c)) _) ?_) (.refl c)⟩
  · exact (Chip.Sound.refl c).abortBeat.endFrame
  have h₁ : Chip.Sound c (if first = true then c.beginFrame cmd else c) := .ite (.beginFrame (.refl c) cmd) (.refl c)
  exact .ite h₁ (.ite h₁.endFrame (.endFrame (.abortBeat (.ite (h₁.onPort _) h₁))))
theorem execBeatAbort_sound (cmd : Byte) (first : Bool) (s : State) : ∃ t, execBeatAbort cmd first s = .next t ∧ Sound s t := by
  refine ⟨_, rfl, .act (.refl s) fun _ c => .ite ?_ (.refl c)⟩
  have h₁ : Chip.Sound c (if first = true then c.beginFrame cmd else c) := .ite (.beginFrame (.refl c) cmd) (.refl c)
  exact .deselect (.ite h₁.abortBeat.endFrame h₁)

/-- A command that is neither of the blocks nor stops the clock. -/
theorem exec_sound_of_host (s : State) : ∀ i : Instr, i.lineSide = false → i.stopsClock = false → ∃ t, exec i s = .next t ∧ Sound s t
  | .vinRise .., _, _ => ⟨_, rfl, .ite (.refl s) (.ite (.refl s) (.refl s))⟩
  | .powerOn _, _, _ | .railsReady, _, _ | .s2Restart, _, _ => ⟨_, rfl, .ite (.refl s) (.refl s)⟩
  | .rstNHigh, _, _ | .tapReset, _, _ => ⟨_, rfl, .unhold s _⟩
  | .vioLoss, _, _ => execVioLoss_sound s
  | .vioReturn, _, _ => execVioReturn_sound s
  | .watch, _, _ => execWatch_sound s
  | .portReady, _, _ => execPortReady_sound s
  | .tickBoundary e b, _, _ => ⟨_, rfl, .nextBoundary s e b⟩
  | .beatAbort cmd first, _, _ => execBeatAbort_sound cmd first s
  | .startStopCondition how cmd first, _, _ => execStartStopCondition_sound how cmd first s
  | .burstEnd, _, _ => ⟨_, rfl, .act (.refl s) fun _ c => .ite (.deselect (.ite (.refl c) (.ite (.refl c) (.refl c)))) (.refl c)⟩
  | .sdaRelease, _, _ | .stretchTimeout, _, _ => ⟨_, rfl, .act (.refl s) fun _ c => .ite (.refl c) (.refl c)⟩
  | .stretchRelease, _, _ | .qdataStallEnd, _, _ => ⟨_, rfl, .act (.refl s) fun k c => .ite (.resume (.refl c) k) (.refl c)⟩
  | .claimLit b _, _, _ =>
    ⟨_, rfl, .ite (.act (.boundaryDone s) fun k c => .beat (.keeps (.refl c) ((Keeps.refl c).setPeer _)) k b) (.refl s)⟩
  | .invalidIndexAccess _, _, _ | .registerWrite _, _, _ | .warmResetRequest _, _, _ | .yieldToShadow _, _, _
  | .leavePair _, _, _ | .softwareInterrupt _, _, _ | .hdataRead _, _, _ | .hdataWrite _, _, _ | .schemaLock _, _, _
  | .revertRequest _, _, _ | .snapreq _, _, _ | .commitRequest _, _, _ | .icauseClear _, _, _ | .glintRead _, _, _
  | .queueSelect _, _, _ | .flush _, _, _ | .replay _, _, _ | .qdataRead _, _, _ | .qdataWrite _, _, _ =>
    ⟨_, rfl, .beat s _ _⟩
  | .warmResetActions, _, _ => ⟨_, rfl, .actBoundary s fun k c => .warmActions (.refl c) k⟩
  | .warmResetComplete, _, _ => ⟨_, rfl, .actBoundary s fun k c => .warmDone (.refl c) k⟩
  | .revertPerform, _, _ => ⟨_, rfl, .actBoundary s fun _ c => .revert (.refl c)⟩
  | .snapshot, _, _ => ⟨_, rfl, .actBoundary s fun k c => .snapshot (.refl c) k⟩
  | .commitApply, _, _ => ⟨_, rfl, .actBoundary s fun k c => .commitOutcome (.refl c) k⟩
  | .bankRunsApply .., _, _ => ⟨_, rfl, .actBoundary s fun k c => .bankRuns (.refl c) k _ _ _⟩
  | .attach .., _, _ => ⟨_, rfl, .actBoundary s fun k c =>
      .ite (.fullCopy (.keeps (.refl c) ((Keeps.refl c).onTwin _)) k _ _) (.refl c)⟩
  | .shadowLights, _, _ => ⟨_, rfl, .actBoundary s fun k c => .shadowLights (.refl c) k⟩

theorem execStep_sound (s : State) : ∃ t, execStep s = .next t ∧ Sound s t := by
  obtain ⟨t, ht, hk⟩ := execStep_keeps s
  refine ⟨t, ht, ?_⟩
  rcases hk with hk | ⟨-, -, hk⟩
  · exact .keeps hk
  · exact Chip.Sound.keeps (.boundaryWork (.refl _) _) hk

theorem exec_sound (s : State) (i : Instr) : ∃ t, exec i s = .next t ∧ Sound s t := by
  by_cases hstop : i.stopsClock = true
  · exact exec_sound_of_stopsClock s i hstop
  · by_cases hline : i.lineSide = true
    · by_cases hstep : i = .step
      · subst hstep; exact execStep_sound s
      · obtain ⟨t, ht, hp⟩ := exec_passes s i hline hstep
        exact ⟨t, ht, .passes hp⟩
    · exact exec_sound_of_host s i (by simpa using hline) (by simpa using hstop)

/-- Settles O6: a step is a command, or one core-clock edge where none waits; each writes, filters or copies canonical banks. -/
theorem bankInvariant : Obligations.BankInvariant := by
  unfold Obligations.BankInvariant
  intro s t hwf hstep
  unfold step at hstep
  split at hstep
  case h_1 =>
    cases hstep
    exact Sound.idleEdge s hwf
  case h_2 i rest _ =>
    obtain ⟨u, hu, hs⟩ := exec_sound { s with pending := rest } i
    rw [hu] at hstep
    cases hstep
    exact hs hwf

end Sys2Proof.Machine
end

section
/-! PROOFS. The step, what reset leaves, addresses, and start-up and reset (chapters 1, 4 and 17). -/

namespace Sys2Proof.Machine
open Sys2Proof

/-! ### The step -/

/-- Settles O1: by the definition of a step on a queue that is not empty. -/
theorem stepRunsFront : Obligations.StepRunsFront := by
  unfold Obligations.StepRunsFront
  intro i rest s hq
  unfold step
  rw [hq]

theorem step_idle {s : State} (h : s.pending = []) : step s = .next s.idleEdge := by
  unfold step
  rw [h]

theorem State.idleEdge_of_lt {s : State} (hrun : s.chip.running = true) (hi : s.clk.idx < 124999) : s.idleEdge = s.elapse 1 := by
  have hne : s.clk.idx ≠ Config.lastIdx := Nat.ne_of_lt hi
  unfold State.idleEdge
  rw [if_pos hrun, if_neg hne]

/-- Settles O2: an idle edge is one ordinary edge, or the tick boundary at cycle index 124,999 (the model's choice, log 1). -/
theorem idleEdgePasses : Obligations.IdleEdgePasses := by
  unfold Obligations.IdleEdgePasses
  intro s hq
  rw [step_idle hq]
  refine ⟨fun hrun hi => ?_, fun hrun hi => ?_, fun hrun => ?_⟩
  · rw [State.idleEdge_of_lt hrun hi]
    have hidx := s.clk.idx_lt
    refine ⟨_, rfl, (s.elapse_pending 1).trans hq, ?_, ?_, fun hset => ⟨?_, (s.elapse_passes 1).runs hset⟩⟩
    · rw [s.elapse_clk 1 (by decide), Clock.elapse_evc, s.depart_evc, s.depart_idx]
      omega
    · rw [s.elapse_clk 1 (by decide), Clock.elapse_idx, s.depart_idx]
      omega
    · rw [s.elapse_clk 1 (by decide), Clock.elapse_ns, s.depart_idx, s.depart_clk, if_pos hrun, hset.2]
      omega
  · have hlast : s.idleEdge = s.nextBoundary 0 0 := by
      have hidx : s.clk.idx = Config.lastIdx := hi
      unfold State.idleEdge
      rw [if_pos hrun, if_pos hidx]
    have hto : s.toIdx Config.lastIdx = s := s.toIdx_self _ (Nat.le_of_eq hi.symm)
    rw [hlast]
    refine ⟨_, rfl, (s.nextBoundary_pending 0 0).trans hq, ?_, ?_⟩
    · rw [s.nextBoundary_clk 0 0 hrun, Clock.nextTick_ticks, State.lastEdge, hto, s.depart_ticks]
    · rw [s.nextBoundary_clk 0 0 hrun, Clock.nextTick_evc, State.lastEdge, hto, s.depart_evc]
  · unfold State.idleEdge
    rw [if_neg (by simp [hrun])]

/-! ### Reset -/

/-- Row 262,320 of DROP is no drop: its address is that of word 0 of fault source 176 (FSRC row 176 lies 0x40 · 4096 rows beyond DROP row 0),
whose bit 31 is 1 at reset. -/
theorem dropEnable_beyond_table : State.reset.chip.on DROP.EN 262320 = true := by decide

/-- Refutes O3: the statement speaks of every natural number `d`, not of the 96 drops, and DROP.EN of "drop" 262,320 reads bit 31 of a
word of another table, which is 1 at reset. -/
theorem not_resetState : ¬ Obligations.ResetState := by
  unfold Obligations.ResetState
  rintro ⟨-, -, -, -, -, -, -, -, -, -, -, -, -, -, -, -, -, -, -, -, hdrops⟩
  have hoff := (hdrops 262320).1
  rw [dropEnable_beyond_table] at hoff
  cases hoff

/-- Settles O4: the clock is at 0 and every bank is empty. -/
theorem resetInvariant : Obligations.ResetInvariant := by
  unfold Obligations.ResetInvariant
  exact ⟨Clock.onGrid_reset, rfl, rfl, rfl, rfl, rfl⟩

/-! ### Addresses -/

theorem directory_bounds {t rows words kind : Nat} (h : directory t = some (rows, words, kind)) :
    0 < rows ∧ rows ≤ 1024 ∧ 0 < words ∧ words ≤ 256 := by
  unfold directory at h
  split at h <;> simp only [Option.some.injEq, Prod.mk.injEq, reduceCtorEq] at h <;> omega

/-- Settles O26: the word steps within the row, the row within the table, and from the last word back to the first. -/
theorem addressSteps : Obligations.AddressSteps := by
  unfold Obligations.AddressSteps
  intro a rows words kind ha hdir hrow hwrd
  have hb := directory_bounds hdir
  have htab : tabOf a < 256 := Nat.mod_lt _ (by decide)
  unfold nextAddr
  rw [hdir]
  dsimp only
  by_cases h₁ : wrdOf a + 1 < words
  · rw [if_pos h₁]
    simp only [tabOf, rowOf, wrdOf] at *
    omega
  · rw [if_neg h₁]
    by_cases h₂ : rowOf a + 1 < rows
    · rw [if_pos h₂, if_neg (by omega)]
      simp only [tabOf, rowOf, wrdOf, hAddr] at *
      omega
    · rw [if_neg h₂, if_pos (by omega)]
      simp only [tabOf, rowOf, wrdOf, hAddr] at *
      omega

end Sys2Proof.Machine

namespace Sys2Proof.Machine
open Sys2Proof

/-! ### Start-up -/

namespace State

theorem OnlyBoot.refl (s : State) : s.OnlyBoot s := rfl

/-- What holds a part before S3 when start-up state has been changed by `f`, and the phase that it goes on to. -/
theorem unhold_onBoot (s : State) (f : Boot → Boot) (hphase : (f s.chip.boot).phase = .hold) :
    s.OnlyBoot (s.onBoot f).unhold ∧ (s.onBoot f).unhold.chip.boot =
      { f s.chip.boot with phase := if (f s.chip.boot).rstLow || tapHolds (f s.chip.boot).tap.ir then .hold else .s3 } := by
  have hboot : (s.onBoot f).chip.boot = f s.chip.boot := rfl
  have hheld : (s.onBoot f).held = ((f s.chip.boot).rstLow || tapHolds (f s.chip.boot).tap.ir) := rfl
  unfold unhold
  rw [hheld, hboot]
  by_cases h : ((f s.chip.boot).rstLow || tapHolds (f s.chip.boot).tap.ir) = true
  · rw [if_neg (fun e => by rw [h] at e; cases e.2), if_pos h, ← hphase]
    exact ⟨rfl, rfl⟩
  · rw [if_pos ⟨hphase, by simpa using h⟩, if_neg h]
    exact ⟨rfl, rfl⟩

/-- A part that is not held stays in its phase. -/
theorem unhold_of_ne_hold {s : State} (h : s.chip.boot.phase ≠ .hold) : s.unhold = s := by
  unfold unhold
  rw [if_neg (fun e => h e.1)]

end State

/-- Settles O14: each command of the supply sequence changes the phase where its condition holds, and otherwise answers the same state
(log 3). -/
theorem supplySequence : Obligations.SupplySequence := by
  unfold Obligations.SupplySequence
  refine ⟨fun cold railUp vioSel mv s hoff => ?_, fun mv s hs1 => ⟨fun hgood => ?_, fun hext hbad => ?_⟩, fun s hs2 => ⟨?_, ?_⟩⟩
  · refine ⟨_, rfl, ?_⟩
    dsimp only
    rw [if_neg (by simp [hoff])]
    cases cold <;> cases railUp <;> exact ⟨rfl, rfl, rfl⟩
  · refine ⟨_, rfl, ?_⟩
    dsimp only
    rw [if_pos ⟨hs1, hgood⟩]
    exact ⟨rfl, rfl, rfl⟩
  · show execPowerOn mv s = .next s
    unfold execPowerOn
    dsimp only
    rw [if_neg (by simp [hext, hbad])]
  · refine ⟨_, rfl, ?_⟩
    rw [if_pos hs2]
    exact ⟨rfl, rfl⟩
  · refine ⟨_, rfl, ?_⟩
    rw [if_pos hs2]
    exact ⟨rfl, hs2, rfl⟩

namespace State

/-- A part in reset is stopped: nothing of it is left but start-up state. -/
theorem stopped_stop (s : State) (p : Phase) (cause : Nat) (f : Boot → Boot) (hp : (f { s.chip.boot with phase := p, nextCause := cause }).phase ≠ .run) :
    s.Stopped (s.stop p cause f) := by
  refine ⟨rfl, rfl, ?_, ?_, rfl, rfl⟩
  · show decide ((f { s.chip.boot with phase := p, nextCause := cause }).phase = .run) = false
    exact decide_eq_false hp
  · show Chip.shaded _ = true
    simp [Chip.shaded, stop, Chip.inReset]

/-- A pin reset of a part whose core has begun, or is about to, stops the core before S3. -/
theorem pinReset_begun (s : State) (f : Boot → Boot) (h : s.chip.boot.phase = .run ∨ s.chip.boot.phase = .s3 ∨ s.chip.boot.phase = .halted) :
    s.pinReset f = s.stop .hold 3 f := by
  unfold pinReset
  rcases h with h | h | h <;> rw [h]

end State

/-- A TAP instruction loaded once the part is in S2 or beyond. -/
theorem exec_tapInstruction (op : Byte) (cells : BitVec 237) {s : State} (hoff : s.chip.boot.phase ≠ .off) (hs1 : s.chip.boot.phase ≠ .s1) :
    exec (.tapInstruction op cells) s = .next
      (if tapHolds op then s.pinReset (fun b => { b with tap := { ir := op, cells := cells } })
       else (s.onBoot fun b => { b with tap := { ir := op, cells := cells } }).unhold) := by
  show execTapInstruction op cells s = _
  unfold execTapInstruction
  dsimp only
  split
  · contradiction
  · contradiction
  · rfl

/-- Settles O16: a brown-out, a recognised pin reset and a holding instruction put the part in reset; what a low between 100 ns and 1 µs
does is a free value, drawn (logs 3, 10, 13, 14). -/
theorem coreStops : Obligations.CoreStops := by
  unfold Obligations.CoreStops
  refine ⟨fun s hoff => ?_, fun ns s hns hph => ?_, fun ns s hns => ?_, fun ns s hlo hhi hrun => ?_, fun op cells s hop hph => ?_⟩
  · refine ⟨_, rfl, ?_⟩
    rw [if_neg hoff]
    exact ⟨s.stopped_stop _ _ _ (by simp), rfl, rfl⟩
  · refine ⟨_, rfl, ?_⟩
    rw [if_neg (by omega), if_pos hns, s.pinReset_begun _ hph]
    exact ⟨s.stopped_stop _ _ _ (by simp), rfl, rfl, rfl⟩
  · show execPinReset ns s = .next s
    unfold execPinReset
    rw [if_pos hns]
  · refine ⟨_, rfl, ?_⟩
    rw [if_neg (by omega), if_neg (by omega)]
    dsimp only
    split
    · refine .inl ?_
      rw [State.pinReset_begun { s with chip := s.chip.draw.2 } _ (.inl hrun)]
      exact ⟨State.stopped_stop { s with chip := s.chip.draw.2 } _ _ _ (by simp), rfl⟩
    · exact .inr rfl
  · obtain ⟨hoff, hs1⟩ : s.chip.boot.phase ≠ .off ∧ s.chip.boot.phase ≠ .s1 := by
      rcases hph with h | h | h <;> rw [h] <;> exact ⟨by decide, by decide⟩
    rw [exec_tapInstruction op cells hoff hs1, if_pos hop, s.pinReset_begun _ hph]
    exact ⟨_, rfl, s.stopped_stop _ _ _ (by simp), rfl, rfl, rfl⟩

/-- Settles O17: what held the part before S3 is looked at again, and S3 begins where nothing is left of it (logs 12, 13). -/
theorem holdEnds : Obligations.HoldEnds := by
  unfold Obligations.HoldEnds
  refine ⟨fun s hhold => ⟨?_, ?_⟩, fun op cells s hop hhold => ?_, fun op cells s hop hrun => ?_⟩
  · obtain ⟨honly, hboot⟩ := s.unhold_onBoot (fun b => { b with rstLow := false }) hhold
    exact ⟨_, rfl, honly, by rw [hboot], by rw [hboot]; rfl⟩
  · obtain ⟨honly, hboot⟩ := s.unhold_onBoot (fun b => { b with tap := {} }) hhold
    refine ⟨_, rfl, honly, by rw [hboot], ?_⟩
    rw [hboot]
    cases s.chip.boot.rstLow <;> rfl
  · rw [exec_tapInstruction op cells (by simp [hhold]) (by simp [hhold]), if_neg (by simp [hop])]
    obtain ⟨honly, hboot⟩ := s.unhold_onBoot (fun b => { b with tap := { ir := op, cells := cells } }) hhold
    refine ⟨_, rfl, honly, by rw [hboot], ?_⟩
    rw [hboot]
    simp [hop]
  · rw [exec_tapInstruction op cells (by simp [hrun]) (by simp [hrun]), if_neg (by simp [hop]),
      State.unhold_of_ne_hold (s := s.onBoot _) (by simp [State.onBoot, hrun])]
    exact ⟨_, rfl, rfl, hrun, rfl⟩

end Sys2Proof.Machine
end

section
/-! PROOFS. A step of time (chapter 12). -/

namespace Sys2Proof.Machine
open Sys2Proof

/-! ### What an operation leaves as it reads -/

/-- What each pass leaves as it reads, all passes leave. -/
theorem overN_same {α β : Type} (m : α → β) (n : Nat) {f : Nat → α → α} (h : ∀ i a, m (f i a) = m a) (a : α) : m (overN n f a) = m a :=
  overN_keeps (fun x => m x = m a) n f (fun i x hx => (h i x).trans hx) a rfl

namespace Chip

/-! ### A step of time -/

/-- The step that waits, and what is left to slew. -/
def stepOf (c : Chip) : Option Int × Int := (c.tim.stepReq, c.tim.stepRem)

theorem stepOf_eq {c d : Chip} (h : c.tim = d.tim) : c.stepOf = d.stepOf := by unfold stepOf; rw [h]
@[simp] theorem stepOf_onOut (c : Chip) (o : Nat) (f : Output → Output) : (c.onOut o f).stepOf = c.stepOf := rfl
@[simp] theorem tim_syncOut (c : Chip) (o : Nat) : (c.syncOut o).tim = c.tim := by
  unfold syncOut
  dsimp only
  split <;> simp
@[simp] theorem stepOf_syncOut (c : Chip) (o : Nat) : (c.syncOut o).stepOf = c.stepOf := stepOf_eq (c.tim_syncOut o)
@[simp] theorem stepOf_setLate (c : Chip) (k : Clock) (o : Nat) : (c.setLate k o).stepOf = c.stepOf := by
  unfold setLate
  have h : ((c.setSt TIME.OUT_LATE (6 + o) 1).cause k .tout (6 + o) 2).stepOf = c.stepOf :=
    stepOf_eq ((cause_tim ..).trans (setSt_tim ..))
  exact h
@[simp] theorem stepOf_jumpOut (c : Chip) (k : Clock) (t0 t1 o : Nat) : (c.jumpOut k t0 t1 o).stepOf = c.stepOf := by
  unfold jumpOut
  split
  · split
    · dsimp only
      split <;> simp
    · rfl
  · rfl

@[simp] theorem onSide_tim (c : Chip) (p : Nat) (rx : Bool) (f : ASide → ASide) : (c.onSide p rx f).tim = c.tim := rfl
theorem sidePpm_tim (c : Chip) (p : Nat) (rx : Bool) : (c.sidePpm p rx).tim = c.tim := by
  unfold sidePpm
  extract_lets x f n span live ppm c₁
  have h₁ : c₁.tim = c.tim := by
    unfold c₁
    split
    · exact (onSide_tim ..).trans (setSt_tim ..)
    · exact setSt_tim ..
  exact (onSide_tim ..).trans h₁
theorem audioSecond_tim (c : Chip) : c.audioSecond.tim = c.tim := by
  unfold audioSecond
  exact overN_same Chip.tim 8 (fun p a => (sidePpm_tim _ p false).trans (sidePpm_tim a p true)) c
theorem dropSecond_tim (a : Chip) (d : Nat) : (let x := a.d d
    let c := if x.errSec then a.addSt DROPSTAT.ESEC d 1 else a
    let c := if x.lofSec then c.addSt DROPSTAT.LOFSEC d 1 else c
    if x.errSec || x.lofSec then c.onD d (fun x => { x with errSec := false, lofSec := false }) else c).tim = a.tim := by
  extract_lets x c₁ c₂
  have h₁ : c₁.tim = a.tim := by unfold c₁; split; exacts [addSt_tim .., rfl]
  have h₂ : c₂.tim = c₁.tim := by unfold c₂; split; exacts [addSt_tim .., rfl]
  split
  · exact (onD_tim ..).trans (h₂.trans h₁)
  · exact h₂.trans h₁
theorem secondWork_tim (c : Chip) (k : Clock) : (c.secondWork k).tim = c.tim := by
  unfold secondWork
  extract_lets c₁ c₂ c₃
  have h₁ : c₁.tim = c.tim := (audioSecond_tim (c.icause k 15)).trans (icause_tim c k 15)
  have h₂ : c₂.tim = c₁.tim := overN_same Chip.tim 96 (fun d a => a.dropSecond_tim d) c₁
  have h₃ : c₃.tim = c₂.tim := by
    unfold c₃
    split
    · exact onDir_tim ..
    · rfl
  clear_value c₁ c₂ c₃
  exact h₃.trans (h₂.trans h₁)

end Chip

/-- A step that waits is taken apart: whole milliseconds move local time, the remainder is left to slew. -/
theorem State.applyStep_step {s : State} {v : Int} (h : s.chip.tim.stepReq = some v) :
    s.applyStep.chip.stepOf = (none, stepR (v + s.chip.tim.stepRem)) ∧ s.applyStep.clk = s.clk.stepMs (stepM (v + s.chip.tim.stepRem)) := by
  unfold State.applyStep
  split
  next h' => rw [h'] at h; contradiction
  next v' h' =>
  obtain rfl : v' = v := Option.some.inj (h'.symm.trans h)
  extract_lets rem t k c₁ c₂ c₃ c₄ c₅
  have h₃ : c₃.stepOf = (none, stepR t) := Chip.stepOf_eq (Chip.cause_tim ..)
  have h₄ : c₄.stepOf = c₃.stepOf := by
    refine overN_same Chip.stepOf 8 (fun o a => ?_) c₃
    split
    · exact a.stepOf_jumpOut _ _ _ o
    · rfl
  have h₅ : c₅.stepOf = c₄.stepOf := overN_same Chip.stepOf 9 (fun o a => a.stepOf_onOut o _) c₄
  exact ⟨h₅.trans (h₄.trans h₃), rfl⟩

theorem stepR_range (t : Int) : -500000 ≤ stepR t ∧ stepR t ≤ 499999 := by
  unfold stepR stepM
  omega

/-- Seconds below 2⁴⁸ tell the whole time. -/
theorem Clock.stepMs_time (k : Clock) (m : Int) (h₀ : 0 ≤ (k.time : Int) + m * 1000000)
    (h₁ : (k.time : Int) + m * 1000000 < 2 ^ 48 * 1000000000) : ((k.stepMs m).time : Int) = k.time + m * 1000000 := by
  unfold Clock.stepMs Clock.time at *
  simp only [Config.secNs] at *
  omega

/-- Settles O13: where the boundary's commit has come about, a waiting step is taken apart on the superframe boundary; a step into a new
second does that second's work besides. -/
theorem stepOfTime : Obligations.StepOfTime := by
  unfold Obligations.StepOfTime
  intro v s hrun hsf hcom hreq h₀ h₁
  have hidx : s.clk.idx = 0 := by
    simp only [Clock.superframe, Bool.and_eq_true, beq_iff_eq] at hsf
    exact hsf.1
  have hexec : exec .step s = .next s.stepBoundary := by
    show execStep s = _
    unfold execStep
    rw [if_pos hsf, if_pos hrun, hcom hidx]
  obtain ⟨hstep, hclk⟩ := State.applyStep_step hreq
  have hform : s.stepBoundary.clk = s.applyStep.clk ∧ s.stepBoundary.chip.tim = s.applyStep.chip.tim := by
    unfold State.stepBoundary
    rw [if_pos ⟨hrun, hsf, by rw [hreq]; rfl⟩]
    dsimp only
    split
    · exact ⟨rfl, Chip.secondWork_tim _ _⟩
    · exact ⟨rfl, rfl⟩
  obtain ⟨hclk', htim⟩ := hform
  have hreq' : s.stepBoundary.chip.tim.stepReq = none := by rw [htim]; exact congrArg Prod.fst hstep
  have hrem' : s.stepBoundary.chip.tim.stepRem = stepR (v + s.chip.tim.stepRem) := by rw [htim]; exact congrArg Prod.snd hstep
  have hrange := stepR_range (v + s.chip.tim.stepRem)
  refine ⟨_, hexec, s.stepBoundary_pending, ?_, hrem', ?_, ?_, hreq', s.stepBoundary_evc, s.stepBoundary_ticks, s.stepBoundary_keeps⟩
  · rw [hclk', hclk]
    exact s.clk.stepMs_time _ h₀ h₁
  · rw [hrem']; exact hrange.1
  · rw [hrem']; exact hrange.2

end Sys2Proof.Machine
end

section
/-! PROOFS. What fault events, causes and changes of the shade leave inside the blocks that they reach (`Chip.Calm`): the window but
its interrupt side, the twin engine but its claim, the queues' items, the uplinks' receivers, the power manager's plan, and every
status field but those that count and show events. -/

namespace Sys2Proof.Machine
open Sys2Proof
set_option linter.unusedTactic false
set_option linter.unreachableTactic false

/-! ### The parts that events leave -/

/-- The window without its interrupt causes and their pin. -/
def Window.core (w : Window) : Window :=
  { w with icause := 0#32, setBits := 0#32, setNo := 0, glmulti := false, intn := { level := false } }
/-- The twin engine without its claim. -/
def Twin.core (t : Twin) : Twin := { t with claim := false, claimPin := { level := false }, keepLow := none }
/-- A queue without the mark that its head item is begun. -/
def Queue.core (q : Queue) : Queue := { q with begun := false }
/-- An uplink without its laser and what it is sending. -/
def Uplink.core (u : Uplink) : Uplink := { u with laser := false, dark := none, gcc := {}, oh := [], opu := [] }
/-- The power manager without the states of the blocks. -/
def Power.core (p : Power) : Power := { p with block := Vector.replicate 226 .lit, wake := [] }
/-- The audio engine without its sides. -/
def Audio.core (a : Audio) : Audio := { a with rx := Vector.replicate 8 {}, tx := Vector.replicate 8 {} }
/-- The heath without its status words. -/
def Heath.core (h : Heath) : Heath := { h with status := [], setNow := [] }

/-- The cause fields that events set outside the collector's own tables. -/
def eventCauses : List Fld := [QUEUE.CAUSE, AUDIO.CAUSE, TWIN.CAUSE]
/-- The other status fields that events write outside the collector's own tables. -/
def eventStates : List Fld :=
  [QUEUE.REWOUND, AUDIO.DISCARD, AUDIO.RXRUN, AUDIO.RXFILL, AUDIO.TXRUN, AUDIO.TXFILL, TWIN.ARMED, TWIN.CLAIMO]
/-- The collector's own tables. -/
def collectorTab (t : Nat) : Bool := t == 0x60 || t == 0x61 || t == 0x62
/-- A field that events may set to another value. -/
def Fld.noisy (f : Fld) : Bool := f.fits && (collectorTab f.tab || eventStates.contains f)
/-- A cause field that events set bits of. -/
def Fld.marks (f : Fld) : Bool := f.fits && (collectorTab f.tab || eventCauses.contains f)
/-- A field that no event writes. -/
def Fld.steady (f : Fld) : Bool :=
  f.fits && decide (f.tab < 256) && !collectorTab f.tab && (eventStates ++ eventCauses).all (fun g => g.tab != f.tab || f.apart g)

theorem eventStates_loud : ∀ f ∈ eventStates, f.loud = true := by decide
theorem eventCauses_loud : ∀ f ∈ eventCauses, f.loud = true := by decide
theorem noisy_loud {f : Fld} (h : f.noisy = true) : f.loud = true := by
  simp only [Fld.noisy, collectorTab, Bool.and_eq_true, Bool.or_eq_true, beq_iff_eq, List.contains_eq_mem, decide_eq_true_eq] at h
  rcases h.2 with ht | hm
  · have hw := (Fld.fits_iff.mp h.1).2
    rcases ht with (ht | ht) | ht <;> simp [Fld.loud, quietTab, ht, hw]
  · exact eventStates_loud f hm
theorem marks_loud {f : Fld} (h : f.marks = true) : f.loud = true := by
  simp only [Fld.marks, collectorTab, Bool.and_eq_true, Bool.or_eq_true, beq_iff_eq, List.contains_eq_mem, decide_eq_true_eq] at h
  rcases h.2 with ht | hm
  · have hw := (Fld.fits_iff.mp h.1).2
    rcases ht with (ht | ht) | ht <;> simp [Fld.loud, quietTab, ht, hw]
  · exact eventCauses_loud f hm

/-- Fields of two words share no bit. -/
theorem Fld.addr_ne_of_tab {f g : Fld} {r q : Nat} (hf : f.fits = true) (hg : g.fits = true) (hr : r < 4096) (hq : q < 4096)
    (h : f.tab ≠ g.tab) : f.addr r ≠ g.addr q := by
  have hfw := (fits_iff.mp hf).2
  have hgw := (fits_iff.mp hg).2
  unfold addr hAddr
  omega

namespace Chip

/-- A status field reads as before where it shares no bit with the one set. -/
theorem st_setSt_other {c : Chip} {f g : Fld} {r q : Nat} (v : Nat) (hwf : c.heath.status.wf = true) (hf : f.fits = true)
    (hg : g.fits = true) (hr : r < 4096) (hq : q < 4096)
    (h : f.tab ≠ g.tab ∨ r ≠ q ∨ f.apart g = true) : (c.setSt g q v).st f r = c.st f r := by
  by_cases ht : f.tab = g.tab
  · by_cases hrq : r = q
    · subst hrq
      exact st_setSt_apart hwf hf hg (by simpa [ht] using h)
    · exact st_setSt_word c g f q r v (Fld.addr_ne_of_row hf hg hr hq hrq)
  · exact st_setSt_word c g f q r v (Fld.addr_ne_of_tab hf hg hr hq ht)
theorem st_orSt (c : Chip) (f g : Fld) (r q n : Nat) : (c.orSt g q n).st f r = (c.setSt g q (c.st g q ||| n)).st f r :=
  st_markEvent ..
theorem st_cause_orSt (c : Chip) (k : Clock) (g : CauseReg) (row bits : Nat) (f : Fld) (r : Nat) :
    (c.cause k g row bits).st f r = (c.setSt g.cause row (c.st g.cause row ||| bits)).st f r := by
  rw [st, cause_status, ← st_orSt, st]

/-- What fault events, causes and changes of the shade leave. -/
structure Calm (z c : Chip) : Prop extends Chip.Quiet z c where
  win : c.win.core = z.win.core
  causes : ∀ n, z.win.icause.getLsbD n = true → c.win.icause.getLsbD n = true
  twin : c.twin.core = z.twin.core
  que : ∀ i, (c.q i).core = (z.q i).core
  upl : ∀ i, (c.u i).core = (z.u i).core
  pow : c.pow.core = z.pow.core
  aud : c.aud.core = z.aud.core
  heath : c.heath.core = z.heath.core
  stat : z.heath.status.wf = true → ∀ (f : Fld) (r : Nat), f.steady = true → r < 4096 → c.st f r = z.st f r
  marks : z.heath.status.wf = true → ∀ f ∈ eventCauses, ∀ r < 4096, ∀ n, (z.st f r).testBit n = true → (c.st f r).testBit n = true

namespace Calm

theorem refl (z : Chip) : Calm z z :=
  { Quiet.refl z with
    win := rfl, causes := fun _ h => h, twin := rfl, que := fun _ => rfl, upl := fun _ => rfl, pow := rfl, aud := rfl, heath := rfl
    stat := fun _ _ _ _ _ => rfl, marks := fun _ _ _ _ _ _ h => h }
theorem trans {a b c : Chip} (h : Calm a b) (g : Calm b c) : Calm a c :=
  { h.toQuiet.trans g.toQuiet with
    win := g.win.trans h.win, causes := fun n hn => g.causes n (h.causes n hn), twin := g.twin.trans h.twin
    que := fun i => (g.que i).trans (h.que i), upl := fun i => (g.upl i).trans (h.upl i), pow := g.pow.trans h.pow
    aud := g.aud.trans h.aud, heath := g.heath.trans h.heath
    stat := fun hw f r hf hr => (g.stat (h.wf hw) f r hf hr).trans (h.stat hw f r hf hr)
    marks := fun hw f hf r hr n hn => g.marks (h.wf hw) f hf r hr n (h.marks hw f hf r hr n hn) }
theorem ite {z a b : Chip} {p : Prop} [Decidable p] (ha : Calm z a) (hb : Calm z b) : Calm z (if p then a else b) := by
  split <;> assumption
theorem iteElse {z a c : Chip} {p : Prop} [Decidable p] (h : Calm z c) (ha : Calm z c → Calm z a) :
    Calm z (if p then a else c) := ite (ha h) h
theorem foldl {z c : Chip} {α : Type} (l : List α) {f : Chip → α → Chip} (h : Calm z c)
    (hf : ∀ a, ∀ x ∈ l, Calm z a → Calm z (f a x)) : Calm z (l.foldl f c) := by
  induction l generalizing c with
  | nil => exact h
  | cons x r ih => exact ih (hf _ _ (List.mem_cons_self ..) h) (fun a y hy => hf a y (List.mem_cons_of_mem _ hy))
theorem overN {z c : Chip} (n : Nat) {f : Nat → Chip → Chip} (h : Calm z c)
    (hf : ∀ i, i < n → ∀ a, Calm z a → Calm z (f i a)) : Calm z (overN n f c) :=
  foldl _ h (fun a x hx ha => hf x (List.mem_range.mp hx) a ha)

/-- A field that no event writes shares no bit with one that they write. -/
theorem steady_apart {f g : Fld} (hf : f.steady = true)
    (h : collectorTab g.tab = true ∨ g ∈ eventStates ++ eventCauses) : f.tab ≠ g.tab ∨ f.apart g = true := by
  simp only [Fld.steady, Bool.and_eq_true, Bool.not_eq_true', List.all_eq_true, Bool.or_eq_true, bne_iff_ne] at hf
  obtain ⟨⟨⟨_, _⟩, hcol⟩, hev⟩ := hf
  rcases h with h | h
  · left
    intro e
    rw [e, h] at hcol
    contradiction
  · exact (hev g h).imp_left fun h e => h e.symm
theorem steady_fits {f : Fld} (hf : f.steady = true) : f.fits = true := by
  simp only [Fld.steady, Bool.and_eq_true] at hf
  exact hf.1.1.1
theorem steady_tab {f : Fld} (hf : f.steady = true) : f.tab < 256 := by
  simp only [Fld.steady, Bool.and_eq_true, decide_eq_true_eq] at hf
  exact hf.1.1.2
theorem written_of_noisy {g : Fld} (hg : g.noisy = true) : collectorTab g.tab = true ∨ g ∈ eventStates ++ eventCauses := by
  simp only [Fld.noisy, Bool.and_eq_true, Bool.or_eq_true, List.contains_eq_mem, decide_eq_true_eq] at hg
  exact hg.2.imp_right fun h => List.mem_append_left _ h
theorem written_of_marks {g : Fld} (hg : g.marks = true) : collectorTab g.tab = true ∨ g ∈ eventStates ++ eventCauses := by
  simp only [Fld.marks, Bool.and_eq_true, Bool.or_eq_true, List.contains_eq_mem, decide_eq_true_eq] at hg
  exact hg.2.imp_right fun h => List.mem_append_right _ h
theorem eventFields_apart : ∀ f ∈ eventCauses, ∀ g ∈ eventStates ++ eventCauses, g = f ∨ f.tab ≠ g.tab ∨ f.apart g = true := by decide
/-- The cause fields lie apart from the other fields that events write, and from each other. -/
theorem cause_apart {f g : Fld} (hf : f ∈ eventCauses) (hg : collectorTab g.tab = true ∨ g ∈ eventStates ++ eventCauses) :
    g = f ∨ f.tab ≠ g.tab ∨ f.apart g = true := by
  rcases hg with hg | hg
  · have h : ∀ f ∈ eventCauses, collectorTab f.tab = false := by decide
    right; left
    intro e
    rw [← e, h f hf] at hg
    contradiction
  · exact eventFields_apart f hf g hg
theorem eventCauses_quiet : ∀ g ∈ eventCauses, g.noisy = false := by decide
theorem eventCauses_fit : ∀ f ∈ eventCauses, f.fits = true ∧ f.tab < 256 := by decide

/-- Status words that are written change nothing but what they read. -/
theorem withStatus {z c : Chip} (b : Bank) (h : Calm z c) (hq : Quiet z (c.withStatus b))
    (hstat : z.heath.status.wf = true → ∀ (f : Fld) (r : Nat), f.steady = true → r < 4096 → (c.withStatus b).st f r = c.st f r)
    (hmarks : z.heath.status.wf = true → ∀ f ∈ eventCauses, ∀ r < 4096, ∀ n, (c.st f r).testBit n = true →
      ((c.withStatus b).st f r).testBit n = true) : Calm z (c.withStatus b) :=
  { hq with
    win := h.win, causes := h.causes, twin := h.twin, que := h.que, upl := h.upl, pow := h.pow, aud := h.aud, heath := h.heath
    stat := fun hw f r hf hr => (hstat hw f r hf hr).trans (h.stat hw f r hf hr)
    marks := fun hw f hf r hr n hn => hmarks hw f hf r hr n (h.marks hw f hf r hr n hn) }
theorem setSt {z c : Chip} (f : Fld) (r v : Nat) (hf : f.noisy = true) (hr : r < 4096) (h : Calm z c) : Calm z (c.setSt f r v) := by
  have hfit : f.fits = true := by
    simp only [Fld.noisy, Bool.and_eq_true] at hf
    exact hf.1
  have hn' : ∀ g ∈ eventCauses, g ≠ f := by
    intro g hg e
    rw [← e, eventCauses_quiet g hg] at hf
    contradiction
  refine withStatus _ h (h.toQuiet.setSt f r v (noisy_loud hf) hr) (fun hw g q hg hq => ?_) (fun hw g hg q hq n hn => ?_)
  · exact (st_setSt_other v (h.wf hw) (steady_fits hg) hfit hq hr
      ((steady_apart hg (written_of_noisy hf)).imp_right .inr))
  · exact (congrArg (Nat.testBit · n) (st_setSt_other v (h.wf hw) (eventCauses_fit g hg).1 hfit hq hr (((cause_apart hg (written_of_noisy hf)).resolve_left fun e => hn' g hg e.symm).imp_right .inr))).trans hn
theorem addSt {z c : Chip} (f : Fld) (r v : Nat) (hf : f.noisy = true) (hr : r < 4096) (h : Calm z c) : Calm z (c.addSt f r v) :=
  setSt f r _ hf hr h
theorem satSt {z c : Chip} (f : Fld) (r v : Nat) (hf : f.noisy = true) (hr : r < 4096) (h : Calm z c) : Calm z (c.satSt f r v) :=
  setSt f r _ hf hr h
theorem onQ {z c : Chip} (i : Nat) (f : Queue → Queue) (h : Calm z c) (hf : ∀ x, (f x).core = x.core) : Calm z (c.onQ i f) :=
  { h with
    toQuiet := h.toQuiet.onQ i f
    que := fun j => by
      by_cases hj : j = i
      · subst hj
        by_cases hl : j < 12
        · rw [q_onQ_same c j f hl, hf]; exact h.que j
        · rw [← h.que j]; simp [Chip.onQ, Chip.q, vget, vupd, hl]
      · rw [q_onQ_other c i j f hj]; exact h.que j }
theorem onU {z c : Chip} (i : Nat) (f : Uplink → Uplink) (h : Calm z c) (hf : ∀ x, (f x).core = x.core) : Calm z (c.onU i f) :=
  { h with
    toQuiet := h.toQuiet.onU i f
    upl := fun j => by
      by_cases hj : j = i
      · subst hj
        by_cases hl : j < 4
        · rw [u_onU_same c j f hl, hf]; exact h.upl j
        · rw [← h.upl j]; simp [Chip.onU, Chip.u, vget, vupd, hl]
      · rw [u_onU_other c i j f hj]; exact h.upl j }
theorem markEvent {z c : Chip} (h : Calm z c) (a : Nat) (w : Word) : Calm z (c.markEvent a w) :=
  { h with toQuiet := h.toQuiet.markEvent a w }
theorem onCol {z c : Chip} (f : Collector → Collector) (h : Calm z c) : Calm z (c.onCol f) := { h with toQuiet := h.toQuiet.onCol f }
theorem onTwin {z c : Chip} (f : Twin → Twin) (h : Calm z c) (hf : ∀ x, (f x).core = x.core) : Calm z (c.onTwin f) :=
  { h with toQuiet := h.toQuiet.onTwin f, twin := (hf _).trans h.twin }
theorem onPow {z c : Chip} (f : Power → Power) (h : Calm z c) (hf : ∀ x, (f x).core = x.core) : Calm z (c.onPow f) :=
  { h with toQuiet := h.toQuiet.onPow f, pow := (hf _).trans h.pow }
theorem onSide {z c : Chip} (p : Nat) (rx : Bool) (f : ASide → ASide) (h : Calm z c) : Calm z (c.onSide p rx f) :=
  { h with
    toQuiet := h.toQuiet.onSide p rx f
    aud := by rw [← h.aud]; unfold Chip.onSide; split <;> rfl }
theorem icause {z c : Chip} (k : Clock) (n : Nat) (h : Calm z c) : Calm z (c.icause k n) :=
  { h with
    toQuiet := h.toQuiet.icause k n
    win := h.win
    causes := fun i hi => by
      rw [icause_bits, BitVec.getLsbD_or, h.causes i hi, Bool.true_or] }
theorem orSt {z c : Chip} (f : Fld) (r v : Nat) (hf : f.marks = true) (hr : r < 4096) (h : Calm z c) : Calm z (c.orSt f r v) := by
  have hfit : f.fits = true := by
    simp only [Fld.marks, Bool.and_eq_true] at hf
    exact hf.1
  have hset : Calm z (c.setSt f r (c.st f r ||| v)) := by
    refine withStatus _ h (h.toQuiet.setSt f r _ (marks_loud hf) hr) (fun hw g q hg hq => ?_) (fun hw g hg q hq n hold => ?_)
    · exact st_setSt_other _ (h.wf hw) (steady_fits hg) hfit hq hr
        ((steady_apart hg (written_of_marks hf)).imp_right .inr)
    · change ((c.setSt f r (c.st f r ||| v)).st g q).testBit n = true
      rcases cause_apart hg (written_of_marks hf) with e | e
      · subst e
        by_cases hqr : q = r
        · subst hqr
          rw [st_setSt_same c f q _ (h.wf hw) (Fld.fits_iff.mp hfit).1, Nat.testBit_mod_two_pow, Nat.testBit_or, hold]
          simp only [Bool.true_or, Bool.and_true, decide_eq_true_eq]
          exact Nat.lt_of_not_le fun hle => by
            have hlt : c.st f q < 2 ^ n := lt_of_lt_of_le (Fld.get_lt f _) (Nat.pow_le_pow_right (by decide) hle)
            rw [Nat.testBit_lt_two_pow hlt] at hold
            contradiction
        · rw [st_setSt_other _ (h.wf hw) hfit hfit hq hr (.inr (.inl hqr))]
          exact hold
      · rw [st_setSt_other _ (h.wf hw) (eventCauses_fit g hg).1 hfit hq hr
          (e.imp_right .inr)]
        exact hold
  unfold Chip.orSt
  exact hset.markEvent _ _
theorem cause {z c : Chip} (k : Clock) (g : CauseReg) (r b : Nat) (hf : g.cause.marks = true) (hr : r < 4096) (h : Calm z c) :
    Calm z (c.cause k g r b) :=
  ite (orSt _ _ _ hf hr h) (icause _ _ (orSt _ _ _ hf hr h))
theorem qReg_marks (i : Nat) : (qReg i).cause.marks = true := by unfold qReg; split <;> rfl
theorem putEntry {z c : Chip} (k : Clock) (g i kind src seq : Nat) (hg : g < 24) (hi : i < 16) (h : Calm z c) :
    Calm z (c.putEntry k g i kind src seq) := by
  have hread : ∀ (f : Fld) (r : Nat), f.fits = true → f.tab < 256 → collectorTab f.tab = false → r < 4096 →
      (c.putEntry k g i kind src seq).st f r = c.st f r := by
    intro f r hfit htab hcol hr
    have hne : ∀ w < 4096, f.addr r ≠ hAddr 0x62 (16 * g + i) w := by
      intro w hw e
      have ht := tabOf_hAddr htab hr (Fld.fits_iff.mp hfit).2
      rw [← Fld.addr, e, tabOf_hAddr (by decide) (by omega) hw] at ht
      rw [← ht] at hcol
      contradiction
    exact congrArg f.get ((Bank.read_write_other _ _ (hne 3 (by decide))).trans ((Bank.read_write_other _ _ (hne 2 (by decide))).trans
      ((Bank.read_write_other _ _ (hne 1 (by decide))).trans (Bank.read_write_other _ _ (hne 0 (by decide))))))
  refine withStatus _ h (h.toQuiet.putEntry k g i kind src seq hg hi) (fun hw f r hf hr => ?_) (fun hw f hf r hr n hn => ?_)
  · have hcol : collectorTab f.tab = false := by
      simp only [Fld.steady, Bool.and_eq_true, Bool.not_eq_true'] at hf
      exact hf.1.2
    exact hread f r (steady_fits hf) (steady_tab hf) hcol hr
  · have hcol : ∀ f ∈ eventCauses, collectorTab f.tab = false := by decide
    exact (congrArg (Nat.testBit · n) (hread f r (eventCauses_fit f hf).1 (eventCauses_fit f hf).2 (hcol f hf) hr)).trans hn
theorem setBlk {z c : Chip} (b : Nat) (s : PwrState) (hz : Calm z c) : Calm z (c.setBlk b s) := by
  unfold Chip.setBlk
  repeat' (first | with_reducible assumption | omega | exact Fld.get_lt _ _ | with_reducible exact grpOf_lt (by assumption) | with_reducible exact qReg_marks _ | with_reducible rfl | exact rfl | with_reducible exact Calm.refl _ | with_reducible apply Calm.onPow | (intro; intros))
theorem beginWake {z c : Chip} (b e : Nat) (hz : Calm z c) : Calm z (c.beginWake b e) := by
  unfold Chip.beginWake
  repeat' (first | with_reducible assumption | omega | exact Fld.get_lt _ _ | with_reducible exact grpOf_lt (by assumption) | with_reducible exact qReg_marks _ | with_reducible rfl | exact rfl | with_reducible exact Calm.refl _ | with_reducible apply Calm.onPow | with_reducible apply Calm.iteElse | (intro; intros))
theorem endWakes {z c : Chip} (e : Nat) (hz : Calm z c) : Calm z (c.endWakes e) := by
  unfold Chip.endWakes
  repeat' (first | with_reducible assumption | omega | exact Fld.get_lt _ _ | with_reducible exact grpOf_lt (by assumption) | with_reducible exact qReg_marks _ | with_reducible rfl | exact rfl | with_reducible exact Calm.refl _ | with_reducible apply Calm.setBlk | with_reducible apply Calm.foldl | with_reducible apply Calm.iteElse | (intro; intros))
theorem qRewound {z c : Chip} (k : Clock) (i : Nat) (hi : i < 4096) (hz : Calm z c) : Calm z (c.qRewound k i) := by
  unfold Chip.qRewound
  repeat' (first | with_reducible assumption | omega | exact Fld.get_lt _ _ | with_reducible exact grpOf_lt (by assumption) | with_reducible exact qReg_marks _ | with_reducible rfl | exact rfl | with_reducible exact Calm.refl _ | with_reducible apply Calm.addSt | with_reducible apply Calm.cause | (intro; intros))
theorem qReturn {z c : Chip} (k : Clock) (i : Nat) (hi : i < 4096) (hz : Calm z c) : Calm z (c.qReturn k i) := by
  unfold Chip.qReturn
  repeat' (first | with_reducible assumption | omega | exact Fld.get_lt _ _ | with_reducible exact grpOf_lt (by assumption) | with_reducible exact qReg_marks _ | with_reducible rfl | exact rfl | with_reducible exact Calm.refl _ | with_reducible apply Calm.onQ | with_reducible apply Calm.qRewound | with_reducible apply Calm.iteElse | (intro; intros))
theorem syncLasers {z c : Chip} (hz : Calm z c) : Calm z (c.syncLasers) := by
  unfold Chip.syncLasers
  repeat' (first | with_reducible assumption | omega | exact Fld.get_lt _ _ | with_reducible exact grpOf_lt (by assumption) | with_reducible exact qReg_marks _ | with_reducible rfl | exact rfl | with_reducible exact Calm.refl _ | with_reducible apply Calm.onU | with_reducible apply Calm.overN | with_reducible apply Calm.iteElse | (intro; intros))
theorem syncClaim {z c : Chip} (k : Clock) (hz : Calm z c) : Calm z (c.syncClaim k) := by
  unfold Chip.syncClaim
  repeat' (first | with_reducible assumption | omega | exact Fld.get_lt _ _ | with_reducible exact grpOf_lt (by assumption) | with_reducible exact qReg_marks _ | with_reducible rfl | exact rfl | with_reducible exact Calm.refl _ | with_reducible apply Calm.onTwin | with_reducible apply Calm.setSt | (intro; intros))
theorem disarm {z c : Chip} (k : Clock) (hz : Calm z c) : Calm z (c.disarm k) := by
  unfold Chip.disarm
  repeat' (first | with_reducible assumption | omega | exact Fld.get_lt _ _ | with_reducible exact grpOf_lt (by assumption) | with_reducible exact qReg_marks _ | with_reducible rfl | exact rfl | with_reducible exact Calm.refl _ | with_reducible apply Calm.setSt | with_reducible apply Calm.cause | with_reducible apply Calm.iteElse | (intro; intros))
theorem syncSide {z c : Chip} (p : Nat) (rx : Bool) (hp : p < 4096) (hz : Calm z c) : Calm z (c.syncSide p rx) := by
  unfold Chip.syncSide
  repeat' (first | with_reducible assumption | omega | exact Fld.get_lt _ _ | with_reducible exact grpOf_lt (by assumption) | with_reducible exact qReg_marks _ | with_reducible rfl | exact rfl | with_reducible exact Calm.refl _ | with_reducible apply Calm.setSt | with_reducible apply Calm.iteElse | (intro; intros))
theorem setRun {z c : Chip} (k : Clock) (p : Nat) (rx b : Bool) (hp : p < 4096) (hz : Calm z c) : Calm z (c.setRun k p rx b) := by
  unfold Chip.setRun
  repeat' (first | with_reducible assumption | omega | exact Fld.get_lt _ _ | with_reducible exact grpOf_lt (by assumption) | with_reducible exact qReg_marks _ | with_reducible rfl | exact rfl | with_reducible exact Calm.refl _ | with_reducible apply Calm.onSide | with_reducible apply Calm.syncSide | with_reducible apply Calm.cause | with_reducible apply Calm.iteElse | (intro; intros))
theorem stopSide {z c : Chip} (k : Clock) (p : Nat) (rx : Bool) (hp : p < 4096) (hz : Calm z c) : Calm z (c.stopSide k p rx) := by
  unfold Chip.stopSide
  repeat' (first | with_reducible assumption | omega | exact Fld.get_lt _ _ | with_reducible exact grpOf_lt (by assumption) | with_reducible exact qReg_marks _ | with_reducible rfl | exact rfl | with_reducible exact Calm.refl _ | with_reducible apply Calm.onSide | with_reducible apply Calm.addSt | with_reducible apply Calm.setRun | (intro; intros))
theorem shadeBlocks {z c : Chip} (hz : Calm z c) : Calm z (c.shadeBlocks) := by
  unfold Chip.shadeBlocks
  repeat' (first | with_reducible assumption | omega | exact Fld.get_lt _ _ | with_reducible exact grpOf_lt (by assumption) | with_reducible exact qReg_marks _ | with_reducible rfl | exact rfl | with_reducible exact Calm.refl _ | with_reducible apply Calm.setBlk | with_reducible apply Calm.overN | with_reducible apply Calm.iteElse | (intro; intros))
theorem wakeUplinks {z c : Chip} (k : Clock) (hz : Calm z c) : Calm z (c.wakeUplinks k) := by
  unfold Chip.wakeUplinks
  repeat' (first | with_reducible assumption | omega | exact Fld.get_lt _ _ | with_reducible exact grpOf_lt (by assumption) | with_reducible exact qReg_marks _ | with_reducible rfl | exact rfl | with_reducible exact Calm.refl _ | with_reducible apply Calm.beginWake | with_reducible apply Calm.overN | with_reducible apply Calm.iteElse | (intro; intros))
theorem shadeFalls {z c : Chip} (k : Clock) (hz : Calm z c) : Calm z (c.shadeFalls k) := by
  unfold Chip.shadeFalls
  repeat' (first | with_reducible assumption | omega | exact Fld.get_lt _ _ | with_reducible exact grpOf_lt (by assumption) | with_reducible exact qReg_marks _ | with_reducible rfl | exact rfl | with_reducible exact Calm.refl _ | with_reducible apply Calm.syncLasers | with_reducible apply Calm.shadeBlocks | with_reducible apply Calm.stopSide | with_reducible apply Calm.qReturn | with_reducible apply Calm.onU | with_reducible apply Calm.syncClaim | with_reducible apply Calm.overN | with_reducible apply Calm.iteElse | (intro; intros))
theorem shadeLifts {z c : Chip} (k : Clock) (hz : Calm z c) : Calm z (c.shadeLifts k) := by
  unfold Chip.shadeLifts
  repeat' (first | with_reducible assumption | omega | exact Fld.get_lt _ _ | with_reducible exact grpOf_lt (by assumption) | with_reducible exact qReg_marks _ | with_reducible rfl | exact rfl | with_reducible exact Calm.refl _ | with_reducible apply Calm.syncLasers | with_reducible apply Calm.wakeUplinks | with_reducible apply Calm.syncClaim | (intro; intros))
theorem reshade {z c : Chip} (k : Clock) (was : Bool) (hz : Calm z c) : Calm z (c.reshade k was) := by
  unfold Chip.reshade
  repeat' (first | with_reducible assumption | omega | exact Fld.get_lt _ _ | with_reducible exact grpOf_lt (by assumption) | with_reducible exact qReg_marks _ | with_reducible rfl | exact rfl | with_reducible exact Calm.refl _ | with_reducible apply Calm.syncClaim | with_reducible apply Calm.shadeFalls | with_reducible apply Calm.shadeLifts | with_reducible apply Calm.iteElse | (intro; intros))
theorem history {z c : Chip} (k : Clock) (g kind src : Nat) (hg : g < 24) (hz : Calm z c) : Calm z (c.history k g kind src) := by
  unfold Chip.history
  repeat' (first | with_reducible assumption | omega | exact Fld.get_lt _ _ | with_reducible exact grpOf_lt (by assumption) | with_reducible exact qReg_marks _ | with_reducible rfl | exact rfl | with_reducible exact Calm.refl _ | with_reducible apply Calm.putEntry | with_reducible apply Calm.setSt | with_reducible apply Calm.onCol | with_reducible apply Calm.iteElse | (intro; intros))
theorem latch {z c : Chip} (k : Clock) (g kind src : Nat) (hg : g < 24) (hz : Calm z c) : Calm z (c.latch k g kind src) := by
  unfold Chip.latch
  repeat' (first | with_reducible assumption | omega | exact Fld.get_lt _ _ | with_reducible exact grpOf_lt (by assumption) | with_reducible exact qReg_marks _ | with_reducible rfl | exact rfl | with_reducible exact Calm.refl _ | with_reducible apply Calm.putEntry | with_reducible apply Calm.setSt | with_reducible apply Calm.satSt | with_reducible apply Calm.cause | with_reducible apply Calm.iteElse | (intro; intros))
theorem rearm {z c : Chip} (g : Nat) (hg : g < 4096) (hz : Calm z c) : Calm z (c.rearm g) := by
  unfold Chip.rearm
  repeat' (first | with_reducible assumption | omega | exact Fld.get_lt _ _ | with_reducible exact grpOf_lt (by assumption) | with_reducible exact qReg_marks _ | with_reducible rfl | exact rfl | with_reducible exact Calm.refl _ | with_reducible apply Calm.setSt | (intro; intros))
theorem syncFaultN {z c : Chip} (k : Clock) (hz : Calm z c) : Calm z (c.syncFaultN k) := by
  unfold Chip.syncFaultN
  repeat' (first | with_reducible assumption | omega | exact Fld.get_lt _ _ | with_reducible exact grpOf_lt (by assumption) | with_reducible exact qReg_marks _ | with_reducible rfl | exact rfl | with_reducible exact Calm.refl _ | with_reducible apply Calm.onCol | (intro; intros))
theorem putFlt {z c : Chip} (s : Nat) (b : Bool) (hs : s < 384) (hz : Calm z c) : Calm z (c.putFlt s b) := by
  unfold Chip.putFlt
  repeat' (first | with_reducible assumption | omega | exact Fld.get_lt _ _ | with_reducible exact grpOf_lt (by assumption) | (with_reducible exact Nat.lt_trans (grpOf_lt (by assumption)) (by decide)) | with_reducible exact qReg_marks _ | with_reducible rfl | exact rfl | with_reducible exact Calm.refl _ | with_reducible apply Calm.onCol | with_reducible apply Calm.setSt | (intro; intros))
theorem syncShade {z c : Chip} (k : Clock) (src : Nat) (hz : Calm z c) : Calm z (c.syncShade k src) := by
  unfold Chip.syncShade
  repeat' (first | with_reducible assumption | omega | exact Fld.get_lt _ _ | with_reducible exact grpOf_lt (by assumption) | with_reducible exact qReg_marks _ | with_reducible rfl | exact rfl | with_reducible exact Calm.refl _ | with_reducible apply Calm.onCol | with_reducible apply Calm.onTwin | with_reducible apply Calm.disarm | with_reducible apply Calm.setSt | with_reducible apply Calm.cause | with_reducible apply Calm.reshade | with_reducible apply Calm.iteElse | (intro; intros))
theorem markEdge {z c : Chip} (k : Clock) (s : Nat) (loud : Bool) (hz : Calm z c) : Calm z (c.markEdge k s loud) := by
  unfold Chip.markEdge
  repeat' (first | with_reducible assumption | with_reducible rfl | exact rfl | with_reducible exact Calm.refl _ | with_reducible apply Calm.onCol | (intro; intros))
theorem fltEvent {z c : Chip} (k : Clock) (s : Nat) (hs : s < 384) (hz : Calm z c) : Calm z (c.fltEvent k s) := by
  unfold Chip.fltEvent
  repeat' (first | with_reducible apply Calm.markEdge | with_reducible assumption | omega | exact Fld.get_lt _ _ | with_reducible exact grpOf_lt (by assumption) | (with_reducible exact Nat.lt_trans (grpOf_lt (by assumption)) (by decide)) | with_reducible exact qReg_marks _ | with_reducible rfl | exact rfl | with_reducible exact Calm.refl _ | with_reducible apply Calm.addSt | with_reducible apply Calm.onCol | with_reducible apply Calm.history | with_reducible apply Calm.latch | with_reducible apply Calm.cause | with_reducible apply Calm.setSt | with_reducible apply Calm.putFlt | with_reducible apply Calm.syncFaultN | with_reducible apply Calm.syncShade | with_reducible apply Calm.iteElse | (intro; intros))
theorem tumble {z c : Chip} (k : Clock) (s : Nat) (hs : s < 4096) (hz : Calm z c) : Calm z (c.tumble k s) := by
  unfold Chip.tumble
  repeat' (first | with_reducible assumption | omega | exact Fld.get_lt _ _ | with_reducible exact grpOf_lt (by assumption) | with_reducible exact qReg_marks _ | with_reducible rfl | exact rfl | with_reducible exact Calm.refl _ | with_reducible apply Calm.onCol | with_reducible apply Calm.setSt | with_reducible apply Calm.iteElse | (intro; intros))
theorem openWindow {z c : Chip} (k : Clock) (s : Nat) (hs : s < 4096) (hz : Calm z c) : Calm z (c.openWindow k s) := by
  unfold Chip.openWindow
  repeat' (first | with_reducible assumption | omega | exact Fld.get_lt _ _ | with_reducible exact grpOf_lt (by assumption) | with_reducible exact qReg_marks _ | with_reducible rfl | exact rfl | with_reducible exact Calm.refl _ | with_reducible apply Calm.onCol | with_reducible apply Calm.setSt | (intro; intros))
theorem srcEvent {z c : Chip} (k : Clock) (s : Nat) (hs : s < 384) (hz : Calm z c) : Calm z (c.srcEvent k s) := by
  unfold Chip.srcEvent
  repeat' (first | with_reducible apply Calm.markEdge | with_reducible assumption | omega | exact Fld.get_lt _ _ | with_reducible exact grpOf_lt (by assumption) | (with_reducible exact Nat.lt_trans (grpOf_lt (by assumption)) (by decide)) | with_reducible exact qReg_marks _ | with_reducible rfl | exact rfl | with_reducible exact Calm.refl _ | with_reducible apply Calm.tumble | with_reducible apply Calm.addSt | with_reducible apply Calm.satSt | with_reducible apply Calm.fltEvent | with_reducible apply Calm.iteElse | (intro; intros))
theorem setCond {z c : Chip} (k : Clock) (s : Nat) (present : Bool) (hs : s < 384) (hz : Calm z c) : Calm z (c.setCond k s present) := by
  unfold Chip.setCond
  repeat' (first | with_reducible assumption | omega | exact Fld.get_lt _ _ | with_reducible exact grpOf_lt (by assumption) | (with_reducible exact Nat.lt_trans (grpOf_lt (by assumption)) (by decide)) | with_reducible exact qReg_marks _ | with_reducible rfl | exact rfl | with_reducible exact Calm.refl _ | with_reducible apply Calm.onCol | with_reducible apply Calm.setSt | with_reducible apply Calm.srcEvent | with_reducible apply Calm.iteElse | (intro; intros))
theorem injLanded {z c : Chip} (k : Clock) (tgt : Nat) (ht : tgt < 384) (hz : Calm z c) : Calm z (c.injLanded k tgt) := by
  unfold Chip.injLanded
  repeat' (first | with_reducible assumption | omega | exact Fld.get_lt _ _ | with_reducible exact grpOf_lt (by assumption) | (with_reducible exact Nat.lt_trans (grpOf_lt (by assumption)) (by decide)) | with_reducible exact qReg_marks _ | with_reducible rfl | exact rfl | with_reducible exact Calm.refl _ | with_reducible apply Calm.onCol | with_reducible apply Calm.setSt | with_reducible apply Calm.cause | with_reducible apply Calm.history | (intro; intros))
theorem cleared {z c : Chip} (k : Clock) (s : Nat) (hs : s < 384) (hz : Calm z c) : Calm z (c.cleared k s) := by
  unfold Chip.cleared
  repeat' (first | with_reducible assumption | omega | exact Fld.get_lt _ _ | with_reducible exact grpOf_lt (by assumption) | (with_reducible exact Nat.lt_trans (grpOf_lt (by assumption)) (by decide)) | with_reducible exact qReg_marks _ | with_reducible rfl | exact rfl | with_reducible exact Calm.refl _ | with_reducible apply Calm.putFlt | with_reducible apply Calm.cause | with_reducible apply Calm.history | (intro; intros))
theorem clearFlt {z c : Chip} (k : Clock) (s : Nat) (hs : s < 384) (hz : Calm z c) : Calm z (c.clearFlt k s) := by
  unfold Chip.clearFlt
  repeat' (first | with_reducible apply Calm.cleared | with_reducible assumption | omega | exact Fld.get_lt _ _ | with_reducible exact grpOf_lt (by assumption) | (with_reducible exact Nat.lt_trans (grpOf_lt (by assumption)) (by decide)) | with_reducible exact qReg_marks _ | with_reducible rfl | exact rfl | with_reducible exact Calm.refl _ | with_reducible apply Calm.putFlt | with_reducible apply Calm.cause | with_reducible apply Calm.history | (intro; intros))
theorem raise {z c : Chip} (k : Clock) (srcs : List Nat) (hs : ∀ s ∈ srcs, s < 384) (hz : Calm z c) : Calm z (c.raise k srcs) := by
  unfold Chip.raise
  repeat' (first | with_reducible assumption | omega | with_reducible exact hs _ (by assumption) | exact Fld.get_lt _ _ | with_reducible exact grpOf_lt (by assumption) | with_reducible exact qReg_marks _ | with_reducible rfl | exact rfl | with_reducible exact Calm.refl _ | with_reducible apply Calm.srcEvent | with_reducible apply Calm.foldl | with_reducible apply Calm.iteElse | (intro; intros))

end Calm
end Chip
end Sys2Proof.Machine
end

section
/-! PROOFS. The release edge (chapter 17) and overruns of the tick budget (R37). -/

namespace Sys2Proof.Machine
open Sys2Proof

/-- What stands in an ordered list after one more. -/
theorem mem_insertSorted {x y : Nat} {l : List Nat} : y ∈ insertSorted x l ↔ y = x ∨ y ∈ l := by
  induction l with
  | nil => simp [insertSorted]
  | cons a l ih =>
    unfold insertSorted
    split
    · exact List.mem_cons
    · split
      · next h => simp [h]
      · rw [List.mem_cons, List.mem_cons, ih]
        tauto
theorem mem_foldl_insertSorted {y : Nat} {xs l : List Nat} : y ∈ xs.foldl (fun l x => insertSorted x l) l ↔ y ∈ xs ∨ y ∈ l := by
  induction xs generalizing l with
  | nil => simp
  | cons x xs ih => rw [List.foldl_cons, ih, mem_insertSorted, List.mem_cons]; tauto

namespace Chip

/-- The barriers that failed their link in S3. -/
def markBarriers (c : Chip) (bad : List Nat) : Chip :=
  bad.foldl (fun c d => if copper d then c.onD d (fun x => { x with barrier := true }) else c) c

theorem markBarriers_form (c : Chip) (bad : List Nat) : ∃ v, c.markBarriers bad = { c with drop := v } := by
  induction bad generalizing c with
  | nil => exact ⟨_, rfl⟩
  | cons d bad ih =>
    obtain ⟨v, hv⟩ := ih (if copper d then c.onD d (fun x => { x with barrier := true }) else c)
    refine ⟨v, hv.trans ?_⟩
    split <;> rfl
theorem markBarriers_barrier (c : Chip) (bad : List Nat) (d : Nat) (hd : copper d = true) :
    ((c.markBarriers bad).d d).barrier = true ↔ (c.d d).barrier = true ∨ d ∈ bad := by
  induction bad generalizing c with
  | nil => simp [markBarriers]
  | cons e bad ih =>
    have hd96 : d < 96 := lt_trans (of_decide_eq_true hd) (by decide)
    rw [show c.markBarriers (e :: bad) = (if copper e then c.onD e (fun x => { x with barrier := true }) else c).markBarriers bad from rfl,
      ih, List.mem_cons]
    by_cases he : d = e
    · subst he
      rw [if_pos hd, d_onD_same c d _ hd96]
      simp
    · have hother : (if copper e then c.onD e (fun x => { x with barrier := true }) else c).d d = c.d d := by
        split
        · exact d_onD_other c e d _ he
        · rfl
      rw [hother]
      simp [he]

end Chip

/-- The part as its release finds it, before the faults that S3 found are raised. -/
def Chip.released (b : Boot) (mode : Bool) (adr : Nat) (twnId : Bool) (boot free : Nat) : Chip :=
  ({ boot := { phase := .run, cause := b.nextCause, nextCause := b.nextCause, rstLow := b.rstLow, ioRailUp := true, vioStrap := b.vioStrap,
               vioExt := b.vioExt, bootTime := min 65535 boot, s2Restarts := b.s2Restarts, tap := b.tap }
     port := { twoWire := mode, adr := adr }
     twin := { id := bit twnId }
     free := free } : Chip).setSt TWIN.TID 0 (bit twnId)

theorem Chip.released_barrier (b : Boot) (mode : Bool) (adr : Nat) (twnId : Bool) (boot free d : Nat) :
    ((Chip.released b mode adr twnId boot free).d d).barrier = false := by
  have h : (Chip.released b mode adr twnId boot free).drop = Vector.replicate 96 {} := setSt_drop ..
  unfold Chip.d vget
  rw [h]
  by_cases hd : d < 96 <;> simp [hd]

/-- The sources of memories that failed their test are raised at release. -/
theorem State.release_calm (s : State) (mode : Bool) (adr : Nat) (twnId : Bool) (boot : Nat) (mem bar : List Nat) :
    Chip.Calm ((Chip.released s.chip.boot mode adr twnId boot s.chip.free).markBarriers bar)
      (s.release mode adr twnId boot mem bar).chip := by
  refine Chip.Calm.raise {} _ (fun m hm => ?_) (.refl _)
  rw [mem_foldl_insertSorted, List.mem_filter] at hm
  simp only [List.not_mem_nil, or_false, Bool.or_eq_true, Bool.and_eq_true, decide_eq_true_eq, beq_iff_eq] at hm
  omega

/-- Settles O15: the release edge is a part at its reset values with the faults of S3 raised, which reach none of the fields named. -/
theorem coreResetRelease : Obligations.CoreResetRelease := by
  unfold Obligations.CoreResetRelease
  intro mode adr id boot mem bar s hs3
  have hexec : exec (.coreResetRelease mode adr id boot mem bar) s =
      .next (s.release mode adr.val id boot (mem.map (·.val)) (bar.map (·.val))) := by
    show execCoreResetRelease mode adr id boot mem bar s = _
    unfold execCoreResetRelease
    rw [if_pos hs3]
  have hcalm := s.release_calm mode adr.val id boot (mem.map (·.val)) (bar.map (·.val))
  obtain ⟨v, hv⟩ := (Chip.released s.chip.boot mode adr.val id boot s.chip.free).markBarriers_form (bar.map (·.val))
  generalize hc : (s.release mode adr.val id boot (mem.map (·.val)) (bar.map (·.val))).chip = c at hcalm
  have hboot := hcalm.boot
  have hport := hcalm.port
  have htwin := hcalm.twin
  have hwin := hcalm.win
  have hstaged := hcalm.staged
  have hlive := hcalm.live
  rw [hv] at hboot hport htwin hwin hstaged hlive
  refine ⟨_, hexec, rfl, rfl, ?_⟩
  rw [hc]
  refine ⟨?_, by rw [hboot]; rfl, by rw [hboot]; rfl, by rw [hboot]; rfl, ?_, hstaged, hlive, congrArg Window.imask hwin,
    congrArg Window.pend hwin, by rw [hport]; rfl, by rw [hport]; rfl, by rw [hport]; rfl, congrArg Twin.role htwin,
    congrArg Twin.id htwin, fun d hd => ?_⟩
  · rw [Chip.running, hboot]; rfl
  · rw [Chip.shaded, hboot]; simp [Chip.released]
  · have hdrop : c.d d = (((Chip.released s.chip.boot mode adr.val id boot s.chip.free).markBarriers (bar.map (·.val))).d d) := by
      unfold Chip.d; rw [hcalm.drop]
    rw [hdrop, Chip.markBarriers_barrier _ _ _ hd, Chip.released_barrier]
    simp

/-- Settles O12: the codes that overrun are kept for the tick, and their event leaves them. -/
theorem budgetOverrun : Obligations.BudgetOverrun := by
  unfold Obligations.BudgetOverrun
  intro codes s hrun hne
  obtain ⟨t, ht, hholds⟩ := exec_holds_of_coreEdge s (.budget codes) rfl
  refine ⟨t, ht, hholds, ?_⟩
  have ht' : t = { s with chip := s.chip.budget s.clk (codes.map (·.val)) } := by
    have h : exec (.budget codes) s = .next (s.act fun k c => c.budget k (codes.map (·.val))) := rfl
    rw [h, State.act_running s _ hrun] at ht
    exact (Host.Outcome.next.inj ht).symm
  rw [ht']
  unfold Chip.budget
  extract_lets new all c₁ c₂
  rw [if_neg hne]
  have hcalm : Chip.Calm c₂ (c₂.srcEvent s.clk 288) := .srcEvent _ _ (by decide) (.refl _)
  have hdir : c₂.dir = c₁.dir := by unfold c₂; split <;> rfl
  refine ⟨?_, fun h14 => ?_⟩
  · rw [hcalm.dir, hdir]; rfl
  · have h : new.contains 14 = true := by
      simp only [new, List.contains_eq_mem, decide_eq_true_eq, List.mem_filter, List.mem_map]
      exact ⟨⟨14, h14, rfl⟩, rfl⟩
    have hlit : c₂.pow.holdLit = true := by unfold c₂; rw [if_pos h]; rfl
    exact (congrArg Power.holdLit hcalm.pow).trans hlit

end Sys2Proof.Machine
end

section
/-! PROOFS. Role requests and the handover (chapter 15). -/

namespace Sys2Proof.Machine
open Sys2Proof

/-! ### Commands that do nothing, and commands on a served edge -/

namespace State

theorem act_same {s : State} {f : Clock → Chip → Chip} (h : f s.clk s.chip = s.chip) : s.act f = s := by
  unfold act
  split
  · rw [h]
  · rfl
theorem actBoundary_same {s : State} {f : Clock → Chip → Chip} (h : f s.clk s.chip = s.chip) : s.actBoundary f = s := by
  unfold actBoundary
  split
  · exact act_same h
  · rfl

namespace serving

variable {s : State} (hs : s.serving)
include hs

theorem running : s.chip.running = true := hs.1
theorem wf : s.chip.heath.status.wf = true := hs.2.1.2.2.1
theorem act (f : Clock → Chip → Chip) : s.act f = { s with chip := f s.clk s.chip } := act_running s f hs.1
theorem actBoundary (f : Clock → Chip → Chip) (hi : s.clk.idx = 0) : s.actBoundary f = { s with chip := f s.clk s.chip } :=
  actBoundary_running s f hs.1 hi

end serving

/-- A change of the part that keeps configuration holds on the edge. -/
theorem holds_chip {s : State} {c : Chip} (h : Chip.Keeps s.chip c) : s.Holds { s with chip := c } := ⟨rfl, rfl, h⟩

end State

namespace Chip

/-! ### What settles a request -/

variable {c : Chip} {k : Clock} {code : Nat}

/-- A request is settled by its code and its cause, and no longer waits. -/
theorem settleReq_twin (c : Chip) (k : Clock) (code : Nat) : (c.settleReq k code).twin = { c.twin with req := none } := by
  unfold settleReq reqCause
  rw [icause_twin, orSt_twin, setSt_twin]
  rfl
theorem settleReq_icause (c : Chip) (k : Clock) (code : Nat) : (c.settleReq k code).win.icause.getLsbD 13 = true := by
  unfold settleReq reqCause
  rw [icause_bits, BitVec.getLsbD_or]
  simp [word]
theorem st_settleReq {f : Fld} (hwf : c.heath.status.wf = true) (hf : f.fits = true) (hcause : f.apart TWIN.CAUSE = true) :
    (c.settleReq k code).st f 0 = (c.setSt TWIN.RQRES 0 code).st f 0 := by
  unfold settleReq reqCause
  rw [st_icause, st_orSt, st_setSt_apart (setSt_wf (c.onTwin _) _ _ _ hwf) hf rfl hcause]
  rfl
theorem settleReq_code (hwf : c.heath.status.wf = true) (hcode : code < 256) : (c.settleReq k code).st TWIN.RQRES 0 = code := by
  rw [st_settleReq hwf rfl rfl, st_setSt_same _ _ _ _ hwf (by decide)]
  exact Nat.mod_eq_of_lt hcode

end Chip

/-! ### Requests that come over the link -/

/-- Settles O59: each command acts under its own conditions on the twin engine alone, and the timeout settles the request besides. -/
theorem handoverRequests : Obligations.HandoverRequests := by
  unfold Obligations.HandoverRequests
  refine ⟨fun s hs => ⟨fun hlit hlink harm hreq => ?_, fun hno => ?_, fun hm => ?_, fun hm => ?_⟩, fun e l s hs hreq hlight =>
    ⟨fun hlate => ?_, fun hearly => ?_⟩⟩
  · refine ⟨_, congrArg Host.Outcome.next (hs.act _), ?_, ?_⟩ <;> simp [hlit, hlink, harm, hreq, State.OnlyTwin, Chip.onTwin]
  · refine congrArg Host.Outcome.next (State.act_same ?_)
    refine if_neg fun h => ?_
    simp only [Bool.and_eq_true, decide_eq_true_eq, beq_iff_eq, Option.isNone_iff_eq_none] at h
    obtain ⟨⟨⟨hlit, hlink⟩, harm⟩, hreq⟩ := h
    rcases hno with h | h | h | h <;> simp_all
  · refine ⟨_, congrArg Host.Outcome.next (hs.act _), ?_, ?_⟩ <;> simp [hm, State.OnlyTwin, Chip.onTwin]
  · exact congrArg Host.Outcome.next (State.act_same (if_neg (by simp [hm])))
  · have hf : exec .handoverTimeout s = .next { s with chip := s.chip.settleReq s.clk rqNotready } := by
      refine congrArg Host.Outcome.next ((hs.act _).trans ?_)
      simp [hreq, hlight, hlate, Config.tickCycles]
    exact ⟨_, hf, State.holds_chip ((Chip.Keeps.refl _).settleReq _ _), Chip.settleReq_twin .., Chip.settleReq_code hs.wf (by decide),
      Chip.settleReq_icause ..⟩
  · refine congrArg Host.Outcome.next (State.act_same ?_)
    have hnot : ¬ e + 64 * Config.tickCycles ≤ s.clk.pos := by simp only [Config.tickCycles]; omega
    simp [hreq, hnot]

end Sys2Proof.Machine
end

section
/-! PROOFS. Beats of the port (chapters 2 and 3): what a beat that the port takes comes to, the register beats, the software interrupt
and the ends of frames. -/

namespace Sys2Proof.Machine
open Sys2Proof

namespace Chip

/-! ### A beat that the port takes -/

/-- On `o` beat `b` has opened on a port that is on. -/
structure Taken (c : Chip) (b : Beat) (o : Chip) : Prop extends Opened c b o where
  vioLost : o.port.vioLost = false
  crcFail : o.port.crcFail = c.port.crcFail
  tsec : o.port.tsecSample = if b.first = true then [] else c.port.tsecSample

theorem vioLost_of_portOn {c : Chip} (h : c.portOn = true) : c.port.vioLost = false := by
  simp only [portOn, Bool.and_eq_true, Bool.not_eq_true'] at h
  exact h.2

theorem taken_of_opens {c : Chip} {b : Beat} (hp : b.part ≠ .ends) (ho : c.opens b) : ∃ o, c.openBeat b = some o ∧ Taken c b o := by
  cases hf : b.first with
  | true =>
    have hs : c.serves b = true := by simpa [opens, hf] using ho
    have hv : c.port.vioLost = false := by
      simp only [serves, Bool.and_eq_true] at hs
      exact vioLost_of_portOn hs.1.1
    refine ⟨_, by simp [openBeat, hf, hs], { opened_beginFrame hp hf with vioLost := ?_, crcFail := ?_, tsec := ?_ }⟩
    · unfold beginFrame; split <;> exact hv
    · unfold beginFrame; split <;> rfl
    · unfold beginFrame; simp [hf]
  | false =>
    obtain ⟨hon, hin, hop, hst⟩ : c.portOn = true ∧ c.port.inFrame = true ∧ c.port.opened = false ∧ c.port.stall = .none := by
      simpa [opens, hf] using ho
    exact ⟨_, by simp [openBeat, hf, hon, hin, hop, hst],
      { opened_step hp hf with vioLost := vioLost_of_portOn hon, crcFail := rfl, tsec := by simp [hf] }⟩

/-- The close of a beat changes only whether the frame goes on. -/
theorem closeBeat_eq (c : Chip) (b : Beat) : ∃ q, c.closeBeat b = { c with port := q } ∧ q.frames = c.port.frames ∧
    q.curErr = c.port.curErr ∧ q.reply = c.port.reply ∧ q.crcFail = c.port.crcFail ∧ q.stall = (if c.port.stall = .none then .none else q.stall) ∧
    q.tsecSample = c.port.tsecSample ∧ (c.port.opened = false → q.opened = false) := by
  unfold closeBeat
  split
  · exact ⟨_, rfl, rfl, rfl, rfl, rfl, by simp, rfl, fun _ => rfl⟩
  · exact ⟨_, rfl, rfl, rfl, rfl, rfl, by simp, rfl, id⟩

section
variable {c : Chip} {b : Beat} (k : Clock)

/-- A write beat that is taken reaches its point of effect, and closes. -/
theorem beat_write (ht : c.takes b) (hw : c.writes b = true) (hi : c.reach b < 12) (hroom : c.reach b = 11 → c.qdataRoom = true) :
    ∃ o, Taken c b o ∧ c.beat k b = (o.writeBeat k b).closeBeat b := by
  obtain ⟨hwhole, ho⟩ := ht
  have hp : b.part ≠ .ends := by simp [hwhole]
  obtain ⟨o, hopen, hto⟩ := taken_of_opens hp ho
  have hcmd : beatWr o.port.cmd = true := by rw [hto.cmd, ← writes_eq_cmdOf hp, hw]
  have hlt : ¬ 12 ≤ o.port.idx := by rw [hto.idx]; omega
  have hwait : o.beatWaits k = false := by
    by_cases h11 : c.reach b = 11
    · have hr : o.qdataRoom = true := by
        obtain ⟨p, rfl⟩ := hto.rest
        exact hroom h11
      simp [beatWaits, hcmd, hr]
    · simp [beatWaits, hto.idx, h11]
  exact ⟨o, hto, by simp [beat, hopen, hlt, hwait, runBeat, hcmd, hwhole]⟩

/-- A read beat that is taken begins to return its data, reaches its point of effect, and closes. -/
theorem beat_read (ht : c.takes b) (hw : c.writes b = false) (hready : c.reach b = 11 → c.qdataReady k = true) :
    ∃ o, Taken c b o ∧ c.beat k b = ((o.readSend k).readDone k b).closeBeat b := by
  obtain ⟨hwhole, ho⟩ := ht
  have hp : b.part ≠ .ends := by simp [hwhole]
  obtain ⟨o, hopen, hto⟩ := taken_of_opens hp ho
  have hcmd : beatWr o.port.cmd = false := by rw [hto.cmd, ← writes_eq_cmdOf hp, hw]
  have hwait : o.beatWaits k = false := by
    by_cases h11 : c.reach b = 11
    · have hr : o.qdataReady k = true := by
        obtain ⟨p, rfl⟩ := hto.rest
        exact hready h11
      simp [beatWaits, hcmd, hr]
    · simp [beatWaits, hto.idx, h11]
  exact ⟨o, hto, by simp [beat, hopen, hwait, runBeat, hcmd, hwhole]⟩

/-- A read beat that only starts begins to return its data, and stays open. -/
theorem beat_starts (hs : b.part = .starts) (ho : c.opens b) (hw : c.writes b = false) (h11 : c.reach b ≠ 11) :
    ∃ o, Taken c b o ∧ c.beat k b = (o.readSend k).onPort fun p => { p with opened := true } := by
  have hp : b.part ≠ .ends := by simp [hs]
  obtain ⟨o, hopen, hto⟩ := taken_of_opens hp ho
  have hcmd : beatWr o.port.cmd = false := by rw [hto.cmd, ← writes_eq_cmdOf hp, hw]
  have hwait : o.beatWaits k = false := by simp [beatWaits, hto.idx, h11]
  exact ⟨o, hto, by simp [beat, hopen, hwait, runBeat, hcmd, hs]⟩

/-- The rest of a read beat that is open reaches its point of effect, and closes. -/
theorem beat_ends (he : b.part = .ends) (hon : c.portOn = true) (hop : c.port.opened = true) (hr : beatWr c.port.cmd = false) :
    c.beat k b = (({ c with port := { c.port with opened := false } } : Chip).readDone k b).closeBeat b := by
  simp [beat, he, hon, hop, onPort, hr]

variable {o : Chip}

theorem Taken.writeOk (h : Taken c b o) (hcrc : b.crc = beatCrc (c.cmdOf b) b.data b.tag) : o.writeOk b = true := by
  simp [Chip.writeOk, h.cmd, hcrc]
theorem Taken.readOk (h : Taken c b o) (hok : if c.port.twoWire = true then b.ack = true else b.crc = crc8 [c.cmdOf b]) :
    o.readOk b = true := by
  unfold Chip.readOk
  rw [h.twoWire, h.cmd]
  split <;> simp_all

/-- A good write beat to a window register other than HDATA and QDATA. -/
theorem writeBeat_reg (hok : o.writeOk b = true) (hi : o.port.idx < 12) (h4 : o.port.idx ≠ 4) (h11 : o.port.idx ≠ 11) :
    o.writeBeat k b = ((o.replyWrite true).writeReg k o.port.idx b.data).tookEffect := by
  unfold writeBeat
  dsimp only
  rw [if_neg (by omega), hok, if_neg (by decide), if_neg h4, if_neg h11]

/-- A good write beat to a register is the register's own write, and one more frame. -/
theorem beat_writeReg (hg : c.goodWrite b) (hi : c.reach b < 12) (h4 : c.reach b ≠ 4) (h11 : c.reach b ≠ 11) :
    ∃ p q, p.frames = c.port.frames ∧ p.vioLost = false ∧ q.frames = satAdd 32 (({ c with port := p } : Chip).writeReg k (c.reach b) b.data).port.frames 1 ∧
      c.beat k b = { ({ c with port := p } : Chip).writeReg k (c.reach b) b.data with port := q } := by
  obtain ⟨ht, hw, hcrc⟩ := hg
  obtain ⟨o, hto, hbeat⟩ := beat_write k ht hw hi fun h => absurd h h11
  have hidx := hto.idx
  rw [writeBeat_reg k (hto.writeOk hcrc) (by omega) (by omega) (by omega), hidx] at hbeat
  obtain ⟨q, hq, hqf, -⟩ := closeBeat_eq (((o.replyWrite true).writeReg k (c.reach b) b.data).tookEffect) b
  rw [hq] at hbeat
  have hfr := hto.frames
  have hvio := hto.vioLost
  obtain ⟨g, y, hr⟩ := replyWrite_eq_withReply o true
  rw [hr] at hbeat hqf
  obtain ⟨p, rfl⟩ := hto.rest
  exact ⟨{ p with given := g, reply := y }, q, hfr, hvio, hqf, hbeat⟩

/-- A write beat with a failed CRC writes nothing. -/
theorem beat_crcFails (ht : c.takes b) (hw : c.writes b = true) (hcrc : b.crc ≠ beatCrc (c.cmdOf b) b.data b.tag) (hi : c.reach b < 12)
    (h11 : c.reach b ≠ 11) :
    ∃ q, c.beat k b = { c with port := q } ∧ q.crcFail = satAdd 32 c.port.crcFail 1 ∧ q.frames = c.port.frames ∧ q.curErr = true := by
  obtain ⟨o, hto, hbeat⟩ := beat_write k ht hw hi fun h => absurd h h11
  have hidx := hto.idx
  have hno : o.writeOk b = false := by simp [Chip.writeOk, hto.cmd, hcrc]
  have hwrite : o.writeBeat k b = (o.replyWrite false).crcError := by
    unfold writeBeat
    dsimp only
    rw [if_neg (by omega), hno]
    rfl
  obtain ⟨q, hq, hqf, hqe, -, hqc, -⟩ := closeBeat_eq (o.replyWrite false).crcError b
  rw [hwrite, hq] at hbeat
  refine ⟨q, ?_, hqc.trans ?_, hqf.trans hto.frames, hqe⟩
  · obtain ⟨p, rfl⟩ := hto.rest
    exact hbeat
  · exact congrArg (satAdd 32 · 1) hto.crcFail

/-- A read of a register begins to return it. -/
theorem readSend_reg (hi : o.port.idx < 12) (h4 : o.port.idx ≠ 4) (h11 : o.port.idx ≠ 11) :
    o.readSend k = (o.replyRead (o.readReg k o.port.idx) false 0 false false (.reg o.port.idx)).onPort fun p => { p with
      tsecSample := if o.port.idx = 8 then [o.win.tsec] else [] } := by
  unfold readSend
  dsimp only
  rw [if_neg (by omega), if_neg h4, if_neg h11]
/-- A completed read of a register takes effect on GLMULTI alone. -/
theorem readDone_reg {i : Nat} (hg : o.port.given = .reg i) (hok : o.readOk b = true) :
    o.readDone k b = (if i = 8 then o.onWin (fun w => { w with glmulti := false }) else o).tookEffect := by
  unfold readDone
  dsimp only
  rw [hg]
  dsimp only
  rw [if_pos hok]
/-- The registers but TSEC read the same whatever the port holds. -/
theorem readReg_port (p : Port) (i : Nat) (h9 : i ≠ 9) : ({ c with port := p } : Chip).readReg k i = c.readReg k i := by
  unfold readReg
  split <;> first | rfl | contradiction

/-- What a read beat of a register returns. -/
theorem Taken.readReg (h : Taken c b o) (hsample : c.reach b = 9 → c.port.tsecSample = [] ∨ b.first = true) :
    o.readReg k o.port.idx = if c.reach b = 9 then c.win.tsec else c.readReg k (c.reach b) := by
  rw [h.idx]
  split
  · next h9 =>
    have ht : o.port.tsecSample = [] := by
      rw [h.tsec]
      rcases hsample h9 with he | hf
      · rw [he]; split <;> rfl
      · rw [if_pos hf]
    obtain ⟨p, rfl⟩ := h.rest
    rw [h9]
    show p.tsecSample.headD c.win.tsec = c.win.tsec
    rw [ht]
    rfl
  · next h9 =>
    obtain ⟨p, rfl⟩ := h.rest
    exact readReg_port k p _ h9

/-- A good read beat of a register: it returns the register's value as one good frame; a read of GLINT clears GLMULTI. -/
theorem beat_readReg (hg : c.goodRead b) (hi : c.reach b < 12) (h4 : c.reach b ≠ 4) (h11 : c.reach b ≠ 11)
    (hsample : c.reach b = 9 → c.port.tsecSample = [] ∨ b.first = true) :
    ∃ q, c.beat k b = { c with port := q, win := if c.reach b = 8 then { c.win with glmulti := false } else c.win } ∧
      q.reply.data = (if c.reach b = 9 then c.win.tsec else c.readReg k (c.reach b)) ∧ q.reply.lead = 0xA5#8 ∧
      q.frames = satAdd 32 c.port.frames 1 ∧ q.tsecSample = if c.reach b = 8 then [c.win.tsec] else [] := by
  obtain ⟨ht, hw, hok⟩ := hg
  obtain ⟨o, hto, hbeat⟩ := beat_read k ht hw fun h => absurd h h11
  have hidx := hto.idx
  have hread := hto.readReg k hsample
  have hok' := hto.readOk hok
  have hfr := hto.frames
  have hsend := readSend_reg (o := o) k (by omega) (by omega) (by omega)
  rw [hread, hidx] at hsend
  have hdone := readDone_reg (b := b) (o := o.readSend k) (i := c.reach b) k (by rw [hsend]; rfl) (by rw [hsend]; exact hok')
  rw [hdone, hsend] at hbeat
  obtain ⟨p, rfl⟩ := hto.rest
  generalize (if c.reach b = 9 then c.win.tsec else c.readReg k (c.reach b)) = v at hbeat
  split at hbeat
  · next h8 =>
    obtain ⟨q, hq, hqf, -, hqr, -, -, hqt, -⟩ := closeBeat_eq _ b
    rw [hq] at hbeat
    refine ⟨q, hbeat.trans (by rw [if_pos h8]; rfl), by rw [hqr]; rfl, by rw [hqr]; rfl, hqf.trans (congrArg (satAdd 32 · 1) hfr), ?_⟩
    rw [hqt, if_pos h8]; rfl
  · next h8 =>
    obtain ⟨q, hq, hqf, -, hqr, -, -, hqt, -⟩ := closeBeat_eq _ b
    rw [hq] at hbeat
    refine ⟨q, hbeat.trans (by rw [if_neg h8]; rfl), by rw [hqr]; rfl, by rw [hqr]; rfl, hqf.trans (congrArg (satAdd 32 · 1) hfr), ?_⟩
    rw [hqt, if_neg h8]; rfl

end
end Chip

/-! ### REGISTER_WRITE -/

/-- A register beat on a serving part is the port's beat alone. -/
theorem exec_registerWrite {s : State} {b : Beat} (hs : s.serving) (hi : s.chip.reach b < 12) (h4 : s.chip.reach b ≠ 4)
    (h11 : s.chip.reach b ≠ 11) : exec (.registerWrite b) s = .next { s with chip := s.chip.beat s.clk b } :=
  congrArg Host.Outcome.next (hs.beat_eq b (by simp [hi, h4, h11]))

/-- Settles O19: each good write is its register's own, each good read returns its register; a failed CRC writes nothing. -/
theorem registerBeats : Obligations.RegisterBeats := by
  unfold Obligations.RegisterBeats
  intro b s hs
  refine ⟨fun hg hr => ?_, fun hg hr => ?_, fun hg hr => ?_, fun ht hw hcrc hi h4 h11 => ?_, fun hg hi h4 h8 h11 hsample => ?_,
    fun hst ho hw hi h4 h9 h11 => ?_, fun i he hon hop hwr hidx hi h4 h8 h11 hgiven hok => ?_⟩
  · obtain ⟨p, q, hp, -, hq, hbeat⟩ := Chip.beat_writeReg s.clk hg (by omega) (by omega) (by omega)
    rw [hr] at hbeat hq
    refine ⟨_, exec_registerWrite hs (by omega) (by omega) (by omega), ?_⟩
    rw [hbeat]
    exact ⟨rfl, rfl, hq.trans (congrArg (satAdd 32 · 1) hp)⟩
  · obtain ⟨p, q, hp, -, hq, hbeat⟩ := Chip.beat_writeReg s.clk hg (by omega) (by omega) (by omega)
    rw [hr] at hbeat hq
    refine ⟨_, exec_registerWrite hs (by omega) (by omega) (by omega), ?_⟩
    rw [hbeat]
    exact ⟨rfl, rfl, rfl, rfl, hq.trans (congrArg (satAdd 32 · 1) hp)⟩
  · have hlt : s.chip.reach b < 12 := by omega
    obtain ⟨p, q, hp, -, hq, hbeat⟩ := Chip.beat_writeReg s.clk hg hlt (by omega) (by omega)
    have hnone : ({ s.chip with port := p } : Chip).writeReg s.clk (s.chip.reach b) b.data = { s.chip with port := p } := by
      rcases hr with h | h | h | h <;> rw [h] <;> rfl
    rw [hnone] at hbeat hq
    refine ⟨_, exec_registerWrite hs hlt (by omega) (by omega), ?_⟩
    rw [hbeat]
    exact ⟨rfl, hq.trans (congrArg (satAdd 32 · 1) hp)⟩
  · obtain ⟨q, hbeat, hc, hf, he⟩ := Chip.beat_crcFails s.clk ht hw hcrc hi h11
    refine ⟨_, exec_registerWrite hs hi h4 h11, ?_⟩
    rw [hbeat]
    exact ⟨rfl, hc, hf, he⟩
  · obtain ⟨q, hbeat, hd, hl, hf, -⟩ := Chip.beat_readReg s.clk hg hi h4 h11 hsample
    rw [if_neg h8] at hbeat
    refine ⟨_, exec_registerWrite hs hi h4 h11, ?_⟩
    rw [hbeat]
    exact ⟨rfl, hd, hl, hf⟩
  · obtain ⟨o, hto, hbeat⟩ := Chip.beat_starts s.clk hst ho hw h11
    have hread := hto.readReg s.clk fun h => absurd h h9
    have hidx := hto.idx
    have hfr := hto.frames
    rw [if_neg h9] at hread
    rw [Chip.readSend_reg s.clk (by omega) (by omega) (by omega), hread, hidx] at hbeat
    obtain ⟨p, rfl⟩ := hto.rest
    refine ⟨_, exec_registerWrite hs hi h4 h11, ?_⟩
    rw [hbeat]
    exact ⟨rfl, rfl, rfl, rfl, hfr⟩
  · have hreach : s.chip.reach b = i := by simp [Chip.reach, he, hidx]
    have hbeat := Chip.beat_ends s.clk he hon hop hwr
    have hdone := Chip.readDone_reg (b := b) (o := { s.chip with port := { s.chip.port with opened := false } }) (i := i) s.clk hgiven hok
    rw [hdone, if_neg h8] at hbeat
    obtain ⟨q, hq, hqf, -, hqr, -, -, -, hqo⟩ := Chip.closeBeat_eq (Chip.tookEffect { s.chip with port := { s.chip.port with opened := false } }) b
    rw [hq] at hbeat
    refine ⟨_, exec_registerWrite hs (by omega) (by omega) (by omega), ?_⟩
    rw [hbeat]
    exact ⟨rfl, hqr, hqo rfl, hqf⟩

end Sys2Proof.Machine
end

section
/-! PROOFS. WCTL writes (R68): the software interrupt and the warm reset request, and frames that end early (R48, R51, R52). -/

namespace Sys2Proof.Machine
open Sys2Proof

namespace Chip

variable {c : Chip} {k : Clock}

/-! ### What a role request does to the window -/

@[simp] theorem syncClaim_win (c : Chip) (k : Clock) : (c.syncClaim k).win = c.win := setSt_win ..
theorem reqCause_win (c : Chip) (k : Clock) : (c.reqCause k).win = Window.setIcause k (word (2 ^ 13)) c.win := by
  unfold reqCause icause
  rw [onWin_win, orSt_win]
theorem settleReq_win (c : Chip) (k : Clock) (code : Nat) : (c.settleReq k code).win = Window.setIcause k (word (2 ^ 13)) c.win := by
  unfold settleReq
  rw [reqCause_win, setSt_win]
  rfl

/-- A role request settles at once, with its interrupt cause, or leaves the window as it is. -/
def RequestWin (k : Clock) (c d : Chip) : Prop := d.win = c.win ∨ d.win = Window.setIcause k (word (2 ^ 13)) c.win

theorem RequestWin.settleReq (c : Chip) (k : Clock) (code : Nat) : RequestWin k c (c.settleReq k code) := .inr (settleReq_win ..)
theorem RequestWin.busy (c : Chip) (k : Clock) (code : Nat) : RequestWin k c ((c.setSt TWIN.RQRES 0 code).reqCause k) :=
  .inr ((reqCause_win ..).trans (congrArg _ (setSt_win ..)))
theorem RequestWin.onTwin (c : Chip) (k : Clock) (f : Twin → Twin) : RequestWin k c (c.onTwin f) := .inl rfl
theorem RequestWin.claim (c : Chip) (k : Clock) (f : Twin → Twin) : RequestWin k c ((c.onTwin f).syncClaim k) := .inl (syncClaim_win ..)

theorem roleRequest_win (c : Chip) (k : Clock) (req : Nat) : RequestWin k c (c.roleRequest k req) := by
  unfold roleRequest
  dsimp only
  repeat' split
  all_goals first
    | with_reducible exact RequestWin.settleReq ..
    | with_reducible exact RequestWin.busy ..
    | with_reducible exact RequestWin.claim ..
    | with_reducible exact RequestWin.onTwin ..

/-! ### A write of WCTL -/

/-- The flags that a WCTL write sets. -/
def wctlFlags (c : Chip) (k : Clock) (v : Word) : Chip :=
  let c := c.onWin (fun w => { w with hainc := v.getLsbD 1, fovr := v.getLsbD 0 })
  if v.getLsbD 2 then c.icause k 17 else c

theorem wctlWrite_eq (c : Chip) (k : Clock) (v : Word) : c.wctlWrite k v =
    if v.toNat / 2 ^ 24 = 0xA3 ∨ (c.wctlFlags k v).win.warm ≠ .idle then
      if v.toNat / 2 ^ 24 = 0xA3 ∧ (c.wctlFlags k v).win.warm = .idle then
        (c.wctlFlags k v).onWin (fun w => { w with warm := .asked, warmIn := 1 })
      else c.wctlFlags k v
    else if 1 ≤ v.toNat / 2 ^ 16 % 8 ∧ v.toNat / 2 ^ 16 % 8 ≤ 3 then (c.wctlFlags k v).roleRequest k (v.toNat / 2 ^ 16 % 8)
    else c.wctlFlags k v := rfl

theorem wctlFlags_form (c : Chip) (k : Clock) (v : Word) : ∃ w, c.wctlFlags k v = { c with win := w } := by
  unfold wctlFlags
  dsimp only
  split <;> exact ⟨_, rfl⟩
@[simp] theorem wctlFlags_warm (c : Chip) (k : Clock) (v : Word) : (c.wctlFlags k v).win.warm = c.win.warm := by
  unfold wctlFlags
  dsimp only
  split <;> rfl
theorem wctlFlags_hainc (c : Chip) (k : Clock) (v : Word) : (c.wctlFlags k v).win.hainc = v.getLsbD 1 := by
  unfold wctlFlags
  dsimp only
  split <;> rfl
theorem wctlFlags_fovr (c : Chip) (k : Clock) (v : Word) : (c.wctlFlags k v).win.fovr = v.getLsbD 0 := by
  unfold wctlFlags
  dsimp only
  split <;> rfl
theorem wctlFlags_icause (c : Chip) (k : Clock) (v : Word) (h : v.getLsbD 2 = true) :
    (c.wctlFlags k v).win.icause = c.win.icause ||| word (2 ^ 17) := by
  unfold wctlFlags
  dsimp only
  rw [if_pos h, icause_bits]
  rfl

/-- What a WCTL write leaves in the window of its flags, whatever its reset or role request does. -/
theorem wctlWrite_win (c : Chip) (k : Clock) (v : Word) :
    (c.wctlWrite k v).win = (c.wctlFlags k v).win ∨
    (c.wctlWrite k v).win = { (c.wctlFlags k v).win with warm := .asked, warmIn := 1 } ∨
    (c.wctlWrite k v).win = Window.setIcause k (word (2 ^ 13)) (c.wctlFlags k v).win := by
  rw [wctlWrite_eq]
  split
  · split
    · exact .inr (.inl rfl)
    · exact .inl rfl
  · split
    · rcases roleRequest_win (c.wctlFlags k v) k (v.toNat / 2 ^ 16 % 8) with h | h
      · exact .inl h
      · exact .inr (.inr h)
    · exact .inl rfl

/-- An interrupt cause bit stands while others are set. -/
theorem setIcause_icause (w : Window) (k : Clock) (bits : Word) : (Window.setIcause k bits w).icause = w.icause ||| bits := rfl

end Chip

/-- Settles O20: the flags of the WCTL write stand whatever its reset or role request does. -/
theorem softwareInterrupt : Obligations.SoftwareInterrupt := by
  unfold Obligations.SoftwareInterrupt
  intro b s hs hg hr hsw
  have hexec : exec (.softwareInterrupt b) s = .next { s with chip := s.chip.beat s.clk b } :=
    congrArg Host.Outcome.next (hs.beat_eq b (by simp [hg.2.1, hr, hsw]))
  obtain ⟨p, q, -, -, -, hbeat⟩ := Chip.beat_writeReg s.clk hg (by omega) (by omega) (by omega)
  rw [hr] at hbeat
  generalize hc : ({ s.chip with port := p } : Chip) = c at hbeat
  have hwrite : c.writeReg s.clk 2 b.data = c.wctlWrite s.clk b.data := rfl
  rw [hwrite] at hbeat
  have hbit : (c.wctlFlags s.clk b.data).win.icause.getLsbD 17 = true := by
    rw [Chip.wctlFlags_icause c s.clk b.data hsw, BitVec.getLsbD_or]
    simp [word]
  refine ⟨_, hexec, rfl, rfl, ?_⟩
  rw [hbeat]
  refine ⟨?_, ?_, ?_, fun hnoreset hnoreq => ?_⟩
  · show (c.wctlWrite s.clk b.data).win.icause.getLsbD 17 = true
    rcases c.wctlWrite_win s.clk b.data with h | h | h <;> rw [h]
    · exact hbit
    · exact hbit
    · rw [Chip.setIcause_icause, BitVec.getLsbD_or, hbit, Bool.true_or]
  · show (c.wctlWrite s.clk b.data).win.hainc = _
    rw [← c.wctlFlags_hainc s.clk]
    rcases c.wctlWrite_win s.clk b.data with h | h | h
    · rw [h]
    · rw [h]
    · rw [h]; rfl
  · show (c.wctlWrite s.clk b.data).win.fovr = _
    rw [← c.wctlFlags_fovr s.clk]
    rcases c.wctlWrite_win s.clk b.data with h | h | h
    · rw [h]
    · rw [h]
    · rw [h]; rfl
  · have hplain : c.wctlWrite s.clk b.data = c.wctlFlags s.clk b.data := by
      rw [Chip.wctlWrite_eq]
      split
      · exact if_neg fun h => hnoreset h.1
      · exact if_neg (by omega)
    rw [hplain]
    have hi := Chip.wctlFlags_icause c s.clk b.data hsw
    obtain ⟨w, hw⟩ := c.wctlFlags_form s.clk b.data
    rw [hw] at hi ⊢
    subst hc
    exact ⟨rfl, hi⟩

/-! ### Frames that end early -/

/-- The port after an aborted beat that ends its frame. -/
def Port.cut (p : Port) : Port :=
  { p with aborts := satAdd 32 p.aborts 1, curErr := true, beatDone := false, inFrame := false, stall := .none, held := none, opened := false,
           given := .bad }
theorem Chip.onPort_cut (c : Chip) (f : Port → Port) : (c.onPort f).abortBeat.endFrame = c.onPort fun p => (f p).cut := rfl
theorem Chip.cut_eq (c : Chip) : c.abortBeat.endFrame = c.onPort Port.cut := rfl

namespace Chip

/-- What a START or STOP condition does to the port. -/
def busEnd (c : Chip) (how : BusEnd) (cmd : Byte) (first : Bool) : Chip :=
  if c.portOn && c.port.twoWire then
    if how = .noCommand then
      let c := if c.port.inFrame then c.abortBeat.endFrame else c
      c.onPort (fun p => { p with reply := { p.reply with ack := false } })
    else
      let c := if first then c.beginFrame cmd else c
      if !c.port.inFrame then c
      else if how = .leadNack ∧ !beatWr c.port.cmd ∧ c.port.beatDone then c.endFrame
      else
        let c := if how = .noRestart then c.onPort (fun p => { p with reply := { p.reply with ack := false } }) else c
        c.abortBeat.endFrame
  else c

theorem busEnd_port (c : Chip) (how : BusEnd) (cmd : Byte) (hon : c.portOn = true) (h2 : c.port.twoWire = true)
    (hin : c.port.inFrame = true) : ∃ g : Port → Port, c.busEnd how cmd false = c.onPort g ∧ (g c.port).inFrame = false ∧ (g c.port).aborts =
      if how = .leadNack ∧ beatWr c.port.cmd = false ∧ c.port.beatDone = true then c.port.aborts else satAdd 32 c.port.aborts 1 := by
  unfold busEnd
  simp only [hon, h2, hin, Bool.and_true, Bool.not_true, Bool.not_eq_true', Bool.false_eq_true, if_true, if_false]
  by_cases hcommand : how = .noCommand
  · rw [if_pos hcommand, if_neg (by simp [hcommand])]
    exact ⟨fun p => { p.cut with reply := { p.reply with ack := false } }, rfl, rfl, rfl⟩
  · rw [if_neg hcommand]
    split
    · exact ⟨_, rfl, rfl, rfl⟩
    · split
      · exact ⟨fun p => Port.cut { p with reply := { p.reply with ack := false } }, onPort_cut .., rfl, rfl⟩
      · exact ⟨Port.cut, cut_eq _, rfl, rfl⟩

theorem sdo_of_not_selected {c : Chip} (h : c.port.selected = false) : c.sdo = none := by simp [sdo, h]

end Chip

/-- A frame that ends early changes the port alone. -/
theorem State.act_onPort {s : State} {f : Clock → Chip → Chip} (hrun : s.chip.running = true) {g : Port → Port}
    (h : f s.clk s.chip = s.chip.onPort g) : s.act f = { s with chip := s.chip.onPort g } := by
  rw [State.act_running s f hrun, h]
theorem State.onlyPort_onPort (s : State) (g : Port → Port) : s.OnlyPort { s with chip := s.chip.onPort g } := rfl

section
variable {s : State}

theorem exec_beatAbort (cmd : Byte) (first : Bool) (hrun : s.chip.running = true) (hon : s.chip.portOn = true)
    (h4 : s.chip.port.twoWire = false)
    (hframe : first = true ∧ s.chip.port.stall = .none ∧ s.chip.port.opened = false ∨ first = false ∧ s.chip.port.inFrame = true) :
    ∃ t, exec (.beatAbort cmd first) s = .next t ∧ s.OnlyPort t ∧ t.chip.port.inFrame = false ∧ t.chip.port.curErr = true ∧
      t.chip.sdo = none ∧ t.chip.port.aborts = satAdd 32 s.chip.port.aborts 1 ∧ t.chip.port.stall = .none := by
  obtain ⟨g, hg, hab⟩ : ∃ g : Port → Port, (if first = true then s.chip.beginFrame cmd else s.chip) = s.chip.onPort g ∧
      (g s.chip.port).inFrame = true ∧ (g s.chip.port).aborts = s.chip.port.aborts := by
    rcases hframe with ⟨rfl, hst, hop⟩ | ⟨rfl, hin⟩
    · rw [if_pos rfl]
      unfold Chip.beginFrame
      rw [if_pos ⟨hst, hop⟩]
      exact ⟨_, rfl, rfl, rfl⟩
    · exact ⟨id, rfl, hin, rfl⟩
  have hact := State.act_onPort (s := s) (f := fun _ c =>
    if c.portOn && !c.port.twoWire then
      let c := if first then c.beginFrame cmd else c
      (if c.port.inFrame then c.abortBeat.endFrame else c).deselect
    else c) (g := fun p => { (g p).cut with selected := false }) hrun (by
      dsimp only
      rw [hg, Chip.onPort_port, hab.1, if_pos rfl, Chip.onPort_cut, if_pos (by simp [hon, h4])]
      rfl)
  exact ⟨_, congrArg Host.Outcome.next hact, s.onlyPort_onPort _, rfl, rfl, Chip.sdo_of_not_selected rfl, congrArg (satAdd 32 · 1) hab.2, rfl⟩

theorem exec_burstEnd (hrun : s.chip.running = true) (hon : s.chip.portOn = true) (h4 : s.chip.port.twoWire = false)
    (hin : s.chip.port.inFrame = true) :
    ∃ t, exec .burstEnd s = .next t ∧ s.OnlyPort t ∧ t.chip.port.inFrame = false ∧ t.chip.sdo = none ∧
      (beatAi s.chip.port.cmd = true → s.chip.port.beatDone = true →
        t.chip.port.curErr = s.chip.port.curErr ∧ t.chip.port.aborts = s.chip.port.aborts) ∧
      (beatAi s.chip.port.cmd = false ∨ s.chip.port.beatDone = false →
        t.chip.port.curErr = true ∧ t.chip.port.aborts = satAdd 32 s.chip.port.aborts 1) := by
  have hserved : (s.chip.portOn && !s.chip.port.twoWire) = true := by simp [hon, h4]
  by_cases hdone : (beatAi s.chip.port.cmd && s.chip.port.beatDone) = true
  · have hact := State.act_onPort (s := s) (f := fun _ c =>
      if c.portOn && !c.port.twoWire then
        (if !c.port.inFrame then c
         else if beatAi c.port.cmd && c.port.beatDone then c.endFrame
         else c.abortBeat.endFrame).deselect
      else c) (g := fun p => { p with inFrame := false, stall := .none, held := none, opened := false, given := .bad, selected := false })
      hrun (by
        rw [if_pos hserved, hin, hdone]
        rfl)
    rw [Bool.and_eq_true] at hdone
    refine ⟨_, congrArg Host.Outcome.next hact, s.onlyPort_onPort _, rfl, Chip.sdo_of_not_selected rfl, fun _ _ => ⟨rfl, rfl⟩, fun h => ?_⟩
    rw [hdone.1, hdone.2] at h
    simp at h
  · have hact := State.act_onPort (s := s) (f := fun _ c =>
      if c.portOn && !c.port.twoWire then
        (if !c.port.inFrame then c
         else if beatAi c.port.cmd && c.port.beatDone then c.endFrame
         else c.abortBeat.endFrame).deselect
      else c) (g := fun p => { p.cut with selected := false }) hrun (by
        rw [if_pos hserved, hin, if_neg hdone]
        rfl)
    refine ⟨_, congrArg Host.Outcome.next hact, s.onlyPort_onPort _, rfl, Chip.sdo_of_not_selected rfl, fun h1 h2 => ?_, fun _ => ⟨rfl, rfl⟩⟩
    exact absurd (by rw [h1, h2]; rfl) hdone

theorem exec_startStop (how : BusEnd) (cmd : Byte) (hrun : s.chip.running = true) (hon : s.chip.portOn = true)
    (h2 : s.chip.port.twoWire = true) (hin : s.chip.port.inFrame = true) :
    ∃ t, exec (.startStopCondition how cmd false) s = .next t ∧ s.OnlyPort t ∧ t.chip.port.inFrame = false ∧
      t.chip.port.aborts =
        (if how = .leadNack ∧ beatWr s.chip.port.cmd = false ∧ s.chip.port.beatDone = true then s.chip.port.aborts
         else satAdd 32 s.chip.port.aborts 1) := by
  obtain ⟨g, hg, hend, hab⟩ := s.chip.busEnd_port how cmd hon h2 hin
  exact ⟨_, congrArg Host.Outcome.next (State.act_onPort hrun (f := fun _ c => c.busEnd how cmd false) hg), s.onlyPort_onPort _, hend, hab⟩

theorem exec_sdaRelease (hrun : s.chip.running = true) (hon : s.chip.portOn = true) (h2 : s.chip.port.twoWire = true)
    (hin : s.chip.port.inFrame = true) (hrd : beatWr s.chip.port.cmd = false) :
    ∃ t, exec .sdaRelease s = .next t ∧ s.OnlyPort t ∧ t.chip.port.sdaFree = satAdd 16 s.chip.port.sdaFree 1 ∧
      t.chip.port.aborts = satAdd 32 s.chip.port.aborts 1 ∧ t.chip.port.inFrame = false := by
  have hact := State.act_onPort (s := s) (f := fun _ c =>
    if c.portOn && c.port.twoWire && c.port.inFrame && !beatWr c.port.cmd then
      ((c.onPort (fun p => { p with sdaFree := satAdd 16 p.sdaFree 1 })).abortBeat).endFrame
    else c) (g := fun p => Port.cut { p with sdaFree := satAdd 16 p.sdaFree 1 }) hrun (by
      rw [if_pos (by simp [hon, h2, hin, hrd]), Chip.onPort_cut])
  exact ⟨_, congrArg Host.Outcome.next hact, s.onlyPort_onPort _, rfl, rfl, rfl⟩

theorem exec_stretchTimeout (hrun : s.chip.running = true) (hst : s.chip.port.stall = .stretch) :
    ∃ t, exec .stretchTimeout s = .next t ∧ s.OnlyPort t ∧ t.chip.port.stretchTo = satAdd 16 s.chip.port.stretchTo 1 ∧
      t.chip.port.inFrame = false ∧ t.chip.port.stall = .none ∧ t.chip.port.curErr = true := by
  have hact := State.act_onPort (s := s) (f := fun _ c =>
    if c.port.stall = .stretch then
      ((c.onPort (fun p => { p with
        stretchTo := satAdd 16 p.stretchTo 1, reply := { p.reply with ack := false } })).abortBeat).endFrame
    else c) (g := fun p => Port.cut { p with stretchTo := satAdd 16 p.stretchTo 1, reply := { p.reply with ack := false } }) hrun (by
      rw [if_pos hst, Chip.onPort_cut])
  exact ⟨_, congrArg Host.Outcome.next hact, s.onlyPort_onPort _, rfl, rfl, rfl, rfl⟩

end

/-- Settles O22: each end of a frame counts its cause and an abort as said, on the port alone. -/
theorem frameEnds : Obligations.FrameEnds := by
  unfold Obligations.FrameEnds
  exact ⟨fun cmd first s => exec_beatAbort cmd first, fun s => exec_burstEnd, fun how cmd s => exec_startStop how cmd,
    fun s => exec_sdaRelease, fun s => exec_stretchTimeout⟩

end Sys2Proof.Machine
end

section
/-! PROOFS. The interrupt registers (R75, R79 to R81) and commit requests (R72, R74). -/

namespace Sys2Proof.Machine
open Sys2Proof

/-! ### Pins -/

/-- The level last sent to a pin is the one it comes to. -/
@[simp] theorem Pin.final_send (p : Pin) (e : Nat) (l : Bool) : (p.send e l).final = l := by
  unfold Pin.send
  dsimp only
  split
  · next h => exact h
  · simp [Pin.final]
theorem Window.rewant_final (k : Clock) (w : Window) : (w.rewant k).intn.final = w.want := Pin.final_send ..

/-! ### Good writes and reads of one register -/

section
variable {s : State} {b : Beat}

/-- A good write of a register whose own write changes the window alone. -/
theorem State.goodWrite_window (hs : s.serving) {kind : Chip → Bool} (hk : kind s.chip = true) (hg : s.chip.goodWrite b) {i : Nat}
    (hi : s.chip.reach b = i) (hlt : i < 12) (h4 : i ≠ 4) (h11 : i ≠ 11) {f : Window → Window}
    (hf : ∀ p, ({ s.chip with port := p } : Chip).writeReg s.clk i b.data = ({ s.chip with port := p } : Chip).onWin f) :
    ∃ q, s.beat b kind = { s with chip := { s.chip with port := q, win := f s.chip.win } } ∧
      q.frames = satAdd 32 s.chip.port.frames 1 := by
  obtain ⟨p, q, hp, -, hq, hbeat⟩ := Chip.beat_writeReg s.clk hg (by omega) (by omega) (by omega)
  rw [hi, hf] at hbeat hq
  refine ⟨q, ?_, hq.trans (congrArg (satAdd 32 · 1) hp)⟩
  rw [hs.beat_eq b hk, hbeat]
  rfl

end

/-- The interrupt gap ends at its EVC, or on the present edge where that has passed. -/
theorem State.toEvc_evc (s : State) (e : Nat) (h : e ≤ s.clk.evc + (124999 - s.clk.idx)) : (s.toEvc e).clk.evc = max s.clk.evc e := by
  unfold State.toEvc
  by_cases he : e - s.clk.evc = 0
  · rw [he, State.elapse_zero]; omega
  · rw [State.elapse_clk s _ he, Clock.elapse_evc, State.depart_evc, State.depart_idx]; omega
theorem State.toEvc_self (s : State) (e : Nat) (h : e ≤ s.clk.evc) : s.toEvc e = s := by
  unfold State.toEvc
  rw [Nat.sub_eq_zero_of_le h, State.elapse_zero]

theorem State.Runs.running {s t : State} (h : s.Runs t) (hrun : s.chip.running = true) : t.chip.running = true := by
  obtain ⟨-, -, -, -, hk⟩ := h
  unfold Chip.running at *
  rw [hk.boot]
  exact hrun

/-- What ends the re-arm gap. -/
def Window.endGap (k : Clock) (w : Window) : Window := ({ w with gapEnd := none }).rewant k

theorem exec_reArmGapEnd {s : State} {e : Nat} (hs : s.serving) (hgap : s.chip.win.gapEnd = some e)
    (he : e ≤ s.clk.evc + (124999 - s.clk.idx)) :
    exec .reArmGapEnd s = .next { s.toEvc e with chip := (s.toEvc e).chip.onWin (Window.endGap (s.toEvc e).clk) } := by
  have hruns : s.Runs (s.toEvc e) := (s.toEvc_passes e).runs hs.2.2
  have hevc := s.toEvc_evc e he
  show execReArmGapEnd s = _
  unfold execReArmGapEnd
  rw [hgap]
  dsimp only
  rw [if_pos hs.1, if_pos (by omega), State.act_running _ _ (hruns.running hs.1)]
  rfl

/-- What a write of ICAUSE does to the window (R75): the bits written 1 clear, except those set on the present edge, and the gap opens. -/
def Window.clearCauses (k : Clock) (v : Word) (w : Window) : Window :=
  let keep := if w.setNo = k.edges then w.setBits else 0#32
  ({ w with icause := w.icause &&& ~~~ (v &&& ~~~ keep), gapEnd := some (k.evc + 32) }).rewant k

/-- Settles O29: a write and a read of the port each act on the window alone, and the end of the gap comes after the edges up to it. -/
theorem interruptCauses : Obligations.InterruptCauses := by
  unfold Obligations.InterruptCauses
  refine ⟨fun b s hs hg hr => ?_, fun s e hs hgap he => ?_, fun b s hs hg hr => ?_⟩
  · obtain ⟨q, hq, -⟩ := State.goodWrite_window hs (kind := fun c => c.writes b && c.reach b == 6) (by simp [hg.2.1, hr]) hg hr
      (by decide) (by decide) (by decide)
      (f := Window.clearCauses s.clk b.data) (fun p => rfl)
    exact ⟨_, congrArg Host.Outcome.next hq, rfl, rfl, rfl, Window.rewant_final .. |>.trans (by simp [Window.want]), rfl, rfl, rfl⟩
  · have hruns : s.Runs (s.toEvc e) := (s.toEvc_passes e).runs hs.2.2
    obtain ⟨hpend, hticks, hsec, hle, hk⟩ := hruns
    refine ⟨_, exec_reArmGapEnd hs hgap he, ⟨hpend, hticks, hsec, hle, hk.onWin _⟩, s.toEvc_evc e he, rfl,
      (Window.rewant_final ..).trans ?_, fun hpast => ?_⟩
    · exact Bool.and_true _
    · rw [s.toEvc_self e hpast]
      exact ⟨rfl, rfl, rfl⟩
  · obtain ⟨q, hbeat, hd, -, hf, ht⟩ := Chip.beat_readReg s.clk hg (by omega) (by omega) (by omega) (by omega)
    rw [hr] at hbeat hd ht
    have hexec : exec (.glintRead b) s = .next { s with chip := s.chip.beat s.clk b } :=
      congrArg Host.Outcome.next (hs.beat_eq b (by simp [hg.2.1, hr]))
    refine ⟨_, hexec, ?_⟩
    rw [hbeat]
    exact ⟨rfl, hd, rfl, hf, fun _ => ht⟩

end Sys2Proof.Machine
end

section
/-! PROOFS. Commit requests (R72, R74, R95), the warm reset request (R69), and writes of QSEL (R82, R270). -/

namespace Sys2Proof.Machine
open Sys2Proof

/-! ### Commit requests -/

namespace Chip

/-- The wakes that a request begins are the power manager's alone. -/
theorem commitWake_form (c : Chip) (k : Clock) : ∃ p, c.commitWake k = { c with pow := p } := by
  unfold commitWake
  dsimp only
  generalize c.heath.staged = bank
  generalize nightBlocks = l
  suffices h : ∀ a : Chip, (∃ p, a = { c with pow := p }) →
      ∃ p, l.foldl (fun a i => if c.needs bank i && c.blk i != .lit then a.beginWake i k.evc else a) a = { c with pow := p } from
    h c ⟨_, rfl⟩
  induction l with
  | nil => exact fun a h => h
  | cons i r ih =>
    refine fun a h => ih _ ?_
    obtain ⟨p, rfl⟩ := h
    dsimp only
    split
    · unfold beginWake
      split <;> exact ⟨_, rfl⟩
    · exact ⟨p, rfl⟩

end Chip

/-- What a first commit request does to the window. -/
def Window.askCommit (k : Clock) (tag : Nat) (w : Window) : Window :=
  { w with
    lastTag := tag, rej := false, pend := true, defer := k.inFence && !w.fovr, fenceReject := k.inFence && w.fovr
    commitIn := if k.inFence && !w.fovr then 2 else 1, verdict := none }

namespace Chip

theorem commitRequest_again {c : Chip} (k : Clock) (tag : Nat) (h : c.win.pend = true) :
    c.commitRequest k tag = c.onWin fun w => { w with lastTag := tag, rej := false } := by
  unfold commitRequest
  exact if_pos h
theorem commitRequest_first {c : Chip} (k : Clock) (tag : Nat) (h : c.win.pend = false) :
    ∃ p, c.commitRequest k tag = { c with win := c.win.askCommit k tag, pow := p } := by
  unfold commitRequest
  dsimp only
  rw [if_neg (by simp [h])]
  exact commitWake_form ..

end Chip

/-- A good HCOMMIT write with OP 0xC1 is the commit request alone. -/
theorem exec_commitRequest {s : State} {b : Beat} (hs : s.serving) (hg : s.chip.goodWrite b) (hr : s.chip.reach b = 5)
    (hop : b.data.toNat / 2 ^ 24 = 0xC1) (hw : s.chip.win.warm ≠ .acted) :
    ∃ p q, exec (.commitRequest b) s =
      .next { s with chip := { ({ s.chip with port := p } : Chip).commitRequest s.clk (b.data.toNat / 256 % 256) with port := q } } := by
  obtain ⟨p, q, -, -, -, hbeat⟩ := Chip.beat_writeReg s.clk hg (by omega) (by omega) (by omega)
  rw [hr] at hbeat
  have hwrite : ({ s.chip with port := p } : Chip).writeReg s.clk 5 b.data =
      ({ s.chip with port := p } : Chip).commitRequest s.clk (b.data.toNat / 256 % 256) := if_pos ⟨hop, hw⟩
  rw [hwrite] at hbeat
  refine ⟨p, q, congrArg Host.Outcome.next ((hs.beat_eq b (by rw [hg.2.1, hr, hop]; rfl)).trans ?_)⟩
  rw [hbeat]

/-- Settles O28: the first request takes up the window and begins wakes; a later one only renews its tag. -/
theorem commitRequests : Obligations.CommitRequests := by
  unfold Obligations.CommitRequests
  intro b s hs hg hr hop hw
  obtain ⟨p, q, hexec⟩ := exec_commitRequest hs hg hr hop hw
  refine ⟨fun hpend => ?_, fun hpend => ?_⟩
  · obtain ⟨pow, hc⟩ := Chip.commitRequest_first (c := { s.chip with port := p }) s.clk (b.data.toNat / 256 % 256) hpend
    rw [hc] at hexec
    refine ⟨_, hexec, rfl, rfl, rfl, rfl, rfl, rfl, rfl, ?_, rfl, rfl, rfl, rfl⟩
    simp [Window.askCommit]
  · rw [Chip.commitRequest_again (c := { s.chip with port := p }) _ _ hpend] at hexec
    exact ⟨_, hexec, rfl, rfl⟩

/-! ### Writes of QSEL -/

namespace Chip

theorem q_of_que {c d : Chip} (h : c.que = d.que) (i : Nat) : c.q i = d.q i := by unfold q; rw [h]
theorem icause_win_core (c : Chip) (k : Clock) (n : Nat) : (c.icause k n).win.core = c.win.core := rfl
theorem cause_win_core (c : Chip) (k : Clock) (g : CauseReg) (row bits : Nat) : (c.cause k g row bits).win.core = c.win.core := by
  rcases c.cause_cases k g row bits with h | h <;> rw [h]
  · rw [orSt_win]
  · rw [icause_win_core, orSt_win]
@[simp] theorem cause_qid (c : Chip) (k : Clock) (g : CauseReg) (row bits : Nat) : (c.cause k g row bits).win.qid = c.win.qid := by
  have h := congrArg Window.qid (c.cause_win_core k g row bits)
  exact h
@[simp] theorem qSync_que (c : Chip) (i : Nat) : (c.qSync i).que = c.que := by simp [qSync]
@[simp] theorem qSync_win (c : Chip) (i : Nat) : (c.qSync i).win = c.win := by simp [qSync]
@[simp] theorem qRewounds_que (c : Chip) (k : Clock) (i n : Nat) : (c.qRewounds k i n).que = c.que := by
  unfold qRewounds; split <;> simp
@[simp] theorem qRewounds_qid (c : Chip) (k : Clock) (i n : Nat) : (c.qRewounds k i n).win.qid = c.win.qid := by
  unfold qRewounds; split <;> simp
@[simp] theorem qRewound_que (c : Chip) (k : Clock) (i : Nat) : (c.qRewound k i).que = c.que := by simp [qRewound]
@[simp] theorem qRewound_qid (c : Chip) (k : Clock) (i : Nat) : (c.qRewound k i).win.qid = c.win.qid := by simp [qRewound]

end Chip

/-- What the host's flush leaves of queue `i` (R270): nothing upward; downward, the item that its consumer has begun. -/
def Queue.flushed (i : Nat) (x : Queue) : Queue :=
  if i < 8 then
    { x with items := [], opens := [], skip := x.opens.map (fun o => (o.kind, o.unit)) ++ x.skip, copy := none, gap := 0, freshN := 0 }
  else { x with items := if x.begun then x.items.take 1 else [], hostOpen := [], freshN := 0 }

namespace Chip

theorem q_qFlush_same (c : Chip) (k : Clock) {i : Nat} (hi : i < 12) : (c.qFlush k i false).q i = (c.q i).flushed i := by
  unfold qFlush Queue.flushed
  split
  · rw [q_of_que (d := c.onQ i _) (by simp only [qSync_que, addSt_que, qRewounds_que]; rfl), q_onQ_same _ _ _ hi]
  · dsimp only
    rw [Bool.not_false, Bool.and_true, Bool.and_false, if_neg (by decide)]
    split <;> rw [q_of_que (d := c.onQ i _) (by simp only [qSync_que, addSt_que, qRewound_que]; rfl), q_onQ_same _ _ _ hi]
theorem q_qFlush_other (c : Chip) (k : Clock) {i j : Nat} (h : j ≠ i) : (c.qFlush k i false).q j = c.q j := by
  unfold qFlush
  split
  · rw [q_of_que (d := c.onQ i _) (by simp only [qSync_que, addSt_que, qRewounds_que]; rfl), q_onQ_other _ _ _ _ h]
  · dsimp only
    rw [Bool.not_false, Bool.and_true, Bool.and_false, if_neg (by decide)]
    split <;> rw [q_of_que (d := c.onQ i _) (by simp only [qSync_que, addSt_que, qRewound_que]; rfl), q_onQ_other _ _ _ _ h]
@[simp] theorem qFlush_qid (c : Chip) (k : Clock) (i : Nat) : (c.qFlush k i false).win.qid = c.win.qid := by
  unfold qFlush
  split
  · simp
  · dsimp only
    rw [Bool.and_false, if_neg (by decide)]
    split <;> simp

/-- The queue that a QSEL write selects. -/
def qselNext (c : Chip) (v : Word) : Nat := if 12 ≤ v.toNat % 16 then c.win.qid else v.toNat % 16
/-- The queue selected before has lost its request for a replay, and the next is selected. -/
def qselMove (c : Chip) (v : Word) : Chip :=
  (if c.qselNext v = c.win.qid then c else c.onQ c.win.qid fun x => { x with replay := false }).onWin
    fun w => { w with qid := c.qselNext v }
/-- The flush that the write asks for has come about. -/
def qselFlush (c : Chip) (k : Clock) (v : Word) : Chip :=
  if v.getLsbD 5 && (c.qselMove v).qEn (c.qselNext v) then (c.qselMove v).qFlush k (c.qselNext v) false else c.qselMove v
theorem qselWrite_eq (c : Chip) (k : Clock) (v : Word) : c.qselWrite k v =
    (c.qselFlush k v).onQ (c.qselNext v) fun x =>
      { x with replay := v.getLsbD 6 && decide (c.qselNext v < 8) && (c.qselFlush k v).qEn (c.qselNext v) } := rfl

theorem q_onQ_items (c : Chip) (i j : Nat) {f : Queue → Queue} {α : Type} (m : Queue → α) (h : ∀ x, m (f x) = m x) :
    m ((c.onQ i f).q j) = m (c.q j) := by
  by_cases hj : j = i
  · subst hj
    unfold q
    rw [onQ_que]
    unfold vupd
    split
    · next hlt => simp [vget, hlt, h]
    · rfl
  · rw [q_onQ_other _ _ _ _ hj]

@[simp] theorem qselMove_qid (c : Chip) (v : Word) : (c.qselMove v).win.qid = c.qselNext v := rfl
theorem q_qselMove_next (c : Chip) (v : Word) : (c.qselMove v).q (c.qselNext v) = c.q (c.qselNext v) := by
  unfold qselMove
  split
  · rfl
  · next h => exact q_onQ_other c _ _ _ h
theorem q_qselMove (c : Chip) (v : Word) (i : Nat) {α : Type} (m : Queue → α) (h : ∀ x : Queue, m { x with replay := false } = m x) :
    m ((c.qselMove v).q i) = m (c.q i) := by
  unfold qselMove
  split
  · rfl
  · exact c.q_onQ_items _ i m h
theorem lv_qselMove (c : Chip) (v : Word) (i : Nat) : (c.qselMove v).qEn i = c.qEn i := by
  unfold qselMove
  split <;> rfl

theorem qselWrite_qid (c : Chip) (k : Clock) (v : Word) : (c.qselWrite k v).win.qid = c.qselNext v := by
  rw [qselWrite_eq, onQ_win]
  unfold qselFlush
  split
  · rw [qFlush_qid, qselMove_qid]
  · rfl
/-- What a QSEL write leaves of the queue that it selects. -/
theorem q_qselWrite_next (c : Chip) (k : Clock) (v : Word) (hi : c.qselNext v < 12) {α : Type} (m : Queue → α)
    (h : ∀ (x : Queue) r, m { x with replay := r } = m x) : m ((c.qselWrite k v).q (c.qselNext v)) =
      m (if v.getLsbD 5 && c.qEn (c.qselNext v) then (c.q (c.qselNext v)).flushed (c.qselNext v) else c.q (c.qselNext v)) := by
  rw [qselWrite_eq, q_onQ_items _ _ _ m fun x => h x _]
  unfold qselFlush
  rw [lv_qselMove]
  split
  · rw [q_qFlush_same _ _ hi, q_qselMove_next]
  · rw [q_qselMove_next]
/-- Of every other queue only the request for a replay can change. -/
theorem q_qselWrite_other (c : Chip) (k : Clock) (v : Word) {i : Nat} (hi : i ≠ c.qselNext v) {α : Type} (m : Queue → α)
    (h : ∀ (x : Queue) r, m { x with replay := r } = m x) : m ((c.qselWrite k v).q i) = m (c.q i) := by
  rw [qselWrite_eq, q_onQ_other _ _ _ _ hi]
  unfold qselFlush
  split
  · rw [q_qFlush_other _ _ hi, q_qselMove _ _ _ m fun x => h x _]
  · exact c.q_qselMove v i m fun x => h x _
theorem q_qselWrite_replay (c : Chip) (k : Clock) (v : Word) (hi : c.qselNext v < 8) (h6 : v.getLsbD 6 = true) (h5 : v.getLsbD 5 = false)
    (hen : c.qEn (c.qselNext v) = true) : ((c.qselWrite k v).q (c.qselNext v)).replay = true := by
  rw [qselWrite_eq, q_onQ_same _ _ _ (by omega)]
  unfold qselFlush
  rw [h5, h6, Bool.false_and, if_neg (by decide), lv_qselMove, hen]
  simp [hi]

end Chip

/-- A good QSEL write is the register's own write alone. -/
theorem State.beat_qsel {s : State} {b : Beat} {kind : Chip → Bool} (hs : s.serving) (hg : s.chip.goodWrite b) (hr : s.chip.reach b = 10)
    (hk : kind s.chip = true) :
    ∃ p q, s.beat b kind = { s with chip := { ({ s.chip with port := p } : Chip).qselWrite s.clk b.data with port := q } } := by
  obtain ⟨p, q, -, -, -, hbeat⟩ := Chip.beat_writeReg s.clk hg (by omega) (by omega) (by omega)
  rw [hr] at hbeat
  exact ⟨p, q, (hs.beat_eq b hk).trans (congrArg (fun c => { s with chip := c }) hbeat)⟩

/-- Settles O30: the write selects, flushes and asks for the replay in this order, each on its queue alone. -/
theorem queueSelection : Obligations.QueueSelection := by
  unfold Obligations.QueueSelection
  intro b s hs hg hr
  have hnext : ∀ p : Port, b.data.toNat % 16 < 12 → ({ s.chip with port := p } : Chip).qselNext b.data = b.data.toNat % 16 :=
    fun p h => if_neg (by omega)
  have hkeeps : ∀ p : Port, Chip.Keeps { s.chip with port := p } (({ s.chip with port := p } : Chip).qselWrite s.clk b.data) :=
    fun p => Chip.Keeps.qselWrite _ _ (.refl _)
  have hselect := State.beat_qsel hs hg hr (kind := fun c => c.writes b && c.reach b == 10) (by simp [hg.2.1, hr])
  have hflush : b.data.getLsbD 5 = true → _ := fun h =>
    State.beat_qsel hs hg hr (kind := fun c => c.writes b && c.reach b == 10 && b.data.getLsbD 5) (by simp [hg.2.1, hr, h])
  have hreplay : b.data.getLsbD 6 = true → _ := fun h =>
    State.beat_qsel hs hg hr (kind := fun c => c.writes b && c.reach b == 10 && b.data.getLsbD 6) (by simp [hg.2.1, hr, h])
  refine ⟨fun hi => ?_, fun hi => ?_, fun hi h5 hen => ?_, fun h8 hi h5 hen => ?_, fun hi h6 h5 hen => ?_⟩
  · obtain ⟨p, q, hbeat⟩ := hselect
    have hq := Chip.qselWrite_qid { s.chip with port := p } s.clk b.data
    rw [hnext p hi] at hq
    exact ⟨_, congrArg Host.Outcome.next hbeat, rfl, rfl, hq, (hkeeps p).staged, (hkeeps p).live, (hkeeps p).boot⟩
  · obtain ⟨p, q, hbeat⟩ := hselect
    have hq := Chip.qselWrite_qid { s.chip with port := p } s.clk b.data
    have hold : ({ s.chip with port := p } : Chip).qselNext b.data = s.chip.win.qid := if_pos hi
    exact ⟨_, congrArg Host.Outcome.next hbeat, rfl, rfl, hq.trans hold, (hkeeps p).staged, (hkeeps p).live, (hkeeps p).boot⟩
  · obtain ⟨p, q, hbeat⟩ := hflush h5
    have hn := hnext p (by omega)
    have hq := fun {α : Type} (m : Queue → α) h =>
      Chip.q_qselWrite_next { s.chip with port := p } s.clk b.data (by rw [hn]; omega) m h
    have hon : ({ s.chip with port := p } : Chip).qEn (b.data.toNat % 16) = true := hen
    rw [hn, h5, Bool.true_and, if_pos hon] at hq
    have hother := fun i (h : i ≠ b.data.toNat % 16) {α : Type} (m : Queue → α) =>
      Chip.q_qselWrite_other { s.chip with port := p } s.clk b.data (by rw [hn]; exact h) m
    have hempty : ((s.chip.q (b.data.toNat % 16)).flushed (b.data.toNat % 16)).items = [] ∧
        ((s.chip.q (b.data.toNat % 16)).flushed (b.data.toNat % 16)).opens = [] ∧
        ((s.chip.q (b.data.toNat % 16)).flushed (b.data.toNat % 16)).copy = none := by
      unfold Queue.flushed
      rw [if_pos hi]
      exact ⟨rfl, rfl, rfl⟩
    exact ⟨_, congrArg Host.Outcome.next hbeat, rfl, rfl, (hq Queue.items fun _ _ => rfl).trans hempty.1,
      (hq Queue.opens fun _ _ => rfl).trans hempty.2.1, (hq Queue.copy fun _ _ => rfl).trans hempty.2.2, (hkeeps p).staged, (hkeeps p).live,
      fun i h => ⟨hother i h Queue.items fun _ _ => rfl, hother i h Queue.copy fun _ _ => rfl⟩⟩
  · obtain ⟨p, q, hbeat⟩ := hflush h5
    have hn := hnext p (by omega)
    have hq := fun {α : Type} (m : Queue → α) h =>
      Chip.q_qselWrite_next { s.chip with port := p } s.clk b.data (by rw [hn]; omega) m h
    have hon : ({ s.chip with port := p } : Chip).qEn (b.data.toNat % 16) = true := hen
    rw [hn, h5, Bool.true_and, if_pos hon] at hq
    have hkept : ((s.chip.q (b.data.toNat % 16)).flushed (b.data.toNat % 16)).hostOpen = [] ∧
        ((s.chip.q (b.data.toNat % 16)).flushed (b.data.toNat % 16)).items =
          if (s.chip.q (b.data.toNat % 16)).begun then (s.chip.q (b.data.toNat % 16)).items.take 1 else [] := by
      unfold Queue.flushed
      rw [if_neg (by omega)]
      exact ⟨rfl, rfl⟩
    exact ⟨_, congrArg Host.Outcome.next hbeat, rfl, rfl, (hq Queue.hostOpen fun _ _ => rfl).trans hkept.1,
      (hq Queue.items fun _ _ => rfl).trans hkept.2⟩
  · obtain ⟨p, q, hbeat⟩ := hreplay h6
    have hn := hnext p (by omega)
    have hq := fun {α : Type} (m : Queue → α) h =>
      Chip.q_qselWrite_next { s.chip with port := p } s.clk b.data (by rw [hn]; omega) m h
    have hrep := Chip.q_qselWrite_replay { s.chip with port := p } s.clk b.data (by rw [hn]; omega) h6 h5 (by rw [hn]; exact hen)
    rw [hn, h5, Bool.false_and, if_neg (by decide)] at hq
    rw [hn] at hrep
    exact ⟨_, congrArg Host.Outcome.next hbeat, rfl, rfl, hrep, hq Queue.items fun _ _ => rfl, hq Queue.copy fun _ _ => rfl⟩

end Sys2Proof.Machine
end

section
/-! PROOFS. Role requests written through WCTL (R395, R401, R402, R408). -/

namespace Sys2Proof.Machine
open Sys2Proof

namespace Chip

/-! ### A write of WCTL that carries a role request -/

theorem wctlWrite_role {c : Chip} (k : Clock) {v : Word} {req : Nat} (hreset : v.toNat / 2 ^ 24 ≠ 0xA3) (hidle : c.win.warm = .idle)
    (hreq : v.toNat / 2 ^ 16 % 8 = req) (h1 : 1 ≤ req) (h3 : req ≤ 3) : c.wctlWrite k v = (c.wctlFlags k v).roleRequest k req := by
  rw [wctlWrite_eq, if_neg (by rw [wctlFlags_warm, hidle]; simpa using hreset), hreq, if_pos ⟨h1, h3⟩]

/-- A beat is as good whatever stands beside the port. -/
theorem goodWrite_of_port {c d : Chip} {b : Beat} (h : d.port = c.port) (hg : c.goodWrite b) : d.goodWrite b := by
  unfold goodWrite takes opens writes cmdOf serves portOn target at *
  rwa [h]
theorem reach_of_port {c d : Chip} {b : Beat} (h : d.port = c.port) : d.reach b = c.reach b := by
  unfold reach
  rw [h]

section
variable {c : Chip} {k : Clock}

theorem roleRequest_solo {req : Nat} (h : c.twin.role = .solo) :
    c.roleRequest k req = c.settleReq k (if req = 3 then rqGranted else rqNopair) := by
  unfold roleRequest; exact if_pos h
theorem roleRequest_claim (h : c.twin.role = .shadow) (hreq : c.twin.req = none) (hshade : c.col.shade = false) (harm : c.st TWIN.ARMED 0 = 0)
    (hpeer : c.twin.peer = false) :
    c.roleRequest k 1 = (c.onTwin (fun t => { t with req := some (.tentative (k.evc + 4096)) })).syncClaim k := by
  unfold roleRequest
  simp only [h, hreq, hshade, harm, hpeer]
  rfl
theorem roleRequest_leave (h : c.twin.role = .shadow) (hreq : c.twin.req = none) :
    c.roleRequest k 3 = c.onTwin fun t => { t with req := some .leave, soloDue := true } := by
  unfold roleRequest
  simp only [h, hreq]
  rfl
theorem roleRequest_yield (h : c.twin.role = .lit) (hreq : c.twin.req = none) (hlink : c.st TWIN.LINKUP 0 = 1) :
    c.roleRequest k 2 = if c.twin.peerArmed = true then c.onTwin fun t => { t with req := some (.handover k.pos none) }
      else c.settleReq k rqNotready := by
  unfold roleRequest
  simp only [h, hreq, hlink]
  cases c.twin.peerArmed <;> rfl
theorem roleRequest_stay (h : c.twin.role = .lit) (hreq : c.twin.req = none) : c.roleRequest k 3 = c.settleReq k rqLitleave := by
  unfold roleRequest
  simp only [h, hreq]
  rfl

end
/-- A good WCTL write with a role request, and no warm reset, is that request on a window with the write's flags. -/
theorem beat_role {c : Chip} (k : Clock) {b : Beat} {req : Nat} (hg : c.goodWrite b) (hr : c.reach b = 2)
    (hreset : b.data.toNat / 2 ^ 24 ≠ 0xA3) (hidle : c.win.warm = .idle) (hreq : b.data.toNat / 2 ^ 16 % 8 = req) (h1 : 1 ≤ req) (h3 : req ≤ 3) :
    ∃ p q w, p.vioLost = false ∧ c.beat k b = { ({ c with port := p, win := w } : Chip).roleRequest k req with port := q } := by
  obtain ⟨p, q, -, hv, -, hbeat⟩ := beat_writeReg k hg (by omega) (by omega) (by omega)
  rw [hr] at hbeat
  obtain ⟨w, hw⟩ := ({ c with port := p } : Chip).wctlFlags_form k b.data
  have hwrite : ({ c with port := p } : Chip).writeReg k 2 b.data = ({ c with port := p } : Chip).wctlWrite k b.data := rfl
  rw [hwrite, wctlWrite_role (c := { c with port := p }) k hreset hidle hreq h1 h3, hw] at hbeat
  exact ⟨p, q, w, hv, hbeat⟩

/-- The claim that a shadow asks for stands on TWN_CLAIM. -/
theorem syncClaim_twin (c : Chip) (k : Clock) :
    (c.syncClaim k).twin = { c.twin with claim := c.wantClaim, claimPin := c.twin.claimPin.send (k.edges + 2) c.wantClaim } := setSt_twin ..
theorem setPeer_twin (c : Chip) (l : Bool) : (c.setPeer l).twin = { c.twin with peer := l } := setSt_twin ..
theorem setPeer_armed {c : Chip} (l : Bool) (hwf : c.heath.status.wf = true) : (c.setPeer l).st TWIN.ARMED 0 = c.st TWIN.ARMED 0 :=
  st_setSt_apart (c := c.onTwin _) hwf (by decide) (by decide) (by decide)

/-- What a settled request leaves. -/
theorem settleReq_spec {c : Chip} (k : Clock) {code : Nat} (hwf : c.heath.status.wf = true) (hcode : code < 256) :
    ∃ d, c.settleReq k code = d ∧ d.twin = { c.twin with req := none } ∧ d.st TWIN.RQRES 0 = code ∧ d.win.icause.getLsbD 13 = true ∧
      Keeps c d := ⟨_, rfl, settleReq_twin .., settleReq_code hwf hcode, settleReq_icause .., .settleReq _ _ (.refl c)⟩

end Chip

/-- The claim comes with TWN_PEER as the part reads it. -/
theorem exec_claimLit {s : State} {b : Beat} (hs : s.serving) (hg : s.chip.goodWrite b) (hr : s.chip.reach b = 2)
    (hreq : b.data.toNat / 2 ^ 16 % 8 = 1) (l : Bool) :
    exec (.claimLit b l) s = .next { s with chip := (s.chip.setPeer l).beat s.clk b } := by
  refine congrArg Host.Outcome.next ?_
  rw [if_pos (by rw [hg.2.1, hr, hreq]; rfl), hs.2.2.2, hs.act]

theorem exec_role {s : State} {b : Beat} {kind : Chip → Bool} (hs : s.serving) (hk : kind s.chip = true) :
    .next (s.beat b kind) = (.next { s with chip := s.chip.beat s.clk b } : Out) := congrArg Host.Outcome.next (hs.beat_eq b hk)

section
variable {s : State} {b : Beat} (hs : s.serving) (hg : s.chip.goodWrite b) (hr : s.chip.reach b = 2)
  (hreset : b.data.toNat / 2 ^ 24 ≠ 0xA3) (hidle : s.chip.win.warm = .idle)
include hs hg hr hreset hidle

/-- A claim request comes to the role request on a part that reads TWN_PEER as low. -/
theorem exec_claimRequest (hreq : b.data.toNat / 2 ^ 16 % 8 = 1) :
    ∃ p q w, p.vioLost = false ∧ exec (.claimLit b false) s = .next { s with chip :=
      { ({ s.chip.setPeer false with port := p, win := w } : Chip).roleRequest s.clk 1 with port := q } } := by
  have hport : (s.chip.setPeer false).port = s.chip.port := (Chip.Keeps.setPeer false (.refl s.chip)).port
  have hwin : (s.chip.setPeer false).win = s.chip.win := Chip.setSt_win ..
  obtain ⟨p, q, w, hv, hb⟩ := Chip.beat_role s.clk (Chip.goodWrite_of_port hport hg) ((Chip.reach_of_port hport).trans hr) hreset
    (by rw [hwin]; exact hidle) hreq (by decide) (by decide)
  refine ⟨p, q, w, hv, (exec_claimLit hs hg hr hreq false).trans ?_⟩
  rw [hb]

theorem exec_claimLit_shadow (hreq : b.data.toNat / 2 ^ 16 % 8 = 1) (hrole : s.chip.twin.role = .shadow) (hnone : s.chip.twin.req = none)
    (hshade : s.chip.col.shade = false) (harm : s.chip.st TWIN.ARMED 0 = 0) :
    ∃ t, exec (.claimLit b false) s = .next t ∧ t.pending = s.pending ∧ t.clk = s.clk ∧
      t.chip.twin.req = some (.tentative (s.clk.evc + 4096)) ∧ t.chip.twin.claim = true ∧ t.chip.twin.role = .shadow ∧
      t.chip.heath.staged = s.chip.heath.staged ∧ t.chip.heath.live = s.chip.heath.live := by
  obtain ⟨p, q, w, hv, hexec⟩ := exec_claimRequest hs hg hr hreset hidle hreq
  have hkeep : Chip.Keeps s.chip (s.chip.setPeer false) := .setPeer false (.refl _)
  have harm' := (s.chip.setPeer_armed false hs.wf).trans harm
  have hcol : (s.chip.setPeer false).col = s.chip.col := Chip.setSt_col ..
  have htwin := s.chip.setPeer_twin false
  generalize s.chip.setPeer false = d at *
  generalize hc : ({ d with port := p, win := w } : Chip) = c at hexec
  have hct : c.twin = { s.chip.twin with peer := false } := by rw [← hc]; exact htwin
  have hrequest : c.roleRequest s.clk 1 = (c.onTwin (fun t => { t with req := some (.tentative (s.clk.evc + 4096)) })).syncClaim s.clk :=
    Chip.roleRequest_claim (by rw [hct]; exact hrole) (by rw [hct]; exact hnone) (by rw [← hc]; exact hcol ▸ hshade)
      (by rw [← hc]; exact harm') (by rw [hct])
  rw [hrequest] at hexec
  have htw := Chip.syncClaim_twin (c.onTwin fun t => { t with req := some (.tentative (s.clk.evc + 4096)) }) s.clk
  have hclaim : (c.onTwin fun t => { t with req := some (.tentative (s.clk.evc + 4096)) }).wantClaim = true := by
    unfold Chip.wantClaim
    simp [← hc, hv]
  have hkept : Chip.Keeps c ((c.onTwin fun t => { t with req := some (.tentative (s.clk.evc + 4096)) }).syncClaim s.clk) :=
    .syncClaim _ (.onTwin _ (.refl c))
  refine ⟨_, hexec, rfl, rfl, congrArg Twin.req htw, (congrArg Twin.claim htw).trans hclaim, (congrArg Twin.role htw).trans ?_,
    hkept.staged.trans ?_, hkept.live.trans ?_⟩
  · show c.twin.role = _
    rw [hct]; exact hrole
  · rw [← hc]; exact hkeep.staged
  · rw [← hc]; exact hkeep.live

theorem exec_claimLit_solo (hreq : b.data.toNat / 2 ^ 16 % 8 = 1) (hrole : s.chip.twin.role = .solo) :
    ∃ t, exec (.claimLit b false) s = .next t ∧ t.chip.twin.role = .solo ∧ t.chip.st TWIN.RQRES 0 = rqNopair ∧
      t.chip.win.icause.getLsbD 13 = true := by
  obtain ⟨p, q, w, -, hexec⟩ := exec_claimRequest hs hg hr hreset hidle hreq
  have hwf : (s.chip.setPeer false).heath.status.wf = true := (Chip.Keeps.setPeer false (.refl s.chip)).wf hs.wf
  have htwin := s.chip.setPeer_twin false
  generalize s.chip.setPeer false = d at *
  generalize hc : ({ d with port := p, win := w } : Chip) = c at hexec
  have hct : c.twin = { s.chip.twin with peer := false } := by rw [← hc]; exact htwin
  obtain ⟨x, hx, htw, hcode, hic, -⟩ := Chip.settleReq_spec (c := c) (code := rqNopair) s.clk (by rw [← hc]; exact hwf) (by decide)
  rw [Chip.roleRequest_solo (by rw [hct]; exact hrole), if_neg (by decide), hx] at hexec
  exact ⟨_, hexec, (congrArg Twin.role htw).trans (by rw [hct]; exact hrole), hcode, hic⟩

/-- A yield or leave request comes to the role request itself. -/
theorem exec_request {kind : Chip → Bool} {req : Nat} (hreq : b.data.toNat / 2 ^ 16 % 8 = req) (h1 : 1 ≤ req) (h3 : req ≤ 3)
    (hk : kind s.chip = true) :
    ∃ p q w, .next (s.beat b kind) = (.next { s with chip :=
      { ({ s.chip with port := p, win := w } : Chip).roleRequest s.clk req with port := q } } : Out) := by
  obtain ⟨p, q, w, -, hb⟩ := Chip.beat_role s.clk hg hr hreset hidle hreq h1 h3
  refine ⟨p, q, w, (exec_role hs hk).trans ?_⟩
  rw [hb]

theorem exec_yieldToShadow (hreq : b.data.toNat / 2 ^ 16 % 8 = 2) (hrole : s.chip.twin.role = .lit) (hnone : s.chip.twin.req = none)
    (hlink : s.chip.st TWIN.LINKUP 0 = 1) :
    ∃ p q w, exec (.yieldToShadow b) s = .next { s with chip :=
      { if s.chip.twin.peerArmed = true then
          ({ s.chip with port := p, win := w } : Chip).onTwin fun t => { t with req := some (.handover s.clk.pos none) }
        else ({ s.chip with port := p, win := w } : Chip).settleReq s.clk rqNotready with port := q } } := by
  obtain ⟨p, q, w, h⟩ := exec_request hs hg hr hreset hidle hreq (by decide) (by decide)
    (kind := fun c => c.writes b && c.reach b == 2 && b.data.toNat / 2 ^ 16 % 8 == 2) (by rw [hg.2.1, hr, hreq]; rfl)
  rw [Chip.roleRequest_yield (c := { s.chip with port := p, win := w }) hrole hnone hlink] at h
  exact ⟨p, q, w, h⟩

theorem exec_leavePair_shadow (hreq : b.data.toNat / 2 ^ 16 % 8 = 3) (hrole : s.chip.twin.role = .shadow) (hnone : s.chip.twin.req = none) :
    ∃ t, exec (.leavePair b) s = .next t ∧ t.pending = s.pending ∧ t.clk = s.clk ∧
      t.chip.twin = { s.chip.twin with req := some .leave, soloDue := true } ∧ t.chip.heath = s.chip.heath := by
  obtain ⟨p, q, w, h⟩ := exec_request hs hg hr hreset hidle hreq (by decide) (by decide)
    (kind := fun c => c.writes b && c.reach b == 2 && b.data.toNat / 2 ^ 16 % 8 == 3) (by rw [hg.2.1, hr, hreq]; rfl)
  rw [Chip.roleRequest_leave (c := { s.chip with port := p, win := w }) hrole hnone] at h
  exact ⟨_, h, rfl, rfl, rfl, rfl⟩

theorem exec_leavePair_lit (hreq : b.data.toNat / 2 ^ 16 % 8 = 3) (hrole : s.chip.twin.role = .lit) (hnone : s.chip.twin.req = none) :
    ∃ t, exec (.leavePair b) s = .next t ∧ t.chip.twin.role = .lit ∧ t.chip.twin.req = none ∧ t.chip.st TWIN.RQRES 0 = rqLitleave := by
  obtain ⟨p, q, w, h⟩ := exec_request hs hg hr hreset hidle hreq (by decide) (by decide)
    (kind := fun c => c.writes b && c.reach b == 2 && b.data.toNat / 2 ^ 16 % 8 == 3) (by rw [hg.2.1, hr, hreq]; rfl)
  obtain ⟨x, hx, htw, hcode, -, -⟩ :=
    Chip.settleReq_spec (c := { s.chip with port := p, win := w }) (code := rqLitleave) s.clk hs.wf (by decide)
  rw [Chip.roleRequest_stay (c := { s.chip with port := p, win := w }) hrole hnone, hx] at h
  exact ⟨_, h, (congrArg Twin.role htw).trans hrole, congrArg Twin.req htw, hcode⟩

end

/-- Settles O32: each request is turned away or taken up as the role, the peer and the shade have it. -/
theorem roleRequests : Obligations.RoleRequests := by
  unfold Obligations.RoleRequests
  intro b s hs hg hr hreset hidle
  refine ⟨fun hreq hrole hnone hshade harm _ => exec_claimLit_shadow hs hg hr hreset hidle hreq hrole hnone hshade harm,
    fun hreq hrole hnone hlink => ⟨fun ha => ?_, fun ha => ?_⟩,
    fun hreq hnone => ⟨fun hrole => exec_leavePair_shadow hs hg hr hreset hidle hreq hrole hnone,
      fun hrole => exec_leavePair_lit hs hg hr hreset hidle hreq hrole hnone⟩,
    fun hreq hrole => exec_claimLit_solo hs hg hr hreset hidle hreq hrole⟩
  · obtain ⟨p, q, w, h⟩ := exec_yieldToShadow hs hg hr hreset hidle hreq hrole hnone hlink
    rw [if_pos ha] at h
    exact ⟨_, h, rfl, rfl, rfl, rfl⟩
  · obtain ⟨p, q, w, h⟩ := exec_yieldToShadow hs hg hr hreset hidle hreq hrole hnone hlink
    obtain ⟨x, hx, htw, hcode, -, hkept⟩ :=
      Chip.settleReq_spec (c := { s.chip with port := p, win := w }) (code := rqNotready) s.clk hs.wf (by decide)
    rw [if_neg (by simp [ha]), hx] at h
    exact ⟨_, h, congrArg Twin.req htw, hcode, (congrArg Twin.role htw).trans hrole, hkept.staged, hkept.live⟩

end Sys2Proof.Machine
end

section
/-! PROOFS. HDATA writes (R71, R88, R90, R92, R97, R98, R106): the staged copy, heath errors, and the requests of DIR and GLOBAL. -/

namespace Sys2Proof.Machine
open Sys2Proof

namespace Chip

/-! ### A good write beat at HDATA -/

theorem writeBeat_heath {o : Chip} (k : Clock) {b : Beat} (hok : o.writeOk b = true) (hi : o.port.idx = 4) :
    o.writeBeat k b =
      if o.writeError o.win.haddr.toNat b.data = 0 then
        ((((o.replyWrite true).writeWord k o.win.haddr.toNat b.data).bumpAddr).tookEffect)
      else ((o.replyWrite true).onM fun m => { m with brokeHeath := false }).tookEffect := by
  unfold writeBeat
  dsimp only
  rw [hi, if_neg (by decide), hok, if_neg (by decide), if_pos rfl]

/-- A good write beat at HDATA writes its word, or meets a heath error and writes nothing. -/
theorem beat_writeHeath {c : Chip} (k : Clock) {b : Beat} (hg : c.goodWrite b) (hr : c.reach b = 4) :
    (c.writeError c.win.haddr.toNat b.data = 0 →
      ∃ p q, q.frames = satAdd 32 ((({ c with port := p } : Chip).writeWord k c.win.haddr.toNat b.data).bumpAddr).port.frames 1 ∧
        p.frames = c.port.frames ∧
        c.beat k b = { (({ c with port := p } : Chip).writeWord k c.win.haddr.toNat b.data).bumpAddr with port := q }) ∧
    (c.writeError c.win.haddr.toNat b.data ≠ 0 →
      ∃ q m, c.beat k b = { c with port := q, mead := m }) := by
  obtain ⟨ht, hw, hcrc⟩ := hg
  obtain ⟨o, hto, hbeat⟩ := beat_write k ht hw (by omega) fun h => absurd h (by omega)
  have hidx := hto.idx
  have hfr := hto.frames
  rw [writeBeat_heath k (hto.writeOk hcrc) (by omega)] at hbeat
  obtain ⟨p, rfl⟩ := hto.rest
  obtain ⟨g, y, hreply⟩ := replyWrite_eq_withReply { c with port := p } true
  rw [hreply] at hbeat
  have herr : ({ c with port := p } : Chip).writeError c.win.haddr.toNat b.data = c.writeError c.win.haddr.toNat b.data := rfl
  have haddr : ({ c with port := p } : Chip).win.haddr = c.win.haddr := rfl
  rw [haddr, herr] at hbeat
  refine ⟨fun h => ?_, fun h => ?_⟩
  · rw [if_pos h] at hbeat
    obtain ⟨q, hq, hqf, -⟩ := closeBeat_eq ((({ c with port := { p with given := g, reply := y } } : Chip).writeWord k c.win.haddr.toNat b.data).bumpAddr).tookEffect b
    exact ⟨{ p with given := g, reply := y }, q, hqf, hfr, hbeat.trans hq⟩
  · rw [if_neg h] at hbeat
    obtain ⟨q, hq, -⟩ := closeBeat_eq (({ c with port := { p with given := g, reply := y } } : Chip).onM fun m => { m with brokeHeath := false }).tookEffect b
    exact ⟨q, _, hbeat.trans hq⟩

/-! ### What the write does -/

/-- The address after a beat that meets no heath error. -/
def nextHaddr (c : Chip) : Word := if c.win.hainc then word (nextAddr c.win.haddr.toNat) else c.win.haddr
theorem bumpAddr_eq (c : Chip) : c.bumpAddr = { c with win := { c.win with haddr := c.nextHaddr } } := by
  unfold bumpAddr nextHaddr
  split <;> rfl
theorem restand_form (c : Chip) (k : Clock) (a : Option Nat) : ∃ l, c.restand k a = { c with heath := { c.heath with standing := l } } :=
  ⟨_, rfl⟩
theorem writeWord_st {c : Chip} (k : Clock) {a : Nat} {v : Word} {ws : WSpec} (h : wordSpec a = some ws) (hst : ws.kind = .st) :
    ∃ l u, c.writeWord k a v =
      { c with heath := { c.heath with staged := c.heath.staged.write a (v &&& ws.mask), standing := l, upsets := u } } := by
  unfold writeWord
  rw [h]
  dsimp only
  rw [if_pos hst]
  obtain ⟨l, hl⟩ := c.restand_form k none
  rw [hl]
  exact ⟨_, _, rfl⟩
/-- What a write at `a` does to DIR, where the word is none of a bank. -/
def dirWritten (k : Clock) (a : Nat) (v : Word) (d : Dir) : Dir :=
  if tabOf a = 0 ∧ rowOf a = 0 ∧ wrdOf a = 0 then
    if !d.slock ∧ v.toNat % 16 ≠ 0 then
      { d with slock := true, hostSchema := v.toNat % 16,
               lateSchema := if 124996 ≤ k.idx ∧ d.lateSchema = none then some (d.slock, d.hostSchema) else d.lateSchema }
    else d
  else if tabOf a = 0 ∧ rowOf a = 0 ∧ wrdOf a = 1 then { d with view := v.getLsbD 0, revPend := d.revPend || v.getLsbD 8 }
  else if tabOf a = 1 ∧ rowOf a = 0 ∧ wrdOf a = 5 then
    { d with snapView := v.getLsbD 2, snapSec := v.getLsbD 1, snapPend := d.snapPend || v.getLsbD 0 }
  else d
/-- A write outside the banks' words changes DIR alone. -/
theorem writeWord_dir {c : Chip} (k : Clock) {a : Nat} {v : Word} (h : wordSpec a = none) :
    c.writeWord k a v = { c with dir := dirWritten k a v c.dir } := by
  unfold writeWord dirWritten
  rw [h]
  dsimp only
  split
  · split <;> rfl
  · split
    · rfl
    · split <;> rfl

/-! ### Heath errors of a write -/

theorem writeError_st {c : Chip} {a : Nat} {v : Word} {ws : WSpec} (hw : c.win.warm ≠ .acted) (ha : addrError a = 0)
    (h : wordSpec a = some ws) (hst : ws.kind = .st) :
    c.writeError a v = if c.frozen then hFrozen else if c.dir.view then hLiveview else if c.mead.brokeHeath then hXlock else 0 := by
  unfold writeError
  rw [if_neg hw, if_neg (by simp [ha]), h]
  exact if_pos hst
theorem writeError_dir {c : Chip} {a : Nat} {v : Word} (hw : c.win.warm ≠ .acted) (ha : addrError a = 0) (h : wordSpec a = none) :
    c.writeError a v =
      if tabOf a = 0 ∧ rowOf a = 0 ∧ wrdOf a = 0 ∧ c.dir.slock ∧ v.toNat % 16 ≠ c.dir.hostSchema then hLocked
      else if tabOf a = 0 ∧ rowOf a = 0 ∧ wrdOf a = 1 ∧ v.getLsbD 8 ∧ c.win.pend then hBusy
      else if c.mead.brokeHeath then hXlock else 0 := by
  unfold writeError
  rw [if_neg hw, if_neg (by simp [ha]), h]

end Chip

/-- An HDATA write beat on a serving part is the port's beat alone. -/
theorem exec_heathWrite {s : State} {b : Beat} {kind : Chip → Bool} (hs : s.serving) (hk : kind s.chip = true) :
    (.next (s.beat b kind) : Out) = .next { s with chip := s.chip.beat s.clk b } := congrArg Host.Outcome.next (hs.beat_eq b hk)

section
variable {s : State} {b : Beat} {kind : Chip → Bool} (hs : s.serving) (hg : s.chip.goodWrite b) (hr : s.chip.reach b = 4)
  (hk : kind s.chip = true)
include hs hg hr hk

/-- A write that meets a heath error changes the port alone, and forgets that a locked sequence broke. -/
theorem State.beat_heathError (he : s.chip.writeError s.chip.win.haddr.toNat b.data ≠ 0) :
    ∃ q m, (.next (s.beat b kind) : Out) = .next { s with chip := { s.chip with port := q, mead := m } } := by
  obtain ⟨q, m, hb⟩ := (Chip.beat_writeHeath s.clk hg hr).2 he
  exact ⟨q, m, (exec_heathWrite hs hk).trans (by rw [hb])⟩

/-- A write of a word of DIR or GLOBAL that meets no heath error. -/
theorem State.beat_heathDir (he : s.chip.writeError s.chip.win.haddr.toNat b.data = 0) (hw : wordSpec s.chip.win.haddr.toNat = none) :
    ∃ q, (.next (s.beat b kind) : Out) = .next { s with chip :=
      { s.chip with port := q, win := { s.chip.win with haddr := s.chip.nextHaddr },
                    dir := Chip.dirWritten s.clk s.chip.win.haddr.toNat b.data s.chip.dir } } := by
  obtain ⟨p, q, -, -, hb⟩ := (Chip.beat_writeHeath s.clk hg hr).1 he
  refine ⟨q, (exec_heathWrite hs hk).trans ?_⟩
  rw [hb, Chip.bumpAddr_eq, Chip.writeWord_dir s.clk hw]
  rfl

end

/-- Settles O23: the staged word takes the write's field bits and HADDR steps on; an error leaves all but the port. -/
theorem hdataWrite : Obligations.HdataWrite := by
  unfold Obligations.HdataWrite
  intro b s hs hg hr
  have hkind : (s.chip.writes b && s.chip.reach b == 4) = true := by simp [hg.2.1, hr]
  refine ⟨fun ws hws hst he => ?_, fun he => ?_⟩
  · obtain ⟨p, q, hqf, hp, hb⟩ := (Chip.beat_writeHeath s.clk hg hr).1 he
    obtain ⟨l, u, hw⟩ := Chip.writeWord_st (c := { s.chip with port := p }) s.clk (v := b.data) hws hst
    rw [Chip.bumpAddr_eq, hw] at hb hqf
    refine ⟨_, exec_heathWrite hs (kind := fun c => c.writes b && c.reach b == 4) hkind, rfl, rfl, ?_⟩
    rw [hb]
    exact ⟨fun x => Bank.read_write _ _ _ _ hs.2.1.1, rfl, rfl, rfl, rfl, rfl, hqf.trans (congrArg (satAdd 32 · 1) hp), rfl⟩
  · obtain ⟨q, m, hexec⟩ := State.beat_heathError hs hg hr (kind := fun c => c.writes b && c.reach b == 4) hkind he
    exact ⟨_, hexec, rfl, rfl, rfl, rfl, rfl, rfl⟩

/-- Settles O24: FROZEN comes before LIVEVIEW, and either is a heath error. -/
theorem heathErrors : Obligations.HeathErrors := by
  unfold Obligations.HeathErrors
  intro b s ws hs hg hr hwarm ha hws hst hblock
  have he : s.chip.writeError s.chip.win.haddr.toNat b.data =
      if s.chip.win.pend = true ∨ s.chip.dir.revPend = true then 0x05 else 0x06 := by
    rw [Chip.writeError_st hwarm ha hws hst]
    unfold Chip.frozen
    by_cases hf : s.chip.win.pend = true ∨ s.chip.dir.revPend = true
    · rw [if_pos hf, if_pos (by simpa using hf)]
      rfl
    · have hview : s.chip.dir.view = true := by
        rcases hblock with h | h | h
        · exact absurd (.inl h) hf
        · exact absurd (.inr h) hf
        · exact h
      rw [if_neg hf, if_neg (by simpa using hf), if_pos hview]
      rfl
  refine ⟨he, ?_⟩
  obtain ⟨q, m, hexec⟩ := State.beat_heathError hs hg hr (kind := fun c => c.writes b && c.reach b == 4) (by simp [hg.2.1, hr])
    (by rw [he]; split <;> decide)
  exact ⟨_, hexec, rfl, rfl⟩

/-- Settles O27: each request is a write of its word of DIR or GLOBAL, refused where the word is locked or busy. -/
theorem dirAndSnapshotRequests : Obligations.DirAndSnapshotRequests := by
  unfold Obligations.DirAndSnapshotRequests
  intro b s hs hg hr hwarm hbroke
  have hnone : wordSpec (hAddr 0 0 0) = none ∧ wordSpec (hAddr 0 0 1) = none ∧ wordSpec (hAddr 1 0 5) = none := by decide
  have haddr : addrError (hAddr 0 0 0) = 0 ∧ addrError (hAddr 0 0 1) = 0 ∧ addrError (hAddr 1 0 5) = 0 := by decide
  refine ⟨fun h hs0 hv => ?_, fun h hs1 hv => ?_, fun h h8 hp => ?_, fun h h8 hp => ?_, fun h h0 => ?_⟩
  · obtain ⟨q, hexec⟩ := State.beat_heathDir hs hg hr (kind := fun c => c.writes b && c.reach b == 4 && c.win.haddr.toNat == hAddr 0 0 0)
      (by simp [hg.2.1, hr, h]) (by rw [h, Chip.writeError_dir hwarm haddr.1 hnone.1, hs0, hbroke]; simp [hAddr, wrdOf]) (by rw [h]; exact hnone.1)
    have hd : Chip.dirWritten s.clk (hAddr 0 0 0) b.data s.chip.dir = { s.chip.dir with
        slock := true, hostSchema := b.data.toNat % 16
        lateSchema := if 124996 ≤ s.clk.idx ∧ s.chip.dir.lateSchema = none then some (s.chip.dir.slock, s.chip.dir.hostSchema)
          else s.chip.dir.lateSchema } := by
      unfold Chip.dirWritten
      rw [if_pos (by decide), if_pos ⟨by rw [hs0]; rfl, hv⟩]
    rw [h, hd] at hexec
    exact ⟨_, hexec, rfl, rfl, rfl, rfl, by simp [Chip.schemaOk]⟩
  · have he : s.chip.writeError s.chip.win.haddr.toNat b.data = 0x07 := by
      rw [h, Chip.writeError_dir hwarm haddr.1 hnone.1, if_pos ⟨by decide, by decide, by decide, hs1, hv⟩]
      rfl
    obtain ⟨q, m, hexec⟩ := State.beat_heathError hs hg hr
      (kind := fun c => c.writes b && c.reach b == 4 && c.win.haddr.toNat == hAddr 0 0 0) (by simp [hg.2.1, hr, h]) (by rw [he]; decide)
    exact ⟨he, _, hexec, rfl, rfl, rfl⟩
  · obtain ⟨q, hexec⟩ := State.beat_heathDir hs hg hr
      (kind := fun c => c.writes b && c.reach b == 4 && c.win.haddr.toNat == hAddr 0 0 1 && b.data.getLsbD 8)
      (by simp [hg.2.1, hr, h, h8]) (by rw [h, Chip.writeError_dir hwarm haddr.2.1 hnone.2.1, hp, hbroke]; simp [hAddr, wrdOf])
      (by rw [h]; exact hnone.2.1)
    have hd : Chip.dirWritten s.clk (hAddr 0 0 1) b.data s.chip.dir = { s.chip.dir with
        view := b.data.getLsbD 0, revPend := s.chip.dir.revPend || b.data.getLsbD 8 } := by
      unfold Chip.dirWritten
      rw [if_neg (by decide), if_pos (by decide)]
    rw [h, hd] at hexec
    refine ⟨_, hexec, rfl, ?_, rfl, ?_⟩ <;> simp [Chip.frozen, h8]
  · have he : s.chip.writeError s.chip.win.haddr.toNat b.data = 0x08 := by
      rw [h, Chip.writeError_dir hwarm haddr.2.1 hnone.2.1, if_neg fun x => absurd x.2.2.1 (by decide),
        if_pos ⟨by decide, by decide, by decide, h8, hp⟩]
      rfl
    obtain ⟨q, m, hexec⟩ := State.beat_heathError hs hg hr
      (kind := fun c => c.writes b && c.reach b == 4 && c.win.haddr.toNat == hAddr 0 0 1 && b.data.getLsbD 8)
      (by simp [hg.2.1, hr, h, h8]) (by rw [he]; decide)
    exact ⟨he, _, hexec, rfl, rfl⟩
  · obtain ⟨q, hexec⟩ := State.beat_heathDir hs hg hr
      (kind := fun c => c.writes b && c.reach b == 4 && c.win.haddr.toNat == hAddr 1 0 5 && b.data.getLsbD 0)
      (by simp [hg.2.1, hr, h, h0]) (by rw [h, Chip.writeError_dir hwarm haddr.2.2 hnone.2.2, hbroke]; simp [hAddr, tabOf])
      (by rw [h]; exact hnone.2.2)
    have hd : Chip.dirWritten s.clk (hAddr 1 0 5) b.data s.chip.dir = { s.chip.dir with
        snapView := b.data.getLsbD 2, snapSec := b.data.getLsbD 1, snapPend := s.chip.dir.snapPend || b.data.getLsbD 0 } := by
      unfold Chip.dirWritten
      rw [if_neg (by decide), if_neg (by decide), if_pos (by decide)]
    rw [h, hd] at hexec
    refine ⟨_, hexec, rfl, ?_, rfl, rfl⟩
    simp [h0]

end Sys2Proof.Machine
end

section
/-! PROOFS. HDATA reads (R71, R88, R91, R101, R102): the copy that the view selects, and the bits that a read clears. -/

namespace Sys2Proof.Machine
open Sys2Proof

/-- The tag byte tells of a heath error. -/
theorem getLsbD_mkTag_hErr (eop : Bool) (vcnt : Nat) (idxErr prevErr hErr qErr : Bool) :
    (mkTag eop vcnt idxErr prevErr hErr qErr).getLsbD 2 = hErr := by
  have hv : vcnt % 4 < 4 := Nat.mod_lt _ (by decide)
  unfold mkTag byte
  generalize vcnt % 4 = v at hv
  cases eop <;> cases idxErr <;> cases prevErr <;> cases hErr <;> cases qErr <;> interval_cases v <;> rfl

namespace Chip

/-! ### A read beat at HDATA -/

/-- What an HDATA read without an error returns, and holds as given. -/
def heathReply (o : Chip) (k : Clock) : Chip :=
  o.replyRead (o.readWord k o.win.haddr.toNat) false 0 false false (.heath o.win.haddr.toNat (o.readWord k o.win.haddr.toNat))

theorem readSend_heath {o : Chip} (k : Clock) (hi : o.port.idx = 4) (he : o.readError o.win.haddr.toNat = 0)
    (htick : o.win.haddr.toNat ≠ hAddr 1 0 0) (htime : o.win.haddr.toNat ≠ hAddr 0x50 0 0) :
    o.readSend k = (o.heathReply k).meetRead k o.win.haddr.toNat := by
  unfold readSend
  dsimp only
  rw [hi, if_neg (by decide), if_pos rfl, if_pos he, if_neg htick, if_neg htime]
  rfl
theorem readSend_heathErr {o : Chip} (k : Clock) (hi : o.port.idx = 4) (he : o.readError o.win.haddr.toNat ≠ 0)
    (hecc : o.readError o.win.haddr.toNat ≠ hEcc) :
    o.readSend k = o.replyRead (word (o.readError o.win.haddr.toNat)) false 0 true false (.heathErr (o.readError o.win.haddr.toNat)) := by
  unfold readSend
  dsimp only
  rw [hi, if_neg (by decide), if_pos rfl, if_neg he, if_neg hecc]

theorem readDone_heath {o : Chip} (k : Clock) {b : Beat} {a : Nat} {v : Word} (hg : o.port.given = .heath a v) (hok : o.readOk b = true) :
    o.readDone k b = ((o.readEffect a v).bumpAddr).tookEffect := by
  unfold readDone
  rw [hg]
  exact if_pos hok
theorem readDone_heathErr {o : Chip} (k : Clock) {b : Beat} {e : Nat} (hg : o.port.given = .heathErr e) (hok : o.readOk b = true) :
    o.readDone k b = (o.onM fun m => { m with brokeHeath := false }).tookEffect := by
  unfold readDone
  rw [hg]
  exact if_pos hok

/-- A word of a bank reads as the copy that the view selects, with COND of an event source that is raised on the edge. -/
theorem readWord_bank {c : Chip} (k : Clock) {a : Nat} {ws : WSpec} (h : wordSpec a = some ws) (h2 : 2 ≤ tabOf a) (htime : tabOf a ≠ 0x50) :
    c.readWord k a = (c.bankOf (c.viewBank ws.kind)).read a |||
      (if tabOf a = 0x60 ∧ wrdOf a = 2 ∧ c.dir.snapView = true ∧ c.raisedNow k (rowOf a) = true then word (2 ^ 31) else 0#32) := by
  unfold readWord
  dsimp only
  rw [if_neg (by omega), if_neg (by omega), if_neg (fun x => htime x.1), h]
/-- A word without errored bits is read as it is. -/
theorem meetRead_sound {c : Chip} (k : Clock) {a : Nat} {ws : WSpec} (h : wordSpec a = some ws)
    (hu : ∀ u ∈ c.heath.upsets, ¬ (u.bank = c.viewBank ws.kind ∧ u.addr = a)) : c.meetRead k a = c := by
  unfold meetRead
  rw [h]
  dsimp only
  unfold meetEcc
  have hnone : c.heath.upsets.find? (fun u => u.bank == c.viewBank ws.kind && u.addr == a) = none :=
    List.find?_eq_none.mpr fun u hm hp => hu u hm (by simpa using hp)
  rw [hnone]

/-- What a completed read leaves of the status bank. -/
def clearedStatus (c : Chip) (a : Nat) (ws : WSpec) (v : Word) : Bank :=
  if ws.kind = .status ∧ c.dir.snapView then c.heath.status.write a (c.heath.status.read a &&& ~~~ (v &&& ws.rc &&& ~~~ c.eventBits a))
  else c.heath.status
theorem readEffect_eq {c : Chip} {a : Nat} {ws : WSpec} (h : wordSpec a = some ws) (v : Word) :
    c.readEffect a v = { c with heath := { c.heath with status := c.clearedStatus a ws v } } := by
  unfold readEffect clearedStatus
  rw [h]
  dsimp only
  split <;> rfl
theorem read_clearedStatus {c : Chip} (a : Nat) (ws : WSpec) (v : Word) (hwf : c.heath.status.wf = true) (x : Nat) :
    (c.clearedStatus a ws v).read x =
      if x = a ∧ ws.kind = .status ∧ c.dir.snapView = true then
        c.heath.status.read x &&& ~~~ (v &&& ws.rc &&& ~~~ c.eventBits x)
      else c.heath.status.read x := by
  unfold clearedStatus
  by_cases h : ws.kind = .status ∧ c.dir.snapView = true
  · rw [if_pos h, Bank.read_write _ _ _ _ hwf]
    by_cases hx : x = a
    · subst hx; rw [if_pos rfl, if_pos ⟨rfl, h⟩]
    · rw [if_neg hx, if_neg fun y => hx y.1]
  · rw [if_neg h, if_neg fun y => h y.2]

/-- A good HDATA read that meets no error, and no errored bits. -/
theorem beat_readHeath {c : Chip} (k : Clock) {b : Beat} {ws : WSpec} (hg : c.goodRead b) (hr : c.reach b = 4)
    (h : wordSpec c.win.haddr.toNat = some ws) (h2 : 2 ≤ tabOf c.win.haddr.toNat) (htime : tabOf c.win.haddr.toNat ≠ 0x50)
    (he : c.readError c.win.haddr.toNat = 0)
    (hu : ∀ u ∈ c.heath.upsets, ¬ (u.bank = c.viewBank ws.kind ∧ u.addr = c.win.haddr.toNat)) :
    ∃ q, c.beat k b = { c with
        port := q, win := { c.win with haddr := c.nextHaddr }
        heath := { c.heath with status := c.clearedStatus c.win.haddr.toNat ws (c.readWord k c.win.haddr.toNat) } } ∧
      q.reply.data = c.readWord k c.win.haddr.toNat ∧ q.reply.tag.getLsbD 2 = false := by
  obtain ⟨ht, hw, hok⟩ := hg
  obtain ⟨o, hto, hbeat⟩ := beat_read k ht hw fun h => absurd h (by omega)
  have hidx := hto.idx
  have hok' := hto.readOk hok
  obtain ⟨p, rfl⟩ := hto.rest
  have hword : ({ c with port := p } : Chip).readWord k c.win.haddr.toNat = c.readWord k c.win.haddr.toNat := by
    rw [readWord_bank k h h2 htime, readWord_bank k h h2 htime]; rfl
  have hsend : ({ c with port := p } : Chip).readSend k = ({ c with port := p } : Chip).heathReply k :=
    (readSend_heath (o := { c with port := p }) k (hidx.trans hr) he (fun hx => absurd (hx ▸ h2) (by decide))
      (fun hx => absurd (hx ▸ htime) (by decide))).trans (meetRead_sound (c := ({ c with port := p } : Chip).heathReply k) k h hu)
  have hdone := readDone_heath (o := ({ c with port := p } : Chip).heathReply k) k (b := b) (a := c.win.haddr.toNat)
    (v := c.readWord k c.win.haddr.toNat) (by unfold heathReply; rw [← hword]; rfl) hok'
  rw [hsend, hdone, readEffect_eq h, bumpAddr_eq] at hbeat
  obtain ⟨q, hq, -, -, hqr, -⟩ := closeBeat_eq (Chip.tookEffect _) b
  rw [hq] at hbeat
  refine ⟨q, hbeat, ?_, ?_⟩
  · rw [hqr]
    exact hword
  · rw [hqr]
    exact getLsbD_mkTag_hErr ..

/-- An HDATA read that meets a heath error returns its code. -/
theorem beat_readHeathErr {c : Chip} (k : Clock) {b : Beat} (hg : c.goodRead b) (hr : c.reach b = 4)
    (he : c.readError c.win.haddr.toNat ≠ 0) (hecc : c.readError c.win.haddr.toNat ≠ hEcc) :
    ∃ q m, c.beat k b = { c with port := q, mead := m } ∧ q.reply.data = word (c.readError c.win.haddr.toNat) ∧
      q.reply.tag.getLsbD 2 = true := by
  obtain ⟨ht, hw, hok⟩ := hg
  obtain ⟨o, hto, hbeat⟩ := beat_read k ht hw fun h => absurd h (by omega)
  have hidx := hto.idx
  have hok' := hto.readOk hok
  obtain ⟨p, rfl⟩ := hto.rest
  have hsend := readSend_heathErr (o := { c with port := p }) k (hidx.trans hr) he hecc
  have hdone := readDone_heathErr (o := ({ c with port := p } : Chip).readSend k) k (b := b) (e := c.readError c.win.haddr.toNat)
    (by rw [hsend]; rfl) (by rw [hsend]; exact hok')
  rw [hdone, hsend] at hbeat
  obtain ⟨q, hq, -, -, hqr, -⟩ := closeBeat_eq (Chip.tookEffect _) b
  rw [hq] at hbeat
  refine ⟨q, _, hbeat, ?_, ?_⟩
  · rw [hqr]; rfl
  · rw [hqr]; exact getLsbD_mkTag_hErr ..

end Chip

/-- Settles O25: the read returns what its copy holds, and clears the bits it returned but for the edge's own events. -/
theorem hdataRead : Obligations.HdataRead := by
  unfold Obligations.HdataRead
  intro b s hs
  have hexec : s.chip.writes b = false → s.chip.reach b = 4 → exec (.hdataRead b) s = .next { s with chip := s.chip.beat s.clk b } :=
    fun hw hr => congrArg Host.Outcome.next (hs.beat_eq b (by simp [hw, hr]))
  refine ⟨fun ws hg hr hws h2 htime he hu => ?_, fun hg hr he hecc => ?_, fun a v ws hpart hon hop hwr hidx hgiven hok hws hst hsnap => ?_⟩
  · obtain ⟨q, hb, hd, ht⟩ := Chip.beat_readHeath s.clk hg hr hws h2 htime he hu
    refine ⟨_, hexec hg.2.1 hr, rfl, rfl, ?_⟩
    rw [hb]
    refine ⟨hd.trans (Chip.readWord_bank _ hws h2 htime), ht, rfl, rfl, rfl, fun x => ?_, rfl⟩
    exact (Chip.read_clearedStatus _ _ _ hs.wf x).trans (by rw [← hd])
  · obtain ⟨q, m, hb, hd, ht⟩ := Chip.beat_readHeathErr s.clk hg hr he hecc
    refine ⟨_, hexec hg.2.1 hr, rfl, rfl, ?_⟩
    rw [hb]
    exact ⟨hd, ht, rfl, rfl⟩
  · have hw : s.chip.writes b = false := by simp [Chip.writes, hpart, hwr]
    have hr : s.chip.reach b = 4 := by simp [Chip.reach, hpart, hidx]
    have hbeat := Chip.beat_ends s.clk hpart hon hop hwr
    rw [Chip.readDone_heath (o := { s.chip with port := { s.chip.port with opened := false } }) s.clk hgiven hok,
      Chip.readEffect_eq hws, Chip.bumpAddr_eq] at hbeat
    obtain ⟨q, hq, hqf, -, hqr, -⟩ := Chip.closeBeat_eq (Chip.tookEffect _) b
    rw [hq] at hbeat
    refine ⟨_, hexec hw hr, rfl, rfl, ?_⟩
    rw [hbeat]
    refine ⟨hqr, hqf, fun x => ?_⟩
    refine (Chip.read_clearedStatus a ws v hs.wf x).trans ?_
    by_cases hx : x = a
    · subst hx; rw [if_pos ⟨rfl, hst, hsnap⟩, if_pos rfl]
    · rw [if_neg fun y => hx y.1, if_neg hx]

end Sys2Proof.Machine
end

section
/-! PROOFS. QDATA (R42, R51, R54, R83, R260, R272): words to and from the selected queue, at once or after a wait. -/

namespace Sys2Proof.Machine
open Sys2Proof

namespace Chip

/-! ### A word to the host -/

/-- The selected upward queue has a good word for the host. -/
structure HasWord (c : Chip) (k : Clock) (w : QWord) (ws : List QWord) (r : List (List QWord)) : Prop where
  taken : c.qdataRefused false = false
  up : c.win.qid < 8
  fresh : (c.q c.win.qid).replay = false
  ready : (c.q c.win.qid).ready k = true
  items : (c.q c.win.qid).items = (w :: ws) :: r
  good : w.err = 0

section
variable {c : Chip} {k : Clock} {w : QWord} {ws : List QWord} {r : List (List QWord)} (h : HasWord c k w ws r)
include h

theorem HasWord.head : c.qHead k c.win.qid = some w := by
  unfold qHead
  rw [if_pos h.ready, h.items]
  rfl
theorem HasWord.qdataReady : c.qdataReady k = true := by
  unfold Chip.qdataReady
  rw [h.head]
  simp
theorem HasWord.send : c.qdataSend k = c.replyRead w.data w.eop w.vcnt false false (.word w false) := by
  unfold qdataSend
  dsimp only
  rw [if_neg (by simp [h.taken]), h.fresh, h.head]
  cases (c.q c.win.qid).copy <;> simp [h.good]
/-- The word is consumed: it leaves its queue and is the replay copy. -/
theorem HasWord.done : c.qdataDone k (.word w false) =
    ((c.qPop c.win.qid w false).onQ c.win.qid fun x => { x with replay := false }).tookEffect := by
  unfold qdataDone
  dsimp only
  rw [if_pos h.head, h.good]
  rfl

end

theorem q_qPop {c : Chip} {i : Nat} (hi : i < 12) {w : QWord} {ws : List QWord} {r : List (List QWord)} (err : Bool)
    (h : (c.q i).items = (w :: ws) :: r) :
    ((c.qPop i w err).q i).copy = some w ∧ ((c.qPop i w err).q i).items = if ws = [] then r else ws :: r := by
  unfold qPop
  rw [q_of_que (d := c.onQ i _) (qSync_que _ _), q_onQ_same _ _ _ hi, h]
  refine ⟨rfl, ?_⟩
  cases ws <;> rfl

/-- The tag byte tells of the end of an item. -/
theorem getLsbD_mkTag_eop (eop : Bool) (vcnt : Nat) (idxErr prevErr hErr qErr : Bool) :
    (mkTag eop vcnt idxErr prevErr hErr qErr).getLsbD 7 = eop := by
  have hv : vcnt % 4 < 4 := Nat.mod_lt _ (by decide)
  unfold mkTag byte
  generalize vcnt % 4 = v at hv
  cases eop <;> cases idxErr <;> cases prevErr <;> cases hErr <;> cases qErr <;> interval_cases v <;> rfl

/-- What a QDATA read of a good word leaves. -/
structure WordRead (c : Chip) (w : QWord) (ws : List QWord) (r : List (List QWord)) (d : Chip) : Prop where
  copy : (d.q c.win.qid).copy = some w
  items : (d.q c.win.qid).items = if ws = [] then r else ws :: r
  data : d.port.reply.data = w.data
  eop : d.port.reply.tag.getLsbD 7 = w.eop
  frames : d.port.frames = satAdd 32 c.port.frames 1
  stall : c.port.stall = .none → d.port.stall = .none
  staged : d.heath.staged = c.heath.staged
  live : d.heath.live = c.heath.live

theorem WordRead.close {c d : Chip} {w : QWord} {ws : List QWord} {r : List (List QWord)} (h : WordRead c w ws r d) (b : Beat) :
    WordRead c w ws r (d.closeBeat b) := by
  obtain ⟨q, hq, hf, -, hr, -, hs, -, -⟩ := closeBeat_eq d b
  rw [hq]
  exact { h with data := by rw [← h.data]; exact congrArg Reply.data hr, eop := by rw [← h.eop]; exact congrArg (fun y => y.tag.getLsbD 7) hr
                 frames := hf.trans h.frames, stall := fun hn => by rw [if_pos (h.stall hn)] at hs; exact hs }

/-- A QDATA read beat of a good word returns it and consumes it. -/
theorem HasWord.read {o : Chip} {k : Clock} {b : Beat} {w : QWord} {ws : List QWord} {r : List (List QWord)} (h : HasWord o k w ws r)
    (hi : o.port.idx = 11) (hok : o.readOk b = true) : WordRead o w ws r ((o.readSend k).readDone k b) := by
  have hsend : o.readSend k = o.replyRead w.data w.eop w.vcnt false false (.word w false) := by
    unfold readSend
    dsimp only
    rw [hi, if_neg (by decide), if_neg (by decide), if_pos rfl, h.send]
  rw [hsend]
  generalize hx : o.replyRead w.data w.eop w.vcnt false false (.word w false) = x
  have hword : HasWord x k w ws r := by
    subst hx
    exact ⟨h.taken, h.up, h.fresh, h.ready, h.items, h.good⟩
  have hdone : x.readDone k b = ((x.qPop x.win.qid w false).onQ x.win.qid fun y => { y with replay := false }).tookEffect := by
    have hgiven : x.port.given = .word w false := by subst hx; rfl
    have hok' : x.readOk b = true := by subst hx; exact hok
    unfold readDone
    rw [hgiven]
    dsimp only
    rw [if_pos hok', hword.done]
  have hq := q_qPop (c := x) (Nat.lt_trans hword.up (by decide)) false hword.items
  have hkeep : Keeps x (x.qPop x.win.qid w false) := .qPop _ _ _ (.refl x)
  rw [hdone]
  generalize x.qPop x.win.qid w false = y at hq hkeep
  have hqid : x.win.qid = o.win.qid := by subst hx; rfl
  have hlt : o.win.qid < 12 := Nat.lt_trans h.up (by decide)
  rw [hqid] at hq ⊢
  have hq2 := y.q_onQ_same o.win.qid (fun z => { z with replay := false }) hlt
  refine ⟨?_, ?_, ?_, ?_, ?_, ?_, ?_, ?_⟩
  · exact (congrArg Queue.copy hq2).trans hq.1
  · exact (congrArg Queue.items hq2).trans hq.2
  · show y.port.reply.data = _
    rw [hkeep.port, ← hx]; rfl
  · show y.port.reply.tag.getLsbD 7 = _
    rw [hkeep.port, ← hx]; exact getLsbD_mkTag_eop ..
  · show satAdd 32 y.port.frames 1 = _
    rw [hkeep.port, ← hx]; rfl
  · intro hn
    show y.port.stall = _
    rw [hkeep.port, ← hx]; exact hn
  · exact hkeep.staged.trans (by rw [← hx]; rfl)
  · exact hkeep.live.trans (by rw [← hx]; rfl)

/-! ### A word from the host -/

/-- The selected downward queue takes the beat's word. -/
structure Takes (c : Chip) (b : Beat) : Prop where
  taken : c.qdataRefused true = false
  inTable : c.win.qid < 12
  room : 0 < c.qFree c.win.qid
  form : tagVcnt b.tag = 0 ∨ tagEop b.tag = true

/-- The word of a QDATA write. -/
def hostWord (b : Beat) : QWord := ⟨b.data, tagEop b.tag, tagVcnt b.tag, 0⟩

/-- What a QDATA write of a word that the queue takes leaves. -/
structure WordWritten (c : Chip) (b : Beat) (d : Chip) : Prop where
  item : tagEop b.tag = true → (d.q c.win.qid).hostOpen = [] ∧
    (d.q c.win.qid).items = (c.q c.win.qid).items ++ [(c.q c.win.qid).hostOpen ++ [hostWord b]]
  part : tagEop b.tag = false → (d.q c.win.qid).items = (c.q c.win.qid).items ∧
    (d.q c.win.qid).hostOpen = (c.q c.win.qid).hostOpen ++ [hostWord b]
  stall : c.port.stall = .none → d.port.stall = .none
  staged : d.heath.staged = c.heath.staged
  live : d.heath.live = c.heath.live

theorem WordWritten.close {c d : Chip} {b : Beat} (h : WordWritten c b d) : WordWritten c b (d.closeBeat b) := by
  obtain ⟨q, hq, -, -, -, -, hs, -, -⟩ := closeBeat_eq d b
  rw [hq]
  exact { h with stall := fun hn => by rw [if_pos (h.stall hn)] at hs; exact hs }

theorem Takes.qdataRoom {c : Chip} {b : Beat} (h : Takes c b) : c.qdataRoom = true := by
  unfold Chip.qdataRoom
  simp [h.room]

/-- The queue with the host's word. -/
def withHostWord (k : Clock) (w : QWord) (x : Queue) : Queue :=
  if w.eop then { x.append k (x.hostOpen ++ [w]) with hostOpen := [] } else { x with hostOpen := x.hostOpen ++ [w] }

theorem Takes.write {o : Chip} (k : Clock) {b : Beat} (h : Takes o b) (hi : o.port.idx = 11) (hok : o.writeOk b = true) :
    WordWritten o b (o.writeBeat k b) := by
  have hwrite : o.writeBeat k b = (o.replyWrite true).qdataTake k b := by
    unfold writeBeat
    dsimp only
    rw [hi, if_neg (by decide), hok, if_neg (by decide), if_neg (by decide), if_pos rfl]
  have hx : Takes (o.replyWrite true) b := ⟨h.taken, h.inTable, h.room, h.form⟩
  have hfree : (o.replyWrite true).qFree (o.replyWrite true).win.qid ≠ 0 := Nat.ne_of_gt hx.room
  have hform : ¬ (tagVcnt b.tag ≠ 0 ∧ tagEop b.tag = false) := by
    rintro ⟨h0, he⟩
    rcases hx.form with h | h
    · exact h0 h
    · rw [h] at he; exact absurd he (by decide)
  have htake : (o.replyWrite true).qdataTake k b =
      (((o.replyWrite true).onQ o.win.qid (withHostWord k (hostWord b))).qSync o.win.qid).tookEffect := by
    unfold qdataTake
    dsimp only
    rw [if_neg (by simp [hx.taken]), if_neg (by rintro (x | x); exacts [hform x, hfree x])]
    rfl
  rw [hwrite, htake]
  generalize hy : o.replyWrite true = y
  have hyq : y.q o.win.qid = o.q o.win.qid := by rw [← hy]; rfl
  have hq : ((y.onQ o.win.qid (withHostWord k (hostWord b))).qSync o.win.qid).q o.win.qid = withHostWord k (hostWord b) (o.q o.win.qid) := by
    rw [q_of_que (d := y.onQ o.win.qid _) (qSync_que _ _), q_onQ_same _ _ _ h.inTable, hyq]
  have hkeep : Keeps y ((y.onQ o.win.qid (withHostWord k (hostWord b))).qSync o.win.qid) := .qSync _ (.onQ _ _ (.refl y))
  generalize (y.onQ o.win.qid (withHostWord k (hostWord b))).qSync o.win.qid = z at hq hkeep
  refine ⟨fun he => ?_, fun he => ?_, fun hn => ?_, ?_, ?_⟩
  · have hz : z.q o.win.qid = { (o.q o.win.qid).append k ((o.q o.win.qid).hostOpen ++ [hostWord b]) with hostOpen := [] } := hq.trans (if_pos he)
    exact ⟨congrArg Queue.hostOpen hz, congrArg Queue.items hz⟩
  · have hz : z.q o.win.qid = { o.q o.win.qid with hostOpen := (o.q o.win.qid).hostOpen ++ [hostWord b] } := 
      hq.trans (if_neg (by rw [hostWord, he]; exact Bool.false_ne_true))
    have hitems := congrArg Queue.items hz
    exact ⟨hitems, congrArg Queue.hostOpen hz⟩
  · show z.port.stall = _
    rw [hkeep.port, ← hy]; exact hn
  · exact hkeep.staged.trans (by rw [← hy]; rfl)
  · exact hkeep.live.trans (by rw [← hy]; rfl)

/-! ### A beat that waited goes on -/

/-- The part as the beat that waited goes on. -/
def unstalled (c : Chip) : Chip := c.onPort fun p => { p with stall := .none, held := none }
theorem resume_eq {c : Chip} (k : Clock) {b : Beat} (h : c.port.held = some b) : c.resume k = c.unstalled.runBeat k b := by
  unfold resume
  rw [h]
  rfl
theorem runBeat_read {o : Chip} (k : Clock) {b : Beat} (hw : b.part = .whole) (hr : beatWr o.port.cmd = false) :
    o.runBeat k b = ((o.readSend k).readDone k b).closeBeat b := by simp [runBeat, hr, hw]
theorem runBeat_write {o : Chip} (k : Clock) {b : Beat} (hw : b.part = .whole) (hr : beatWr o.port.cmd = true) :
    o.runBeat k b = (o.writeBeat k b).closeBeat b := by simp [runBeat, hr, hw]

end Chip

/-- Settles O31: each word is taken from, or added to, the selected queue, whether its beat came at once or waited. -/
theorem queueWords : Obligations.QueueWords := by
  unfold Obligations.QueueWords
  refine ⟨fun b s w ws r hs hg hr htaken hup hfresh hready hitems hgood => ?_, fun b s hs hg hr htaken hin hroom hform => ?_,
    fun b s w ws r hrun hst hheld hpart hidx hwr hok htaken hup hfresh hready hitems hgood => ?_,
    fun b s hrun hst hheld hpart hidx hwr hok htaken hin hroom heop => ?_⟩
  · have hword : Chip.HasWord s.chip s.clk w ws r := ⟨htaken, hup, hfresh, hready, hitems, hgood⟩
    obtain ⟨ht, hw, hok⟩ := hg
    obtain ⟨o, hto, hbeat⟩ := Chip.beat_read s.clk ht hw fun _ => hword.qdataReady
    have hidx := hto.idx
    have hok' := hto.readOk hok
    have hfr := hto.frames
    obtain ⟨p, rfl⟩ := hto.rest
    have hread : Chip.WordRead { s.chip with port := p } w ws r _ :=
      (Chip.HasWord.read (o := { s.chip with port := p }) (k := s.clk) (b := b) ⟨htaken, hup, hfresh, hready, hitems, hgood⟩ (hidx.trans hr) hok').close b
    rw [← hbeat] at hread
    refine ⟨_, congrArg Host.Outcome.next (hs.beat_eq b (by simp [hw, hr])), rfl, rfl, hread.data, hread.eop, hread.copy, hread.items, ?_,
      hread.staged, hread.live⟩
    exact hread.frames.trans (congrArg (satAdd 32 · 1) hfr)
  · obtain ⟨ht, hw, hcrc⟩ := hg
    have htakes : Chip.Takes s.chip b := ⟨htaken, hin, hroom, hform⟩
    obtain ⟨o, hto, hbeat⟩ := Chip.beat_write s.clk ht hw (by omega) fun _ => htakes.qdataRoom
    have hidx := hto.idx
    have hok' := hto.writeOk hcrc
    obtain ⟨p, rfl⟩ := hto.rest
    have hwritten : Chip.WordWritten { s.chip with port := p } b _ :=
      (Chip.Takes.write (o := { s.chip with port := p }) s.clk (b := b) ⟨htaken, hin, hroom, hform⟩ (hidx.trans hr) hok').close
    rw [← hbeat] at hwritten
    refine ⟨_, congrArg Host.Outcome.next (hs.beat_eq b (by simp [hw, hr])), rfl, rfl, fun he => ?_, fun he => ?_, hwritten.staged, hwritten.live⟩
    · have hw := hwritten.item he
      rw [Chip.hostWord, he] at hw
      exact hw
    · have hw := hwritten.part he
      rw [Chip.hostWord, he] at hw
      exact hw
  · have hword : Chip.HasWord s.chip s.clk w ws r := ⟨htaken, hup, hfresh, hready, hitems, hgood⟩
    have hread : Chip.WordRead s.chip.unstalled w ws r _ :=
      (Chip.HasWord.read (o := s.chip.unstalled) (k := s.clk) (b := b) ⟨htaken, hup, hfresh, hready, hitems, hgood⟩ hidx hok).close b
    rw [← Chip.runBeat_read (o := s.chip.unstalled) s.clk hpart hwr, ← Chip.resume_eq s.clk hheld] at hread
    have hexec : exec .qdataStallEnd s = .next { s with chip := s.chip.resume s.clk } := by
      refine congrArg Host.Outcome.next ((State.act_running s _ hrun).trans ?_)
      rw [if_pos (.inl ⟨hst, hword.qdataReady⟩)]
    exact ⟨_, hexec, rfl, rfl, hread.stall rfl, hread.data, hread.copy⟩
  · have htakes : Chip.Takes s.chip b := ⟨htaken, hin, hroom, .inr heop⟩
    have hwritten : Chip.WordWritten s.chip.unstalled b _ :=
      (Chip.Takes.write (o := s.chip.unstalled) s.clk (b := b) ⟨htaken, hin, hroom, .inr heop⟩ hidx hok).close
    rw [← Chip.runBeat_write (o := s.chip.unstalled) s.clk hpart hwr, ← Chip.resume_eq s.clk hheld] at hwritten
    have hexec : exec .stretchRelease s = .next { s with chip := s.chip.resume s.clk } := by
      refine congrArg Host.Outcome.next ((State.act_running s _ hrun).trans ?_)
      rw [if_pos ⟨hst, htakes.qdataRoom⟩]
    have hw := (hwritten.item heop).2
    rw [Chip.hostWord, heop] at hw
    exact ⟨_, hexec, rfl, rfl, hwritten.stall rfl, hw⟩

end Sys2Proof.Machine
end

section
/-! PROOFS. What a change of the shade leaves of the fault collector (`Chip.Dims`): its state, and every status field of its tables. -/

namespace Sys2Proof.Machine
open Sys2Proof
set_option linter.unusedTactic false
set_option linter.unreachableTactic false

/-- A field outside the collector's own tables. -/
def Fld.outside (f : Fld) : Bool := f.fits && !collectorTab f.tab

namespace Chip

/-- What a change of the shade leaves of the fault collector. -/
structure Dims (z c : Chip) : Prop where
  col : c.col = z.col
  wf : z.heath.status.wf = true → c.heath.status.wf = true
  stat : z.heath.status.wf = true → ∀ (f : Fld) (r : Nat), f.fits = true → collectorTab f.tab = true → r < 4096 → c.st f r = z.st f r

namespace Dims

theorem refl (z : Chip) : Dims z z := ⟨rfl, id, fun _ _ _ _ _ _ => rfl⟩
theorem trans {a b c : Chip} (h : Dims a b) (g : Dims b c) : Dims a c :=
  ⟨g.col.trans h.col, g.wf ∘ h.wf, fun hw f r hf ht hr => (g.stat (h.wf hw) f r hf ht hr).trans (h.stat hw f r hf ht hr)⟩
theorem ite {z a b : Chip} {p : Prop} [Decidable p] (ha : Dims z a) (hb : Dims z b) : Dims z (if p then a else b) := by
  split <;> assumption
theorem iteElse {z a c : Chip} {p : Prop} [Decidable p] (h : Dims z c) (ha : Dims z c → Dims z a) :
    Dims z (if p then a else c) := ite (ha h) h
theorem overN {z c : Chip} (n : Nat) {f : Nat → Chip → Chip} (h : Dims z c)
    (hf : ∀ i, i < n → ∀ a, Dims z a → Dims z (f i a)) : Dims z (overN n f c) := by
  unfold Machine.overN
  have hl : ∀ i ∈ List.range n, i < n := fun i hi => List.mem_range.mp hi
  generalize List.range n = l at hl
  induction l generalizing c with
  | nil => exact h
  | cons x r ih => exact ih (hf x (hl x (List.mem_cons_self ..)) _ h) fun i hi => hl i (List.mem_cons_of_mem _ hi)
theorem setSt {z c : Chip} (f : Fld) (r v : Nat) (hf : f.outside = true) (hr : r < 4096) (h : Dims z c) : Dims z (c.setSt f r v) := by
  simp only [Fld.outside, Bool.and_eq_true, Bool.not_eq_true'] at hf
  refine ⟨(setSt_col ..).trans h.col, fun hw => setSt_wf _ _ _ _ (h.wf hw), fun hw g q hg ht hq => ?_⟩
  refine (st_setSt_other v (h.wf hw) hg hf.1 hq hr (.inl fun e => ?_)).trans (h.stat hw g q hg ht hq)
  rw [e, hf.2] at ht
  contradiction
theorem addSt {z c : Chip} (f : Fld) (r v : Nat) (hf : f.outside = true) (hr : r < 4096) (h : Dims z c) : Dims z (c.addSt f r v) :=
  setSt f r _ hf hr h
theorem cause {z c : Chip} (k : Clock) (g : CauseReg) (r b : Nat) (hf : g.cause.outside = true) (hr : r < 4096) (h : Dims z c) :
    Dims z (c.cause k g r b) := by
  have hset := setSt g.cause r (c.st g.cause r ||| b) hf hr h
  refine ⟨(cause_col ..).trans h.col, fun hw => cause_wf _ _ _ _ _ (h.wf hw), fun hw f q hff ht hq => ?_⟩
  exact (st_cause_orSt ..).trans (hset.stat hw f q hff ht hq)
theorem onQ {z c : Chip} (i : Nat) (f : Queue → Queue) (h : Dims z c) : Dims z (c.onQ i f) :=
  ⟨h.col, h.wf, h.stat⟩
theorem onU {z c : Chip} (i : Nat) (f : Uplink → Uplink) (h : Dims z c) : Dims z (c.onU i f) :=
  ⟨h.col, h.wf, h.stat⟩
theorem onTwin {z c : Chip} (f : Twin → Twin) (h : Dims z c) : Dims z (c.onTwin f) :=
  ⟨h.col, h.wf, h.stat⟩
theorem onPow {z c : Chip} (f : Power → Power) (h : Dims z c) : Dims z (c.onPow f) :=
  ⟨h.col, h.wf, h.stat⟩
theorem onSide {z c : Chip} (p : Nat) (rx : Bool) (f : ASide → ASide) (h : Dims z c) : Dims z (c.onSide p rx f) :=
  ⟨h.col, h.wf, h.stat⟩
theorem qReg_field (i : Nat) : (qReg i).cause.outside = true := by unfold qReg; split <;> rfl
theorem setBlk {z c : Chip} (b : Nat) (s : PwrState) (hz : Dims z c) : Dims z (c.setBlk b s) := by
  unfold Chip.setBlk
  repeat' (first | with_reducible assumption | omega | with_reducible exact qReg_field _ | with_reducible rfl | exact rfl | with_reducible exact Dims.refl _ | with_reducible apply Dims.onPow | (intro; intros))
theorem beginWake {z c : Chip} (b e : Nat) (hz : Dims z c) : Dims z (c.beginWake b e) := by
  unfold Chip.beginWake
  repeat' (first | with_reducible assumption | omega | with_reducible exact qReg_field _ | with_reducible rfl | exact rfl | with_reducible exact Dims.refl _ | with_reducible apply Dims.onPow | with_reducible apply Dims.iteElse | (intro; intros))
theorem qRewound {z c : Chip} (k : Clock) (i : Nat) (hi : i < 4096) (hz : Dims z c) : Dims z (c.qRewound k i) := by
  unfold Chip.qRewound
  repeat' (first | with_reducible assumption | omega | with_reducible exact qReg_field _ | with_reducible rfl | exact rfl | with_reducible exact Dims.refl _ | with_reducible apply Dims.addSt | with_reducible apply Dims.cause | (intro; intros))
theorem qReturn {z c : Chip} (k : Clock) (i : Nat) (hi : i < 4096) (hz : Dims z c) : Dims z (c.qReturn k i) := by
  unfold Chip.qReturn
  repeat' (first | with_reducible assumption | omega | with_reducible exact qReg_field _ | with_reducible rfl | exact rfl | with_reducible exact Dims.refl _ | with_reducible apply Dims.onQ | with_reducible apply Dims.qRewound | with_reducible apply Dims.iteElse | (intro; intros))
theorem syncLasers {z c : Chip} (hz : Dims z c) : Dims z (c.syncLasers) := by
  unfold Chip.syncLasers
  repeat' (first | with_reducible assumption | omega | with_reducible exact qReg_field _ | with_reducible rfl | exact rfl | with_reducible exact Dims.refl _ | with_reducible apply Dims.onU | with_reducible apply Dims.overN | with_reducible apply Dims.iteElse | (intro; intros))
theorem syncClaim {z c : Chip} (k : Clock) (hz : Dims z c) : Dims z (c.syncClaim k) := by
  unfold Chip.syncClaim
  repeat' (first | with_reducible assumption | omega | with_reducible exact qReg_field _ | with_reducible rfl | exact rfl | with_reducible exact Dims.refl _ | with_reducible apply Dims.onTwin | with_reducible apply Dims.setSt | (intro; intros))
theorem disarm {z c : Chip} (k : Clock) (hz : Dims z c) : Dims z (c.disarm k) := by
  unfold Chip.disarm
  repeat' (first | with_reducible assumption | omega | with_reducible exact qReg_field _ | with_reducible rfl | exact rfl | with_reducible exact Dims.refl _ | with_reducible apply Dims.setSt | with_reducible apply Dims.cause | with_reducible apply Dims.iteElse | (intro; intros))
theorem syncSide {z c : Chip} (p : Nat) (rx : Bool) (hp : p < 4096) (hz : Dims z c) : Dims z (c.syncSide p rx) := by
  unfold Chip.syncSide
  repeat' (first | with_reducible assumption | omega | with_reducible exact qReg_field _ | with_reducible rfl | exact rfl | with_reducible exact Dims.refl _ | with_reducible apply Dims.setSt | with_reducible apply Dims.iteElse | (intro; intros))
theorem setRun {z c : Chip} (k : Clock) (p : Nat) (rx b : Bool) (hp : p < 4096) (hz : Dims z c) : Dims z (c.setRun k p rx b) := by
  unfold Chip.setRun
  repeat' (first | with_reducible assumption | omega | with_reducible exact qReg_field _ | with_reducible rfl | exact rfl | with_reducible exact Dims.refl _ | with_reducible apply Dims.onSide | with_reducible apply Dims.syncSide | with_reducible apply Dims.cause | with_reducible apply Dims.iteElse | (intro; intros))
theorem stopSide {z c : Chip} (k : Clock) (p : Nat) (rx : Bool) (hp : p < 4096) (hz : Dims z c) : Dims z (c.stopSide k p rx) := by
  unfold Chip.stopSide
  repeat' (first | with_reducible assumption | omega | with_reducible exact qReg_field _ | with_reducible rfl | exact rfl | with_reducible exact Dims.refl _ | with_reducible apply Dims.onSide | with_reducible apply Dims.addSt | with_reducible apply Dims.setRun | (intro; intros))
theorem shadeBlocks {z c : Chip} (hz : Dims z c) : Dims z (c.shadeBlocks) := by
  unfold Chip.shadeBlocks
  repeat' (first | with_reducible assumption | omega | with_reducible exact qReg_field _ | with_reducible rfl | exact rfl | with_reducible exact Dims.refl _ | with_reducible apply Dims.setBlk | with_reducible apply Dims.overN | with_reducible apply Dims.iteElse | (intro; intros))
theorem wakeUplinks {z c : Chip} (k : Clock) (hz : Dims z c) : Dims z (c.wakeUplinks k) := by
  unfold Chip.wakeUplinks
  repeat' (first | with_reducible assumption | omega | with_reducible exact qReg_field _ | with_reducible rfl | exact rfl | with_reducible exact Dims.refl _ | with_reducible apply Dims.beginWake | with_reducible apply Dims.overN | with_reducible apply Dims.iteElse | (intro; intros))
theorem shadeFalls {z c : Chip} (k : Clock) (hz : Dims z c) : Dims z (c.shadeFalls k) := by
  unfold Chip.shadeFalls
  repeat' (first | with_reducible assumption | omega | with_reducible exact qReg_field _ | with_reducible rfl | exact rfl | with_reducible exact Dims.refl _ | with_reducible apply Dims.syncLasers | with_reducible apply Dims.shadeBlocks | with_reducible apply Dims.stopSide | with_reducible apply Dims.qReturn | with_reducible apply Dims.onU | with_reducible apply Dims.syncClaim | with_reducible apply Dims.overN | with_reducible apply Dims.iteElse | (intro; intros))
theorem shadeLifts {z c : Chip} (k : Clock) (hz : Dims z c) : Dims z (c.shadeLifts k) := by
  unfold Chip.shadeLifts
  repeat' (first | with_reducible assumption | omega | with_reducible exact qReg_field _ | with_reducible rfl | exact rfl | with_reducible exact Dims.refl _ | with_reducible apply Dims.syncLasers | with_reducible apply Dims.wakeUplinks | with_reducible apply Dims.syncClaim | (intro; intros))
theorem reshade {z c : Chip} (k : Clock) (was : Bool) (hz : Dims z c) : Dims z (c.reshade k was) := by
  unfold Chip.reshade
  repeat' (first | with_reducible assumption | omega | with_reducible exact qReg_field _ | with_reducible rfl | exact rfl | with_reducible exact Dims.refl _ | with_reducible apply Dims.syncClaim | with_reducible apply Dims.shadeFalls | with_reducible apply Dims.shadeLifts | with_reducible apply Dims.iteElse | (intro; intros))

end Dims
end Chip
end Sys2Proof.Machine
end

section
/-! PROOFS. What the operations of the fault collector leave: status fields beside those that they write, and its own state. -/

namespace Sys2Proof.Machine
open Sys2Proof
set_option linter.unusedTactic false
set_option linter.unreachableTactic false

namespace Chip

/-! ### A status field beside the one written, in any row -/

theorem st_setSt_clear {c : Chip} {f g : Fld} {r q : Nat} (v : Nat) (hwf : c.heath.status.wf = true) (hf : f.fits = true)
    (hg : g.fits = true) (h : f.apart g = true ∨ f.addr q ≠ g.addr r) : (c.setSt g r v).st f q = c.st f q := by
  rcases h with h | h
  · rcases Fld.apart_iff.mp h with hw | hb
    · exact st_setSt_word c g f r q v (Fld.addr_ne_of_wrd hf hg hw)
    · exact st_setSt_beside c g f r q v hwf (Fld.fits_iff.mp hf).1 hb
  · exact st_setSt_word c g f r q v h

/-- A write of `g` at row `r` leaves every field that `P` names. -/
def Clears (P : Fld → Nat → Prop) (g : Fld) (r : Nat) : Prop :=
  g.fits = true ∧ ∀ f q, P f q → f.fits = true ∧ (f.apart g = true ∨ f.addr q ≠ g.addr r)

/-- The fields of the group table that events, clears and recoveries write, but for its causes. -/
def groupFields : List Fld :=
  [FGRP.NEXT, FGRP.LATVALID, FGRP.LATSRC, FGRP.OVF, FGRP.OVFCNT, FGRP.QUIETCNT, FGRP.FLTMAP, FGRP.GEVENTS, FGRP.CSHADE]

/-- The fields that `P` names lie in the collector's tables, beside the history and what events write in the group table. -/
structure Spared (P : Fld → Nat → Prop) : Prop where
  tab : ∀ f q, P f q → f.fits = true ∧ collectorTab f.tab = true ∧ q < 4096
  hist : ∀ f q, P f q → f.addr q < hAddr 0x62 0 0
  group : ∀ g ∈ groupFields, ∀ r, Clears P g r
  causes : ∀ r, Clears P FGRP.CAUSE r

/-- What stays: the fields that `P` names, the part of the collector's state that `m` shows, and every cause bit of a group. -/
structure Stays {β : Type} (P : Fld → Nat → Prop) (m : Collector → β) (z c : Chip) : Prop where
  col : m c.col = m z.col
  wf : z.heath.status.wf = true → c.heath.status.wf = true
  stat : z.heath.status.wf = true → ∀ f q, P f q → c.st f q = z.st f q
  causes : z.heath.status.wf = true → ∀ q < 4096, ∀ n, (z.st FGRP.CAUSE q).testBit n = true → (c.st FGRP.CAUSE q).testBit n = true

theorem groupFields_fit : ∀ g ∈ groupFields, g.fits = true ∧ FGRP.CAUSE.apart g = true := by decide

namespace Stays
variable {β : Type} {P : Fld → Nat → Prop} {m : Collector → β} {z c : Chip}

theorem refl (z : Chip) : Stays P m z z := ⟨rfl, id, fun _ _ _ _ => rfl, fun _ _ _ _ h => h⟩
theorem trans {d : Chip} (h : Stays P m z c) (g : Stays P m c d) : Stays P m z d :=
  ⟨g.col.trans h.col, g.wf ∘ h.wf, fun hw f q hp => (g.stat (h.wf hw) f q hp).trans (h.stat hw f q hp),
    fun hw q hq n hn => g.causes (h.wf hw) q hq n (h.causes hw q hq n hn)⟩
theorem ite {a b : Chip} {p : Prop} [Decidable p] (ha : Stays P m z a) (hb : Stays P m z b) : Stays P m z (if p then a else b) := by
  split <;> assumption
theorem iteElse {a : Chip} {p : Prop} [Decidable p] (h : Stays P m z c) (ha : Stays P m z c → Stays P m z a) :
    Stays P m z (if p then a else c) := ite (ha h) h
theorem foldl {α : Type} (l : List α) {f : Chip → α → Chip} (h : Stays P m z c)
    (hf : ∀ a, ∀ x ∈ l, Stays P m z a → Stays P m z (f a x)) : Stays P m z (l.foldl f c) := by
  induction l generalizing c with
  | nil => exact h
  | cons x r ih => exact ih (hf _ _ (List.mem_cons_self ..) h) fun a y hy => hf a y (List.mem_cons_of_mem _ hy)
theorem overN (n : Nat) {f : Nat → Chip → Chip} (h : Stays P m z c) (hf : ∀ i, i < n → ∀ a, Stays P m z a → Stays P m z (f i a)) :
    Stays P m z (overN n f c) := foldl _ h fun a x hx ha => hf x (List.mem_range.mp hx) a ha

theorem setSt {g : Fld} {r : Nat} (v : Nat) (hg : Clears P g r) (hcause : FGRP.CAUSE.apart g = true) (h : Stays P m z c) :
    Stays P m z (c.setSt g r v) := by
  refine ⟨(congrArg m (setSt_col ..)).trans h.col, fun hw => setSt_wf _ _ _ _ (h.wf hw), fun hw f q hp => ?_, fun hw q hq n hn => ?_⟩
  · exact (st_setSt_clear v (h.wf hw) (hg.2 f q hp).1 hg.1 (hg.2 f q hp).2).trans (h.stat hw f q hp)
  · rw [st_setSt_clear v (h.wf hw) (by decide) hg.1 (.inl hcause)]
    exact h.causes hw q hq n hn
theorem onCol (f : Collector → Collector) (hf : ∀ x, m (f x) = m x) (h : Stays P m z c) : Stays P m z (c.onCol f) :=
  ⟨(hf _).trans h.col, h.wf, h.stat, h.causes⟩
theorem onTwin (f : Twin → Twin) (h : Stays P m z c) : Stays P m z (c.onTwin f) := ⟨h.col, h.wf, h.stat, h.causes⟩

variable (hP : Spared P)
include hP

theorem dims {d : Chip} (h : Stays P m z c) (g : Dims c d) : Stays P m z d :=
  ⟨(congrArg m g.col).trans h.col, g.wf ∘ h.wf, fun hw f q hp => by
      obtain ⟨hf, ht, hq⟩ := hP.tab f q hp
      exact (g.stat (h.wf hw) f q hf ht hq).trans (h.stat hw f q hp),
    fun hw q hq n hn => by
      rw [g.stat (h.wf hw) FGRP.CAUSE q (by decide) (by decide) hq]
      exact h.causes hw q hq n hn⟩
theorem setGroup {g : Fld} (hg : g ∈ groupFields) (r v : Nat) (h : Stays P m z c) : Stays P m z (c.setSt g r v) :=
  h.setSt v (hP.group g hg r) (groupFields_fit g hg).2
theorem satGroup {g : Fld} (hg : g ∈ groupFields) (r v : Nat) (h : Stays P m z c) : Stays P m z (c.satSt g r v) := h.setGroup hP hg r _
theorem addGroup {g : Fld} (hg : g ∈ groupFields) (r v : Nat) (h : Stays P m z c) : Stays P m z (c.addSt g r v) := h.setGroup hP hg r _
/-- A cause of a group leaves the fields, and only adds bits. -/
theorem cause (k : Clock) (r bits : Nat) (h : Stays P m z c) : Stays P m z (c.cause k .fgrp r bits) := by
  have hg := hP.causes r
  refine ⟨(congrArg m (cause_col ..)).trans h.col, fun hw => cause_wf _ _ _ _ _ (h.wf hw), fun hw f q hp => ?_, fun hw q hq n hn => ?_⟩
  · exact (st_cause_orSt ..).trans ((st_setSt_clear _ (h.wf hw) (hg.2 f q hp).1 hg.1 (hg.2 f q hp).2).trans (h.stat hw f q hp))
  · have hn' := h.causes hw q hq n hn
    rw [st_cause_orSt]
    by_cases hrow : FGRP.CAUSE.addr q = FGRP.CAUSE.addr r
    · have hqr : q = r := by simp only [Fld.addr, hAddr] at hrow; omega
      subst hqr
      show ((c.setSt FGRP.CAUSE q (c.st FGRP.CAUSE q ||| bits)).st FGRP.CAUSE q).testBit n = true
      rw [st_setSt_same _ _ _ _ (h.wf hw) (by decide), Nat.testBit_mod_two_pow, Nat.testBit_or, hn', Bool.true_or, Bool.and_true,
        decide_eq_true_eq]
      by_contra hlt
      have hbound : c.st FGRP.CAUSE q < 2 ^ 8 := Fld.get_lt _ _
      have := Nat.testBit_lt_two_pow (Nat.lt_of_lt_of_le hbound (Nat.pow_le_pow_right (by decide) (Nat.le_of_not_lt hlt : FGRP.CAUSE.width ≤ n)))
      rw [this] at hn'
      contradiction
    · exact (congrArg (Nat.testBit · n) (st_setSt_clear _ (h.wf hw) (by decide) (by decide) (.inr hrow))).trans hn'

/-- An entry lies in the history's table, beyond every field that stays. -/
theorem putEntry (k : Clock) (g i kind src seq : Nat) (h : Stays P m z c) : Stays P m z (c.putEntry k g i kind src seq) := by
  have hread : ∀ f q, f.addr q < hAddr 0x62 0 0 → (c.putEntry k g i kind src seq).st f q = c.st f q := by
    intro f q hlt
    have hne : ∀ w, f.addr q ≠ hAddr 0x62 (16 * g + i) w := fun w e => by
      unfold hAddr at hlt e
      omega
    exact congrArg f.get ((Bank.read_write_other _ _ (hne 3)).trans ((Bank.read_write_other _ _ (hne 2)).trans
      ((Bank.read_write_other _ _ (hne 1)).trans (Bank.read_write_other _ _ (hne 0)))))
  have hwf := ((Keeps.refl c).putEntry k g i kind src seq).wf
  refine ⟨h.col, fun hw => hwf (h.wf hw), fun hw f q hp => (hread f q (hP.hist f q hp)).trans (h.stat hw f q hp), fun hw q hq n hn => ?_⟩
  rw [hread FGRP.CAUSE q (by simp only [Fld.addr, hAddr, FGRP.CAUSE]; omega)]
  exact h.causes hw q hq n hn
theorem history (hseq : ∀ x f, m { x with seq := f } = m x) (k : Clock) (g kind src : Nat) (h : Stays P m z c) :
    Stays P m z (c.history k g kind src) :=
  .ite (((h.putEntry hP k g _ kind src _).setGroup hP (by decide) _ _).onCol _ fun _ => hseq _ _) h
theorem latch (k : Clock) (g kind src : Nat) (h : Stays P m z c) : Stays P m z (c.latch k g kind src) :=
  .ite h (.ite (((h.putEntry hP k g 0 kind src 0).setGroup hP (by decide) _ _).setGroup hP (by decide) _ _)
    (((h.setGroup hP (by decide) _ _).satGroup hP (by decide) _ _).cause hP k _ _))
theorem rearm (g : Nat) (h : Stays P m z c) : Stays P m z (c.rearm g) :=
  ((h.setGroup hP (by decide) _ _).setGroup hP (by decide) _ _).setGroup hP (by decide) _ _
theorem cleared (hseq : ∀ x f, m { x with seq := f } = m x) (k : Clock) (s : Nat) (h : Stays P m z c) : Stays P m z (c.cleared k s) :=
  (h.cause hP k _ _).history hP hseq k _ _ _
theorem syncShade (hshade : ∀ x a b d e, m { x with shade := a, shadeEvc := b, shadeSelf := d, lanternHeld := e } = m x) (k : Clock) (src : Nat)
    (h : Stays P m z c) : Stays P m z (c.syncShade k src) := by
  unfold Chip.syncShade
  extract_lets was keep c₁ c₂ c₃ c₄
  have h₁ : Stays P m z c₁ := h.onCol _ fun x => hshade x _ _ _ _
  have h₂ : Stays P m z c₂ := iteElse h₁ fun h => h.onTwin _
  have h₃ : Stays P m z c₃ := h₂.dims hP ((Dims.refl c₂).disarm k)
  have h₄ : Stays P m z c₄ := h.onCol _ fun x => hshade x _ x.shadeEvc x.shadeSelf x.lanternHeld
  exact .ite (((h₃.setGroup hP (by decide) _ _).cause hP k _ _).dims hP ((Dims.refl _).reshade k was))
    (.ite (((h₄.setGroup hP (by decide) _ _).cause hP k _ _).dims hP ((Dims.refl _).reshade k was)) h)

end Stays

/-! ### The collector's own state -/

/-- After the shade has followed the faults, it stands exactly where a SEVERE one does. -/
theorem syncShade_shade (c : Chip) (k : Clock) (src : Nat) : (c.syncShade k src).col.shade = c.severe := by
  unfold syncShade
  extract_lets was keep c₁ c₂ c₃ c₄
  have h₂ : c₂.col = c₁.col := by
    unfold c₂
    split <;> rfl
  split
  · next hon =>
    rw [((Dims.refl _).reshade k was).col, cause_col, setSt_col, ((Dims.refl c₂).disarm k).col, h₂]
    rw [Bool.and_eq_true] at hon
    exact hon.1.symm
  · next hon =>
    split
    · next hoff =>
      rw [((Dims.refl _).reshade k was).col, cause_col, setSt_col]
      rw [Bool.and_eq_true, Bool.not_eq_true'] at hoff
      exact hoff.1.symm
    · next hoff => cases hs : c.severe <;> cases hc : c.col.shade <;> simp_all
/-- No change of the shade reaches the faults, their conditions, the armed injection, FAULT_N or the windows. -/
theorem syncShade_col {β : Type} (m : Collector → β) (hshade : ∀ x a b d e, m { x with shade := a, shadeEvc := b, shadeSelf := d, lanternHeld := e } = m x)
    (c : Chip) (k : Clock) (src : Nat) : m (c.syncShade k src).col = m c.col :=
  (Stays.syncShade (P := fun _ _ => False) ⟨fun _ _ h => h.elim, fun _ _ h => h.elim, fun g hg _ => ⟨(groupFields_fit g hg).1, fun _ _ h => h.elim⟩,
    fun _ => ⟨by decide, fun _ _ h => h.elim⟩⟩ hshade k src (.refl c)).col

theorem shaded_of_shade {c : Chip} (h : c.col.shade = true) : c.shaded = true := by simp [shaded, h]

end Chip
end Sys2Proof.Machine
end

section
/-! PROOFS. Fault events (R350 to R355), level conditions (R348), COUNT windows (R351), recoveries (R363), injections (R367) and the
watchdog (R356). -/

namespace Sys2Proof.Machine
open Sys2Proof

namespace Chip

/-! ### A fault event -/

/-- The status fields of the source table that events write. -/
def sourceFields : List Fld := [FSRC.COND, FSRC.FLT, FSRC.WCOUNT, FSRC.EVENTS, FSRC.RAISES]
/-- Those of every source. -/
def sourceWords (f : Fld) (q : Nat) : Prop := f ∈ sourceFields ∧ q < 4096
theorem sourceFields_spec : ∀ f ∈ sourceFields, f.fits = true ∧ f.tab = 0x60 := by decide
theorem groupFields_tab : ∀ g ∈ groupFields, g.tab = 0x61 := by decide

theorem sourceWords_spared : Spared sourceWords := by
  have hlow : ∀ f q, sourceWords f q → f.addr q < hAddr 0x61 0 0 := by
    rintro f q ⟨hf, hq⟩
    obtain ⟨hfit, htab⟩ := sourceFields_spec f hf
    have hw := (Fld.fits_iff.mp hfit).2
    simp only [Fld.addr, hAddr, htab]
    omega
  have hclear : ∀ (g : Fld) r, g.fits = true → g.tab = 0x61 → Clears sourceWords g r := by
    intro g r hg ht
    refine ⟨hg, fun f q hp => ⟨(sourceFields_spec f hp.1).1, .inr fun e => ?_⟩⟩
    have := hlow f q hp
    rw [e] at this
    simp only [Fld.addr, hAddr, ht] at this
    omega
  refine ⟨fun f q hp => ⟨(sourceFields_spec f hp.1).1, ?_, hp.2⟩, fun f q hp => ?_, fun g hg r => hclear g r (groupFields_fit g hg).1 (groupFields_tab g hg),
    fun r => hclear _ r (by decide) rfl⟩
  · rw [(sourceFields_spec f hp.1).2]; rfl
  · have := hlow f q hp
    simp only [hAddr] at this ⊢
    omega

/-- The faults, their shade and pin, the conditions, the armed injection and the windows. -/
def faultState (x : Collector) := (x.cond, x.inj, x.winOpen, x.flt, x.shade, x.faultn)
/-- The conditions, the armed injection and the windows. -/
def condState (x : Collector) := (x.cond, x.inj, x.winOpen)

/-- A counter that saturates. -/
theorem st_satSt_same (c : Chip) (f : Fld) (r n : Nat) (h : c.heath.status.wf = true) (hf : f.lo + f.width ≤ 32) :
    (c.satSt f r n).st f r = satAdd f.width (c.st f r) n := by
  refine (st_setSt_same c f r _ h hf).trans (Nat.mod_eq_of_lt ?_)
  have := Nat.two_pow_pos f.width
  unfold satAdd
  omega
/-- What a fault event records before its source counts as uncleared. -/
def fltRecord (c : Chip) (k : Clock) (s : Nat) : Chip :=
  let sev := c.lv FSRC.SEV s
  let g := grpOf s
  let c := (c.addSt FSRC.EVENTS s 1).addSt FGRP.GEVENTS g 1
  let c := c.markEdge k s (decide (2 ≤ sev))
  let kind := if sev = 1 then 2 else 1
  let c := (c.history k g kind s).latch k g kind s
  c.cause k .fgrp g (if sev = 1 then 2 else 1)
/-- The source counts as uncleared, with what follows. -/
def fltStands (c : Chip) (k : Clock) (s : Nat) : Chip :=
  let c := c.onCol (fun x => { x with loud := true })
  let c := if k.idx = 0 then c.setSt FGRP.QUIETCNT 23 0 else c
  ((c.putFlt s true).syncFaultN k).syncShade k s
theorem fltEvent_eq (c : Chip) (k : Clock) (s : Nat) :
    c.fltEvent k s = if c.lv FSRC.SEV s = 1 then c.fltRecord k s else (c.fltRecord k s).fltStands k s := rfl

theorem fltRecord_stays (c : Chip) (k : Clock) (s : Nat) : Stays sourceWords faultState (c.addSt FSRC.EVENTS s 1) (c.fltRecord k s) := by
  unfold fltRecord
  extract_lets sev g c₁ c₂ kind c₃
  have hP := sourceWords_spared
  have h₁ : Stays sourceWords faultState (c.addSt FSRC.EVENTS s 1) c₁ := (Stays.refl _).addGroup hP (by decide) g 1
  have h₂ : Stays sourceWords faultState (c.addSt FSRC.EVENTS s 1) c₂ := h₁.onCol _ fun _ => rfl
  exact ((h₂.history hP (fun _ _ => rfl) k g kind s).latch hP k g kind s).cause hP k g _

theorem Pin.final_drive (p : Pin) (e : Nat) (l : Bool) : (p.drive e l).final = l := Pin.final_send ..

/-- The part after the source's FLT has been written. -/
def withFlt (c : Chip) (s : Nat) (b : Bool) : Chip :=
  (c.onCol (fun x => { x with flt := if b then insertSorted s x.flt else without s x.flt })).setSt FSRC.FLT s (bit b)
theorem putFlt_eq (c : Chip) (s : Nat) (b : Bool) :
    c.putFlt s b = (c.withFlt s b).setSt FGRP.FLTMAP (grpOf s) (setBit (c.st FGRP.FLTMAP (grpOf s)) (s % 16) b) := rfl

theorem sourceField_mem {f : Fld} (hf : f ∈ sourceFields) {s : Nat} (hs : s < 4096) : sourceWords f s := ⟨hf, hs⟩
/-- The write of FLT leaves the other fields of its word and the collector's other state. -/
theorem withFlt_spec {c : Chip} {s : Nat} (b : Bool) (hwf : c.heath.status.wf = true) :
    (c.withFlt s b).heath.status.wf = true ∧ (c.withFlt s b).st FSRC.FLT s = bit b ∧
      (∀ f ∈ [FSRC.COND, FSRC.WCOUNT, FSRC.EVENTS, FSRC.RAISES], (c.withFlt s b).st f s = c.st f s) ∧
      (c.withFlt s b).col = { c.col with flt := if b then insertSorted s c.col.flt else without s c.col.flt } := by
  have hapart : ∀ f ∈ [FSRC.COND, FSRC.WCOUNT, FSRC.EVENTS, FSRC.RAISES], f.fits = true ∧ f.apart FSRC.FLT = true := by decide
  refine ⟨setSt_wf (c.onCol _) _ _ _ hwf, ?_, fun f hf => ?_, setSt_col ..⟩
  · refine (st_setSt_same (c.onCol _) _ _ _ hwf (by decide)).trans ?_
    cases b <;> rfl
  · exact st_setSt_clear (c := c.onCol _) _ hwf (hapart f hf).1 (by decide) (.inl (hapart f hf).2)

/-- What the write of FLT with its map leaves. -/
theorem putFlt_spec {c : Chip} {s : Nat} (b : Bool) (hs : s < 4096) (hwf : c.heath.status.wf = true) :
    (c.putFlt s b).heath.status.wf = true ∧ (c.putFlt s b).st FSRC.FLT s = bit b ∧
      (∀ f ∈ [FSRC.COND, FSRC.WCOUNT, FSRC.EVENTS, FSRC.RAISES], (c.putFlt s b).st f s = c.st f s) ∧
      (c.putFlt s b).col = { c.col with flt := if b then insertSorted s c.col.flt else without s c.col.flt } := by
  obtain ⟨hwf', hflt, hother, hcol⟩ := c.withFlt_spec (s := s) b hwf
  have hput : Stays sourceWords id (c.withFlt s b) (c.putFlt s b) := (Stays.refl _).setGroup sourceWords_spared (by decide) _ _
  have hsub : ∀ f ∈ [FSRC.COND, FSRC.WCOUNT, FSRC.EVENTS, FSRC.RAISES], f ∈ sourceFields := by decide
  generalize c.putFlt s b = d at hput ⊢
  exact ⟨hput.wf hwf', (hput.stat hwf' _ _ (sourceField_mem (by decide) hs)).trans hflt,
    fun f hf => (hput.stat hwf' _ _ (sourceField_mem (hsub f hf) hs)).trans (hother f hf), Eq.trans hput.col hcol⟩

/-- The conditions, the armed injection, the windows and the faults. -/
def standState (x : Collector) := (condState x, x.flt)
theorem Stays.syncFaultN {P : Fld → Nat → Prop} (c : Chip) (k : Clock) : Stays P standState c (c.syncFaultN k) := ⟨rfl, id, fun _ _ _ _ => rfl, fun _ _ _ _ h => h⟩
/-- What FAULT_N and the shade leave as they follow the faults. -/
theorem faultFollows_spec {d : Chip} (k : Clock) {s : Nat} (hs : s < 4096) (hwf : d.heath.status.wf = true) :
    (∀ f ∈ sourceFields, ((d.syncFaultN k).syncShade k s).st f s = d.st f s) ∧ ((d.syncFaultN k).syncShade k s).heath.status.wf = true ∧
      condState ((d.syncFaultN k).syncShade k s).col = condState d.col ∧ ((d.syncFaultN k).syncShade k s).col.flt = d.col.flt ∧
      ((d.syncFaultN k).syncShade k s).col.faultn.final = (d.col.flt != []) ∧ ((d.syncFaultN k).syncShade k s).col.shade = d.severe := by
  have hstay : Stays sourceWords standState d ((d.syncFaultN k).syncShade k s) :=
    (Stays.syncFaultN d k).syncShade sourceWords_spared (fun _ _ _ _ _ => rfl) k s
  have hpin := syncShade_col Collector.faultn (fun _ _ _ _ _ => rfl) (d.syncFaultN k) k s
  have hshade := syncShade_shade (d.syncFaultN k) k s
  have hcol := hstay.col
  generalize (d.syncFaultN k).syncShade k s = e at *
  refine ⟨fun f hf => hstay.stat hwf _ _ (sourceField_mem hf hs), hstay.wf hwf, congrArg Prod.fst hcol, congrArg Prod.snd hcol, ?_, hshade⟩
  rw [hpin]
  exact Pin.final_drive ..

/-- What an uncleared fault shows. -/
theorem fltStands_spec {c : Chip} (k : Clock) {s : Nat} (hs : s < 4096) (hwf : c.heath.status.wf = true) :
    (c.fltStands k s).st FSRC.FLT s = 1 ∧
      (∀ f ∈ [FSRC.COND, FSRC.WCOUNT, FSRC.EVENTS, FSRC.RAISES], (c.fltStands k s).st f s = c.st f s) ∧
      condState (c.fltStands k s).col = condState c.col ∧ (c.fltStands k s).col.flt = insertSorted s c.col.flt ∧
      (c.fltStands k s).col.faultn.final = true ∧ (c.fltStands k s).heath.status.wf = true ∧
      (c.lv FSRC.SEV s = 3 → (c.fltStands k s).col.shade = true) := by
  unfold fltStands
  extract_lets c₁ c₂
  have h₂ : Stays sourceWords faultState c c₂ :=
    .iteElse ((Stays.refl c).onCol (m := faultState) _ fun _ => rfl) fun h => h.setGroup sourceWords_spared (by decide) _ _
  have hlv : c₂.lv FSRC.SEV s = c.lv FSRC.SEV s := by
    unfold c₂
    split
    · exact lv_setSt ..
    · rfl
  obtain ⟨hwf₃, hflt, hother, hcol⟩ := c₂.putFlt_spec true hs (h₂.wf hwf)
  have hlv' : (c₂.putFlt s true).lv FSRC.SEV s = c₂.lv FSRC.SEV s := by rw [putFlt_eq, lv_setSt]; exact lv_setSt ..
  clear_value c₂
  generalize c₂.putFlt s true = d at *
  obtain ⟨hstat, hwf₄, hcond, hfl, hpin, hshade⟩ := d.faultFollows_spec k hs hwf₃
  generalize (d.syncFaultN k).syncShade k s = e at *
  have hsub : ∀ f ∈ [FSRC.COND, FSRC.WCOUNT, FSRC.EVENTS, FSRC.RAISES], f ∈ sourceFields := by decide
  have hfc : c₂.col.flt = c.col.flt := congrArg (fun x => x.2.2.2.1) h₂.col
  have hcond₂ : condState c₂.col = condState c.col := congrArg (fun x => (x.1, x.2.1, x.2.2.1)) h₂.col
  have hdf : d.col.flt = insertSorted s c.col.flt := (congrArg Collector.flt hcol).trans (congrArg (insertSorted s) hfc)
  have hmem : s ∈ d.col.flt := by rw [hdf]; exact mem_insertSorted.mpr (.inl rfl)
  refine ⟨(hstat _ (by decide)).trans hflt, fun f hf => ((hstat f (hsub f hf)).trans (hother f hf)).trans
    (h₂.stat hwf _ _ (sourceField_mem (hsub f hf) hs)), hcond.trans ((congrArg condState hcol).trans hcond₂), hfl.trans hdf, ?_, hwf₄, fun hsev => ?_⟩
  · rw [hpin]
    simpa using List.ne_nil_of_mem hmem
  · rw [hshade]
    refine List.any_eq_true.mpr ⟨s, hmem, ?_⟩
    rw [hlv', hlv, hsev]
    rfl

/-- What a fault event leaves. -/
theorem fltEvent_spec {c : Chip} (k : Clock) {s : Nat} (hs : s < 4096) (hwf : c.heath.status.wf = true) :
    (c.fltEvent k s).st FSRC.EVENTS s = wrapAdd FSRC.EVENTS.width (c.st FSRC.EVENTS s) 1 ∧
      (∀ f ∈ [FSRC.COND, FSRC.WCOUNT, FSRC.RAISES], (c.fltEvent k s).st f s = c.st f s) ∧
      condState (c.fltEvent k s).col = condState c.col ∧ (c.fltEvent k s).heath.status.wf = true ∧
      (c.lv FSRC.SEV s = 1 → (c.fltEvent k s).col.flt = c.col.flt ∧ (c.fltEvent k s).col.shade = c.col.shade) ∧
      (c.lv FSRC.SEV s ≠ 1 → s ∈ (c.fltEvent k s).col.flt ∧ (c.fltEvent k s).st FSRC.FLT s = 1 ∧
        (c.fltEvent k s).col.faultn.final = true) ∧
      (c.lv FSRC.SEV s = 3 → (c.fltEvent k s).col.shade = true) := by
  have hwf₁ : (c.addSt FSRC.EVENTS s 1).heath.status.wf = true := addSt_wf _ _ _ _ hwf
  have hadd : (c.addSt FSRC.EVENTS s 1).st FSRC.EVENTS s = wrapAdd FSRC.EVENTS.width (c.st FSRC.EVENTS s) 1 :=
    st_addSt_same _ _ _ _ hwf (by decide)
  have hother : ∀ f ∈ [FSRC.COND, FSRC.WCOUNT, FSRC.RAISES], (c.addSt FSRC.EVENTS s 1).st f s = c.st f s := by
    have hapart : ∀ f ∈ [FSRC.COND, FSRC.WCOUNT, FSRC.RAISES], f.fits = true ∧ f.apart FSRC.EVENTS = true := by decide
    exact fun f hf => st_setSt_clear _ hwf (hapart f hf).1 (by decide) (.inl (hapart f hf).2)
  have hcol₁ : (c.addSt FSRC.EVENTS s 1).col = c.col := addSt_col ..
  have hrec := c.fltRecord_stays k s
  have hlv : (c.fltRecord k s).lv FSRC.SEV s = c.lv FSRC.SEV s := by
    have hkeep : (c.fltRecord k s).heath.live = c.heath.live :=
      (((Keeps.refl c).addSt _ _ _).addSt _ _ _ |>.markEdge k s _ |>.history k _ _ _ |>.latch k _ _ _ |>.cause k _ _ _).live
    unfold lv
    rw [hkeep]
  have hsub : ∀ f ∈ [FSRC.COND, FSRC.WCOUNT, FSRC.RAISES], f ∈ sourceFields ∧ f ∈ [FSRC.COND, FSRC.WCOUNT, FSRC.EVENTS, FSRC.RAISES] := by decide
  rw [fltEvent_eq]
  generalize c.addSt FSRC.EVENTS s 1 = a at *
  generalize c.fltRecord k s = r at *
  have hcol : faultState r.col = faultState c.col := by rw [← hcol₁]; exact hrec.col
  have hcond : condState r.col = condState c.col := congrArg (fun x => (x.1, x.2.1, x.2.2.1)) hcol
  split
  · next h1 =>
    exact ⟨(hrec.stat hwf₁ _ _ (sourceField_mem (by decide) hs)).trans hadd,
      fun f hf => (hrec.stat hwf₁ _ _ (sourceField_mem (hsub f hf).1 hs)).trans (hother f hf), hcond, hrec.wf hwf₁,
      fun _ => ⟨congrArg (fun x => x.2.2.2.1) hcol, congrArg (fun x => x.2.2.2.2.1) hcol⟩, fun h => absurd h1 h, fun h => by omega⟩
  · next h1 =>
    obtain ⟨hflt, hstat, hc, hfl, hpin, hwf₂, hshade⟩ := r.fltStands_spec k hs (hrec.wf hwf₁)
    generalize r.fltStands k s = e at *
    exact ⟨(hstat _ (by decide)).trans ((hrec.stat hwf₁ _ _ (sourceField_mem (by decide) hs)).trans hadd),
      fun f hf => (hstat f (hsub f hf).2).trans ((hrec.stat hwf₁ _ _ (sourceField_mem (hsub f hf).1 hs)).trans (hother f hf)), hc.trans hcond,
      hwf₂, fun h => absurd h h1, fun _ => ⟨by rw [hfl]; exact mem_insertSorted.mpr (.inl rfl), hflt, hpin⟩, fun h3 => hshade (hlv.trans h3)⟩

/-! ### An event, and a level condition -/

/-- The edge that the source is raised on is marked. -/
def raised (c : Chip) (k : Clock) (s : Nat) : Chip := if unusedSrc s || levelSrc s then c else c.markEdge k s false
theorem markEdge_form (c : Chip) (k : Clock) (s : Nat) (loud : Bool) :
    ∃ l b, c.markEdge k s loud = { c with col := { c.col with edge := l, edgeNo := k.edges, edgeLoud := b } } := ⟨_, _, rfl⟩
theorem raised_form (c : Chip) (k : Clock) (s : Nat) : ∃ l b n, c.raised k s = { c with col := { c.col with edge := l, edgeNo := n, edgeLoud := b } } := by
  unfold raised
  split
  · exact ⟨_, _, _, rfl⟩
  · exact ⟨_, _, _, rfl⟩
theorem srcEvent_eq (c : Chip) (k : Clock) (s : Nat) : c.srcEvent k s =
    if unusedSrc s ∨ (c.raised k s).lv FSRC.SEV s = 0 then c.raised k s
    else
      let d := ((c.raised k s).tumble k s).addSt FSRC.RAISES s 1
      if d.on FSRC.CLASS s then
        if d.st FSRC.WCOUNT s + 1 = (d.satSt FSRC.WCOUNT s 1).lv FSRC.N s then (d.satSt FSRC.WCOUNT s 1).fltEvent k s
        else d.satSt FSRC.WCOUNT s 1
      else d.fltEvent k s := rfl

theorem sourceFields_apart : ∀ g ∈ sourceFields, FGRP.CAUSE.apart g = true := by decide

namespace Stays
variable {β : Type} {P : Fld → Nat → Prop} {m : Collector → β} {z c : Chip} (hP : Spared P) {s : Nat} (hs : ∀ g ∈ sourceFields, Clears P g s)
  (hm : ∀ x y : Collector, x.cond = y.cond → x.inj = y.inj → m x = m y)

include hm in
theorem colUpd (f : Collector → Collector) (hf : ∀ x, (f x).cond = x.cond ∧ (f x).inj = x.inj) (h : Stays P m z c) : Stays P m z (c.onCol f) :=
  h.onCol f fun x => hm _ _ (hf x).1 (hf x).2
include hm in
theorem raised (k : Clock) (h : Stays P m z c) : Stays P m z (c.raised k s) := .ite h (colUpd hm _ (fun _ => ⟨rfl, rfl⟩) h)
include hm hP in
theorem putFlt (hflt : Clears P FSRC.FLT s) (b : Bool) (h : Stays P m z c) : Stays P m z (c.putFlt s b) := by
  unfold Chip.putFlt
  exact setGroup hP (by decide) _ _ (setSt _ hflt (by decide) (colUpd hm _ (fun _ => ⟨rfl, rfl⟩) h))
include hs
theorem setSource {g : Fld} (hg : g ∈ sourceFields) (v : Nat) (h : Stays P m z c) : Stays P m z (c.setSt g s v) :=
  h.setSt v (hs g hg) (sourceFields_apart g hg)
include hm
theorem tumble (k : Clock) (h : Stays P m z c) : Stays P m z (c.tumble k s) := by
  refine .ite ?_ h
  exact setSource hs (by decide) _ (colUpd hm _ (fun _ => ⟨rfl, rfl⟩) h)
theorem openWindow (k : Clock) (h : Stays P m z c) : Stays P m z (c.openWindow k s) := by
  unfold Chip.openWindow
  exact setSource hs (by decide) _ (colUpd hm _ (fun _ => ⟨rfl, rfl⟩) h)
include hP
theorem fltEvent (k : Clock) (h : Stays P m z c) : Stays P m z (c.fltEvent k s) := by
  rw [fltEvent_eq]
  have hrec : Stays P m z (c.fltRecord k s) := by
    unfold fltRecord
    extract_lets sev g c₁ c₂ kind c₃
    have h₁ : Stays P m z c₁ := (h.setSource hs (by decide) _).addGroup hP (by decide) g 1
    have h₂ : Stays P m z c₂ := colUpd hm _ (fun _ => ⟨rfl, rfl⟩) h₁
    exact ((h₂.history hP (fun _ _ => hm _ _ rfl rfl) k g kind s).latch hP k g kind s).cause hP k g _
  generalize c.fltRecord k s = r at hrec
  have hstand : Stays P m z (r.fltStands k s) := by
    unfold fltStands
    extract_lets c₁ c₂
    have h₁ : Stays P m z c₁ := colUpd hm _ (fun _ => ⟨rfl, rfl⟩) hrec
    have h₂ : Stays P m z c₂ := .iteElse h₁ fun h => h.setGroup hP (by decide) _ _
    have h₃ : Stays P m z ((c₂.putFlt s true).syncFaultN k) := colUpd hm _ (fun _ => ⟨rfl, rfl⟩) (h₂.putFlt hP hm (hs _ (by decide)) true)
    exact h₃.syncShade hP (fun _ _ _ _ _ => hm _ _ rfl rfl) k s
  exact .ite hrec hstand
theorem srcEvent (k : Clock) (h : Stays P m z c) : Stays P m z (c.srcEvent k s) := by
  rw [srcEvent_eq]
  have h₁ : Stays P m z (c.raised k s) := h.raised hm k
  extract_lets d
  have hd : Stays P m z d := (h₁.tumble hs hm k).setSource hs (by decide) _
  have hsat : Stays P m z (d.satSt FSRC.WCOUNT s 1) := hd.setSource hs (by decide) _
  exact .ite h₁ (.ite (.ite (hsat.fltEvent hP hs hm k) hsat) (hd.fltEvent hP hs hm k))

end Stays

/-- No field at all. -/
def noField (_ : Fld) (_ : Nat) : Prop := False
theorem noField_clears {g : Fld} (hg : g.fits = true) (r : Nat) : Clears noField g r := ⟨hg, fun _ _ h => h.elim⟩
theorem noField_spared : Spared noField :=
  ⟨fun _ _ h => h.elim, fun _ _ h => h.elim, fun g hg r => noField_clears (groupFields_fit g hg).1 r, fun r => noField_clears (by decide) r⟩

/-- No event changes a condition, or the armed injection. -/
theorem srcEvent_cond (c : Chip) (k : Clock) (s : Nat) : (c.srcEvent k s).col.cond = c.col.cond ∧ (c.srcEvent k s).col.inj = c.col.inj := by
  have h := ((Stays.refl (P := noField) (m := fun x => (x.cond, x.inj)) c).srcEvent noField_spared
    (fun g hg => noField_clears (sourceFields_spec g hg).1 s) (fun x y hc hi => by rw [hc, hi]) k).col
  exact ⟨congrArg Prod.fst h, congrArg Prod.snd h⟩
/-- A level source's condition is present exactly as its last change has it. -/
theorem setCond_cond (c : Chip) (k : Clock) (s : Nat) (present : Bool) :
    (c.setCond k s present).col.cond = if c.col.cond.contains s = present then c.col.cond
      else if present then insertSorted s c.col.cond else without s c.col.cond := by
  unfold setCond
  extract_lets was d
  have hd : d.col.cond = if was = present then c.col.cond else if present then insertSorted s c.col.cond else without s c.col.cond := by
    unfold d
    split
    · rfl
    · rw [setSt_col]; rfl
  clear_value d
  split
  · rw [(srcEvent_cond d k s).1, hd]
  · rw [hd]
theorem mem_without {x y : Nat} {l : List Nat} : y ∈ without x l ↔ y ∈ l ∧ y ≠ x := by simp [without]
theorem contains_setCond (c : Chip) (k : Clock) (s : Nat) (present : Bool) : (c.setCond k s present).col.cond.contains s = present := by
  rw [setCond_cond]
  split
  · assumption
  · cases present
    · simp [mem_without]
    · simp [mem_insertSorted]
/-- The end of a condition clears nothing. -/
theorem setCond_absent_flt (c : Chip) (k : Clock) (s : Nat) : (c.setCond k s false).col.flt = c.col.flt := by
  unfold setCond
  extract_lets was d
  rw [if_neg (by simp)]
  unfold d
  split
  · rfl
  · rw [setSt_col]; rfl

end Chip

/-! ### FAULT_EVENT -/

/-- What the rise or fall of one source does. -/
def Chip.sourceMoves (k : Clock) (c : Chip) (x : Nat) (present : Bool) : Chip :=
  if unusedSrc x then c else if levelSrc x then c.setCond k x present else if present then c.srcEvent k x else c
theorem exec_faultEvent {s : State} (hs : s.serving) (x : Fin 384) (present : Bool) :
    exec (.faultEvent [x] present) s = .next { s with chip := s.chip.sourceMoves s.clk x.val present } :=
  congrArg Host.Outcome.next (hs.act _)

section
variable {s : State} (hs : s.serving) (x : Fin 384) (hused : unusedSrc x.val = false)
include hs hused

theorem exec_faultEvent_event (hlevel : levelSrc x.val = false) :
    exec (.faultEvent [x] true) s = .next { s with chip := s.chip.srcEvent s.clk x.val } := by
  rw [exec_faultEvent hs]
  unfold Chip.sourceMoves
  rw [hused, hlevel]
  rfl
theorem exec_faultEvent_level (hlevel : levelSrc x.val = true) (present : Bool) :
    exec (.faultEvent [x] present) s = .next { s with chip := s.chip.setCond s.clk x.val present } := by
  rw [exec_faultEvent hs]
  unfold Chip.sourceMoves
  rw [hused, hlevel]
  rfl

/-- A fault event of an event source of class IMMEDIATE. -/
theorem faultEvent_immediate (hlevel : levelSrc x.val = false) (hsev : s.chip.lv FSRC.SEV x.val ≠ 0)
    (hclass : s.chip.on FSRC.CLASS x.val = false) :
    ∃ t, exec (.faultEvent [x] true) s = .next t ∧ s.Holds t ∧
      t.chip.st FSRC.RAISES x.val = wrapAdd FSRC.RAISES.width (s.chip.st FSRC.RAISES x.val) 1 ∧
      t.chip.st FSRC.EVENTS x.val = wrapAdd FSRC.EVENTS.width (s.chip.st FSRC.EVENTS x.val) 1 ∧
      (s.chip.lv FSRC.SEV x.val = 1 → t.chip.col.flt = s.chip.col.flt ∧ t.chip.col.shade = s.chip.col.shade) ∧
      (2 ≤ s.chip.lv FSRC.SEV x.val → x.val ∈ t.chip.col.flt ∧ t.chip.st FSRC.FLT x.val = 1 ∧ t.chip.col.faultn.final = true) ∧
      (s.chip.lv FSRC.SEV x.val = 3 → t.chip.col.shade = true ∧ t.chip.shaded = true) := by
  have hx : x.val < 4096 := Nat.lt_trans x.isLt (by decide)
  refine ⟨_, exec_faultEvent_event hs x hused hlevel, State.holds_chip ((Chip.Keeps.refl _).srcEvent _ _), ?_⟩
  obtain ⟨l, b, n, hr⟩ := s.chip.raised_form s.clk x.val
  have htumble : ({ s.chip with col := { s.chip.col with edge := l, edgeNo := n, edgeLoud := b } } : Chip).tumble s.clk x.val =
      { s.chip with col := { s.chip.col with edge := l, edgeNo := n, edgeLoud := b } } := by
    unfold Chip.tumble
    exact if_neg fun h => by
      rw [Bool.and_eq_true] at h
      exact absurd (hclass.symm.trans h.1) (by decide)
  rw [Chip.srcEvent_eq, hr, htumble]
  generalize hd : ({ s.chip with col := { s.chip.col with edge := l, edgeNo := n, edgeLoud := b } } : Chip) = d
  have hlv : ∀ f, d.lv f x.val = s.chip.lv f x.val := by intro f; rw [← hd]; rfl
  have hst : ∀ f, d.st f x.val = s.chip.st f x.val := by intro f; rw [← hd]; rfl
  have hcol : d.col.flt = s.chip.col.flt ∧ d.col.shade = s.chip.col.shade := by rw [← hd]; exact ⟨rfl, rfl⟩
  have hwf : d.heath.status.wf = true := by rw [← hd]; exact hs.wf
  rw [if_neg (by rw [hused, hlv]; simpa using hsev)]
  dsimp only
  have hon : (d.addSt FSRC.RAISES x.val 1).on FSRC.CLASS x.val = false := by
    rw [← hclass]
    unfold Chip.on
    rw [Chip.lv_addSt, hlv]
  rw [if_neg (by simp [hon])]
  have hwf' : (d.addSt FSRC.RAISES x.val 1).heath.status.wf = true := Chip.addSt_wf _ _ _ _ hwf
  obtain ⟨hev, hother, -, -, hnote, hfault, hsevere⟩ := (d.addSt FSRC.RAISES x.val 1).fltEvent_spec s.clk hx hwf'
  have hsv : (d.addSt FSRC.RAISES x.val 1).lv FSRC.SEV x.val = s.chip.lv FSRC.SEV x.val := by rw [Chip.lv_addSt, hlv]
  rw [hsv] at hnote hfault hsevere
  refine ⟨?_, ?_, fun h1 => ?_, fun h2 => hfault (by omega), fun h3 => ⟨hsevere h3, Chip.shaded_of_shade (hsevere h3)⟩⟩
  · refine (hother _ (by decide)).trans ((Chip.st_addSt_same _ _ _ _ hwf (by decide)).trans ?_)
    rw [hst]
    rfl
  · refine hev.trans (congrArg (wrapAdd FSRC.EVENTS.width · 1) ?_)
    exact (Chip.st_setSt_clear _ hwf (by decide) (by decide) (.inl (by decide))).trans (hst _)
  · have hc : (d.addSt FSRC.RAISES x.val 1).col = d.col := Chip.addSt_col ..
    rw [hc] at hnote
    exact ⟨(hnote h1).1.trans hcol.1, (hnote h1).2.trans hcol.2⟩

/-- An event of a source of class COUNT that is not yet the Nth of its window. -/
theorem faultEvent_counts (hlevel : levelSrc x.val = false) (hsev : s.chip.lv FSRC.SEV x.val ≠ 0)
    (hclass : s.chip.on FSRC.CLASS x.val = true)
    (hopen : s.clk.ticks - assoc s.chip.col.winOpen x.val 0 < s.chip.lv FSRC.W x.val)
    (hn : s.chip.st FSRC.WCOUNT x.val + 1 ≠ s.chip.lv FSRC.N x.val) :
    ∃ t, exec (.faultEvent [x] true) s = .next t ∧ s.Holds t ∧
      t.chip.st FSRC.WCOUNT x.val = satAdd FSRC.WCOUNT.width (s.chip.st FSRC.WCOUNT x.val) 1 ∧
      t.chip.st FSRC.EVENTS x.val = s.chip.st FSRC.EVENTS x.val ∧ t.chip.col.flt = s.chip.col.flt ∧
      t.chip.col.shade = s.chip.col.shade ∧ t.chip.col.faultn = s.chip.col.faultn := by
  refine ⟨_, exec_faultEvent_event hs x hused hlevel, State.holds_chip ((Chip.Keeps.refl _).srcEvent _ _), ?_⟩
  obtain ⟨l, b, n, hr⟩ := s.chip.raised_form s.clk x.val
  have htumble : ({ s.chip with col := { s.chip.col with edge := l, edgeNo := n, edgeLoud := b } } : Chip).tumble s.clk x.val =
      { s.chip with col := { s.chip.col with edge := l, edgeNo := n, edgeLoud := b } } := by
    unfold Chip.tumble
    refine if_neg fun h => ?_
    rw [Bool.and_eq_true, decide_eq_true_eq] at h
    have hle : s.chip.lv FSRC.W x.val ≤ s.clk.ticks - assoc s.chip.col.winOpen x.val 0 := h.2.2
    omega
  rw [Chip.srcEvent_eq, hr, htumble]
  generalize hd : ({ s.chip with col := { s.chip.col with edge := l, edgeNo := n, edgeLoud := b } } : Chip) = d
  have hlv : ∀ f, d.lv f x.val = s.chip.lv f x.val := by intro f; rw [← hd]; rfl
  have hst : ∀ f, d.st f x.val = s.chip.st f x.val := by intro f; rw [← hd]; rfl
  have hcol : d.col.flt = s.chip.col.flt ∧ d.col.shade = s.chip.col.shade ∧ d.col.faultn = s.chip.col.faultn := by
    rw [← hd]; exact ⟨rfl, rfl, rfl⟩
  have hwf : d.heath.status.wf = true := by rw [← hd]; exact hs.wf
  have hwf' : (d.addSt FSRC.RAISES x.val 1).heath.status.wf = true := Chip.addSt_wf _ _ _ _ hwf
  rw [if_neg (by rw [hused, hlv]; simpa using hsev)]
  dsimp only
  have hon : (d.addSt FSRC.RAISES x.val 1).on FSRC.CLASS x.val = true := by
    rw [← hclass]
    unfold Chip.on
    rw [Chip.lv_addSt, hlv]
  have hwc : (d.addSt FSRC.RAISES x.val 1).st FSRC.WCOUNT x.val = s.chip.st FSRC.WCOUNT x.val :=
    (Chip.st_setSt_clear _ hwf (by decide) (by decide) (.inl (by decide))).trans (hst _)
  have hev : (d.addSt FSRC.RAISES x.val 1).st FSRC.EVENTS x.val = s.chip.st FSRC.EVENTS x.val :=
    (Chip.st_setSt_clear _ hwf (by decide) (by decide) (.inl (by decide))).trans (hst _)
  rw [if_pos hon, if_neg (by rw [hwc, Chip.lv_satSt, Chip.lv_addSt, hlv]; exact hn)]
  have hc : ((d.addSt FSRC.RAISES x.val 1).satSt FSRC.WCOUNT x.val 1).col = d.col := (Chip.satSt_col ..).trans (Chip.addSt_col ..)
  refine ⟨?_, (Chip.st_setSt_clear _ hwf' (by decide) (by decide) (.inl (by decide))).trans hev, ?_⟩
  · rw [Chip.st_satSt_same _ _ _ _ hwf' (by decide), hwc]
  · rw [hc]
    exact hcol

end

/-- A window that has closed opens anew within the last W ticks. -/
theorem exec_countWindowTumble {s : State} (hs : s.serving) (hi : s.clk.idx = 0) (x : Fin 384) (hclass : s.chip.on FSRC.CLASS x.val = true)
    (hW : 0 < s.chip.lv FSRC.W x.val) (hle : s.chip.lv FSRC.W x.val ≤ s.clk.ticks - assoc s.chip.col.winOpen x.val 0) :
    ∃ t, exec (.countWindowTumble x) s = .next t ∧ s.Holds t ∧ t.chip.st FSRC.WCOUNT x.val = 0 ∧
      s.clk.ticks - assoc t.chip.col.winOpen x.val 0 < s.chip.lv FSRC.W x.val ∧ t.chip.col.flt = s.chip.col.flt := by
  refine ⟨_, congrArg Host.Outcome.next (hs.actBoundary _ hi), State.holds_chip ((Chip.Keeps.refl _).tumble _ _), ?_⟩
  dsimp only
  unfold Chip.tumble
  dsimp only
  rw [if_pos (by rw [hclass]; simpa using ⟨hW, hle⟩)]
  refine ⟨(Chip.st_setSt_same (s.chip.onCol _) _ _ _ hs.wf (by decide)).trans rfl, ?_, (congrArg Collector.flt (Chip.setSt_col ..)).trans rfl⟩
  rw [congrArg Collector.winOpen (Chip.setSt_col ..)]
  generalize assoc s.chip.col.winOpen x.val 0 = o at hle
  generalize s.chip.lv FSRC.W x.val = w at hW hle
  show s.clk.ticks - assoc (assocSet _ x.val (o + (s.clk.ticks - o) / w * w)) x.val 0 < w
  have hassoc : ∀ (l : List (Nat × Nat)) v, assoc (assocSet l x.val v) x.val 0 = v := fun l v => by simp [assoc, assocSet]
  rw [hassoc]
  have hmod := Nat.mod_lt (s.clk.ticks - o) hW
  have hdiv := Nat.div_add_mod' (s.clk.ticks - o) w
  omega

/-- Settles O52: an event is counted and classified, its faults stand and shade, and a window tumbles on its boundary. -/
theorem faultEvents : Obligations.FaultEvents := by
  unfold Obligations.FaultEvents
  refine ⟨fun x s hs hused hlevel => ⟨faultEvent_immediate hs x hused hlevel, faultEvent_counts hs x hused hlevel, fun hsev => ?_⟩,
    fun x s hs hused hlevel => ⟨?_, ?_⟩, fun x p s hused => ?_, fun x s hs hi hclass hW hle => exec_countWindowTumble hs hi x hclass hW hle⟩
  · have hraised : s.chip.raised s.clk x.val = s.chip.markEdge s.clk x.val false := by
      unfold Chip.raised
      rw [hused, hlevel]
      rfl
    obtain ⟨l, b, hmark⟩ := s.chip.markEdge_form s.clk x.val false
    refine ⟨l, b, (exec_faultEvent_event hs x hused hlevel).trans ?_⟩
    rw [Chip.srcEvent_eq, hraised, hmark, if_pos (.inr hsev)]
  · refine ⟨_, exec_faultEvent_level hs x hused hlevel true, State.holds_chip ((Chip.Keeps.refl _).setCond _ _ _), ?_⟩
    simpa using s.chip.contains_setCond s.clk x.val true
  · refine ⟨_, exec_faultEvent_level hs x hused hlevel false, State.holds_chip ((Chip.Keeps.refl _).setCond _ _ _), ?_,
      s.chip.setCond_absent_flt s.clk x.val⟩
    simpa using s.chip.contains_setCond s.clk x.val false
  · refine congrArg Host.Outcome.next (State.act_same (if_pos hused))

end Sys2Proof.Machine
end

section
/-! PROOFS. Recoveries (R363), injections (R366, R367), the watchdog (R356), and the I/O rail (R481). -/

namespace Sys2Proof.Machine
open Sys2Proof

namespace Chip

/-! ### Clears and the recovery -/

/-- The counters of recoveries, and the armed injection. -/
def groupCounts (f : Fld) (q : Nat) : Prop := f ∈ [FGRP.RECOVERIES, FGRP.RECRUN, FGRP.INJARM] ∧ q = 23
theorem groupCounts_fit : ∀ f ∈ [FGRP.RECOVERIES, FGRP.RECRUN, FGRP.INJARM], f.fits = true ∧ f.tab = 0x61 ∧
    ∀ g ∈ FGRP.CAUSE :: FSRC.FLT :: groupFields, g.fits = true ∧ f.apart g = true := by decide
theorem groupCounts_spared : Spared groupCounts := by
  have hclear : ∀ g ∈ FGRP.CAUSE :: FSRC.FLT :: groupFields, ∀ r, Clears groupCounts g r := fun g hg r =>
    ⟨((groupCounts_fit FGRP.RECRUN (by decide)).2.2 g hg).1, fun f _ hp =>
      ⟨(groupCounts_fit f hp.1).1, .inl ((groupCounts_fit f hp.1).2.2 g hg).2⟩⟩
  refine ⟨fun f q hp => ⟨(groupCounts_fit f hp.1).1, ?_, ?_⟩, fun f q hp => ?_, fun g hg r => hclear g (by simp [hg]) r,
    fun r => hclear _ (by simp) r⟩
  · rw [(groupCounts_fit f hp.1).2.1]; rfl
  · rw [hp.2]; decide
  · have hw := (Fld.fits_iff.mp (groupCounts_fit f hp.1).1).2
    rw [hp.2]
    simp only [Fld.addr, hAddr, (groupCounts_fit f hp.1).2.1]
    omega
theorem groupCounts_flt (s : Nat) : Clears groupCounts FSRC.FLT s :=
  ⟨by decide, fun f _ hp => ⟨(groupCounts_fit f hp.1).1, .inl ((groupCounts_fit f hp.1).2.2 _ (by decide)).2⟩⟩

theorem clearFlt_stays (c : Chip) (k : Clock) (s : Nat) : Stays groupCounts (fun x => (x.cond, x.inj)) c (c.clearFlt k s) :=
  ((Stays.refl c).putFlt groupCounts_spared (fun x y hc hi => by rw [hc, hi]) (groupCounts_flt s) false).cleared groupCounts_spared
    (fun _ _ => rfl) k s
theorem clearFlt_flt (c : Chip) (k : Clock) (s : Nat) : (c.clearFlt k s).col.flt = without s c.col.flt := by
  have hput : (c.putFlt s false).col.flt = without s c.col.flt := by
    rw [putFlt_eq, setSt_col]
    exact congrArg Collector.flt (setSt_col ..)
  exact ((Stays.refl (P := noField) (m := Collector.flt) (c.putFlt s false)).cleared noField_spared (fun _ _ => rfl) k s).col.trans hput
theorem mem_foldl_clearFlt (k : Clock) (x : Nat) (l : List Nat) (c : Chip) :
    x ∈ (l.foldl (fun c s => c.clearFlt k s) c).col.flt ↔ x ∈ c.col.flt ∧ x ∉ l := by
  induction l generalizing c with
  | nil => simp
  | cons s r ih =>
    rw [List.foldl_cons, ih, clearFlt_flt, mem_without, List.mem_cons]
    tauto

/-- What a recovery does before FAULT_N and the shade follow. -/
def recovered (c : Chip) (k : Clock) : Chip :=
  let srcs := c.recoverable k
  let c := srcs.foldl (fun c s => c.clearFlt k s) c
  let c := overN 24 (fun g c => if srcs.any (fun s => grpOf s == g) && !c.col.flt.any (fun s => grpOf s == g) then c.rearm g else c) c
  ((c.satSt FGRP.RECOVERIES 23 1).satSt FGRP.RECRUN 23 1).cause k .fgrp 23 64
theorem recover_eq (c : Chip) (k : Clock) : c.recover k = ((c.recovered k).syncFaultN k).syncShade k 0 := rfl

/-- A cause bit that is set stands. -/
theorem cause_sets {c : Chip} (k : Clock) (q : Nat) {n : Nat} (hn : n < 8) (hwf : c.heath.status.wf = true) :
    ((c.cause k .fgrp q (2 ^ n)).st FGRP.CAUSE q).testBit n = true := by
  rw [st_cause_orSt]
  show ((c.setSt FGRP.CAUSE q (c.st FGRP.CAUSE q ||| 2 ^ n)).st FGRP.CAUSE q).testBit n = true
  rw [st_setSt_same _ _ _ _ hwf (by decide), Nat.testBit_mod_two_pow, Nat.testBit_or, Nat.testBit_two_pow_self, Bool.or_true, Bool.and_true]
  exact decide_eq_true hn

theorem recovered_spec {c : Chip} (k : Clock) (hwf : c.heath.status.wf = true) :
    (c.recovered k).heath.status.wf = true ∧ (∀ x, x ∈ (c.recovered k).col.flt ↔ x ∈ c.col.flt ∧ x ∉ c.recoverable k) ∧
      (c.recovered k).st FGRP.RECOVERIES 23 = satAdd FGRP.RECOVERIES.width (c.st FGRP.RECOVERIES 23) 1 ∧
      (c.recovered k).st FGRP.RECRUN 23 = satAdd FGRP.RECRUN.width (c.st FGRP.RECRUN 23) 1 ∧
      ((c.recovered k).st FGRP.CAUSE 23).testBit 6 = true := by
  unfold recovered
  extract_lets srcs c₁ c₂
  have h₁ : Stays groupCounts (fun x => (x.cond, x.inj)) c c₁ :=
    (Stays.refl c).foldl _ fun a s _ h => h.trans (a.clearFlt_stays k s)
  have h₂ : Stays groupCounts (fun x => (x.cond, x.inj)) c c₂ := h₁.overN 24 fun g _ a h => .iteElse h fun h => h.rearm groupCounts_spared g
  have hflt₂ : c₂.col.flt = c₁.col.flt :=
    ((Stays.refl (P := noField) (m := Collector.flt) c₁).overN 24 fun g _ a h => .iteElse h fun h => h.rearm noField_spared g).col
  have hmem : ∀ x, x ∈ c₁.col.flt ↔ x ∈ c.col.flt ∧ x ∉ srcs := fun x => mem_foldl_clearFlt k x srcs c
  have hwf₂ := h₂.wf hwf
  have hrec := h₂.stat hwf FGRP.RECOVERIES 23 ⟨by decide, rfl⟩
  have hrun := h₂.stat hwf FGRP.RECRUN 23 ⟨by decide, rfl⟩
  clear_value c₁ c₂
  have hwf₃ : (c₂.satSt FGRP.RECOVERIES 23 1).heath.status.wf = true := setSt_wf _ _ _ _ hwf₂
  have hwf₄ : ((c₂.satSt FGRP.RECOVERIES 23 1).satSt FGRP.RECRUN 23 1).heath.status.wf = true := setSt_wf _ _ _ _ hwf₃
  have hcause := (Stays.refl (P := groupCounts) (m := id) ((c₂.satSt FGRP.RECOVERIES 23 1).satSt FGRP.RECRUN 23 1)).cause groupCounts_spared k 23 64
  refine ⟨hcause.wf hwf₄, fun x => ?_, ?_, ?_, cause_sets (n := 6) k 23 (by decide) hwf₄⟩
  · rw [cause_col, satSt_col, satSt_col, hflt₂]
    exact hmem x
  · rw [hcause.stat hwf₄ _ _ ⟨by decide, rfl⟩]
    refine (st_setSt_clear _ hwf₃ (by decide) (by decide) (.inl (by decide))).trans ?_
    rw [st_satSt_same _ _ _ _ hwf₂ (by decide), hrec]
  · rw [hcause.stat hwf₄ _ _ ⟨by decide, rfl⟩, st_satSt_same _ _ _ _ hwf₃ (by decide)]
    refine congrArg (satAdd FGRP.RECRUN.width · 1) (Eq.trans ?_ hrun)
    exact st_setSt_clear _ hwf₂ (by decide) (by decide) (.inl (by decide))

end Chip

/-- A recovery that is due clears what it may. -/
theorem exec_automaticRecovery {s : State} (hs : s.serving) (hi : s.clk.idx = 0) (hdue : s.chip.recoveryDue s.clk = true) :
    ∃ t, exec .automaticRecovery s = .next t ∧ s.Holds t ∧
      (∀ x, x ∈ t.chip.col.flt ↔ x ∈ s.chip.col.flt ∧ x ∉ s.chip.recoverable s.clk) ∧
      t.chip.st FGRP.RECOVERIES 23 = satAdd FGRP.RECOVERIES.width (s.chip.st FGRP.RECOVERIES 23) 1 ∧
      t.chip.st FGRP.RECRUN 23 = satAdd FGRP.RECRUN.width (s.chip.st FGRP.RECRUN 23) 1 ∧ t.chip.hasCause .fgrp 23 6 := by
  have hexec : exec .automaticRecovery s = .next { s with chip := s.chip.recover s.clk } := by
    refine congrArg Host.Outcome.next ((hs.actBoundary _ hi).trans ?_)
    rw [if_pos hdue]
  refine ⟨_, hexec, State.holds_chip ((Chip.Keeps.refl _).recover _), ?_⟩
  obtain ⟨hwf, hmem, hrec, hrun, hcause⟩ := s.chip.recovered_spec s.clk hs.wf
  rw [Chip.recover_eq]
  generalize s.chip.recovered s.clk = d at *
  have hstay : Chip.Stays Chip.groupCounts Chip.standState d ((d.syncFaultN s.clk).syncShade s.clk 0) :=
    (Chip.Stays.syncFaultN d s.clk).syncShade Chip.groupCounts_spared (fun _ _ _ _ _ => rfl) s.clk 0
  generalize (d.syncFaultN s.clk).syncShade s.clk 0 = e at hstay ⊢
  have hflt : e.col.flt = d.col.flt := congrArg Prod.snd hstay.col
  refine ⟨fun x => ?_, (hstay.stat hwf _ _ ⟨by decide, rfl⟩).trans hrec, (hstay.stat hwf _ _ ⟨by decide, rfl⟩).trans hrun,
    hstay.causes hwf 23 (by decide) 6 hcause⟩
  show x ∈ e.col.flt ↔ _
  rw [hflt]
  exact hmem x

/-! ### Injections -/

namespace Chip

/-- The field that shows an armed injection. -/
def armField (f : Fld) (q : Nat) : Prop := f = FGRP.INJARM ∧ q = 23
theorem armField_clears : ∀ g ∈ FGRP.CAUSE :: (sourceFields ++ groupFields), g.fits = true ∧ FGRP.INJARM.apart g = true := by decide
theorem armField_clear {g : Fld} (hg : g ∈ FGRP.CAUSE :: (sourceFields ++ groupFields)) (r : Nat) : Clears armField g r :=
  ⟨(armField_clears g hg).1, fun f _ hp => by rw [hp.1]; exact ⟨by decide, .inl (armField_clears g hg).2⟩⟩
theorem armField_spared : Spared armField := by
  refine ⟨?_, ?_, fun g hg r => armField_clear (by simp [hg]) r, fun r => armField_clear (by simp) r⟩
  · rintro f q ⟨rfl, rfl⟩
    decide
  · rintro f q ⟨rfl, rfl⟩
    decide
theorem armField_source (s : Nat) : ∀ g ∈ sourceFields, Clears armField g s := fun g hg => armField_clear (by simp [hg]) s

/-- The armed injection and the field that shows it. -/
def Landed (z c : Chip) : Prop := Stays armField Collector.inj z c

theorem Landed.srcEvent {z c : Chip} (h : Landed z c) (k : Clock) (s : Nat) : Landed z (c.srcEvent k s) :=
  Stays.srcEvent armField_spared (armField_source s) (fun _ _ _ h => h) k h
theorem Landed.loseGroup {z c : Chip} (h : Landed z c) (k : Clock) (g : Nat) : Landed z (c.loseGroup k g) := by
  unfold Chip.loseGroup
  have hfold : Landed z ((grpSrcs g).foldl (fun c s => (c.putFlt s (decide (2 ≤ c.lv FSRC.SEV s))).openWindow k s) c) :=
    Stays.foldl _ h fun a s _ ha => (ha.putFlt armField_spared (fun _ _ _ h => h) (armField_source s _ (by decide)) _).openWindow
      (armField_source s) (fun _ _ _ h => h) k
  exact Stays.syncShade armField_spared (fun _ _ _ _ _ => rfl) k 373 (Stays.onCol (m := Collector.inj) _ (fun _ => rfl) hfold)

theorem injLanded_spec {c : Chip} (k : Clock) (tgt : Nat) (hwf : c.heath.status.wf = true) :
    (c.injLanded k tgt).heath.status.wf = true ∧ (c.injLanded k tgt).col.inj = none ∧ (c.injLanded k tgt).st FGRP.INJARM 23 = 0 ∧
      ((c.injLanded k tgt).st FGRP.CAUSE 23).testBit 7 = true := by
  unfold injLanded
  extract_lets d
  have hd : d.col.inj = none := congrArg Collector.inj (setSt_col ..)
  have hwfd : d.heath.status.wf = true := setSt_wf (c.onCol _) _ _ _ hwf
  have harm : d.st FGRP.INJARM 23 = 0 := (st_setSt_same (c.onCol _) _ _ _ hwf (by decide)).trans rfl
  clear_value d
  have hcause : Landed d (d.cause k .fgrp 23 128) := (Stays.refl d).cause armField_spared k 23 128
  have hset := cause_sets (c := d) (n := 7) k 23 (by decide) hwfd
  have hhist : Landed (d.cause k .fgrp 23 128) ((d.cause k .fgrp 23 128).history k (grpOf tgt) 4 tgt) :=
    (Stays.refl _).history armField_spared (fun _ _ => rfl) k _ _ _
  have hwfc := hcause.wf hwfd
  exact ⟨hhist.wf hwfc, hhist.col.trans (hcause.col.trans hd), (hhist.stat hwfc _ _ ⟨rfl, rfl⟩).trans ((hcause.stat hwfd _ _ ⟨rfl, rfl⟩).trans harm),
    hhist.causes hwfc 23 (by decide) 7 hset⟩

/-- What an injection does at its target, after it has landed. -/
def injected (c : Chip) (k : Clock) (addr tgt bits : Nat) : Chip :=
  if 224 ≤ tgt ∧ tgt ≤ 239 then c.onM (fun m => { m with upsets := ⟨addr / 8, addr % 8, bits⟩ :: m.upsets })
  else if tgt = 240 then c.onHeath (fun h => { h with upsets := ⟨0, addr, bits, false⟩ :: h.upsets })
  else if tgt = 241 then
    c.onQ (addr % 12) (fun q =>
      if q.hostOpen != [] then { q with hostOpen := markLast bits q.hostOpen }
      else if q.opens != [] then { q with
        opens := q.opens.dropLast ++ (q.opens.getLast?.map (fun o => { o with hurt := bits, hurtAt := (o.bytes.length - 1) / 4 })).toList }
      else { q with items := q.items.dropLast ++ (q.items.getLast?.map (markLast bits)).toList })
  else if tgt = 373 then
    if bits = 2 then (c.srcEvent k 373).loseGroup k (addr % 24) else c
  else c.srcEvent k tgt
theorem injected_landed (c : Chip) (k : Clock) (addr tgt bits : Nat) : Landed c (c.injected k addr tgt bits) := by
  have hrefl : Landed c c := Stays.refl c
  unfold injected
  split
  · exact ⟨hrefl.col, hrefl.wf, hrefl.stat, hrefl.causes⟩
  · split
    · exact ⟨hrefl.col, hrefl.wf, hrefl.stat, hrefl.causes⟩
    · split
      · exact ⟨hrefl.col, hrefl.wf, hrefl.stat, hrefl.causes⟩
      · exact Stays.ite (Stays.ite ((hrefl.srcEvent k 373).loseGroup k _) hrefl) (hrefl.srcEvent k tgt)

end Chip

theorem execInjectionLand_eq (a : Nat) (s : State) : exec (.injectionLand a) s = .next (s.act fun k c =>
    match c.col.inj with
    | some (tgt, bits, at_) => if k.edges ≤ at_ then c else (c.injLanded k tgt).injected k a tgt bits
    | none => c) := rfl

theorem exec_injectionLand {s : State} (hs : s.serving) (a tgt bits e : Nat) (hinj : s.chip.col.inj = some (tgt, bits, e)) :
    exec (.injectionLand a) s = .next { s with chip :=
      if s.clk.edges ≤ e then s.chip else (s.chip.injLanded s.clk tgt).injected s.clk a tgt bits } := by
  rw [execInjectionLand_eq, hs.act, hinj]

theorem injectionLand_lands {s : State} (hs : s.serving) (a tgt bits e : Nat) (hinj : s.chip.col.inj = some (tgt, bits, e))
    (he : e < s.clk.edges) :
    ∃ t, exec (.injectionLand a) s = .next t ∧ s.Holds t ∧ t.chip.col.inj = none ∧ t.chip.st FGRP.INJARM 23 = 0 ∧
      t.chip.hasCause .fgrp 23 7 ∧
      (224 ≤ tgt → tgt ≤ 239 → t.chip.mead.upsets = ⟨a / 8, a % 8, bits⟩ :: s.chip.mead.upsets) ∧
      (tgt = 240 → t.chip.heath.upsets = ⟨0, a, bits, false⟩ :: s.chip.heath.upsets) := by
  have hexec := exec_injectionLand hs a tgt bits e hinj
  rw [if_neg (by omega)] at hexec
  obtain ⟨t, ht, hholds⟩ := exec_holds_of_coreEdge s (.injectionLand a) rfl
  rw [hexec] at ht
  obtain rfl := Host.Outcome.next.inj ht
  obtain ⟨hwf, hi, harm, hc⟩ := s.chip.injLanded_spec s.clk tgt hs.wf
  have hcalm : tgt < 384 → Chip.Calm s.chip (s.chip.injLanded s.clk tgt) := fun h => .injLanded _ _ h (.refl _)
  generalize s.chip.injLanded s.clk tgt = d at *
  have hland := d.injected_landed s.clk a tgt bits
  refine ⟨_, hexec, hholds, hland.col.trans hi, (hland.stat hwf _ _ ⟨rfl, rfl⟩).trans harm, hland.causes hwf 23 (by decide) 7 hc,
    fun hlo hhi => ?_, fun ht => ?_⟩
  · dsimp only
    unfold Chip.injected
    rw [if_pos ⟨hlo, hhi⟩]
    exact congrArg (fun m => _ :: m.upsets) (hcalm (by omega)).mead
  · dsimp only
    unfold Chip.injected
    rw [if_neg (by omega), if_pos ht]
    have hu : d.heath.upsets = s.chip.heath.upsets := by
      have := congrArg Heath.upsets (hcalm (by omega)).heath
      exact this
    exact congrArg (_ :: ·) hu

/-! ### The watchdog -/

theorem exec_watch {s : State} (hs : s.serving) :
    ∃ t, exec .watch s = .next t ∧ t.pending = s.pending ∧ t.clk = s.clk ∧ t.chip.boot.phase = .halted ∧ t.chip.running = false ∧
      t.chip.boot.watchShade = true ∧ t.chip.shaded = true ∧ t.chip.col.faultn = { level := true } ∧
      t.chip.heath.staged = s.chip.heath.staged ∧ t.chip.heath.live = s.chip.heath.live := by
  let z := (s.chip.onBoot fun b => { b with watchShade := true }).onCol fun x => { x with faultn := { level := true } }
  have hexec : exec .watch s = .next { s with chip := (z.shadeFalls s.clk).onBoot fun b => { b with phase := .halted } } :=
    congrArg Host.Outcome.next (if_pos hs.1)
  have hdims : Chip.Dims z (z.shadeFalls s.clk) := .shadeFalls _ (.refl z)
  have hkeeps : Chip.Keeps z (z.shadeFalls s.clk) := .shadeFalls _ (.refl z)
  generalize z.shadeFalls s.clk = d at *
  have hboot : d.boot = { s.chip.boot with watchShade := true } := hkeeps.boot
  refine ⟨_, hexec, rfl, rfl, rfl, rfl, ?_, ?_, (congrArg Collector.faultn hdims.col).trans rfl, hkeeps.staged, hkeeps.live⟩
  · show d.boot.watchShade = true
    rw [hboot]
  · have hw : d.boot.watchShade = true := by rw [hboot]
    simp [Chip.shaded, hw]

/-- Settles O53: the recovery clears what it found, an injection lands on its target, and the watchdog halts a shaded part. -/
theorem recoveryInjectionWatch : Obligations.RecoveryInjectionWatch := by
  unfold Obligations.RecoveryInjectionWatch
  refine ⟨fun s hs hi => ⟨fun hdue => exec_automaticRecovery hs hi hdue, fun hdue => ?_⟩,
    fun a tgt bits e s hs hinj => ⟨fun he => injectionLand_lands hs a tgt bits e hinj he, fun he => ?_⟩, fun s hs => exec_watch hs⟩
  · exact congrArg Host.Outcome.next (State.actBoundary_same (if_neg (by simp [hdue])))
  · rw [exec_injectionLand hs a tgt bits e hinj, if_pos he]

/-! ### The I/O rail and the port -/

/-- The port as the loss of the I/O rail leaves it. -/
def Port.unpowered (p : Port) : Port :=
  { p with vioLost := true, inFrame := false, selected := false, stall := .none, held := none, opened := false }

namespace Chip

/-- What a change of the I/O rail leaves: the port is `p`, the source stands or not, and the claim follows. -/
theorem railMoves_spec (c : Chip) (k : Clock) (f : Port → Port) (present : Bool) :
    (((c.onPort f).setCond k 263 present).syncClaim k).port = f c.port ∧
      (((c.onPort f).setCond k 263 present).syncClaim k).col.cond.contains 263 = present ∧
      ((f c.port).vioLost = true → (((c.onPort f).setCond k 263 present).syncClaim k).twin.claim = false) ∧
      (((c.onPort f).setCond k 263 present).syncClaim k).heath.staged = c.heath.staged ∧
      (((c.onPort f).setCond k 263 present).syncClaim k).heath.live = c.heath.live ∧
      (((c.onPort f).setCond k 263 present).syncClaim k).boot = c.boot := by
  have hk : Keeps (c.onPort f) ((c.onPort f).setCond k 263 present) := .setCond _ _ _ (.refl _)
  have hcond := (c.onPort f).contains_setCond k 263 present
  generalize (c.onPort f).setCond k 263 present = d at *
  have hk' : Keeps d (d.syncClaim k) := .syncClaim _ (.refl d)
  have hdims : Dims d (d.syncClaim k) := .syncClaim _ (.refl d)
  refine ⟨hk'.port.trans hk.port, by rw [hdims.col]; exact hcond, fun hlost => ?_, hk'.staged.trans hk.staged, hk'.live.trans hk.live,
    hk'.boot.trans hk.boot⟩
  have hport : d.port.vioLost = true := by rw [hk.port]; exact hlost
  rw [syncClaim_twin]
  show d.wantClaim = false
  unfold wantClaim
  rw [hport]
  rfl

end Chip

/-- Settles O18: the port alone stops and starts with the rail; it is ready at cycle index 10,000 (log 2). -/
theorem ioRailAndPort : Obligations.IoRailAndPort := by
  unfold Obligations.IoRailAndPort
  refine ⟨fun s hrun hvio => ?_, fun s hrun hlost => ?_, fun s hs hready ht => ?_⟩
  · obtain ⟨hport, hcond, hclaim, hst, hlv, hb⟩ := s.chip.railMoves_spec s.clk Port.unpowered true
    have hexec : exec .vioLoss s = .next { s with chip := ((s.chip.onPort Port.unpowered).setCond s.clk 263 true).syncClaim s.clk } :=
      congrArg Host.Outcome.next ((State.act_running s _ hrun).trans (by rw [if_pos hvio]; rfl))
    generalize ((s.chip.onPort Port.unpowered).setCond s.clk 263 true).syncClaim s.clk = d at *
    refine ⟨_, hexec, rfl, rfl, ?_, ?_, Chip.sdo_of_not_selected ?_, ?_, hclaim rfl, hcond, hst, hlv, hb⟩
    · exact congrArg Port.vioLost hport
    · exact congrArg Port.inFrame hport
    · exact congrArg Port.selected hport
    · simp [Chip.portOn, hport, Port.unpowered]
  · obtain ⟨hport, hcond, -, hst, hlv, hb⟩ := s.chip.railMoves_spec s.clk (fun p => { p with vioLost := false, curErr := true }) false
    have hexec : exec .vioReturn s = .next { s with chip :=
        ((s.chip.onPort fun p => { p with vioLost := false, curErr := true }).setCond s.clk 263 false).syncClaim s.clk } :=
      congrArg Host.Outcome.next ((State.act_running s _ hrun).trans (by rw [if_pos hlost]))
    generalize ((s.chip.onPort fun p => { p with vioLost := false, curErr := true }).setCond s.clk 263 false).syncClaim s.clk = d at *
    exact ⟨_, hexec, rfl, rfl, congrArg Port.vioLost hport, congrArg Port.curErr hport, hcond, hst, hlv, hb⟩
  · have hruns : s.Runs (s.toIdx 10000) := (s.toIdx_passes 10000).runs hs.2.2
    have hidx := s.toIdx_idx 10000 (by decide)
    have hrun' := hruns.running hs.1
    obtain ⟨hpend, -, -, -, hk⟩ := hruns
    have hexec : exec .portReady s = .next ((s.toIdx 10000).act fun _ c => c.onPort fun p => { p with
        ready := true, curErr := false, prevErr := false, inFrame := false }) := by
      refine congrArg Host.Outcome.next ?_
      rw [if_pos (by simp [hs.1, hready]), if_pos ht]
    rw [State.act_running _ _ hrun'] at hexec
    exact ⟨_, hexec, hpend, hidx, rfl, rfl, rfl, hk.staged, hk.live, hk.boot⟩

end Sys2Proof.Machine
end

section
/-! PROOFS. Copies of banks (R97, R100), the heath's own check (R483), warm resets (R69, R70), and the outcome of a commit (R73, R93). -/

namespace Sys2Proof.Machine
open Sys2Proof

namespace Chip

/-! ### Revert and snapshot -/

/-- What a revert writes. -/
def RevertOf (c d : Chip) : Prop :=
  d = { c with heath := d.heath, dir := d.dir } ∧
  d.heath.staged = c.heath.live ∧ d.heath.live = c.heath.live ∧ d.heath.status = c.heath.status ∧
  d.heath.snap = c.heath.snap ∧ d.heath.standing = [] ∧ d.dir = { c.dir with revPend := false, revDue := false }
theorem revert_due {c : Chip} (hdue : c.dir.revDue = true) (hw : c.warmActs = false) : RevertOf c c.revert := by
  unfold revert
  rw [if_pos (by simp [hdue, hw])]
  exact ⟨rfl, rfl, rfl, rfl, rfl, rfl, rfl⟩
theorem revert_none {c : Chip} (h : c.dir.revDue = false) : c.revert = c := if_neg (by simp [h])
theorem snapshot_none {c : Chip} (k : Clock) (h : c.dir.snapDue = false) : c.snapshot k = c := if_pos (by simp [h])
/-- What a snapshot writes. -/
def SnapshotOf (k : Clock) (c d : Chip) : Prop :=
  d.heath.snap = c.heath.statusEnd ∧ d.heath.statusEnd = c.heath.statusEnd ∧ d.heath.staged = c.heath.staged ∧
  d.heath.live = c.heath.live ∧ d.boot = c.boot ∧ d.port = c.port ∧
  d.dir.snapPend = (c.dir.snapPend && !c.dir.reqDue) ∧ d.dir.snapTick = k.tick ∧ d.dir.snapSeq = wrapAdd 16 c.dir.snapSeq 1 ∧
  d.dir.revPend = c.dir.revPend ∧ d.dir.hostSchema = c.dir.hostSchema
theorem snapshot_due {c : Chip} (k : Clock) (h : c.dir.snapDue = true) : SnapshotOf k c (c.snapshot k) := by
  unfold snapshot
  rw [if_neg (by simp [h])]
  dsimp only
  split
  · exact ⟨rfl, rfl, rfl, rfl, rfl, rfl, rfl, rfl, rfl, rfl, rfl⟩
  · exact ⟨rfl, rfl, rfl, rfl, rfl, rfl, rfl, rfl, rfl, rfl, rfl⟩

/-! ### The heath's own check -/

section
variable {c : Chip} {bank a : Nat} (hu : ∀ u ∈ c.heath.upsets, ¬ (u.bank = bank ∧ u.addr = a))
include hu

/-- No upset is known at the word. -/
theorem find_upset_none : c.heath.upsets.find? (fun u => u.bank == bank && u.addr == a) = none :=
  List.find?_eq_none.mpr fun u hm hp => hu u hm (by simpa using hp)
theorem filter_upsets : c.heath.upsets.filter (fun u => !(u.bank == bank && u.addr == a)) = c.heath.upsets :=
  List.filter_eq_self.mpr fun u hm => by
    have := hu u hm
    simpa [imp_iff_not_or] using this
theorem map_upsets : c.heath.upsets.map (fun v => if v.bank == bank && v.addr == a then { v with found := true } else v) = c.heath.upsets :=
  (List.map_congr_left fun u hm => if_neg (by have := hu u hm; simpa using this)).trans (List.map_id _)
theorem any_upset : c.heath.upsets.any (fun u => u.bank == bank && u.addr == a && u.found) = false :=
  List.any_eq_false.mpr fun u hm h => by
    have := hu u hm
    simp_all

/-- The check of a word without known errors. -/
theorem heathCheck_eq (k : Clock) {ws : WSpec} (h : wordSpec a = some ws) (hst : ws.kind = .st) (ha : addrError a = 0) (fresh : Nat) :
    c.heathCheck k bank a fresh = (if fresh = 0 then c
      else c.onHeath fun h => { h with upsets := ⟨bank, a, min 2 fresh, false⟩ :: c.heath.upsets }).meetEcc k bank a := by
  unfold heathCheck
  rw [h]
  dsimp only
  rw [if_pos ⟨hst, ha⟩]
  have hat : c.upsetAt bank a = 0 := by unfold upsetAt; rw [find_upset_none hu]; rfl
  rw [hat, any_upset hu, Nat.zero_add]
  split
  · rfl
  · have hfil := filter_upsets hu
    unfold onHeath
    dsimp only
    rw [hfil]
theorem meetEcc_none (k : Clock) : c.meetEcc k bank a = c := by
  unfold meetEcc
  rw [find_upset_none hu]
/-- A single errored bit is corrected and counted. -/
theorem meetEcc_one (k : Clock) : (c.onHeath fun h => { h with upsets := ⟨bank, a, 1, false⟩ :: c.heath.upsets }).meetEcc k bank a = { c with
    heath := { c.heath with fixedNow := true }
    dir := { c.dir with eccFix := min 65535 (c.dir.eccFix + 1) } } := by
  unfold meetEcc
  have hfind : (c.onHeath fun h => { h with upsets := ⟨bank, a, 1, false⟩ :: c.heath.upsets }).heath.upsets.find?
      (fun u => u.bank == bank && u.addr == a) = some ⟨bank, a, 1, false⟩ := by simp
  rw [hfind]
  dsimp only
  rw [if_pos rfl]
  have hfil := filter_upsets hu
  unfold onHeath onDir
  dsimp only
  rw [List.filter_cons_of_neg (by simp), hfil]
/-- An uncorrectable word is found. -/
theorem meetEcc_two (k : Clock) : (c.onHeath fun h => { h with upsets := ⟨bank, a, 2, false⟩ :: c.heath.upsets }).meetEcc k bank a =
    let d := c.onHeath fun h => { h with upsets := ⟨bank, a, 2, true⟩ :: c.heath.upsets }
    if bank = 1 then d.srcEvent k 240 else if bank = 0 then d.restand k (some a) else d := by
  unfold meetEcc
  have hfind : (c.onHeath fun h => { h with upsets := ⟨bank, a, 2, false⟩ :: c.heath.upsets }).heath.upsets.find?
      (fun u => u.bank == bank && u.addr == a) = some ⟨bank, a, 2, false⟩ := by simp
  rw [hfind]
  dsimp only
  rw [if_neg (by decide), if_neg (by decide)]
  have hmap := map_upsets hu
  unfold onHeath
  dsimp only
  rw [List.map_cons, hmap]
  simp

end
end Chip

/-- The heath's check of a word without known errors. -/
theorem heathScrub_word (b : Fin 2) (a : Nat) (n : Fin 3) (s : State) (hs : s.serving) (hst : stWord a) (ha : addrError a = 0)
    (hu : ∀ u ∈ s.chip.heath.upsets, ¬ (u.bank = b.val ∧ u.addr = a)) :
    ∃ t, exec (.heathScrub b a n) s = .next t ∧ s.Holds t ∧ (n = 0 → t = s) ∧
      (n = 1 → t.chip.dir.eccFix = min 65535 (s.chip.dir.eccFix + 1) ∧ t.chip.heath.upsets = s.chip.heath.upsets ∧
        t.chip.win = s.chip.win ∧ t.chip.col = s.chip.col) ∧
      (n = 2 → t.chip.dir.eccFix = s.chip.dir.eccFix ∧ t.chip.heath.upsets = ⟨b.val, a, 2, true⟩ :: s.chip.heath.upsets) := by
  obtain ⟨ws, hws, hkind⟩ := hst
  have hexec : exec (.heathScrub b a n) s = .next { s with chip := s.chip.heathCheck s.clk b.val a n.val } :=
    congrArg Host.Outcome.next (hs.act _)
  refine ⟨_, hexec, State.holds_chip ((Chip.Keeps.refl _).heathCheck _ _ _ _), fun h0 => ?_, fun h1 => ?_, fun h2 => ?_⟩
  · subst h0
    rw [Chip.heathCheck_eq hu s.clk hws hkind ha]
    exact congrArg (fun c => { s with chip := c }) (Chip.meetEcc_none hu s.clk)
  · subst h1
    rw [Chip.heathCheck_eq hu s.clk hws hkind ha]
    have h := Chip.meetEcc_one hu s.clk
    rw [show (1 : Fin 3).val = 1 from rfl, if_neg (by decide), show min 2 1 = 1 from rfl, h]
    exact ⟨rfl, rfl, rfl, rfl⟩
  · subst h2
    rw [Chip.heathCheck_eq hu s.clk hws hkind ha]
    have h := Chip.meetEcc_two hu s.clk
    rw [show (2 : Fin 3).val = 2 from rfl, if_neg (by decide), show min 2 2 = 2 from rfl, h]
    dsimp only
    generalize hd : s.chip.onHeath (fun h => { h with upsets := ⟨b.val, a, 2, true⟩ :: s.chip.heath.upsets }) = d
    have hdir : d.dir = s.chip.dir := by rw [← hd]; rfl
    have hup : d.heath.upsets = ⟨b.val, a, 2, true⟩ :: s.chip.heath.upsets := by rw [← hd]; rfl
    rw [← hdir, ← hup]
    split
    · have hcalm : Chip.Calm d (d.srcEvent s.clk 240) := .srcEvent _ _ (by decide) (.refl d)
      have hheath := congrArg Heath.upsets hcalm.heath
      exact ⟨congrArg Dir.eccFix hcalm.dir, hheath⟩
    · split
      · obtain ⟨l, hl⟩ := d.restand_form s.clk (some a)
        rw [hl]
        exact ⟨rfl, rfl⟩
      · exact ⟨rfl, rfl⟩

/-- Settles O35: revert and snapshot are the copies that fall due, and the check meets what it finds. -/
theorem revertSnapshotScrub : Obligations.RevertSnapshotScrub := by
  unfold Obligations.RevertSnapshotScrub
  refine ⟨fun s hrun hi hdue hw => ?_, fun s hrun hi hdue => ?_, heathScrub_word, fun s hrev hsnap => ⟨?_, ?_⟩⟩
  · have hexec : exec .revertPerform s = .next { s with chip := s.chip.revert } :=
      congrArg Host.Outcome.next (State.actBoundary_running s _ hrun hi)
    obtain ⟨hd, h⟩ := Chip.revert_due hdue hw
    generalize s.chip.revert = d at hexec hd h
    exact ⟨_, hexec, congrArg (fun c => { s with chip := c }) hd, h⟩
  · have hexec : exec .snapshot s = .next { s with chip := s.chip.snapshot s.clk } :=
      congrArg Host.Outcome.next (State.actBoundary_running s _ hrun hi)
    have h := Chip.snapshot_due s.clk hdue
    generalize s.chip.snapshot s.clk = d at hexec h
    exact ⟨_, hexec, rfl, rfl, h⟩
  · exact congrArg Host.Outcome.next (State.actBoundary_same (Chip.revert_none hrev))
  · exact congrArg Host.Outcome.next (State.actBoundary_same (Chip.snapshot_none _ hsnap))

/-! ### Warm resets -/

namespace Chip

theorem wctlFlags_keep (c : Chip) (k : Clock) (v : Word) :
    ∃ w, c.wctlFlags k v = { c with win := w } ∧ w.haddr = c.win.haddr ∧ w.imask = c.win.imask := by
  unfold wctlFlags
  dsimp only
  split <;> exact ⟨_, rfl, rfl, rfl⟩

/-- Only status words change. -/
def OnlyStatus (z c : Chip) : Prop := ∃ b, c = z.withStatus b

namespace OnlyStatus
variable {z c : Chip}

theorem refl (z : Chip) : OnlyStatus z z := ⟨z.heath.status, rfl⟩
theorem setSt (f : Fld) (r v : Nat) (h : OnlyStatus z c) : OnlyStatus z (c.setSt f r v) := by
  obtain ⟨b, rfl⟩ := h
  exact ⟨_, rfl⟩
theorem foldl {α : Type} (l : List α) {f : Chip → α → Chip} (h : OnlyStatus z c)
    (hf : ∀ a x, OnlyStatus z a → OnlyStatus z (f a x)) : OnlyStatus z (l.foldl f c) := by
  induction l generalizing c with
  | nil => exact h
  | cons x l ih => exact ih (hf _ _ h)
theorem syncOut (o : Nat) (h : OnlyStatus z c) : OnlyStatus z (c.syncOut o) := by
  unfold Chip.syncOut
  dsimp only
  split
  · exact h.setSt _ _ _
  · exact (h.setSt _ _ _).setSt _ _ _

end OnlyStatus

/-- What the reset actions of a warm reset leave and write. -/
structure WarmOf (z c : Chip) : Prop where
  warm : c.win.warm = .acted
  imask : c.win.imask = 0x0003FFFF#32
  haddr : c.win.haddr = 0#32
  pend : c.win.pend = false
  staged : c.heath.staged = []
  live : c.heath.live = keepTabs z.heath.live fun t => t == 0x50 || t == 0x58 || t == 0x59
  slock : c.dir.slock = false
  role : c.twin.role = .solo
  port : c.port = z.port
  tim : c.tim = z.tim
  dpll : c.dpll = z.dpll
  boot : c.boot = { z.boot with suShade := true }
  drop : c.drop = z.drop.map fun d => { barrier := d.barrier }

theorem WarmOf.onlyStatus {z c d : Chip} (h : WarmOf z c) (hd : OnlyStatus c d) : WarmOf z d := by
  obtain ⟨b, rfl⟩ := hd
  exact ⟨h.warm, h.imask, h.haddr, h.pend, h.staged, h.live, h.slock, h.role, h.port, h.tim, h.dpll, h.boot, h.drop⟩
theorem WarmOf.calm {z c d : Chip} (h : WarmOf z c) (hd : Calm c d) : WarmOf z d where
  warm := (congrArg Window.warm hd.win).trans h.warm
  imask := (congrArg Window.imask hd.win).trans h.imask
  haddr := (congrArg Window.haddr hd.win).trans h.haddr
  pend := (congrArg Window.pend hd.win).trans h.pend
  staged := hd.staged.trans h.staged
  live := hd.live.trans h.live
  slock := (congrArg Dir.slock hd.dir).trans h.slock
  role := (congrArg Twin.role hd.twin).trans h.role
  port := hd.port.trans h.port
  tim := hd.tim.trans h.tim
  dpll := hd.dpll.trans h.dpll
  boot := hd.boot.trans h.boot
  drop := hd.drop.trans h.drop

/-- The window's wish for INT_N changes nothing else that a warm reset writes. -/
theorem WarmOf.rewant {z c : Chip} (h : WarmOf z c) (k : Clock) : WarmOf z (c.onWin fun w => w.rewant k) :=
  ⟨h.warm, h.imask, h.haddr, h.pend, h.staged, h.live, h.slock, h.role, h.port, h.tim, h.dpll, h.boot, h.drop⟩

theorem warmReset_of (z : Chip) (k : Clock) : WarmOf z (z.warmReset k) := by
  unfold warmReset
  extract_lets keep boot pow x x₁ x₂ x₃
  have h₀ : WarmOf z x := ⟨rfl, rfl, rfl, rfl, rfl, rfl, rfl, rfl, rfl, rfl, rfl, rfl, rfl⟩
  have h₁ : OnlyStatus x x₁ := .foldl _ (.refl x) fun _ _ ha => ha.setSt _ _ _
  have h₂ : OnlyStatus x x₂ := (h₁.setSt _ _ _).setSt _ _ _
  have h₃ : OnlyStatus x x₃ := .foldl _ h₂ fun _ o ha => ha.syncOut o
  exact ((h₀.onlyStatus h₃).rewant k).calm (.reshade k _ (.refl _))

theorem WarmOf.shaded {z c : Chip} (h : WarmOf z c) : c.shaded = true := by simp [Chip.shaded, h.warm]
theorem WarmOf.ps {z c : Chip} (h : WarmOf z c) (d : Nat) : (c.d d).ps = .off := by
  unfold Chip.d vget
  rw [h.drop, Vector.getElem?_map]
  cases z.drop[d]? <;> rfl

end Chip

/-- A word of a bank of which some tables are kept. -/
theorem find_keepTabs (b : Bank) (p : Nat → Bool) (a : Nat) : (keepTabs b p).find a = if p (tabOf a) then b.find a else none := by
  induction b with
  | nil => simp [keepTabs, Bank.find]
  | cons x r ih =>
    obtain ⟨e, w⟩ := x
    have hcons : keepTabs ((e, w) :: r) p = if p (tabOf e) then (e, w) :: keepTabs r p else keepTabs r p := List.filter_cons
    rw [hcons]
    by_cases hea : e = a
    · subst hea
      by_cases hp : p (tabOf e) = true
      · simp [hp, Bank.find]
      · simpa [hp] using ih
    · by_cases hp : p (tabOf e) = true
      · simpa [hp, Bank.find, hea] using ih
      · simpa [hp, Bank.find, hea] using ih
theorem read_keepTabs (b : Bank) (p : Nat → Bool) (a : Nat) :
    Bank.read (keepTabs b p) a = if p (tabOf a) then b.read a else resetWord a := by
  unfold Bank.read
  rw [find_keepTabs]
  by_cases hp : p (tabOf a) = true
  · rw [if_pos hp, if_pos hp]
  · rw [if_neg hp, if_neg hp]

/-- A request for a warm reset. -/
theorem warmResetRequest_spec (b : Beat) (s : State) (hs : s.serving) (hg : s.chip.goodWrite b) (hr : s.chip.reach b = 2)
    (hv : b.data.toNat / 2 ^ 24 = 0xA3) (hw : s.chip.win.warm = .idle) :
    ∃ t, exec (.warmResetRequest b) s = .next t ∧ s.OnlyWindow t ∧ t.chip.win.warm = .asked ∧ t.chip.win.warmIn = 1 ∧
      t.chip.win.haddr = s.chip.win.haddr ∧ t.chip.win.imask = s.chip.win.imask := by
  have hexec : exec (.warmResetRequest b) s = .next { s with chip := s.chip.beat s.clk b } :=
    congrArg Host.Outcome.next (hs.beat_eq b (by rw [hg.2.1, hr, hv]; rfl))
  obtain ⟨p, q, -, -, -, hbeat⟩ := Chip.beat_writeReg s.clk hg (by omega) (by omega) (by omega)
  rw [hr] at hbeat
  generalize hc : ({ s.chip with port := p } : Chip) = c at hbeat
  have hidle : (c.wctlFlags s.clk b.data).win.warm = .idle := by rw [Chip.wctlFlags_warm, ← hc]; exact hw
  have hwrite : c.writeReg s.clk 2 b.data = (c.wctlFlags s.clk b.data).onWin fun w => { w with warm := .asked, warmIn := 1 } :=
    (c.wctlWrite_eq s.clk b.data).trans ((if_pos (.inl hv)).trans (if_pos ⟨hv, hidle⟩))
  obtain ⟨w, hform, hhaddr, himask⟩ := c.wctlFlags_keep s.clk b.data
  rw [hwrite, hform] at hbeat
  subst hc
  refine ⟨_, hexec, ?_⟩
  rw [hbeat]
  exact ⟨rfl, rfl, rfl, hhaddr, himask⟩

/-- Settles O33: the reset actions build the reset chip around what stays; completion sets WARMDONE. -/
theorem warmReset : Obligations.WarmReset := by
  unfold Obligations.WarmReset
  refine ⟨warmResetRequest_spec, fun s hrun hi hask hin => ?_, fun s hrun hi hact hin => ?_⟩
  · have hexec : exec .warmResetActions s = .next { s with chip := s.chip.warmReset s.clk } :=
      (congrArg Host.Outcome.next (State.actBoundary_running s _ hrun hi)).trans
        (congrArg (fun c => Host.Outcome.next { s with chip := c }) (if_pos (by simp [Chip.warmActs, hask, hin])))
    have h := Chip.warmReset_of s.chip s.clk
    generalize s.chip.warmReset s.clk = d at hexec h
    refine ⟨_, hexec, rfl, rfl, h.warm, h.staged, fun a => ?_, h.imask, h.haddr, h.pend, h.slock, h.role, h.shaded, h.port, h.tim, h.dpll,
      h.boot, h.ps⟩
    show d.heath.live.read a = _
    rw [h.live, read_keepTabs]
    simp only [Bool.or_eq_true, beq_iff_eq, or_assoc]
  · have hexec : exec .warmResetComplete s = .next { s with chip := s.chip.warmDone s.clk } :=
      congrArg Host.Outcome.next (State.actBoundary_running s _ hrun hi)
    generalize hd : (s.chip.onWin fun w => { w with warm := .idle }).onBoot (fun b => { b with warms := satAdd 16 b.warms 1 }) = d
    have hdone : s.chip.warmDone s.clk = (d.icause s.clk 16).reshade s.clk s.chip.shaded := by
      rw [← hd]
      exact if_pos ⟨hact, hin⟩
    rw [hdone] at hexec
    have hcause : (d.icause s.clk 16).win.icause.getLsbD 16 = true := by rw [Chip.icause_bits]; simp [word]
    have hwarm : d.win.warm = .idle := by rw [← hd]; rfl
    have h₁ : Chip.Calm d (d.icause s.clk 16) := .icause _ _ (.refl d)
    have h₂ : Chip.Calm (d.icause s.clk 16) ((d.icause s.clk 16).reshade s.clk s.chip.shaded) := .reshade _ _ (.refl _)
    generalize (d.icause s.clk 16).reshade s.clk s.chip.shaded = e at hexec h₂
    have h := h₁.trans h₂
    have hboot : d.boot = { s.chip.boot with warms := satAdd 16 s.chip.boot.warms 1 } := by rw [← hd]; rfl
    have hheath : d.heath = s.chip.heath := by rw [← hd]; rfl
    have hport : d.port = s.chip.port := by rw [← hd]; rfl
    exact ⟨_, hexec, rfl, rfl, (congrArg Window.warm h.win).trans hwarm, h₂.causes 16 hcause, h.boot.trans hboot,
      h.staged.trans (congrArg Heath.staged hheath), h.live.trans (congrArg Heath.live hheath), h.port.trans hport⟩

end Sys2Proof.Machine
end

section
/-! PROOFS. What passing edges, the work that opens a tick, and the operations on one drop leave (`Chip.Flow`): the other drops, the
requests and roles of the twin engine, the window's commit, DIR, the timed outputs, the references, and the windows done in the tick. -/

namespace Sys2Proof.Machine
open Sys2Proof
set_option linter.unusedTactic false
set_option linter.unreachableTactic false

/-- The window without its interrupt side. -/
def Window.still (w : Window) : Window := { w.core with glint := 0#32, tsec := 0#32, glintEvc := 0 }
/-- The twin engine without its claim and its descriptors' numbers. -/
def Twin.still (t : Twin) : Twin := { t.core with lossNow := false, nextSeq := 0 }
/-- DIR without the count of corrected words. -/
def Dir.still (d : Dir) : Dir := { d with eccFix := 0 }
/-- A pair without what its requests select. -/
def Aps.still (a : Aps) : Aps := { a with want := false, wantAt := 0, wantWas := false, differ := none }
/-- The time engine without its captures and its lost records. -/
def TimeEng.still (t : TimeEng) : TimeEng := { t with fired := [], taken := [], tqLost := false }

/-- Status fields that neither passing edges nor the drops write. -/
def lastingFields : List Fld := [TIME.OUT_FIRES, TIME.PPS_PULSES, TWIN.PEERCOMPAT]
/-- A field that lies apart from them. -/
def Fld.moving (f : Fld) : Bool := f.fits && lastingFields.all fun g => g.tab != f.tab || g.apart f

/-- The rows of table TIME that hold the outputs, and every row of the other tables. -/
def lastingRow (f : Fld) (r : Nat) : Prop := r < 4096 ∧ (f.tab = 0x50 → 6 ≤ r ∧ r ≤ 14)

theorem lastingFields_fit : ∀ g ∈ lastingFields, g.fits = true := by decide
theorem lastingFields_steady : ∀ g ∈ lastingFields, g.steady = true := by decide

namespace Chip

theorem vupd_out {α : Type} {n : Nat} (v : Vector α n) (i j : Nat) (f : α → α) (d : α) (h : n ≤ j) : vget (vupd v i f) j d = vget v j d := by
  unfold vget
  rw [Vector.getElem?_eq_none h, Vector.getElem?_eq_none h]

/-- From `z` to `c` the drops outside `D` stay, and so do the parts that passing edges leave. -/
structure Flow (D : Nat → Prop) (z c : Chip) : Prop extends Keeps z c where
  drops : ∀ e, ¬ D e → c.d e = z.d e
  done : c.done = z.done
  dpll : c.dpll = z.dpll
  pairs : ∀ p, (c.pair p).still = (z.pair p).still
  outNext : c.mead.outNext = z.mead.outNext
  absentNext : c.mead.absentNext = z.mead.absentNext
  tim : c.tim.still = z.tim.still
  twin : c.twin.still = z.twin.still
  win : c.win.still = z.win.still
  dir : c.dir.still = z.dir.still
  stat : z.heath.status.wf = true → ∀ f ∈ lastingFields, ∀ r, lastingRow f r → c.st f r = z.st f r

namespace Flow
variable {D : Nat → Prop}

theorem refl (z : Chip) : Flow D z z :=
  { Keeps.refl z with
    drops := fun _ _ => rfl, done := rfl, dpll := rfl, pairs := fun _ => rfl, outNext := rfl, absentNext := rfl, tim := rfl, twin := rfl
    win := rfl, dir := rfl, stat := fun _ _ _ _ _ => rfl }
theorem trans {a b c : Chip} (h : Flow D a b) (g : Flow D b c) : Flow D a c :=
  { h.toKeeps.trans g.toKeeps with
    drops := fun e he => (g.drops e he).trans (h.drops e he), done := g.done.trans h.done, dpll := g.dpll.trans h.dpll
    pairs := fun p => (g.pairs p).trans (h.pairs p), outNext := g.outNext.trans h.outNext, absentNext := g.absentNext.trans h.absentNext
    tim := g.tim.trans h.tim, twin := g.twin.trans h.twin, win := g.win.trans h.win, dir := g.dir.trans h.dir
    stat := fun hw f hf r hr => (g.stat (h.wf hw) f hf r hr).trans (h.stat hw f hf r hr) }
theorem ofCalm {z c : Chip} (h : Calm z c) : Flow D z c :=
  { h.toQuiet.toKeeps with
    drops := fun e _ => congrArg (fun v => vget v e ({} : Drop)) h.drop, done := h.done, dpll := h.dpll
    pairs := fun p => congrArg (fun v => Aps.still (vget v p ({} : Aps))) h.aps, outNext := congrArg Meadow.outNext h.mead
    absentNext := congrArg Meadow.absentNext h.mead, tim := congrArg TimeEng.still h.tim
    twin := congrArg (fun t : Twin => { t with lossNow := false, nextSeq := 0 }) h.twin
    win := congrArg (fun w : Window => { w with glint := 0#32, tsec := 0#32, glintEvc := 0 }) h.win
    dir := congrArg Dir.still h.dir, stat := fun hw f hf r hr => h.stat hw f r (lastingFields_steady f hf) hr.1 }
theorem calm {z c d : Chip} (h : Flow D z c) (g : Calm c d) : Flow D z d := h.trans (ofCalm g)
theorem ite {z a b : Chip} {p : Prop} [Decidable p] (ha : Flow D z a) (hb : Flow D z b) : Flow D z (if p then a else b) := by
  split <;> assumption
theorem iteElse {z a c : Chip} {p : Prop} [Decidable p] (h : Flow D z c) (ha : Flow D z c → Flow D z a) :
    Flow D z (if p then a else c) := ite (ha h) h
theorem foldl {z c : Chip} {α : Type} (l : List α) {f : Chip → α → Chip} (h : Flow D z c)
    (hf : ∀ a, ∀ x ∈ l, Flow D z a → Flow D z (f a x)) : Flow D z (l.foldl f c) := by
  induction l generalizing c with
  | nil => exact h
  | cons x r ih => exact ih (hf c x (List.mem_cons_self ..) h) fun a y hy => hf a y (List.mem_cons_of_mem _ hy)
theorem overN {z c : Chip} (n : Nat) {f : Nat → Chip → Chip} (h : Flow D z c)
    (hf : ∀ i, i < n → ∀ a, Flow D z a → Flow D z (f i a)) : Flow D z (overN n f c) :=
  foldl _ h fun a x hx ha => hf x (List.mem_range.mp hx) a ha

/-! ### One rule for each operation on the state -/

theorem onQ {z c : Chip} (i : Nat) (f : Queue → Queue) (h : Flow D z c) : Flow D z (c.onQ i f) :=
  h.trans { (Keeps.refl c).onQ i f, refl (D := D) c with }
theorem onU {z c : Chip} (i : Nat) (f : Uplink → Uplink) (h : Flow D z c) : Flow D z (c.onU i f) :=
  h.trans { (Keeps.refl c).onU i f, refl (D := D) c with }
theorem onT {z c : Chip} (i : Nat) (f : Trib → Trib) (h : Flow D z c) : Flow D z (c.onT i f) :=
  h.trans { (Keeps.refl c).onT i f, refl (D := D) c with }
theorem onPow {z c : Chip} (f : Power → Power) (h : Flow D z c) : Flow D z (c.onPow f) :=
  h.trans { (Keeps.refl c).onPow f, refl (D := D) c with }
theorem onCol {z c : Chip} (f : Collector → Collector) (h : Flow D z c) : Flow D z (c.onCol f) :=
  h.trans { (Keeps.refl c).onCol f, refl (D := D) c with }
theorem onSide {z c : Chip} (p : Nat) (rx : Bool) (f : ASide → ASide) (h : Flow D z c) : Flow D z (c.onSide p rx f) :=
  h.trans { (Keeps.refl c).onSide p rx f, refl (D := D) c with }
theorem draw {z c : Chip} (h : Flow D z c) : Flow D z c.draw.2 := h.trans { (Keeps.refl c).draw, refl (D := D) c with }
theorem draw_eq {z c y : Chip} {a} (e : c.draw = (a, y)) (h : Flow D z c) : Flow D z y := by
  have := Flow.draw h; rw [e] at this; exact this
theorem onD {z c : Chip} (i : Nat) (f : Drop → Drop) (hD : D i) (h : Flow D z c) : Flow D z (c.onD i f) :=
  h.trans { (Keeps.refl c).onD i f, refl (D := D) c with drops := fun e he => d_onD_other c i e f fun ei => he (ei ▸ hD) }
theorem onP {z c : Chip} (i : Nat) (f : Aps → Aps) (hf : ∀ x, (f x).still = x.still) (h : Flow D z c) : Flow D z (c.onP i f) :=
  h.trans { (Keeps.refl c).onP i f, refl (D := D) c with
    pairs := fun p => by
      by_cases hp : p = i
      · subst hp
        by_cases hl : p < 2
        · rw [pair_onP_same c p f hl, hf]
        · exact congrArg Aps.still (vupd_out _ _ _ _ _ (by omega))
      · rw [pair_onP_other c i p f hp] }
theorem onM {z c : Chip} (f : Meadow → Meadow) (hf : ∀ x, (f x).outNext = x.outNext ∧ (f x).absentNext = x.absentNext) (h : Flow D z c) :
    Flow D z (c.onM f) :=
  h.trans { (Keeps.refl c).onM f, refl (D := D) c with outNext := (hf _).1, absentNext := (hf _).2 }
theorem onDir {z c : Chip} (f : Dir → Dir) (hf : ∀ x, (f x).still = x.still) (h : Flow D z c) : Flow D z (c.onDir f) :=
  h.trans { (Keeps.refl c).onDir f, refl (D := D) c with dir := hf _ }
theorem onTime {z c : Chip} (f : TimeEng → TimeEng) (hf : ∀ x, (f x).still = x.still) (h : Flow D z c) : Flow D z (c.onTime f) :=
  h.trans { (Keeps.refl c).onTime f, refl (D := D) c with tim := hf _ }
theorem onTwin {z c : Chip} (f : Twin → Twin) (hf : ∀ x, (f x).still = x.still) (h : Flow D z c) : Flow D z (c.onTwin f) :=
  h.trans { (Keeps.refl c).onTwin f, refl (D := D) c with twin := hf _ }
theorem onHeath {z c : Chip} {f : Heath → Heath} (h : Flow D z c) (hf : ∀ x, (f x).staged = x.staged ∧ (f x).live = x.live ∧
    (f x).snap = x.snap ∧ (f x).statusEnd = x.statusEnd ∧ (f x).status = x.status) : Flow D z (c.onHeath f) :=
  h.trans { (Keeps.refl c).onHeath hf, refl (D := D) c with
    stat := fun _ g _ r _ => congrArg (fun b : Bank => b.fld g r) (hf c.heath).2.2.2.2 }
theorem icause {z c : Chip} (k : Clock) (n : Nat) (h : Flow D z c) : Flow D z (c.icause k n) := h.calm (.icause k n (.refl c))
theorem markEvent {z c : Chip} (a : Nat) (w : Word) (h : Flow D z c) : Flow D z (c.markEvent a w) := h.calm (.markEvent (.refl c) a w)
theorem moving_apart {f g : Fld} (hf : f.moving = true) (hg : g ∈ lastingFields) : g.tab ≠ f.tab ∨ g.apart f = true := by
  simp only [Fld.moving, Bool.and_eq_true, List.all_eq_true, Bool.or_eq_true, bne_iff_ne] at hf
  exact hf.2 g hg
theorem moving_fits {f : Fld} (hf : f.moving = true) : f.fits = true := by
  simp only [Fld.moving, Bool.and_eq_true] at hf
  exact hf.1
theorem withStatus {z c : Chip} (b : Bank) (hk : Keeps c (c.withStatus b))
    (hs : c.heath.status.wf = true → ∀ f ∈ lastingFields, ∀ r, lastingRow f r → (c.withStatus b).st f r = c.st f r) (h : Flow D z c) :
    Flow D z (c.withStatus b) :=
  h.trans { hk, refl (D := D) c with stat := hs }
theorem setSt {z c : Chip} (f : Fld) (r v : Nat) (hf : f.moving = true) (hr : r < 4096) (h : Flow D z c) : Flow D z (c.setSt f r v) := by
  refine withStatus _ ((Keeps.refl c).setSt f r v) (fun hw g hg q hq => ?_) h
  exact st_setSt_other v hw (lastingFields_fit g hg) (moving_fits hf) hq.1 hr ((moving_apart hf hg).imp_right .inr)
/-- A row of table TIME below or above the outputs'. -/
theorem setSt_row {z c : Chip} (f : Fld) (r v : Nat) (hf : f.fits = true) (ht : f.tab = 0x50) (hr : r < 6 ∨ 14 < r ∧ r < 4096) (h : Flow D z c) :
    Flow D z (c.setSt f r v) := by
  refine withStatus _ ((Keeps.refl c).setSt f r v) (fun hw g hg q hq => ?_) h
  obtain ⟨hq, hrow⟩ := hq
  refine st_setSt_other v hw (lastingFields_fit g hg) hf hq (by omega) ?_
  by_cases hgt : g.tab = 0x50
  · have := hrow hgt
    exact .inr (.inl (by omega))
  · exact .inl (by rw [ht]; exact hgt)
theorem addSt_row {z c : Chip} (f : Fld) (r v : Nat) (hf : f.fits = true) (ht : f.tab = 0x50) (hr : r < 6 ∨ 14 < r ∧ r < 4096) (h : Flow D z c) :
    Flow D z (c.addSt f r v) := setSt_row f r _ hf ht hr h
theorem cause_row {z c : Chip} (k : Clock) (g : CauseReg) (r b : Nat) (hf : g.cause.fits = true) (ht : g.cause.tab = 0x50)
    (hr : r < 6 ∨ 14 < r ∧ r < 4096) (h : Flow D z c) : Flow D z (c.cause k g r b) := by
  have hor : Flow D z (c.orSt g.cause r b) := by
    unfold Chip.orSt
    exact (setSt_row g.cause r _ hf ht hr h).markEvent _ _
  exact ite hor (icause _ _ hor)
theorem addSt {z c : Chip} (f : Fld) (r v : Nat) (hf : f.moving = true) (hr : r < 4096) (h : Flow D z c) : Flow D z (c.addSt f r v) :=
  setSt f r _ hf hr h
theorem satSt {z c : Chip} (f : Fld) (r v : Nat) (hf : f.moving = true) (hr : r < 4096) (h : Flow D z c) : Flow D z (c.satSt f r v) :=
  setSt f r _ hf hr h
theorem orSt {z c : Chip} (f : Fld) (r v : Nat) (hf : f.moving = true) (hr : r < 4096) (h : Flow D z c) : Flow D z (c.orSt f r v) := by
  unfold Chip.orSt
  exact (setSt f r _ hf hr h).markEvent _ _
theorem cause {z c : Chip} (k : Clock) (g : CauseReg) (r b : Nat) (hf : g.cause.moving = true) (hr : r < 4096) (h : Flow D z c) :
    Flow D z (c.cause k g r b) :=
  ite (orSt _ _ _ hf hr h) (icause _ _ (orSt _ _ _ hf hr h))
theorem causeIf {z c : Chip} (k : Clock) (g : CauseReg) (r b : Nat) (hf : g.cause.moving = true) (hr : r < 4096) (h : Flow D z c) :
    Flow D z (c.causeIf k g r b) :=
  ite h (cause _ _ _ _ hf hr h)
theorem qReg_moving (i : Nat) : (qReg i).cause.moving = true := by unfold qReg; split <;> rfl

theorem settleList_still (k : Clock) : ∀ (l : List (Nat × Bool)) (w : Window), (Window.settleList k l w).still = w.still
  | [], _ => rfl
  | (t, b) :: r, w => by
    unfold Window.settleList
    split
    · rw [settleList_still k r]
      unfold Window.reach
      split <;> rfl
    · rfl
theorem settle {z c : Chip} (k : Clock) (h : Flow D z c) : Flow D z (c.settle k) :=
  h.trans { (Keeps.refl c).settle k, refl (D := D) c with win := (settleList_still k _ _).trans rfl }

/-! ### Events and what they reach -/

theorem srcEvent {z c : Chip} (k : Clock) (s : Nat) (hs : s < 384) (h : Flow D z c) : Flow D z (c.srcEvent k s) := h.calm (.srcEvent k s hs (.refl c))
theorem setCond {z c : Chip} (k : Clock) (s : Nat) (b : Bool) (hs : s < 384) (h : Flow D z c) : Flow D z (c.setCond k s b) :=
  h.calm (.setCond k s b hs (.refl c))
theorem qRewound {z c : Chip} (k : Clock) (i : Nat) (hi : i < 4096) (h : Flow D z c) : Flow D z (c.qRewound k i) := h.calm (.qRewound k i hi (.refl c))
theorem qReturn {z c : Chip} (k : Clock) (i : Nat) (h : Flow D z c) : Flow D z (c.qReturn k i) := by
  by_cases hi : i < 12
  · exact h.calm (.qReturn k i (by omega) (.refl c))
  · have hq : c.q i = {} := by
      unfold q vget
      rw [Vector.getElem?_eq_none (by omega)]
      rfl
    rw [Chip.qReturn, hq]
    exact h
theorem setBlk {z c : Chip} (b : Nat) (s : PwrState) (h : Flow D z c) : Flow D z (c.setBlk b s) := h.calm (.setBlk b s (.refl c))
theorem endWakes {z c : Chip} (e : Nat) (h : Flow D z c) : Flow D z (c.endWakes e) := h.calm (.endWakes e (.refl c))
theorem syncSide {z c : Chip} (p : Nat) (rx : Bool) (hp : p < 4096) (h : Flow D z c) : Flow D z (c.syncSide p rx) := h.calm (.syncSide p rx hp (.refl c))
theorem setRun {z c : Chip} (k : Clock) (p : Nat) (rx b : Bool) (hp : p < 4096) (h : Flow D z c) : Flow D z (c.setRun k p rx b) :=
  h.calm (.setRun k p rx b hp (.refl c))

/-! ### The operations that edges and drops are made of -/

theorem lv_row (f : Fld) (r : Nat) {c : Chip} (h : decide (2 ^ f.width ≤ 4096) = true) : c.lv f r < 4096 :=
  (f.get_lt _).trans_le (of_decide_eq_true h)
theorem rxQueue_row {c : Chip} {d kind q : Nat} (h : c.rxQueue d kind = some q) : q < 4096 := by
  unfold rxQueue at h
  split at h <;> (split at h <;> cases h <;> exact lv_row _ _ rfl)
theorem qDropped {z c : Chip} (k : Clock) (i : Nat) (hi : i < 4096) (hz : Flow D z c) : Flow D z (c.qDropped k i) := by
  unfold Chip.qDropped
  repeat' (first | with_reducible assumption | omega | exact lv_row _ _ rfl | with_reducible exact qReg_moving _ | exact rfl | exact fun _ => rfl | exact fun _ => ⟨rfl, rfl⟩ | with_reducible exact Flow.refl _ | with_reducible apply Flow.addSt | with_reducible apply Flow.onQ | with_reducible apply Flow.cause | (intro; intros))
theorem qRewind {z c : Chip} (k : Clock) (i kind unit : Nat) (hi : i < 4096) (hz : Flow D z c) : Flow D z (c.qRewind k i kind unit) := by
  unfold Chip.qRewind
  repeat' (first | with_reducible assumption | omega | exact lv_row _ _ rfl | with_reducible exact qReg_moving _ | exact rfl | exact fun _ => rfl | exact fun _ => ⟨rfl, rfl⟩ | with_reducible exact Flow.refl _ | with_reducible apply Flow.onQ | with_reducible apply Flow.qRewound | with_reducible apply Flow.iteElse | (intro; intros) | fail_if_no_progress extract_lets | split)
theorem qRecord {z c : Chip} (k : Clock) (i kind unit : Nat) (bs : List Byte) (e : Nat) (hi : i < 4096) (hz : Flow D z c) : Flow D z (c.qRecord k i kind unit bs e).1 := by
  unfold Chip.qRecord
  repeat' (first | with_reducible assumption | omega | exact lv_row _ _ rfl | with_reducible exact qReg_moving _ | exact rfl | exact fun _ => rfl | exact fun _ => ⟨rfl, rfl⟩ | with_reducible exact Flow.refl _ | with_reducible apply Flow.onQ | with_reducible apply Flow.qDropped | with_reducible apply Flow.iteElse | (intro; intros) | fail_if_no_progress extract_lets | split)
theorem qRecord_eq {z c y : Chip} (k : Clock) (i kind unit : Nat) (bs : List Byte) (e : Nat)  {az} (hi : i < 4096) (ez : c.qRecord k i kind unit bs e = (y, az)) (hz : Flow D z c) : Flow D z y := by
  have := Flow.qRecord k i kind unit bs e hi hz; rw [ez] at this; exact this
theorem beginRecord {z c : Chip} (k : Clock) (r : RecDue) (hz : Flow D z c) : Flow D z (c.beginRecord k r) := by
  unfold Chip.beginRecord
  extract_lets q
  have hq : q < 4096 := by
    unfold q
    split <;> exact lv_row _ _ rfl
  split
  next c₁ ok hrec =>
    have h₁ : Flow D z c₁ := qRecord_eq k q r.kind r.unit r.bytes _ hq hrec hz
    exact ite h₁ (onM (fun m => { m with dnPeak := max m.dnPeak r.peaks.1, upPeak := max m.upPeak r.peaks.2 }) (fun _ => ⟨rfl, rfl⟩) h₁)
theorem syncPools {z c : Chip} (k : Clock) (hz : Flow D z c) : Flow D z (c.syncPools k) := by
  unfold Chip.syncPools
  repeat' (first | with_reducible assumption | omega | exact lv_row _ _ rfl | with_reducible exact qReg_moving _ | exact rfl | exact fun _ => rfl | exact fun _ => ⟨rfl, rfl⟩ | with_reducible exact Flow.refl _ | with_reducible apply Flow.setCond | (intro; intros))
theorem setPool_next (m : Meadow) (up : Bool) (n : Nat) : (m.setPool up n).outNext = m.outNext ∧ (m.setPool up n).absentNext = m.absentNext := by
  unfold Meadow.setPool
  split <;> exact ⟨rfl, rfl⟩
theorem freeCells {z c : Chip} (k : Clock) (up : Bool) (cells : List Nat) (hz : Flow D z c) : Flow D z (c.freeCells k up cells) := by
  unfold Chip.freeCells
  exact syncPools k (onM _ (fun _ => setPool_next _ _ _) hz)
theorem sendDesc {z c : Chip} (hz : Flow D z c) : Flow D z (c.sendDesc) := by
  unfold Chip.sendDesc
  repeat' (first | with_reducible assumption | omega | exact lv_row _ _ rfl | with_reducible exact qReg_moving _ | exact rfl | exact fun _ => rfl | exact fun _ => ⟨rfl, rfl⟩ | with_reducible exact Flow.refl _ | with_reducible apply Flow.addSt | with_reducible apply Flow.onTwin | (with_reducible refine Flow.draw_eq (by with_reducible assumption) ?_) | with_reducible apply Flow.draw | with_reducible apply Flow.iteElse | (intro; intros))
theorem retire {z c : Chip} (it : Item) (cause : Nat) (hz : Flow D z c) : Flow D z (c.retire it cause) := by
  unfold Chip.retire
  repeat' (first | with_reducible assumption | omega | exact lv_row _ _ rfl | with_reducible exact qReg_moving _ | exact rfl | exact fun _ => rfl | exact fun _ => ⟨rfl, rfl⟩ | with_reducible exact Flow.refl _ | with_reducible apply Flow.sendDesc | with_reducible apply Flow.iteElse | (intro; intros))
theorem setItems {z c : Chip} (t : Nat) (up : Bool) (l : List Item) (hz : Flow D z c) : Flow D z (c.setItems t up l) := by
  unfold Chip.setItems
  repeat' (first | with_reducible assumption | omega | exact lv_row _ _ rfl | with_reducible exact qReg_moving _ | exact rfl | exact fun _ => rfl | exact fun _ => ⟨rfl, rfl⟩ | with_reducible exact Flow.refl _ | with_reducible apply Flow.onT | (intro; intros))
theorem countDisc {z c : Chip} (t : Nat) (up : Bool) (cause : Nat) (hz : Flow D z c) : Flow D z (c.countDisc t up cause) := by
  unfold Chip.countDisc
  repeat' (first | with_reducible assumption | omega | exact lv_row _ _ rfl | with_reducible exact qReg_moving _ | exact rfl | exact fun _ => rfl | exact fun _ => ⟨rfl, rfl⟩ | with_reducible exact Flow.refl _ | with_reducible apply Flow.onT | (intro; intros))
theorem failRecord {z c : Chip} (k : Clock) (flag : Fld) (cause t : Nat) (up : Bool) (cell len : Nat) (stamp : Word) (e : Nat)
    (hz : Flow D z c) : Flow D z (c.failRecord k flag cause t up cell len stamp e) := by
  unfold Chip.failRecord
  split
  next q hq =>
    have : q < 8 := List.mem_range.mp (List.mem_of_find?_eq_some hq)
    exact qRecord k q 6 t _ e (by omega) hz
  next => exact hz
theorem discardItem {z c : Chip} (k : Clock) (it : Item) (cause : Nat) (hz : Flow D z c) : Flow D z (c.discardItem k it cause) := by
  unfold Chip.discardItem
  repeat' (first | with_reducible assumption | omega | exact lv_row _ _ rfl | with_reducible exact qReg_moving _ | exact rfl | exact fun _ => rfl | exact fun _ => ⟨rfl, rfl⟩ | with_reducible exact Flow.refl _ | with_reducible apply Flow.countDisc | with_reducible apply Flow.freeCells | with_reducible apply Flow.retire | with_reducible apply Flow.failRecord | with_reducible apply Flow.iteElse | (intro; intros))
theorem deliverItem {z c : Chip} (k : Clock) (it : Item) (hz : Flow D z c) : Flow D z (c.deliverItem k it) := by
  unfold Chip.deliverItem
  repeat' (first | with_reducible assumption | omega | exact lv_row _ _ rfl | with_reducible exact qReg_moving _ | exact rfl | exact fun _ => rfl | exact fun _ => ⟨rfl, rfl⟩ | with_reducible exact Flow.refl _ | with_reducible apply Flow.onT | with_reducible apply Flow.freeCells | with_reducible apply Flow.retire | (intro; intros))
theorem readCells {z c : Chip} (k : Clock) (cells : List Nat) (hz : Flow D z c) : Flow D z (c.readCells k cells).2 := by
  unfold Chip.readCells
  repeat' (first | with_reducible assumption | omega | exact lv_row _ _ rfl | with_reducible exact qReg_moving _ | exact rfl | exact fun _ => rfl | exact fun _ => ⟨rfl, rfl⟩ | with_reducible exact Flow.refl _ | with_reducible apply Flow.onM | with_reducible apply Flow.srcEvent | with_reducible apply Flow.foldl | with_reducible apply Flow.iteElse | (intro; intros))
theorem readCells_eq {z c y : Chip} (k : Clock) (cells : List Nat)  {a0} (ez : c.readCells k cells = (a0, y)) (hz : Flow D z c) : Flow D z y := by
  have := Flow.readCells k cells hz; rw [ez] at this; exact this
theorem restand {z c : Chip} (k : Clock) (a : Option Nat) (hz : Flow D z c) : Flow D z (c.restand k a) := by
  unfold Chip.restand
  repeat' (first | with_reducible assumption | omega | exact lv_row _ _ rfl | with_reducible exact qReg_moving _ | exact rfl | exact fun _ => rfl | exact fun _ => ⟨rfl, rfl⟩ | with_reducible exact Flow.refl _ | with_reducible apply Flow.cause | (with_reducible refine Flow.onHeath ?_ (fun _ => ⟨rfl, rfl, rfl, rfl, rfl⟩)) | (intro; intros))
theorem tqRecord {z c : Chip} (k : Clock) (unit : Nat) (bs : List Byte) (hz : Flow D z c) : Flow D z (c.tqRecord k unit bs).1 := by
  unfold Chip.tqRecord
  repeat' (first | with_reducible assumption | omega | exact lv_row _ _ rfl | with_reducible exact qReg_moving _ | exact rfl | exact fun _ => rfl | exact fun _ => ⟨rfl, rfl⟩ | with_reducible exact Flow.refl _ | with_reducible apply Flow.onM | with_reducible apply Flow.qDropped | with_reducible apply Flow.onTime | (with_reducible refine Flow.qRecord_eq (by with_reducible assumption) ?_) | with_reducible apply Flow.qRecord | with_reducible apply Flow.iteElse | (intro; intros) | fail_if_no_progress extract_lets | split)
theorem capture {z c : Chip} (k : Clock) (n : Nat) (pins : List (Nat × Bool)) (hn : n < 4) (hz : Flow D z c) :
    Flow D z (c.capture k n pins) := by
  unfold Chip.capture
  extract_lets r mask c₁ coinc c₂ c₃ c₄
  have hr : r < 6 ∨ 14 < r ∧ r < 4096 := .inl (by omega)
  have h₁ : Flow D z c₁ := onTime _ (fun _ => rfl) hz
  have h₂ : Flow D z c₂ := setSt_row _ _ _ rfl rfl hr (setSt_row _ _ _ rfl rfl hr (setSt_row _ _ _ rfl rfl hr
    (setSt_row _ _ _ rfl rfl hr (setSt_row _ _ _ rfl rfl hr (setSt_row _ _ _ rfl rfl hr h₁)))))
  have h₃ : Flow D z c₃ := addSt_row _ _ _ rfl rfl hr (addSt_row _ _ _ rfl rfl hr h₂)
  have h₄ : Flow D z c₄ := cause_row k .tcap r _ rfl rfl hr h₃
  exact ite hz (ite (tqRecord k _ _ h₄) h₄)
theorem apsAim {z c : Chip} (k : Clock) (p : Nat) (b : Bool) (hz : Flow D z c) : Flow D z (c.apsAim k p b) := by
  refine onP p _ (fun a => ?_) hz
  split <;> rfl
theorem ofIte {z y : Chip} {p : Prop} [Decidable p] {α : Type} {a b : Chip × α} {v} (e : (if p then a else b) = (y, v))
    (ha : Flow D z a.1) (hb : Flow D z b.1) : Flow D z y := by
  split at e
  · rw [e] at ha; exact ha
  · rw [e] at hb; exact hb
theorem startSide {z c : Chip} (k : Clock) (p : Nat) (rx : Bool) (hp : p < 4096) (hz : Flow D z c) : Flow D z (c.startSide k p rx) := by
  unfold Chip.startSide
  repeat' (first | with_reducible assumption | omega | exact lv_row _ _ rfl | with_reducible exact qReg_moving _ | exact rfl | exact fun _ => rfl | exact fun _ => ⟨rfl, rfl⟩ | with_reducible exact Flow.refl _ | with_reducible apply Flow.onSide | with_reducible apply Flow.syncSide | with_reducible apply Flow.iteElse | (intro; intros))
theorem beginFrames {z c : Chip} (k : Clock) (p : Nat) (rx : Bool) (n0 : Nat) (hp : p < 4096) (hz : Flow D z c) : Flow D z (c.beginFrames k p rx n0) := by
  induction n0 generalizing c  p rx with
  | zero =>
    unfold Chip.beginFrames
    repeat' (first | with_reducible assumption | omega | exact lv_row _ _ rfl | with_reducible exact qReg_moving _ | exact rfl | exact fun _ => rfl | exact fun _ => ⟨rfl, rfl⟩ | with_reducible exact Flow.refl _ | with_reducible apply Flow.onSide | with_reducible apply Flow.setRun | with_reducible apply Flow.syncSide | with_reducible apply Flow.iteElse | with_reducible apply Flow.upd | (intro; intros))
  | succ m ih =>
    unfold Chip.beginFrames
    repeat' (first | with_reducible assumption | omega | exact lv_row _ _ rfl | with_reducible exact qReg_moving _ | exact rfl | exact fun _ => rfl | exact fun _ => ⟨rfl, rfl⟩ | with_reducible exact Flow.refl _ | with_reducible apply ih | with_reducible apply Flow.onSide | with_reducible apply Flow.setRun | with_reducible apply Flow.syncSide | with_reducible apply Flow.iteElse | with_reducible apply Flow.upd | (intro; intros))
theorem audioPass {z c : Chip} (k : Clock) (hz : Flow D z c) : Flow D z (c.audioPass k) := by
  unfold Chip.audioPass
  repeat' (first | with_reducible assumption | omega | exact lv_row _ _ rfl | with_reducible exact qReg_moving _ | exact rfl | exact fun _ => rfl | exact fun _ => ⟨rfl, rfl⟩ | with_reducible exact Flow.refl _ | with_reducible apply Flow.beginFrames | with_reducible apply Flow.overN | (intro; intros))
theorem audioOpen {z c : Chip} (k : Clock) (hz : Flow D z c) : Flow D z (c.audioOpen k) := by
  unfold Chip.audioOpen
  repeat' (first | with_reducible assumption | omega | exact lv_row _ _ rfl | with_reducible exact qReg_moving _ | exact rfl | exact fun _ => rfl | exact fun _ => ⟨rfl, rfl⟩ | with_reducible exact Flow.refl _ | with_reducible apply Flow.startSide | with_reducible apply Flow.audioPass | with_reducible apply Flow.overN | (intro; intros))
theorem syncDropSrc {z c : Chip} (k : Clock) (d : Nat) (hd : d < 96) (hz : Flow D z c) : Flow D z (c.syncDropSrc k d) := by
  unfold Chip.syncDropSrc
  repeat' (first | with_reducible assumption | omega | exact lv_row _ _ rfl | with_reducible exact qReg_moving _ | exact rfl | exact fun _ => rfl | exact fun _ => ⟨rfl, rfl⟩ | with_reducible exact Flow.refl _ | with_reducible apply Flow.setCond | (intro; intros))
theorem setDropDefs {z c : Chip} (k : Clock) (d new : Nat) (hD : D d) (hd : d < 96) (hz : Flow D z c) : Flow D z (c.setDropDefs k d new) := by
  unfold Chip.setDropDefs
  repeat' (first | with_reducible assumption | omega | exact lv_row _ _ rfl | with_reducible exact qReg_moving _ | exact rfl | exact fun _ => rfl | exact fun _ => ⟨rfl, rfl⟩ | with_reducible exact Flow.refl _ | with_reducible apply Flow.setSt | with_reducible apply Flow.causeIf | with_reducible apply Flow.syncDropSrc | (intro; intros))
theorem setDropDef {z c : Chip} (k : Clock) (d n : Nat) (b : Bool) (hD : D d) (hd : d < 96) (hz : Flow D z c) : Flow D z (c.setDropDef k d n b) := by
  unfold Chip.setDropDef
  repeat' (first | with_reducible assumption | omega | exact lv_row _ _ rfl | with_reducible exact qReg_moving _ | exact rfl | exact fun _ => rfl | exact fun _ => ⟨rfl, rfl⟩ | with_reducible exact Flow.refl _ | with_reducible apply Flow.setDropDefs | (intro; intros))
theorem countUp {z c : Chip} (f : Fld) (d n : Nat) (hf : f.moving = true) (hd : d < 96) (hz : Flow D z c) : Flow D z (c.countUp f d n) := by
  unfold Chip.countUp
  repeat' (first | with_reducible assumption | omega | exact lv_row _ _ rfl | with_reducible exact qReg_moving _ | exact rfl | exact fun _ => rfl | exact fun _ => ⟨rfl, rfl⟩ | with_reducible exact Flow.refl _ | with_reducible apply Flow.addSt | with_reducible apply Flow.iteElse | (intro; intros))
theorem syncSlot {z c : Chip} (d : Nat) (hd : d < 96) (hz : Flow D z c) : Flow D z (c.syncSlot d) := by
  unfold Chip.syncSlot
  repeat' (first | with_reducible assumption | omega | exact lv_row _ _ rfl | with_reducible exact qReg_moving _ | exact rfl | exact fun _ => rfl | exact fun _ => ⟨rfl, rfl⟩ | with_reducible exact Flow.refl _ | with_reducible apply Flow.setSt | (intro; intros))
theorem setRxOpen {z c : Chip} (d kind : Nat) (b : Option Nat) (hD : D d) (hd : d < 96) (hz : Flow D z c) : Flow D z (c.setRxOpen d kind b) := by
  unfold Chip.setRxOpen
  repeat' (first | with_reducible assumption | omega | exact lv_row _ _ rfl | with_reducible exact qReg_moving _ | exact rfl | exact fun _ => rfl | exact fun _ => ⟨rfl, rfl⟩ | with_reducible exact Flow.refl _ | with_reducible apply Flow.onD | (intro; intros))
theorem loseRx {z c : Chip} (k : Clock) (d kind : Nat) (hD : D d) (hd : d < 96) (hz : Flow D z c) : Flow D z (c.loseRx k d kind) := by
  unfold Chip.loseRx
  extract_lets c₁
  have h₁ : Flow D z c₁ := setRxOpen d kind none hD hd hz
  refine ite ?_ hz
  split
  next q hq =>
    have hi : q < 4096 := rxQueue_row hq
    extract_lets had skip c₂
    exact onQ q _ (ite (qRewind k q kind d hi h₁) (ite h₁ (qRewound k q hi h₁)))
  next => exact h₁
theorem loseAllRx {z c : Chip} (k : Clock) (d : Nat) (hD : D d) (hd : d < 96) (hz : Flow D z c) : Flow D z (c.loseAllRx k d) := by
  unfold Chip.loseAllRx
  repeat' (first | with_reducible assumption | omega | exact lv_row _ _ rfl | with_reducible exact qReg_moving _ | exact rfl | exact fun _ => rfl | exact fun _ => ⟨rfl, rfl⟩ | with_reducible exact Flow.refl _ | with_reducible apply Flow.loseRx | with_reducible apply Flow.foldl | with_reducible apply Flow.iteElse | (intro; intros))
theorem stopTx {z c : Chip} (k : Clock) (d : Nat) (hD : D d) (hd : d < 96) (hz : Flow D z c) : Flow D z (c.stopTx k d) := by
  unfold Chip.stopTx
  repeat' (first | with_reducible assumption | omega | exact lv_row _ _ rfl | with_reducible exact qReg_moving _ | exact rfl | exact fun _ => rfl | exact fun _ => ⟨rfl, rfl⟩ | with_reducible exact Flow.refl _ | with_reducible apply Flow.qReturn | with_reducible apply Flow.onD | with_reducible apply Flow.iteElse | (intro; intros))
theorem dropHeads {z c : Chip} (k : Clock) (t : Nat) (n0 : Nat) (hz : Flow D z c) : Flow D z (c.dropHeads k t n0) := by
  induction n0 generalizing c with
  | zero => unfold Chip.dropHeads; repeat' (first | with_reducible assumption | (intro; intros))
  | succ n ih => unfold Chip.dropHeads; repeat' (first | with_reducible apply ih | with_reducible assumption | omega | exact lv_row _ _ rfl | with_reducible exact qReg_moving _ | exact rfl | exact fun _ => rfl | exact fun _ => ⟨rfl, rfl⟩ | with_reducible exact Flow.refl _ | with_reducible apply Flow.setItems | with_reducible apply Flow.discardItem | with_reducible apply Flow.iteElse | (intro; intros) | fail_if_no_progress extract_lets | split)
theorem breakPacket {z c : Chip} (d : Nat) (hD : D d) (hd : d < 96) (hz : Flow D z c) : Flow D z (c.breakPacket d) := by
  unfold Chip.breakPacket
  repeat' (first | with_reducible assumption | omega | exact lv_row _ _ rfl | with_reducible exact qReg_moving _ | exact rfl | exact fun _ => rfl | exact fun _ => ⟨rfl, rfl⟩ | with_reducible exact Flow.refl _ | with_reducible apply Flow.onT | with_reducible apply Flow.onD | with_reducible apply Flow.iteElse | (intro; intros) | fail_if_no_progress extract_lets | split)
theorem setPs {z c : Chip} (k : Clock) (d : Nat) (ps : PState) (hD : D d) (hd : d < 96) (hz : Flow D z c) : Flow D z (c.setPs k d ps) := by
  unfold Chip.setPs
  repeat' (first | with_reducible assumption | omega | exact lv_row _ _ rfl | with_reducible exact qReg_moving _ | exact rfl | exact fun _ => rfl | exact fun _ => ⟨rfl, rfl⟩ | with_reducible exact Flow.refl _ | with_reducible apply Flow.onD | with_reducible apply Flow.setSt | with_reducible apply Flow.syncDropSrc | (intro; intros))
theorem leaveSync {z c : Chip} (k : Clock) (d : Nat) (hD : D d) (hd : d < 96) (hz : Flow D z c) : Flow D z (c.leaveSync k d) := by
  unfold Chip.leaveSync
  repeat' (first | with_reducible assumption | omega | exact lv_row _ _ rfl | with_reducible exact qReg_moving _ | exact rfl | exact fun _ => rfl | exact fun _ => ⟨rfl, rfl⟩ | with_reducible exact Flow.refl _ | with_reducible apply Flow.loseAllRx | with_reducible apply Flow.onD | with_reducible apply Flow.syncSlot | with_reducible apply Flow.iteElse | (intro; intros))
theorem raiseLof {z c : Chip} (k : Clock) (d : Nat) (hD : D d) (hd : d < 96) (hz : Flow D z c) : Flow D z (c.raiseLof k d) := by
  unfold Chip.raiseLof
  repeat' (first | with_reducible assumption | omega | exact lv_row _ _ rfl | with_reducible exact qReg_moving _ | exact rfl | exact fun _ => rfl | exact fun _ => ⟨rfl, rfl⟩ | with_reducible exact Flow.refl _ | with_reducible apply Flow.countUp | with_reducible apply Flow.onD | with_reducible apply Flow.setDropDef | with_reducible apply Flow.iteElse | (intro; intros))
theorem enterSelect {z c : Chip} (k : Clock) (d m : Nat) (hD : D d) (hd : d < 96) (hz : Flow D z c) : Flow D z (c.enterSelect k d m) := by
  unfold Chip.enterSelect
  repeat' (first | with_reducible assumption | omega | exact lv_row _ _ rfl | with_reducible exact qReg_moving _ | exact rfl | exact fun _ => rfl | exact fun _ => ⟨rfl, rfl⟩ | with_reducible exact Flow.refl _ | with_reducible apply Flow.onD | with_reducible apply Flow.setSt | with_reducible apply Flow.setPs | (intro; intros))
theorem readPacket {z c : Chip} (k : Clock) (d n : Nat) (hD : D d) (hd : d < 96) (hz : Flow D z c) : Flow D z (c.readPacket k d n) := by
  unfold Chip.readPacket
  repeat' (first | with_reducible assumption | omega | exact lv_row _ _ rfl | with_reducible exact qReg_moving _ | exact rfl | exact fun _ => rfl | exact fun _ => ⟨rfl, rfl⟩ | with_reducible exact Flow.refl _ | with_reducible apply Flow.onD | (with_reducible refine Flow.readCells_eq (by with_reducible assumption) ?_) | with_reducible apply Flow.readCells | with_reducible apply Flow.iteElse | (intro; intros) | fail_if_no_progress extract_lets | split)
theorem endPacket {z c : Chip} (k : Clock) (d : Nat) (hD : D d) (hd : d < 96) (hz : Flow D z c) : Flow D z (c.endPacket k d) := by
  unfold Chip.endPacket
  repeat' (first | with_reducible assumption | omega | exact lv_row _ _ rfl | with_reducible exact qReg_moving _ | exact rfl | exact fun _ => rfl | exact fun _ => ⟨rfl, rfl⟩ | with_reducible exact Flow.refl _ | with_reducible apply Flow.onD | with_reducible apply Flow.setItems | with_reducible apply Flow.discardItem | with_reducible apply Flow.deliverItem | with_reducible apply Flow.dropHeads | with_reducible apply Flow.iteElse | (intro; intros) | fail_if_no_progress extract_lets | split)
theorem delayNow {z c : Chip} (k : Clock) (d : Nat) (hz : Flow D z c) : Flow D z (c.delayNow k d).2 := by
  unfold Chip.delayNow
  repeat' (first | with_reducible assumption | omega | exact lv_row _ _ rfl | with_reducible exact qReg_moving _ | exact rfl | exact fun _ => rfl | exact fun _ => ⟨rfl, rfl⟩ | with_reducible exact Flow.refl _ | (with_reducible refine Flow.draw_eq (by with_reducible assumption) ?_) | with_reducible apply Flow.draw | with_reducible apply Flow.iteElse | (intro; intros) | (with_reducible refine Flow.ofIte (by with_reducible assumption) ?_ ?_) | fail_if_no_progress extract_lets | split | (show Flow D _ (Prod.snd (Prod.mk _ _)); dsimp only))
theorem delayNow_eq {z c y : Chip} (k : Clock) (d : Nat) {w0} (ez : c.delayNow k d = (w0, y)) (hz : Flow D z c) : Flow D z y := by
  have := Flow.delayNow k d hz; rw [ez] at this; exact this
theorem mgmtBytes {z c : Chip} (k : Clock) (d : Nat) (hD : D d) (hd : d < 96) (hz : Flow D z c) : Flow D z (c.mgmtBytes k d).2 := by
  unfold Chip.mgmtBytes
  repeat' (first | with_reducible assumption | omega | exact lv_row _ _ rfl | with_reducible exact qReg_moving _ | exact rfl | exact fun _ => rfl | exact fun _ => ⟨rfl, rfl⟩ | with_reducible exact Flow.refl _ | with_reducible apply Flow.onD | with_reducible apply Flow.iteElse | (intro; intros) | fail_if_no_progress extract_lets | split)
theorem mgmtBytes_eq {z c y : Chip} (k : Clock) (d : Nat)  {a0} (hD : D d) (hd : d < 96) (ez : c.mgmtBytes k d = (a0, y)) (hz : Flow D z c) : Flow D z y := by
  have := Flow.mgmtBytes k d hD hd hz; rw [ez] at this; exact this
theorem composeHeader {z c : Chip} (k : Clock) (d dark : Nat) (hD : D d) (hd : d < 96) (hz : Flow D z c) : Flow D z (c.composeHeader k d dark).2 := by
  unfold Chip.composeHeader
  repeat' (first | with_reducible assumption | omega | exact lv_row _ _ rfl | with_reducible exact qReg_moving _ | exact rfl | exact fun _ => rfl | exact fun _ => ⟨rfl, rfl⟩ | with_reducible exact Flow.refl _ | (with_reducible refine Flow.delayNow_eq (by with_reducible assumption) ?_) | with_reducible apply Flow.delayNow | (with_reducible refine Flow.mgmtBytes_eq (by with_reducible assumption) ?_) | with_reducible apply Flow.mgmtBytes | with_reducible apply Flow.setSt | with_reducible apply Flow.onD | with_reducible apply Flow.iteElse | with_reducible apply Flow.upd | (intro; intros) | (with_reducible refine Flow.ofIte (by with_reducible assumption) ?_ ?_) | fail_if_no_progress extract_lets | split | (show Flow D _ (Prod.snd (Prod.mk _ _)); dsimp only))
theorem composeHeader_eq {z c y : Chip} (k : Clock) (d dark : Nat) {w0} (hD : D d) (hd : d < 96) (ez : c.composeHeader k d dark = (w0, y)) (hz : Flow D z c) : Flow D z y := by
  have := Flow.composeHeader k d dark hD hd hz; rw [ez] at this; exact this
theorem writeHalf {z c : Chip} (h : Nat × Nat) (hz : Flow D z c) : Flow D z (c.writeHalf h) := by
  unfold Chip.writeHalf
  repeat' (first | with_reducible assumption | omega | exact lv_row _ _ rfl | with_reducible exact qReg_moving _ | exact rfl | exact fun _ => rfl | exact fun _ => ⟨rfl, rfl⟩ | with_reducible exact Flow.refl _ | with_reducible apply Flow.onM | with_reducible apply Flow.iteElse | with_reducible apply Flow.upd | (intro; intros))
theorem readHalf {z c : Chip} (k : Clock) (h : Nat × Nat) (hz : Flow D z c) : Flow D z (c.readHalf k h).2 := by
  unfold Chip.readHalf
  repeat' (first | with_reducible assumption | omega | exact lv_row _ _ rfl | with_reducible exact qReg_moving _ | exact rfl | exact fun _ => rfl | exact fun _ => ⟨rfl, rfl⟩ | with_reducible exact Flow.refl _ | with_reducible apply Flow.onM | with_reducible apply Flow.srcEvent | with_reducible apply Flow.foldl | with_reducible apply Flow.iteElse | with_reducible apply Flow.upd | (intro; intros) | (with_reducible refine Flow.ofIte (by with_reducible assumption) ?_ ?_) | fail_if_no_progress extract_lets | split | (show Flow D _ (Prod.snd (Prod.mk _ _)); dsimp only))
theorem readHalf_eq {z c y : Chip} (k : Clock) (h : Nat × Nat) {w0} (ez : c.readHalf k h = (w0, y)) (hz : Flow D z c) : Flow D z y := by
  have := Flow.readHalf k h hz; rw [ez] at this; exact this
theorem takeSource {z c : Chip} (n : Nat) (up : Bool) (d b : Nat) (hz : Flow D z c) : Flow D z (c.takeSource n up d b) := by
  unfold Chip.takeSource
  repeat' (first | with_reducible assumption | omega | exact lv_row _ _ rfl | with_reducible exact qReg_moving _ | exact rfl | exact fun _ => rfl | exact fun _ => ⟨rfl, rfl⟩ | with_reducible exact Flow.refl _ | with_reducible apply Flow.writeHalf | with_reducible apply Flow.iteElse | (intro; intros))
theorem skipGroomed {z c : Chip} (d n : Nat) (hz : Flow D z c) : Flow D z (c.skipGroomed d n) := by
  unfold Chip.skipGroomed
  repeat' (first | with_reducible assumption | omega | exact lv_row _ _ rfl | with_reducible exact qReg_moving _ | exact rfl | exact fun _ => rfl | exact fun _ => ⟨rfl, rfl⟩ | with_reducible exact Flow.refl _ | with_reducible apply Flow.onM | with_reducible apply Flow.iteElse | with_reducible apply Flow.upd | (intro; intros))
theorem openFrame {z c : Chip} (k : Clock) (d : Nat) (hD : D d) (hd : d < 96) (hz : Flow D z c) : Flow D z (c.openFrame k d) := by
  unfold Chip.openFrame
  repeat' (first | with_reducible assumption | omega | exact lv_row _ _ rfl | with_reducible exact qReg_moving _ | exact rfl | exact fun _ => rfl | exact fun _ => ⟨rfl, rfl⟩ | with_reducible exact Flow.refl _ | (with_reducible refine Flow.composeHeader_eq (by with_reducible assumption) ?_) | with_reducible apply Flow.composeHeader | with_reducible apply Flow.onD | with_reducible apply Flow.countUp | with_reducible apply Flow.skipGroomed | with_reducible apply Flow.upd | (intro; intros) | fail_if_no_progress extract_lets | split)
theorem closeFrame {z c : Chip} (k : Clock) (d : Nat) (hD : D d) (hd : d < 96) (hz : Flow D z c) : Flow D z (c.closeFrame k d) := by
  unfold Chip.closeFrame
  repeat' (first | with_reducible assumption | omega | exact lv_row _ _ rfl | with_reducible exact qReg_moving _ | exact rfl | exact fun _ => rfl | exact fun _ => ⟨rfl, rfl⟩ | with_reducible exact Flow.refl _ | with_reducible apply Flow.onD | with_reducible apply Flow.upd | (intro; intros))
theorem meetEcc {z c : Chip} (k : Clock) (bank a : Nat) (hz : Flow D z c) : Flow D z (c.meetEcc k bank a) := by
  unfold Chip.meetEcc
  repeat' (first | with_reducible assumption | omega | exact lv_row _ _ rfl | with_reducible exact qReg_moving _ | exact rfl | exact fun _ => rfl | exact fun _ => ⟨rfl, rfl⟩ | with_reducible exact Flow.refl _ | (with_reducible refine Flow.onHeath ?_ (fun _ => ⟨rfl, rfl, rfl, rfl, rfl⟩)) | with_reducible apply Flow.onDir | with_reducible apply Flow.srcEvent | with_reducible apply Flow.restand | with_reducible apply Flow.iteElse | (intro; intros) | fail_if_no_progress extract_lets | split)
theorem blocksRead {z c : Chip} (k : Clock) (hz : Flow D z c) : Flow D z (c.blocksRead k) := by
  unfold Chip.blocksRead
  repeat' (first | with_reducible assumption | omega | exact lv_row _ _ rfl | with_reducible exact qReg_moving _ | exact rfl | exact fun _ => rfl | exact fun _ => ⟨rfl, rfl⟩ | with_reducible exact Flow.refl _ | (with_reducible refine Flow.draw_eq (by with_reducible assumption) ?_) | with_reducible apply Flow.draw | with_reducible apply Flow.meetEcc | with_reducible apply Flow.foldl | with_reducible apply Flow.iteElse | (intro; intros) | fail_if_no_progress extract_lets | split)
theorem blocksTick {z c : Chip} (hz : Flow D z c) : Flow D z (c.blocksTick) := by
  unfold Chip.blocksTick
  repeat' (first | with_reducible assumption | omega | exact lv_row _ _ rfl | with_reducible exact qReg_moving _ | exact rfl | exact fun _ => rfl | exact fun _ => ⟨rfl, rfl⟩ | with_reducible exact Flow.refl _ | with_reducible apply Flow.setBlk | with_reducible apply Flow.onPow | with_reducible apply Flow.foldl | with_reducible apply Flow.iteElse | (intro; intros))
theorem writeRecords {z c : Chip} (k : Clock) (hz : Flow D z c) : Flow D z (c.writeRecords k) := by
  unfold Chip.writeRecords
  refine ite hz (foldl _ ?_ (fun a x _ ha => beginRecord k x ha))
  exact onHeath (f := fun h => { h with recDue := h.recDue.filter (fun r => decide (k.idx < r.start)) }) hz
    (fun _ => ⟨rfl, rfl, rfl, rfl, rfl⟩)
theorem endUp {z c : Chip} (k : Clock) (d cause : Nat) (hD : D d) (hd : d < 96) (hz : Flow D z c) : Flow D z (c.endUp k d cause) := by
  unfold Chip.endUp
  repeat' (first | with_reducible assumption | omega | exact lv_row _ _ rfl | with_reducible exact qReg_moving _ | exact rfl | exact fun _ => rfl | exact fun _ => ⟨rfl, rfl⟩ | with_reducible exact Flow.refl _ | with_reducible apply Flow.onD | with_reducible apply Flow.discardItem | (intro; intros) | fail_if_no_progress extract_lets | split)
theorem leaveEdge {z c : Chip} (k : Clock) (hz : Flow D z c) : Flow D z (c.leaveEdge k) := by
  unfold Chip.leaveEdge
  repeat' (first | with_reducible assumption | omega | exact lv_row _ _ rfl | with_reducible exact qReg_moving _ | exact rfl | exact fun _ => rfl | exact fun _ => ⟨rfl, rfl⟩ | with_reducible exact Flow.refl _ | with_reducible apply Flow.capture | with_reducible apply Flow.onTime | with_reducible apply Flow.overN | (with_reducible refine Flow.onHeath ?_ (fun _ => ⟨rfl, rfl, rfl, rfl, rfl⟩)) | with_reducible apply Flow.iteElse | (intro; intros) | fail_if_no_progress extract_lets)
theorem apsSync {z c : Chip} (k : Clock) (p : Nat) (hp : p < 4096) (hz : Flow D z c) : Flow D z (c.apsSync k p) := by
  unfold Chip.apsSync
  repeat' (first | with_reducible assumption | omega | exact lv_row _ _ rfl | with_reducible exact qReg_moving _ | exact rfl | exact fun _ => rfl | exact fun _ => ⟨rfl, rfl⟩ | with_reducible exact Flow.refl _ | with_reducible apply Flow.setSt | with_reducible apply Flow.apsAim | with_reducible apply Flow.onP | with_reducible apply Flow.cause | with_reducible apply Flow.iteElse | (intro; intros) | fail_if_no_progress extract_lets)
theorem gccTake {z c : Chip} (u : Nat) (hz : Flow D z c) : Flow D z (c.gccTake u).2 := by
  unfold Chip.gccTake
  dsimp only
  split
  · exact onU u _ hz
  · exact hz
theorem gccTake_eq {z c y : Chip} (u : Nat) {w0} (ez : c.gccTake u = (w0, y)) (hz : Flow D z c) : Flow D z y := by
  have := Flow.gccTake u hz; rw [ez] at this; exact this
theorem txFrame {z c : Chip} (k : Clock) (u : Nat) (hu : u < 4096) (hz : Flow D z c) : Flow D z (c.txFrame k u) := by
  unfold Chip.txFrame
  repeat' (first | with_reducible assumption | omega | exact lv_row _ _ rfl | with_reducible exact qReg_moving _ | exact rfl | exact fun _ => rfl | exact fun _ => ⟨rfl, rfl⟩ | with_reducible exact Flow.refl _ | with_reducible apply Flow.onU | (with_reducible refine Flow.gccTake_eq (by with_reducible assumption) ?_) | with_reducible apply Flow.gccTake | with_reducible apply Flow.setSt | with_reducible apply Flow.apsSync | with_reducible apply Flow.iteElse | (intro; intros) | fail_if_no_progress extract_lets | split)
theorem txFrames {z : Chip} (k : Clock) (u n : Nat) (hu : u < 4096) : ∀ {c : Chip}, Flow D z c → Flow D z (c.txFrames k u n) := by
  induction n with
  | zero => exact fun hz => hz
  | succ n ih => exact fun hz => ih (txFrame k u hu hz)
theorem dimLaser {z c : Chip} (k : Clock) (u : Nat) (hz : Flow D z c) : Flow D z (c.dimLaser k u) := by
  unfold Chip.dimLaser
  repeat' (first | with_reducible assumption | omega | exact lv_row _ _ rfl | with_reducible exact qReg_moving _ | exact rfl | exact fun _ => rfl | exact fun _ => ⟨rfl, rfl⟩ | with_reducible exact Flow.refl _ | with_reducible apply Flow.onU | with_reducible apply Flow.iteElse | (intro; intros) | fail_if_no_progress extract_lets | split)
theorem linesPass {z c : Chip} (k : Clock) (hz : Flow D z c) : Flow D z (c.linesPass k) :=
  overN 4 hz (fun u hu _ ha => dimLaser k u (txFrames k u _ (by omega) ha))
theorem leaveUp {z c : Chip} (k : Clock) (d : Nat) (hD : D d) (hd : d < 96) (hz : Flow D z c) : Flow D z (c.leaveUp k d) := by
  unfold Chip.leaveUp
  repeat' (first | with_reducible assumption | omega | exact lv_row _ _ rfl | with_reducible exact qReg_moving _ | exact rfl | exact fun _ => rfl | exact fun _ => ⟨rfl, rfl⟩ | with_reducible exact Flow.refl _ | with_reducible apply Flow.stopTx | with_reducible apply Flow.breakPacket | with_reducible apply Flow.endUp | with_reducible apply Flow.leaveSync | with_reducible apply Flow.onD | with_reducible apply Flow.setDropDefs | (intro; intros) | fail_if_no_progress extract_lets)
theorem enterSilent {z c : Chip} (k : Clock) (d : Nat) (hD : D d) (hd : d < 96) (hz : Flow D z c) : Flow D z (c.enterSilent k d) := by
  unfold Chip.enterSilent
  repeat' (first | with_reducible assumption | omega | exact lv_row _ _ rfl | with_reducible exact qReg_moving _ | exact rfl | exact fun _ => rfl | exact fun _ => ⟨rfl, rfl⟩ | with_reducible exact Flow.refl _ | with_reducible apply Flow.leaveUp | with_reducible apply Flow.onD | with_reducible apply Flow.setPs | with_reducible apply Flow.addSt | with_reducible apply Flow.cause | with_reducible apply Flow.raiseLof | with_reducible apply Flow.iteElse | (intro; intros) | fail_if_no_progress extract_lets)
theorem trainFail {z c : Chip} (k : Clock) (d : Nat) (hD : D d) (hd : d < 96) (hz : Flow D z c) : Flow D z (c.trainFail k d) := by
  unfold Chip.trainFail
  repeat' (first | with_reducible assumption | omega | exact lv_row _ _ rfl | with_reducible exact qReg_moving _ | exact rfl | exact fun _ => rfl | exact fun _ => ⟨rfl, rfl⟩ | with_reducible exact Flow.refl _ | with_reducible apply Flow.leaveUp | with_reducible apply Flow.onD | with_reducible apply Flow.setPs | with_reducible apply Flow.addSt | with_reducible apply Flow.setDropDef | (intro; intros) | fail_if_no_progress extract_lets)
theorem enterHeld {z c : Chip} (k : Clock) (d : Nat) (hD : D d) (hd : d < 96) (hz : Flow D z c) : Flow D z (c.enterHeld k d) := by
  unfold Chip.enterHeld
  repeat' (first | with_reducible assumption | omega | exact lv_row _ _ rfl | with_reducible exact qReg_moving _ | exact rfl | exact fun _ => rfl | exact fun _ => ⟨rfl, rfl⟩ | with_reducible exact Flow.refl _ | with_reducible apply Flow.leaveUp | with_reducible apply Flow.onD | with_reducible apply Flow.setPs | with_reducible apply Flow.raiseLof | with_reducible apply Flow.iteElse | (intro; intros) | fail_if_no_progress extract_lets)
theorem trainNext {z c : Chip} (k : Clock) (d below : Nat) (hD : D d) (hd : d < 96) (hz : Flow D z c) : Flow D z (c.trainNext k d below) := by
  unfold Chip.trainNext
  repeat' (first | with_reducible assumption | omega | exact lv_row _ _ rfl | with_reducible exact qReg_moving _ | exact rfl | exact fun _ => rfl | exact fun _ => ⟨rfl, rfl⟩ | with_reducible exact Flow.refl _ | with_reducible apply Flow.onD | with_reducible apply Flow.setPs | with_reducible apply Flow.enterSelect | with_reducible apply Flow.trainFail | with_reducible apply Flow.iteElse | (intro; intros) | fail_if_no_progress extract_lets | split)
theorem dropOpen {z c : Chip} (k : Clock) (d : Nat) (hD : D d) (hd : d < 96) (hz : Flow D z c) : Flow D z (c.dropOpen k d) := by
  unfold Chip.dropOpen
  repeat' (first | with_reducible assumption | omega | exact lv_row _ _ rfl | with_reducible exact qReg_moving _ | exact rfl | exact fun _ => rfl | exact fun _ => ⟨rfl, rfl⟩ | with_reducible exact Flow.refl _ | with_reducible apply Flow.enterHeld | with_reducible apply Flow.enterSilent | with_reducible apply Flow.trainNext | with_reducible apply Flow.enterSelect | with_reducible apply Flow.iteElse | (intro; intros) | fail_if_no_progress extract_lets)
theorem startPacket {z : Chip} (k : Clock) (d room n : Nat) (hD : D d) (hd : d < 96) : ∀ {c : Chip}, Flow D z c → Flow D z (c.startPacket k d room n) := by
  induction n with
  | zero => exact fun hz => onD d _ hD hz
  | succ n ih =>
    intro c hz
    unfold Chip.startPacket
    split
    next t _ =>
      split
      next it r _ =>
        split
        next bad c₁ hread =>
          have h₁ : Flow D z c₁ := readCells_eq k _ hread hz
          exact ite (ih (discardItem k it _ (setItems t false r h₁))) (onD d _ hD (setItems t false _ h₁))
      next => exact onD d _ hD hz
    next => exact onD d _ hD hz
theorem takePacket {z : Chip} (k : Clock) (d more fuel : Nat) (hD : D d) (hd : d < 96) :
    ∀ (n : Nat) {c : Chip}, Flow D z c → Flow D z (c.takePacket k d more fuel n).2 := by
  induction fuel with
  | zero => exact fun _ _ hz => hz
  | succ fuel ih =>
    intro n c hz
    unfold Chip.takePacket
    split
    · exact hz
    · split
      · exact ih n (startPacket k d _ _ hD hd hz)
      · have h₁ := onD d (fun x => { x with pkt := x.pkt.drop (min n (c.d d).pkt.length) }) hD
          (readPacket k d (min n (c.d d).pkt.length) hD hd hz)
        exact ih _ (ite (endPacket k d hD hd h₁) h₁)
theorem localBlock {z c : Chip} (k : Clock) (d : Nat) (runs : List RunEnt) (b : Nat) (hD : D d) (hd : d < 96) (hz : Flow D z c) :
    Flow D z (c.localBlock k d runs b).2.2 := by
  unfold Chip.localBlock
  split
  next => exact hz
  next e _ =>
    split
    · split
      · exact hz
      · exact takePacket k d _ 64 hD hd 20 hz
    · split
      · split <;> exact hz
      · split
        · exact onD d _ hD hz
        · split
          · split
            · exact ite (addSt_row TIME.TBSENT 15 1 rfl rfl (.inr ⟨by decide, by decide⟩) hz) hz
            · exact hz
          · split
            · exact onD d _ hD hz
            · exact hz
theorem litBlock {z c : Chip} (k : Clock) (d : Nat) (runs : List RunEnt) (b : Nat) (hD : D d) (hd : d < 96) (hz : Flow D z c) : Flow D z (c.litBlock k d runs b).2 := by
  unfold Chip.litBlock
  extract_lets typ own
  have hown : ∀ y, Flow D z y → Flow D z (own y).2 := fun y hy => localBlock k d runs b hD hd hy
  split
  next g _ =>
    split
    next bad c₁ hread =>
      have h₁ : Flow D z c₁ := readHalf_eq k _ hread hz
      split
      · extract_lets past
        exact ite (onM _ (fun _ => ⟨rfl, rfl⟩) h₁) h₁
      · exact hown _ (skipGroomed d 1 h₁)
  next => exact hown _ (skipGroomed d _ hz)
theorem composeBlock {z c : Chip} (k : Clock) (d b : Nat) (hD : D d) (hd : d < 96) (hz : Flow D z c) : Flow D z (c.composeBlock k d b).2 := by
  unfold Chip.composeBlock
  extract_lets runs x
  split
  · exact hz
  · exact litBlock k d runs b hD hd hz
theorem composeBlock_eq {z c y : Chip} (k : Clock) (d b : Nat) {w0} (hD : D d) (hd : d < 96) (ez : c.composeBlock k d b = (w0, y)) (hz : Flow D z c) : Flow D z y := by
  have := Flow.composeBlock k d b hD hd hz; rw [ez] at this; exact this
theorem placeBlock {z c : Chip} (k : Clock) (d : Nat) (hD : D d) (hd : d < 96) (hz : Flow D z c) : Flow D z (c.placeBlock k d) := by
  unfold Chip.placeBlock
  repeat' (first | with_reducible assumption | omega | exact lv_row _ _ rfl | with_reducible exact qReg_moving _ | exact rfl | exact fun _ => rfl | exact fun _ => ⟨rfl, rfl⟩ | with_reducible exact Flow.refl _ | (with_reducible refine Flow.composeBlock_eq (by with_reducible assumption) ?_) | with_reducible apply Flow.composeBlock | with_reducible apply Flow.takeSource | with_reducible apply Flow.onD | (intro; intros) | fail_if_no_progress extract_lets | split)
theorem fillFrame {z : Chip} (k : Clock) (d i n : Nat) (hD : D d) (hd : d < 96) : ∀ {c : Chip}, Flow D z c → Flow D z (c.fillFrame k d i n) := by
  induction n with
  | zero => exact fun hz => hz
  | succ n ih => exact fun hz => ite hz (ite (closeFrame k d hD hd hz) (ite hz (ih (placeBlock k d hD hd hz))))
theorem framesPass {z c : Chip} (k : Clock) (hD : ∀ d, D d) (hz : Flow D z c) : Flow D z (c.framesPass k) :=
  overN 96 hz (fun d hd _ ha => ite ha (fillFrame k d k.idx 2001 (hD d) hd ha))
theorem leaveBoundary {z c : Chip} (k : Clock) (hD : ∀ d, D d) (hz : Flow D z c) : Flow D z (c.leaveBoundary k) := by
  unfold Chip.leaveBoundary
  repeat' (first | with_reducible assumption | with_reducible exact hD _ | omega | exact lv_row _ _ rfl | with_reducible exact qReg_moving _ | exact rfl | exact fun _ => rfl | exact fun _ => ⟨rfl, rfl⟩ | with_reducible exact Flow.refl _ | with_reducible apply Flow.onD | with_reducible apply Flow.openFrame | with_reducible apply Flow.overN | with_reducible apply Flow.iteElse | (intro; intros) | fail_if_no_progress extract_lets | split)
theorem openTick {z c : Chip} (k : Clock) (hD : ∀ d, D d) (hz : Flow D z c) : Flow D z (c.openTick k) := by
  unfold Chip.openTick
  repeat' (first | with_reducible assumption | with_reducible exact hD _ | omega | exact lv_row _ _ rfl | with_reducible exact qReg_moving _ | exact rfl | exact fun _ => rfl | exact fun _ => ⟨rfl, rfl⟩ | with_reducible exact Flow.refl _ | with_reducible apply Flow.dropOpen | with_reducible apply Flow.blocksRead | with_reducible apply Flow.blocksTick | with_reducible apply Flow.audioOpen | with_reducible apply Flow.leaveBoundary | with_reducible apply Flow.overN | (intro; intros))

end Flow
end Chip
end Sys2Proof.Machine
end

section
/-! PROOFS. What passing edges leave (`State.Flows`), and slew edges (R20, R295, R298). -/

namespace Sys2Proof.Machine
open Sys2Proof

namespace Chip

/-- Every drop may move. -/
def anyDrop : Nat → Prop := fun _ => True

namespace Flow
variable {D : Nat → Prop} {z c : Chip}

theorem stepRem (h : Flow D z c) : c.tim.stepRem = z.tim.stepRem := by
  have e := congrArg TimeEng.stepRem h.tim
  exact e
theorem stepReq (h : Flow D z c) : c.tim.stepReq = z.tim.stepReq := by
  have e := congrArg TimeEng.stepReq h.tim
  exact e
theorem outs (h : Flow D z c) : c.tim.out = z.tim.out := by
  have e := congrArg TimeEng.out h.tim
  exact e
theorem role (h : Flow D z c) : c.twin.role = z.twin.role := by
  have e := congrArg Twin.role h.twin
  exact e
theorem req (h : Flow D z c) : c.twin.req = z.twin.req := by
  have e := congrArg Twin.req h.twin
  exact e
theorem lightDue (h : Flow D z c) : c.twin.lightDue = z.twin.lightDue := by
  have e := congrArg Twin.lightDue h.twin
  exact e
theorem id (h : Flow D z c) : c.twin.id = z.twin.id := by
  have e := congrArg Twin.id h.twin
  exact e
theorem wtrEnd (h : Flow D z c) (p : Nat) : (c.pair p).wtrEnd = (z.pair p).wtrEnd := by
  have e := congrArg Aps.wtrEnd (h.pairs p)
  exact e
theorem lv (h : Flow D z c) (f : Fld) (r : Nat) : c.lv f r = z.lv f r := congrArg (fun b : Bank => b.fld f r) h.live

/-- What the edges of a tick that pass do to the blocks. -/
theorem edgesPass (k : Clock) (h : Flow anyDrop z c) :
    Flow anyDrop z ((((((c.endWakes k.evc).settle k).writeRecords k).linesPass k).framesPass k).audioPass k) :=
  (((((h.endWakes _).settle k).writeRecords k).linesPass k).framesPass k fun _ => trivial).audioPass k

end Flow
end Chip

namespace State

/-- From `s` to `t` the blocks change as passing edges change them. -/
def Flows (s t : State) : Prop := Chip.Flow Chip.anyDrop s.chip t.chip

theorem depart_flows {s : State} (h : s.boundaryDone = s) : s.Flows s.depart := by
  unfold Flows depart
  split
  · rw [h]
    exact (Chip.Flow.ite ((Chip.Flow.refl _).openTick _ fun _ => trivial) (.refl _)).leaveEdge _
  · exact .refl _
theorem elapse_flows {s : State} (h : s.boundaryDone = s) (n : Nat) : s.Flows (s.elapse n) := by
  by_cases hn : n = 0
  · rw [hn, elapse_zero]
    exact .refl _
  · have hdep := depart_flows h
    unfold Flows elapse at *
    rw [if_neg hn]
    dsimp only
    exact hdep.edgesPass _
theorem serving.boundaryDone {s : State} (hs : s.serving) : s.boundaryDone = s := by
  obtain ⟨-, -, -, h⟩ := hs
  exact h
theorem toIdx_flows {s : State} (hs : s.serving) (i : Nat) : s.Flows (s.toIdx i) := elapse_flows hs.boundaryDone _
theorem toEvc_flows {s : State} (hs : s.serving) (e : Nat) : s.Flows (s.toEvc e) := elapse_flows hs.boundaryDone _

end State

/-! ### Slew edges -/

/-- The chip after the slew edge, before STEPREM moves. -/
def State.slewed (s : State) (add2 : Bool) : Chip :=
  ((((((s.depart.chip.endWakes (s.clk.slew add2).evc).settle (s.clk.slew add2)).writeRecords (s.clk.slew add2)).linesPass
    (s.clk.slew add2)).framesPass (s.clk.slew add2)).audioPass (s.clk.slew add2))
/-- A slew edge that the channel, or STEPREM, asks for. -/
def State.asksSlew (s : State) (add2 : Bool) : Bool :=
  if s.chip.tim.stepRem ≠ 0 then add2 == decide (0 < s.chip.tim.stepRem) else (s.chip.dp 1).st != .free && (s.chip.dp 1).st != .lost
/-- STEPREM moves by 1 towards 0. -/
def Chip.stepRemMoves (c : Chip) (k : Clock) (add2 : Bool) (rem : Int) : Chip :=
  if rem = 0 then c
  else
    let c := c.onTime (fun t => { t with stepRem := if add2 then rem - 1 else rem + 1 })
    if (if add2 then rem - 1 else rem + 1) = 0 then c.cause k .time0 0 2 else c

theorem execSlewEdge_eq (add2 : Bool) (s : State) : exec (.slewEdge add2) s = .next (if s.chip.running && s.clk.mayslew add2 && s.asksSlew add2 then
    { s with clk := s.clk.slew add2, chip := (s.slewed add2).stepRemMoves (s.clk.slew add2) add2 s.chip.tim.stepRem } else s) := rfl

theorem slewed_flow {s : State} {add2 : Bool} (h : s.clk.mayslew add2 = true) : Chip.Flow Chip.anyDrop s.chip (s.slewed add2) :=
  Chip.Flow.edgesPass _ (State.depart_flows (s.boundaryDone_of_idx (by have := Clock.idx_of_mayslew h; omega)))

theorem stepRemMoves_keeps {z c : Chip} (k : Clock) (add2 : Bool) (rem : Int) (h : Chip.Keeps z c) : Chip.Keeps z (c.stepRemMoves k add2 rem) := by
  unfold Chip.stepRemMoves
  exact .ite h (.ite ((h.onTime _).cause _ _ _ _) (h.onTime _))
theorem stepRemMoves_rem (c : Chip) (k : Clock) (add2 : Bool) {rem : Int} (h : rem ≠ 0) :
    (c.stepRemMoves k add2 rem).tim.stepRem = if add2 then rem - 1 else rem + 1 := by
  unfold Chip.stepRemMoves
  rw [if_neg h]
  dsimp only
  generalize hd : c.onTime (fun t => { t with stepRem := if add2 then rem - 1 else rem + 1 }) = d
  have hrem : d.tim.stepRem = if add2 then rem - 1 else rem + 1 := by rw [← hd]; rfl
  by_cases hz : (if add2 then rem - 1 else rem + 1) = 0
  · rw [if_pos hz, Chip.cause_tim, hrem]
  · rw [if_neg hz, hrem]

/-- Settles O11: a slew edge moves the clock by 2 or 0 and STEPREM by 1 towards 0, and passing edges leave STEPREM. -/
theorem slewEdges : Obligations.SlewEdges := by
  unfold Obligations.SlewEdges
  intro add2 s hrun
  refine ⟨fun hmay => ?_, fun hnot => ?_⟩
  · have hflow := slewed_flow hmay
    have hns : (s.clk.slew add2).ns = s.clk.ns + (if add2 then 2 else 0) := by cases add2 <;> rfl
    have hevc : (s.clk.slew add2).evc = s.clk.evc + (if add2 then 2 else 0) := by cases add2 <;> rfl
    have hexec : s.asksSlew add2 = true → exec (.slewEdge add2) s = .next
        { s with clk := s.clk.slew add2, chip := (s.slewed add2).stepRemMoves (s.clk.slew add2) add2 s.chip.tim.stepRem } := fun h => by
      rw [execSlewEdge_eq, if_pos (by rw [hrun, hmay, h]; rfl)]
    generalize s.slewed add2 = d at hflow hexec
    refine ⟨fun hrem hfree hlost => ?_, fun hrem hdir => ?_⟩
    · have hask : s.asksSlew add2 = true := by
        unfold State.asksSlew
        rw [if_neg (fun h => h hrem)]
        simp [hfree, hlost]
      have hidx := hmay
      simp only [Clock.mayslew, Bool.and_eq_true, decide_eq_true_eq] at hidx
      obtain ⟨⟨-, hlo⟩, hhi⟩ := hidx
      have hplain : d.stepRemMoves (s.clk.slew add2) add2 s.chip.tim.stepRem = d := if_pos hrem
      rw [hplain] at hexec
      refine ⟨_, hexec hask, hns, hevc, ?_, ?_, ?_, ?_, rfl, hflow.toKeeps, hflow.stepRem.trans hrem⟩
      · cases add2 <;> rfl
      · cases add2 <;> simp [Clock.slew, Clock.idx, Config.tickCycles] at * <;> omega
      · cases add2 <;> simp [Clock.slew, Clock.idx, Config.tickCycles] at * <;> omega
      · cases add2 <;> rfl
    · have hask : s.asksSlew add2 = true := by
        unfold State.asksSlew
        rw [if_pos hrem, hdir]
        simp
      refine ⟨_, hexec hask, hns, ?_, rfl, stepRemMoves_keeps _ _ _ hflow.toKeeps⟩
      show (d.stepRemMoves _ _ _).tim.stepRem.natAbs + 1 = _
      rw [stepRemMoves_rem d _ _ hrem, hdir]
      split
      next h => have := of_decide_eq_true h; omega
      next h => have := of_decide_eq_false (Bool.eq_false_iff.mpr h); omega
  · have hmay : s.clk.mayslew add2 = false := by
      simp only [Clock.mayslew, Bool.and_eq_false_iff, decide_eq_false_iff_not]
      omega
    rw [execSlewEdge_eq, if_neg (by rw [hmay]; simp)]

/-! ### Windows of the tick -/

/-- A window's work comes about on the edge at its lowest index, on what the passing edges leave. -/
theorem State.inWindow_spec {s : State} (hs : s.serving) {lo hi code : Nat} (hlo : lo ≤ 124999) (hidx : s.clk.idx ≤ hi)
    (hdone : s.chip.done.contains code = false) (f : Clock → Chip → Chip) :
    ∃ u : State, s.Runs u ∧ s.Flows u ∧ u.clk.idx = max s.clk.idx lo ∧
      s.inWindow lo hi code f = { u with chip := { f u.clk u.chip with done := code :: u.chip.done } } := by
  obtain ⟨hrun, hwf, hset⟩ := hs
  have hs : s.serving := ⟨hrun, hwf, hset⟩
  have hflow := State.toIdx_flows hs lo
  refine ⟨s.toIdx lo, (s.toIdx_passes lo).runs hset, hflow, s.toIdx_idx lo hlo, ?_⟩
  have hnd : (s.toIdx lo).chip.done.contains code = false := by rw [hflow.done]; exact hdone
  unfold State.inWindow
  rw [if_neg (by omega), State.actAt_running s lo _ hrun]
  dsimp only
  rw [hnd, if_neg (by decide)]

/-- Work done at an index of the tick. -/
theorem State.actAt_spec {s : State} (hs : s.serving) {i : Nat} (hi : i ≤ 124999) (f : Clock → Chip → Chip) :
    ∃ u : State, s.Runs u ∧ s.Flows u ∧ u.clk.idx = max s.clk.idx i ∧ s.actAt i f = { u with chip := f u.clk u.chip } := by
  obtain ⟨hrun, hwf, hset⟩ := hs
  exact ⟨s.toIdx i, (s.toIdx_passes i).runs hset, State.toIdx_flows ⟨hrun, hwf, hset⟩ i, s.toIdx_idx i hi, State.actAt_running s i f hrun⟩
/-- What follows passing edges keeps what they keep. -/
theorem State.Runs.then_keeps {s u : State} (h : s.Runs u) {c : Chip} (hc : Chip.Keeps u.chip c) : s.Runs { u with chip := c } := by
  obtain ⟨hp, ht, hsec, he, hk⟩ := h
  exact ⟨hp, ht, hsec, he, hk.trans hc⟩
theorem Chip.Keeps.withDone {z c : Chip} (h : Chip.Keeps z c) (l : List Nat) : Chip.Keeps z { c with done := l } :=
  ⟨h.staged, h.live, h.snap, h.statusEnd, h.boot, h.port, h.wf⟩

end Sys2Proof.Machine
end

section
/-! PROOFS. What the operations leave that take up a new bank or a new role (`Chip.Rides`): the window but its interrupt side, DIR, the
requests and roles of the twin engine, and the twin's own status fields. -/

namespace Sys2Proof.Machine
open Sys2Proof
set_option linter.unusedTactic false
set_option linter.unreachableTactic false

/-- Status fields of the twin engine that only its own commands write. -/
def seatFields : List Fld :=
  [TWIN.MIRTAG, TWIN.TAKEOVERS, TWIN.HANDOVERS, TWIN.RQRES, TWIN.LINKUP, TWIN.COMPATOK, TWIN.PEERROLE, TWIN.PEERCOMPAT, TWIN.BANKLAG]
theorem seatFields_fit : ∀ g ∈ seatFields, g.fits = true ∧ g.tab = 0x70 ∧ 4 ≤ g.wrd := by decide
theorem seatFields_apart : ∀ g ∈ seatFields, g.apart TWIN.ARMED = true ∧ g.apart TWIN.CAUSE = true := by decide

/-- The status fields of a table other than TWIN's, wherever a row number may lead. -/
def Fld.offTwin (f : Fld) : Bool := decide (f.wrd < 4096) && (decide (f.tab < 0x68) || decide (0x70 < f.tab))
/-- A status field of TWIN apart from those that only the twin's own commands write. -/
def Fld.besideSeat (f : Fld) : Bool := f.fits && f.tab == 0x70 && (TWIN.ARMED :: TWIN.CAUSE :: seatFields).all fun g => g.apart f

/-- Row numbers that do not lead to a word of TWIN's row from its fifth on. -/
def Fld.reach (f : Fld) : Nat := if f.wrd < 4 then 1000000 else if f.tab = 0x60 then 65536 else 32768
theorem Fld.lt_reach {f : Fld} {r : Nat} (h : r < 32768) : r < f.reach := by
  unfold Fld.reach
  split
  · omega
  · split <;> omega
theorem Fld.lt_reach_src {f : Fld} {s : Nat} (h : s < 65536) (ht : f.tab = 0x60) : s < f.reach := by
  unfold Fld.reach
  rw [if_pos ht]
  split <;> omega
theorem Fld.lt_reach_low {f : Fld} {r : Nat} (h : r < 1000000) (hw : decide (f.wrd < 4) = true) : r < f.reach := by
  unfold Fld.reach
  rw [if_pos (of_decide_eq_true hw)]
  exact h
theorem Fld.addr_offTwin {f g : Fld} {r : Nat} (hf : f.offTwin = true) (hr : r < f.reach) (hg : g.fits = true) (ht : g.tab = 0x70)
    (hge : 4 ≤ g.wrd) : g.addr 0 ≠ f.addr r := by
  simp only [Fld.offTwin, Bool.and_eq_true, Bool.or_eq_true, decide_eq_true_eq] at hf
  have hw := (Fld.fits_iff.mp hg).2
  unfold Fld.reach at hr
  unfold Fld.addr hAddr
  split at hr
  · omega
  · split at hr <;> omega

namespace Chip

/-- From `z` to `c` what the twin's own commands write stays. -/
structure Rides (z c : Chip) : Prop extends Keeps z c where
  win : c.win.still = z.win.still
  causes : ∀ n, z.win.icause.getLsbD n = true → c.win.icause.getLsbD n = true
  twin : c.twin.still = z.twin.still
  dir : c.dir.still = z.dir.still
  armed : z.heath.status.wf = true → z.st TWIN.ARMED 0 = 0 → c.st TWIN.ARMED 0 = 0
  marks : z.heath.status.wf = true → ∀ n, (z.st TWIN.CAUSE 0).testBit n = true → (c.st TWIN.CAUSE 0).testBit n = true
  stat : z.heath.status.wf = true → ∀ f ∈ seatFields, c.st f 0 = z.st f 0

namespace Rides

theorem refl (z : Chip) : Rides z z :=
  { Keeps.refl z with
    win := rfl, causes := fun _ h => h, twin := rfl, dir := rfl, armed := fun _ h => h, marks := fun _ _ h => h, stat := fun _ _ _ => rfl }
theorem trans {a b c : Chip} (h : Rides a b) (g : Rides b c) : Rides a c :=
  { h.toKeeps.trans g.toKeeps with
    win := g.win.trans h.win, causes := fun n hn => g.causes n (h.causes n hn), twin := g.twin.trans h.twin, dir := g.dir.trans h.dir
    armed := fun hw ha => g.armed (h.wf hw) (h.armed hw ha), marks := fun hw n hn => g.marks (h.wf hw) n (h.marks hw n hn)
    stat := fun hw f hf => (g.stat (h.wf hw) f hf).trans (h.stat hw f hf) }
theorem ite {z a b : Chip} {p : Prop} [Decidable p] (ha : Rides z a) (hb : Rides z b) : Rides z (if p then a else b) := by
  split <;> assumption
theorem iteElse {z a c : Chip} {p : Prop} [Decidable p] (h : Rides z c) (ha : Rides z c → Rides z a) : Rides z (if p then a else c) :=
  ite (ha h) h
theorem foldl {z c : Chip} {α : Type} (l : List α) {f : Chip → α → Chip} (h : Rides z c)
    (hf : ∀ a, ∀ x ∈ l, Rides z a → Rides z (f a x)) : Rides z (l.foldl f c) := by
  induction l generalizing c with
  | nil => exact h
  | cons x r ih => exact ih (hf c x (List.mem_cons_self ..) h) fun a y hy => hf a y (List.mem_cons_of_mem _ hy)
theorem overN {z c : Chip} (n : Nat) {f : Nat → Chip → Chip} (h : Rides z c) (hf : ∀ i, i < n → ∀ a, Rides z a → Rides z (f i a)) :
    Rides z (overN n f c) :=
  foldl _ h fun a x hx ha => hf x (List.mem_range.mp hx) a ha
theorem ofIte {z y : Chip} {p : Prop} [Decidable p] {α : Type} {a b : Chip × α} {v} (e : (if p then a else b) = (y, v))
    (ha : Rides z a.1) (hb : Rides z b.1) : Rides z y := by
  split at e
  · rw [e] at ha; exact ha
  · rw [e] at hb; exact hb

/-! ### One rule for each operation on the state -/

/-- The parts that none of these facts is about. -/
theorem upd {z c : Chip} (h : Rides z c) (col que upl trib sched gfp aps mead drop aud tim dpll pow qf dn fr) :
    Rides z ⟨c.boot, c.port, c.win, c.dir, c.heath, col, que, upl, trib, sched, gfp, aps, mead, drop, aud, tim, dpll, c.twin, pow, qf, dn, fr⟩ :=
  ⟨⟨h.staged, h.live, h.snap, h.statusEnd, h.boot, h.port, h.wf⟩, h.win, h.causes, h.twin, h.dir, h.armed, h.marks, h.stat⟩
theorem onQ {z c : Chip} (i : Nat) (f : Queue → Queue) (h : Rides z c) : Rides z (c.onQ i f) := upd h ..
theorem onU {z c : Chip} (i : Nat) (f : Uplink → Uplink) (h : Rides z c) : Rides z (c.onU i f) := upd h ..
theorem onT {z c : Chip} (i : Nat) (f : Trib → Trib) (h : Rides z c) : Rides z (c.onT i f) := upd h ..
theorem onD {z c : Chip} (i : Nat) (f : Drop → Drop) (h : Rides z c) : Rides z (c.onD i f) := upd h ..
theorem onP {z c : Chip} (i : Nat) (f : Aps → Aps) (h : Rides z c) : Rides z (c.onP i f) := upd h ..
theorem onM {z c : Chip} (f : Meadow → Meadow) (h : Rides z c) : Rides z (c.onM f) := upd h ..
theorem onCol {z c : Chip} (f : Collector → Collector) (h : Rides z c) : Rides z (c.onCol f) := upd h ..
theorem onTime {z c : Chip} (f : TimeEng → TimeEng) (h : Rides z c) : Rides z (c.onTime f) := upd h ..
theorem onPow {z c : Chip} (f : Power → Power) (h : Rides z c) : Rides z (c.onPow f) := upd h ..
theorem onSide {z c : Chip} (p : Nat) (rx : Bool) (f : ASide → ASide) (h : Rides z c) : Rides z (c.onSide p rx f) := upd h ..
theorem onCh {z c : Chip} (i : Nat) (f : Channel → Channel) (h : Rides z c) : Rides z (c.onCh i f) := upd h ..
theorem onRef {z c : Chip} (i : Nat) (f : RefMon → RefMon) (h : Rides z c) : Rides z (c.onRef i f) := upd h ..
theorem onOut {z c : Chip} (o : Nat) (f : Output → Output) (h : Rides z c) : Rides z (c.onOut o f) := upd h ..
theorem draw {z c : Chip} (h : Rides z c) : Rides z c.draw.2 := upd h ..
theorem draw_eq {z c y : Chip} {a} (e : c.draw = (a, y)) (h : Rides z c) : Rides z y := by
  have := Rides.draw h; rw [e] at this; exact this
theorem onDir {z c : Chip} (f : Dir → Dir) (hf : ∀ x, (f x).still = x.still) (h : Rides z c) : Rides z (c.onDir f) :=
  h.trans { (Keeps.refl c).onDir f, refl c with dir := hf _ }
theorem onTwin {z c : Chip} (f : Twin → Twin) (hf : ∀ x, (f x).still = x.still) (h : Rides z c) : Rides z (c.onTwin f) :=
  h.trans { (Keeps.refl c).onTwin f, refl c with twin := hf _ }
theorem onHeath {z c : Chip} {f : Heath → Heath} (h : Rides z c) (hf : ∀ x, (f x).staged = x.staged ∧ (f x).live = x.live ∧
    (f x).snap = x.snap ∧ (f x).statusEnd = x.statusEnd ∧ (f x).status = x.status) : Rides z (c.onHeath f) := by
  obtain ⟨-, -, -, -, hst⟩ := hf c.heath
  have hs : ∀ g r, (c.onHeath f).st g r = c.st g r := fun g r => congrArg (fun b : Bank => b.fld g r) hst
  exact h.trans { (Keeps.refl c).onHeath hf, refl c with
    armed := fun _ h => (hs _ _).trans h, marks := fun _ n hn => (congrArg (Nat.testBit · n) (hs _ _)).trans hn, stat := fun _ g _ => hs g 0 }
theorem markEvent {z c : Chip} (a : Nat) (w : Word) (h : Rides z c) : Rides z (c.markEvent a w) :=
  h.trans { (Keeps.refl c).markEvent a w, refl c with }
theorem icause {z c : Chip} (k : Clock) (n : Nat) (h : Rides z c) : Rides z (c.icause k n) :=
  h.trans { (Keeps.refl c).icause k n, refl c with
    causes := fun i hi => by rw [icause_bits, BitVec.getLsbD_or, hi, Bool.true_or] }

/-- Status words. -/
theorem withStatusOf {z c : Chip} (b : Bank) (hk : Keeps c (c.withStatus b))
    (ha : c.heath.status.wf = true → c.st TWIN.ARMED 0 = 0 → (c.withStatus b).st TWIN.ARMED 0 = 0)
    (hm : c.heath.status.wf = true → ∀ n, (c.st TWIN.CAUSE 0).testBit n = true → ((c.withStatus b).st TWIN.CAUSE 0).testBit n = true)
    (hs : c.heath.status.wf = true → ∀ g ∈ seatFields, (c.withStatus b).st g 0 = c.st g 0) (h : Rides z c) : Rides z (c.withStatus b) :=
  h.trans { hk, refl c with armed := ha, marks := hm, stat := hs }
/-- Status words outside TWIN's row. -/
theorem withStatus {z c : Chip} (b : Bank) (hk : Keeps c (c.withStatus b))
    (hs : ∀ g : Fld, g.fits = true → g.tab = 0x70 → 4 ≤ g.wrd → (c.withStatus b).st g 0 = c.st g 0) (h : Rides z c) : Rides z (c.withStatus b) :=
  h.trans { hk, refl c with
    armed := fun _ h => (hs _ rfl rfl (by decide)).trans h, marks := fun _ n hn => (congrArg (Nat.testBit · n) (hs _ rfl rfl (by decide))).trans hn
    stat := fun _ g hg => hs g (seatFields_fit g hg).1 (seatFields_fit g hg).2.1 (seatFields_fit g hg).2.2 }
theorem setSt {z c : Chip} (f : Fld) (r v : Nat) (hf : f.offTwin = true) (hr : r < f.reach) (h : Rides z c) : Rides z (c.setSt f r v) := by
  refine withStatus _ ((Keeps.refl c).setSt f r v) (fun g hg ht hge => ?_) h
  exact st_setSt_word c f g r 0 v (Fld.addr_offTwin hf hr hg ht hge)
theorem addSt {z c : Chip} (f : Fld) (r v : Nat) (hf : f.offTwin = true) (hr : r < f.reach) (h : Rides z c) : Rides z (c.addSt f r v) :=
  setSt f r _ hf hr h
theorem satSt {z c : Chip} (f : Fld) (r v : Nat) (hf : f.offTwin = true) (hr : r < f.reach) (h : Rides z c) : Rides z (c.satSt f r v) :=
  setSt f r _ hf hr h
theorem orSt {z c : Chip} (f : Fld) (r v : Nat) (hf : f.offTwin = true) (hr : r < f.reach) (h : Rides z c) : Rides z (c.orSt f r v) := by
  unfold Chip.orSt
  exact (setSt f r _ hf hr h).markEvent _ _
theorem cause {z c : Chip} (k : Clock) (g : CauseReg) (r b : Nat) (hf : g.cause.offTwin = true) (hr : r < g.cause.reach) (h : Rides z c) :
    Rides z (c.cause k g r b) :=
  ite (orSt _ _ _ hf hr h) (icause _ _ (orSt _ _ _ hf hr h))
theorem causeIf {z c : Chip} (k : Clock) (g : CauseReg) (r b : Nat) (hf : g.cause.offTwin = true) (hr : r < g.cause.reach) (h : Rides z c) :
    Rides z (c.causeIf k g r b) :=
  ite h (cause _ _ _ _ hf hr h)
theorem qReg_off (i : Nat) : (qReg i).cause.offTwin = true := by unfold qReg; split <;> rfl

/-- Another status field of TWIN. -/
theorem setSt_beside {z c : Chip} (f : Fld) (v : Nat) (hf : f.besideSeat = true) (h : Rides z c) : Rides z (c.setSt f 0 v) := by
  simp only [Fld.besideSeat, Bool.and_eq_true, List.all_eq_true, beq_iff_eq] at hf
  obtain ⟨⟨hfit, -⟩, hap⟩ := hf
  have hs : c.heath.status.wf = true → ∀ g ∈ TWIN.ARMED :: TWIN.CAUSE :: seatFields, g.fits = true → (c.setSt f 0 v).st g 0 = c.st g 0 :=
    fun hw g hg hgf => st_setSt_other v hw hgf hfit (by decide) (by decide) (.inr (.inr (hap g hg)))
  have ha := fun hw => hs hw TWIN.ARMED (by decide) rfl
  have hm := fun hw => hs hw TWIN.CAUSE (by decide) rfl
  have hst := fun hw g hg => hs hw g (List.mem_cons_of_mem _ (List.mem_cons_of_mem _ hg)) (seatFields_fit g hg).1
  exact withStatusOf _ ((Keeps.refl c).setSt f 0 v) (fun hw h => (ha hw).trans h)
    (fun hw n hn => (congrArg (Nat.testBit · n) (hm hw)).trans hn) hst h
/-- ARMED falls. -/
theorem setSt_unarmed {z c : Chip} (h : Rides z c) : Rides z (c.setSt TWIN.ARMED 0 0) := by
  have ha : c.heath.status.wf = true → (c.setSt TWIN.ARMED 0 0).st TWIN.ARMED 0 = 0 := fun hw => st_setSt_same c _ 0 0 hw (by decide)
  have hm : c.heath.status.wf = true → (c.setSt TWIN.ARMED 0 0).st TWIN.CAUSE 0 = c.st TWIN.CAUSE 0 := fun hw =>
    st_setSt_other 0 hw rfl rfl (by decide) (by decide) (.inr (.inr rfl))
  have hst : c.heath.status.wf = true → ∀ g ∈ seatFields, (c.setSt TWIN.ARMED 0 0).st g 0 = c.st g 0 := fun hw g hg =>
    st_setSt_other 0 hw (seatFields_fit g hg).1 rfl (by decide) (by decide) (.inr (.inr (seatFields_apart g hg).1))
  exact withStatusOf _ ((Keeps.refl c).setSt TWIN.ARMED 0 0) (fun hw _ => ha hw)
    (fun hw n hn => (congrArg (Nat.testBit · n) (hm hw)).trans hn) hst h
/-- Cause bits of the twin engine. -/
theorem cause_twin {z c : Chip} (k : Clock) (b : Nat) (h : Rides z c) : Rides z (c.cause k .twin 0 b) := by
  have hcalm : Calm c (c.cause k .twin 0 b) := .cause k .twin 0 b rfl (by decide) (.refl c)
  have hs : c.heath.status.wf = true → ∀ g : Fld, g.fits = true → g.apart TWIN.CAUSE = true → (c.cause k .twin 0 b).st g 0 = c.st g 0 :=
    fun hw g hg hga => by
      rw [st_cause_orSt]
      exact st_setSt_other _ hw hg rfl (by decide) (by decide) (.inr (.inr hga))
  have ha := fun hw => hs hw TWIN.ARMED rfl rfl
  have hst := fun hw g hg => hs hw g (seatFields_fit g hg).1 (seatFields_apart g hg).2
  generalize c.cause k .twin 0 b = d at *
  exact h.trans { hcalm.toQuiet.toKeeps with
    win := congrArg (fun w : Window => { w with glint := 0#32, tsec := 0#32, glintEvc := 0 }) hcalm.win
    causes := hcalm.causes
    twin := congrArg (fun t : Twin => { t with lossNow := false, nextSeq := 0 }) hcalm.twin
    dir := congrArg Dir.still hcalm.dir
    armed := fun hw h => (ha hw).trans h
    marks := fun hw n hn => hcalm.marks hw TWIN.CAUSE (by decide) 0 (by decide) n hn
    stat := hst }
theorem disarm {z c : Chip} (k : Clock) (h : Rides z c) : Rides z (c.disarm k) := ite ((setSt_unarmed h).cause_twin k 8) h

/-! ### The operations that they are made of -/

theorem row_lv (f : Fld) (r : Nat) {c : Chip} (h : decide (2 ^ f.width ≤ 8192) = true) : c.lv f r < 8192 :=
  (f.get_lt _).trans_le (of_decide_eq_true h)
theorem row_bank (f : Fld) (r : Nat) {b : Bank} (h : decide (2 ^ f.width ≤ 8192) = true) : b.fld f r < 8192 :=
  (f.get_lt _).trans_le (of_decide_eq_true h)
theorem row_st (f : Fld) (r : Nat) {c : Chip} (h : decide (2 ^ f.width ≤ 8192) = true) : c.st f r < 8192 :=
  (f.get_lt _).trans_le (of_decide_eq_true h)
theorem rxQueue_lt {c : Chip} {d kind q : Nat} (h : c.rxQueue d kind = some q) : q < 8192 := by
  unfold rxQueue at h
  split at h <;> (split at h <;> cases h <;> exact row_lv _ _ rfl)
theorem setBlk {z c : Chip} (b : Nat) (s : PwrState) (h : Rides z c) : Rides z (c.setBlk b s) := onPow _ h
theorem grpOf_small {s : Nat} (h : s < 65536) : grpOf s < 4096 := by unfold grpOf; omega
theorem rowOf_lt (a : Nat) : rowOf a < 4096 := Nat.mod_lt _ (by decide)
theorem rows_lt {b : Bank} {t r : Nat} (h : r ∈ b.rows t) : r < 4096 := by
  unfold Bank.rows at h
  induction b with
  | nil => exact absurd h (List.not_mem_nil)
  | cons x l ih =>
    rw [List.foldr_cons] at h
    split at h
    · rcases mem_insertSorted.mp h with e | e
      · exact e ▸ rowOf_lt _
      · exact ih e
    · exact ih h
theorem mem_foldl_insertSorted {α : Type} {g : α → Nat} {x : Nat} (l : List α) : ∀ {m : List Nat},
    x ∈ l.foldl (fun m a => insertSorted (g a) m) m → (∃ a ∈ l, x = g a) ∨ x ∈ m := by
  induction l with
  | nil => exact fun h => .inr h
  | cons a l ih =>
    intro m h
    rcases ih h with ⟨b, hb, e⟩ | h
    · exact .inl ⟨b, List.mem_cons_of_mem _ hb, e⟩
    · rcases mem_insertSorted.mp h with e | e
      · exact .inl ⟨a, List.mem_cons_self .., e⟩
      · exact .inr e
theorem touched_lt {c : Chip} {old : Bank} {t r : Nat} (h : r ∈ c.touched old t) : r < 4096 := by
  rcases mem_foldl_insertSorted (g := fun r => r) _ h with ⟨a, ha, e⟩ | h
  · exact e ▸ rows_lt ha
  · exact rows_lt h
theorem slots_lt {l : List Nat} {r : Nat} (hl : ∀ a ∈ l, a < 4096) (h : r ∈ l.foldl (fun m a => insertSorted (a / 2) m) []) : r < 4096 := by
  rcases mem_foldl_insertSorted (g := fun a => a / 2) _ h with ⟨a, ha, e⟩ | h
  · have := hl a ha
    omega
  · exact absurd h (List.not_mem_nil)
theorem bestRef_lt {c : Chip} {ch r : Nat} (h : c.bestRef ch = some r) : r < 8 := by
  unfold bestRef at h
  have hl : ∀ x ∈ (List.range 8).filter (c.maySelect ch), x < 8 := fun x hx => List.mem_range.mp (List.mem_filter.mp hx).1
  have main : ∀ (l : List Nat) (b : Option Nat), (∀ x ∈ l, x < 8) → (∀ x, b = some x → x < 8) →
      ∀ x, l.foldl (fun b r => match b with
        | none => some r
        | some s => if c.ranksAbove ch r s then some r else some s) b = some x → x < 8 := by
    intro l
    induction l with
    | nil => exact fun b _ hb x hx => hb x hx
    | cons a l ih =>
      intro b ha hb
      refine ih _ (fun x hx => ha x (List.mem_cons_of_mem _ hx)) fun x hx => ?_
      have haa := ha a (List.mem_cons_self ..)
      cases b with
      | none => cases hx; exact haa
      | some s =>
        dsimp only at hx
        split at hx
        · cases hx; exact haa
        · exact hb _ hx
  exact main _ _ hl (fun _ h => absurd h (by simp)) r h
theorem forRows {z c : Chip} (rows : List Nat) {f : Nat → Chip → Chip} (h : Rides z c) (hf : ∀ r ∈ rows, ∀ a, Rides z a → Rides z (f r a)) :
    Rides z (c.forRows rows f) := foldl _ h fun a x hx ha => hf x hx a ha
theorem qSync {z c : Chip} (i : Nat) (hi : i < 8192) (hz : Rides z c) : Rides z (c.qSync i) := by
  unfold Chip.qSync
  repeat' (first | with_reducible assumption | omega | exact Fld.lt_reach (by omega) | exact Fld.lt_reach_src (by omega) rfl | exact Fld.lt_reach_low (by omega) rfl | exact Fld.lt_reach (grpOf_small (by omega) |>.trans (by decide)) | exact row_lv _ _ rfl | exact row_bank _ _ rfl | exact row_st _ _ rfl | exact slots_lt (fun _ h => touched_lt h) (by with_reducible assumption) | (exact touched_lt (by with_reducible assumption)) | exact grpOf_small (by omega) | exact (grpOf_small (by with_reducible assumption)).trans (by decide) | exact (bestRef_lt (by with_reducible assumption)).trans (by decide) | with_reducible exact qReg_off _ | exact rfl | exact fun _ => rfl | (exact (touched_lt (by with_reducible assumption)).trans (by decide)) | with_reducible exact Rides.refl _ | with_reducible apply Rides.setSt | (intro; intros))
theorem qDropped {z c : Chip} (k : Clock) (i : Nat) (hi : i < 8192) (hz : Rides z c) : Rides z (c.qDropped k i) := by
  unfold Chip.qDropped
  repeat' (first | with_reducible assumption | omega | exact Fld.lt_reach (by omega) | exact Fld.lt_reach_src (by omega) rfl | exact Fld.lt_reach_low (by omega) rfl | exact Fld.lt_reach (grpOf_small (by omega) |>.trans (by decide)) | exact row_lv _ _ rfl | exact row_bank _ _ rfl | exact row_st _ _ rfl | exact slots_lt (fun _ h => touched_lt h) (by with_reducible assumption) | (exact touched_lt (by with_reducible assumption)) | exact grpOf_small (by omega) | exact (grpOf_small (by with_reducible assumption)).trans (by decide) | exact (bestRef_lt (by with_reducible assumption)).trans (by decide) | with_reducible exact qReg_off _ | exact rfl | exact fun _ => rfl | (exact (touched_lt (by with_reducible assumption)).trans (by decide)) | with_reducible exact Rides.refl _ | with_reducible apply Rides.addSt | with_reducible apply Rides.onQ | with_reducible apply Rides.cause | (intro; intros))
theorem qRewound {z c : Chip} (k : Clock) (i : Nat) (hi : i < 8192) (hz : Rides z c) : Rides z (c.qRewound k i) := by
  unfold Chip.qRewound
  repeat' (first | with_reducible assumption | omega | exact Fld.lt_reach (by omega) | exact Fld.lt_reach_src (by omega) rfl | exact Fld.lt_reach_low (by omega) rfl | exact Fld.lt_reach (grpOf_small (by omega) |>.trans (by decide)) | exact row_lv _ _ rfl | exact row_bank _ _ rfl | exact row_st _ _ rfl | exact slots_lt (fun _ h => touched_lt h) (by with_reducible assumption) | (exact touched_lt (by with_reducible assumption)) | exact grpOf_small (by omega) | exact (grpOf_small (by with_reducible assumption)).trans (by decide) | exact (bestRef_lt (by with_reducible assumption)).trans (by decide) | with_reducible exact qReg_off _ | exact rfl | exact fun _ => rfl | (exact (touched_lt (by with_reducible assumption)).trans (by decide)) | with_reducible exact Rides.refl _ | with_reducible apply Rides.addSt | with_reducible apply Rides.cause | (intro; intros))
theorem qRewounds {z c : Chip} (k : Clock) (i n : Nat) (hi : i < 8192) (hz : Rides z c) : Rides z (c.qRewounds k i n) := by
  unfold Chip.qRewounds
  repeat' (first | with_reducible assumption | omega | exact Fld.lt_reach (by omega) | exact Fld.lt_reach_src (by omega) rfl | exact Fld.lt_reach_low (by omega) rfl | exact Fld.lt_reach (grpOf_small (by omega) |>.trans (by decide)) | exact row_lv _ _ rfl | exact row_bank _ _ rfl | exact row_st _ _ rfl | exact slots_lt (fun _ h => touched_lt h) (by with_reducible assumption) | (exact touched_lt (by with_reducible assumption)) | exact grpOf_small (by omega) | exact (grpOf_small (by with_reducible assumption)).trans (by decide) | exact (bestRef_lt (by with_reducible assumption)).trans (by decide) | with_reducible exact qReg_off _ | exact rfl | exact fun _ => rfl | (exact (touched_lt (by with_reducible assumption)).trans (by decide)) | with_reducible exact Rides.refl _ | with_reducible apply Rides.addSt | with_reducible apply Rides.cause | with_reducible apply Rides.iteElse | (intro; intros))
theorem qRewind {z c : Chip} (k : Clock) (i kind unit : Nat) (hi : i < 8192) (hz : Rides z c) : Rides z (c.qRewind k i kind unit) := by
  unfold Chip.qRewind
  repeat' (first | with_reducible assumption | omega | exact Fld.lt_reach (by omega) | exact Fld.lt_reach_src (by omega) rfl | exact Fld.lt_reach_low (by omega) rfl | exact Fld.lt_reach (grpOf_small (by omega) |>.trans (by decide)) | exact row_lv _ _ rfl | exact row_bank _ _ rfl | exact row_st _ _ rfl | exact slots_lt (fun _ h => touched_lt h) (by with_reducible assumption) | (exact touched_lt (by with_reducible assumption)) | exact grpOf_small (by omega) | exact (grpOf_small (by with_reducible assumption)).trans (by decide) | exact (bestRef_lt (by with_reducible assumption)).trans (by decide) | with_reducible exact qReg_off _ | exact rfl | exact fun _ => rfl | (exact (touched_lt (by with_reducible assumption)).trans (by decide)) | with_reducible exact Rides.refl _ | with_reducible apply Rides.onQ | with_reducible apply Rides.qRewound | with_reducible apply Rides.iteElse | (intro; intros) | fail_if_no_progress extract_lets | split)
theorem qRecord {z c : Chip} (k : Clock) (i kind unit : Nat) (bs : List Byte) (e : Nat) (hi : i < 8192) (hz : Rides z c) : Rides z (c.qRecord k i kind unit bs e).1 := by
  unfold Chip.qRecord
  repeat' (first | with_reducible assumption | omega | exact Fld.lt_reach (by omega) | exact Fld.lt_reach_src (by omega) rfl | exact Fld.lt_reach_low (by omega) rfl | exact Fld.lt_reach (grpOf_small (by omega) |>.trans (by decide)) | exact row_lv _ _ rfl | exact row_bank _ _ rfl | exact row_st _ _ rfl | exact slots_lt (fun _ h => touched_lt h) (by with_reducible assumption) | (exact touched_lt (by with_reducible assumption)) | exact grpOf_small (by omega) | exact (grpOf_small (by with_reducible assumption)).trans (by decide) | exact (bestRef_lt (by with_reducible assumption)).trans (by decide) | with_reducible exact qReg_off _ | exact rfl | exact fun _ => rfl | (exact (touched_lt (by with_reducible assumption)).trans (by decide)) | with_reducible exact Rides.refl _ | with_reducible apply Rides.onQ | with_reducible apply Rides.qDropped | with_reducible apply Rides.iteElse | (intro; intros) | fail_if_no_progress extract_lets | split)
theorem qRecord_eq {z c y : Chip} (k : Clock) (i kind unit : Nat) (bs : List Byte) (e : Nat)  {az} (hi : i < 8192) (ez : c.qRecord k i kind unit bs e = (y, az)) (hz : Rides z c) : Rides z y := by
  have := Rides.qRecord k i kind unit bs e hi hz; rw [ez] at this; exact this
theorem qFlush {z c : Chip} (k : Clock) (i : Nat) (whole : Bool) (hi : i < 8192) (hz : Rides z c) : Rides z (c.qFlush k i whole) := by
  unfold Chip.qFlush
  repeat' (first | with_reducible assumption | omega | exact Fld.lt_reach (by omega) | exact Fld.lt_reach_src (by omega) rfl | exact Fld.lt_reach_low (by omega) rfl | exact Fld.lt_reach (grpOf_small (by omega) |>.trans (by decide)) | exact row_lv _ _ rfl | exact row_bank _ _ rfl | exact row_st _ _ rfl | exact slots_lt (fun _ h => touched_lt h) (by with_reducible assumption) | (exact touched_lt (by with_reducible assumption)) | exact grpOf_small (by omega) | exact (grpOf_small (by with_reducible assumption)).trans (by decide) | exact (bestRef_lt (by with_reducible assumption)).trans (by decide) | with_reducible exact qReg_off _ | exact rfl | exact fun _ => rfl | (exact (touched_lt (by with_reducible assumption)).trans (by decide)) | with_reducible exact Rides.refl _ | with_reducible apply Rides.onQ | with_reducible apply Rides.qRewounds | with_reducible apply Rides.addSt | with_reducible apply Rides.qSync | with_reducible apply Rides.qRewound | with_reducible apply Rides.qDropped | with_reducible apply Rides.iteElse | (intro; intros))
theorem qReturn {z c : Chip} (k : Clock) (i : Nat) (h : Rides z c) : Rides z (c.qReturn k i) := by
  unfold Chip.qReturn
  by_cases hi : i < 12
  · exact ite (qRewound k i (by omega) (onQ i _ h)) h
  · have hq : c.q i = {} := by
      unfold q vget
      rw [Vector.getElem?_eq_none (by omega)]
      rfl
    rw [hq]
    exact h
theorem beginWake {z c : Chip} (b e : Nat) (hz : Rides z c) : Rides z (c.beginWake b e) := by
  unfold Chip.beginWake
  repeat' (first | with_reducible assumption | omega | exact Fld.lt_reach (by omega) | exact Fld.lt_reach_src (by omega) rfl | exact Fld.lt_reach_low (by omega) rfl | exact Fld.lt_reach (grpOf_small (by omega) |>.trans (by decide)) | exact row_lv _ _ rfl | exact row_bank _ _ rfl | exact row_st _ _ rfl | exact slots_lt (fun _ h => touched_lt h) (by with_reducible assumption) | (exact touched_lt (by with_reducible assumption)) | exact grpOf_small (by omega) | exact (grpOf_small (by with_reducible assumption)).trans (by decide) | exact (bestRef_lt (by with_reducible assumption)).trans (by decide) | with_reducible exact qReg_off _ | exact rfl | exact fun _ => rfl | (exact (touched_lt (by with_reducible assumption)).trans (by decide)) | with_reducible exact Rides.refl _ | with_reducible apply Rides.onPow | with_reducible apply Rides.iteElse | (intro; intros))
theorem syncLasers {z c : Chip} (hz : Rides z c) : Rides z (c.syncLasers) := by
  unfold Chip.syncLasers
  repeat' (first | with_reducible assumption | omega | exact Fld.lt_reach (by omega) | exact Fld.lt_reach_src (by omega) rfl | exact Fld.lt_reach_low (by omega) rfl | exact Fld.lt_reach (grpOf_small (by omega) |>.trans (by decide)) | exact row_lv _ _ rfl | exact row_bank _ _ rfl | exact row_st _ _ rfl | exact slots_lt (fun _ h => touched_lt h) (by with_reducible assumption) | (exact touched_lt (by with_reducible assumption)) | exact grpOf_small (by omega) | exact (grpOf_small (by with_reducible assumption)).trans (by decide) | exact (bestRef_lt (by with_reducible assumption)).trans (by decide) | with_reducible exact qReg_off _ | exact rfl | exact fun _ => rfl | (exact (touched_lt (by with_reducible assumption)).trans (by decide)) | with_reducible exact Rides.refl _ | with_reducible apply Rides.onU | with_reducible apply Rides.overN | with_reducible apply Rides.iteElse | (intro; intros))
theorem syncClaim {z c : Chip} (k : Clock) (h : Rides z c) : Rides z (c.syncClaim k) := by
  unfold Chip.syncClaim
  exact setSt_beside TWIN.CLAIMO _ rfl (onTwin _ (fun _ => rfl) h)
theorem syncSide {z c : Chip} (p : Nat) (rx : Bool) (hp : p < 4096) (hz : Rides z c) : Rides z (c.syncSide p rx) := by
  unfold Chip.syncSide
  repeat' (first | with_reducible assumption | omega | exact Fld.lt_reach (by omega) | exact Fld.lt_reach_src (by omega) rfl | exact Fld.lt_reach_low (by omega) rfl | exact Fld.lt_reach (grpOf_small (by omega) |>.trans (by decide)) | exact row_lv _ _ rfl | exact row_bank _ _ rfl | exact row_st _ _ rfl | exact slots_lt (fun _ h => touched_lt h) (by with_reducible assumption) | (exact touched_lt (by with_reducible assumption)) | exact grpOf_small (by omega) | exact (grpOf_small (by with_reducible assumption)).trans (by decide) | exact (bestRef_lt (by with_reducible assumption)).trans (by decide) | with_reducible exact qReg_off _ | exact rfl | exact fun _ => rfl | (exact (touched_lt (by with_reducible assumption)).trans (by decide)) | with_reducible exact Rides.refl _ | with_reducible apply Rides.setSt | with_reducible apply Rides.iteElse | (intro; intros))
theorem setRun {z c : Chip} (k : Clock) (p : Nat) (rx b : Bool) (hp : p < 4096) (hz : Rides z c) : Rides z (c.setRun k p rx b) := by
  unfold Chip.setRun
  repeat' (first | with_reducible assumption | omega | exact Fld.lt_reach (by omega) | exact Fld.lt_reach_src (by omega) rfl | exact Fld.lt_reach_low (by omega) rfl | exact Fld.lt_reach (grpOf_small (by omega) |>.trans (by decide)) | exact row_lv _ _ rfl | exact row_bank _ _ rfl | exact row_st _ _ rfl | exact slots_lt (fun _ h => touched_lt h) (by with_reducible assumption) | (exact touched_lt (by with_reducible assumption)) | exact grpOf_small (by omega) | exact (grpOf_small (by with_reducible assumption)).trans (by decide) | exact (bestRef_lt (by with_reducible assumption)).trans (by decide) | with_reducible exact qReg_off _ | exact rfl | exact fun _ => rfl | (exact (touched_lt (by with_reducible assumption)).trans (by decide)) | with_reducible exact Rides.refl _ | with_reducible apply Rides.onSide | with_reducible apply Rides.syncSide | with_reducible apply Rides.cause | with_reducible apply Rides.iteElse | (intro; intros))
theorem stopSide {z c : Chip} (k : Clock) (p : Nat) (rx : Bool) (hp : p < 4096) (hz : Rides z c) : Rides z (c.stopSide k p rx) := by
  unfold Chip.stopSide
  repeat' (first | with_reducible assumption | omega | exact Fld.lt_reach (by omega) | exact Fld.lt_reach_src (by omega) rfl | exact Fld.lt_reach_low (by omega) rfl | exact Fld.lt_reach (grpOf_small (by omega) |>.trans (by decide)) | exact row_lv _ _ rfl | exact row_bank _ _ rfl | exact row_st _ _ rfl | exact slots_lt (fun _ h => touched_lt h) (by with_reducible assumption) | (exact touched_lt (by with_reducible assumption)) | exact grpOf_small (by omega) | exact (grpOf_small (by with_reducible assumption)).trans (by decide) | exact (bestRef_lt (by with_reducible assumption)).trans (by decide) | with_reducible exact qReg_off _ | exact rfl | exact fun _ => rfl | (exact (touched_lt (by with_reducible assumption)).trans (by decide)) | with_reducible exact Rides.refl _ | with_reducible apply Rides.onSide | with_reducible apply Rides.addSt | with_reducible apply Rides.setRun | (intro; intros))
theorem shadeBlocks {z c : Chip} (hz : Rides z c) : Rides z (c.shadeBlocks) := by
  unfold Chip.shadeBlocks
  repeat' (first | with_reducible assumption | omega | exact Fld.lt_reach (by omega) | exact Fld.lt_reach_src (by omega) rfl | exact Fld.lt_reach_low (by omega) rfl | exact Fld.lt_reach (grpOf_small (by omega) |>.trans (by decide)) | exact row_lv _ _ rfl | exact row_bank _ _ rfl | exact row_st _ _ rfl | exact slots_lt (fun _ h => touched_lt h) (by with_reducible assumption) | (exact touched_lt (by with_reducible assumption)) | exact grpOf_small (by omega) | exact (grpOf_small (by with_reducible assumption)).trans (by decide) | exact (bestRef_lt (by with_reducible assumption)).trans (by decide) | with_reducible exact qReg_off _ | exact rfl | exact fun _ => rfl | (exact (touched_lt (by with_reducible assumption)).trans (by decide)) | with_reducible exact Rides.refl _ | with_reducible apply Rides.setBlk | with_reducible apply Rides.overN | with_reducible apply Rides.iteElse | (intro; intros))
theorem wakeUplinks {z c : Chip} (k : Clock) (hz : Rides z c) : Rides z (c.wakeUplinks k) := by
  unfold Chip.wakeUplinks
  repeat' (first | with_reducible assumption | omega | exact Fld.lt_reach (by omega) | exact Fld.lt_reach_src (by omega) rfl | exact Fld.lt_reach_low (by omega) rfl | exact Fld.lt_reach (grpOf_small (by omega) |>.trans (by decide)) | exact row_lv _ _ rfl | exact row_bank _ _ rfl | exact row_st _ _ rfl | exact slots_lt (fun _ h => touched_lt h) (by with_reducible assumption) | (exact touched_lt (by with_reducible assumption)) | exact grpOf_small (by omega) | exact (grpOf_small (by with_reducible assumption)).trans (by decide) | exact (bestRef_lt (by with_reducible assumption)).trans (by decide) | with_reducible exact qReg_off _ | exact rfl | exact fun _ => rfl | (exact (touched_lt (by with_reducible assumption)).trans (by decide)) | with_reducible exact Rides.refl _ | with_reducible apply Rides.beginWake | with_reducible apply Rides.overN | with_reducible apply Rides.iteElse | (intro; intros))
theorem shadeFalls {z c : Chip} (k : Clock) (hz : Rides z c) : Rides z (c.shadeFalls k) := by
  unfold Chip.shadeFalls
  repeat' (first | with_reducible assumption | omega | exact Fld.lt_reach (by omega) | exact Fld.lt_reach_src (by omega) rfl | exact Fld.lt_reach_low (by omega) rfl | exact Fld.lt_reach (grpOf_small (by omega) |>.trans (by decide)) | exact row_lv _ _ rfl | exact row_bank _ _ rfl | exact row_st _ _ rfl | exact slots_lt (fun _ h => touched_lt h) (by with_reducible assumption) | (exact touched_lt (by with_reducible assumption)) | exact grpOf_small (by omega) | exact (grpOf_small (by with_reducible assumption)).trans (by decide) | exact (bestRef_lt (by with_reducible assumption)).trans (by decide) | with_reducible exact qReg_off _ | exact rfl | exact fun _ => rfl | (exact (touched_lt (by with_reducible assumption)).trans (by decide)) | with_reducible exact Rides.refl _ | with_reducible apply Rides.syncLasers | with_reducible apply Rides.shadeBlocks | with_reducible apply Rides.stopSide | with_reducible apply Rides.qReturn | with_reducible apply Rides.onU | with_reducible apply Rides.syncClaim | (with_reducible refine Rides.schedule_eq (by with_reducible assumption) ?_) | with_reducible apply Rides.schedule | with_reducible apply Rides.overN | with_reducible apply Rides.iteElse | with_reducible apply Rides.upd | (intro; intros))
theorem shadeLifts {z c : Chip} (k : Clock) (hz : Rides z c) : Rides z (c.shadeLifts k) := by
  unfold Chip.shadeLifts
  repeat' (first | with_reducible assumption | omega | exact Fld.lt_reach (by omega) | exact Fld.lt_reach_src (by omega) rfl | exact Fld.lt_reach_low (by omega) rfl | exact Fld.lt_reach (grpOf_small (by omega) |>.trans (by decide)) | exact row_lv _ _ rfl | exact row_bank _ _ rfl | exact row_st _ _ rfl | exact slots_lt (fun _ h => touched_lt h) (by with_reducible assumption) | (exact touched_lt (by with_reducible assumption)) | exact grpOf_small (by omega) | exact (grpOf_small (by with_reducible assumption)).trans (by decide) | exact (bestRef_lt (by with_reducible assumption)).trans (by decide) | with_reducible exact qReg_off _ | exact rfl | exact fun _ => rfl | (exact (touched_lt (by with_reducible assumption)).trans (by decide)) | with_reducible exact Rides.refl _ | with_reducible apply Rides.syncLasers | with_reducible apply Rides.wakeUplinks | with_reducible apply Rides.syncClaim | (intro; intros))
theorem reshade {z c : Chip} (k : Clock) (was : Bool) (hz : Rides z c) : Rides z (c.reshade k was) := by
  unfold Chip.reshade
  repeat' (first | with_reducible assumption | omega | exact Fld.lt_reach (by omega) | exact Fld.lt_reach_src (by omega) rfl | exact Fld.lt_reach_low (by omega) rfl | exact Fld.lt_reach (grpOf_small (by omega) |>.trans (by decide)) | exact row_lv _ _ rfl | exact row_bank _ _ rfl | exact row_st _ _ rfl | exact slots_lt (fun _ h => touched_lt h) (by with_reducible assumption) | (exact touched_lt (by with_reducible assumption)) | exact grpOf_small (by omega) | exact (grpOf_small (by with_reducible assumption)).trans (by decide) | exact (bestRef_lt (by with_reducible assumption)).trans (by decide) | with_reducible exact qReg_off _ | exact rfl | exact fun _ => rfl | (exact (touched_lt (by with_reducible assumption)).trans (by decide)) | with_reducible exact Rides.refl _ | with_reducible apply Rides.syncClaim | with_reducible apply Rides.shadeFalls | with_reducible apply Rides.shadeLifts | with_reducible apply Rides.iteElse | (intro; intros))
theorem putEntry {z c : Chip} (k : Clock) (g i kind src seq : Nat) (hg : g < 4096) (hi : i < 8192) (h : Rides z c) :
    Rides z (c.putEntry k g i kind src seq) := by
  have hne : ∀ f : Fld, f.fits = true → f.tab = 0x70 → 4 ≤ f.wrd → ∀ w < 4, f.addr 0 ≠ hAddr 0x62 (16 * g + i) w := by
    intro f hf ht hge w hw
    have := (Fld.fits_iff.mp hf).2
    unfold Fld.addr hAddr
    omega
  unfold Chip.putEntry
  extract_lets r b b₁ b₂ b₃
  refine withStatus _ ((Keeps.refl c).putEntry k g i kind src seq) (fun f hf ht hge => ?_) h
  have hw := hne f hf ht hge
  exact congrArg f.get ((Bank.read_write_other _ _ (hw 3 (by decide))).trans ((Bank.read_write_other _ _ (hw 2 (by decide))).trans
    ((Bank.read_write_other _ _ (hw 1 (by decide))).trans (Bank.read_write_other _ _ (hw 0 (by decide))))))
theorem history {z c : Chip} (k : Clock) (g kind src : Nat) (hg : g < 4096) (hz : Rides z c) : Rides z (c.history k g kind src) := by
  unfold Chip.history
  repeat' (first | with_reducible assumption | omega | exact Fld.lt_reach (by omega) | exact Fld.lt_reach_src (by omega) rfl | exact Fld.lt_reach_low (by omega) rfl | exact Fld.lt_reach (grpOf_small (by omega) |>.trans (by decide)) | exact row_lv _ _ rfl | exact row_bank _ _ rfl | exact row_st _ _ rfl | exact slots_lt (fun _ h => touched_lt h) (by with_reducible assumption) | (exact touched_lt (by with_reducible assumption)) | exact grpOf_small (by omega) | exact (grpOf_small (by with_reducible assumption)).trans (by decide) | exact (bestRef_lt (by with_reducible assumption)).trans (by decide) | with_reducible exact qReg_off _ | exact rfl | exact fun _ => rfl | (exact (touched_lt (by with_reducible assumption)).trans (by decide)) | with_reducible exact Rides.refl _ | with_reducible apply Rides.putEntry | with_reducible apply Rides.setSt | with_reducible apply Rides.onCol | with_reducible apply Rides.iteElse | (intro; intros))
theorem latch {z c : Chip} (k : Clock) (g kind src : Nat) (hg : g < 4096) (hz : Rides z c) : Rides z (c.latch k g kind src) := by
  unfold Chip.latch
  repeat' (first | with_reducible assumption | omega | exact Fld.lt_reach (by omega) | exact Fld.lt_reach_src (by omega) rfl | exact Fld.lt_reach_low (by omega) rfl | exact Fld.lt_reach (grpOf_small (by omega) |>.trans (by decide)) | exact row_lv _ _ rfl | exact row_bank _ _ rfl | exact row_st _ _ rfl | exact slots_lt (fun _ h => touched_lt h) (by with_reducible assumption) | (exact touched_lt (by with_reducible assumption)) | exact grpOf_small (by omega) | exact (grpOf_small (by with_reducible assumption)).trans (by decide) | exact (bestRef_lt (by with_reducible assumption)).trans (by decide) | with_reducible exact qReg_off _ | exact rfl | exact fun _ => rfl | (exact (touched_lt (by with_reducible assumption)).trans (by decide)) | with_reducible exact Rides.refl _ | with_reducible apply Rides.putEntry | with_reducible apply Rides.setSt | with_reducible apply Rides.satSt | with_reducible apply Rides.cause | with_reducible apply Rides.iteElse | (intro; intros))
theorem rearm {z c : Chip} (g : Nat) (hg : g < 4096) (hz : Rides z c) : Rides z (c.rearm g) := by
  unfold Chip.rearm
  repeat' (first | with_reducible assumption | omega | exact Fld.lt_reach (by omega) | exact Fld.lt_reach_src (by omega) rfl | exact Fld.lt_reach_low (by omega) rfl | exact Fld.lt_reach (grpOf_small (by omega) |>.trans (by decide)) | exact row_lv _ _ rfl | exact row_bank _ _ rfl | exact row_st _ _ rfl | exact slots_lt (fun _ h => touched_lt h) (by with_reducible assumption) | (exact touched_lt (by with_reducible assumption)) | exact grpOf_small (by omega) | exact (grpOf_small (by with_reducible assumption)).trans (by decide) | exact (bestRef_lt (by with_reducible assumption)).trans (by decide) | with_reducible exact qReg_off _ | exact rfl | exact fun _ => rfl | (exact (touched_lt (by with_reducible assumption)).trans (by decide)) | with_reducible exact Rides.refl _ | with_reducible apply Rides.setSt | (intro; intros))
theorem syncFaultN {z c : Chip} (k : Clock) (hz : Rides z c) : Rides z (c.syncFaultN k) := by
  unfold Chip.syncFaultN
  repeat' (first | with_reducible assumption | omega | exact Fld.lt_reach (by omega) | exact Fld.lt_reach_src (by omega) rfl | exact Fld.lt_reach_low (by omega) rfl | exact Fld.lt_reach (grpOf_small (by omega) |>.trans (by decide)) | exact row_lv _ _ rfl | exact row_bank _ _ rfl | exact row_st _ _ rfl | exact slots_lt (fun _ h => touched_lt h) (by with_reducible assumption) | (exact touched_lt (by with_reducible assumption)) | exact grpOf_small (by omega) | exact (grpOf_small (by with_reducible assumption)).trans (by decide) | exact (bestRef_lt (by with_reducible assumption)).trans (by decide) | with_reducible exact qReg_off _ | exact rfl | exact fun _ => rfl | (exact (touched_lt (by with_reducible assumption)).trans (by decide)) | with_reducible exact Rides.refl _ | with_reducible apply Rides.onCol | (intro; intros))
theorem putFlt {z c : Chip} (s : Nat) (b : Bool) (hs : s < 65536) (hz : Rides z c) : Rides z (c.putFlt s b) := by
  unfold Chip.putFlt
  repeat' (first | with_reducible assumption | omega | exact Fld.lt_reach (by omega) | exact Fld.lt_reach_src (by omega) rfl | exact Fld.lt_reach_low (by omega) rfl | exact Fld.lt_reach (grpOf_small (by omega) |>.trans (by decide)) | exact row_lv _ _ rfl | exact row_bank _ _ rfl | exact row_st _ _ rfl | exact slots_lt (fun _ h => touched_lt h) (by with_reducible assumption) | (exact touched_lt (by with_reducible assumption)) | exact grpOf_small (by omega) | exact (grpOf_small (by with_reducible assumption)).trans (by decide) | exact (bestRef_lt (by with_reducible assumption)).trans (by decide) | with_reducible exact qReg_off _ | exact rfl | exact fun _ => rfl | (exact (touched_lt (by with_reducible assumption)).trans (by decide)) | with_reducible exact Rides.refl _ | with_reducible apply Rides.onCol | with_reducible apply Rides.setSt | (intro; intros))
theorem syncShade {z c : Chip} (k : Clock) (src : Nat) (hz : Rides z c) : Rides z (c.syncShade k src) := by
  unfold Chip.syncShade
  repeat' (first | with_reducible assumption | omega | exact Fld.lt_reach (by omega) | exact Fld.lt_reach_src (by omega) rfl | exact Fld.lt_reach_low (by omega) rfl | exact Fld.lt_reach (grpOf_small (by omega) |>.trans (by decide)) | exact row_lv _ _ rfl | exact row_bank _ _ rfl | exact row_st _ _ rfl | exact slots_lt (fun _ h => touched_lt h) (by with_reducible assumption) | (exact touched_lt (by with_reducible assumption)) | exact grpOf_small (by omega) | exact (grpOf_small (by with_reducible assumption)).trans (by decide) | exact (bestRef_lt (by with_reducible assumption)).trans (by decide) | with_reducible exact qReg_off _ | exact rfl | exact fun _ => rfl | (exact (touched_lt (by with_reducible assumption)).trans (by decide)) | with_reducible exact Rides.refl _ | with_reducible apply Rides.onCol | with_reducible apply Rides.onTwin | with_reducible apply Rides.disarm | with_reducible apply Rides.setSt | with_reducible apply Rides.cause | with_reducible apply Rides.reshade | with_reducible apply Rides.iteElse | (intro; intros))
theorem markEdge {z c : Chip} (k : Clock) (s : Nat) (loud : Bool) (hz : Rides z c) : Rides z (c.markEdge k s loud) := by
  unfold Chip.markEdge
  repeat' (first | with_reducible assumption | omega | exact Fld.lt_reach (by omega) | exact Fld.lt_reach_src (by omega) rfl | exact Fld.lt_reach_low (by omega) rfl | exact Fld.lt_reach (grpOf_small (by omega) |>.trans (by decide)) | exact row_lv _ _ rfl | exact row_bank _ _ rfl | exact row_st _ _ rfl | exact slots_lt (fun _ h => touched_lt h) (by with_reducible assumption) | (exact touched_lt (by with_reducible assumption)) | exact grpOf_small (by omega) | exact (grpOf_small (by with_reducible assumption)).trans (by decide) | exact (bestRef_lt (by with_reducible assumption)).trans (by decide) | with_reducible exact qReg_off _ | exact rfl | exact fun _ => rfl | (exact (touched_lt (by with_reducible assumption)).trans (by decide)) | with_reducible exact Rides.refl _ | with_reducible apply Rides.onCol | (intro; intros))
theorem fltEvent {z c : Chip} (k : Clock) (s : Nat) (hs : s < 65536) (hz : Rides z c) : Rides z (c.fltEvent k s) := by
  unfold Chip.fltEvent
  repeat' (first | with_reducible apply Rides.markEdge | with_reducible assumption | omega | exact Fld.lt_reach (by omega) | exact Fld.lt_reach_src (by omega) rfl | exact Fld.lt_reach_low (by omega) rfl | exact Fld.lt_reach (grpOf_small (by omega) |>.trans (by decide)) | exact row_lv _ _ rfl | exact row_bank _ _ rfl | exact row_st _ _ rfl | exact slots_lt (fun _ h => touched_lt h) (by with_reducible assumption) | (exact touched_lt (by with_reducible assumption)) | exact grpOf_small (by omega) | exact (grpOf_small (by with_reducible assumption)).trans (by decide) | exact (bestRef_lt (by with_reducible assumption)).trans (by decide) | with_reducible exact qReg_off _ | exact rfl | exact fun _ => rfl | (exact (touched_lt (by with_reducible assumption)).trans (by decide)) | with_reducible exact Rides.refl _ | with_reducible apply Rides.addSt | with_reducible apply Rides.onCol | with_reducible apply Rides.history | with_reducible apply Rides.latch | with_reducible apply Rides.cause | with_reducible apply Rides.setSt | with_reducible apply Rides.putFlt | with_reducible apply Rides.syncFaultN | with_reducible apply Rides.syncShade | with_reducible apply Rides.iteElse | (intro; intros))
theorem tumble {z c : Chip} (k : Clock) (s : Nat) (hs : s < 65536) (hz : Rides z c) : Rides z (c.tumble k s) := by
  unfold Chip.tumble
  repeat' (first | with_reducible assumption | omega | exact Fld.lt_reach (by omega) | exact Fld.lt_reach_src (by omega) rfl | exact Fld.lt_reach_low (by omega) rfl | exact Fld.lt_reach (grpOf_small (by omega) |>.trans (by decide)) | exact row_lv _ _ rfl | exact row_bank _ _ rfl | exact row_st _ _ rfl | exact slots_lt (fun _ h => touched_lt h) (by with_reducible assumption) | (exact touched_lt (by with_reducible assumption)) | exact grpOf_small (by omega) | exact (grpOf_small (by with_reducible assumption)).trans (by decide) | exact (bestRef_lt (by with_reducible assumption)).trans (by decide) | with_reducible exact qReg_off _ | exact rfl | exact fun _ => rfl | (exact (touched_lt (by with_reducible assumption)).trans (by decide)) | with_reducible exact Rides.refl _ | with_reducible apply Rides.onCol | with_reducible apply Rides.setSt | with_reducible apply Rides.iteElse | (intro; intros))
theorem openWindow {z c : Chip} (k : Clock) (s : Nat) (hs : s < 65536) (hz : Rides z c) : Rides z (c.openWindow k s) := by
  unfold Chip.openWindow
  repeat' (first | with_reducible assumption | omega | exact Fld.lt_reach (by omega) | exact Fld.lt_reach_src (by omega) rfl | exact Fld.lt_reach_low (by omega) rfl | exact Fld.lt_reach (grpOf_small (by omega) |>.trans (by decide)) | exact row_lv _ _ rfl | exact row_bank _ _ rfl | exact row_st _ _ rfl | exact slots_lt (fun _ h => touched_lt h) (by with_reducible assumption) | (exact touched_lt (by with_reducible assumption)) | exact grpOf_small (by omega) | exact (grpOf_small (by with_reducible assumption)).trans (by decide) | exact (bestRef_lt (by with_reducible assumption)).trans (by decide) | with_reducible exact qReg_off _ | exact rfl | exact fun _ => rfl | (exact (touched_lt (by with_reducible assumption)).trans (by decide)) | with_reducible exact Rides.refl _ | with_reducible apply Rides.onCol | with_reducible apply Rides.setSt | (intro; intros))
theorem srcEvent {z c : Chip} (k : Clock) (s : Nat) (hs : s < 65536) (hz : Rides z c) : Rides z (c.srcEvent k s) := by
  unfold Chip.srcEvent
  repeat' (first | with_reducible apply Rides.markEdge | with_reducible assumption | omega | exact Fld.lt_reach (by omega) | exact Fld.lt_reach_src (by omega) rfl | exact Fld.lt_reach_low (by omega) rfl | exact Fld.lt_reach (grpOf_small (by omega) |>.trans (by decide)) | exact row_lv _ _ rfl | exact row_bank _ _ rfl | exact row_st _ _ rfl | exact slots_lt (fun _ h => touched_lt h) (by with_reducible assumption) | (exact touched_lt (by with_reducible assumption)) | exact grpOf_small (by omega) | exact (grpOf_small (by with_reducible assumption)).trans (by decide) | exact (bestRef_lt (by with_reducible assumption)).trans (by decide) | with_reducible exact qReg_off _ | exact rfl | exact fun _ => rfl | (exact (touched_lt (by with_reducible assumption)).trans (by decide)) | with_reducible exact Rides.refl _ | with_reducible apply Rides.tumble | with_reducible apply Rides.addSt | with_reducible apply Rides.satSt | with_reducible apply Rides.fltEvent | with_reducible apply Rides.iteElse | (intro; intros))
theorem setCond {z c : Chip} (k : Clock) (s : Nat) (present : Bool) (hs : s < 65536) (hz : Rides z c) : Rides z (c.setCond k s present) := by
  unfold Chip.setCond
  repeat' (first | with_reducible assumption | omega | exact Fld.lt_reach (by omega) | exact Fld.lt_reach_src (by omega) rfl | exact Fld.lt_reach_low (by omega) rfl | exact Fld.lt_reach (grpOf_small (by omega) |>.trans (by decide)) | exact row_lv _ _ rfl | exact row_bank _ _ rfl | exact row_st _ _ rfl | exact slots_lt (fun _ h => touched_lt h) (by with_reducible assumption) | (exact touched_lt (by with_reducible assumption)) | exact grpOf_small (by omega) | exact (grpOf_small (by with_reducible assumption)).trans (by decide) | exact (bestRef_lt (by with_reducible assumption)).trans (by decide) | with_reducible exact qReg_off _ | exact rfl | exact fun _ => rfl | (exact (touched_lt (by with_reducible assumption)).trans (by decide)) | with_reducible exact Rides.refl _ | with_reducible apply Rides.onCol | with_reducible apply Rides.setSt | with_reducible apply Rides.srcEvent | with_reducible apply Rides.iteElse | (intro; intros))
theorem cleared {z c : Chip} (k : Clock) (s : Nat) (hs : s < 65536) (hz : Rides z c) : Rides z (c.cleared k s) := by
  unfold Chip.cleared
  repeat' (first | with_reducible assumption | omega | exact Fld.lt_reach (by omega) | exact Fld.lt_reach_src (by omega) rfl | exact Fld.lt_reach_low (by omega) rfl | exact Fld.lt_reach (grpOf_small (by omega) |>.trans (by decide)) | exact row_lv _ _ rfl | exact row_bank _ _ rfl | exact row_st _ _ rfl | exact slots_lt (fun _ h => touched_lt h) (by with_reducible assumption) | (exact touched_lt (by with_reducible assumption)) | exact grpOf_small (by omega) | exact (grpOf_small (by with_reducible assumption)).trans (by decide) | exact (bestRef_lt (by with_reducible assumption)).trans (by decide) | with_reducible exact qReg_off _ | exact rfl | exact fun _ => rfl | (exact (touched_lt (by with_reducible assumption)).trans (by decide)) | with_reducible exact Rides.refl _ | with_reducible apply Rides.cause | with_reducible apply Rides.history | (intro; intros))
theorem syncCh {z c : Chip} (k : Clock) (ch : Nat) (hch : ch < 4096) (hz : Rides z c) : Rides z (c.syncCh k ch) := by
  unfold Chip.syncCh
  repeat' (first | with_reducible assumption | omega | exact Fld.lt_reach (by omega) | exact Fld.lt_reach_src (by omega) rfl | exact Fld.lt_reach_low (by omega) rfl | exact Fld.lt_reach (grpOf_small (by omega) |>.trans (by decide)) | exact row_lv _ _ rfl | exact row_bank _ _ rfl | exact row_st _ _ rfl | exact slots_lt (fun _ h => touched_lt h) (by with_reducible assumption) | (exact touched_lt (by with_reducible assumption)) | exact grpOf_small (by omega) | exact (grpOf_small (by with_reducible assumption)).trans (by decide) | exact (bestRef_lt (by with_reducible assumption)).trans (by decide) | with_reducible exact qReg_off _ | exact rfl | exact fun _ => rfl | (exact (touched_lt (by with_reducible assumption)).trans (by decide)) | with_reducible exact Rides.refl _ | with_reducible apply Rides.setSt | with_reducible apply Rides.setCond | with_reducible apply Rides.overN | with_reducible apply Rides.iteElse | (intro; intros) | fail_if_no_progress extract_lets | split)
theorem enter {z c : Chip} (k : Clock) (ch : Nat) (st : DState) (hch : ch < 4096) (hz : Rides z c) : Rides z (c.enter k ch st) := by
  unfold Chip.enter
  repeat' (first | with_reducible assumption | omega | exact Fld.lt_reach (by omega) | exact Fld.lt_reach_src (by omega) rfl | exact Fld.lt_reach_low (by omega) rfl | exact Fld.lt_reach (grpOf_small (by omega) |>.trans (by decide)) | exact row_lv _ _ rfl | exact row_bank _ _ rfl | exact row_st _ _ rfl | exact slots_lt (fun _ h => touched_lt h) (by with_reducible assumption) | (exact touched_lt (by with_reducible assumption)) | exact grpOf_small (by omega) | exact (grpOf_small (by with_reducible assumption)).trans (by decide) | exact (bestRef_lt (by with_reducible assumption)).trans (by decide) | with_reducible exact qReg_off _ | exact rfl | exact fun _ => rfl | (exact (touched_lt (by with_reducible assumption)).trans (by decide)) | with_reducible exact Rides.refl _ | with_reducible apply Rides.addSt | with_reducible apply Rides.onCh | with_reducible apply Rides.orSt | with_reducible apply Rides.cause | with_reducible apply Rides.syncCh | with_reducible apply Rides.iteElse | (intro; intros))
theorem holdover {z c : Chip} (k : Clock) (ch : Nat) (hch : ch < 4096) (hz : Rides z c) : Rides z (c.holdover k ch) := by
  unfold Chip.holdover
  repeat' (first | with_reducible assumption | omega | exact Fld.lt_reach (by omega) | exact Fld.lt_reach_src (by omega) rfl | exact Fld.lt_reach_low (by omega) rfl | exact Fld.lt_reach (grpOf_small (by omega) |>.trans (by decide)) | exact row_lv _ _ rfl | exact row_bank _ _ rfl | exact row_st _ _ rfl | exact slots_lt (fun _ h => touched_lt h) (by with_reducible assumption) | (exact touched_lt (by with_reducible assumption)) | exact grpOf_small (by omega) | exact (grpOf_small (by with_reducible assumption)).trans (by decide) | exact (bestRef_lt (by with_reducible assumption)).trans (by decide) | with_reducible exact qReg_off _ | exact rfl | exact fun _ => rfl | (exact (touched_lt (by with_reducible assumption)).trans (by decide)) | with_reducible exact Rides.refl _ | with_reducible apply Rides.enter | (intro; intros))
theorem setHist {z c : Chip} (k : Clock) (ch : Nat) (b : Bool) (hch : ch < 4096) (hz : Rides z c) : Rides z (c.setHist k ch b) := by
  unfold Chip.setHist
  repeat' (first | with_reducible assumption | omega | exact Fld.lt_reach (by omega) | exact Fld.lt_reach_src (by omega) rfl | exact Fld.lt_reach_low (by omega) rfl | exact Fld.lt_reach (grpOf_small (by omega) |>.trans (by decide)) | exact row_lv _ _ rfl | exact row_bank _ _ rfl | exact row_st _ _ rfl | exact slots_lt (fun _ h => touched_lt h) (by with_reducible assumption) | (exact touched_lt (by with_reducible assumption)) | exact grpOf_small (by omega) | exact (grpOf_small (by with_reducible assumption)).trans (by decide) | exact (bestRef_lt (by with_reducible assumption)).trans (by decide) | with_reducible exact qReg_off _ | exact rfl | exact fun _ => rfl | (exact (touched_lt (by with_reducible assumption)).trans (by decide)) | with_reducible exact Rides.refl _ | with_reducible apply Rides.onCh | with_reducible apply Rides.setSt | with_reducible apply Rides.cause | with_reducible apply Rides.iteElse | (intro; intros))
theorem beginSwitch {z c : Chip} (k : Clock) (ch r : Nat) (hch : ch < 4096) (hr : r < 4096) (hz : Rides z c) : Rides z (c.beginSwitch k ch r) := by
  unfold Chip.beginSwitch
  repeat' (first | with_reducible assumption | omega | exact Fld.lt_reach (by omega) | exact Fld.lt_reach_src (by omega) rfl | exact Fld.lt_reach_low (by omega) rfl | exact Fld.lt_reach (grpOf_small (by omega) |>.trans (by decide)) | exact row_lv _ _ rfl | exact row_bank _ _ rfl | exact row_st _ _ rfl | exact slots_lt (fun _ h => touched_lt h) (by with_reducible assumption) | (exact touched_lt (by with_reducible assumption)) | exact grpOf_small (by omega) | exact (grpOf_small (by with_reducible assumption)).trans (by decide) | exact (bestRef_lt (by with_reducible assumption)).trans (by decide) | with_reducible exact qReg_off _ | exact rfl | exact fun _ => rfl | (exact (touched_lt (by with_reducible assumption)).trans (by decide)) | with_reducible exact Rides.refl _ | with_reducible apply Rides.onCh | with_reducible apply Rides.cause | with_reducible apply Rides.syncCh | (intro; intros))
theorem choose {z c : Chip} (k : Clock) (ch : Nat) (hch : ch < 4096) (hz : Rides z c) : Rides z (c.choose k ch) := by
  unfold Chip.choose
  repeat' (first | with_reducible assumption | omega | exact Fld.lt_reach (by omega) | exact Fld.lt_reach_src (by omega) rfl | exact Fld.lt_reach_low (by omega) rfl | exact Fld.lt_reach (grpOf_small (by omega) |>.trans (by decide)) | exact row_lv _ _ rfl | exact row_bank _ _ rfl | exact row_st _ _ rfl | exact slots_lt (fun _ h => touched_lt h) (by with_reducible assumption) | (exact touched_lt (by with_reducible assumption)) | exact grpOf_small (by omega) | exact (grpOf_small (by with_reducible assumption)).trans (by decide) | exact (bestRef_lt (by with_reducible assumption)).trans (by decide) | with_reducible exact qReg_off _ | exact rfl | exact fun _ => rfl | (exact (touched_lt (by with_reducible assumption)).trans (by decide)) | with_reducible exact Rides.refl _ | with_reducible apply Rides.beginSwitch | with_reducible apply Rides.iteElse | (intro; intros) | fail_if_no_progress extract_lets | split)
theorem loseSel {z c : Chip} (k : Clock) (ch : Nat) (hch : ch < 4096) (hz : Rides z c) : Rides z (c.loseSel k ch) := by
  unfold Chip.loseSel
  repeat' (first | with_reducible assumption | omega | exact Fld.lt_reach (by omega) | exact Fld.lt_reach_src (by omega) rfl | exact Fld.lt_reach_low (by omega) rfl | exact Fld.lt_reach (grpOf_small (by omega) |>.trans (by decide)) | exact row_lv _ _ rfl | exact row_bank _ _ rfl | exact row_st _ _ rfl | exact slots_lt (fun _ h => touched_lt h) (by with_reducible assumption) | (exact touched_lt (by with_reducible assumption)) | exact grpOf_small (by omega) | exact (grpOf_small (by with_reducible assumption)).trans (by decide) | exact (bestRef_lt (by with_reducible assumption)).trans (by decide) | with_reducible exact qReg_off _ | exact rfl | exact fun _ => rfl | (exact (touched_lt (by with_reducible assumption)).trans (by decide)) | with_reducible exact Rides.refl _ | with_reducible apply Rides.onCh | with_reducible apply Rides.holdover | with_reducible apply Rides.syncCh | with_reducible apply Rides.choose | with_reducible apply Rides.iteElse | (intro; intros))
theorem abandon {z c : Chip} (k : Clock) (ch : Nat) (hch : ch < 4096) (hz : Rides z c) : Rides z (c.abandon k ch) := by
  unfold Chip.abandon
  repeat' (first | with_reducible assumption | omega | exact Fld.lt_reach (by omega) | exact Fld.lt_reach_src (by omega) rfl | exact Fld.lt_reach_low (by omega) rfl | exact Fld.lt_reach (grpOf_small (by omega) |>.trans (by decide)) | exact row_lv _ _ rfl | exact row_bank _ _ rfl | exact row_st _ _ rfl | exact slots_lt (fun _ h => touched_lt h) (by with_reducible assumption) | (exact touched_lt (by with_reducible assumption)) | exact grpOf_small (by omega) | exact (grpOf_small (by with_reducible assumption)).trans (by decide) | exact (bestRef_lt (by with_reducible assumption)).trans (by decide) | with_reducible exact qReg_off _ | exact rfl | exact fun _ => rfl | (exact (touched_lt (by with_reducible assumption)).trans (by decide)) | with_reducible exact Rides.refl _ | with_reducible apply Rides.onCh | with_reducible apply Rides.cause | with_reducible apply Rides.syncCh | with_reducible apply Rides.choose | (intro; intros))
theorem chanLoses {z c : Chip} (k : Clock) (r ch : Nat) (hr : r < 4096) (hch : ch < 4096) (hz : Rides z c) : Rides z (c.chanLoses k r ch) := by
  unfold Chip.chanLoses
  repeat' (first | with_reducible assumption | omega | exact Fld.lt_reach (by omega) | exact Fld.lt_reach_src (by omega) rfl | exact Fld.lt_reach_low (by omega) rfl | exact Fld.lt_reach (grpOf_small (by omega) |>.trans (by decide)) | exact row_lv _ _ rfl | exact row_bank _ _ rfl | exact row_st _ _ rfl | exact slots_lt (fun _ h => touched_lt h) (by with_reducible assumption) | (exact touched_lt (by with_reducible assumption)) | exact grpOf_small (by omega) | exact (grpOf_small (by with_reducible assumption)).trans (by decide) | exact (bestRef_lt (by with_reducible assumption)).trans (by decide) | with_reducible exact qReg_off _ | exact rfl | exact fun _ => rfl | (exact (touched_lt (by with_reducible assumption)).trans (by decide)) | with_reducible exact Rides.refl _ | with_reducible apply Rides.onCh | with_reducible apply Rides.loseSel | with_reducible apply Rides.abandon | with_reducible apply Rides.syncCh | with_reducible apply Rides.iteElse | (intro; intros) | fail_if_no_progress extract_lets | split)
theorem syncRef {z c : Chip} (r : Nat) (hr : r < 4096) (hz : Rides z c) : Rides z (c.syncRef r) := by
  unfold Chip.syncRef
  repeat' (first | with_reducible assumption | omega | exact Fld.lt_reach (by omega) | exact Fld.lt_reach_src (by omega) rfl | exact Fld.lt_reach_low (by omega) rfl | exact Fld.lt_reach (grpOf_small (by omega) |>.trans (by decide)) | exact row_lv _ _ rfl | exact row_bank _ _ rfl | exact row_st _ _ rfl | exact slots_lt (fun _ h => touched_lt h) (by with_reducible assumption) | (exact touched_lt (by with_reducible assumption)) | exact grpOf_small (by omega) | exact (grpOf_small (by with_reducible assumption)).trans (by decide) | exact (bestRef_lt (by with_reducible assumption)).trans (by decide) | with_reducible exact qReg_off _ | exact rfl | exact fun _ => rfl | (exact (touched_lt (by with_reducible assumption)).trans (by decide)) | with_reducible exact Rides.refl _ | with_reducible apply Rides.setSt | (intro; intros))
theorem setRefDefs {z c : Chip} (k : Clock) (r new : Nat) (hr : r < 4096) (hz : Rides z c) : Rides z (c.setRefDefs k r new) := by
  unfold Chip.setRefDefs
  repeat' (first | with_reducible assumption | omega | exact Fld.lt_reach (by omega) | exact Fld.lt_reach_src (by omega) rfl | exact Fld.lt_reach_low (by omega) rfl | exact Fld.lt_reach (grpOf_small (by omega) |>.trans (by decide)) | exact row_lv _ _ rfl | exact row_bank _ _ rfl | exact row_st _ _ rfl | exact slots_lt (fun _ h => touched_lt h) (by with_reducible assumption) | (exact touched_lt (by with_reducible assumption)) | exact grpOf_small (by omega) | exact (grpOf_small (by with_reducible assumption)).trans (by decide) | exact (bestRef_lt (by with_reducible assumption)).trans (by decide) | with_reducible exact qReg_off _ | exact rfl | exact fun _ => rfl | (exact (touched_lt (by with_reducible assumption)).trans (by decide)) | with_reducible exact Rides.refl _ | with_reducible apply Rides.onRef | with_reducible apply Rides.setSt | with_reducible apply Rides.addSt | with_reducible apply Rides.syncRef | with_reducible apply Rides.causeIf | with_reducible apply Rides.chanLoses | with_reducible apply Rides.iteElse | (intro; intros))
theorem setRefDef {z c : Chip} (k : Clock) (r n : Nat) (b : Bool) (hr : r < 4096) (hz : Rides z c) : Rides z (c.setRefDef k r n b) := by
  unfold Chip.setRefDef
  repeat' (first | with_reducible assumption | omega | exact Fld.lt_reach (by omega) | exact Fld.lt_reach_src (by omega) rfl | exact Fld.lt_reach_low (by omega) rfl | exact Fld.lt_reach (grpOf_small (by omega) |>.trans (by decide)) | exact row_lv _ _ rfl | exact row_bank _ _ rfl | exact row_st _ _ rfl | exact slots_lt (fun _ h => touched_lt h) (by with_reducible assumption) | (exact touched_lt (by with_reducible assumption)) | exact grpOf_small (by omega) | exact (grpOf_small (by with_reducible assumption)).trans (by decide) | exact (bestRef_lt (by with_reducible assumption)).trans (by decide) | with_reducible exact qReg_off _ | exact rfl | exact fun _ => rfl | (exact (touched_lt (by with_reducible assumption)).trans (by decide)) | with_reducible exact Rides.refl _ | with_reducible apply Rides.setRefDefs | (intro; intros))
theorem refRole {z c : Chip} (k : Clock) (hz : Rides z c) : Rides z (c.refRole k) := by
  unfold Chip.refRole
  repeat' (first | with_reducible assumption | omega | exact Fld.lt_reach (by omega) | exact Fld.lt_reach_src (by omega) rfl | exact Fld.lt_reach_low (by omega) rfl | exact Fld.lt_reach (grpOf_small (by omega) |>.trans (by decide)) | exact row_lv _ _ rfl | exact row_bank _ _ rfl | exact row_st _ _ rfl | exact slots_lt (fun _ h => touched_lt h) (by with_reducible assumption) | (exact touched_lt (by with_reducible assumption)) | exact grpOf_small (by omega) | exact (grpOf_small (by with_reducible assumption)).trans (by decide) | exact (bestRef_lt (by with_reducible assumption)).trans (by decide) | with_reducible exact qReg_off _ | exact rfl | exact fun _ => rfl | (exact (touched_lt (by with_reducible assumption)).trans (by decide)) | with_reducible exact Rides.refl _ | with_reducible apply Rides.setRefDef | (intro; intros))
theorem deliver {z c : Chip} (r : Nat) (e : Int) (hz : Rides z c) : Rides z (c.deliver r e) := by
  unfold Chip.deliver
  repeat' (first | with_reducible assumption | omega | exact Fld.lt_reach (by omega) | exact Fld.lt_reach_src (by omega) rfl | exact Fld.lt_reach_low (by omega) rfl | exact Fld.lt_reach (grpOf_small (by omega) |>.trans (by decide)) | exact row_lv _ _ rfl | exact row_bank _ _ rfl | exact row_st _ _ rfl | exact slots_lt (fun _ h => touched_lt h) (by with_reducible assumption) | (exact touched_lt (by with_reducible assumption)) | exact grpOf_small (by omega) | exact (grpOf_small (by with_reducible assumption)).trans (by decide) | exact (bestRef_lt (by with_reducible assumption)).trans (by decide) | with_reducible exact qReg_off _ | exact rfl | exact fun _ => rfl | (exact (touched_lt (by with_reducible assumption)).trans (by decide)) | with_reducible exact Rides.refl _ | with_reducible apply Rides.onRef | with_reducible apply Rides.onCh | with_reducible apply Rides.setSt | with_reducible apply Rides.overN | with_reducible apply Rides.iteElse | (intro; intros))
theorem refApply {z c : Chip} (k : Clock) (old : Bank) (r : Nat) (hr : r < 4096) (hz : Rides z c) : Rides z (c.refApply k old r) := by
  unfold Chip.refApply
  repeat' (first | with_reducible assumption | omega | exact Fld.lt_reach (by omega) | exact Fld.lt_reach_src (by omega) rfl | exact Fld.lt_reach_low (by omega) rfl | exact Fld.lt_reach (grpOf_small (by omega) |>.trans (by decide)) | exact row_lv _ _ rfl | exact row_bank _ _ rfl | exact row_st _ _ rfl | exact slots_lt (fun _ h => touched_lt h) (by with_reducible assumption) | (exact touched_lt (by with_reducible assumption)) | exact grpOf_small (by omega) | exact (grpOf_small (by with_reducible assumption)).trans (by decide) | exact (bestRef_lt (by with_reducible assumption)).trans (by decide) | with_reducible exact qReg_off _ | exact rfl | exact fun _ => rfl | (exact (touched_lt (by with_reducible assumption)).trans (by decide)) | with_reducible exact Rides.refl _ | with_reducible apply Rides.onRef | with_reducible apply Rides.setRefDef | with_reducible apply Rides.deliver | with_reducible apply Rides.iteElse | (intro; intros))
theorem chanApply {z c : Chip} (k : Clock) (old : Bank) (first : Bool) (ch : Nat) (hch : ch < 4096) (hz : Rides z c) : Rides z (c.chanApply k old first ch) := by
  unfold Chip.chanApply
  repeat' (first | with_reducible assumption | omega | exact Fld.lt_reach (by omega) | exact Fld.lt_reach_src (by omega) rfl | exact Fld.lt_reach_low (by omega) rfl | exact Fld.lt_reach (grpOf_small (by omega) |>.trans (by decide)) | exact row_lv _ _ rfl | exact row_bank _ _ rfl | exact row_st _ _ rfl | exact slots_lt (fun _ h => touched_lt h) (by with_reducible assumption) | (exact touched_lt (by with_reducible assumption)) | exact grpOf_small (by omega) | exact (grpOf_small (by with_reducible assumption)).trans (by decide) | exact (bestRef_lt (by with_reducible assumption)).trans (by decide) | with_reducible exact qReg_off _ | exact rfl | exact fun _ => rfl | (exact (touched_lt (by with_reducible assumption)).trans (by decide)) | with_reducible exact Rides.refl _ | with_reducible apply Rides.setHist | with_reducible apply Rides.onCh | with_reducible apply Rides.syncCh | with_reducible apply Rides.enter | with_reducible apply Rides.abandon | with_reducible apply Rides.loseSel | with_reducible apply Rides.choose | with_reducible apply Rides.holdover | with_reducible apply Rides.beginSwitch | with_reducible apply Rides.iteElse | (intro; intros) | fail_if_no_progress extract_lets | split)
theorem dpllApply {z c : Chip} (k : Clock) (old : Bank) (first : Bool) (hz : Rides z c) : Rides z (c.dpllApply k old first) := by
  unfold Chip.dpllApply
  repeat' (first | with_reducible assumption | omega | exact Fld.lt_reach (by omega) | exact Fld.lt_reach_src (by omega) rfl | exact Fld.lt_reach_low (by omega) rfl | exact Fld.lt_reach (grpOf_small (by omega) |>.trans (by decide)) | exact row_lv _ _ rfl | exact row_bank _ _ rfl | exact row_st _ _ rfl | exact slots_lt (fun _ h => touched_lt h) (by with_reducible assumption) | (exact touched_lt (by with_reducible assumption)) | exact grpOf_small (by omega) | exact (grpOf_small (by with_reducible assumption)).trans (by decide) | exact (bestRef_lt (by with_reducible assumption)).trans (by decide) | with_reducible exact qReg_off _ | exact rfl | exact fun _ => rfl | (exact (touched_lt (by with_reducible assumption)).trans (by decide)) | with_reducible exact Rides.refl _ | with_reducible apply Rides.refApply | with_reducible apply Rides.chanApply | with_reducible apply Rides.overN | with_reducible apply Rides.iteElse | (intro; intros))
theorem syncPools {z c : Chip} (k : Clock) (hz : Rides z c) : Rides z (c.syncPools k) := by
  unfold Chip.syncPools
  repeat' (first | with_reducible assumption | omega | exact Fld.lt_reach (by omega) | exact Fld.lt_reach_src (by omega) rfl | exact Fld.lt_reach_low (by omega) rfl | exact Fld.lt_reach (grpOf_small (by omega) |>.trans (by decide)) | exact row_lv _ _ rfl | exact row_bank _ _ rfl | exact row_st _ _ rfl | exact slots_lt (fun _ h => touched_lt h) (by with_reducible assumption) | (exact touched_lt (by with_reducible assumption)) | exact grpOf_small (by omega) | exact (grpOf_small (by with_reducible assumption)).trans (by decide) | exact (bestRef_lt (by with_reducible assumption)).trans (by decide) | with_reducible exact qReg_off _ | exact rfl | exact fun _ => rfl | (exact (touched_lt (by with_reducible assumption)).trans (by decide)) | with_reducible exact Rides.refl _ | with_reducible apply Rides.setCond | (intro; intros))
theorem freeCells {z c : Chip} (k : Clock) (up : Bool) (cells : List Nat) (hz : Rides z c) : Rides z (c.freeCells k up cells) := by
  unfold Chip.freeCells
  repeat' (first | with_reducible assumption | omega | exact Fld.lt_reach (by omega) | exact Fld.lt_reach_src (by omega) rfl | exact Fld.lt_reach_low (by omega) rfl | exact Fld.lt_reach (grpOf_small (by omega) |>.trans (by decide)) | exact row_lv _ _ rfl | exact row_bank _ _ rfl | exact row_st _ _ rfl | exact slots_lt (fun _ h => touched_lt h) (by with_reducible assumption) | (exact touched_lt (by with_reducible assumption)) | exact grpOf_small (by omega) | exact (grpOf_small (by with_reducible assumption)).trans (by decide) | exact (bestRef_lt (by with_reducible assumption)).trans (by decide) | with_reducible exact qReg_off _ | exact rfl | exact fun _ => rfl | (exact (touched_lt (by with_reducible assumption)).trans (by decide)) | with_reducible exact Rides.refl _ | with_reducible apply Rides.onM | with_reducible apply Rides.syncPools | (intro; intros))
theorem sendDesc {z c : Chip} (h : Rides z c) : Rides z c.sendDesc := by
  unfold Chip.sendDesc
  split
  next room c₁ hdraw =>
    have h₁ : Rides z c₁ := draw_eq hdraw h
    exact ite (setSt_beside TWIN.DESCSENT _ rfl h₁) (onTwin _ (fun _ => rfl) (setSt_beside TWIN.DESCLOST _ rfl h₁))
theorem sendAdd {z c : Chip} (hz : Rides z c) : Rides z (c.sendAdd).2 := by
  unfold Chip.sendAdd
  repeat' (first | with_reducible assumption | omega | exact Fld.lt_reach (by omega) | exact Fld.lt_reach_src (by omega) rfl | exact Fld.lt_reach_low (by omega) rfl | exact Fld.lt_reach (grpOf_small (by omega) |>.trans (by decide)) | exact row_lv _ _ rfl | exact row_bank _ _ rfl | exact row_st _ _ rfl | exact slots_lt (fun _ h => touched_lt h) (by with_reducible assumption) | (exact touched_lt (by with_reducible assumption)) | exact grpOf_small (by omega) | exact (grpOf_small (by with_reducible assumption)).trans (by decide) | exact (bestRef_lt (by with_reducible assumption)).trans (by decide) | with_reducible exact qReg_off _ | exact rfl | exact fun _ => rfl | (exact (touched_lt (by with_reducible assumption)).trans (by decide)) | with_reducible exact Rides.refl _ | with_reducible apply Rides.onTwin | with_reducible apply Rides.sendDesc | (intro; intros))
theorem retire {z c : Chip} (it : Item) (cause : Nat) (hz : Rides z c) : Rides z (c.retire it cause) := by
  unfold Chip.retire
  repeat' (first | with_reducible assumption | omega | exact Fld.lt_reach (by omega) | exact Fld.lt_reach_src (by omega) rfl | exact Fld.lt_reach_low (by omega) rfl | exact Fld.lt_reach (grpOf_small (by omega) |>.trans (by decide)) | exact row_lv _ _ rfl | exact row_bank _ _ rfl | exact row_st _ _ rfl | exact slots_lt (fun _ h => touched_lt h) (by with_reducible assumption) | (exact touched_lt (by with_reducible assumption)) | exact grpOf_small (by omega) | exact (grpOf_small (by with_reducible assumption)).trans (by decide) | exact (bestRef_lt (by with_reducible assumption)).trans (by decide) | with_reducible exact qReg_off _ | exact rfl | exact fun _ => rfl | (exact (touched_lt (by with_reducible assumption)).trans (by decide)) | with_reducible exact Rides.refl _ | with_reducible apply Rides.sendDesc | with_reducible apply Rides.iteElse | (intro; intros))
theorem setItems {z c : Chip} (t : Nat) (up : Bool) (l : List Item) (hz : Rides z c) : Rides z (c.setItems t up l) := by
  unfold Chip.setItems
  repeat' (first | with_reducible assumption | omega | exact Fld.lt_reach (by omega) | exact Fld.lt_reach_src (by omega) rfl | exact Fld.lt_reach_low (by omega) rfl | exact Fld.lt_reach (grpOf_small (by omega) |>.trans (by decide)) | exact row_lv _ _ rfl | exact row_bank _ _ rfl | exact row_st _ _ rfl | exact slots_lt (fun _ h => touched_lt h) (by with_reducible assumption) | (exact touched_lt (by with_reducible assumption)) | exact grpOf_small (by omega) | exact (grpOf_small (by with_reducible assumption)).trans (by decide) | exact (bestRef_lt (by with_reducible assumption)).trans (by decide) | with_reducible exact qReg_off _ | exact rfl | exact fun _ => rfl | (exact (touched_lt (by with_reducible assumption)).trans (by decide)) | with_reducible exact Rides.refl _ | with_reducible apply Rides.onT | (intro; intros))
theorem countDisc {z c : Chip} (t : Nat) (up : Bool) (cause : Nat) (hz : Rides z c) : Rides z (c.countDisc t up cause) := by
  unfold Chip.countDisc
  repeat' (first | with_reducible assumption | omega | exact Fld.lt_reach (by omega) | exact Fld.lt_reach_src (by omega) rfl | exact Fld.lt_reach_low (by omega) rfl | exact Fld.lt_reach (grpOf_small (by omega) |>.trans (by decide)) | exact row_lv _ _ rfl | exact row_bank _ _ rfl | exact row_st _ _ rfl | exact slots_lt (fun _ h => touched_lt h) (by with_reducible assumption) | (exact touched_lt (by with_reducible assumption)) | exact grpOf_small (by omega) | exact (grpOf_small (by with_reducible assumption)).trans (by decide) | exact (bestRef_lt (by with_reducible assumption)).trans (by decide) | with_reducible exact qReg_off _ | exact rfl | exact fun _ => rfl | (exact (touched_lt (by with_reducible assumption)).trans (by decide)) | with_reducible exact Rides.refl _ | with_reducible apply Rides.onT | (intro; intros))
theorem failRecord {z c : Chip} (k : Clock) (flag : Fld) (cause t : Nat) (up : Bool) (cell len : Nat) (stamp : Word) (e : Nat)
    (h : Rides z c) : Rides z (c.failRecord k flag cause t up cell len stamp e) := by
  unfold Chip.failRecord
  split
  next q hq =>
    have : q < 8 := List.mem_range.mp (List.mem_of_find?_eq_some hq)
    exact qRecord k q 6 t _ e (by omega) h
  next => exact h
theorem discardItem {z c : Chip} (k : Clock) (it : Item) (cause : Nat) (hz : Rides z c) : Rides z (c.discardItem k it cause) := by
  unfold Chip.discardItem
  repeat' (first | with_reducible assumption | omega | exact Fld.lt_reach (by omega) | exact Fld.lt_reach_src (by omega) rfl | exact Fld.lt_reach_low (by omega) rfl | exact Fld.lt_reach (grpOf_small (by omega) |>.trans (by decide)) | exact row_lv _ _ rfl | exact row_bank _ _ rfl | exact row_st _ _ rfl | exact slots_lt (fun _ h => touched_lt h) (by with_reducible assumption) | (exact touched_lt (by with_reducible assumption)) | exact grpOf_small (by omega) | exact (grpOf_small (by with_reducible assumption)).trans (by decide) | exact (bestRef_lt (by with_reducible assumption)).trans (by decide) | with_reducible exact qReg_off _ | exact rfl | exact fun _ => rfl | (exact (touched_lt (by with_reducible assumption)).trans (by decide)) | with_reducible exact Rides.refl _ | with_reducible apply Rides.countDisc | with_reducible apply Rides.freeCells | with_reducible apply Rides.retire | with_reducible apply Rides.failRecord | with_reducible apply Rides.iteElse | (intro; intros))
theorem restand {z c : Chip} (k : Clock) (a : Option Nat) (hz : Rides z c) : Rides z (c.restand k a) := by
  unfold Chip.restand
  repeat' (first | with_reducible assumption | omega | exact Fld.lt_reach (by omega) | exact Fld.lt_reach_src (by omega) rfl | exact Fld.lt_reach_low (by omega) rfl | exact Fld.lt_reach (grpOf_small (by omega) |>.trans (by decide)) | exact row_lv _ _ rfl | exact row_bank _ _ rfl | exact row_st _ _ rfl | exact slots_lt (fun _ h => touched_lt h) (by with_reducible assumption) | (exact touched_lt (by with_reducible assumption)) | exact grpOf_small (by omega) | exact (grpOf_small (by with_reducible assumption)).trans (by decide) | exact (bestRef_lt (by with_reducible assumption)).trans (by decide) | with_reducible exact qReg_off _ | exact rfl | exact fun _ => rfl | (exact (touched_lt (by with_reducible assumption)).trans (by decide)) | with_reducible exact Rides.refl _ | with_reducible apply Rides.cause | (with_reducible refine Rides.onHeath ?_ (fun _ => ⟨rfl, rfl, rfl, rfl, rfl⟩)) | (intro; intros))
theorem syncOut {z c : Chip} (o : Nat) (ho : o < 4096) (hz : Rides z c) : Rides z (c.syncOut o) := by
  unfold Chip.syncOut
  repeat' (first | with_reducible assumption | omega | exact Fld.lt_reach (by omega) | exact Fld.lt_reach_src (by omega) rfl | exact Fld.lt_reach_low (by omega) rfl | exact Fld.lt_reach (grpOf_small (by omega) |>.trans (by decide)) | exact row_lv _ _ rfl | exact row_bank _ _ rfl | exact row_st _ _ rfl | exact slots_lt (fun _ h => touched_lt h) (by with_reducible assumption) | (exact touched_lt (by with_reducible assumption)) | exact grpOf_small (by omega) | exact (grpOf_small (by with_reducible assumption)).trans (by decide) | exact (bestRef_lt (by with_reducible assumption)).trans (by decide) | with_reducible exact qReg_off _ | exact rfl | exact fun _ => rfl | (exact (touched_lt (by with_reducible assumption)).trans (by decide)) | with_reducible exact Rides.refl _ | with_reducible apply Rides.setSt | with_reducible apply Rides.iteElse | (intro; intros))
theorem setLate {z c : Chip} (k : Clock) (o : Nat) (ho : o < 4096) (hz : Rides z c) : Rides z (c.setLate k o) := by
  unfold Chip.setLate
  repeat' (first | with_reducible assumption | omega | exact Fld.lt_reach (by omega) | exact Fld.lt_reach_src (by omega) rfl | exact Fld.lt_reach_low (by omega) rfl | exact Fld.lt_reach (grpOf_small (by omega) |>.trans (by decide)) | exact row_lv _ _ rfl | exact row_bank _ _ rfl | exact row_st _ _ rfl | exact slots_lt (fun _ h => touched_lt h) (by with_reducible assumption) | (exact touched_lt (by with_reducible assumption)) | exact grpOf_small (by omega) | exact (grpOf_small (by with_reducible assumption)).trans (by decide) | exact (bestRef_lt (by with_reducible assumption)).trans (by decide) | with_reducible exact qReg_off _ | exact rfl | exact fun _ => rfl | (exact (touched_lt (by with_reducible assumption)).trans (by decide)) | with_reducible exact Rides.refl _ | with_reducible apply Rides.setSt | with_reducible apply Rides.cause | with_reducible apply Rides.onTime | (intro; intros))
theorem outApply {z c : Chip} (k : Clock) (old : Bank) (o : Nat) (ho : o < 4096) (hz : Rides z c) : Rides z (c.outApply k old o) := by
  unfold Chip.outApply
  repeat' (first | with_reducible assumption | omega | exact Fld.lt_reach (by omega) | exact Fld.lt_reach_src (by omega) rfl | exact Fld.lt_reach_low (by omega) rfl | exact Fld.lt_reach (grpOf_small (by omega) |>.trans (by decide)) | exact row_lv _ _ rfl | exact row_bank _ _ rfl | exact row_st _ _ rfl | exact slots_lt (fun _ h => touched_lt h) (by with_reducible assumption) | (exact touched_lt (by with_reducible assumption)) | exact grpOf_small (by omega) | exact (grpOf_small (by with_reducible assumption)).trans (by decide) | exact (bestRef_lt (by with_reducible assumption)).trans (by decide) | with_reducible exact qReg_off _ | exact rfl | exact fun _ => rfl | (exact (touched_lt (by with_reducible assumption)).trans (by decide)) | with_reducible exact Rides.refl _ | with_reducible apply Rides.setSt | with_reducible apply Rides.onOut | with_reducible apply Rides.syncOut | with_reducible apply Rides.setLate | with_reducible apply Rides.iteElse | (intro; intros) | fail_if_no_progress extract_lets | split)
theorem timeApply {z c : Chip} (k : Clock) (old : Bank) (step : Bool) (hz : Rides z c) : Rides z (c.timeApply k old step) := by
  unfold Chip.timeApply
  repeat' (first | with_reducible assumption | omega | exact Fld.lt_reach (by omega) | exact Fld.lt_reach_src (by omega) rfl | exact Fld.lt_reach_low (by omega) rfl | exact Fld.lt_reach (grpOf_small (by omega) |>.trans (by decide)) | exact row_lv _ _ rfl | exact row_bank _ _ rfl | exact row_st _ _ rfl | exact slots_lt (fun _ h => touched_lt h) (by with_reducible assumption) | (exact touched_lt (by with_reducible assumption)) | exact grpOf_small (by omega) | exact (grpOf_small (by with_reducible assumption)).trans (by decide) | exact (bestRef_lt (by with_reducible assumption)).trans (by decide) | with_reducible exact qReg_off _ | exact rfl | exact fun _ => rfl | (exact (touched_lt (by with_reducible assumption)).trans (by decide)) | with_reducible exact Rides.refl _ | with_reducible apply Rides.onTime | with_reducible apply Rides.outApply | with_reducible apply Rides.overN | with_reducible apply Rides.iteElse | (intro; intros))
theorem apsHold {z c : Chip} (k : Clock) (p : Nat) (formed : Bool) (hp : p < 4096) (hz : Rides z c) : Rides z (c.apsHold k p formed) := by
  unfold Chip.apsHold
  repeat' (first | with_reducible assumption | omega | exact Fld.lt_reach (by omega) | exact Fld.lt_reach_src (by omega) rfl | exact Fld.lt_reach_low (by omega) rfl | exact Fld.lt_reach (grpOf_small (by omega) |>.trans (by decide)) | exact row_lv _ _ rfl | exact row_bank _ _ rfl | exact row_st _ _ rfl | exact slots_lt (fun _ h => touched_lt h) (by with_reducible assumption) | (exact touched_lt (by with_reducible assumption)) | exact grpOf_small (by omega) | exact (grpOf_small (by with_reducible assumption)).trans (by decide) | exact (bestRef_lt (by with_reducible assumption)).trans (by decide) | with_reducible exact qReg_off _ | exact rfl | exact fun _ => rfl | (exact (touched_lt (by with_reducible assumption)).trans (by decide)) | with_reducible exact Rides.refl _ | with_reducible apply Rides.onP | with_reducible apply Rides.overN | with_reducible apply Rides.iteElse | (intro; intros))
theorem apsAim {z c : Chip} (k : Clock) (p : Nat) (b : Bool) (hz : Rides z c) : Rides z (c.apsAim k p b) := by
  unfold Chip.apsAim
  repeat' (first | with_reducible assumption | omega | exact Fld.lt_reach (by omega) | exact Fld.lt_reach_src (by omega) rfl | exact Fld.lt_reach_low (by omega) rfl | exact Fld.lt_reach (grpOf_small (by omega) |>.trans (by decide)) | exact row_lv _ _ rfl | exact row_bank _ _ rfl | exact row_st _ _ rfl | exact slots_lt (fun _ h => touched_lt h) (by with_reducible assumption) | (exact touched_lt (by with_reducible assumption)) | exact grpOf_small (by omega) | exact (grpOf_small (by with_reducible assumption)).trans (by decide) | exact (bestRef_lt (by with_reducible assumption)).trans (by decide) | with_reducible exact qReg_off _ | exact rfl | exact fun _ => rfl | (exact (touched_lt (by with_reducible assumption)).trans (by decide)) | with_reducible exact Rides.refl _ | with_reducible apply Rides.onP | with_reducible apply Rides.iteElse | with_reducible apply Rides.upd | (intro; intros))
theorem apsLfd {z c : Chip} (k : Clock) (p : Nat) (hp : p < 4096) (hz : Rides z c) : Rides z (c.apsLfd k p) := by
  unfold Chip.apsLfd
  repeat' (first | with_reducible assumption | omega | exact Fld.lt_reach (by omega) | exact Fld.lt_reach_src (by omega) rfl | exact Fld.lt_reach_low (by omega) rfl | exact Fld.lt_reach (grpOf_small (by omega) |>.trans (by decide)) | exact row_lv _ _ rfl | exact row_bank _ _ rfl | exact row_st _ _ rfl | exact slots_lt (fun _ h => touched_lt h) (by with_reducible assumption) | (exact touched_lt (by with_reducible assumption)) | exact grpOf_small (by omega) | exact (grpOf_small (by with_reducible assumption)).trans (by decide) | exact (bestRef_lt (by with_reducible assumption)).trans (by decide) | with_reducible exact qReg_off _ | exact rfl | exact fun _ => rfl | (exact (touched_lt (by with_reducible assumption)).trans (by decide)) | with_reducible exact Rides.refl _ | with_reducible apply Rides.setSt | with_reducible apply Rides.cause | with_reducible apply Rides.iteElse | (intro; intros))
theorem apsBlank {z c : Chip} (p : Nat) (hp : p < 4096) (h : Rides z c) : Rides z (c.apsBlank p) := by
  unfold Chip.apsBlank
  refine onP _ _ (foldl _ h fun a i hi ha => ?_)
  have hi : i < 5 := List.mem_range.mp hi
  refine withStatus _ ((Keeps.refl a).withStatus fun w => Bank.wf_write _ _ _ w) (fun f hf ht _ => ?_) ha
  refine congrArg f.get (Bank.read_write_other _ _ ?_)
  have := (Fld.fits_iff.mp hf).2
  unfold Fld.addr hAddr
  omega
theorem consequent {z c : Chip} (u d : Nat) (hz : Rides z c) : Rides z (c.consequent u d) := by
  unfold Chip.consequent
  repeat' (first | with_reducible assumption | omega | exact Fld.lt_reach (by omega) | exact Fld.lt_reach_src (by omega) rfl | exact Fld.lt_reach_low (by omega) rfl | exact Fld.lt_reach (grpOf_small (by omega) |>.trans (by decide)) | exact row_lv _ _ rfl | exact row_bank _ _ rfl | exact row_st _ _ rfl | exact slots_lt (fun _ h => touched_lt h) (by with_reducible assumption) | (exact touched_lt (by with_reducible assumption)) | exact grpOf_small (by omega) | exact (grpOf_small (by with_reducible assumption)).trans (by decide) | exact (bestRef_lt (by with_reducible assumption)).trans (by decide) | with_reducible exact qReg_off _ | exact rfl | exact fun _ => rfl | (exact (touched_lt (by with_reducible assumption)).trans (by decide)) | with_reducible exact Rides.refl _ | with_reducible apply Rides.onU | (intro; intros))
theorem gccRewind {z c : Chip} (k : Clock) (u q : Nat) (hq : q < 8192) (hz : Rides z c) : Rides z (c.gccRewind k u q) := by
  unfold Chip.gccRewind
  repeat' (first | with_reducible assumption | omega | exact Fld.lt_reach (by omega) | exact Fld.lt_reach_src (by omega) rfl | exact Fld.lt_reach_low (by omega) rfl | exact Fld.lt_reach (grpOf_small (by omega) |>.trans (by decide)) | exact row_lv _ _ rfl | exact row_bank _ _ rfl | exact row_st _ _ rfl | exact slots_lt (fun _ h => touched_lt h) (by with_reducible assumption) | (exact touched_lt (by with_reducible assumption)) | exact grpOf_small (by omega) | exact (grpOf_small (by with_reducible assumption)).trans (by decide) | exact (bestRef_lt (by with_reducible assumption)).trans (by decide) | with_reducible exact qReg_off _ | exact rfl | exact fun _ => rfl | (exact (touched_lt (by with_reducible assumption)).trans (by decide)) | with_reducible exact Rides.refl _ | with_reducible apply Rides.qRewind | with_reducible apply Rides.onU | (intro; intros))
theorem startSide {z c : Chip} (k : Clock) (p : Nat) (rx : Bool) (hp : p < 4096) (hz : Rides z c) : Rides z (c.startSide k p rx) := by
  unfold Chip.startSide
  repeat' (first | with_reducible assumption | omega | exact Fld.lt_reach (by omega) | exact Fld.lt_reach_src (by omega) rfl | exact Fld.lt_reach_low (by omega) rfl | exact Fld.lt_reach (grpOf_small (by omega) |>.trans (by decide)) | exact row_lv _ _ rfl | exact row_bank _ _ rfl | exact row_st _ _ rfl | exact slots_lt (fun _ h => touched_lt h) (by with_reducible assumption) | (exact touched_lt (by with_reducible assumption)) | exact grpOf_small (by omega) | exact (grpOf_small (by with_reducible assumption)).trans (by decide) | exact (bestRef_lt (by with_reducible assumption)).trans (by decide) | with_reducible exact qReg_off _ | exact rfl | exact fun _ => rfl | (exact (touched_lt (by with_reducible assumption)).trans (by decide)) | with_reducible exact Rides.refl _ | with_reducible apply Rides.onSide | with_reducible apply Rides.syncSide | with_reducible apply Rides.iteElse | (intro; intros))
theorem endSide {z c : Chip} (k : Clock) (old : Bank) (p : Nat) (rx : Bool) (hp : p < 4096) (hz : Rides z c) : Rides z (c.endSide k old p rx) := by
  unfold Chip.endSide
  repeat' (first | with_reducible assumption | omega | exact Fld.lt_reach (by omega) | exact Fld.lt_reach_src (by omega) rfl | exact Fld.lt_reach_low (by omega) rfl | exact Fld.lt_reach (grpOf_small (by omega) |>.trans (by decide)) | exact row_lv _ _ rfl | exact row_bank _ _ rfl | exact row_st _ _ rfl | exact slots_lt (fun _ h => touched_lt h) (by with_reducible assumption) | (exact touched_lt (by with_reducible assumption)) | exact grpOf_small (by omega) | exact (grpOf_small (by with_reducible assumption)).trans (by decide) | exact (bestRef_lt (by with_reducible assumption)).trans (by decide) | with_reducible exact qReg_off _ | exact rfl | exact fun _ => rfl | (exact (touched_lt (by with_reducible assumption)).trans (by decide)) | with_reducible exact Rides.refl _ | with_reducible apply Rides.onSide | with_reducible apply Rides.addSt | with_reducible apply Rides.setRun | with_reducible apply Rides.stopSide | with_reducible apply Rides.iteElse | (intro; intros))
theorem rewatch {z c : Chip} (k : Clock) (p : Nat) (rx : Bool) (hp : p < 4096) (hz : Rides z c) : Rides z (c.rewatch k p rx) := by
  unfold Chip.rewatch
  repeat' (first | with_reducible assumption | omega | exact Fld.lt_reach (by omega) | exact Fld.lt_reach_src (by omega) rfl | exact Fld.lt_reach_low (by omega) rfl | exact Fld.lt_reach (grpOf_small (by omega) |>.trans (by decide)) | exact row_lv _ _ rfl | exact row_bank _ _ rfl | exact row_st _ _ rfl | exact slots_lt (fun _ h => touched_lt h) (by with_reducible assumption) | (exact touched_lt (by with_reducible assumption)) | exact grpOf_small (by omega) | exact (grpOf_small (by with_reducible assumption)).trans (by decide) | exact (bestRef_lt (by with_reducible assumption)).trans (by decide) | with_reducible exact qReg_off _ | exact rfl | exact fun _ => rfl | (exact (touched_lt (by with_reducible assumption)).trans (by decide)) | with_reducible exact Rides.refl _ | with_reducible apply Rides.onSide | with_reducible apply Rides.upd | (intro; intros))
theorem setAudDef {z c : Chip} (k : Clock) (p new : Nat) (hp : p < 4096) (hz : Rides z c) : Rides z (c.setAudDef k p new) := by
  unfold Chip.setAudDef
  repeat' (first | with_reducible assumption | omega | exact Fld.lt_reach (by omega) | exact Fld.lt_reach_src (by omega) rfl | exact Fld.lt_reach_low (by omega) rfl | exact Fld.lt_reach (grpOf_small (by omega) |>.trans (by decide)) | exact row_lv _ _ rfl | exact row_bank _ _ rfl | exact row_st _ _ rfl | exact slots_lt (fun _ h => touched_lt h) (by with_reducible assumption) | (exact touched_lt (by with_reducible assumption)) | exact grpOf_small (by omega) | exact (grpOf_small (by with_reducible assumption)).trans (by decide) | exact (bestRef_lt (by with_reducible assumption)).trans (by decide) | with_reducible exact qReg_off _ | exact rfl | exact fun _ => rfl | (exact (touched_lt (by with_reducible assumption)).trans (by decide)) | with_reducible exact Rides.refl _ | with_reducible apply Rides.setSt | with_reducible apply Rides.causeIf | with_reducible apply Rides.setCond | (intro; intros))
theorem syncDropSrc {z c : Chip} (k : Clock) (d : Nat) (hd : d < 4096) (hz : Rides z c) : Rides z (c.syncDropSrc k d) := by
  unfold Chip.syncDropSrc
  repeat' (first | with_reducible assumption | omega | exact Fld.lt_reach (by omega) | exact Fld.lt_reach_src (by omega) rfl | exact Fld.lt_reach_low (by omega) rfl | exact Fld.lt_reach (grpOf_small (by omega) |>.trans (by decide)) | exact row_lv _ _ rfl | exact row_bank _ _ rfl | exact row_st _ _ rfl | exact slots_lt (fun _ h => touched_lt h) (by with_reducible assumption) | (exact touched_lt (by with_reducible assumption)) | exact grpOf_small (by omega) | exact (grpOf_small (by with_reducible assumption)).trans (by decide) | exact (bestRef_lt (by with_reducible assumption)).trans (by decide) | with_reducible exact qReg_off _ | exact rfl | exact fun _ => rfl | (exact (touched_lt (by with_reducible assumption)).trans (by decide)) | with_reducible exact Rides.refl _ | with_reducible apply Rides.setCond | (intro; intros))
theorem setDropDefs {z c : Chip} (k : Clock) (d new : Nat) (hd : d < 4096) (hz : Rides z c) : Rides z (c.setDropDefs k d new) := by
  unfold Chip.setDropDefs
  repeat' (first | with_reducible assumption | omega | exact Fld.lt_reach (by omega) | exact Fld.lt_reach_src (by omega) rfl | exact Fld.lt_reach_low (by omega) rfl | exact Fld.lt_reach (grpOf_small (by omega) |>.trans (by decide)) | exact row_lv _ _ rfl | exact row_bank _ _ rfl | exact row_st _ _ rfl | exact slots_lt (fun _ h => touched_lt h) (by with_reducible assumption) | (exact touched_lt (by with_reducible assumption)) | exact grpOf_small (by omega) | exact (grpOf_small (by with_reducible assumption)).trans (by decide) | exact (bestRef_lt (by with_reducible assumption)).trans (by decide) | with_reducible exact qReg_off _ | exact rfl | exact fun _ => rfl | (exact (touched_lt (by with_reducible assumption)).trans (by decide)) | with_reducible exact Rides.refl _ | with_reducible apply Rides.setSt | with_reducible apply Rides.causeIf | with_reducible apply Rides.syncDropSrc | (intro; intros))
theorem setDropDef {z c : Chip} (k : Clock) (d n : Nat) (b : Bool) (hd : d < 4096) (hz : Rides z c) : Rides z (c.setDropDef k d n b) := by
  unfold Chip.setDropDef
  repeat' (first | with_reducible assumption | omega | exact Fld.lt_reach (by omega) | exact Fld.lt_reach_src (by omega) rfl | exact Fld.lt_reach_low (by omega) rfl | exact Fld.lt_reach (grpOf_small (by omega) |>.trans (by decide)) | exact row_lv _ _ rfl | exact row_bank _ _ rfl | exact row_st _ _ rfl | exact slots_lt (fun _ h => touched_lt h) (by with_reducible assumption) | (exact touched_lt (by with_reducible assumption)) | exact grpOf_small (by omega) | exact (grpOf_small (by with_reducible assumption)).trans (by decide) | exact (bestRef_lt (by with_reducible assumption)).trans (by decide) | with_reducible exact qReg_off _ | exact rfl | exact fun _ => rfl | (exact (touched_lt (by with_reducible assumption)).trans (by decide)) | with_reducible exact Rides.refl _ | with_reducible apply Rides.setDropDefs | (intro; intros))
theorem countUp {z c : Chip} (f : Fld) (d n : Nat) (hf : f.offTwin = true) (hd : d < 4096) (hz : Rides z c) : Rides z (c.countUp f d n) := by
  unfold Chip.countUp
  repeat' (first | with_reducible assumption | omega | exact Fld.lt_reach (by omega) | exact Fld.lt_reach_src (by omega) rfl | exact Fld.lt_reach_low (by omega) rfl | exact Fld.lt_reach (grpOf_small (by omega) |>.trans (by decide)) | exact row_lv _ _ rfl | exact row_bank _ _ rfl | exact row_st _ _ rfl | exact slots_lt (fun _ h => touched_lt h) (by with_reducible assumption) | (exact touched_lt (by with_reducible assumption)) | exact grpOf_small (by omega) | exact (grpOf_small (by with_reducible assumption)).trans (by decide) | exact (bestRef_lt (by with_reducible assumption)).trans (by decide) | with_reducible exact qReg_off _ | exact rfl | exact fun _ => rfl | (exact (touched_lt (by with_reducible assumption)).trans (by decide)) | with_reducible exact Rides.refl _ | with_reducible apply Rides.addSt | with_reducible apply Rides.iteElse | (intro; intros))
theorem slotCause {z c : Chip} (k : Clock) (d bits : Nat) (hd : d < 4096) (hz : Rides z c) : Rides z (c.slotCause k d bits) := by
  unfold Chip.slotCause
  repeat' (first | with_reducible assumption | omega | exact Fld.lt_reach (by omega) | exact Fld.lt_reach_src (by omega) rfl | exact Fld.lt_reach_low (by omega) rfl | exact Fld.lt_reach (grpOf_small (by omega) |>.trans (by decide)) | exact row_lv _ _ rfl | exact row_bank _ _ rfl | exact row_st _ _ rfl | exact slots_lt (fun _ h => touched_lt h) (by with_reducible assumption) | (exact touched_lt (by with_reducible assumption)) | exact grpOf_small (by omega) | exact (grpOf_small (by with_reducible assumption)).trans (by decide) | exact (bestRef_lt (by with_reducible assumption)).trans (by decide) | with_reducible exact qReg_off _ | exact rfl | exact fun _ => rfl | (exact (touched_lt (by with_reducible assumption)).trans (by decide)) | with_reducible exact Rides.refl _ | with_reducible apply Rides.cause | (intro; intros))
theorem syncSlot {z c : Chip} (d : Nat) (hd : d < 4096) (hz : Rides z c) : Rides z (c.syncSlot d) := by
  unfold Chip.syncSlot
  repeat' (first | with_reducible assumption | omega | exact Fld.lt_reach (by omega) | exact Fld.lt_reach_src (by omega) rfl | exact Fld.lt_reach_low (by omega) rfl | exact Fld.lt_reach (grpOf_small (by omega) |>.trans (by decide)) | exact row_lv _ _ rfl | exact row_bank _ _ rfl | exact row_st _ _ rfl | exact slots_lt (fun _ h => touched_lt h) (by with_reducible assumption) | (exact touched_lt (by with_reducible assumption)) | exact grpOf_small (by omega) | exact (grpOf_small (by with_reducible assumption)).trans (by decide) | exact (bestRef_lt (by with_reducible assumption)).trans (by decide) | with_reducible exact qReg_off _ | exact rfl | exact fun _ => rfl | (exact (touched_lt (by with_reducible assumption)).trans (by decide)) | with_reducible exact Rides.refl _ | with_reducible apply Rides.setSt | (intro; intros))
theorem setSlotDef {z c : Chip} (k : Clock) (d n : Nat) (f : Fld) (on off : Nat) (b : Bool) (hf : f.offTwin = true) (hd : d < 4096) (hz : Rides z c) : Rides z (c.setSlotDef k d n f on off b) := by
  unfold Chip.setSlotDef
  repeat' (first | with_reducible assumption | omega | exact Fld.lt_reach (by omega) | exact Fld.lt_reach_src (by omega) rfl | exact Fld.lt_reach_low (by omega) rfl | exact Fld.lt_reach (grpOf_small (by omega) |>.trans (by decide)) | exact row_lv _ _ rfl | exact row_bank _ _ rfl | exact row_st _ _ rfl | exact slots_lt (fun _ h => touched_lt h) (by with_reducible assumption) | (exact touched_lt (by with_reducible assumption)) | exact grpOf_small (by omega) | exact (grpOf_small (by with_reducible assumption)).trans (by decide) | exact (bestRef_lt (by with_reducible assumption)).trans (by decide) | with_reducible exact qReg_off _ | exact rfl | exact fun _ => rfl | (exact (touched_lt (by with_reducible assumption)).trans (by decide)) | with_reducible exact Rides.refl _ | with_reducible apply Rides.setSt | with_reducible apply Rides.setDropDef | with_reducible apply Rides.slotCause | with_reducible apply Rides.iteElse | (intro; intros))
theorem setSmflt {z c : Chip} (k : Clock) (d : Nat) (b : Bool) (hd : d < 4096) (hz : Rides z c) : Rides z (c.setSmflt k d b) := by
  unfold Chip.setSmflt
  repeat' (first | with_reducible assumption | omega | exact Fld.lt_reach (by omega) | exact Fld.lt_reach_src (by omega) rfl | exact Fld.lt_reach_low (by omega) rfl | exact Fld.lt_reach (grpOf_small (by omega) |>.trans (by decide)) | exact row_lv _ _ rfl | exact row_bank _ _ rfl | exact row_st _ _ rfl | exact slots_lt (fun _ h => touched_lt h) (by with_reducible assumption) | (exact touched_lt (by with_reducible assumption)) | exact grpOf_small (by omega) | exact (grpOf_small (by with_reducible assumption)).trans (by decide) | exact (bestRef_lt (by with_reducible assumption)).trans (by decide) | with_reducible exact qReg_off _ | exact rfl | exact fun _ => rfl | (exact (touched_lt (by with_reducible assumption)).trans (by decide)) | with_reducible exact Rides.refl _ | with_reducible apply Rides.setSlotDef | (intro; intros))
theorem setSmmis {z c : Chip} (k : Clock) (d : Nat) (b : Bool) (hd : d < 4096) (hz : Rides z c) : Rides z (c.setSmmis k d b) := by
  unfold Chip.setSmmis
  repeat' (first | with_reducible assumption | omega | exact Fld.lt_reach (by omega) | exact Fld.lt_reach_src (by omega) rfl | exact Fld.lt_reach_low (by omega) rfl | exact Fld.lt_reach (grpOf_small (by omega) |>.trans (by decide)) | exact row_lv _ _ rfl | exact row_bank _ _ rfl | exact row_st _ _ rfl | exact slots_lt (fun _ h => touched_lt h) (by with_reducible assumption) | (exact touched_lt (by with_reducible assumption)) | exact grpOf_small (by omega) | exact (grpOf_small (by with_reducible assumption)).trans (by decide) | exact (bestRef_lt (by with_reducible assumption)).trans (by decide) | with_reducible exact qReg_off _ | exact rfl | exact fun _ => rfl | (exact (touched_lt (by with_reducible assumption)).trans (by decide)) | with_reducible exact Rides.refl _ | with_reducible apply Rides.setSlotDef | (intro; intros))
theorem setRange {z c : Chip} (k : Clock) (d : Nat) (b : Bool) (hd : d < 4096) (hz : Rides z c) : Rides z (c.setRange k d b) := by
  unfold Chip.setRange
  repeat' (first | with_reducible assumption | omega | exact Fld.lt_reach (by omega) | exact Fld.lt_reach_src (by omega) rfl | exact Fld.lt_reach_low (by omega) rfl | exact Fld.lt_reach (grpOf_small (by omega) |>.trans (by decide)) | exact row_lv _ _ rfl | exact row_bank _ _ rfl | exact row_st _ _ rfl | exact slots_lt (fun _ h => touched_lt h) (by with_reducible assumption) | (exact touched_lt (by with_reducible assumption)) | exact grpOf_small (by omega) | exact (grpOf_small (by with_reducible assumption)).trans (by decide) | exact (bestRef_lt (by with_reducible assumption)).trans (by decide) | with_reducible exact qReg_off _ | exact rfl | exact fun _ => rfl | (exact (touched_lt (by with_reducible assumption)).trans (by decide)) | with_reducible exact Rides.refl _ | with_reducible apply Rides.setSlotDef | (intro; intros))
theorem setXcon {z c : Chip} (k : Clock) (d : Nat) (b : Bool) (hd : d < 4096) (hz : Rides z c) : Rides z (c.setXcon k d b) := by
  unfold Chip.setXcon
  repeat' (first | with_reducible assumption | omega | exact Fld.lt_reach (by omega) | exact Fld.lt_reach_src (by omega) rfl | exact Fld.lt_reach_low (by omega) rfl | exact Fld.lt_reach (grpOf_small (by omega) |>.trans (by decide)) | exact row_lv _ _ rfl | exact row_bank _ _ rfl | exact row_st _ _ rfl | exact slots_lt (fun _ h => touched_lt h) (by with_reducible assumption) | (exact touched_lt (by with_reducible assumption)) | exact grpOf_small (by omega) | exact (grpOf_small (by with_reducible assumption)).trans (by decide) | exact (bestRef_lt (by with_reducible assumption)).trans (by decide) | with_reducible exact qReg_off _ | exact rfl | exact fun _ => rfl | (exact (touched_lt (by with_reducible assumption)).trans (by decide)) | with_reducible exact Rides.refl _ | with_reducible apply Rides.setSlotDef | (intro; intros))
theorem triggerOffer {z c : Chip} (d : Nat) (hd : d < 4096) (hz : Rides z c) : Rides z (c.triggerOffer d) := by
  unfold Chip.triggerOffer
  repeat' (first | with_reducible assumption | omega | exact Fld.lt_reach (by omega) | exact Fld.lt_reach_src (by omega) rfl | exact Fld.lt_reach_low (by omega) rfl | exact Fld.lt_reach (grpOf_small (by omega) |>.trans (by decide)) | exact row_lv _ _ rfl | exact row_bank _ _ rfl | exact row_st _ _ rfl | exact slots_lt (fun _ h => touched_lt h) (by with_reducible assumption) | (exact touched_lt (by with_reducible assumption)) | exact grpOf_small (by omega) | exact (grpOf_small (by with_reducible assumption)).trans (by decide) | exact (bestRef_lt (by with_reducible assumption)).trans (by decide) | with_reducible exact qReg_off _ | exact rfl | exact fun _ => rfl | (exact (touched_lt (by with_reducible assumption)).trans (by decide)) | with_reducible exact Rides.refl _ | with_reducible apply Rides.onD | with_reducible apply Rides.syncSlot | (intro; intros))
theorem withdrawOffer {z c : Chip} (k : Clock) (d : Nat) (hd : d < 4096) (hz : Rides z c) : Rides z (c.withdrawOffer k d) := by
  unfold Chip.withdrawOffer
  repeat' (first | with_reducible assumption | omega | exact Fld.lt_reach (by omega) | exact Fld.lt_reach_src (by omega) rfl | exact Fld.lt_reach_low (by omega) rfl | exact Fld.lt_reach (grpOf_small (by omega) |>.trans (by decide)) | exact row_lv _ _ rfl | exact row_bank _ _ rfl | exact row_st _ _ rfl | exact slots_lt (fun _ h => touched_lt h) (by with_reducible assumption) | (exact touched_lt (by with_reducible assumption)) | exact grpOf_small (by omega) | exact (grpOf_small (by with_reducible assumption)).trans (by decide) | exact (bestRef_lt (by with_reducible assumption)).trans (by decide) | with_reducible exact qReg_off _ | exact rfl | exact fun _ => rfl | (exact (touched_lt (by with_reducible assumption)).trans (by decide)) | with_reducible exact Rides.refl _ | with_reducible apply Rides.onD | with_reducible apply Rides.syncSlot | with_reducible apply Rides.setSmflt | with_reducible apply Rides.slotCause | (intro; intros))
theorem setRxOpen {z c : Chip} (d kind : Nat) (b : Option Nat) (hz : Rides z c) : Rides z (c.setRxOpen d kind b) := by
  unfold Chip.setRxOpen
  repeat' (first | with_reducible assumption | omega | exact Fld.lt_reach (by omega) | exact Fld.lt_reach_src (by omega) rfl | exact Fld.lt_reach_low (by omega) rfl | exact Fld.lt_reach (grpOf_small (by omega) |>.trans (by decide)) | exact row_lv _ _ rfl | exact row_bank _ _ rfl | exact row_st _ _ rfl | exact slots_lt (fun _ h => touched_lt h) (by with_reducible assumption) | (exact touched_lt (by with_reducible assumption)) | exact grpOf_small (by omega) | exact (grpOf_small (by with_reducible assumption)).trans (by decide) | exact (bestRef_lt (by with_reducible assumption)).trans (by decide) | with_reducible exact qReg_off _ | exact rfl | exact fun _ => rfl | (exact (touched_lt (by with_reducible assumption)).trans (by decide)) | with_reducible exact Rides.refl _ | with_reducible apply Rides.onD | (intro; intros))
theorem loseRx {z c : Chip} (k : Clock) (d kind : Nat) (h : Rides z c) : Rides z (c.loseRx k d kind) := by
  unfold Chip.loseRx
  extract_lets c₁
  have h₁ : Rides z c₁ := setRxOpen d kind none h
  refine ite ?_ h
  split
  next q hq =>
    have hi : q < 8192 := rxQueue_lt hq
    extract_lets had skip c₂
    exact onQ q _ (ite (qRewind k q kind d hi h₁) (ite h₁ (qRewound k q hi h₁)))
  next => exact h₁
theorem loseAllRx {z c : Chip} (k : Clock) (d : Nat) (hz : Rides z c) : Rides z (c.loseAllRx k d) := by
  unfold Chip.loseAllRx
  repeat' (first | with_reducible assumption | omega | exact Fld.lt_reach (by omega) | exact Fld.lt_reach_src (by omega) rfl | exact Fld.lt_reach_low (by omega) rfl | exact Fld.lt_reach (grpOf_small (by omega) |>.trans (by decide)) | exact row_lv _ _ rfl | exact row_bank _ _ rfl | exact row_st _ _ rfl | exact slots_lt (fun _ h => touched_lt h) (by with_reducible assumption) | (exact touched_lt (by with_reducible assumption)) | exact grpOf_small (by omega) | exact (grpOf_small (by with_reducible assumption)).trans (by decide) | exact (bestRef_lt (by with_reducible assumption)).trans (by decide) | with_reducible exact qReg_off _ | exact rfl | exact fun _ => rfl | (exact (touched_lt (by with_reducible assumption)).trans (by decide)) | with_reducible exact Rides.refl _ | with_reducible apply Rides.loseRx | with_reducible apply Rides.foldl | with_reducible apply Rides.iteElse | (intro; intros))
theorem stopTx {z c : Chip} (k : Clock) (d : Nat) (hz : Rides z c) : Rides z (c.stopTx k d) := by
  unfold Chip.stopTx
  repeat' (first | with_reducible assumption | omega | exact Fld.lt_reach (by omega) | exact Fld.lt_reach_src (by omega) rfl | exact Fld.lt_reach_low (by omega) rfl | exact Fld.lt_reach (grpOf_small (by omega) |>.trans (by decide)) | exact row_lv _ _ rfl | exact row_bank _ _ rfl | exact row_st _ _ rfl | exact slots_lt (fun _ h => touched_lt h) (by with_reducible assumption) | (exact touched_lt (by with_reducible assumption)) | exact grpOf_small (by omega) | exact (grpOf_small (by with_reducible assumption)).trans (by decide) | exact (bestRef_lt (by with_reducible assumption)).trans (by decide) | with_reducible exact qReg_off _ | exact rfl | exact fun _ => rfl | (exact (touched_lt (by with_reducible assumption)).trans (by decide)) | with_reducible exact Rides.refl _ | with_reducible apply Rides.qReturn | with_reducible apply Rides.onD | with_reducible apply Rides.iteElse | (intro; intros))
theorem dropHeads {z c : Chip} (k : Clock) (t : Nat) (n0 : Nat) (hz : Rides z c) : Rides z (c.dropHeads k t n0) := by
  induction n0 generalizing c with
  | zero => unfold Chip.dropHeads; repeat' (first | with_reducible assumption | (intro; intros))
  | succ n ih => unfold Chip.dropHeads; repeat' (first | with_reducible apply ih | with_reducible assumption | omega | exact Fld.lt_reach (by omega) | exact Fld.lt_reach_src (by omega) rfl | exact Fld.lt_reach_low (by omega) rfl | exact Fld.lt_reach (grpOf_small (by omega) |>.trans (by decide)) | exact row_lv _ _ rfl | exact row_bank _ _ rfl | exact row_st _ _ rfl | exact slots_lt (fun _ h => touched_lt h) (by with_reducible assumption) | (exact touched_lt (by with_reducible assumption)) | exact grpOf_small (by omega) | exact (grpOf_small (by with_reducible assumption)).trans (by decide) | exact (bestRef_lt (by with_reducible assumption)).trans (by decide) | with_reducible exact qReg_off _ | exact rfl | exact fun _ => rfl | (exact (touched_lt (by with_reducible assumption)).trans (by decide)) | with_reducible exact Rides.refl _ | with_reducible apply Rides.setItems | with_reducible apply Rides.discardItem | with_reducible apply Rides.iteElse | (intro; intros) | fail_if_no_progress extract_lets | split)
theorem dropAllHeads {z c : Chip} (k : Clock) (hz : Rides z c) : Rides z (c.dropAllHeads k) := by
  unfold Chip.dropAllHeads
  repeat' (first | with_reducible assumption | omega | exact Fld.lt_reach (by omega) | exact Fld.lt_reach_src (by omega) rfl | exact Fld.lt_reach_low (by omega) rfl | exact Fld.lt_reach (grpOf_small (by omega) |>.trans (by decide)) | exact row_lv _ _ rfl | exact row_bank _ _ rfl | exact row_st _ _ rfl | exact slots_lt (fun _ h => touched_lt h) (by with_reducible assumption) | (exact touched_lt (by with_reducible assumption)) | exact grpOf_small (by omega) | exact (grpOf_small (by with_reducible assumption)).trans (by decide) | exact (bestRef_lt (by with_reducible assumption)).trans (by decide) | with_reducible exact qReg_off _ | exact rfl | exact fun _ => rfl | (exact (touched_lt (by with_reducible assumption)).trans (by decide)) | with_reducible exact Rides.refl _ | with_reducible apply Rides.dropHeads | with_reducible apply Rides.overN | with_reducible apply Rides.iteElse | (intro; intros))
theorem disposeItems {z c : Chip} (k : Clock) (t : Nat) (up : Bool) (p : Item → Bool) (hz : Rides z c) : Rides z (c.disposeItems k t up p) := by
  unfold Chip.disposeItems
  repeat' (first | with_reducible assumption | omega | exact Fld.lt_reach (by omega) | exact Fld.lt_reach_src (by omega) rfl | exact Fld.lt_reach_low (by omega) rfl | exact Fld.lt_reach (grpOf_small (by omega) |>.trans (by decide)) | exact row_lv _ _ rfl | exact row_bank _ _ rfl | exact row_st _ _ rfl | exact slots_lt (fun _ h => touched_lt h) (by with_reducible assumption) | (exact touched_lt (by with_reducible assumption)) | exact grpOf_small (by omega) | exact (grpOf_small (by with_reducible assumption)).trans (by decide) | exact (bestRef_lt (by with_reducible assumption)).trans (by decide) | with_reducible exact qReg_off _ | exact rfl | exact fun _ => rfl | (exact (touched_lt (by with_reducible assumption)).trans (by decide)) | with_reducible exact Rides.refl _ | with_reducible apply Rides.discardItem | with_reducible apply Rides.setItems | with_reducible apply Rides.foldl | with_reducible apply Rides.iteElse | (intro; intros))
theorem disposeDrop {z c : Chip} (k : Clock) (d : Nat) (hd : d < 4096) (hz : Rides z c) : Rides z (c.disposeDrop k d) := by
  unfold Chip.disposeDrop
  repeat' (first | with_reducible assumption | omega | exact Fld.lt_reach (by omega) | exact Fld.lt_reach_src (by omega) rfl | exact Fld.lt_reach_low (by omega) rfl | exact Fld.lt_reach (grpOf_small (by omega) |>.trans (by decide)) | exact row_lv _ _ rfl | exact row_bank _ _ rfl | exact row_st _ _ rfl | exact slots_lt (fun _ h => touched_lt h) (by with_reducible assumption) | (exact touched_lt (by with_reducible assumption)) | exact grpOf_small (by omega) | exact (grpOf_small (by with_reducible assumption)).trans (by decide) | exact (bestRef_lt (by with_reducible assumption)).trans (by decide) | with_reducible exact qReg_off _ | exact rfl | exact fun _ => rfl | (exact (touched_lt (by with_reducible assumption)).trans (by decide)) | with_reducible exact Rides.refl _ | with_reducible apply Rides.disposeItems | with_reducible apply Rides.overN | with_reducible apply Rides.iteElse | (intro; intros))
theorem breakPacket {z c : Chip} (d : Nat) (hz : Rides z c) : Rides z (c.breakPacket d) := by
  unfold Chip.breakPacket
  repeat' (first | with_reducible assumption | omega | exact Fld.lt_reach (by omega) | exact Fld.lt_reach_src (by omega) rfl | exact Fld.lt_reach_low (by omega) rfl | exact Fld.lt_reach (grpOf_small (by omega) |>.trans (by decide)) | exact row_lv _ _ rfl | exact row_bank _ _ rfl | exact row_st _ _ rfl | exact slots_lt (fun _ h => touched_lt h) (by with_reducible assumption) | (exact touched_lt (by with_reducible assumption)) | exact grpOf_small (by omega) | exact (grpOf_small (by with_reducible assumption)).trans (by decide) | exact (bestRef_lt (by with_reducible assumption)).trans (by decide) | with_reducible exact qReg_off _ | exact rfl | exact fun _ => rfl | (exact (touched_lt (by with_reducible assumption)).trans (by decide)) | with_reducible exact Rides.refl _ | with_reducible apply Rides.onT | with_reducible apply Rides.onD | with_reducible apply Rides.iteElse | (intro; intros) | fail_if_no_progress extract_lets | split)
theorem setPs {z c : Chip} (k : Clock) (d : Nat) (ps : PState) (hd : d < 4096) (hz : Rides z c) : Rides z (c.setPs k d ps) := by
  unfold Chip.setPs
  repeat' (first | with_reducible assumption | omega | exact Fld.lt_reach (by omega) | exact Fld.lt_reach_src (by omega) rfl | exact Fld.lt_reach_low (by omega) rfl | exact Fld.lt_reach (grpOf_small (by omega) |>.trans (by decide)) | exact row_lv _ _ rfl | exact row_bank _ _ rfl | exact row_st _ _ rfl | exact slots_lt (fun _ h => touched_lt h) (by with_reducible assumption) | (exact touched_lt (by with_reducible assumption)) | exact grpOf_small (by omega) | exact (grpOf_small (by with_reducible assumption)).trans (by decide) | exact (bestRef_lt (by with_reducible assumption)).trans (by decide) | with_reducible exact qReg_off _ | exact rfl | exact fun _ => rfl | (exact (touched_lt (by with_reducible assumption)).trans (by decide)) | with_reducible exact Rides.refl _ | with_reducible apply Rides.onD | with_reducible apply Rides.setSt | with_reducible apply Rides.syncDropSrc | (intro; intros))
theorem leaveSync {z c : Chip} (k : Clock) (d : Nat) (hd : d < 4096) (hz : Rides z c) : Rides z (c.leaveSync k d) := by
  unfold Chip.leaveSync
  repeat' (first | with_reducible assumption | omega | exact Fld.lt_reach (by omega) | exact Fld.lt_reach_src (by omega) rfl | exact Fld.lt_reach_low (by omega) rfl | exact Fld.lt_reach (grpOf_small (by omega) |>.trans (by decide)) | exact row_lv _ _ rfl | exact row_bank _ _ rfl | exact row_st _ _ rfl | exact slots_lt (fun _ h => touched_lt h) (by with_reducible assumption) | (exact touched_lt (by with_reducible assumption)) | exact grpOf_small (by omega) | exact (grpOf_small (by with_reducible assumption)).trans (by decide) | exact (bestRef_lt (by with_reducible assumption)).trans (by decide) | with_reducible exact qReg_off _ | exact rfl | exact fun _ => rfl | (exact (touched_lt (by with_reducible assumption)).trans (by decide)) | with_reducible exact Rides.refl _ | with_reducible apply Rides.loseAllRx | with_reducible apply Rides.onD | with_reducible apply Rides.syncSlot | with_reducible apply Rides.iteElse | (intro; intros))
theorem raiseLof {z c : Chip} (k : Clock) (d : Nat) (hd : d < 4096) (hz : Rides z c) : Rides z (c.raiseLof k d) := by
  unfold Chip.raiseLof
  repeat' (first | with_reducible assumption | omega | exact Fld.lt_reach (by omega) | exact Fld.lt_reach_src (by omega) rfl | exact Fld.lt_reach_low (by omega) rfl | exact Fld.lt_reach (grpOf_small (by omega) |>.trans (by decide)) | exact row_lv _ _ rfl | exact row_bank _ _ rfl | exact row_st _ _ rfl | exact slots_lt (fun _ h => touched_lt h) (by with_reducible assumption) | (exact touched_lt (by with_reducible assumption)) | exact grpOf_small (by omega) | exact (grpOf_small (by with_reducible assumption)).trans (by decide) | exact (bestRef_lt (by with_reducible assumption)).trans (by decide) | with_reducible exact qReg_off _ | exact rfl | exact fun _ => rfl | (exact (touched_lt (by with_reducible assumption)).trans (by decide)) | with_reducible exact Rides.refl _ | with_reducible apply Rides.countUp | with_reducible apply Rides.onD | with_reducible apply Rides.setDropDef | with_reducible apply Rides.iteElse | (intro; intros))

theorem grpMode {z c : Chip} (old : Bank) (g : Nat) (hg : g < 4096) (hz : Rides z c) : Rides z (c.grpMode old g) := by
  unfold Chip.grpMode
  repeat' (first | with_reducible assumption | omega | exact Fld.lt_reach (by omega) | exact Fld.lt_reach_src (by omega) rfl | exact Fld.lt_reach_low (by omega) rfl | exact Fld.lt_reach (grpOf_small (by omega) |>.trans (by decide)) | exact row_lv _ _ rfl | exact row_bank _ _ rfl | exact row_st _ _ rfl | exact slots_lt (fun _ h => touched_lt h) (by with_reducible assumption) | (exact touched_lt (by with_reducible assumption)) | exact grpOf_small (by omega) | exact (grpOf_small (by with_reducible assumption)).trans (by decide) | exact (bestRef_lt (by with_reducible assumption)).trans (by decide) | with_reducible exact qReg_off _ | exact rfl | exact fun _ => rfl | (exact (touched_lt (by with_reducible assumption)).trans (by decide)) | with_reducible exact Rides.refl _ | with_reducible apply Rides.setSt | with_reducible apply Rides.rearm | with_reducible apply Rides.overN | with_reducible apply Rides.iteElse | (intro; intros))
theorem srcWindow {z c : Chip} (k : Clock) (old : Bank) (s : Nat) (hs : s < 65536) (hz : Rides z c) : Rides z (c.srcWindow k old s) := by
  unfold Chip.srcWindow
  repeat' (first | with_reducible assumption | omega | exact Fld.lt_reach (by omega) | exact Fld.lt_reach_src (by omega) rfl | exact Fld.lt_reach_low (by omega) rfl | exact Fld.lt_reach (grpOf_small (by omega) |>.trans (by decide)) | exact row_lv _ _ rfl | exact row_bank _ _ rfl | exact row_st _ _ rfl | exact slots_lt (fun _ h => touched_lt h) (by with_reducible assumption) | (exact touched_lt (by with_reducible assumption)) | exact grpOf_small (by omega) | exact (grpOf_small (by with_reducible assumption)).trans (by decide) | exact (bestRef_lt (by with_reducible assumption)).trans (by decide) | with_reducible exact qReg_off _ | exact rfl | exact fun _ => rfl | (exact (touched_lt (by with_reducible assumption)).trans (by decide)) | with_reducible exact Rides.refl _ | with_reducible apply Rides.openWindow | with_reducible apply Rides.iteElse | (intro; intros))
theorem grpRearm {z c : Chip} (old : Bank) (g : Nat) (hg : g < 4096) (hz : Rides z c) : Rides z (c.grpRearm old g) := by
  unfold Chip.grpRearm
  repeat' (first | with_reducible assumption | omega | exact Fld.lt_reach (by omega) | exact Fld.lt_reach_src (by omega) rfl | exact Fld.lt_reach_low (by omega) rfl | exact Fld.lt_reach (grpOf_small (by omega) |>.trans (by decide)) | exact row_lv _ _ rfl | exact row_bank _ _ rfl | exact row_st _ _ rfl | exact slots_lt (fun _ h => touched_lt h) (by with_reducible assumption) | (exact touched_lt (by with_reducible assumption)) | exact grpOf_small (by omega) | exact (grpOf_small (by with_reducible assumption)).trans (by decide) | exact (bestRef_lt (by with_reducible assumption)).trans (by decide) | with_reducible exact qReg_off _ | exact rfl | exact fun _ => rfl | (exact (touched_lt (by with_reducible assumption)).trans (by decide)) | with_reducible exact Rides.refl _ | with_reducible apply Rides.setSt | with_reducible apply Rides.rearm | with_reducible apply Rides.iteElse | (intro; intros))
theorem injApply {z c : Chip} (k : Clock) (old : Bank) (hz : Rides z c) : Rides z (c.injApply k old) := by
  unfold Chip.injApply
  repeat' (first | with_reducible assumption | omega | exact Fld.lt_reach (by omega) | exact Fld.lt_reach_src (by omega) rfl | exact Fld.lt_reach_low (by omega) rfl | exact Fld.lt_reach (grpOf_small (by omega) |>.trans (by decide)) | exact row_lv _ _ rfl | exact row_bank _ _ rfl | exact row_st _ _ rfl | exact slots_lt (fun _ h => touched_lt h) (by with_reducible assumption) | (exact touched_lt (by with_reducible assumption)) | exact grpOf_small (by omega) | exact (grpOf_small (by with_reducible assumption)).trans (by decide) | exact (bestRef_lt (by with_reducible assumption)).trans (by decide) | with_reducible exact qReg_off _ | exact rfl | exact fun _ => rfl | (exact (touched_lt (by with_reducible assumption)).trans (by decide)) | with_reducible exact Rides.refl _ | with_reducible apply Rides.setSt | with_reducible apply Rides.onCol | with_reducible apply Rides.iteElse | (intro; intros))
theorem colApply {z c : Chip} (k : Clock) (old : Bank) (h : Rides z c) : Rides z (c.colApply k old) := by
  unfold Chip.colApply
  extract_lets gs ss c₁ c₂ all clears rises c₃ c₄ c₅
  have hss : ∀ s ∈ ss, s < 4096 := fun s hs => touched_lt hs
  have hall : ∀ s ∈ all, s < 65536 := by
    intro s hs
    rcases mem_foldl_insertSorted (g := fun s => s) _ hs with ⟨a, ha, e⟩ | hs
    · obtain ⟨g, hg, hin⟩ := List.mem_flatMap.mp ha
      have hg : g < 4096 := touched_lt hg
      obtain ⟨i, hi, e'⟩ := List.mem_map.mp hin
      have := List.mem_range.mp hi
      omega
    · have := hss s hs
      omega
  have h₂ : Rides z c₂ := forRows _ (forRows _ h fun g hg _ ha => grpRearm _ _ (touched_lt hg) (grpMode _ _ (touched_lt hg) ha)) fun s hs _ ha =>
    srcWindow k old s ((hss s hs).trans (by decide)) ha
  have h₃ : Rides z c₃ := forRows _ h₂ fun s hs _ ha => putFlt s _ (hall s (List.mem_filter.mp hs).1) ha
  have h₄ : Rides z c₄ := forRows _ h₃ fun s hs a ha => by
    have h₀ : Rides z (if clears.contains s then a.cleared k s else a) := iteElse ha fun ha => cleared k s (hall s hs) ha
    exact ite (srcEvent k s (hall s hs) h₀) h₀
  exact injApply k old (syncShade k _ (syncFaultN k h₄))
theorem dropQueues {z c : Chip} (k : Clock) (old : Bank) (d : Nat) (hd : d < 4096) (hz : Rides z c) : Rides z (c.dropQueues k old d) := by
  unfold Chip.dropQueues
  repeat' (first | with_reducible assumption | omega | exact Fld.lt_reach (by omega) | exact Fld.lt_reach_src (by omega) rfl | exact Fld.lt_reach_low (by omega) rfl | exact Fld.lt_reach (grpOf_small (by omega) |>.trans (by decide)) | exact row_lv _ _ rfl | exact row_bank _ _ rfl | exact row_st _ _ rfl | exact slots_lt (fun _ h => touched_lt h) (by with_reducible assumption) | (exact touched_lt (by with_reducible assumption)) | exact grpOf_small (by omega) | exact (grpOf_small (by with_reducible assumption)).trans (by decide) | exact (bestRef_lt (by with_reducible assumption)).trans (by decide) | with_reducible exact qReg_off _ | exact rfl | exact fun _ => rfl | (exact (touched_lt (by with_reducible assumption)).trans (by decide)) | with_reducible exact Rides.refl _ | with_reducible apply Rides.setRxOpen | with_reducible apply Rides.qReturn | with_reducible apply Rides.onD | with_reducible apply Rides.iteElse | (intro; intros))
theorem timingApply {z c : Chip} (old : Bank) (h : Rides z c) : Rides z (c.timingApply old) :=
  ite h (overN 96 h fun d _ _ ha => setRxOpen d 7 none ha)
theorem slotApply {z c : Chip} (k : Clock) (old : Bank) (d : Nat) (hd : d < 4096) (hz : Rides z c) : Rides z (c.slotApply k old d) := by
  unfold Chip.slotApply
  repeat' (first | with_reducible assumption | omega | exact Fld.lt_reach (by omega) | exact Fld.lt_reach_src (by omega) rfl | exact Fld.lt_reach_low (by omega) rfl | exact Fld.lt_reach (grpOf_small (by omega) |>.trans (by decide)) | exact row_lv _ _ rfl | exact row_bank _ _ rfl | exact row_st _ _ rfl | exact slots_lt (fun _ h => touched_lt h) (by with_reducible assumption) | (exact touched_lt (by with_reducible assumption)) | exact grpOf_small (by omega) | exact (grpOf_small (by with_reducible assumption)).trans (by decide) | exact (bestRef_lt (by with_reducible assumption)).trans (by decide) | with_reducible exact qReg_off _ | exact rfl | exact fun _ => rfl | (exact (touched_lt (by with_reducible assumption)).trans (by decide)) | with_reducible exact Rides.refl _ | with_reducible apply Rides.triggerOffer | with_reducible apply Rides.withdrawOffer | with_reducible apply Rides.iteElse | (intro; intros))
theorem wakeLate {z c : Chip} (k : Clock) (p : PwrState → Bool) (hz : Rides z c) : Rides z (c.wakeLate k p) := by
  unfold Chip.wakeLate
  repeat' (first | with_reducible assumption | omega | exact Fld.lt_reach (by omega) | exact Fld.lt_reach_src (by omega) rfl | exact Fld.lt_reach_low (by omega) rfl | exact Fld.lt_reach (grpOf_small (by omega) |>.trans (by decide)) | exact row_lv _ _ rfl | exact row_bank _ _ rfl | exact row_st _ _ rfl | exact slots_lt (fun _ h => touched_lt h) (by with_reducible assumption) | (exact touched_lt (by with_reducible assumption)) | exact grpOf_small (by omega) | exact (grpOf_small (by with_reducible assumption)).trans (by decide) | exact (bestRef_lt (by with_reducible assumption)).trans (by decide) | with_reducible exact qReg_off _ | exact rfl | exact fun _ => rfl | (exact (touched_lt (by with_reducible assumption)).trans (by decide)) | with_reducible exact Rides.refl _ | with_reducible apply Rides.beginWake | with_reducible apply Rides.onU | with_reducible apply Rides.addSt | with_reducible apply Rides.cause | with_reducible apply Rides.onPow | with_reducible apply Rides.foldl | with_reducible apply Rides.iteElse | (intro; intros))
theorem lateWakes {z c : Chip} (k : Clock) (hz : Rides z c) : Rides z (c.lateWakes k) := by
  unfold Chip.lateWakes
  repeat' (first | with_reducible assumption | omega | exact Fld.lt_reach (by omega) | exact Fld.lt_reach_src (by omega) rfl | exact Fld.lt_reach_low (by omega) rfl | exact Fld.lt_reach (grpOf_small (by omega) |>.trans (by decide)) | exact row_lv _ _ rfl | exact row_bank _ _ rfl | exact row_st _ _ rfl | exact slots_lt (fun _ h => touched_lt h) (by with_reducible assumption) | (exact touched_lt (by with_reducible assumption)) | exact grpOf_small (by omega) | exact (grpOf_small (by with_reducible assumption)).trans (by decide) | exact (bestRef_lt (by with_reducible assumption)).trans (by decide) | with_reducible exact qReg_off _ | exact rfl | exact fun _ => rfl | (exact (touched_lt (by with_reducible assumption)).trans (by decide)) | with_reducible exact Rides.refl _ | with_reducible apply Rides.wakeLate | (intro; intros))
theorem syncTwin {z c : Chip} (k : Clock) (hz : Rides z c) : Rides z (c.syncTwin k) := by
  unfold Chip.syncTwin
  repeat' (first | with_reducible assumption | omega | exact Fld.lt_reach (by omega) | exact Fld.lt_reach_src (by omega) rfl | exact Fld.lt_reach_low (by omega) rfl | exact Fld.lt_reach (grpOf_small (by omega) |>.trans (by decide)) | exact row_lv _ _ rfl | exact row_bank _ _ rfl | exact row_st _ _ rfl | exact slots_lt (fun _ h => touched_lt h) (by with_reducible assumption) | (exact touched_lt (by with_reducible assumption)) | exact grpOf_small (by omega) | exact (grpOf_small (by with_reducible assumption)).trans (by decide) | exact (bestRef_lt (by with_reducible assumption)).trans (by decide) | with_reducible exact qReg_off _ | exact rfl | exact fun _ => rfl | (exact (touched_lt (by with_reducible assumption)).trans (by decide)) | with_reducible exact Rides.refl _ | with_reducible apply Rides.disarm | with_reducible apply Rides.setCond | with_reducible apply Rides.iteElse | (intro; intros))
theorem mapItems {z c : Chip} (f : Item → Item) (hz : Rides z c) : Rides z (c.mapItems f) := by
  unfold Chip.mapItems
  repeat' (first | with_reducible assumption | omega | exact Fld.lt_reach (by omega) | exact Fld.lt_reach_src (by omega) rfl | exact Fld.lt_reach_low (by omega) rfl | exact Fld.lt_reach (grpOf_small (by omega) |>.trans (by decide)) | exact row_lv _ _ rfl | exact row_bank _ _ rfl | exact row_st _ _ rfl | exact slots_lt (fun _ h => touched_lt h) (by with_reducible assumption) | (exact touched_lt (by with_reducible assumption)) | exact grpOf_small (by omega) | exact (grpOf_small (by with_reducible assumption)).trans (by decide) | exact (bestRef_lt (by with_reducible assumption)).trans (by decide) | with_reducible exact qReg_off _ | exact rfl | exact fun _ => rfl | (exact (touched_lt (by with_reducible assumption)).trans (by decide)) | with_reducible exact Rides.refl _ | with_reducible apply Rides.onT | with_reducible apply Rides.overN | with_reducible apply Rides.iteElse | (intro; intros))
theorem lightItem {z c : Chip} (k : Clock) (it : Item) (h : Rides z c) : Rides z (c.lightItem k it) :=
  ite (setItems _ _ _ (setSt_beside TWIN.CARRIED _ rfl h))
    (ite (setItems _ _ _ h) (discardItem k it _ (setSt_beside TWIN.DUPS _ rfl h)))
theorem meetEcc {z c : Chip} (k : Clock) (bank a : Nat) (hz : Rides z c) : Rides z (c.meetEcc k bank a) := by
  unfold Chip.meetEcc
  repeat' (first | with_reducible assumption | omega | exact Fld.lt_reach (by omega) | exact Fld.lt_reach_src (by omega) rfl | exact Fld.lt_reach_low (by omega) rfl | exact Fld.lt_reach (grpOf_small (by omega) |>.trans (by decide)) | exact row_lv _ _ rfl | exact row_bank _ _ rfl | exact row_st _ _ rfl | exact slots_lt (fun _ h => touched_lt h) (by with_reducible assumption) | (exact touched_lt (by with_reducible assumption)) | exact grpOf_small (by omega) | exact (grpOf_small (by with_reducible assumption)).trans (by decide) | exact (bestRef_lt (by with_reducible assumption)).trans (by decide) | with_reducible exact qReg_off _ | exact rfl | exact fun _ => rfl | (exact (touched_lt (by with_reducible assumption)).trans (by decide)) | with_reducible exact Rides.refl _ | (with_reducible refine Rides.onHeath ?_ (fun _ => ⟨rfl, rfl, rfl, rfl, rfl⟩)) | with_reducible apply Rides.onDir | with_reducible apply Rides.srcEvent | with_reducible apply Rides.restand | with_reducible apply Rides.iteElse | (intro; intros) | fail_if_no_progress extract_lets | split)
theorem readStaged {z c : Chip} (k : Clock) (hz : Rides z c) : Rides z (c.readStaged k) := by
  unfold Chip.readStaged
  repeat' (first | with_reducible assumption | omega | exact Fld.lt_reach (by omega) | exact Fld.lt_reach_src (by omega) rfl | exact Fld.lt_reach_low (by omega) rfl | exact Fld.lt_reach (grpOf_small (by omega) |>.trans (by decide)) | exact row_lv _ _ rfl | exact row_bank _ _ rfl | exact row_st _ _ rfl | exact slots_lt (fun _ h => touched_lt h) (by with_reducible assumption) | (exact touched_lt (by with_reducible assumption)) | exact grpOf_small (by omega) | exact (grpOf_small (by with_reducible assumption)).trans (by decide) | exact (bestRef_lt (by with_reducible assumption)).trans (by decide) | with_reducible exact qReg_off _ | exact rfl | exact fun _ => rfl | (exact (touched_lt (by with_reducible assumption)).trans (by decide)) | with_reducible exact Rides.refl _ | with_reducible apply Rides.meetEcc | with_reducible apply Rides.foldl | with_reducible apply Rides.iteElse | (intro; intros))
theorem visit {z : Chip} (u : Nat) (n : Nat) : ∀ (r : Nat) {c : Chip}, Rides z c → Rides z (c.visit u r n).2 := by
  induction n with
  | zero => intro r c hz; exact hz
  | succ m ih =>
    intro r c hz
    unfold Chip.visit
    extract_lets t c1
    have h1 : Rides z c1 := onT _ _ hz
    split
    · split
      · exact h1
      · exact ih _ h1
    · exact ih _ hz
theorem visit_eq {z c y : Chip} (u r : Nat) (n0 : Nat) {a0} (ez : c.visit u r n0 = (a0, y)) (hz : Rides z c) : Rides z y := by
  have := Rides.visit u n0 r hz; rw [ez] at this; exact this
theorem schedule {z c : Chip} (u : Nat) (hz : Rides z c) : Rides z (c.schedule u).2 := by
  unfold Chip.schedule
  repeat' (first | with_reducible assumption | omega | exact Fld.lt_reach (by omega) | exact Fld.lt_reach_src (by omega) rfl | exact Fld.lt_reach_low (by omega) rfl | exact Fld.lt_reach (grpOf_small (by omega) |>.trans (by decide)) | exact row_lv _ _ rfl | exact row_bank _ _ rfl | exact row_st _ _ rfl | exact slots_lt (fun _ h => touched_lt h) (by with_reducible assumption) | (exact touched_lt (by with_reducible assumption)) | exact grpOf_small (by omega) | exact (grpOf_small (by with_reducible assumption)).trans (by decide) | exact (bestRef_lt (by with_reducible assumption)).trans (by decide) | with_reducible exact qReg_off _ | exact rfl | exact fun _ => rfl | (exact (touched_lt (by with_reducible assumption)).trans (by decide)) | with_reducible exact Rides.refl _ | (with_reducible refine Rides.visit_eq (by with_reducible assumption) ?_) | with_reducible apply Rides.visit | with_reducible apply Rides.iteElse | (intro; intros) | fail_if_no_progress extract_lets | split)
theorem schedule_eq {z c y : Chip} (u : Nat)  {a0} (ez : c.schedule u = (a0, y)) (hz : Rides z c) : Rides z y := by
  have := Rides.schedule u hz; rw [ez] at this; exact this
theorem endRx {z c : Chip} (k : Clock) (u cause : Nat) (hz : Rides z c) : Rides z (c.endRx k u cause) := by
  unfold Chip.endRx
  repeat' (first | with_reducible assumption | omega | exact Fld.lt_reach (by omega) | exact Fld.lt_reach_src (by omega) rfl | exact Fld.lt_reach_low (by omega) rfl | exact Fld.lt_reach (grpOf_small (by omega) |>.trans (by decide)) | exact row_lv _ _ rfl | exact row_bank _ _ rfl | exact row_st _ _ rfl | exact slots_lt (fun _ h => touched_lt h) (by with_reducible assumption) | (exact touched_lt (by with_reducible assumption)) | exact grpOf_small (by omega) | exact (grpOf_small (by with_reducible assumption)).trans (by decide) | exact (bestRef_lt (by with_reducible assumption)).trans (by decide) | with_reducible exact qReg_off _ | exact rfl | exact fun _ => rfl | (exact (touched_lt (by with_reducible assumption)).trans (by decide)) | with_reducible exact Rides.refl _ | with_reducible apply Rides.onU | with_reducible apply Rides.discardItem | (intro; intros) | fail_if_no_progress extract_lets | split)
theorem endUp {z c : Chip} (k : Clock) (d cause : Nat) (hz : Rides z c) : Rides z (c.endUp k d cause) := by
  unfold Chip.endUp
  repeat' (first | with_reducible assumption | omega | exact Fld.lt_reach (by omega) | exact Fld.lt_reach_src (by omega) rfl | exact Fld.lt_reach_low (by omega) rfl | exact Fld.lt_reach (grpOf_small (by omega) |>.trans (by decide)) | exact row_lv _ _ rfl | exact row_bank _ _ rfl | exact row_st _ _ rfl | exact slots_lt (fun _ h => touched_lt h) (by with_reducible assumption) | (exact touched_lt (by with_reducible assumption)) | exact grpOf_small (by omega) | exact (grpOf_small (by with_reducible assumption)).trans (by decide) | exact (bestRef_lt (by with_reducible assumption)).trans (by decide) | with_reducible exact qReg_off _ | exact rfl | exact fun _ => rfl | (exact (touched_lt (by with_reducible assumption)).trans (by decide)) | with_reducible exact Rides.refl _ | with_reducible apply Rides.onD | with_reducible apply Rides.discardItem | (intro; intros) | fail_if_no_progress extract_lets | split)
theorem apsSync {z c : Chip} (k : Clock) (p : Nat) (hp : p < 4096) (hz : Rides z c) : Rides z (c.apsSync k p) := by
  unfold Chip.apsSync
  repeat' (first | with_reducible assumption | omega | exact Fld.lt_reach (by omega) | exact Fld.lt_reach_src (by omega) rfl | exact Fld.lt_reach_low (by omega) rfl | exact Fld.lt_reach (grpOf_small (by omega) |>.trans (by decide)) | exact row_lv _ _ rfl | exact row_bank _ _ rfl | exact row_st _ _ rfl | exact slots_lt (fun _ h => touched_lt h) (by with_reducible assumption) | (exact touched_lt (by with_reducible assumption)) | exact grpOf_small (by omega) | exact (grpOf_small (by with_reducible assumption)).trans (by decide) | exact (bestRef_lt (by with_reducible assumption)).trans (by decide) | with_reducible exact qReg_off _ | exact rfl | exact fun _ => rfl | (exact (touched_lt (by with_reducible assumption)).trans (by decide)) | with_reducible exact Rides.refl _ | with_reducible apply Rides.setSt | with_reducible apply Rides.apsAim | with_reducible apply Rides.onP | with_reducible apply Rides.cause | with_reducible apply Rides.iteElse | (intro; intros) | fail_if_no_progress extract_lets)
theorem apsEval {z c : Chip} (k : Clock) (p : Nat) (hp : p < 4096) (hz : Rides z c) : Rides z (c.apsEval k p) := by
  unfold Chip.apsEval
  repeat' (first | with_reducible assumption | omega | exact Fld.lt_reach (by omega) | exact Fld.lt_reach_src (by omega) rfl | exact Fld.lt_reach_low (by omega) rfl | exact Fld.lt_reach (grpOf_small (by omega) |>.trans (by decide)) | exact row_lv _ _ rfl | exact row_bank _ _ rfl | exact row_st _ _ rfl | exact slots_lt (fun _ h => touched_lt h) (by with_reducible assumption) | (exact touched_lt (by with_reducible assumption)) | exact grpOf_small (by omega) | exact (grpOf_small (by with_reducible assumption)).trans (by decide) | exact (bestRef_lt (by with_reducible assumption)).trans (by decide) | with_reducible exact qReg_off _ | exact rfl | exact fun _ => rfl | (exact (touched_lt (by with_reducible assumption)).trans (by decide)) | with_reducible exact Rides.refl _ | with_reducible apply Rides.apsHold | with_reducible apply Rides.onP | with_reducible apply Rides.cause | with_reducible apply Rides.apsSync | with_reducible apply Rides.iteElse | (intro; intros) | fail_if_no_progress extract_lets | split)
theorem apsMove {z c : Chip} (k : Clock) (p : Nat) (b : Bool) (hp : p < 4096) (hz : Rides z c) : Rides z (c.apsMove k p b) := by
  unfold Chip.apsMove
  repeat' (first | with_reducible assumption | omega | exact Fld.lt_reach (by omega) | exact Fld.lt_reach_src (by omega) rfl | exact Fld.lt_reach_low (by omega) rfl | exact Fld.lt_reach (grpOf_small (by omega) |>.trans (by decide)) | exact row_lv _ _ rfl | exact row_bank _ _ rfl | exact row_st _ _ rfl | exact slots_lt (fun _ h => touched_lt h) (by with_reducible assumption) | (exact touched_lt (by with_reducible assumption)) | exact grpOf_small (by omega) | exact (grpOf_small (by with_reducible assumption)).trans (by decide) | exact (bestRef_lt (by with_reducible assumption)).trans (by decide) | with_reducible exact qReg_off _ | exact rfl | exact fun _ => rfl | (exact (touched_lt (by with_reducible assumption)).trans (by decide)) | with_reducible exact Rides.refl _ | with_reducible apply Rides.endRx | with_reducible apply Rides.setSt | with_reducible apply Rides.addSt | with_reducible apply Rides.cause | with_reducible apply Rides.iteElse | (intro; intros) | fail_if_no_progress extract_lets)
theorem apsApply {z c : Chip} (k : Clock) (old : Bank) (p : Nat) (hp : p < 4096) (hz : Rides z c) : Rides z (c.apsApply k old p) := by
  unfold Chip.apsApply
  repeat' (first | with_reducible assumption | omega | exact Fld.lt_reach (by omega) | exact Fld.lt_reach_src (by omega) rfl | exact Fld.lt_reach_low (by omega) rfl | exact Fld.lt_reach (grpOf_small (by omega) |>.trans (by decide)) | exact row_lv _ _ rfl | exact row_bank _ _ rfl | exact row_st _ _ rfl | exact slots_lt (fun _ h => touched_lt h) (by with_reducible assumption) | (exact touched_lt (by with_reducible assumption)) | exact grpOf_small (by omega) | exact (grpOf_small (by with_reducible assumption)).trans (by decide) | exact (bestRef_lt (by with_reducible assumption)).trans (by decide) | with_reducible exact qReg_off _ | exact rfl | exact fun _ => rfl | (exact (touched_lt (by with_reducible assumption)).trans (by decide)) | with_reducible exact Rides.refl _ | with_reducible apply Rides.onP | with_reducible apply Rides.apsBlank | with_reducible apply Rides.apsHold | with_reducible apply Rides.apsEval | with_reducible apply Rides.apsMove | with_reducible apply Rides.apsLfd | with_reducible apply Rides.iteElse | (intro; intros) | fail_if_no_progress extract_lets)
theorem dimLaser {z c : Chip} (k : Clock) (u : Nat) (hz : Rides z c) : Rides z (c.dimLaser k u) := by
  unfold Chip.dimLaser
  repeat' (first | with_reducible assumption | omega | exact Fld.lt_reach (by omega) | exact Fld.lt_reach_src (by omega) rfl | exact Fld.lt_reach_low (by omega) rfl | exact Fld.lt_reach (grpOf_small (by omega) |>.trans (by decide)) | exact row_lv _ _ rfl | exact row_bank _ _ rfl | exact row_st _ _ rfl | exact slots_lt (fun _ h => touched_lt h) (by with_reducible assumption) | (exact touched_lt (by with_reducible assumption)) | exact grpOf_small (by omega) | exact (grpOf_small (by with_reducible assumption)).trans (by decide) | exact (bestRef_lt (by with_reducible assumption)).trans (by decide) | with_reducible exact qReg_off _ | exact rfl | exact fun _ => rfl | (exact (touched_lt (by with_reducible assumption)).trans (by decide)) | with_reducible exact Rides.refl _ | with_reducible apply Rides.onU | with_reducible apply Rides.iteElse | (intro; intros) | fail_if_no_progress extract_lets | split)
theorem laserApply {z c : Chip} (k : Clock) (old : Bank) (u : Nat) (hz : Rides z c) : Rides z (c.laserApply k old u) := by
  unfold Chip.laserApply
  repeat' (first | with_reducible assumption | omega | exact Fld.lt_reach (by omega) | exact Fld.lt_reach_src (by omega) rfl | exact Fld.lt_reach_low (by omega) rfl | exact Fld.lt_reach (grpOf_small (by omega) |>.trans (by decide)) | exact row_lv _ _ rfl | exact row_bank _ _ rfl | exact row_st _ _ rfl | exact slots_lt (fun _ h => touched_lt h) (by with_reducible assumption) | (exact touched_lt (by with_reducible assumption)) | exact grpOf_small (by omega) | exact (grpOf_small (by with_reducible assumption)).trans (by decide) | exact (bestRef_lt (by with_reducible assumption)).trans (by decide) | with_reducible exact qReg_off _ | exact rfl | exact fun _ => rfl | (exact (touched_lt (by with_reducible assumption)).trans (by decide)) | with_reducible exact Rides.refl _ | with_reducible apply Rides.onU | with_reducible apply Rides.dimLaser | with_reducible apply Rides.iteElse | (intro; intros))
theorem setDefs {z c : Chip} (k : Clock) (u raw extra : Nat) (hu : u < 512) (hz : Rides z c) : Rides z (c.setDefs k u raw extra) := by
  unfold Chip.setDefs
  repeat' (first | with_reducible assumption | omega | exact Fld.lt_reach (by omega) | exact Fld.lt_reach_src (by omega) rfl | exact Fld.lt_reach_low (by omega) rfl | exact Fld.lt_reach (grpOf_small (by omega) |>.trans (by decide)) | exact row_lv _ _ rfl | exact row_bank _ _ rfl | exact row_st _ _ rfl | exact slots_lt (fun _ h => touched_lt h) (by with_reducible assumption) | (exact touched_lt (by with_reducible assumption)) | exact grpOf_small (by omega) | exact (grpOf_small (by with_reducible assumption)).trans (by decide) | exact (bestRef_lt (by with_reducible assumption)).trans (by decide) | with_reducible exact qReg_off _ | exact rfl | exact fun _ => rfl | (exact (touched_lt (by with_reducible assumption)).trans (by decide)) | with_reducible exact Rides.refl _ | with_reducible apply Rides.onU | with_reducible apply Rides.setSt | with_reducible apply Rides.addSt | with_reducible apply Rides.causeIf | with_reducible apply Rides.consequent | with_reducible apply Rides.setCond | with_reducible apply Rides.setRefDef | with_reducible apply Rides.gccRewind | with_reducible apply Rides.endRx | with_reducible apply Rides.apsLfd | with_reducible apply Rides.apsEval | with_reducible apply Rides.iteElse | with_reducible apply Rides.upd | (intro; intros) | fail_if_no_progress extract_lets)
theorem uplApply {z c : Chip} (k : Clock) (old : Bank) (u : Nat) (hu : u < 512) (hz : Rides z c) : Rides z (c.uplApply k old u) := by
  unfold Chip.uplApply
  repeat' (first | with_reducible assumption | omega | exact Fld.lt_reach (by omega) | exact Fld.lt_reach_src (by omega) rfl | exact Fld.lt_reach_low (by omega) rfl | exact Fld.lt_reach (grpOf_small (by omega) |>.trans (by decide)) | exact row_lv _ _ rfl | exact row_bank _ _ rfl | exact row_st _ _ rfl | exact slots_lt (fun _ h => touched_lt h) (by with_reducible assumption) | (exact touched_lt (by with_reducible assumption)) | exact grpOf_small (by omega) | exact (grpOf_small (by with_reducible assumption)).trans (by decide) | exact (bestRef_lt (by with_reducible assumption)).trans (by decide) | with_reducible exact qReg_off _ | exact rfl | exact fun _ => rfl | (exact (touched_lt (by with_reducible assumption)).trans (by decide)) | with_reducible exact Rides.refl _ | with_reducible apply Rides.gccRewind | with_reducible apply Rides.laserApply | with_reducible apply Rides.qReturn | with_reducible apply Rides.onU | with_reducible apply Rides.endRx | with_reducible apply Rides.setSt | with_reducible apply Rides.setDefs | with_reducible apply Rides.apsLfd | with_reducible apply Rides.iteElse | with_reducible apply Rides.upd | (intro; intros) | fail_if_no_progress extract_lets)
theorem audioApply {z c : Chip} (k : Clock) (old : Bank) (p : Nat) (hp : p < 4096) (hz : Rides z c) : Rides z (c.audioApply k old p) := by
  unfold Chip.audioApply
  repeat' (first | with_reducible assumption | omega | exact Fld.lt_reach (by omega) | exact Fld.lt_reach_src (by omega) rfl | exact Fld.lt_reach_low (by omega) rfl | exact Fld.lt_reach (grpOf_small (by omega) |>.trans (by decide)) | exact row_lv _ _ rfl | exact row_bank _ _ rfl | exact row_st _ _ rfl | exact slots_lt (fun _ h => touched_lt h) (by with_reducible assumption) | (exact touched_lt (by with_reducible assumption)) | exact grpOf_small (by omega) | exact (grpOf_small (by with_reducible assumption)).trans (by decide) | exact (bestRef_lt (by with_reducible assumption)).trans (by decide) | with_reducible exact qReg_off _ | exact rfl | exact fun _ => rfl | (exact (touched_lt (by with_reducible assumption)).trans (by decide)) | with_reducible exact Rides.refl _ | with_reducible apply Rides.endSide | with_reducible apply Rides.rewatch | with_reducible apply Rides.startSide | with_reducible apply Rides.setAudDef | with_reducible apply Rides.iteElse | (intro; intros) | fail_if_no_progress extract_lets)
theorem leaveUp {z c : Chip} (k : Clock) (d : Nat) (hd : d < 4096) (hz : Rides z c) : Rides z (c.leaveUp k d) := by
  unfold Chip.leaveUp
  repeat' (first | with_reducible assumption | omega | exact Fld.lt_reach (by omega) | exact Fld.lt_reach_src (by omega) rfl | exact Fld.lt_reach_low (by omega) rfl | exact Fld.lt_reach (grpOf_small (by omega) |>.trans (by decide)) | exact row_lv _ _ rfl | exact row_bank _ _ rfl | exact row_st _ _ rfl | exact slots_lt (fun _ h => touched_lt h) (by with_reducible assumption) | (exact touched_lt (by with_reducible assumption)) | exact grpOf_small (by omega) | exact (grpOf_small (by with_reducible assumption)).trans (by decide) | exact (bestRef_lt (by with_reducible assumption)).trans (by decide) | with_reducible exact qReg_off _ | exact rfl | exact fun _ => rfl | (exact (touched_lt (by with_reducible assumption)).trans (by decide)) | with_reducible exact Rides.refl _ | with_reducible apply Rides.stopTx | with_reducible apply Rides.breakPacket | with_reducible apply Rides.endUp | with_reducible apply Rides.leaveSync | with_reducible apply Rides.onD | with_reducible apply Rides.setDropDefs | (intro; intros) | fail_if_no_progress extract_lets)
theorem enterSilent {z c : Chip} (k : Clock) (d : Nat) (hd : d < 4096) (hz : Rides z c) : Rides z (c.enterSilent k d) := by
  unfold Chip.enterSilent
  repeat' (first | with_reducible assumption | omega | exact Fld.lt_reach (by omega) | exact Fld.lt_reach_src (by omega) rfl | exact Fld.lt_reach_low (by omega) rfl | exact Fld.lt_reach (grpOf_small (by omega) |>.trans (by decide)) | exact row_lv _ _ rfl | exact row_bank _ _ rfl | exact row_st _ _ rfl | exact slots_lt (fun _ h => touched_lt h) (by with_reducible assumption) | (exact touched_lt (by with_reducible assumption)) | exact grpOf_small (by omega) | exact (grpOf_small (by with_reducible assumption)).trans (by decide) | exact (bestRef_lt (by with_reducible assumption)).trans (by decide) | with_reducible exact qReg_off _ | exact rfl | exact fun _ => rfl | (exact (touched_lt (by with_reducible assumption)).trans (by decide)) | with_reducible exact Rides.refl _ | with_reducible apply Rides.leaveUp | with_reducible apply Rides.onD | with_reducible apply Rides.setPs | with_reducible apply Rides.addSt | with_reducible apply Rides.cause | with_reducible apply Rides.raiseLof | with_reducible apply Rides.iteElse | (intro; intros) | fail_if_no_progress extract_lets)
theorem enterOff {z c : Chip} (k : Clock) (d : Nat) (hd : d < 4096) (hz : Rides z c) : Rides z (c.enterOff k d) := by
  unfold Chip.enterOff
  repeat' (first | with_reducible assumption | omega | exact Fld.lt_reach (by omega) | exact Fld.lt_reach_src (by omega) rfl | exact Fld.lt_reach_low (by omega) rfl | exact Fld.lt_reach (grpOf_small (by omega) |>.trans (by decide)) | exact row_lv _ _ rfl | exact row_bank _ _ rfl | exact row_st _ _ rfl | exact slots_lt (fun _ h => touched_lt h) (by with_reducible assumption) | (exact touched_lt (by with_reducible assumption)) | exact grpOf_small (by omega) | exact (grpOf_small (by with_reducible assumption)).trans (by decide) | exact (bestRef_lt (by with_reducible assumption)).trans (by decide) | with_reducible exact qReg_off _ | exact rfl | exact fun _ => rfl | (exact (touched_lt (by with_reducible assumption)).trans (by decide)) | with_reducible exact Rides.refl _ | with_reducible apply Rides.leaveUp | with_reducible apply Rides.onD | with_reducible apply Rides.setSmmis | with_reducible apply Rides.setRange | with_reducible apply Rides.setXcon | with_reducible apply Rides.setPs | with_reducible apply Rides.setSt | with_reducible apply Rides.setDropDefs | with_reducible apply Rides.iteElse | (intro; intros) | fail_if_no_progress extract_lets)
theorem enterHeld {z c : Chip} (k : Clock) (d : Nat) (hd : d < 4096) (hz : Rides z c) : Rides z (c.enterHeld k d) := by
  unfold Chip.enterHeld
  repeat' (first | with_reducible assumption | omega | exact Fld.lt_reach (by omega) | exact Fld.lt_reach_src (by omega) rfl | exact Fld.lt_reach_low (by omega) rfl | exact Fld.lt_reach (grpOf_small (by omega) |>.trans (by decide)) | exact row_lv _ _ rfl | exact row_bank _ _ rfl | exact row_st _ _ rfl | exact slots_lt (fun _ h => touched_lt h) (by with_reducible assumption) | (exact touched_lt (by with_reducible assumption)) | exact grpOf_small (by omega) | exact (grpOf_small (by with_reducible assumption)).trans (by decide) | exact (bestRef_lt (by with_reducible assumption)).trans (by decide) | with_reducible exact qReg_off _ | exact rfl | exact fun _ => rfl | (exact (touched_lt (by with_reducible assumption)).trans (by decide)) | with_reducible exact Rides.refl _ | with_reducible apply Rides.leaveUp | with_reducible apply Rides.onD | with_reducible apply Rides.setPs | with_reducible apply Rides.raiseLof | with_reducible apply Rides.iteElse | (intro; intros) | fail_if_no_progress extract_lets)
theorem enterListen {z c : Chip} (k : Clock) (d : Nat) (hd : d < 4096) (hz : Rides z c) : Rides z (c.enterListen k d) := by
  unfold Chip.enterListen
  repeat' (first | with_reducible assumption | omega | exact Fld.lt_reach (by omega) | exact Fld.lt_reach_src (by omega) rfl | exact Fld.lt_reach_low (by omega) rfl | exact Fld.lt_reach (grpOf_small (by omega) |>.trans (by decide)) | exact row_lv _ _ rfl | exact row_bank _ _ rfl | exact row_st _ _ rfl | exact slots_lt (fun _ h => touched_lt h) (by with_reducible assumption) | (exact touched_lt (by with_reducible assumption)) | exact grpOf_small (by omega) | exact (grpOf_small (by with_reducible assumption)).trans (by decide) | exact (bestRef_lt (by with_reducible assumption)).trans (by decide) | with_reducible exact qReg_off _ | exact rfl | exact fun _ => rfl | (exact (touched_lt (by with_reducible assumption)).trans (by decide)) | with_reducible exact Rides.refl _ | with_reducible apply Rides.leaveUp | with_reducible apply Rides.onD | with_reducible apply Rides.setPs | with_reducible apply Rides.raiseLof | with_reducible apply Rides.iteElse | (intro; intros) | fail_if_no_progress extract_lets)
theorem dropTx {z c : Chip} (q : Nat) (hz : Rides z c) : Rides z (c.dropTx q) := by
  unfold Chip.dropTx
  repeat' (first | with_reducible assumption | omega | exact Fld.lt_reach (by omega) | exact Fld.lt_reach_src (by omega) rfl | exact Fld.lt_reach_low (by omega) rfl | exact Fld.lt_reach (grpOf_small (by omega) |>.trans (by decide)) | exact row_lv _ _ rfl | exact row_bank _ _ rfl | exact row_st _ _ rfl | exact slots_lt (fun _ h => touched_lt h) (by with_reducible assumption) | (exact touched_lt (by with_reducible assumption)) | exact grpOf_small (by omega) | exact (grpOf_small (by with_reducible assumption)).trans (by decide) | exact (bestRef_lt (by with_reducible assumption)).trans (by decide) | with_reducible exact qReg_off _ | exact rfl | exact fun _ => rfl | (exact (touched_lt (by with_reducible assumption)).trans (by decide)) | with_reducible exact Rides.refl _ | with_reducible apply Rides.onU | with_reducible apply Rides.onD | with_reducible apply Rides.overN | with_reducible apply Rides.iteElse | (intro; intros) | fail_if_no_progress extract_lets)
theorem queApply {z c : Chip} (k : Clock) (old : Bank) (i : Nat) (hi : i < 8192) (hz : Rides z c) : Rides z (c.queApply k old i) := by
  unfold Chip.queApply
  repeat' (first | with_reducible assumption | omega | exact Fld.lt_reach (by omega) | exact Fld.lt_reach_src (by omega) rfl | exact Fld.lt_reach_low (by omega) rfl | exact Fld.lt_reach (grpOf_small (by omega) |>.trans (by decide)) | exact row_lv _ _ rfl | exact row_bank _ _ rfl | exact row_st _ _ rfl | exact slots_lt (fun _ h => touched_lt h) (by with_reducible assumption) | (exact touched_lt (by with_reducible assumption)) | exact grpOf_small (by omega) | exact (grpOf_small (by with_reducible assumption)).trans (by decide) | exact (bestRef_lt (by with_reducible assumption)).trans (by decide) | with_reducible exact qReg_off _ | exact rfl | exact fun _ => rfl | (exact (touched_lt (by with_reducible assumption)).trans (by decide)) | with_reducible exact Rides.refl _ | with_reducible apply Rides.dropTx | with_reducible apply Rides.qFlush | with_reducible apply Rides.iteElse | (intro; intros) | fail_if_no_progress extract_lets)
theorem queProducers {z c : Chip} (k : Clock) (i : Nat) (hi : i < 8192) (hz : Rides z c) : Rides z (c.queProducers k i) := by
  unfold Chip.queProducers
  repeat' (first | with_reducible assumption | omega | exact Fld.lt_reach (by omega) | exact Fld.lt_reach_src (by omega) rfl | exact Fld.lt_reach_low (by omega) rfl | exact Fld.lt_reach (grpOf_small (by omega) |>.trans (by decide)) | exact row_lv _ _ rfl | exact row_bank _ _ rfl | exact row_st _ _ rfl | exact slots_lt (fun _ h => touched_lt h) (by with_reducible assumption) | (exact touched_lt (by with_reducible assumption)) | exact grpOf_small (by omega) | exact (grpOf_small (by with_reducible assumption)).trans (by decide) | exact (bestRef_lt (by with_reducible assumption)).trans (by decide) | with_reducible exact qReg_off _ | exact rfl | exact fun _ => rfl | (exact (touched_lt (by with_reducible assumption)).trans (by decide)) | with_reducible exact Rides.refl _ | with_reducible apply Rides.onQ | with_reducible apply Rides.qRewounds | with_reducible apply Rides.iteElse | (intro; intros) | fail_if_no_progress extract_lets)
theorem quesApply {z c : Chip} (k : Clock) (old : Bank) (hz : Rides z c) : Rides z (c.quesApply k old) := by
  unfold Chip.quesApply
  repeat' (first | with_reducible assumption | omega | exact Fld.lt_reach (by omega) | exact Fld.lt_reach_src (by omega) rfl | exact Fld.lt_reach_low (by omega) rfl | exact Fld.lt_reach (grpOf_small (by omega) |>.trans (by decide)) | exact row_lv _ _ rfl | exact row_bank _ _ rfl | exact row_st _ _ rfl | exact slots_lt (fun _ h => touched_lt h) (by with_reducible assumption) | (exact touched_lt (by with_reducible assumption)) | exact grpOf_small (by omega) | exact (grpOf_small (by with_reducible assumption)).trans (by decide) | exact (bestRef_lt (by with_reducible assumption)).trans (by decide) | with_reducible exact qReg_off _ | exact rfl | exact fun _ => rfl | (exact (touched_lt (by with_reducible assumption)).trans (by decide)) | with_reducible exact Rides.refl _ | with_reducible apply Rides.queProducers | with_reducible apply Rides.forRows | with_reducible apply Rides.queApply | with_reducible apply Rides.overN | (intro; intros))
theorem uplinkApply {z c : Chip} (k : Clock) (old : Bank) (u : Nat) (hu : u < 512) (hz : Rides z c) : Rides z (c.uplinkApply k old u) := by
  unfold Chip.uplinkApply
  repeat' (first | with_reducible assumption | omega | exact Fld.lt_reach (by omega) | exact Fld.lt_reach_src (by omega) rfl | exact Fld.lt_reach_low (by omega) rfl | exact Fld.lt_reach (grpOf_small (by omega) |>.trans (by decide)) | exact row_lv _ _ rfl | exact row_bank _ _ rfl | exact row_st _ _ rfl | exact slots_lt (fun _ h => touched_lt h) (by with_reducible assumption) | (exact touched_lt (by with_reducible assumption)) | exact grpOf_small (by omega) | exact (grpOf_small (by with_reducible assumption)).trans (by decide) | exact (bestRef_lt (by with_reducible assumption)).trans (by decide) | with_reducible exact qReg_off _ | exact rfl | exact fun _ => rfl | (exact (touched_lt (by with_reducible assumption)).trans (by decide)) | with_reducible exact Rides.refl _ | with_reducible apply Rides.uplApply | with_reducible apply Rides.onU | with_reducible apply Rides.iteElse | (intro; intros) | fail_if_no_progress extract_lets)
theorem tribApply {z c : Chip} (k : Clock) (old : Bank) (t : Nat) (hz : Rides z c) : Rides z (c.tribApply k old t) := by
  unfold Chip.tribApply
  repeat' (first | with_reducible assumption | omega | exact Fld.lt_reach (by omega) | exact Fld.lt_reach_src (by omega) rfl | exact Fld.lt_reach_low (by omega) rfl | exact Fld.lt_reach (grpOf_small (by omega) |>.trans (by decide)) | exact row_lv _ _ rfl | exact row_bank _ _ rfl | exact row_st _ _ rfl | exact slots_lt (fun _ h => touched_lt h) (by with_reducible assumption) | (exact touched_lt (by with_reducible assumption)) | exact grpOf_small (by omega) | exact (grpOf_small (by with_reducible assumption)).trans (by decide) | exact (bestRef_lt (by with_reducible assumption)).trans (by decide) | with_reducible exact qReg_off _ | exact rfl | exact fun _ => rfl | (exact (touched_lt (by with_reducible assumption)).trans (by decide)) | with_reducible exact Rides.refl _ | with_reducible apply Rides.endRx | with_reducible apply Rides.endUp | with_reducible apply Rides.onT | with_reducible apply Rides.overN | with_reducible apply Rides.iteElse | (intro; intros) | fail_if_no_progress extract_lets)
theorem startDrop {z c : Chip} (k : Clock) (d : Nat) (hd : d < 4096) (hz : Rides z c) : Rides z (c.startDrop k d) := by
  unfold Chip.startDrop
  repeat' (first | with_reducible assumption | omega | exact Fld.lt_reach (by omega) | exact Fld.lt_reach_src (by omega) rfl | exact Fld.lt_reach_low (by omega) rfl | exact Fld.lt_reach (grpOf_small (by omega) |>.trans (by decide)) | exact row_lv _ _ rfl | exact row_bank _ _ rfl | exact row_st _ _ rfl | exact slots_lt (fun _ h => touched_lt h) (by with_reducible assumption) | (exact touched_lt (by with_reducible assumption)) | exact grpOf_small (by omega) | exact (grpOf_small (by with_reducible assumption)).trans (by decide) | exact (bestRef_lt (by with_reducible assumption)).trans (by decide) | with_reducible exact qReg_off _ | exact rfl | exact fun _ => rfl | (exact (touched_lt (by with_reducible assumption)).trans (by decide)) | with_reducible exact Rides.refl _ | with_reducible apply Rides.enterListen | with_reducible apply Rides.enterHeld | with_reducible apply Rides.enterSilent | with_reducible apply Rides.iteElse | (intro; intros))
theorem dropApply {z c : Chip} (k : Clock) (old : Bank) (d : Nat) (hd : d < 4096) (hz : Rides z c) : Rides z (c.dropApply k old d) := by
  unfold Chip.dropApply
  repeat' (first | with_reducible assumption | omega | exact Fld.lt_reach (by omega) | exact Fld.lt_reach_src (by omega) rfl | exact Fld.lt_reach_low (by omega) rfl | exact Fld.lt_reach (grpOf_small (by omega) |>.trans (by decide)) | exact row_lv _ _ rfl | exact row_bank _ _ rfl | exact row_st _ _ rfl | exact slots_lt (fun _ h => touched_lt h) (by with_reducible assumption) | (exact touched_lt (by with_reducible assumption)) | exact grpOf_small (by omega) | exact (grpOf_small (by with_reducible assumption)).trans (by decide) | exact (bestRef_lt (by with_reducible assumption)).trans (by decide) | with_reducible exact qReg_off _ | exact rfl | exact fun _ => rfl | (exact (touched_lt (by with_reducible assumption)).trans (by decide)) | with_reducible exact Rides.refl _ | with_reducible apply Rides.dropQueues | with_reducible apply Rides.enterOff | with_reducible apply Rides.startDrop | with_reducible apply Rides.onD | with_reducible apply Rides.setDropDef | with_reducible apply Rides.endUp | with_reducible apply Rides.leaveSync | with_reducible apply Rides.disposeDrop | with_reducible apply Rides.syncDropSrc | with_reducible apply Rides.iteElse | (intro; intros) | fail_if_no_progress extract_lets)
theorem applyBank {z c : Chip} (k : Clock) (old : Bank) (step first was : Bool) (hz : Rides z c) : Rides z (c.applyBank k old step first was) := by
  unfold Chip.applyBank
  repeat' (first | with_reducible assumption | omega | exact Fld.lt_reach (by omega) | exact Fld.lt_reach_src (by omega) rfl | exact Fld.lt_reach_low (by omega) rfl | exact Fld.lt_reach (grpOf_small (by omega) |>.trans (by decide)) | exact row_lv _ _ rfl | exact row_bank _ _ rfl | exact row_st _ _ rfl | exact slots_lt (fun _ h => touched_lt h) (by with_reducible assumption) | (exact touched_lt (by with_reducible assumption)) | exact grpOf_small (by omega) | exact (grpOf_small (by with_reducible assumption)).trans (by decide) | exact (bestRef_lt (by with_reducible assumption)).trans (by decide) | with_reducible exact qReg_off _ | exact rfl | exact fun _ => rfl | (exact (touched_lt (by with_reducible assumption)).trans (by decide)) | with_reducible exact Rides.refl _ | with_reducible apply Rides.quesApply | with_reducible apply Rides.colApply | with_reducible apply Rides.uplinkApply | with_reducible apply Rides.apsApply | with_reducible apply Rides.forRows | with_reducible apply Rides.tribApply | with_reducible apply Rides.dropApply | with_reducible apply Rides.foldl | with_reducible apply Rides.slotApply | with_reducible apply Rides.audioApply | with_reducible apply Rides.timeApply | with_reducible apply Rides.dpllApply | with_reducible apply Rides.timingApply | with_reducible apply Rides.reshade | with_reducible apply Rides.dropAllHeads | with_reducible apply Rides.lateWakes | with_reducible apply Rides.syncPools | with_reducible apply Rides.overN | with_reducible apply Rides.iteElse | (intro; intros) | fail_if_no_progress extract_lets)
theorem freeAll {z c : Chip} (k : Clock) (cause : Nat) (hz : Rides z c) : Rides z (c.freeAll k cause) := by
  unfold Chip.freeAll
  repeat' (first | with_reducible assumption | omega | exact Fld.lt_reach (by omega) | exact Fld.lt_reach_src (by omega) rfl | exact Fld.lt_reach_low (by omega) rfl | exact Fld.lt_reach (grpOf_small (by omega) |>.trans (by decide)) | exact row_lv _ _ rfl | exact row_bank _ _ rfl | exact row_st _ _ rfl | exact slots_lt (fun _ h => touched_lt h) (by with_reducible assumption) | (exact touched_lt (by with_reducible assumption)) | exact grpOf_small (by omega) | exact (grpOf_small (by with_reducible assumption)).trans (by decide) | exact (bestRef_lt (by with_reducible assumption)).trans (by decide) | with_reducible exact qReg_off _ | exact rfl | exact fun _ => rfl | (exact (touched_lt (by with_reducible assumption)).trans (by decide)) | with_reducible exact Rides.refl _ | with_reducible apply Rides.endUp | with_reducible apply Rides.endRx | with_reducible apply Rides.foldl | with_reducible apply Rides.discardItem | with_reducible apply Rides.setItems | with_reducible apply Rides.overN | (intro; intros) | fail_if_no_progress extract_lets)

end Rides
end Chip
end Sys2Proof.Machine
end

section
/-! PROOFS. Changes of role (R380, R402), and the outcome of a commit (R73, R93, R94, R96). -/

namespace Sys2Proof.Machine
open Sys2Proof

namespace Chip

/-! ### What changes of role leave -/

/-- As `Rides`, but for the twin engine. -/
structure Seats (z c : Chip) : Prop extends Keeps z c where
  win : c.win.still = z.win.still
  causes : ∀ n, z.win.icause.getLsbD n = true → c.win.icause.getLsbD n = true
  dir : c.dir.still = z.dir.still
  armed : z.heath.status.wf = true → z.st TWIN.ARMED 0 = 0 → c.st TWIN.ARMED 0 = 0
  marks : z.heath.status.wf = true → ∀ n, (z.st TWIN.CAUSE 0).testBit n = true → (c.st TWIN.CAUSE 0).testBit n = true
  stat : z.heath.status.wf = true → ∀ f ∈ seatFields, c.st f 0 = z.st f 0

theorem Rides.seats {z c : Chip} (h : Rides z c) : Seats z c := ⟨h.toKeeps, h.win, h.causes, h.dir, h.armed, h.marks, h.stat⟩
theorem Seats.trans {a b c : Chip} (h : Seats a b) (g : Seats b c) : Seats a c :=
  { h.toKeeps.trans g.toKeeps with
    win := g.win.trans h.win, causes := fun n hn => g.causes n (h.causes n hn), dir := g.dir.trans h.dir
    armed := fun hw ha => g.armed (h.wf hw) (h.armed hw ha), marks := fun hw n hn => g.marks (h.wf hw) n (h.marks hw n hn)
    stat := fun hw f hf => (g.stat (h.wf hw) f hf).trans (h.stat hw f hf) }
theorem Seats.rides {a b c : Chip} (h : Seats a b) (g : Rides b c) : Seats a c := h.trans g.seats
theorem Seats.refl (z : Chip) : Seats z z := (Rides.refl z).seats
theorem Seats.onTwin {z c : Chip} (h : Seats z c) (f : Twin → Twin) : Seats z (c.onTwin f) :=
  h.trans { (Keeps.refl c).onTwin f, Rides.refl c with }
theorem Seats.setRole {z c : Chip} (h : Seats z c) (k : Clock) (r : Role) : Seats z (c.setRole k r) :=
  (h.onTwin _).rides (.cause_twin k 1 (.refl _))
theorem Seats.endAttach {z c : Chip} (h : Seats z c) : Seats z c.endAttach := h.onTwin _
theorem setRole_twin (c : Chip) (k : Clock) (r : Role) : (c.setRole k r).twin = { c.twin with
    role := r, lightDue := false, downDue := false, handLight := none, keepLow := none, brokeRuns := false, heldRuns := [] } := by
  unfold setRole
  rw [cause_twin]
  rfl

/-- An attach may begin. -/
theorem tryAttach_cases (c : Chip) : c.tryAttach = c ∨ c.tryAttach = c.onTwin fun t =>
    { t with attach := .copy, fullCopy := false, lastStep := none, lastSeq := none, gaps := [] } := by
  unfold tryAttach
  split
  · exact .inr rfl
  · exact .inl rfl
theorem Seats.tryAttach {z c : Chip} (h : Seats z c) : Seats z c.tryAttach := by
  rcases c.tryAttach_cases with e | e <;> rw [e]
  · exact h
  · exact h.onTwin _

/-- The part of the twin engine that a role is about. -/
structure Office where
  role : Role
  req : Option RoleReq
  lightDue : Bool
  id : Nat
  peer : Bool
  adds : List Desc
/-- What the twin engine holds of it. -/
def office (c : Chip) : Office := ⟨c.twin.role, c.twin.req, c.twin.lightDue, c.twin.id, c.twin.peer, c.twin.adds⟩

theorem Rides.office {z c : Chip} (h : Rides z c) : c.office = z.office := by
  have e := congrArg (fun t : Twin => (⟨t.role, t.req, t.lightDue, t.id, t.peer, t.adds⟩ : Office)) h.twin
  exact e
theorem tryAttach_office (c : Chip) : c.tryAttach.office = c.office := by
  rcases c.tryAttach_cases with e | e <;> rw [e]
  rfl

theorem afterRole_seats {z c : Chip} (k : Clock) (was : Bool) (h : Seats z c) : Seats z (c.afterRole k was) :=
  (h.rides (.reshade k was (.dpllApply k _ true (.refRole k (.refl c))))).tryAttach.rides (.syncTwin k (.refl _))
theorem afterRole_office (c : Chip) (k : Clock) (was : Bool) : (c.afterRole k was).office = c.office :=
  (Rides.syncTwin k (.refl _)).office.trans ((tryAttach_office _).trans
    (Rides.reshade k was (.dpllApply k _ true (.refRole k (.refl c)))).office)

/-- The drops of a part that becomes shadow start, and its items become copies. -/
theorem shadowDrops_rides (c : Chip) (k : Clock) : Rides c (overN 96 (fun d c => if c.on DROP.EN d && (c.d d).ps != .off then c.startDrop k d else c)
    ((c.setSt TWIN.MIRLOSS 0 0).mapItems fun it => { it with seq := none, begun := false })) :=
  .overN 96 (.mapItems _ (.setSt_beside TWIN.MIRLOSS 0 rfl (.refl c))) fun d hd _ ha => .iteElse ha fun ha => .startDrop k d (by omega) ha

theorem becomeShadow_seats {z c : Chip} (k : Clock) (h : Seats z c) : Seats z (c.becomeShadow k) :=
  afterRole_seats k _ (((h.setRole k .shadow).endAttach.onTwin _).rides (shadowDrops_rides _ k))
theorem becomeShadow_office (c : Chip) (k : Clock) : (c.becomeShadow k).office = { c.office with role := .shadow, lightDue := false, adds := [] } := by
  refine (afterRole_office _ k _).trans ((shadowDrops_rides _ k).office.trans ?_)
  unfold office endAttach onTwin
  dsimp only
  rw [setRole_twin]

/-- The role that a bank gives. -/
theorem commitRole_seats {z c : Chip} (k : Clock) (new : Bank) (h : Seats z c) : Seats z (c.commitRole k new).1 := by
  unfold commitRole
  extract_lets pair lit
  split
  · exact becomeShadow_seats k h
  · split
    · exact ((h.setRole k .solo).endAttach.onTwin _).rides (.refRole k (.refl _))
    · exact h
theorem commitRole_role (c : Chip) (k : Clock) (new : Bank) : (c.commitRole k new).1.twin.role =
    if new.fld TWIN.PAIREN 0 = 1 then (if c.twin.role = .solo then .shadow else c.twin.role) else .solo := by
  unfold commitRole
  extract_lets pair lit
  by_cases hp : new.fld TWIN.PAIREN 0 = 1
  · have hpair : pair = true := by simp [pair, hp]
    rw [if_pos hp, hpair]
    by_cases hs : c.twin.role = .solo
    · rw [if_pos hs, if_pos (by simp [hs])]
      exact congrArg Office.role (c.becomeShadow_office k)
    · rw [if_neg hs, if_neg (by simp [hs]), if_neg (by simp)]
  · have hpair : pair = false := by simp [pair, hp]
    rw [if_neg hp, hpair, if_neg (by simp)]
    by_cases hs : c.twin.role = .solo
    · rw [if_neg (by simp [hs])]
      exact hs
    · rw [if_pos (by simp [hs])]
      have h := congrArg Office.role (Rides.refRole k (.refl ((c.setRole k .solo).endAttach.onTwin fun t => { t with release := lit, req := none }))).office
      refine h.trans ?_
      unfold office endAttach onTwin
      dsimp only
      rw [setRole_twin]

end Chip

/-! ### The verdict -/

namespace Chip

theorem takeVerdict_due {c : Chip} (k : Clock) (hp : c.win.pend = true) (hc : c.win.commitIn = 1) (hv : c.win.verdict = none) :
    c.takeVerdict k = (c.restand k none).onWin fun w => { w with verdict := some (c.verdict k) } := by
  unfold takeVerdict
  rw [if_pos (by simp [hp, hc, hv])]
theorem takeVerdict_idle {c : Chip} (k : Clock) (h : c.win.pend = false) : c.takeVerdict k = c := if_neg (by simp [h])
theorem verdict_eq (c : Chip) (k : Clock) : c.verdict k = if c.verdictSchema = false then 0x01 else if c.twin.role = .shadow then 0x02
    else if c.win.fenceReject = true then 0x03 else if c.dir.revPend = true then 0x04 else (c.restand k none).lowestStanding k := by
  unfold verdict
  cases c.verdictSchema <;> rfl
theorem Flow.still_win {D : Nat → Prop} {z c : Chip} (h : Flow D z c) :
    c.win.pend = z.win.pend ∧ c.win.commitIn = z.win.commitIn ∧ c.win.verdict = z.win.verdict ∧ c.win.fenceReject = z.win.fenceReject := by
  have e₁ := congrArg Window.pend h.win
  have e₂ := congrArg Window.commitIn h.win
  have e₃ := congrArg Window.verdict h.win
  have e₄ := congrArg Window.fenceReject h.win
  exact ⟨e₁, e₂, e₃, e₄⟩
theorem Flow.verdictSchema {D : Nat → Prop} {z c : Chip} (h : Flow D z c) : c.verdictSchema = z.verdictSchema := by
  have e := congrArg (fun d : Dir => match d.lateSchema with
    | some (lock, v) => lock && v == 1
    | none => d.slock && d.hostSchema == 1) h.dir
  exact e
theorem Flow.revPend {D : Nat → Prop} {z c : Chip} (h : Flow D z c) : c.dir.revPend = z.dir.revPend := by
  have e := congrArg Dir.revPend h.dir
  exact e

end Chip

/-- The verdict falls on the last edge of the tick. -/
theorem commitVerdict_spec (s : State) (hs : s.serving) (hp : s.chip.win.pend = true) (hc : s.chip.win.commitIn = 1)
    (hv : s.chip.win.verdict = none) :
    ∃ t, exec .commitVerdict s = .next t ∧ s.Runs t ∧ t.clk.idx = 124999 ∧ t.chip.win.pend = true ∧
      t.chip.win.verdict = some (if s.chip.verdictSchema = false then 0x01 else if s.chip.twin.role = .shadow then 0x02
        else if s.chip.win.fenceReject = true then 0x03 else if s.chip.dir.revPend = true then 0x04
        else t.chip.lowestStanding t.clk) := by
  obtain ⟨u, hruns, hflow, hidx, hact⟩ := State.actAt_spec hs (i := 124999) (by decide) fun k c => c.takeVerdict k
  have hexec : exec .commitVerdict s = .next { u with chip := u.chip.takeVerdict u.clk } := congrArg Host.Outcome.next hact
  obtain ⟨hpu, hcu, hvu, hfu⟩ := Chip.Flow.still_win hflow
  have hkeep := (Chip.Keeps.refl u.chip).takeVerdict u.clk
  rw [Chip.takeVerdict_due u.clk (hpu.trans hp) (hcu.trans hc) (hvu.trans hv), Chip.verdict_eq] at hexec hkeep
  obtain ⟨l, hl⟩ := u.chip.restand_form u.clk none
  rw [hl] at hexec hkeep
  have hlt := s.clk.idx_lt
  refine ⟨_, hexec, hruns.then_keeps hkeep, by show u.clk.idx = _; omega, hpu.trans hp, ?_⟩
  rw [← Chip.Flow.verdictSchema hflow, ← Chip.Flow.role hflow, ← hfu, ← Chip.Flow.revPend hflow]
  rfl

/-! ### A commit that is rejected -/

namespace Chip

/-- The outcome of the commit whose boundary this is. -/
theorem commitOutcome_due {c : Chip} (k : Clock) {v : Nat} (hp : c.win.pend = true) (hc : c.win.commitIn = 0) (hw : c.warmActs = false)
    (hv : c.win.verdict = some v) : c.commitOutcome k = (if v = 0 then c.commitApplies k else c.commitRejects k v).onWin fun w =>
      { w with pend := false, defer := false, fenceReject := false, verdict := none } := by
  unfold commitOutcome
  rw [if_pos (by simp [hp, hc, hw]), hv]
  rfl
theorem commitOutcome_idle {c : Chip} (k : Clock) (h : c.win.pend = false) : c.commitOutcome k = c := if_neg (by simp [h])

end Chip

theorem commitApply_rejected (v : Nat) (s : State) (hrun : s.chip.running = true) (hi : s.clk.idx = 0) (hp : s.chip.win.pend = true)
    (hc : s.chip.win.commitIn = 0) (hw : s.chip.warmActs = false) (hv : s.chip.win.verdict = some v) (h0 : v ≠ 0) :
    ∃ t, exec .commitApply s = .next t ∧ s.OnlyHost t ∧ t.chip.port = s.chip.port ∧ t.chip.win.pend = false ∧ t.chip.win.rej = true ∧
      t.chip.win.rejCause = v ∧ t.chip.win.appTag = s.chip.win.appTag ∧ t.chip.win.icause.getLsbD 1 = true ∧
      t.chip.dir.rejected = wrapAdd 16 s.chip.dir.rejected 1 ∧ t.chip.dir.rejAddr = s.chip.rejectAddr v := by
  have hexec : exec .commitApply s = .next { s with chip := s.chip.commitOutcome s.clk } :=
    congrArg Host.Outcome.next (State.actBoundary_running s _ hrun hi)
  rw [Chip.commitOutcome_due s.clk hp hc hw hv, if_neg h0] at hexec
  refine ⟨_, hexec, rfl, rfl, rfl, rfl, rfl, rfl, ?_, rfl, rfl⟩
  show (s.chip.win.icause ||| word (2 ^ 1)).getLsbD 1 = true
  rw [BitVec.getLsbD_or, Bool.or_eq_true]
  exact .inr rfl

/-! ### A commit that passes -/

namespace Chip

theorem readStaged_none {c : Chip} (k : Clock) (h : ∀ u ∈ c.heath.upsets, u.bank ≠ 0) : c.readStaged k = c := by
  have hnil : c.heath.upsets.filter (fun u => u.bank == 0) = [] :=
    List.filter_eq_nil_iff.mpr fun u hu he => h u hu (by simpa using he)
  unfold readStaged
  rw [hnil]
  rfl
theorem copied_none {c : Chip} (h : ∀ u ∈ c.heath.upsets, u.bank ≠ 0) : c.copied = c.heath.staged := by
  unfold copied
  generalize c.heath.upsets = l at h
  generalize c.heath.staged = b
  induction l with
  | nil => rfl
  | cons u l ih =>
    rw [List.foldl_cons, if_neg (h u (List.mem_cons_self ..))]
    exact ih fun x hx => h x (List.mem_cons_of_mem _ hx)

/-- What a commit that passed writes. -/
structure AppliesOf (z c : Chip) : Prop where
  live : c.heath.live = z.heath.staged
  staged : c.heath.staged = z.heath.staged
  boot : c.boot = { z.boot with suShade := false }
  port : c.port = z.port
  rej : c.win.rej = false
  appTag : c.win.appTag = z.win.lastTag
  cause : c.win.icause.getLsbD 0 = true
  applied : c.dir.applied = wrapAdd 16 z.dir.applied 1
  rejAddr : c.dir.rejAddr = 0xFFFFFFFF#32
  role : c.twin.role = if z.heath.staged.fld TWIN.PAIREN 0 = 1 then (if z.twin.role = .solo then .shadow else z.twin.role) else .solo

/-- The writes of a commit that passed, after the change of role that it makes. -/
def applyWrites (c : Chip) (k : Clock) (new : Bank) : Chip :=
  let c := c.onBoot (fun b => { b with suShade := false })
  let c := c.onHeath (fun h => { h with live := new, upsets := h.upsets.filter (fun u => u.bank != 1 || h.upsets.any (fun v => v.bank == 0 && v.addr == u.addr)) })
  let c := c.onDir (fun d => { d with applied := wrapAdd 16 d.applied 1, rejAddr := 0xFFFFFFFF#32 })
  (c.onWin (fun w => { w with appTag := w.lastTag, rej := false, rejCause := 0 })).icause k 0

theorem applyWrites_of {z c : Chip} (k : Clock) (h : Seats z c) (hr : c.twin.role =
    if z.heath.staged.fld TWIN.PAIREN 0 = 1 then (if z.twin.role = .solo then .shadow else z.twin.role) else .solo) :
    AppliesOf z (c.applyWrites k z.heath.staged) where
  live := rfl
  staged := h.staged
  boot := congrArg (fun b : Boot => { b with suShade := false }) h.boot
  port := h.port
  rej := rfl
  appTag := by
    have e := congrArg Window.lastTag h.win
    exact e
  cause := by
    show (c.win.icause ||| word (2 ^ 0)).getLsbD 0 = true
    rw [BitVec.getLsbD_or, Bool.or_eq_true]
    exact .inr rfl
  applied := by
    have e := congrArg (fun d : Dir => wrapAdd 16 d.applied 1) h.dir
    exact e
  rejAddr := rfl
  role := hr
theorem AppliesOf.rides {z c d : Chip} (h : AppliesOf z c) (g : Rides c d) : AppliesOf z d where
  live := g.live.trans h.live
  staged := g.staged.trans h.staged
  boot := g.boot.trans h.boot
  port := g.port.trans h.port
  rej := by
    have e := congrArg Window.rej g.win
    exact e.trans h.rej
  appTag := by
    have e := congrArg Window.appTag g.win
    exact e.trans h.appTag
  cause := g.causes 0 h.cause
  applied := by
    have e := congrArg Dir.applied g.dir
    exact e.trans h.applied
  rejAddr := by
    have e := congrArg Dir.rejAddr g.dir
    exact e.trans h.rejAddr
  role := (congrArg Office.role g.office).trans h.role
theorem AppliesOf.onTwin {z c : Chip} (h : AppliesOf z c) (f : Twin → Twin) (hf : ∀ t, (f t).role = t.role) : AppliesOf z (c.onTwin f) :=
  ⟨h.live, h.staged, h.boot, h.port, h.rej, h.appTag, h.cause, h.applied, h.rejAddr, (hf _).trans h.role⟩

theorem commitApplies_of {c : Chip} (k : Clock) (h : ∀ u ∈ c.heath.upsets, u.bank ≠ 0) : AppliesOf c (c.commitApplies k) := by
  unfold commitApplies
  rw [readStaged_none k h]
  extract_lets was c₁ old new first
  have hnew : new = c.heath.staged := copied_none h
  have hseats := commitRole_seats k new (Seats.refl c)
  have hrole := c.commitRole_role k new
  rw [hnew] at hrole
  split
  next c₂ moved he =>
    rw [hnew] at he hseats
    rw [he] at hseats hrole
    extract_lets was₂ c₃ c₄ c₅ c₆ c₇ c₈
    have h₆ : AppliesOf c c₆ := by
      have hw := applyWrites_of k hseats hrole
      rw [← hnew] at hw
      exact hw
    have h₇ : AppliesOf c c₇ := h₆.rides (.restand k none (.applyBank k _ _ _ _ (.refl c₆)))
    have h₈ : AppliesOf c c₈ := by
      unfold c₈
      split
      · exact h₇.onTwin _ fun _ => rfl
      · exact h₇
    exact h₈.rides (.syncTwin k (.refl _))

end Chip

theorem commitApply_passed (s : State) (hrun : s.chip.running = true) (hi : s.clk.idx = 0) (hp : s.chip.win.pend = true)
    (hc : s.chip.win.commitIn = 0) (hw : s.chip.warmActs = false) (hv : s.chip.win.verdict = some 0)
    (hu : ∀ u ∈ s.chip.heath.upsets, u.bank ≠ 0) :
    ∃ t, exec .commitApply s = .next t ∧ t.pending = s.pending ∧ t.clk = s.clk ∧ t.chip.heath.live = s.chip.heath.staged ∧
      t.chip.heath.staged = s.chip.heath.staged ∧ t.chip.boot = { s.chip.boot with suShade := false } ∧ t.chip.port = s.chip.port ∧
      t.chip.win.pend = false ∧ t.chip.win.rej = false ∧ t.chip.win.appTag = s.chip.win.lastTag ∧
      t.chip.win.icause.getLsbD 0 = true ∧ t.chip.dir.applied = wrapAdd 16 s.chip.dir.applied 1 ∧
      t.chip.dir.rejAddr = 0xFFFFFFFF#32 ∧
      t.chip.twin.role = (if s.chip.heath.staged.fld TWIN.PAIREN 0 = 1 then
        (if s.chip.twin.role = .solo then .shadow else s.chip.twin.role) else .solo) := by
  have hexec : exec .commitApply s = .next { s with chip := s.chip.commitOutcome s.clk } :=
    congrArg Host.Outcome.next (State.actBoundary_running s _ hrun hi)
  rw [Chip.commitOutcome_due s.clk hp hc hw hv, if_pos rfl] at hexec
  have h := Chip.commitApplies_of s.clk hu
  generalize s.chip.commitApplies s.clk = d at hexec h
  exact ⟨_, hexec, rfl, rfl, h.live, h.staged, h.boot, h.port, rfl, h.rej, h.appTag, h.cause, h.applied, h.rejAddr, h.role⟩

namespace Chip
theorem Rides.jumpOut {z c : Chip} (k : Clock) (t0 t1 o : Nat) (ho : o < 4096) (h : Rides z c) : Rides z (c.jumpOut k t0 t1 o) := by
  unfold Chip.jumpOut
  split
  · exact .iteElse h fun h => .setLate k o ho (.ite (.syncOut o ho (.onOut o _ h)) h)
  · exact h
theorem Rides.sidePpm {z c : Chip} (p : Nat) (rx : Bool) (hp : p < 4096) (h : Rides z c) : Rides z (c.sidePpm p rx) := by
  have hset : ∀ v, Rides z (c.setSt (if rx then AUDIO.RXPPM else AUDIO.TXPPM) p v) := fun v => by
    cases rx
    · exact .setSt AUDIO.TXPPM p v rfl (Fld.lt_reach (by omega)) h
    · exact .setSt AUDIO.RXPPM p v rfl (Fld.lt_reach (by omega)) h
  exact .onSide p rx _ (.ite (.onSide p rx _ (hset _)) (hset _))
theorem Rides.audioSecond {z c : Chip} (h : Rides z c) : Rides z c.audioSecond :=
  .overN 8 h fun p hp _ ha => .sidePpm p false (by omega) (.sidePpm p true (by omega) ha)
theorem Rides.pend {z c : Chip} (h : Rides z c) : c.win.pend = z.win.pend := by
  have e := congrArg Window.pend h.win
  exact e

/-! ### Where no commit is pending -/

/-- No commit is pending. -/
def unasked (c : Chip) : Prop := c.win.pend = false

theorem Rides.unasked {z c : Chip} (h : Rides z c) (hz : z.unasked) : c.unasked := h.pend.trans hz
theorem unasked_warmActions {c : Chip} (k : Clock) (h : c.unasked) : (c.warmActions k).unasked := by
  unfold warmActions
  split
  · exact (warmReset_of c k).pend
  · exact h
theorem unasked_warmDone {c : Chip} (k : Clock) (h : c.unasked) : (c.warmDone k).unasked := by
  unfold warmDone
  split
  · exact (Rides.reshade k _ (.icause k 16 (.refl _))).unasked h
  · exact h
theorem unasked_revert {c : Chip} (h : c.unasked) : c.revert.unasked := by
  unfold revert
  split <;> exact h
theorem unasked_snapshot {c : Chip} (k : Clock) (h : c.unasked) : (c.snapshot k).unasked := by
  unfold snapshot
  split
  · exact h
  · extract_lets
    split <;> exact h
theorem unasked_boundaryWork {c : Chip} (k : Clock) (h : c.unasked) : (c.boundaryWork k).unasked := by
  have h₁ := unasked_warmDone k (unasked_warmActions k h)
  unfold boundaryWork
  rw [commitOutcome_idle k h₁]
  exact unasked_snapshot k (unasked_revert h₁)
/-- The seconds of a drop that close. -/
theorem Rides.errSec {z c : Chip} (f : Fld) (b : Bool) (d : Nat) (hf : f.offTwin = true) (hd : d < 96) (h : Rides z c) :
    Rides z (if b then c.addSt f d 1 else c) := by
  split
  · exact .addSt f d 1 hf (Fld.lt_reach (by omega)) h
  · exact h
theorem unasked_secondWork {c : Chip} (k : Clock) (h : c.unasked) : (c.secondWork k).unasked := by
  unfold secondWork
  extract_lets c₁ c₂ c₃
  have h₁ : Rides c c₁ := .audioSecond (.icause k 15 (.refl c))
  have h₂ : Rides c c₂ := by
    refine .overN 96 h₁ fun d hd a ha => ?_
    extract_lets x a₁ a₂
    have g₁ : Rides c a₁ := .errSec DROPSTAT.ESEC x.errSec d rfl hd ha
    have g₂ : Rides c a₂ := .errSec DROPSTAT.LOFSEC x.lofSec d rfl hd g₁
    split
    · exact .onD d _ g₂
    · exact g₂
  clear_value c₂
  have h₃ : c₃.unasked := by
    unfold c₃
    split <;> exact h₂.unasked h
  exact h₃

end Chip

theorem State.unasked_applyStep {s : State} (h : s.chip.unasked) : s.applyStep.chip.unasked := by
  unfold State.applyStep
  split
  · exact h
  · extract_lets rem t k c₁ c₂ c₃ c₄ c₅
    have h₂ : Chip.Rides s.chip c₂ := .setSt TIME.LASTSTEPMS 0 _ rfl (by decide) (.setSt TIME.LASTSTEP 0 _ rfl (by decide)
      (.addSt TIME.STEPS 0 1 rfl (by decide) (.onTime _ (.refl s.chip))))
    have h₃ : Chip.Rides s.chip c₃ := .cause k .time0 0 _ rfl (by decide) h₂
    have h₄ : Chip.Rides s.chip c₄ := .overN 8 h₃ fun o ho _ ha => .iteElse ha fun ha => .jumpOut _ _ _ o (by omega) ha
    have h₅ : Chip.Rides s.chip c₅ := .overN 9 h₄ fun o _ _ ha => .onOut o _ ha
    exact h₅.unasked h
theorem State.unasked_boundaryDone {s : State} (h : s.chip.unasked) : s.boundaryDone.chip.unasked := by
  unfold State.boundaryDone
  split
  · have h₁ : ({ s with chip := s.chip.boundaryWork s.clk } : State).chip.unasked := Chip.unasked_boundaryWork s.clk h
    have h₂ : ({ s with chip := s.chip.boundaryWork s.clk } : State).stepBoundary.chip.unasked := by
      unfold State.stepBoundary
      split
      · have h₃ := State.unasked_applyStep h₁
        extract_lets t
        split
        · exact Chip.unasked_secondWork _ h₃
        · exact h₃
      · exact h₁
    exact Chip.unasked_snapshot _ h₂
  · exact h
theorem State.unasked_elapse {s : State} (n : Nat) (h : s.chip.unasked) : (s.elapse n).chip.unasked := by
  by_cases hn : n = 0
  · rw [hn, State.elapse_zero]
    exact h
  · have hdep : s.depart.chip.unasked := by
      unfold State.depart
      split
      · refine (Chip.Flow.still_win (D := Chip.anyDrop) (z := s.boundaryDone.chip) ?_).1.trans (State.unasked_boundaryDone h)
        exact (Chip.Flow.ite ((Chip.Flow.refl _).openTick _ fun _ => trivial) (.refl _)).leaveEdge _
      · exact h
    unfold State.elapse
    rw [if_neg hn]
    generalize s.depart = u at hdep
    dsimp only
    have hflow := Chip.Flow.edgesPass (u.clk.elapse n) (Chip.Flow.refl (D := Chip.anyDrop) u.chip)
    exact (Chip.Flow.still_win hflow).1.trans hdep

/-- With no commit pending there is nothing to judge. -/
theorem commitVerdict_idle (s : State) (h : s.chip.unasked) : exec .commitVerdict s = .next (s.actAt 124999 fun _ c => c) := by
  refine congrArg Host.Outcome.next ?_
  unfold State.actAt
  split
  · have hfree : (s.toIdx Config.lastIdx).chip.unasked := State.unasked_elapse _ h
    dsimp only
    rw [Chip.takeVerdict_idle _ hfree]
    rfl
  · rfl

/-- Settles O34: the verdict is taken on the last edge of the tick, and the outcome at the boundary follows it. -/
theorem commitOutcomes : Obligations.CommitOutcomes := by
  unfold Obligations.CommitOutcomes
  refine ⟨commitVerdict_spec, commitApply_rejected, commitApply_passed, fun s hp => ⟨commitVerdict_idle s hp, ?_⟩⟩
  exact congrArg Host.Outcome.next (State.actBoundary_same (Chip.commitOutcome_idle _ hp))

end Sys2Proof.Machine
end

section
/-! PROOFS. Items that end (R148, R228), protection (R151 to R157), and the upstream scheduler (R145 to R147). -/

namespace Sys2Proof.Machine
open Sys2Proof

namespace Chip

/-! ### What the end of an item leaves -/

/-- What the release of an item's cells and its retirement leave. -/
structure Freed (z c : Chip) : Prop where
  trib : c.trib = z.trib
  sched : c.sched = z.sched
  aps : c.aps = z.aps
  drop : c.drop = z.drop
  wf : z.heath.status.wf = true → c.heath.status.wf = true
  stat : z.heath.status.wf = true → ∀ (f : Fld) (r : Nat), f.steady = true → f.tab ≠ 0x70 → r < 4096 → c.st f r = z.st f r

namespace Freed

theorem refl (z : Chip) : Freed z z := ⟨rfl, rfl, rfl, rfl, id, fun _ _ _ _ _ _ => rfl⟩
theorem trans {a b c : Chip} (h : Freed a b) (g : Freed b c) : Freed a c :=
  ⟨g.trib.trans h.trib, g.sched.trans h.sched, g.aps.trans h.aps, g.drop.trans h.drop, g.wf ∘ h.wf,
    fun hw f r hf ht hr => (g.stat (h.wf hw) f r hf ht hr).trans (h.stat hw f r hf ht hr)⟩
theorem ofCalm {z c : Chip} (h : Calm z c) : Freed z c :=
  ⟨h.trib, h.sched, h.aps, h.drop, h.wf, fun hw f r hf _ hr => h.stat hw f r hf hr⟩
theorem onM (f : Meadow → Meadow) (c : Chip) : Freed c (c.onM f) := ⟨rfl, rfl, rfl, rfl, id, fun _ _ _ _ _ _ => rfl⟩
theorem onTwin (f : Twin → Twin) (c : Chip) : Freed c (c.onTwin f) := ⟨rfl, rfl, rfl, rfl, id, fun _ _ _ _ _ _ => rfl⟩
theorem draw (c : Chip) : Freed c c.draw.2 := ⟨rfl, rfl, rfl, rfl, id, fun _ _ _ _ _ _ => rfl⟩
/-- A status word of the twin engine. -/
theorem setTwin {z c : Chip} (g : Fld) (v : Nat) (hg : g.fits = true) (ht : g.tab = 0x70) (h : Freed z c) : Freed z (c.setSt g 0 v) := by
  refine h.trans ⟨by simp, by simp, by simp, by simp, setSt_wf _ _ _ _, fun hw f r hf hft hr => ?_⟩
  exact st_setSt_other v hw (Calm.steady_fits hf) hg hr (by decide) (.inl (by rw [ht]; exact hft))
theorem sendDesc {z c : Chip} (h : Freed z c) : Freed z c.sendDesc := by
  unfold Chip.sendDesc
  split
  next room y he =>
    have hy : Freed z y := by
      obtain rfl : c.draw.2 = y := congrArg Prod.snd he
      exact h.trans (draw c)
    split
    · exact setTwin TWIN.DESCSENT _ rfl rfl hy
    · have hlost : Freed z (y.addSt TWIN.DESCLOST 0 1) := setTwin TWIN.DESCLOST _ rfl rfl hy
      exact hlost.trans (onTwin _ _)
theorem retire {z c : Chip} (it : Item) (cause : Nat) (h : Freed z c) : Freed z (c.retire it cause) := by
  unfold Chip.retire
  split
  · exact h.sendDesc
  · exact h
theorem freeCells {z c : Chip} (k : Clock) (up : Bool) (cells : List Nat) (h : Freed z c) : Freed z (c.freeCells k up cells) := by
  unfold Chip.freeCells Chip.syncPools
  exact (h.trans (onM _ c)).trans (.ofCalm (.setCond k 211 _ (by decide) (.setCond k 210 _ (by decide) (.refl _))))

end Freed

/-- An item that ends under a cause other than DISABLED is counted, and nothing else of the tributaries moves. -/
theorem discardItem_freed (c : Chip) (k : Clock) (it : Item) {cause : Nat} (h : cause ≠ cDisabled) :
    Freed (c.countDisc it.trib it.up cause) (c.discardItem k it cause) := by
  unfold discardItem
  rw [if_neg h]
  exact ((Freed.refl _).freeCells k it.up it.cells).retire it cause
theorem endRx_freed (c : Chip) (k : Clock) (u : Nat) :
    (c.endRx k u cNopath).aps = c.aps ∧ (c.heath.status.wf = true → (c.endRx k u cNopath).heath.status.wf = true ∧
      ∀ (f : Fld) (r : Nat), f.steady = true → f.tab ≠ 0x70 → r < 4096 → (c.endRx k u cNopath).st f r = c.st f r) := by
  unfold endRx
  split
  next it _ =>
    have h := discardItem_freed (c.onU u fun x => { x with rx := none }) k it (cause := cNopath) (by decide)
    exact ⟨h.aps, fun hw => ⟨h.wf hw, h.stat hw⟩⟩
  · exact ⟨rfl, fun hw => ⟨hw, fun _ _ _ _ _ => rfl⟩⟩

/-! ### Protection -/

/-- Of the pairs only `p` moves, and its condition `w` that has passed its hold-off stays so. -/
structure PassedAt (p w : Nat) (z c : Chip) : Prop where
  others : ∀ q, q ≠ p → c.pair q = z.pair q
  passed : z.apsPassed p w = true → c.apsPassed p w = true

namespace PassedAt
variable {p w : Nat} {z c : Chip}

theorem refl (z : Chip) : PassedAt p w z z := ⟨fun _ _ => rfl, id⟩
theorem trans {d : Chip} (h : PassedAt p w z c) (g : PassedAt p w c d) : PassedAt p w z d :=
  ⟨fun q hq => (g.others q hq).trans (h.others q hq), g.passed ∘ h.passed⟩
theorem ofAps {d : Chip} (h : PassedAt p w z c) (e : d.aps = c.aps) : PassedAt p w z d := by
  refine h.trans ⟨fun q _ => ?_, fun hp => ?_⟩
  · unfold pair
    rw [e]
  · unfold apsPassed pair at *
    rw [e]
    exact hp
theorem onP {f : Aps → Aps} (h : PassedAt p w z c) (hf : vget (c.pair p).passed w false = true → vget (f (c.pair p)).passed w false = true) :
    PassedAt p w z (c.onP p f) := by
  refine h.trans ⟨fun q hq => vget_vupd_other _ _ _ _ _ hq, fun hp => ?_⟩
  by_cases hlt : p < 2
  · exact (congrArg (fun a : Aps => vget a.passed w false) (vget_vupd_same c.aps p f {} hlt)).trans (hf hp)
  · exact (congrArg (fun a : Aps => vget a.passed w false) (vupd_out c.aps p p f {} (by omega))).trans hp
theorem overN (n : Nat) {f : Nat → Chip → Chip} (h : PassedAt p w z c) (hf : ∀ i, i < n → ∀ a, PassedAt p w z a → PassedAt p w z (f i a)) :
    PassedAt p w z (overN n f c) := by
  unfold Machine.overN
  have hl : ∀ i ∈ List.range n, i < n := fun i hi => List.mem_range.mp hi
  generalize List.range n = l at hl
  induction l generalizing c with
  | nil => exact h
  | cons x r ih => exact ih (hf x (hl x (List.mem_cons_self ..)) _ h) fun i hi => hl i (List.mem_cons_of_mem _ hi)

end PassedAt

theorem vget_vupd_or {n : Nat} (v : Vector Bool n) (i : Nat) (b : Bool) (h : vget v i false = true) :
    vget (vupd v i fun x => x || b) i false = true := by
  by_cases hi : i < n
  · rw [vget_vupd_same _ _ _ _ hi, h, Bool.true_or]
  · rw [vupd_out _ _ _ _ _ (by omega)]
    exact h

theorem passed_apsHold {z c : Chip} {p w : Nat} (k : Clock) (h : PassedAt p w z c) (hc : (c.apsConds p).getD w false = true) :
    PassedAt p w z (c.apsHold k p false) := by
  unfold apsHold
  extract_lets conds none_
  refine .overN 4 h fun i _ a ha => ha.onP fun hp => ?_
  by_cases hi : w = i
  · rw [← hi, if_pos hc]
    exact vget_vupd_or _ _ _ hp
  · split
    · exact (vget_vupd_other _ _ _ _ _ hi).trans hp
    · exact (vget_vupd_other _ _ _ _ _ hi).trans hp
theorem passed_apsAim {z c : Chip} {p w : Nat} (k : Clock) (b : Bool) (h : PassedAt p w z c) : PassedAt p w z (c.apsAim k p b) :=
  h.onP fun hp => by
    split
    · exact hp
    · exact hp
theorem passed_apsSync {z c : Chip} {p w : Nat} (k : Clock) (h : PassedAt p w z c) : PassedAt p w z (c.apsSync k p) := by
  unfold apsSync
  extract_lets a c₁ run c₂ differs c₃
  have h₁ : PassedAt p w z c₁ := passed_apsAim k _ (h.ofAps (by simp))
  have h₂ : PassedAt p w z c₂ := h₁.ofAps (by simp [c₂])
  have h₃ : PassedAt p w z c₃ := h₂.onP fun hp => hp
  split
  · exact h₃.ofAps (by simp)
  · exact h₃
/-- An evaluation of the requests keeps a condition that is present and has passed. -/
theorem passed_apsEval {z c : Chip} {p w : Nat} (k : Clock) (h : PassedAt p w z c) (hc : (c.apsConds p).getD w false = true) :
    PassedAt p w z (c.apsEval k p) := by
  unfold apsEval
  split
  · exact h
  · extract_lets wasW c₁ a higher c₂ higher₂ cleared c₃
    have h₁ : PassedAt p w z c₁ := passed_apsHold k h hc
    have h₂ : PassedAt p w z c₂ := by
      unfold c₂
      split
      · have hcmd : PassedAt p w z (c₁.onP p fun a => { a with cmd := 0 }) := h₁.onP fun hp => hp
        exact hcmd.ofAps (by simp)
      · exact h₁
    have h₃ : PassedAt p w z c₃ := by
      refine h₂.onP fun hp => ?_
      split
      · exact hp
      · split
        · split <;> exact hp
        · exact hp
    exact passed_apsSync k h₃
/-- A condition is marked as passed. -/
theorem apsPassed_mark (c : Chip) {p w : Nat} (hp : p < 2) (hw : w < 4) :
    (c.onP p fun a => { a with passed := vupd a.passed w fun _ => true }).apsPassed p w = true := by
  refine (congrArg (fun a : Aps => vget a.passed w false) (vget_vupd_same c.aps p _ {} hp)).trans ?_
  exact vget_vupd_same _ _ _ _ hw

end Chip

/-- A command of the core edge holds what the edge holds. -/
theorem holds_of_coreEdge {i : Instr} {s t : State} (hi : i.coreEdge = true) (h : exec i s = .next t) : s.Holds t := by
  obtain ⟨u, hu, hholds⟩ := exec_holds_of_coreEdge s i hi
  obtain rfl : u = t := Host.Outcome.next.inj (hu.symm.trans h)
  exact hholds
/-- A command of the line edge holds what the edge holds. -/
theorem holds_of_lineEdge {i : Instr} {s t : State} (hi : i.lineEdge = true) (h : exec i s = .next t) : s.Holds t := by
  obtain ⟨u, hu, hholds⟩ := exec_holds_of_lineEdge s i hi
  obtain rfl : u = t := Host.Outcome.next.inj (hu.symm.trans h)
  exact hholds

theorem holdOffExpiry_spec (p : Fin 2) (w : Fin 4) (e : Nat) (s : State) (hs : s.serving) (hm : s.chip.lv APS.MODE p.val ≠ 0)
    (he : vget (s.chip.pair p.val).since w.val none = some e) :
    (e + s.chip.lv APS.HOLDOFF p.val * 8 * 125000 ≤ s.clk.pos → (s.chip.apsConds p.val).getD w.val false = true →
      ∃ t, exec (.holdOffExpiry p w) s = .next t ∧ s.Holds t ∧ t.chip.apsPassed p.val w.val = true ∧
        ∀ q, q ≠ p.val → t.chip.pair q = s.chip.pair q) ∧
    (s.clk.pos < e + s.chip.lv APS.HOLDOFF p.val * 8 * 125000 → exec (.holdOffExpiry p w) s = .next s) := by
  refine ⟨fun hpos hc => ?_, fun hpos => ?_⟩
  · have hexec : exec (.holdOffExpiry p w) s = .next { s with chip :=
        (s.chip.onP p.val fun a => { a with passed := vupd a.passed w.val fun _ => true }).apsEval s.clk p.val } := by
      refine congrArg Host.Outcome.next ((hs.act _).trans ?_)
      rw [he]
      dsimp only
      rw [if_pos ⟨hpos, hm⟩]
    have hpass : Chip.PassedAt p.val w.val (s.chip.onP p.val fun a => { a with passed := vupd a.passed w.val fun _ => true }) _ :=
      Chip.passed_apsEval s.clk (.refl _) hc
    refine ⟨_, hexec, holds_of_lineEdge rfl hexec, hpass.passed (s.chip.apsPassed_mark p.isLt w.isLt), fun q hq => ?_⟩
    exact (hpass.others q hq).trans (vget_vupd_other _ _ _ _ _ hq)
  · refine congrArg Host.Outcome.next (State.act_same ?_)
    rw [he]
    dsimp only
    rw [if_neg (by rintro ⟨h, -⟩; exact absurd h (Nat.not_le.mpr hpos))]

namespace Chip

/-- The selector of a pair moves. -/
theorem apsMove_moves {c : Chip} (k : Clock) {p : Nat} (b : Bool) (hw : c.heath.status.wf = true) (hp : p < 4096)
    (h : c.st APS.ACTIVE p ≠ bit b) :
    (c.apsMove k p b).st APS.ACTIVE p = bit b ∧ (c.apsMove k p b).st APS.SWITCHES p = wrapAdd 32 (c.st APS.SWITCHES p) 1 ∧
      (c.apsMove k p b).hasCause .aps p 0 ∧ (c.apsMove k p b).aps = c.aps := by
  unfold apsMove
  rw [if_neg h]
  obtain ⟨haps, hfreed⟩ := c.endRx_freed k (2 * p + bit (!b))
  obtain ⟨hwf, hst⟩ := hfreed hw
  have hsw := hst APS.SWITCHES p rfl (by decide) hp
  dsimp only
  generalize c.endRx k (2 * p + bit (!b)) cNopath = d at haps hwf hsw
  have hwf₁ := setSt_wf d APS.ACTIVE p (bit b) hwf
  have hwf₂ : ((d.setSt APS.ACTIVE p (bit b)).addSt APS.SWITCHES p 1).heath.status.wf = true := setSt_wf _ _ _ _ hwf₁
  refine ⟨?_, ?_, hasCause_cause .aps p 1 0 hwf₂ rfl (by decide) rfl, by simp [haps]⟩
  · rw [st_cause_orSt, st_setSt_other _ hwf₂ rfl rfl hp hp (.inr (.inr rfl)), addSt, st_setSt_other _ hwf₁ rfl rfl hp hp (.inr (.inr rfl)),
      st_setSt_same _ _ _ _ hwf (by decide)]
    cases b <;> rfl
  · rw [st_cause_orSt, st_setSt_other _ hwf₂ rfl rfl hp hp (.inr (.inr rfl)), st_addSt_same _ _ _ _ hwf₁ (by decide),
      st_setSt_other _ hwf rfl rfl hp hp (.inr (.inr rfl)), hsw]
    rfl

end Chip

theorem selectorMove_spec (p : Fin 2) (s : State) (hs : s.serving) (hi : s.clk.idx = 0) (hm : s.chip.lv APS.MODE p.val ≠ 0)
    (hbad : s.chip.liveBad 0x13 p.val = false) :
    (s.chip.st APS.ACTIVE p.val = bit (s.chip.apsTarget s.clk p.val) → exec (.selectorMove p) s = .next s) ∧
    (s.chip.st APS.ACTIVE p.val ≠ bit (s.chip.apsTarget s.clk p.val) →
      ∃ t, exec (.selectorMove p) s = .next t ∧ s.Holds t ∧ t.chip.st APS.ACTIVE p.val = bit (s.chip.apsTarget s.clk p.val) ∧
        t.chip.st APS.SWITCHES p.val = wrapAdd 32 (s.chip.st APS.SWITCHES p.val) 1 ∧ t.chip.hasCause .aps p.val 0 ∧
        t.chip.aps = s.chip.aps) := by
  have hexec : exec (.selectorMove p) s = .next { s with chip := s.chip.apsMove s.clk p.val (s.chip.apsTarget s.clk p.val) } := by
    refine congrArg Host.Outcome.next ((hs.actBoundary _ hi).trans ?_)
    rw [if_neg (by simp [hm, hbad])]
  refine ⟨fun h => ?_, fun h => ?_⟩
  · rw [hexec, Chip.apsMove, if_pos h]
  · exact ⟨_, hexec, holds_of_lineEdge rfl hexec, Chip.apsMove_moves s.clk _ hs.wf (by omega) h⟩

theorem fopnr_spec (p : Fin 2) (e : Nat) (s : State) (hs : s.serving) (hd : (s.chip.pair p.val).differ = some e)
    (hf : s.chip.st APS.FOPNR p.val = 0) :
    (e + 400 * 125000 ≤ s.clk.pos →
      ∃ t, exec (.fopnr p) s = .next t ∧ s.Holds t ∧ t.chip.st APS.FOPNR p.val = 1 ∧ t.chip.hasCause .aps p.val 2 ∧
        t.chip.aps = s.chip.aps) ∧
    (s.clk.pos < e + 400 * 125000 → exec (.fopnr p) s = .next s) := by
  have hp : p.val < 4096 := by omega
  refine ⟨fun hpos => ?_, fun hpos => ?_⟩
  · have hexec : exec (.fopnr p) s = .next { s with chip := (s.chip.setSt APS.FOPNR p.val 1).cause s.clk .aps p.val 4 } := by
      refine congrArg Host.Outcome.next ((hs.act _).trans ?_)
      rw [hd]
      dsimp only
      rw [if_pos ⟨hpos, hf⟩]
    have hwf := hs.wf
    have hwf₁ := Chip.setSt_wf s.chip APS.FOPNR p.val 1 hwf
    refine ⟨_, hexec, holds_of_lineEdge rfl hexec, ?_, Chip.hasCause_cause .aps p.val 4 2 hwf₁ rfl (by decide) rfl, by simp⟩
    rw [Chip.st_cause_orSt, Chip.st_setSt_other _ hwf₁ rfl rfl hp hp (.inr (.inr rfl)), Chip.st_setSt_same _ _ _ _ hwf (by decide)]
    rfl
  · refine congrArg Host.Outcome.next (State.act_same ?_)
    rw [hd]
    dsimp only
    rw [if_neg (by rintro ⟨h, -⟩; exact absurd h (Nat.not_le.mpr hpos))]

namespace Chip

/-- A cause bit stands through another cause. -/
theorem hasCause_mono {c : Chip} (k : Clock) (g : CauseReg) (r bits : Nat) {n : Nat} (hw : c.heath.status.wf = true) (hg : g.cause.fits = true)
    (h : c.hasCause g r n) : (c.cause k g r bits).hasCause g r n := by
  have hlt : n < g.cause.width := by
    by_contra hn
    have hz : c.st g.cause r < 2 ^ n := lt_of_lt_of_le (Fld.get_lt _ _) (Nat.pow_le_pow_right (by decide) (by omega))
    rw [hasCause, Nat.testBit_lt_two_pow hz] at h
    contradiction
  have hst : (c.cause k g r bits).st g.cause r = (c.st g.cause r ||| bits) % 2 ^ g.cause.width := by
    rw [← st_orSt_same c g.cause r bits hw (Fld.fits_iff.mp hg).1, st, cause_status, st]
  rw [hasCause, hst, Nat.testBit_mod_two_pow, Nat.testBit_or, h]
  simp [hlt]

/-- The status words are sound, and pair `p` has cause `n`. -/
def ApsMarked (p n : Nat) (c : Chip) : Prop := c.heath.status.wf = true ∧ c.hasCause .aps p n

theorem ApsMarked.setSt {p n : Nat} {c : Chip} (h : ApsMarked p n c) (hp : p < 4096) (f : Fld) (v : Nat) (hf : f.fits = true)
    (hapart : APS.CAUSE.apart f = true) : ApsMarked p n (c.setSt f p v) :=
  ⟨setSt_wf _ _ _ _ h.1, (congrArg (Nat.testBit · n) (st_setSt_other v h.1 rfl hf hp hp (.inr (.inr hapart)))).trans h.2⟩

/-- What the status words that follow a pair say, and what stands of its requests. -/
theorem apsSync_ends {c : Chip} (k : Clock) {p : Nat} (h : ApsMarked p 5 c) (hp : p < 2) (he : (c.pair p).wtrEnd = none) :
    ((c.apsSync k p).pair p).wtrEnd = none ∧ (c.apsSync k p).st APS.WTRRUN p = 0 ∧ (c.apsSync k p).hasCause .aps p 5 := by
  have hflow : Flow anyDrop c (c.apsSync k p) := .apsSync k p (by omega) (.refl c)
  refine ⟨(hflow.wtrEnd p).trans he, ?_⟩
  have hr : p < 4096 := by omega
  unfold apsSync
  extract_lets a c₁ run c₂ differs c₃
  have h₁ : ApsMarked p 5 c₁ := (h.setSt hr APS.LREQ _ rfl rfl).setSt hr APS.RREQ _ rfl rfl
  clear_value c₁
  have h₂ : ApsMarked p 5 c₂ ∧ c₂.st APS.WTRRUN p = 0 := by
    have g₁ := h₁.setSt hr APS.WTRRUN (bit a.wtrEnd.isSome) rfl rfl
    have g₂ := g₁.setSt hr APS.HOLDRUN (bit run) rfl rfl
    refine ⟨g₂.setSt hr APS.CMDACT _ rfl rfl, ?_⟩
    unfold c₂
    rw [st_setSt_other _ g₂.1 rfl rfl hr hr (.inr (.inr rfl)), st_setSt_other _ g₁.1 rfl rfl hr hr (.inr (.inr rfl)),
      st_setSt_same _ _ _ _ h₁.1 (by decide), show a.wtrEnd = none from he]
    rfl
  clear_value c₂
  have h₃ : ApsMarked p 5 c₃ ∧ c₃.st APS.WTRRUN p = 0 := h₂
  clear_value c₃
  obtain ⟨h₃, hrun⟩ := h₃
  split
  · have h₄ := h₃.setSt hr APS.FOPNR 0 rfl rfl
    refine ⟨?_, hasCause_mono k .aps p 4 h₄.1 rfl h₄.2⟩
    rw [st_cause_orSt, st_setSt_other _ h₄.1 rfl rfl hr hr (.inr (.inr rfl)), st_setSt_other _ h₃.1 rfl rfl hr hr (.inr (.inr rfl)), hrun]
  · exact ⟨hrun, h₃.2⟩

end Chip

theorem waitToRestoreEnd_spec (p : Fin 2) (e : Nat) (s : State) (hs : s.serving) (hi : s.clk.idx ≤ 271)
    (hend : (s.chip.pair p.val).wtrEnd = some e) (he : e ≤ s.clk.ticks) :
    ∃ t, exec (.waitToRestoreEnd p) s = .next t ∧ s.Runs t ∧ t.clk.idx = max s.clk.idx 16 ∧ (t.chip.pair p.val).wtrEnd = none ∧
      t.chip.st APS.WTRRUN p.val = 0 ∧ t.chip.hasCause .aps p.val 5 := by
  obtain ⟨u, hruns, hflow, hidx, hact⟩ := State.actAt_spec hs (i := 16) (by decide) fun k c =>
    match (c.pair p).wtrEnd with
    | some e => if e ≤ k.ticks then ((c.onP p fun a => { a with wtrEnd := none }).cause k .aps p 32).apsSync k p else c
    | none => c
  obtain ⟨-, hticks, -, -, -⟩ := id hruns
  have hexec : exec (.waitToRestoreEnd p) s = .next { u with chip :=
      ((u.chip.onP p.val fun a => { a with wtrEnd := none }).cause u.clk .aps p.val 32).apsSync u.clk p.val } := by
    refine congrArg Host.Outcome.next ((if_neg (by omega)).trans (hact.trans ?_))
    rw [(hflow.wtrEnd p.val).trans hend]
    dsimp only
    rw [if_pos (by omega)]
  have hw : (u.chip.onP p.val fun a => { a with wtrEnd := none }).heath.status.wf = true := hflow.wf hs.wf
  have hkeep : Chip.Keeps u.chip (((u.chip.onP p.val fun a => { a with wtrEnd := none }).cause u.clk .aps p.val 32).apsSync u.clk p.val) :=
    (((Chip.Keeps.refl _).onP _ _).cause _ _ _ _).apsSync _ _
  refine ⟨_, hexec, hruns.then_keeps hkeep, hidx, ?_⟩
  refine Chip.apsSync_ends u.clk ⟨Chip.cause_wf _ _ _ _ _ hw, Chip.hasCause_cause .aps p.val 32 5 hw rfl (by decide) rfl⟩ p.isLt ?_
  unfold Chip.pair
  rw [Chip.cause_aps]
  exact congrArg Aps.wtrEnd (vget_vupd_same u.chip.aps p.val _ {} p.isLt)

/-- Settles O39: a condition, once passed, stays through the evaluation; the selector, FOPNR and the end of a wait write their own words. -/
theorem protection : Obligations.Protection := by
  unfold Obligations.Protection
  exact ⟨holdOffExpiry_spec, selectorMove_spec, waitToRestoreEnd_spec, fopnr_spec⟩

end Sys2Proof.Machine
end

section
/-! PROOFS. The upstream scheduler (R145 to R148). -/

namespace Sys2Proof.Machine
open Sys2Proof

theorem overN_succ {α : Type} (n : Nat) (f : Nat → α → α) (a : α) : overN (n + 1) f a = f n (overN n f a) := by
  unfold overN
  rw [List.range_succ, List.foldl_append]
  rfl
/-- What each turn makes true of its unit, and the other turns keep, is true of every unit. -/
theorem overN_each {α : Type} {P : Nat → α → Prop} (Inv : α → Prop) {n : Nat} {f : Nat → α → α} {a : α} (h : Inv a)
    (hinv : ∀ i < n, ∀ a, Inv a → Inv (f i a)) (hat : ∀ i < n, ∀ a, Inv a → P i (f i a))
    (hkeep : ∀ i, ∀ j < n, ∀ a, Inv a → P i a → P i (f j a)) : Inv (overN n f a) ∧ ∀ i < n, P i (overN n f a) := by
  induction n with
  | zero => exact ⟨h, fun i hi => absurd hi (Nat.not_lt_zero i)⟩
  | succ n ih =>
    obtain ⟨hI, hP⟩ := ih (fun i hi => hinv i (by omega)) (fun i hi => hat i (by omega)) fun i j hj => hkeep i j (by omega)
    rw [overN_succ]
    refine ⟨hinv n (by omega) _ hI, fun i hi => ?_⟩
    by_cases hin : i = n
    · rw [hin]
      exact hat n (by omega) _ hI
    · exact hkeep i n (by omega) _ hI (hP i (by omega))

theorem t_onT (c : Chip) {r : Nat} (hr : r < 256) (f : Trib → Trib) : (c.onT r f).t r = f (c.t r) := vget_vupd_same c.trib r f {} hr

/-- The allowance of tributary `t` is set. -/
def refill (t : Nat) (c : Chip) : Chip := c.onT t fun x => { x with allow := c.lv TRIB.UPCAP t * 64 }
/-- Every allowance is set. -/
theorem allow_refilled (c : Chip) {n : Nat} (hn : n ≤ 256) : ∀ r < n,
    ((overN n refill c).t r).allow = c.lv TRIB.UPCAP r * 64 := by
  have hat : ∀ i < 256, ∀ d : Chip, d.heath.live = c.heath.live → ((refill i d).t i).allow = c.lv TRIB.UPCAP i * 64 := fun i hi d h => by
    rw [refill, t_onT d hi]
    exact congrArg (fun b : Bank => b.fld TRIB.UPCAP i * 64) h
  have hkeep : ∀ i j (d : Chip), d.heath.live = c.heath.live → (i < 256 → (d.t i).allow = c.lv TRIB.UPCAP i * 64) →
      i < 256 → ((refill j d).t i).allow = c.lv TRIB.UPCAP i * 64 := fun i j d h hp hi => by
    by_cases hij : i = j
    · rw [← hij]
      exact hat i hi d h
    · exact (congrArg Trib.allow (vget_vupd_other d.trib j i _ {} hij)).trans (hp hi)
  obtain ⟨-, h⟩ := overN_each (P := fun r (d : Chip) => r < 256 → (d.t r).allow = c.lv TRIB.UPCAP r * 64) (n := n) (f := refill) (a := c)
    (fun d => d.heath.live = c.heath.live) rfl (fun _ _ _ h => h) (fun i _ d h hi => hat i hi d h) fun i j _ => hkeep i j
  exact fun r hr => h r hr (by omega)

/-- After its window, work does not come about. -/
theorem State.inWindow_late {s : State} {lo hi code : Nat} {f : Clock → Chip → Chip} (h : hi + bit s.clk.skip < s.clk.idx) :
    s.inWindow lo hi code f = s := if_pos h
theorem execSchedulerCreditRefill_eq (s : State) :
    exec .schedulerCreditRefill s = .next (s.inWindow 16 271 4 fun _ c => overN 256 refill c) := rfl
theorem refilled_spec {c d : Chip} (hd : d = overN 256 refill c) : Chip.Keeps c d ∧ ∀ r < 256, (d.t r).allow = c.lv TRIB.UPCAP r * 64 := by
  subst hd
  exact ⟨.overN 256 (.refl c) fun _ _ ha => ha.onT _ _, allow_refilled c (Nat.le_refl 256)⟩

theorem schedulerCreditRefill_spec (s : State) (hs : s.serving) (hi : s.clk.idx ≤ 271) (hd : s.chip.done.contains 4 = false) :
    ∃ t, exec .schedulerCreditRefill s = .next t ∧ s.Runs t ∧ t.clk.idx = max s.clk.idx 16 ∧ 4 ∈ t.chip.done ∧
      ∀ r < 256, (t.chip.t r).allow = s.chip.lv TRIB.UPCAP r * 64 := by
  obtain ⟨u, hruns, hflow, hidx, hact⟩ := State.inWindow_spec hs (lo := 16) (by decide) hi hd fun _ c => overN 256 refill c
  rw [execSchedulerCreditRefill_eq, hact]
  dsimp only
  obtain ⟨d, he⟩ : ∃ d, d = overN 256 refill u.chip := ⟨_, rfl⟩
  rw [← he]
  obtain ⟨hkeep, hall⟩ := refilled_spec he
  refine ⟨_, rfl, hruns.then_keeps (hkeep.withDone _), hidx, List.mem_cons_self .., fun r hr => ?_⟩
  rw [← hflow.lv]
  exact hall r hr

/-- A tributary without its deficit and its allowance. -/
def Trib.still (x : Trib) : Trib := { x with deficit := 0, allow := 0 }

namespace Chip

/-- Of `z` only the deficits and allowances of tributaries differ. -/
def OnlyDeficits (z c : Chip) : Prop := ∃ v, c = { z with trib := v } ∧ ∀ i, (vget v i ({} : Trib)).still = (z.t i).still

theorem OnlyDeficits.refl (z : Chip) : OnlyDeficits z z := ⟨z.trib, rfl, fun _ => rfl⟩
theorem OnlyDeficits.onT {z c : Chip} (h : OnlyDeficits z c) (i : Nat) (f : Trib → Trib) (hf : ∀ x, (f x).still = x.still) :
    OnlyDeficits z (c.onT i f) := by
  obtain ⟨v, rfl, hv⟩ := h
  refine ⟨vupd v i f, rfl, fun j => ?_⟩
  by_cases hj : j = i
  · subst hj
    by_cases hlt : j < 256
    · rw [vget_vupd_same v j f {} hlt, hf]
      exact hv j
    · rw [vupd_out v j j f {} (by omega)]
      exact hv j
  · rw [vget_vupd_other v i j f {} hj]
    exact hv j
theorem OnlyDeficits.visit {z : Chip} (u n : Nat) : ∀ (r : Nat) {c : Chip}, OnlyDeficits z c → OnlyDeficits z (c.visit u r n).2 := by
  induction n with
  | zero => exact fun _ _ h => h
  | succ n ih =>
    intro r c h
    unfold Chip.visit
    extract_lets t d
    have hd : OnlyDeficits z d := h.onT t _ fun _ => rfl
    split
    · split
      · exact hd
      · exact ih _ hd
    · exact ih _ h
theorem OnlyDeficits.schedule (c : Chip) (u : Nat) : OnlyDeficits c (c.schedule u).2 := by
  unfold Chip.schedule
  extract_lets x
  split
  · exact .refl c
  · split
    · exact .visit u _ _ (.refl c)
    · exact .refl c

/-- The item that scheduler `w` serves has left its list. -/
def served (c : Chip) (w r n : Nat) (l : List Item) : Chip :=
  (({ (c.schedule w).2 with sched := vupd (c.schedule w).2.sched w fun _ => { last := r, visit := true } } : Chip).onT r fun x =>
    { x with deficit := x.deficit - n, allow := x.allow - n }).setItems r true l

/-- Of `z` only the deficits, the allowances and the upstream list of tributary `r` differ, and the latter is `l`. -/
structure Served (r : Nat) (l : List Item) (z c : Chip) : Prop where
  other : c = { z with trib := c.trib, sched := c.sched }
  trib : (c.t r).still = { (z.t r).still with up := l }

theorem served_of (c : Chip) (w : Nat) {r : Nat} (n : Nat) (l : List Item) (hr : r < 256) : Served r l c (c.served w r n l) := by
  obtain ⟨v, hv, hstill⟩ := OnlyDeficits.schedule c w
  have hd : ((c.schedule w).2.t r).still = (c.t r).still := by
    rw [hv]
    exact hstill r
  unfold served
  generalize (c.schedule w).2 = d at hv hd
  refine ⟨by rw [hv]; rfl, ?_⟩
  rw [setItems, t_onT _ hr, t_onT _ hr]
  exact congrArg (fun x : Trib => { x with up := l }) hd

theorem sendItem_eq {c : Chip} (k : Clock) {u r : Nat} {it : Item} {l : List Item} (hr : c.twin.role ≠ .shadow)
    (hp : c.ptpWaits k (c.schedOf u) = false) (hq : c.lv APS.MODE (c.schedOf u / 2) = 0 ∨ c.ptpWaits k (c.schedOf u + 1) = false)
    (hs : (c.schedule (c.schedOf u)).1 = some r) (hu : (c.t r).up = it :: l) (hlt : r < 256) :
    c.sendItem k u = if c.shaded then (c.served (c.schedOf u) r it.data.length l).discardItem k it cShade
      else if !c.schedSends (c.schedOf u) then (c.served (c.schedOf u) r it.data.length l).discardItem k it cNopath
      else (c.served (c.schedOf u) r it.data.length l).lineItem k (c.schedOf u) it := by
  have hgate : (decide (c.twin.role = .shadow) || c.ptpWaits k (c.schedOf u) ||
      (c.lv APS.MODE (c.schedOf u / 2) != 0 && c.ptpWaits k (c.schedOf u + 1))) = false := by
    rcases hq with hq | hq <;> simp [hr, hp, hq]
  have hserved := (served_of c (c.schedOf u) it.data.length l hlt).other
  have hup : ((c.schedule (c.schedOf u)).2.t r).up = it :: l := by
    obtain ⟨v, hv, hstill⟩ := OnlyDeficits.schedule c (c.schedOf u)
    rw [hv]
    exact (congrArg Trib.up (hstill r)).trans hu
  unfold sendItem
  extract_lets w
  rw [if_neg (by rw [hgate]; decide)]
  rw [show c.schedule w = (some r, (c.schedule w).2) from Prod.ext hs rfl]
  dsimp only
  rw [hup]
  dsimp only
  rw [show c.shaded = (c.served w r it.data.length l).shaded by rw [hserved]; rfl,
    show c.schedSends w = (c.served w r it.data.length l).schedSends w by rw [hserved]; rfl]
  rfl

/-- A shadow sends nothing. -/
theorem sendItem_shadow {c : Chip} (k : Clock) {u : Nat} (h : c.twin.role = .shadow) : c.sendItem k u = c := by
  have hgate : (decide (c.twin.role = .shadow) || c.ptpWaits k (c.schedOf u) ||
      (c.lv APS.MODE (c.schedOf u / 2) != 0 && c.ptpWaits k (c.schedOf u + 1))) = true := by simp [h]
  unfold sendItem
  extract_lets w
  rw [if_pos hgate]
/-- Of a served item that is discarded, its tributary tells. -/
theorem discard_served {z c : Chip} (k : Clock) {r : Nat} {it : Item} {l : List Item} {cause : Nat} (h : Served r l z c) (hlt : r < 256)
    (ht : it.trib = r) (hu : it.up = true) (hc : cause ≠ cDisabled) (hn : cause - 1 < 7) :
    (c.discardItem k it cause).items r true = l ∧ (c.discardItem k it cause).disc r true cause = wrapAdd 32 (z.disc r true cause) 1 := by
  have hf := discardItem_freed c k it hc
  have htrib : (c.discardItem k it cause).t r = { c.t r with upDisc := vupd (c.t r).upDisc (cause - 1) fun n => wrapAdd 32 n 1 } := by
    unfold Chip.t
    rw [hf.trib, ht, hu]
    exact t_onT c hlt _
  have hup := congrArg Trib.up h.trib
  have hdisc := congrArg Trib.upDisc h.trib
  refine ⟨(congrArg Trib.up htrib).trans hup, ?_⟩
  have e : (c.t r).upDisc = (z.t r).upDisc := hdisc
  unfold disc
  rw [if_pos rfl, if_pos rfl, htrib, ← e]
  exact vget_vupd_same _ _ _ _ hn

theorem readCells_sound {c : Chip} (k : Clock) {cells : List Nat} (h : ∀ x ∈ c.mead.upsets, x.cell ∉ cells) :
    ∃ m, c.readCells k cells = (false, { c with mead := m }) ∧ m.upsets = c.mead.upsets := by
  have hnil : c.mead.upsets.filter (fun x => cells.contains x.cell) = [] :=
    List.filter_eq_nil_iff.mpr fun x hx he => h x hx (by simpa using he)
  unfold readCells
  rw [hnil]
  exact ⟨_, rfl, rfl⟩
theorem lineSend_trib (c : Chip) (k : Clock) (u : Nat) (bs : List Byte) : (c.lineSend k u bs).trib = c.trib := by
  unfold lineSend
  split
  · rfl
  · extract_lets d
    have hd : d.trib = c.trib := by
      unfold d
      split <;> rfl
    split
    · exact hd
    · exact hd

/-- An item that is delivered counts in its tributary. -/
theorem deliver_served {z c : Chip} (k : Clock) {r : Nat} {it : Item} {l : List Item} (h : Served r l z c) {d : Chip} (hd : d.trib = c.trib)
    (hlt : r < 256) (ht : it.trib = r) (hu : it.up = true) :
    (d.deliverItem k it).items r true = l ∧ (d.deliverItem k it).items r false = z.items r false ∧
      ((d.deliverItem k it).t r).upFrames = wrapAdd 32 (z.t r).upFrames 1 ∧
      ((d.deliverItem k it).t r).upBytes = wrapAdd 32 (z.t r).upBytes it.data.length := by
  have htrib : (d.deliverItem k it).t r = { c.t r with
      upFrames := wrapAdd 32 (c.t r).upFrames 1, upBytes := wrapAdd 32 (c.t r).upBytes it.data.length } := by
    have hf : Freed _ (d.deliverItem k it) := (((Freed.refl _).freeCells k it.up it.cells).retire it 0)
    unfold Chip.t
    rw [hf.trib, ht, hu, ← hd]
    exact t_onT d hlt _
  have hup := congrArg Trib.up h.trib
  have hdn := congrArg Trib.dn h.trib
  have hframes := congrArg Trib.upFrames h.trib
  have hbytes := congrArg Trib.upBytes h.trib
  refine ⟨(congrArg Trib.up htrib).trans hup, (congrArg Trib.dn htrib).trans hdn, (congrArg Trib.upFrames htrib).trans ?_,
    (congrArg Trib.upBytes htrib).trans ?_⟩
  · exact congrArg (wrapAdd 32 · 1) hframes
  · exact congrArg (wrapAdd 32 · it.data.length) hbytes

/-- Of a served item without errored bits that goes to the lines, its tributary tells. -/
theorem line_served {z c : Chip} (k : Clock) {r w : Nat} {it : Item} {l : List Item} (h : Served r l z c) (hlt : r < 256)
    (ht : it.trib = r) (hu : it.up = true) (hs : ∀ x ∈ c.mead.upsets, x.cell ∉ it.cells) :
    (c.lineItem k w it).items r true = l ∧ (c.lineItem k w it).items r false = z.items r false ∧
      ((c.lineItem k w it).t r).upFrames = wrapAdd 32 (z.t r).upFrames 1 ∧
      ((c.lineItem k w it).t r).upBytes = wrapAdd 32 (z.t r).upBytes it.data.length := by
  obtain ⟨m, hm, hmu⟩ := readCells_sound (c := c) k (cells := it.cells.take 1) fun x hx hin => hs x hx (List.mem_of_mem_take hin)
  obtain ⟨m', hm', -⟩ := readCells_sound (c := { c with mead := m }) k (cells := it.cells.drop 1) fun x hx hin =>
    hs x (hmu ▸ hx) (List.mem_of_mem_drop hin)
  unfold lineItem
  rw [hm]
  dsimp only
  rw [if_neg (by decide), hm']
  dsimp only
  rw [if_neg (by decide)]
  refine deliver_served (it := { it with begun := true, bad := false }) k h ?_ hlt ht hu
  have hone : ∀ (d : Chip) (u : Nat) (bs : List Byte), (if d.sendsClient u then d.lineSend k u bs else d).trib = d.trib := fun d u bs => by
    split
    · exact lineSend_trib ..
    · rfl
  split
  · exact hone _ _ _
  · exact (hone _ _ _).trans (hone _ _ _)

end Chip

/-- Settles O38: the item served leaves its list, and is delivered or discarded as the part and its uplink say. -/
theorem upstreamScheduling : Obligations.UpstreamScheduling := by
  unfold Obligations.UpstreamScheduling
  refine ⟨schedulerCreditRefill_spec, fun u s r it l hs hr hp hq hpick hlt hup ht hu => ?_, fun s h => ?_, fun u s h => ?_⟩
  · have hserved := s.chip.served_of (s.chip.schedOf u.val) it.data.length l hlt
    have hexec : exec (.upstreamItemSent u) s = .next { s with chip := s.chip.sendItem s.clk u.val } := congrArg Host.Outcome.next (hs.act _)
    have hsend := Chip.sendItem_eq s.clk hr hp hq hpick hup hlt
    refine ⟨fun hsh hsends hsound => ?_, fun hsh => ?_, fun hsh hsends => ?_⟩
    · refine ⟨_, hexec, holds_of_lineEdge rfl hexec, ?_⟩
      rw [hsend, if_neg (by simp [hsh]), if_neg (by simp [hsends])]
      have hsound' : ∀ x ∈ (s.chip.served (s.chip.schedOf u.val) r it.data.length l).mead.upsets, x.cell ∉ it.cells := by
        rw [hserved.other]
        exact hsound
      exact Chip.line_served s.clk hserved hlt ht hu hsound'
    · refine ⟨_, hexec, holds_of_lineEdge rfl hexec, ?_⟩
      rw [hsend, if_pos hsh]
      exact Chip.discard_served s.clk hserved hlt ht hu (by decide) (by decide)
    · refine ⟨_, hexec, holds_of_lineEdge rfl hexec, ?_⟩
      rw [hsend, if_neg (by simp [hsh]), if_pos (by simp [hsends])]
      exact Chip.discard_served s.clk hserved hlt ht hu (by decide) (by decide)
  · rw [execSchedulerCreditRefill_eq, State.inWindow_late h]
  · refine congrArg Host.Outcome.next (State.act_same ?_)
    exact Chip.sendItem_shadow s.clk h

end Sys2Proof.Machine
end

section
/-! PROOFS. Status fields that a run of operations leaves (`Chip.Reads`), and the power manager (R413 to R434). -/

namespace Sys2Proof.Machine
open Sys2Proof

theorem unsigned_lt (w : Nat) (i : Int) : unsigned w i < 2 ^ w := by
  unfold unsigned
  have hpos : (0 : Int) < ((2 ^ w : Nat) : Int) := by positivity
  have hlt := Int.emod_lt_of_pos i hpos
  have hnn := Int.emod_nonneg i (Int.ne_of_gt hpos)
  omega
/-- A field beside the sensors. -/
def Fld.offSens (g : Fld) : Bool := g.fits && (List.range 16).all fun i => (POWER.TSENS.at i).fits && (POWER.TSENS.at i).apart g

namespace Chip

/-- The status fields that `P` names read as before. -/
structure Reads (P : Fld → Nat → Prop) (z c : Chip) : Prop where
  wf : z.heath.status.wf = true → c.heath.status.wf = true
  stat : z.heath.status.wf = true → ∀ f q, P f q → c.st f q = z.st f q

namespace Reads
variable {P : Fld → Nat → Prop} {z c : Chip}

theorem refl (z : Chip) : Reads P z z := ⟨id, fun _ _ _ _ => rfl⟩
theorem trans {d : Chip} (h : Reads P z c) (g : Reads P c d) : Reads P z d :=
  ⟨g.wf ∘ h.wf, fun hw f q hp => (g.stat (h.wf hw) f q hp).trans (h.stat hw f q hp)⟩
theorem iteElse {p : Prop} [Decidable p] {a : Chip} (h : Reads P z c) (ha : Reads P z c → Reads P z a) : Reads P z (if p then a else c) := by
  split
  · exact ha h
  · exact h
theorem mono {Q : Fld → Nat → Prop} (hQ : ∀ f q, Q f q → P f q) (h : Reads P z c) : Reads Q z c :=
  ⟨h.wf, fun hw f q hq => h.stat hw f q (hQ f q hq)⟩
/-- A change that leaves the status words. -/
theorem beside {d : Chip} (h : Reads P z c) (e : d.heath.status = c.heath.status) : Reads P z d := by
  refine h.trans ⟨fun hw => by rw [e]; exact hw, fun _ f q _ => ?_⟩
  unfold st
  rw [e]
theorem setSt {g : Fld} {r : Nat} (v : Nat) (hg : Clears P g r) (h : Reads P z c) : Reads P z (c.setSt g r v) := by
  obtain ⟨hfit, hclear⟩ := hg
  refine h.trans ⟨setSt_wf _ _ _ _, fun hw f q hp => ?_⟩
  obtain ⟨hf, hapart⟩ := hclear f q hp
  exact st_setSt_clear v hw hf hfit hapart
theorem cause {g : CauseReg} {r : Nat} (k : Clock) (b : Nat) (hg : Clears P g.cause r) (h : Reads P z c) : Reads P z (c.cause k g r b) := by
  have hset := h.setSt (c.st g.cause r ||| b) hg
  exact ⟨fun hw => cause_wf _ _ _ _ _ (h.wf hw), fun hw f q hp => (st_cause_orSt ..).trans (hset.stat hw f q hp)⟩
theorem calm {d : Chip} (hP : ∀ f q, P f q → f.steady = true ∧ q < 4096) (h : Reads P z c) (g : Calm c d) : Reads P z d :=
  h.trans ⟨g.wf, fun hw f q hp => g.stat hw f q (hP f q hp).1 (hP f q hp).2⟩

end Reads

/-! ### The plan -/

/-- The sixteen sensor readings. -/
def sensWords (f : Fld) (q : Nat) : Prop := (∃ i < 16, f = POWER.TSENS.at i) ∧ q = 0
/-- They, and the supply voltage. -/
def powerWords (f : Fld) (q : Nat) : Prop := sensWords f q ∨ f = POWER.VIN ∧ q = 0

theorem powerWords_steady : ∀ f q, powerWords f q → f.steady = true ∧ q < 4096 := by
  have h : ∀ i < 16, (POWER.TSENS.at i).steady = true := by decide
  rintro f q (⟨⟨i, hi, rfl⟩, rfl⟩ | ⟨rfl, rfl⟩)
  · exact ⟨h i hi, by decide⟩
  · exact ⟨rfl, by decide⟩
theorem sensWords_clear {g : Fld} (h : g.offSens = true) : Clears sensWords g 0 := by
  simp only [Fld.offSens, Bool.and_eq_true, List.all_eq_true, List.mem_range] at h
  refine ⟨h.1, ?_⟩
  rintro f q ⟨⟨i, hi, rfl⟩, rfl⟩
  exact ⟨(h.2 i hi).1, .inl (h.2 i hi).2⟩
theorem powerWords_clear {g : Fld} (h : g.offSens = true) (hv : POWER.VIN.apart g = true) : Clears powerWords g 0 := by
  refine ⟨(sensWords_clear h).1, ?_⟩
  rintro f q (hs | ⟨rfl, rfl⟩)
  · exact (sensWords_clear h).2 f q hs
  · exact ⟨rfl, .inl hv⟩

theorem Reads.judgeSensors (c : Chip) (k : Clock) (l : List Int) : Reads sensWords c (c.judgeSensors k l) := by
  unfold Chip.judgeSensors
  extract_lets bad one any d
  have hd : Reads sensWords c d := (Reads.refl c).beside rfl
  exact hd.iteElse fun hd => hd.cause (g := .power) k 16 (sensWords_clear rfl)
theorem Reads.judgeHeat (c : Chip) (k : Clock) (l : List Int) : Reads sensWords c (c.judgeHeat k l) := by
  unfold Chip.judgeHeat
  extract_lets all inn
  split
  next tj hot _ =>
    extract_lets c₁ s thr up down new c₂ c₃
    have h₁ : Reads sensWords c c₁ := ((Reads.refl c).setSt _ (sensWords_clear rfl)).setSt _ (sensWords_clear rfl)
    have h₂ : Reads sensWords c c₂ := h₁.beside rfl
    have h₃ : Reads sensWords c c₃ := by
      unfold c₃
      split
      · exact h₂
      · exact (h₂.setSt _ (sensWords_clear rfl)).cause (g := .power) k 1 (sensWords_clear rfl)
    exact h₃.calm (fun f q h => powerWords_steady f q (.inl h))
      (.setCond k 260 _ (by decide) (.setCond k 259 _ (by decide) (.setCond k 258 _ (by decide) (.refl _))))

theorem Reads.judgeSupply {c : Chip} (k : Clock) (vin vio pin : Nat) (reg : Bool) (hw : c.heath.status.wf = true) :
    Reads sensWords c (c.judgeSupply k vin vio pin reg) ∧ (c.judgeSupply k vin vio pin reg).st POWER.VIN 0 = vin % 2 ^ POWER.VIN.width := by
  unfold Chip.judgeSupply
  extract_lets lo hi moved flip c₁ c₂
  have hvin : Reads sensWords c (c.setSt POWER.VIN 0 vin) := (Reads.refl c).setSt _ (sensWords_clear rfl)
  have hw₀ := setSt_wf c POWER.VIN 0 vin hw
  have h₁ : Reads powerWords (c.setSt POWER.VIN 0 vin) c₁ :=
    ((Reads.refl _).setSt _ (powerWords_clear rfl rfl)).setSt _ (powerWords_clear rfl rfl)
  have h₂ : Reads powerWords (c.setSt POWER.VIN 0 vin) c₂ := by
    unfold c₂ causeIf
    have hpow : Reads powerWords (c.setSt POWER.VIN 0 vin) (c₁.onPow fun p => { p with vinLow := lo, vinHigh := hi, regFlt := reg }) :=
      h₁.beside rfl
    split
    · exact hpow
    · exact hpow.cause (g := .power) k _ (powerWords_clear rfl rfl)
  have h₃ := h₂.calm powerWords_steady (.setCond k 263 (!c₂.vioGood vio || c₂.port.vioLost) (by decide) (.setCond k 261 reg (by decide)
    (.setCond k 257 hi (by decide) (.setCond k 256 lo (by decide) (.refl _)))))
  refine ⟨hvin.trans (h₃.mono fun _ _ => .inl), (h₃.stat hw₀ POWER.VIN 0 (.inr ⟨rfl, rfl⟩)).trans ?_⟩
  exact st_setSt_same _ _ _ _ hw (by decide)

/-- The sensor readings. -/
def setSens (l : List Int) (i : Nat) (c : Chip) : Chip := c.setSt (POWER.TSENS.at i) 0 (unsigned 16 (l.getD i 0))
theorem sensors_set (l : List Int) {c : Chip} (hw : c.heath.status.wf = true) :
    (overN 16 (setSens l) c).heath.status.wf = true ∧ ∀ i < 16, (overN 16 (setSens l) c).st (POWER.TSENS.at i) 0 = unsigned 16 (l.getD i 0) := by
  have hfit : ∀ i < 16, (POWER.TSENS.at i).fits = true := by decide
  have hapart : ∀ i < 16, ∀ j < 16, i = j ∨ (POWER.TSENS.at i).apart (POWER.TSENS.at j) = true := by decide
  have hat : ∀ i, ∀ d : Chip, d.heath.status.wf = true → (setSens l i d).st (POWER.TSENS.at i) 0 = unsigned 16 (l.getD i 0) := fun i d h =>
    (st_setSt_same d (POWER.TSENS.at i) 0 _ h (by show 0 + 16 ≤ 32; decide)).trans (Nat.mod_eq_of_lt (unsigned_lt 16 _))
  refine overN_each (P := fun i (d : Chip) => i < 16 → d.st (POWER.TSENS.at i) 0 = unsigned 16 (l.getD i 0)) (fun d => d.heath.status.wf = true) hw
    (fun i _ d h => setSt_wf _ _ _ _ h) (fun i _ d h _ => hat i d h) (fun i j hj d h hp hi => ?_) |> fun ⟨h, g⟩ => ⟨h, fun i hi => g i hi hi⟩
  rcases hapart i hi j hj with rfl | ha
  · exact hat i d h
  · exact (st_setSt_other _ h (hfit i hi) (hfit j hj) (by decide) (by decide) (.inr (.inr ha))).trans (hp hi)

/-- What the plan writes. -/
theorem powerPlan_writes {c : Chip} (k : Clock) (l : List Int) (vin vio pin : Nat) (reg : Bool) (hw : c.heath.status.wf = true) :
    (∃ d : Chip, Keeps c d ∧ c.powerPlan k l vin vio pin reg = d.onPow fun p => { p with plan := some d.planNight }) ∧
      (∀ i < 16, (c.powerPlan k l vin vio pin reg).st (POWER.TSENS.at i) 0 = unsigned 16 (l.getD i 0)) ∧
      (c.powerPlan k l vin vio pin reg).st POWER.VIN 0 = vin % 2 ^ POWER.VIN.width := by
  have htake : ∀ i < 16, ((l ++ List.replicate 16 0).take 16).getD i 0 = l.getD i 0 := fun i hi => by
    rw [List.getD_eq_getElem?_getD, List.getD_eq_getElem?_getD, List.getElem?_take, if_pos hi]
    by_cases hl : i < l.length
    · rw [List.getElem?_append_left hl]
    · rw [List.getElem?_append_right (by omega), List.getElem?_replicate, List.getElem?_eq_none (by omega)]
      split <;> rfl
  unfold powerPlan
  extract_lets m c₁ c₂
  have hset : c₁.heath.status.wf = true ∧ (∀ i < 16, c₁.st (POWER.TSENS.at i) 0 = unsigned 16 (m.getD i 0)) ∧ Keeps c c₁ := by
    obtain ⟨hw₁, hs₁⟩ := sensors_set m hw
    exact ⟨hw₁, hs₁, .overN 16 (.refl c) fun _ _ ha => ha.setSt _ _ _⟩
  clear_value c₁
  obtain ⟨hw₁, hs₁, hk₁⟩ := hset
  have h₁ : Reads sensWords c₁ ((c₁.judgeSensors k m).judgeHeat k m) := (Reads.judgeSensors c₁ k m).trans (.judgeHeat _ k m)
  obtain ⟨h₂, hvin⟩ := Reads.judgeSupply k vin vio pin reg (h₁.wf hw₁)
  have hk₂ : Keeps c c₂ := ((hk₁.judgeSensors k m).judgeHeat k m).judgeSupply k vin vio pin reg
  have hsens := (h₁.trans h₂).stat hw₁
  have hc₂ : c₂.st POWER.VIN 0 = vin % 2 ^ POWER.VIN.width ∧ ∀ f q, sensWords f q → c₂.st f q = c₁.st f q := ⟨hvin, hsens⟩
  clear_value c₂
  refine ⟨⟨c₂, hk₂, rfl⟩, fun i hi => ?_, hc₂.1⟩
  exact (hc₂.2 (POWER.TSENS.at i) 0 ⟨⟨i, hi, rfl⟩, rfl⟩).trans ((hs₁ i hi).trans (congrArg (unsigned 16) (htake i hi)))

end Chip

theorem powerPlan_spec (l : List Int) (vin vio pin : Nat) (reg : Bool) (s : State) (hs : s.serving) (hi : s.clk.idx ≤ 62999)
    (hd : s.chip.done.contains 8 = false) :
    ∃ t p, exec (.powerPlan l vin vio pin reg) s = .next t ∧ s.Runs t ∧ t.clk.idx = max s.clk.idx 62000 ∧ 8 ∈ t.chip.done ∧
      t.chip.pow.plan = some p ∧ (∀ b ∈ p, b < 209 ∧ t.chip.needs s.chip.heath.live b = false) ∧
      (∀ i < 16, t.chip.st (POWER.TSENS.at i) 0 = unsigned 16 (l.getD i 0)) ∧ t.chip.st POWER.VIN 0 = vin % 2 ^ POWER.VIN.width := by
  obtain ⟨u, hruns, hflow, hidx, hact⟩ := State.inWindow_spec hs (lo := 62000) (by decide) hi hd fun k c => c.powerPlan k l vin vio pin reg
  have hexec : exec (.powerPlan l vin vio pin reg) s = .next { u with chip :=
      { u.chip.powerPlan u.clk l vin vio pin reg with done := 8 :: u.chip.done } } := congrArg Host.Outcome.next hact
  obtain ⟨⟨d, hkeep, hplan⟩, hsens, hvin⟩ := Chip.powerPlan_writes u.clk l vin vio pin reg (hflow.wf hs.wf)
  rw [hplan] at hexec hsens hvin
  refine ⟨_, d.planNight, hexec, hruns.then_keeps ((hkeep.onPow _).withDone _), hidx, List.mem_cons_self .., rfl, fun b hb => ?_, hsens, hvin⟩
  obtain ⟨hmem, hneed⟩ := List.mem_filter.mp hb
  refine ⟨List.mem_range.mp hmem, ?_⟩
  have hlive : d.heath.live = s.chip.heath.live := hkeep.live.trans hflow.live
  simp only [Bool.and_eq_true, Bool.not_eq_true', ← hlive] at hneed ⊢
  exact hneed.1.1

/-! ### Wakes -/

namespace Chip

/-- Of `c` only the wakes differ, and none is lost. -/
def MoreWakes (c d : Chip) : Prop := ∃ w, d = c.onPow (fun p => { p with wake := w }) ∧ ∀ b, c.pow.wake.any (fun x => x.1 == b) = true → w.any (fun x => x.1 == b) = true

theorem MoreWakes.refl (c : Chip) : MoreWakes c c := ⟨c.pow.wake, rfl, fun _ h => h⟩
theorem MoreWakes.beginWake {c d : Chip} (h : MoreWakes c d) (b e : Nat) : MoreWakes c (d.beginWake b e) := by
  obtain ⟨w, rfl, hw⟩ := h
  unfold Chip.beginWake
  split
  · exact ⟨w, rfl, hw⟩
  · exact ⟨_, rfl, fun x hx => by rw [List.any_append]; exact Bool.or_eq_true_iff.mpr (.inl (hw x hx))⟩
theorem beginWake_wakes (c : Chip) {b : Nat} (e : Nat) (h : c.blk b ≠ .lit) : (c.beginWake b e).pow.wake.any (fun x => x.1 == b) = true := by
  unfold Chip.beginWake
  split
  next hor => exact hor.resolve_left h
  · show (c.pow.wake ++ [(b, _)]).any _ = true
    simp
/-- The blocks that `p` names wake. -/
def wakeAll (p : Nat → Chip → Bool) (e : Nat) (i : Nat) (c : Chip) : Chip := if p i c then c.beginWake i e else c
theorem wakeAll_wakes (c : Chip) (e n : Nat) (p : Nat → Chip → Bool) (hp : ∀ i d, MoreWakes c d → p i d = p i c)
    (hlit : ∀ i, p i c = true → c.blk i ≠ .lit) :
    MoreWakes c (overN n (wakeAll p e) c) ∧ ∀ i < n, p i c = true → (overN n (wakeAll p e) c).pow.wake.any (fun x => x.1 == i) = true := by
  have hstep : ∀ i d, MoreWakes d (wakeAll p e i d) := fun i d => by
    unfold wakeAll
    split
    · exact (MoreWakes.refl d).beginWake i e
    · exact .refl d
  have htrans : ∀ {d f : Chip}, MoreWakes c d → MoreWakes d f → MoreWakes c f := by
    rintro _ _ ⟨w, rfl, hw⟩ ⟨v, rfl, hv⟩
    exact ⟨v, rfl, fun b hb => hv b (hw b hb)⟩
  refine overN_each (P := fun i (d : Chip) => p i c = true → d.pow.wake.any (fun x => x.1 == i) = true) (MoreWakes c) (.refl c)
    (fun i _ d hd => htrans hd (hstep i d)) (fun i _ d hd hi => ?_) fun i j _ d _ hw hi => ?_
  · have hblk : d.blk i ≠ .lit := by
      obtain ⟨w, rfl, -⟩ := hd
      exact hlit i hi
    rw [wakeAll, if_pos ((hp i d hd).trans hi)]
    exact d.beginWake_wakes e hblk
  · obtain ⟨v, hv, hmore⟩ := hstep j d
    rw [hv]
    exact hmore i (hw hi)
theorem MoreWakes.keeps {c d : Chip} (h : MoreWakes c d) : Keeps c d := by
  obtain ⟨w, rfl, -⟩ := h
  exact (Keeps.refl c).onPow _

/-- The blocks that leave NIGHT. -/
def nightLeaves (l : List Nat) (i : Nat) (c : Chip) : Bool := !(l.contains i || c.blk i != c.nightState)
theorem nightWake_eq (c : Chip) (k : Clock) {l : List Nat} (h : c.pow.plan = some l) :
    c.nightWake k = overN 209 (wakeAll (nightLeaves l) k.evc) c := by
  unfold nightWake
  rw [h]
  refine List.foldl_ext _ _ _ fun d i _ => ?_
  unfold wakeAll nightLeaves
  cases l.contains i || d.blk i != d.nightState <;> rfl
theorem darkWake_eq (c : Chip) (k : Clock) : c.darkWake k = overN 209 (wakeAll (fun i c => c.blk i == .dark) k.evc) c := by
  unfold darkWake
  refine List.foldl_ext _ _ _ fun d i _ => ?_
  unfold wakeAll
  simp only [beq_iff_eq]

end Chip

theorem nightWake_spec (s : State) (hs : s.serving) (hi : s.clk.idx ≤ 64900) :
    ∃ t, exec .nightWake s = .next t ∧ s.Runs t ∧ t.clk.idx = 64900 ∧
      ∀ p, t.chip.pow.plan = some p → ∀ b < 209, b ∉ p → t.chip.blk b = t.chip.nightState →
        t.chip.pow.wake.any (fun w => w.1 == b) = true := by
  obtain ⟨u, hruns, -, hidx, hact⟩ := State.actAt_spec hs (i := 64900) (by decide) fun k c => c.nightWake k
  have hexec : exec .nightWake s = .next { u with chip := u.chip.nightWake u.clk } := congrArg Host.Outcome.next ((if_pos hi).trans hact)
  cases hplan : u.chip.pow.plan with
  | none =>
    have hsame : u.chip.nightWake u.clk = u.chip := by rw [Chip.nightWake, hplan]
    rw [hsame] at hexec
    refine ⟨_, hexec, hruns, by show u.clk.idx = _; omega, fun p hp => ?_⟩
    rw [hplan] at hp
    contradiction
  | some l =>
    rw [Chip.nightWake_eq u.chip u.clk hplan] at hexec
    obtain ⟨hmore, hwake⟩ := Chip.wakeAll_wakes u.chip u.clk.evc 209 (Chip.nightLeaves l) (fun i d hd => by obtain ⟨w, rfl, -⟩ := hd; rfl)
      fun i hp hlit => by
        simp only [Chip.nightLeaves, Chip.nightState, hlit, Bool.not_or, Bool.and_eq_true, Bool.not_eq_true', bne_eq_false_iff_eq] at hp
        obtain ⟨-, hp⟩ := hp
        split at hp <;> contradiction
    generalize overN 209 (Chip.wakeAll (Chip.nightLeaves l) u.clk.evc) u.chip = d at hexec hmore hwake
    refine ⟨_, hexec, hruns.then_keeps hmore.keeps, hidx.trans (by omega), fun p hp b hb hbp hblk => hwake b hb ?_⟩
    obtain ⟨w, rfl, -⟩ := hmore
    obtain rfl : l = p := Option.some.inj (hplan.symm.trans hp)
    have hstate : u.chip.blk b = u.chip.nightState := hblk
    simp [Chip.nightLeaves, hbp, hstate]

theorem darkWake_spec (s : State) (hs : s.serving) (hi : s.clk.idx ≤ 122990) :
    ∃ t, exec .darkWake s = .next t ∧ s.Runs t ∧ t.clk.idx = 122990 ∧
      ∀ b < 209, t.chip.blk b = .dark → t.chip.pow.wake.any (fun w => w.1 == b) = true := by
  obtain ⟨u, hruns, -, hidx, hact⟩ := State.actAt_spec hs (i := 122990) (by decide) fun k c => c.darkWake k
  have hexec : exec .darkWake s = .next { u with chip := u.chip.darkWake u.clk } := congrArg Host.Outcome.next ((if_pos hi).trans hact)
  rw [Chip.darkWake_eq] at hexec
  obtain ⟨hmore, hwake⟩ := Chip.wakeAll_wakes u.chip u.clk.evc 209 (fun i c => c.blk i == .dark) (fun i d hd => by obtain ⟨w, rfl, -⟩ := hd; rfl)
    fun i hp hlit => by
      rw [hlit] at hp
      contradiction
  generalize overN 209 (Chip.wakeAll (fun i c => c.blk i == .dark) u.clk.evc) u.chip = d at hexec hmore hwake
  refine ⟨_, hexec, hruns.then_keeps hmore.keeps, hidx.trans (by omega), fun b hb hblk => hwake b hb ?_⟩
  obtain ⟨w, rfl, -⟩ := hmore
  have hdark : u.chip.blk b = .dark := hblk
  simp [hdark]

theorem scheduledWake_spec (b : Nat) (s : State) (hs : s.serving) :
    (s.chip.blk b ≠ .night → s.chip.blk b ≠ .lit → s.chip.pow.wake.any (fun w => w.1 == b) = false →
      ∃ t, exec (.scheduledWake b) s = .next t ∧ s.OnlyPow t ∧
        t.chip.pow = { s.chip.pow with wake := s.chip.pow.wake ++ [(b, s.clk.evc + (s.chip.blk b).latency)] }) ∧
    (s.chip.blk b = .night ∨ s.chip.blk b = .lit → exec (.scheduledWake b) s = .next s) := by
  refine ⟨fun hn hl hw => ?_, fun h => ?_⟩
  · have hexec : exec (.scheduledWake b) s = .next { s with chip := s.chip.onPow fun p =>
        { p with wake := p.wake ++ [(b, s.clk.evc + (s.chip.blk b).latency)] } } := by
      refine congrArg Host.Outcome.next ((hs.act _).trans ?_)
      rw [if_neg hn, Chip.beginWake, if_neg (by simp [hl, hw])]
    exact ⟨_, hexec, rfl, rfl⟩
  · refine congrArg Host.Outcome.next (State.act_same ?_)
    rcases h with h | h
    · rw [if_pos h]
    · rw [if_neg (by rw [h]; decide), Chip.beginWake, if_pos (.inl h)]

theorem powerStateEntry_spec (b : Nat) (st : Fin 4) (x : PwrState) (s : State) (hs : s.serving)
    (hx : st = 1 ∧ x = .dim ∨ st = 2 ∧ x = .dusk ∨ st = 3 ∧ x = .dark) :
    (s.chip.blk b = .lit → b < 226 → s.chip.mayRest s.clk b x = true →
      (s.chip.enabled b = false ∨ (s.chip.on POWER.DEEPDIS 0 = false ∧ s.chip.pow.heldLit = false)) → (x = .dark → s.clk.idx < 122990) →
      ∃ t, exec (.powerStateEntry b st) s = .next t ∧ s.OnlyPow t ∧ t.chip.blk b = x ∧ ∀ i, i ≠ b → t.chip.blk i = s.chip.blk i) ∧
    (s.chip.blk b ≠ .lit ∨ s.chip.mayRest s.clk b x = false ∨ (s.chip.enabled b = true ∧ s.chip.on POWER.DEEPDIS 0 = true) →
      exec (.powerStateEntry b st) s = .next s) := by
  have hexec : exec (.powerStateEntry b st) s = .next { s with chip := s.chip.enterState s.clk b x } := by
    refine congrArg Host.Outcome.next ((hs.act _).trans ?_)
    rcases hx with ⟨rfl, rfl⟩ | ⟨rfl, rfl⟩ | ⟨rfl, rfl⟩ <;> rfl
  refine ⟨fun hlit hb hrest hen hdark => ?_, fun h => ?_⟩
  · have hgate : (s.chip.blk b != .lit || !s.chip.mayRest s.clk b x || (s.chip.enabled b && (s.chip.on POWER.DEEPDIS 0 || s.chip.pow.heldLit)) ||
        (x == .dark && decide (122990 ≤ s.clk.idx))) = false := by
      have hx' : (x == .dark && decide (122990 ≤ s.clk.idx)) = false := by
        by_cases hxd : x = .dark
        · simp [hdark hxd]
        · simp [hxd]
      rw [hlit, hrest, hx']
      rcases hen with hen | ⟨hen, hheld⟩
      · simp [hen]
      · simp [hen, hheld]
    rw [Chip.enterState, if_neg (by rw [hgate]; decide)] at hexec
    exact ⟨_, hexec, rfl, vget_vupd_same _ _ _ _ hb, fun i hi => vget_vupd_other _ _ _ _ _ hi⟩
  · rw [hexec, Chip.enterState, if_pos]
    rcases h with h | h | ⟨h, h'⟩
    · simp [h]
    · simp [h]
    · simp [h, h']

/-- Settles O60: the plan, the wakes and the entries of the power manager. -/
theorem powerBlocks : Obligations.PowerBlocks := by
  unfold Obligations.PowerBlocks
  exact ⟨powerPlan_spec, nightWake_spec, darkWake_spec, scheduledWake_spec, powerStateEntry_spec⟩

end Sys2Proof.Machine
end

section
/-! PROOFS. Claims of the lit role (R380, R395 to R397, R400). -/

namespace Sys2Proof.Machine
open Sys2Proof

/-- The edge of EVC `e`, or the present one where that has passed. -/
theorem State.toEvc_spec {s : State} (hs : s.serving) {e : Nat} (he : e ≤ s.clk.evc + (124999 - s.clk.idx)) :
    s.Runs (s.toEvc e) ∧ s.Flows (s.toEvc e) ∧ (s.toEvc e).clk.evc = max s.clk.evc e ∧ (s.toEvc e).chip.running = true := by
  obtain ⟨hrun, hwf, hset⟩ := hs
  have hruns := (s.toEvc_passes e).runs hset
  exact ⟨hruns, State.toEvc_flows ⟨hrun, hwf, hset⟩ e, s.toEvc_evc e he, hruns.running hrun⟩

namespace Chip

/-- What events and changes of the shade leave of the twin engine. -/
theorem Calm.seat {z c : Chip} (h : Calm z c) : c.twin.role = z.twin.role ∧ c.twin.peer = z.twin.peer ∧ c.twin.req = z.twin.req ∧
    c.twin.lightDue = z.twin.lightDue ∧ c.twin.downDue = z.twin.downDue := by
  have e₁ := congrArg Twin.role h.twin
  have e₂ := congrArg Twin.peer h.twin
  have e₃ := congrArg Twin.req h.twin
  have e₄ := congrArg Twin.lightDue h.twin
  have e₅ := congrArg Twin.downDue h.twin
  exact ⟨e₁, e₂, e₃, e₄, e₅⟩

theorem shaded_of_downDue {c : Chip} (h : c.twin.downDue = true) : c.shaded = true := by simp [shaded, h]
/-- A shadow that asks for nothing and is not due to light claims nothing. -/
theorem wantClaim_none {c : Chip} (hr : c.twin.role = .shadow) (hq : c.twin.req = none) (hl : c.twin.lightDue = false) : c.wantClaim = false := by
  simp [wantClaim, hr, hq, hl]

/-- What a claim that is settled leaves: its code, and no claim. -/
structure ClaimSettled (code : Nat) (c : Chip) : Prop where
  role : c.twin.role = .shadow
  peer : c.twin.peer = true
  req : c.twin.req = none
  claim : c.twin.claim = false
  code : c.st TWIN.RQRES 0 = code

theorem claimSettled_of {c d : Chip} (k : Clock) {code : Nat} (hw : c.heath.status.wf = true) (hr : c.twin.role = .shadow) (hp : c.twin.peer = true)
    (hl : c.twin.lightDue = false) (hcode : code < 256) (hd : Calm (c.settleReq k code) d) : ClaimSettled code (d.syncClaim k) := by
  have htwin := settleReq_twin c k code
  obtain ⟨hrole, hpeer, hreq, hlight, -⟩ := hd.seat
  rw [htwin] at hrole hpeer hreq hlight
  have hws : (c.settleReq k code).heath.status.wf = true := (Keeps.settleReq k code (.refl c)).wf hw
  have hcal : Calm (c.settleReq k code) (d.syncClaim k) := .syncClaim k hd
  obtain ⟨hrole', hpeer', hreq', -, -⟩ := hcal.seat
  rw [htwin] at hrole' hpeer' hreq'
  refine ⟨hrole'.trans hr, hpeer'.trans hp, hreq', ?_, (hcal.stat hws TWIN.RQRES 0 rfl (by decide)).trans (settleReq_code hw hcode)⟩
  rw [syncClaim_twin]
  exact wantClaim_none (hrole.trans hr) hreq (hlight.trans hl)

/-- The identities of the pair, where the peer is read again. -/
theorem sameId_setPeer {c : Chip} (l : Bool) (hw : c.heath.status.wf = true) : (c.setPeer l).sameId = c.sameId := by
  have hst : (c.setPeer l).st TWIN.PEERCOMPAT 0 = c.st TWIN.PEERCOMPAT 0 :=
    st_setSt_other (c := c.onTwin _) _ hw rfl rfl (by decide) (by decide) (.inr (.inr rfl))
  unfold sameId
  rw [setPeer_twin, hst]
theorem setPeer_wf {c : Chip} (l : Bool) (hw : c.heath.status.wf = true) : (c.setPeer l).heath.status.wf = true := (Keeps.setPeer l (.refl c)).wf hw

theorem claimEnd_high {c : Chip} (k : Clock) (hw : c.heath.status.wf = true) (hr : c.twin.role = .shadow) (hl : c.twin.lightDue = false) :
    ClaimSettled (if c.sameId then rqIdclash else rqPeerlit) (c.claimEnd k true) := by
  have hwp := setPeer_wf true hw
  have htwin := c.setPeer_twin true
  have hrole : (c.setPeer true).twin.role = .shadow := by rw [htwin]; exact hr
  have hpeer : (c.setPeer true).twin.peer = true := by rw [htwin]
  have hlight : (c.setPeer true).twin.lightDue = false := by rw [htwin]; exact hl
  have hform : c.claimEnd k true = if (c.setPeer true).sameId then (((c.setPeer true).settleReq k rqIdclash).srcEvent k 278).syncClaim k
      else ((c.setPeer true).settleReq k rqPeerlit).syncClaim k := rfl
  rw [hform, sameId_setPeer true hw]
  by_cases hid : c.sameId = true
  · rw [if_pos hid, if_pos hid]
    exact claimSettled_of k hwp hrole hpeer hlight (by decide) (.srcEvent k 278 (by decide) (.refl _))
  · rw [if_neg hid, if_neg hid]
    exact claimSettled_of k hwp hrole hpeer hlight (by decide) (.refl _)

end Chip

theorem tentativeClaimEnd_spec (hi : Bool) (e : Nat) (s : State) (hs : s.serving) (hr : s.chip.twin.role = .shadow)
    (hq : s.chip.twin.req = some (.tentative e)) (hl : s.chip.twin.lightDue = false) (he : e ≤ s.clk.evc + (124999 - s.clk.idx)) :
    ∃ t, exec (.tentativeClaimEnd hi) s = .next t ∧ s.Runs t ∧ t.clk.evc = max s.clk.evc e ∧ t.chip.twin.role = .shadow ∧
      t.chip.twin.peer = hi ∧ (hi = false → t.chip.twin.lightDue = true ∧ t.chip.twin.req = some (.tentative e)) ∧
      (hi = true → t.chip.twin.req = none ∧ t.chip.twin.claim = false ∧
        t.chip.st TWIN.RQRES 0 = (if s.chip.sameId then rqIdclash else rqPeerlit)) := by
  obtain ⟨hruns, hflow, hevc, hrun⟩ := State.toEvc_spec hs he
  have hsame : (s.toEvc e).chip.sameId = s.chip.sameId := by
    have hheard := congrArg Twin.heard hflow.twin
    have hst : (s.toEvc e).chip.st TWIN.PEERCOMPAT 0 = s.chip.st TWIN.PEERCOMPAT 0 :=
      hflow.stat hs.wf _ (by decide) 0 ⟨by decide, by decide⟩
    unfold Chip.sameId
    rw [hst, hflow.id]
    exact congrArg (· && _) hheard
  generalize hu : s.toEvc e = u at *
  have hexec : exec (.tentativeClaimEnd hi) s = .next { u with chip := u.chip.claimEnd u.clk hi } := by
    have hact : u.act (fun k c => if e ≤ k.evc && !c.twin.lightDue then c.claimEnd k hi else c) = { u with chip := u.chip.claimEnd u.clk hi } := by
      rw [State.act_running u _ hrun, if_pos (by rw [hflow.lightDue, hl]; simp; omega)]
    obtain ⟨hrun, -⟩ := id hs
    rw [← hact, ← hu]
    refine congrArg Host.Outcome.next ?_
    rw [hq]
    dsimp only
    rw [if_pos hrun]
  have hw : u.chip.heath.status.wf = true := hflow.wf hs.wf
  have hrole : u.chip.twin.role = .shadow := hflow.role.trans hr
  have hkeep : Chip.Keeps u.chip (u.chip.claimEnd u.clk hi) := .claimEnd u.clk hi (.refl _)
  cases hi with
  | false =>
    have htwin : (u.chip.claimEnd u.clk false).twin = { u.chip.twin with peer := false, lightDue := true } :=
      congrArg (fun t : Twin => { t with lightDue := true }) (u.chip.setPeer_twin false)
    refine ⟨_, hexec, hruns.then_keeps hkeep, hevc, ?_⟩
    show (u.chip.claimEnd u.clk false).twin.role = _ ∧ (u.chip.claimEnd u.clk false).twin.peer = _ ∧ (_ → (u.chip.claimEnd u.clk false).twin.lightDue = _ ∧
      (u.chip.claimEnd u.clk false).twin.req = _) ∧ (_ → _)
    rw [htwin]
    exact ⟨hrole, rfl, fun _ => ⟨rfl, hflow.req.trans hq⟩, fun h => absurd h (by decide)⟩
  | true =>
    have hset := Chip.claimEnd_high u.clk hw hrole (hflow.lightDue.trans hl)
    rw [hsame] at hset
    generalize u.chip.claimEnd u.clk true = d at hexec hset hkeep
    exact ⟨_, hexec, hruns.then_keeps hkeep, hevc, hset.role, hset.peer, fun h => absurd h (by decide), fun _ => ⟨hset.req, hset.claim, hset.code⟩⟩

namespace Chip

/-- Where TWN_PEER rises during a claim. -/
theorem claimLost_cases {c : Chip} (k : Clock) (hw : c.heath.status.wf = true) (hr : c.twin.role = .shadow)
    (hl : c.twin.lightDue = false) :
    (c.sameId = true → ClaimSettled rqIdclash (c.claimLost k)) ∧
    (c.sameId = false → c.twin.id = 1 → ClaimSettled rqLost (c.claimLost k)) ∧
    (c.sameId = false → c.twin.id ≠ 1 → (c.claimLost k).twin = { c.twin with peer := true }) := by
  have hwp := setPeer_wf true hw
  have htwin := c.setPeer_twin true
  have hrole : (c.setPeer true).twin.role = .shadow := by rw [htwin]; exact hr
  have hpeer : (c.setPeer true).twin.peer = true := by rw [htwin]
  have hlight : (c.setPeer true).twin.lightDue = false := by rw [htwin]; exact hl
  have hid : (c.setPeer true).twin.id = c.twin.id := by rw [htwin]
  have hform : c.claimLost k = if (c.setPeer true).sameId then (((c.setPeer true).settleReq k rqIdclash).srcEvent k 278).syncClaim k
      else if (c.setPeer true).twin.id = 1 then ((c.setPeer true).settleReq k rqLost).syncClaim k else c.setPeer true := rfl
  rw [hform, sameId_setPeer true hw, hid]
  refine ⟨fun h => ?_, fun h h1 => ?_, fun h h1 => ?_⟩
  · rw [if_pos h]
    exact claimSettled_of k hwp hrole hpeer hlight (by decide) (.srcEvent k 278 (by decide) (.refl _))
  · rw [if_neg (by simp [h]), if_pos h1]
    exact claimSettled_of k hwp hrole hpeer hlight (by decide) (.refl _)
  · rw [if_neg (by simp [h]), if_neg h1]
    exact htwin

/-- A lit part that is not shaded and no longer kept low claims. -/
theorem wantClaim_resumed {c : Chip} (hr : c.twin.role = .lit) (hs : c.shaded = false) (hv : c.port.vioLost = false) (hrun : c.running = true) :
    ((c.setPeer false).onTwin fun x => { x with keepLow := none }).wantClaim = true := by
  have hsh : ((c.setPeer false).onTwin fun x => { x with keepLow := none }).shaded = false := by
    simpa [shaded, setPeer, onTwin] using hs
  unfold wantClaim
  rw [hsh]
  have hph : c.boot.phase = .run := by simpa [running] using hrun
  simp [onTwin, setPeer, hr, hv, hph]

end Chip

theorem tentativeClaimLost_spec (e : Nat) (s : State) (hs : s.serving) (hr : s.chip.twin.role = .shadow)
    (hq : s.chip.twin.req = some (.tentative e)) (hl : s.chip.twin.lightDue = false) :
    ∃ t, exec .tentativeClaimLost s = .next t ∧ s.Holds t ∧ t.chip.twin.role = .shadow ∧ t.chip.twin.peer = true ∧
      (s.chip.sameId = true → t.chip.twin.req = none ∧ t.chip.st TWIN.RQRES 0 = rqIdclash) ∧
      (s.chip.sameId = false → s.chip.twin.id = 1 → t.chip.twin.req = none ∧ t.chip.st TWIN.RQRES 0 = rqLost ∧ t.chip.twin.claim = false) ∧
      (s.chip.sameId = false → s.chip.twin.id ≠ 1 → t.chip.twin.req = some (.tentative e) ∧ t.chip.twin.claim = s.chip.twin.claim) := by
  have hexec : exec .tentativeClaimLost s = .next { s with chip := s.chip.claimLost s.clk } := by
    refine congrArg Host.Outcome.next ((hs.act _).trans ?_)
    rw [hq]
    dsimp only
    rw [hl, if_neg (by decide)]
  obtain ⟨hsame, hlost, hstay⟩ := Chip.claimLost_cases s.clk hs.wf hr hl
  generalize s.chip.claimLost s.clk = d at hexec hsame hlost hstay
  refine ⟨_, hexec, holds_of_coreEdge rfl hexec, ?_, ?_, fun h => ⟨(hsame h).req, (hsame h).code⟩,
    fun h h1 => ⟨(hlost h h1).req, (hlost h h1).code, (hlost h h1).claim⟩, fun h h1 => ?_⟩
  · show d.twin.role = .shadow
    by_cases h : s.chip.sameId = true
    · exact (hsame h).role
    · by_cases h1 : s.chip.twin.id = 1
      · exact (hlost (by simpa using h) h1).role
      · rw [hstay (by simpa using h) h1]
        exact hr
  · show d.twin.peer = true
    by_cases h : s.chip.sameId = true
    · exact (hsame h).peer
    · by_cases h1 : s.chip.twin.id = 1
      · exact (hlost (by simpa using h) h1).peer
      · rw [hstay (by simpa using h) h1]
  · show d.twin.req = _ ∧ d.twin.claim = _
    rw [hstay h h1]
    exact ⟨hq, rfl⟩

/-! ### A clash of roles, the loss of the peer's claim, and a claim that is resumed -/

theorem roleClash_spec (s : State) (hs : s.serving) (hr : s.chip.twin.role = .lit) (hc : s.chip.twin.claim = true) :
    ∃ t, exec .roleClash s = .next t ∧ s.Holds t ∧ t.chip.twin.role = .lit ∧ t.chip.twin.peer = true ∧
      (s.chip.twin.id = 1 → t.chip.twin.downDue = true ∧ t.chip.shaded = true) ∧
      (s.chip.twin.id ≠ 1 → t.chip.twin.downDue = s.chip.twin.downDue) := by
  have hcalm : Chip.Calm (s.chip.setPeer true) ((s.chip.setPeer true).srcEvent s.clk 278) := .srcEvent s.clk 278 (by decide) (.refl _)
  obtain ⟨hrole, hpeer, -, -, hdown⟩ := hcalm.seat
  have hid : ((s.chip.setPeer true).srcEvent s.clk 278).twin.id = (s.chip.setPeer true).twin.id := by
    have e := congrArg Twin.id hcalm.twin
    exact e
  rw [s.chip.setPeer_twin true] at hrole hpeer hdown
  generalize hd : (s.chip.setPeer true).srcEvent s.clk 278 = d at hrole hpeer hdown hid
  have hid' : d.twin.id = s.chip.twin.id := by rw [hid, s.chip.setPeer_twin true]
  have hexec : exec .roleClash s = .next { s with chip :=
      if d.twin.id = 1 then (d.onTwin fun t => { t with downDue := true }).reshade s.clk s.chip.shaded else d } := by
    refine congrArg Host.Outcome.next ((hs.act _).trans ?_)
    rw [if_pos (by simp [hr, hc])]
    dsimp only
    rw [hd]
  by_cases h1 : s.chip.twin.id = 1
  · rw [if_pos (hid'.trans h1)] at hexec
    have hshade : Chip.Calm (d.onTwin fun t => { t with downDue := true }) _ := .reshade s.clk s.chip.shaded (.refl _)
    obtain ⟨hrole', hpeer', -, -, hdown'⟩ := hshade.seat
    refine ⟨_, hexec, holds_of_coreEdge rfl hexec, hrole'.trans (hrole.trans hr), hpeer'.trans hpeer, fun _ => ⟨hdown', ?_⟩, fun h => absurd h1 h⟩
    exact Chip.shaded_of_downDue hdown'
  · rw [if_neg (by rw [hid']; exact h1)] at hexec
    exact ⟨_, hexec, holds_of_coreEdge rfl hexec, hrole.trans hr, hpeer, fun h => absurd h h1, fun _ => hdown⟩

theorem claimResume_spec (e : Nat) (s : State) (hs : s.serving) (hk : s.chip.twin.keepLow = some e) :
    (e + 3 ≤ s.clk.ticks →
      ∃ t, exec .claimResume s = .next t ∧ s.Holds t ∧ t.chip.twin.keepLow = none ∧ t.chip.twin.peer = false ∧
        (s.chip.twin.role = .lit → s.chip.shaded = false → s.chip.port.vioLost = false → t.chip.twin.claim = true)) ∧
    (s.clk.ticks < e + 3 → exec .claimResume s = .next s) := by
  refine ⟨fun he => ?_, fun he => ?_⟩
  · have hexec : exec .claimResume s = .next { s with chip :=
        ((s.chip.setPeer false).onTwin fun x => { x with keepLow := none }).syncClaim s.clk } := by
      refine congrArg Host.Outcome.next ((hs.act _).trans ?_)
      rw [hk]
      dsimp only
      rw [if_pos he]
    have htwin := ((s.chip.setPeer false).onTwin fun x => { x with keepLow := none }).syncClaim_twin s.clk
    have hpeer := s.chip.setPeer_twin false
    refine ⟨_, hexec, holds_of_coreEdge rfl hexec, congrArg Twin.keepLow htwin, ?_, fun hr hsh hv => (congrArg Twin.claim htwin).trans ?_⟩
    · exact (congrArg Twin.peer htwin).trans (congrArg Twin.peer hpeer)
    · obtain ⟨hrun, -⟩ := id hs
      exact Chip.wantClaim_resumed hr hsh hv hrun
  · refine congrArg Host.Outcome.next (State.act_same ?_)
    rw [hk]
    dsimp only
    rw [if_neg (by omega)]

namespace Chip

/-- Blocks that wake leave everything but the power manager. -/
theorem wakeOutputs_only (c : Chip) (k : Clock) : ∃ p, c.wakeOutputs k = { c with pow := p } := by
  unfold wakeOutputs
  generalize nightBlocks = l
  suffices h : ∀ d : Chip, (∃ p, d = { c with pow := p }) → ∃ p, l.foldl (fun c i =>
      if (blkUpTx i || blkDropTx i) && c.blk i == .dusk then c.beginWake i k.evc else c) d = { c with pow := p } from h c ⟨c.pow, rfl⟩
  induction l with
  | nil => exact fun _ h => h
  | cons i l ih =>
    rintro _ ⟨p, rfl⟩
    refine ih _ ?_
    dsimp only
    split
    · unfold beginWake
      split
      · exact ⟨p, rfl⟩
      · exact ⟨_, rfl⟩
    · exact ⟨p, rfl⟩
theorem wantClaim_lightDue {c : Chip} (hl : c.twin.lightDue = true) (hv : c.port.vioLost = false) : c.wantClaim = true := by
  simp [wantClaim, hl, hv]

/-- What a condition source that is absent leaves: every word outside the collector's tables. -/
structure Hushed (z c : Chip) : Prop where
  twin : c.twin = z.twin
  live : c.heath.live = z.heath.live
  wf : z.heath.status.wf = true → c.heath.status.wf = true
  stat : z.heath.status.wf = true → ∀ g : Fld, g.fits = true → g.tab ≠ 0x60 → ∀ q < 4096, c.st g q = z.st g q

theorem Hushed.setCond {z c : Chip} (k : Clock) {s : Nat} {b : Bool} (hs : s < 384) (hb : b = false) (h : Hushed z c) : Hushed z (c.setCond k s b) := by
  subst hb
  have hput : Hushed z ((c.onCol fun x => { x with cond := without s x.cond }).setSt FSRC.COND s 0) :=
    ⟨(setSt_twin ..).trans h.twin, ((Keeps.refl (c.onCol _)).setSt FSRC.COND s 0).live.trans h.live, fun hw => setSt_wf _ _ _ _ (h.wf hw), fun hw g hg ht q hq =>
      (st_setSt_other (c := c.onCol _) 0 (h.wf hw) hg rfl hq (by omega) (.inl ht)).trans (h.stat hw g hg ht q hq)⟩
  unfold Chip.setCond
  extract_lets was d
  rw [if_neg (by simp)]
  unfold d
  split
  · exact h
  · exact hput

/-- A shadow that meets every condition and arms stays armed. -/
theorem arms {c : Chip} (k : Clock) (hw : c.heath.status.wf = true) (harm : c.armable = true) (hcomp : c.compatible = true)
    (hlag : c.st TWIN.BANKLAG 0 ≤ 4) (hdig : c.twin.digestBad = false) (hfar : c.twin.farTicks.hi < 8) :
    (((c.setSt TWIN.ARMED 0 1).cause k .twin 0 8).syncTwin k).twin = c.twin ∧
      (((c.setSt TWIN.ARMED 0 1).cause k .twin 0 8).syncTwin k).st TWIN.ARMED 0 = 1 ∧
      (((c.setSt TWIN.ARMED 0 1).cause k .twin 0 8).syncTwin k).hasCause .twin 0 3 := by
  have hw₁ := setSt_wf c TWIN.ARMED 0 1 hw
  have hcause : ((c.setSt TWIN.ARMED 0 1).cause k .twin 0 8).hasCause .twin 0 3 := hasCause_cause .twin 0 8 3 hw₁ rfl (by decide) rfl
  have hst : ∀ g : Fld, g.fits = true → g.apart TWIN.ARMED = true → g.apart TWIN.CAUSE = true →
      ((c.setSt TWIN.ARMED 0 1).cause k .twin 0 8).st g 0 = c.st g 0 := fun g hg h₁ h₂ => by
    rw [st_cause_orSt]
    exact (st_setSt_other _ hw₁ hg rfl (by decide) (by decide) (.inr (.inr h₂))).trans
      (st_setSt_other _ hw hg rfl (by decide) (by decide) (.inr (.inr h₁)))
  have hset : ((c.setSt TWIN.ARMED 0 1).cause k .twin 0 8).st TWIN.ARMED 0 = 1 := by
    rw [st_cause_orSt]
    exact (st_setSt_other (f := TWIN.ARMED) _ hw₁ rfl rfl (by decide) (by decide) (.inr (.inr rfl))).trans (st_setSt_same _ _ _ _ hw (by decide))
  have hwa := cause_wf _ k .twin 0 8 hw₁
  have htwin : ((c.setSt TWIN.ARMED 0 1).cause k .twin 0 8).twin = c.twin := by simp
  have hcol : ((c.setSt TWIN.ARMED 0 1).cause k .twin 0 8).col = c.col := by simp
  have hlink := hst TWIN.LINKUP rfl rfl rfl
  have hok := hst TWIN.COMPATOK rfl rfl rfl
  have hprole := hst TWIN.PEERROLE rfl rfl rfl
  have hpcompat := hst TWIN.PEERCOMPAT rfl rfl rfl
  have hblag := hst TWIN.BANKLAG rfl rfl rfl
  generalize (c.setSt TWIN.ARMED 0 1).cause k .twin 0 8 = a at *
  have ha : a.armable = true := by
    unfold armable at harm ⊢
    rw [htwin, hcol, hlink, hok, hprole]
    exact harm
  have hac : a.compatible = true := by
    unfold compatible at hcomp ⊢
    rw [htwin, hpcompat]
    exact hcomp
  simp only [armable, Bool.and_eq_true, decide_eq_true_eq, beq_iff_eq] at harm
  obtain ⟨⟨⟨⟨⟨⟨hr, hl⟩, -⟩, -⟩, -⟩, -⟩, -⟩ := harm
  unfold syncTwin
  extract_lets t pair c₁ c₂ c₃ c₄ c₅
  have h₁ : Hushed a c₁ := by
    unfold c₁
    rw [if_pos ha]
    exact ⟨rfl, rfl, id, fun _ _ _ _ _ _ => rfl⟩
  have hc₁ : c₁ = a := if_pos ha
  have h₂ : Hushed a c₂ := h₁.setCond k (by decide) (by rw [hc₁, hlink, hl]; simp)
  have hl₂ := h₂.stat hwa TWIN.PEERCOMPAT rfl (by decide) 0 (by decide)
  have h₃ : Hushed a c₃ := h₂.setCond k (by decide) (by
    have e : c₂.compatible = true := by
      unfold compatible at hac ⊢
      rw [hl₂, h₂.twin]
      exact hac
    rw [e]
    simp)
  have ht : t = c.twin := htwin
  have h₄ : Hushed a c₄ := h₃.setCond k (by decide) (by simp [ht, hr])
  have h₅ : Hushed a c₅ := h₄.setCond k (by decide) (by
    rw [h₄.stat hwa TWIN.BANKLAG rfl (by decide) 0 (by decide), hblag, ht, hdig]
    simp [hlag])
  have h₆ := h₅.setCond (s := 277) (b := c₅.st TWIN.ARMED 0 == 1 && decide (8 ≤ t.farTicks.hi)) k (by decide) (by simp [ht, hfar])
  refine ⟨h₆.twin.trans htwin, (h₆.stat hwa TWIN.ARMED rfl (by decide) 0 (by decide)).trans hset, ?_⟩
  exact (congrArg (Nat.testBit · 3) (h₆.stat hwa TWIN.CAUSE rfl (by decide) 0 (by decide))).trans hcause

end Chip

theorem peerClaimLoss_spec (s : State) (hs : s.serving) (ha : s.chip.st TWIN.ARMED 0 = 1) (hl : s.chip.twin.lightDue = false)
    (hv : s.chip.port.vioLost = false) :
    ∃ t, exec .peerClaimLoss s = .next t ∧ s.Holds t ∧ t.chip.twin.lightDue = true ∧ t.chip.twin.peer = false ∧
      t.chip.twin.claim = true ∧ t.chip.twin.role = s.chip.twin.role := by
  obtain ⟨p, hp⟩ := (((s.chip.setPeer false).onTwin fun t => { t with lightDue := true }).syncClaim s.clk).wakeOutputs_only s.clk
  have htwin := ((s.chip.setPeer false).onTwin fun t => { t with lightDue := true }).syncClaim_twin s.clk
  have hpeer : (s.chip.setPeer false).twin.peer = false := by rw [Chip.setPeer_twin]
  have hrole : (s.chip.setPeer false).twin.role = s.chip.twin.role := by rw [Chip.setPeer_twin]
  have hclaim : ((s.chip.setPeer false).onTwin fun t => { t with lightDue := true }).wantClaim = true :=
    Chip.wantClaim_lightDue rfl (by simpa [Chip.setPeer, Chip.onTwin] using hv)
  have hexec : exec .peerClaimLoss s = .next { s with chip :=
      (((s.chip.setPeer false).onTwin fun t => { t with lightDue := true }).syncClaim s.clk).wakeOutputs s.clk } := by
    refine congrArg Host.Outcome.next ((hs.act _).trans ?_)
    rw [if_pos (by simp [ha, hl])]
  rw [hp] at hexec
  refine ⟨_, hexec, holds_of_coreEdge rfl hexec, congrArg Twin.lightDue htwin, ?_, (congrArg Twin.claim htwin).trans hclaim, ?_⟩
  · exact (congrArg Twin.peer htwin).trans hpeer
  · exact (congrArg Twin.role htwin).trans hrole

theorem armed_spec (s : State) (hs : s.serving) (ha : s.chip.st TWIN.ARMED 0 = 0) :
    (s.chip.armable = true → s.chip.compatible = true → s.chip.st TWIN.BANKLAG 0 ≤ 4 → s.chip.twin.digestBad = false →
      s.chip.twin.farTicks.hi < 8 →
      ∃ t, exec .armed s = .next t ∧ s.Holds t ∧ t.chip.st TWIN.ARMED 0 = 1 ∧ t.chip.hasCause .twin 0 3 ∧
        t.chip.twin = s.chip.twin) ∧
    (s.chip.armable = false → exec .armed s = .next s) := by
  refine ⟨fun harm hcomp hlag hdig hfar => ?_, fun harm => ?_⟩
  · have hexec : exec .armed s = .next { s with chip := ((s.chip.setSt TWIN.ARMED 0 1).cause s.clk .twin 0 8).syncTwin s.clk } := by
      refine congrArg Host.Outcome.next ((hs.act _).trans ?_)
      rw [if_pos (by simp [harm, ha])]
    obtain ⟨htwin, hst, hcause⟩ := Chip.arms s.clk hs.wf harm hcomp hlag hdig hfar
    exact ⟨_, hexec, holds_of_coreEdge rfl hexec, hst, hcause, htwin⟩
  · refine congrArg Host.Outcome.next (State.act_same ?_)
    rw [if_neg (by simp [harm])]

/-- Settles O57: the claims, their ends and what arms the shadow. -/
theorem claims : Obligations.Claims := by
  unfold Obligations.Claims
  refine ⟨fun hi e s hs hr hq hl => ⟨tentativeClaimEnd_spec hi e s hs hr hq hl, tentativeClaimLost_spec e s hs hr hq hl⟩, roleClash_spec,
    peerClaimLoss_spec, claimResume_spec, armed_spec⟩

end Sys2Proof.Machine
end

section
/-! PROOFS. A part changes role on a tick boundary (R380, R398 to R401, Table 15.3). -/

namespace Sys2Proof.Machine
open Sys2Proof

namespace Chip

/-! ### What the lighting does to the blocks -/

theorem Rides.enterUp {z c : Chip} (k : Clock) (d : Nat) (hd : d < 4096) (h : Rides z c) : Rides z (c.enterUp k d) := by
  unfold Chip.enterUp
  exact .setDropDefs k d _ hd (.cause k .drop d _ rfl (Fld.lt_reach (by omega)) (.setPs k d .up hd (.onD d _ h)))
theorem Rides.twinCount {z c : Chip} (f : Fld) (v : Nat) (hf : f.besideSeat = true) (h : Rides z c) : Rides z (c.addSt f 0 v) := .setSt_beside f _ hf h

theorem Rides.keptItems {z c : Chip} (k : Clock) (h : Rides z c) : Rides z (Machine.overN 256 (fun t c => [false, true].foldl (fun c up =>
    if c.items t up = [] then c else (c.items t up).foldl (fun c it => c.lightItem k it) (c.setItems t up [])) c) c) :=
  .overN 256 h fun t _ _ ha => .foldl _ ha fun _ up _ hb => .ite hb (.foldl _ (.setItems t up [] hb) fun _ it _ hc => .lightItem k it hc)
theorem Rides.lostItems {z c : Chip} (k : Clock) (l : List (Desc × Nat)) (h : Rides z c) : Rides z (l.foldl (fun c (d, i) =>
    ((c.countDisc d.trib d.up cTakeover).addSt TWIN.FAILED 0 1).failRecord k QUEUE.FRTKO cTakeover d.trib d.up d.cell d.len d.stamp
      (k.evc + 2048 + 4 * i)) c) :=
  .foldl l h fun _ _ _ ha => .failRecord k QUEUE.FRTKO cTakeover _ _ _ _ _ _ (.twinCount TWIN.FAILED 1 rfl (.countDisc _ _ _ ha))

/-- The items of a shadow at its lighting: no descriptor is left. -/
theorem lightItems_seats {z c : Chip} (k : Clock) (h : Seats z c) : Seats z (c.lightItems k) ∧ (c.lightItems k).office = { c.office with adds := [] } := by
  unfold lightItems
  extract_lets c₁ lost c₂ c₃
  have h₁ : Rides c c₁ := .keptItems k (.refl c)
  have h₂ : Rides c c₂ := .lostItems k _ h₁
  have h₃ : Seats z c₃ := (h.rides h₂).onTwin _
  have o₃ : c₃.office = { c.office with adds := [] } := congrArg (fun o : Office => { o with adds := [] }) h₂.office
  clear_value c₃
  split
  · exact ⟨h₃, o₃⟩
  · have hev : Rides c₃ (c₃.srcEvent k 279) := .srcEvent k 279 (by decide) (.refl _)
    exact ⟨h₃.rides hev, hev.office.trans o₃⟩

theorem Rides.sendAdds {z c : Chip} (l : List Item) (h : Rides z c) : ∀ m : List Item, Rides z (l.foldl (fun (p : List Item × Chip) it =>
    (p.1 ++ [{ it with seq := some p.2.sendAdd.1 }], p.2.sendAdd.2)) (m, c)).2 := by
  induction l generalizing c with
  | nil => exact fun _ => h
  | cons it l ih => exact fun m => ih (.sendAdd h) _
theorem Rides.mirrorItems {z c : Chip} (h : Rides z c) : Rides z (Machine.overN 256 (fun t c => [false, true].foldl (fun c up =>
    let (l, c) := (c.items t up).foldl (fun (p : List Item × Chip) it =>
      (p.1 ++ [{ it with seq := some p.2.sendAdd.1 }], p.2.sendAdd.2)) ([], c)
    c.setItems t up l) c) c) :=
  .overN 256 h fun t _ _ ha => .foldl _ ha fun b up _ hb => .setItems t up _ (.sendAdds (b.items t up) hb [])
theorem startMirror_seats {z c : Chip} (h : Seats z c) : Seats z c.startMirror ∧ c.startMirror.office = c.office := by
  unfold startMirror
  split
  · have hitems : Rides (c.onTwin fun t => { t with backlog := fullBank }) _ := .mirrorItems (.refl _)
    exact ⟨(h.onTwin _).rides hitems, hitems.office⟩
  · exact ⟨h, rfl⟩

/-- The drops of a part that lights. -/
def lightDrop (k : Clock) (d : Nat) (c : Chip) : Chip :=
  if !c.on DROP.EN d || (c.d d).ps == .off then c
  else if (c.d d).ps = .listen ∧ (c.d d).rx = .sync ∧ c.shaded = false then c.enterUp k d
  else c.startDrop k d
theorem Rides.lightDrops {z c : Chip} (k : Clock) (h : Rides z c) : Rides z (Machine.overN 96 (lightDrop k) c) := by
  refine .overN 96 h fun d hd a ha => ?_
  unfold lightDrop
  split
  · exact ha
  · split
    · exact .enterUp k d (by omega) ha
    · exact .startDrop k d (by omega) ha

/-- The part that lights before its banks move: its role, and what its request becomes. -/
def risen (c : Chip) (k : Clock) (why : Nat) : Chip :=
  let c := (c.disarm k).setRole k .lit
  let c := match why with
    | 0 => (c.addSt TWIN.TAKEOVERS 0 1).cause k .twin 0 32
    | 2 => c.addSt TWIN.HANDOVERS 0 1
    | _ => c
  if c.twin.req.isSome then c.settleReq k rqGranted else if why = 2 then c.reqCause k else c
/-- Its banks move. -/
def promoted (c : Chip) : Chip :=
  (c.onHeath (fun h => { h with staged := h.live, upsets := h.upsets.filter (fun u => u.bank != 0) })).endAttach
/-- What follows in the blocks. -/
def lit (c : Chip) (k : Clock) (was : Bool) : Chip :=
  let c := (c.restand k none).setSt TWIN.MIRLOSS 0 0
  ((((Machine.overN 96 (lightDrop k) (c.lightItems k)).afterRole k was).startMirror).nightLate k).dropAllHeads k

theorem lit_seats (c : Chip) (k : Clock) (was : Bool) : Seats c (c.lit k was) ∧ (c.lit k was).office = { c.office with adds := [] } := by
  unfold lit
  extract_lets d
  have hd : Rides c d := .setSt_beside TWIN.MIRLOSS 0 rfl (.restand k none (.refl c))
  have od := hd.office
  clear_value d
  obtain ⟨h₁, o₁⟩ := lightItems_seats k hd.seats
  generalize d.lightItems k = d₁ at h₁ o₁
  have r₂ : Rides d₁ _ := .lightDrops k (.refl d₁)
  generalize Machine.overN 96 (lightDrop k) d₁ = d₂ at r₂
  have h₃ := afterRole_seats k was (h₁.rides r₂)
  have o₃ := afterRole_office d₂ k was
  generalize d₂.afterRole k was = d₃ at h₃ o₃
  obtain ⟨h₄, o₄⟩ := startMirror_seats h₃
  generalize d₃.startMirror = d₄ at h₄ o₄
  have r₅ : Rides d₄ ((d₄.nightLate k).dropAllHeads k) := .dropAllHeads k (.wakeLate k _ (.refl d₄))
  refine ⟨h₄.rides r₅, r₅.office.trans (o₄.trans (o₃.trans (r₂.office.trans (o₁.trans ?_))))⟩
  rw [od]

/-- What the change of role leaves and writes. -/
structure RoleSet (z c : Chip) : Prop extends Keeps z c where
  role : c.twin.role = .lit
  light : c.twin.lightDue = false
  req : c.twin.req = z.twin.req
  unarmed : z.heath.status.wf = true → c.st TWIN.ARMED 0 = 0

theorem disarm_unarmed {c : Chip} (k : Clock) (hw : c.heath.status.wf = true) : (c.disarm k).st TWIN.ARMED 0 = 0 := by
  unfold disarm
  split
  · rw [st_cause_orSt]
    exact (st_setSt_other (f := TWIN.ARMED) _ (setSt_wf _ _ _ _ hw) rfl rfl (by decide) (by decide) (.inr (.inr rfl))).trans
      (st_setSt_same _ _ _ _ hw (by decide))
  next h =>
    have hlt : c.st TWIN.ARMED 0 < 2 ^ 1 := Fld.get_lt TWIN.ARMED _
    omega
theorem roleSet_of (c : Chip) (k : Clock) : RoleSet c ((c.disarm k).setRole k .lit) ∧
    (c.heath.status.wf = true → ((c.disarm k).setRole k .lit).st TWIN.TAKEOVERS 0 = c.st TWIN.TAKEOVERS 0) := by
  have hd : Rides c (c.disarm k) := .disarm k (.refl c)
  have htwin := (c.disarm k).setRole_twin k .lit
  have hreq : (c.disarm k).twin.req = c.twin.req := congrArg Office.req hd.office
  have hset := (Seats.refl (c.disarm k)).setRole k .lit
  have hall := hd.seats.setRole k .lit
  refine ⟨{ hall.toKeeps with
      role := congrArg Twin.role htwin, light := congrArg Twin.lightDue htwin
      req := (congrArg Twin.req htwin).trans hreq, unarmed := fun hw => ?_ }, fun hw => hall.stat hw TWIN.TAKEOVERS (by decide)⟩
  exact hset.armed (hd.wf hw) (disarm_unarmed k hw)

/-- What a part leaves and writes as it rises, and what it counts where its peer is lost. -/
structure Risen (z c : Chip) : Prop extends Keeps z c where
  role : c.twin.role = .lit
  light : c.twin.lightDue = false
  req : c.twin.req = none
  unarmed : z.heath.status.wf = true → c.st TWIN.ARMED 0 = 0

/-- The request of a part that rises is settled. -/
theorem risen_settled {z c : Chip} (k : Clock) (h : RoleSet z c) : Risen z (if c.twin.req.isSome then c.settleReq k rqGranted else c) := by
  split
  · have htwin := c.settleReq_twin k rqGranted
    refine { h.toKeeps.settleReq k rqGranted with
      role := (congrArg Twin.role htwin).trans h.role, light := (congrArg Twin.lightDue htwin).trans h.light
      req := congrArg Twin.req htwin, unarmed := fun hw => ?_ }
    refine (st_settleReq (h.wf hw) rfl rfl).trans ?_
    exact (st_setSt_other _ (h.wf hw) rfl rfl (by decide) (by decide) (.inr (.inr rfl))).trans (h.unarmed hw)
  next hn => exact { h with req := by simpa using hn }

/-- A takeover is counted. -/
def tookOver (c : Chip) (k : Clock) : Chip := (c.addSt TWIN.TAKEOVERS 0 1).cause k .twin 0 32
theorem tookOver_spec {z c : Chip} (k : Clock) (h : RoleSet z c) (hw : z.heath.status.wf = true)
    (hcount : c.st TWIN.TAKEOVERS 0 = z.st TWIN.TAKEOVERS 0) :
    RoleSet z (c.tookOver k) ∧ (c.tookOver k).st TWIN.TAKEOVERS 0 = wrapAdd TWIN.TAKEOVERS.width (z.st TWIN.TAKEOVERS 0) 1 ∧
      (c.tookOver k).hasCause .twin 0 5 := by
  have hw₁ : (c.addSt TWIN.TAKEOVERS 0 1).heath.status.wf = true := setSt_wf _ _ _ _ (h.wf hw)
  have htwin : (c.tookOver k).twin = c.twin := by simp [tookOver]
  have hst : ∀ g : Fld, g.fits = true → g.apart TWIN.CAUSE = true → (c.tookOver k).st g 0 = (c.addSt TWIN.TAKEOVERS 0 1).st g 0 := fun g hg hc =>
    (st_cause_orSt ..).trans (st_setSt_other _ hw₁ hg rfl (by decide) (by decide) (.inr (.inr hc)))
  refine ⟨{ (h.toKeeps.addSt _ _ _).cause k .twin 0 32 with
      role := (congrArg Twin.role htwin).trans h.role, light := (congrArg Twin.lightDue htwin).trans h.light
      req := (congrArg Twin.req htwin).trans h.req, unarmed := fun hw => ?_ }, ?_, hasCause_cause .twin 0 32 5 hw₁ rfl (by decide) rfl⟩
  · refine (hst TWIN.ARMED rfl rfl).trans ?_
    exact (st_setSt_other _ (h.wf hw) rfl rfl (by decide) (by decide) (.inr (.inr rfl))).trans (h.unarmed hw)
  · rw [hst TWIN.TAKEOVERS rfl rfl, st_addSt_same _ _ _ _ (h.wf hw) (by decide), hcount]
    rfl

/-- Why a shadow lights on a boundary: on the loss of its peer, or by its claim. -/
def lightsBy (c : Chip) : Nat := match c.twin.req with
  | some (.tentative _) => 1
  | _ => 0
theorem risen_spec (c : Chip) (k : Clock) (hw : c.heath.status.wf = true) : Risen c (c.risen k c.lightsBy) ∧
    (c.twin.req = none → (c.risen k c.lightsBy).st TWIN.TAKEOVERS 0 = wrapAdd TWIN.TAKEOVERS.width (c.st TWIN.TAKEOVERS 0) 1 ∧
      (c.risen k c.lightsBy).hasCause .twin 0 5) := by
  obtain ⟨hset, hcount⟩ := roleSet_of c k
  obtain ⟨htook, hnum, hcause⟩ := tookOver_spec k hset hw (hcount hw)
  have hby : c.lightsBy = 1 ∨ c.lightsBy = 0 := by
    unfold lightsBy
    split
    · exact .inl rfl
    · exact .inr rfl
  rcases hby with h | h
  · have hform : c.risen k c.lightsBy = if ((c.disarm k).setRole k .lit).twin.req.isSome then ((c.disarm k).setRole k .lit).settleReq k rqGranted
        else (c.disarm k).setRole k .lit := by
      rw [h]
      rfl
    rw [hform]
    refine ⟨risen_settled k hset, fun hn => ?_⟩
    rw [lightsBy, hn] at h
    contradiction
  · have hform : c.risen k c.lightsBy = if (((c.disarm k).setRole k .lit).tookOver k).twin.req.isSome then
        (((c.disarm k).setRole k .lit).tookOver k).settleReq k rqGranted else ((c.disarm k).setRole k .lit).tookOver k := by
      rw [h]
      rfl
    rw [hform]
    refine ⟨risen_settled k htook, fun hn => ?_⟩
    rw [if_neg (by rw [htook.req, hn]; decide)]
    exact ⟨hnum, hcause⟩

end Chip

theorem shadowLights_due (s : State) (hs : s.serving) (hi : s.clk.idx = 0) (hr : s.chip.twin.role = .shadow) (hh : s.chip.twin.handLight = none)
    (hl : s.chip.twin.lightDue = true) (hc : s.chip.col.shade = false) :
    ∃ t, exec .shadowLights s = .next t ∧ t.pending = s.pending ∧ t.clk = s.clk ∧ t.chip.twin.role = .lit ∧
      t.chip.heath.staged = s.chip.heath.live ∧ t.chip.heath.live = s.chip.heath.live ∧ t.chip.boot = s.chip.boot ∧
      t.chip.port = s.chip.port ∧ t.chip.st TWIN.ARMED 0 = 0 ∧ t.chip.twin.adds = [] ∧ t.chip.twin.req = none ∧
      t.chip.twin.lightDue = false ∧
      (s.chip.twin.req = none →
        t.chip.st TWIN.TAKEOVERS 0 = wrapAdd TWIN.TAKEOVERS.width (s.chip.st TWIN.TAKEOVERS 0) 1 ∧ t.chip.hasCause .twin 0 5) := by
  have hexec : exec .shadowLights s = .next { s with chip := (s.chip.risen s.clk s.chip.lightsBy).promoted.lit s.clk s.chip.shaded } := by
    refine congrArg Host.Outcome.next ((hs.actBoundary _ hi).trans ?_)
    rw [if_neg (by simp [hr]), if_neg (by simp [hc]), hh]
    dsimp only
    rw [if_pos hl]
    rfl
  obtain ⟨hrisen, hloss⟩ := s.chip.risen_spec s.clk hs.wf
  generalize s.chip.risen s.clk s.chip.lightsBy = d at hexec hrisen hloss
  obtain ⟨hseats, hoffice⟩ := d.promoted.lit_seats s.clk s.chip.shaded
  generalize d.promoted.lit s.clk s.chip.shaded = e at hexec hseats hoffice
  have hw : d.promoted.heath.status.wf = true := hrisen.wf hs.wf
  have hrole : e.twin.role = .lit := (congrArg Chip.Office.role hoffice).trans hrisen.role
  have hreq : e.twin.req = none := (congrArg Chip.Office.req hoffice).trans hrisen.req
  have hlight : e.twin.lightDue = false := (congrArg Chip.Office.lightDue hoffice).trans hrisen.light
  refine ⟨_, hexec, rfl, rfl, hrole, hseats.staged.trans hrisen.live, hseats.live.trans hrisen.live, hseats.boot.trans hrisen.boot,
    hseats.port.trans hrisen.port, hseats.armed hw (hrisen.unarmed hs.wf), congrArg Chip.Office.adds hoffice, hreq, hlight, fun hn => ?_⟩
  obtain ⟨hcount, hcause⟩ := hloss hn
  exact ⟨(hseats.stat hw TWIN.TAKEOVERS (by decide)).trans hcount, hseats.marks hw 5 hcause⟩

namespace Chip

/-- A lighting that is due is given up. -/
def dropLight (c : Chip) : Chip := c.onTwin fun t => { t with lightDue := false, handLight := none }
/-- What a part that gives up leaves. -/
structure GaveUp (z c : Chip) : Prop extends Keeps z c where
  role : c.twin.role = z.twin.role
  light : c.twin.lightDue = false
  settled : z.heath.status.wf = true → ∀ e, z.twin.req = some (.tentative e) → c.twin.req = none ∧ c.st TWIN.RQRES 0 = rqShade

theorem gaveUp_of (c : Chip) (k : Clock) (hl : c.twin.lightDue = true) : GaveUp c (c.giveUp k) := by
  have hclaim : ∀ {z d : Chip}, GaveUp z d → GaveUp z (d.syncClaim k) := fun {z d} h => by
    have hcalm : Calm d (d.syncClaim k) := .syncClaim k (.refl d)
    obtain ⟨hrole, -, hreq, hlight, -⟩ := hcalm.seat
    refine { h.toKeeps.syncClaim k with
      role := hrole.trans h.role, light := hlight.trans h.light, settled := fun hw e he => ?_ }
    obtain ⟨hn, hcode⟩ := h.settled hw e he
    exact ⟨hreq.trans hn, (hcalm.stat (h.wf hw) TWIN.RQRES 0 rfl (by decide)).trans hcode⟩
  unfold giveUp
  rw [if_pos (by simp [hl])]
  refine hclaim ?_
  have hkeep : Keeps c c.dropLight := (Keeps.refl c).onTwin _
  have hset : GaveUp c (c.dropLight.settleReq k rqShade) := by
    have htwin := c.dropLight.settleReq_twin k rqShade
    exact { hkeep.settleReq k rqShade with
      role := by rw [htwin]; rfl
      light := by rw [htwin]; rfl
      settled := fun hw _ _ => ⟨congrArg Twin.req htwin, settleReq_code (c := c.dropLight) hw (by decide)⟩ }
  cases hq : c.twin.req with
  | none =>
    have hsame : GaveUp c c.dropLight := { hkeep with role := rfl, light := rfl, settled := fun _ e he => by rw [hq] at he; cases he }
    have hd : c.dropLight.twin.req = none := hq
    unfold dropLight at hd hsame
    rw [hd]
    exact hsame
  | some r =>
    have hd : c.dropLight.twin.req = some r := hq
    cases r with
    | leave =>
      have hsame : GaveUp c c.dropLight := { hkeep with role := rfl, light := rfl, settled := fun _ e he => by rw [hq] at he; cases he }
      unfold dropLight at hd hsame
      rw [hd]
      exact hsame
    | tentative e =>
      unfold dropLight at hd hset
      rw [hd]
      exact hset
    | handover e l =>
      unfold dropLight at hd hset
      rw [hd]
      exact hset

end Chip

theorem shadowLights_shaded (s : State) (hs : s.serving) (hi : s.clk.idx = 0) (hr : s.chip.twin.role = .shadow)
    (hl : s.chip.twin.lightDue = true) (hc : s.chip.col.shade = true) :
    ∃ t, exec .shadowLights s = .next t ∧ t.pending = s.pending ∧ t.clk = s.clk ∧ t.chip.twin.role = .shadow ∧
      t.chip.twin.lightDue = false ∧ t.chip.heath.staged = s.chip.heath.staged ∧ t.chip.heath.live = s.chip.heath.live ∧
      (∀ e, s.chip.twin.req = some (.tentative e) → t.chip.twin.req = none ∧ t.chip.st TWIN.RQRES 0 = rqShade) := by
  have hexec : exec .shadowLights s = .next { s with chip := s.chip.giveUp s.clk } := by
    refine congrArg Host.Outcome.next ((hs.actBoundary _ hi).trans ?_)
    rw [if_neg (by simp [hr]), if_pos hc]
  have h := s.chip.gaveUp_of s.clk hl
  generalize s.chip.giveUp s.clk = d at hexec h
  exact ⟨_, hexec, rfl, rfl, h.role.trans hr, h.light, h.staged, h.live, h.settled hs.wf⟩

theorem shadowLights_idle (s : State) (hr : s.chip.twin.role = .shadow) (hh : s.chip.twin.handLight = none)
    (hl : s.chip.twin.lightDue = false) : exec .shadowLights s = .next s := by
  refine congrArg Host.Outcome.next (State.actBoundary_same ?_)
  rw [if_neg (by simp [hr])]
  split
  · exact if_neg (by simp [hl, hh])
  · rw [hh]
    dsimp only
    rw [hl, if_neg (by decide)]

/-! ### The lit part steps down, and hands over -/

theorem litStepDown_spec (s : State) (hs : s.serving) (hi : s.clk.idx = 0) (hr : s.chip.twin.role = .lit) (hk : s.chip.twin.keepLow ≠ none) :
    ∃ t, exec .litStepDown s = .next t ∧ s.Holds t ∧ t.chip.twin.role = .shadow ∧ t.chip.twin.peer = true ∧ t.chip.shaded = true := by
  have hexec : exec .litStepDown s = .next { s with chip := (s.chip.setPeer true).becomeShadow s.clk } := by
    refine congrArg Host.Outcome.next ((hs.actBoundary _ hi).trans ?_)
    rw [if_pos (by simp [hr, Option.isSome_iff_ne_none, hk])]
  have hoffice := (s.chip.setPeer true).becomeShadow_office s.clk
  have hpeer : (s.chip.setPeer true).twin.peer = true := by rw [Chip.setPeer_twin]
  generalize (s.chip.setPeer true).becomeShadow s.clk = d at hexec hoffice
  have hrole : d.twin.role = .shadow := congrArg Chip.Office.role hoffice
  have hp : d.twin.peer = true := (congrArg Chip.Office.peer hoffice).trans hpeer
  exact ⟨_, hexec, holds_of_coreEdge rfl hexec, hrole, hp, by simp [Chip.shaded, hrole]⟩

theorem handover_granted (e : Nat) (l : Option Nat) (s : State) (hs : s.serving) (hi : s.clk.idx = 0) (hr : s.chip.twin.role = .lit)
    (hq : s.chip.twin.req = some (.handover e l)) (hf : s.clk.superframe = true) (he : e + 2 * 125000 ≤ s.clk.pos)
    (hb : s.chip.st TWIN.BANKLAG 0 = 0) :
    ∃ t, exec .handover s = .next t ∧ s.Holds t ∧ t.chip.twin.role = .shadow ∧ t.chip.twin.req = none ∧
      t.chip.st TWIN.RQRES 0 = rqGranted ∧ t.chip.st TWIN.HANDOVERS 0 = wrapAdd TWIN.HANDOVERS.width (s.chip.st TWIN.HANDOVERS 0) 1 := by
  have hexec : exec .handover s = .next { s with chip := ((s.chip.becomeShadow s.clk).addSt TWIN.HANDOVERS 0 1).settleReq s.clk rqGranted } := by
    refine congrArg Host.Outcome.next ((hs.actBoundary _ hi).trans ?_)
    rw [hq]
    dsimp only
    rw [if_pos hr, if_pos (by simp [hf, hb]; exact he)]
  have hseats := Chip.becomeShadow_seats s.clk (.refl s.chip)
  have hoffice := s.chip.becomeShadow_office s.clk
  generalize s.chip.becomeShadow s.clk = d at hexec hseats hoffice
  have hw := hseats.wf hs.wf
  have hw₁ : (d.addSt TWIN.HANDOVERS 0 1).heath.status.wf = true := Chip.setSt_wf _ _ _ _ hw
  have htwin := (d.addSt TWIN.HANDOVERS 0 1).settleReq_twin s.clk rqGranted
  have hd : (d.addSt TWIN.HANDOVERS 0 1).twin = d.twin := by simp
  have hcount : ((d.addSt TWIN.HANDOVERS 0 1).settleReq s.clk rqGranted).st TWIN.HANDOVERS 0 =
      wrapAdd TWIN.HANDOVERS.width (s.chip.st TWIN.HANDOVERS 0) 1 := by
    rw [Chip.st_settleReq hw₁ rfl rfl]
    refine (Chip.st_setSt_other _ hw₁ rfl rfl (by decide) (by decide) (.inr (.inr rfl))).trans ?_
    rw [Chip.st_addSt_same _ _ _ _ hw (by decide), hseats.stat hs.wf TWIN.HANDOVERS (by decide)]
    rfl
  refine ⟨_, hexec, holds_of_coreEdge rfl hexec, ?_, congrArg Twin.req htwin, Chip.settleReq_code hw₁ (by decide), hcount⟩
  exact (congrArg Twin.role htwin).trans ((congrArg Twin.role hd).trans (congrArg Chip.Office.role hoffice))

theorem handover_waits (e : Nat) (l : Option Nat) (s : State) (hr : s.chip.twin.role = .lit) (hq : s.chip.twin.req = some (.handover e l))
    (h : s.clk.superframe = false ∨ s.clk.pos < e + 2 * 125000 ∨ s.chip.st TWIN.BANKLAG 0 ≠ 0) : exec .handover s = .next s := by
  refine congrArg Host.Outcome.next (State.actBoundary_same ?_)
  rw [hq]
  dsimp only
  rw [if_pos hr, if_neg]
  simp only [Bool.and_eq_true, decide_eq_true_eq, beq_iff_eq, not_and]
  rintro ⟨hf, he⟩ hb
  rcases h with h | h | h
  · rw [hf] at h
    contradiction
  · exact absurd he (Nat.not_le.mpr h)
  · exact h hb

theorem handover_shadow (e : Nat) (s : State) (hs : s.serving) (hi : s.clk.idx = 0) (hr : s.chip.twin.role = .shadow)
    (hq : s.chip.twin.req = some (.handover e (some (s.chip.lineTick s.clk)))) :
    ∃ t, exec .handover s = .next t ∧ s.OnlyTwin t ∧ t.chip.twin = { s.chip.twin with handLight := some (s.clk.ticks + 1) } := by
  have hexec : exec .handover s = .next { s with chip := s.chip.onTwin fun t => { t with handLight := some (s.clk.ticks + 1) } } := by
    refine congrArg Host.Outcome.next ((hs.actBoundary _ hi).trans ?_)
    rw [hq]
    dsimp only
    rw [if_neg (by simp [hr]), if_pos rfl]
  exact ⟨_, hexec, rfl, rfl⟩

/-- Settles O58: a shadow lights or gives up, the lit part steps down, and the two hand over. -/
theorem roleChanges : Obligations.RoleChanges := by
  unfold Obligations.RoleChanges
  refine ⟨fun s hs hi hr hh => ⟨shadowLights_shaded s hs hi hr, shadowLights_due s hs hi hr hh, shadowLights_idle s hr hh⟩,
    fun s hs hi hr => ⟨litStepDown_spec s hs hi hr, fun hk => ?_, fun e l hq => ⟨handover_granted e l s hs hi hr hq, handover_waits e l s hr hq⟩⟩,
    handover_shadow⟩
  refine congrArg Host.Outcome.next (State.actBoundary_same ?_)
  rw [if_neg (by simp [hk])]

end Sys2Proof.Machine
end

section
/-! PROOFS. The mirrored bank (R387, R388, R394). -/

namespace Sys2Proof.Machine
open Sys2Proof

namespace Chip

/-- What a bank applied through the mirror leaves and writes. -/
structure MirrorOf (b : Bank) (tag : Byte) (z c : Chip) : Prop where
  live : c.heath.live = b
  staged : c.heath.staged = z.heath.staged
  boot : c.boot = z.boot
  port : c.port = z.port
  appTag : c.win.appTag = tag.toNat
  mirTag : z.heath.status.wf = true → c.st TWIN.MIRTAG 0 = tag.toNat
  role : c.twin.role = z.twin.role
  attach : c.twin.attach = z.twin.attach
  fullCopy : c.twin.fullCopy = z.twin.fullCopy

theorem MirrorOf.rides {b : Bank} {tag : Byte} {z c d : Chip} (hw : z.heath.status.wf = true → c.heath.status.wf = true) (h : MirrorOf b tag z c)
    (g : Rides c d) : MirrorOf b tag z d := by
  have e₁ := congrArg Window.appTag g.win
  have e₂ := congrArg Twin.role g.twin
  have e₃ := congrArg Twin.attach g.twin
  have e₄ := congrArg Twin.fullCopy g.twin
  exact ⟨g.live.trans h.live, g.staged.trans h.staged, g.boot.trans h.boot, g.port.trans h.port, Eq.trans e₁ h.appTag,
    fun hz => (g.stat (hw hz) TWIN.MIRTAG (by decide)).trans (h.mirTag hz), Eq.trans e₂ h.role, Eq.trans e₃ h.attach, Eq.trans e₄ h.fullCopy⟩

theorem mirrorOf (c : Chip) (k : Clock) (b : Bank) (tag : Byte) : MirrorOf b tag c (c.mirrorApply k b tag) := by
  unfold mirrorApply
  extract_lets old c₁ c₂
  have hw₂ : c.heath.status.wf = true → c₂.heath.status.wf = true := setSt_wf _ _ _ _
  have htwin : c₂.twin = c.twin := setSt_twin ..
  have h₂ : MirrorOf b tag c c₂ := by
    have hk : Keeps (c₁.onWin fun w => { w with appTag := tag.toNat }) c₂ := (Keeps.refl _).setSt _ _ _
    refine ⟨hk.live, hk.staged, hk.boot, hk.port, congrArg Window.appTag (setSt_win ..), fun hw => ?_, ?_, ?_, ?_⟩
    · exact (st_setSt_same (c₁.onWin fun w => { w with appTag := tag.toNat }) TWIN.MIRTAG 0 _ hw (by decide)).trans (Nat.mod_eq_of_lt tag.isLt)
    · rw [htwin]
    · rw [htwin]
    · rw [htwin]
  clear_value c₂
  have r₃ : Rides c₂ ((c₂.applyBank k old false false c₂.shaded).restand k none) := .restand k none (.applyBank k old _ _ _ (.refl c₂))
  have h₃ := h₂.rides hw₂ r₃
  have hw₃ := fun hz => r₃.wf (hw₂ hz)
  generalize (c₂.applyBank k old false false c₂.shaded).restand k none = c₃ at h₃ hw₃
  have h₄ : MirrorOf b tag c (c₃.onTwin fun t => { t with digestBad := false }) :=
    ⟨h₃.live, h₃.staged, h₃.boot, h₃.port, h₃.appTag, h₃.mirTag, h₃.role, h₃.attach, h₃.fullCopy⟩
  refine MirrorOf.rides ?_ h₄ (.syncTwin k (.refl _))
  exact hw₃

/-- A full copy is a mirrored bank that replaces every table but TWIN's. -/
theorem fullCopy_of (c : Chip) (k : Clock) (runs : List BankRun) (tag : Byte) :
    ∃ d, c.fullCopy k runs tag = d ∧ MirrorOf (withRuns (keepTabs c.heath.live fun x => x == 0x70) runs) tag
      (c.onTwin fun t => { t with fullCopy := true, askCopy := false }) d := ⟨_, rfl, mirrorOf _ k _ tag⟩
/-- The runs of one mirrored commit, or of a full copy. -/
theorem applyRuns_of (c : Chip) (k : Clock) (runs : List BankRun) (tag : Byte) (full : Bool) :
    ∃ d, c.applyRuns k (runs, tag, full) = d ∧
      MirrorOf (withRuns (if full then keepTabs c.heath.live fun x => x == 0x70 else c.heath.live) runs) tag
        (if full then c.onTwin fun t => { t with fullCopy := true, askCopy := false } else c) d := by
  cases full with
  | true =>
    have e : c.applyRuns k (runs, tag, true) = c.fullCopy k runs tag := if_pos rfl
    rw [e, if_pos rfl, if_pos rfl]
    exact c.fullCopy_of k runs tag
  | false =>
    have e : c.applyRuns k (runs, tag, false) = c.mirrorApply k (withRuns c.heath.live runs) tag := if_neg Bool.false_ne_true
    rw [e, if_neg (by decide), if_neg (by decide)]
    exact ⟨_, rfl, mirrorOf c k _ tag⟩

theorem bankRuns_applied {c : Chip} (k : Clock) (runs : List BankRun) (tag : Byte) (full : Bool) (hm : c.mirrored = true)
    (hh : c.twin.heldRuns = []) (hb : c.twin.brokeRuns = false) : c.bankRuns k runs tag full = c.applyRuns k (runs, tag, full) := by
  unfold bankRuns
  rw [hm, hh, hb]
  rfl
theorem bankRuns_kept {c : Chip} (k : Clock) (runs : List BankRun) (tag : Byte) (full : Bool) (hm : c.mirrored = true)
    (hh : c.twin.heldRuns ≠ []) : c.bankRuns k runs tag full = c.onTwin fun t => { t with heldRuns := t.heldRuns ++ [(runs, tag, full)] } := by
  unfold bankRuns
  rw [hm]
  dsimp only
  rw [if_neg (by decide), if_pos (by simp [hh])]
theorem bankRuns_broken {c : Chip} (k : Clock) (runs : List BankRun) (tag : Byte) (full : Bool) (hm : c.mirrored = true)
    (hh : c.twin.heldRuns = []) (hb : c.twin.brokeRuns = true) : c.bankRuns k runs tag full =
      ((c.onTwin fun t => { t with heldRuns := t.heldRuns ++ [(runs, tag, full)], brokeRuns := false }).satSt TWIN.BANKLAG 0 1).syncTwin k := by
  unfold bankRuns
  rw [hm, hh, hb]
  rfl

theorem mirrored_role {c : Chip} (h : c.mirrored = true) : c.twin.role = .shadow := by
  simp only [mirrored, Bool.and_eq_true, decide_eq_true_eq] at h
  obtain ⟨⟨h, -⟩, -⟩ := h
  exact h

end Chip

/-- The TWIN table is never mirrored. -/
theorem read_withRuns (b : Bank) (runs : List BankRun) (a : Nat) (ha : tabOf a = 0x70) (hb : b.wf = true) :
    (withRuns b runs).read a = b.read a := by
  unfold withRuns
  induction runs generalizing b with
  | nil => rfl
  | cons r runs ih =>
    rw [List.foldl_cons]
    cases hs : wordSpec r.1 with
    | none =>
      dsimp only
      exact ih b hb
    | some ws =>
      dsimp only
      split
      next hst =>
        have hne : a ≠ r.1 := by
          rintro rfl
          exact hst.2 ha
        rw [ih _ (Bank.wf_write _ _ _ hb), Bank.read_write_other _ _ hne]
      · exact ih b hb

theorem bankRunsApply_spec (runs : List BankRun) (tag : Byte) (s : State) (hs : s.serving) (hi : s.clk.idx = 0) (hm : s.chip.mirrored = true)
    (hh : s.chip.twin.heldRuns = []) (hb : s.chip.twin.brokeRuns = false) (full : Bool) :
    ∃ t, exec (.bankRunsApply runs tag full) s = .next t ∧ t.pending = s.pending ∧ t.clk = s.clk ∧
      t.chip.heath.live = withRuns (if full then keepTabs s.chip.heath.live (fun x => x == 0x70) else s.chip.heath.live) runs ∧
      t.chip.heath.staged = s.chip.heath.staged ∧ t.chip.boot = s.chip.boot ∧ t.chip.port = s.chip.port ∧
      t.chip.win.appTag = tag.toNat ∧ t.chip.st TWIN.MIRTAG 0 = tag.toNat ∧ t.chip.twin.role = .shadow ∧
      (full = true → t.chip.twin.fullCopy = true) := by
  obtain ⟨d, hd, h⟩ := s.chip.applyRuns_of s.clk runs tag full
  have hexec : exec (.bankRunsApply runs tag full) s = .next { s with chip := d } := by
    refine congrArg Host.Outcome.next ((hs.actBoundary _ hi).trans ?_)
    rw [Chip.bankRuns_applied s.clk runs tag full hm hh hb, hd]
  have hrole := Chip.mirrored_role hm
  refine ⟨_, hexec, rfl, rfl, h.live, ?_⟩
  cases full with
  | true => exact ⟨h.staged, h.boot, h.port, h.appTag, h.mirTag hs.wf, h.role.trans hrole, fun _ => h.fullCopy⟩
  | false => exact ⟨h.staged, h.boot, h.port, h.appTag, h.mirTag hs.wf, h.role.trans hrole, fun hf => absurd hf (by decide)⟩

theorem bankRunsApply_broken (runs : List BankRun) (tag : Byte) (s : State) (hs : s.serving) (hi : s.clk.idx = 0) (hm : s.chip.mirrored = true)
    (hh : s.chip.twin.heldRuns = []) (hb : s.chip.twin.brokeRuns = true) (full : Bool) :
    ∃ t, exec (.bankRunsApply runs tag full) s = .next t ∧ s.Holds t ∧ t.chip.twin.brokeRuns = false ∧
      t.chip.twin.heldRuns = [(runs, tag, full)] ∧
      t.chip.st TWIN.BANKLAG 0 = satAdd TWIN.BANKLAG.width (s.chip.st TWIN.BANKLAG 0) 1 := by
  generalize hd : (s.chip.onTwin fun t => { t with heldRuns := t.heldRuns ++ [(runs, tag, full)], brokeRuns := false }) = d
  have hexec : exec (.bankRunsApply runs tag full) s = .next { s with chip := (d.satSt TWIN.BANKLAG 0 1).syncTwin s.clk } := by
    refine congrArg Host.Outcome.next ((hs.actBoundary _ hi).trans ?_)
    rw [Chip.bankRuns_broken s.clk runs tag full hm hh hb, hd]
  have hk : Chip.Keeps s.chip ((d.satSt TWIN.BANKLAG 0 1).syncTwin s.clk) := by
    rw [← hd]
    exact (((Chip.Keeps.refl _).onTwin _).satSt _ _ _).syncTwin _
  have hwd : d.heath.status.wf = true := by rw [← hd]; exact hs.wf
  have hr : Chip.Rides (d.satSt TWIN.BANKLAG 0 1) _ := .syncTwin s.clk (.refl _)
  have hlag : (d.satSt TWIN.BANKLAG 0 1).st TWIN.BANKLAG 0 = satAdd TWIN.BANKLAG.width (s.chip.st TWIN.BANKLAG 0) 1 := by
    have hst : d.st TWIN.BANKLAG 0 = s.chip.st TWIN.BANKLAG 0 := by rw [← hd]; rfl
    rw [← hst]
    refine (Chip.st_setSt_same d TWIN.BANKLAG 0 _ hwd (by decide)).trans (Nat.mod_eq_of_lt ?_)
    unfold satAdd
    exact lt_of_le_of_lt (Nat.min_le_left _ _) (by decide)
  have hbroke := congrArg Twin.brokeRuns hr.twin
  have hheld := congrArg Twin.heldRuns hr.twin
  have htwin : (d.satSt TWIN.BANKLAG 0 1).twin = d.twin := by simp
  have hb' : d.twin.brokeRuns = false := by rw [← hd]; rfl
  have hh' : d.twin.heldRuns = [(runs, tag, full)] := by rw [← hd]; exact congrArg (· ++ [(runs, tag, full)]) hh
  refine ⟨_, hexec, State.holds_chip hk, Eq.trans hbroke ?_, Eq.trans hheld ?_, (hr.stat (Chip.setSt_wf _ _ _ _ hwd) TWIN.BANKLAG (by decide)).trans hlag⟩
  · exact (congrArg Twin.brokeRuns htwin).trans hb'
  · exact (congrArg Twin.heldRuns htwin).trans hh'

theorem attach_spec (runs : List BankRun) (tag : Byte) (s : State) (hs : s.serving) (hi : s.clk.idx = 0) (hm : s.chip.mirrored = true)
    (ha : s.chip.twin.attach = .copy) :
    ∃ t, exec (.attach runs tag) s = .next t ∧ t.pending = s.pending ∧ t.clk = s.clk ∧ t.chip.twin.attach = .align ∧
      t.chip.twin.fullCopy = true ∧ t.chip.heath.staged = s.chip.heath.staged ∧ t.chip.boot = s.chip.boot ∧
      t.chip.heath.live = withRuns (keepTabs s.chip.heath.live (fun x => x == 0x70)) runs := by
  obtain ⟨d, hd, h⟩ := (s.chip.onTwin fun t => { t with attach := .align }).fullCopy_of s.clk runs tag
  have hexec : exec (.attach runs tag) s = .next { s with chip := d } := by
    refine congrArg Host.Outcome.next ((hs.actBoundary _ hi).trans ?_)
    rw [if_pos (by simp [hm, ha]), hd]
  exact ⟨_, hexec, rfl, rfl, h.attach, h.fullCopy, h.staged, h.boot, h.live⟩

/-- Settles O55: what the mirror applies becomes the live bank, and what a broken lock keeps waits in its order. -/
theorem mirrorBanks : Obligations.MirrorBanks := by
  unfold Obligations.MirrorBanks
  refine ⟨fun runs tag s hs hi hm => ⟨bankRunsApply_spec runs tag s hs hi hm, fun hh full => ?_, bankRunsApply_broken runs tag s hs hi hm,
    attach_spec runs tag s hs hi hm⟩, fun runs tag full s hm => ⟨?_, ?_⟩, fun s hs => ⟨fun hm => ?_, fun hm => ?_⟩, read_withRuns⟩
  · have hexec : exec (.bankRunsApply runs tag full) s = .next { s with
        chip := s.chip.onTwin fun t => { t with heldRuns := t.heldRuns ++ [(runs, tag, full)] } } := by
      refine congrArg Host.Outcome.next ((hs.actBoundary _ hi).trans ?_)
      rw [Chip.bankRuns_kept s.clk runs tag full hm hh]
    exact ⟨_, hexec, rfl, rfl⟩
  · refine congrArg Host.Outcome.next (State.actBoundary_same ?_)
    unfold Chip.bankRuns
    rw [hm]
    rfl
  · refine congrArg Host.Outcome.next (State.actBoundary_same ?_)
    rw [if_neg (by simp [hm])]
  · have hexec : exec .fullCopyRequest s = .next { s with chip := s.chip.onTwin fun t => { t with backlog := fullBank } } := by
      refine congrArg Host.Outcome.next ((hs.act _).trans ?_)
      rw [if_pos hm]
    exact ⟨_, hexec, rfl, rfl⟩
  · refine congrArg Host.Outcome.next (State.act_same ?_)
    rw [if_neg (by simp [hm])]

end Sys2Proof.Machine
end

section
/-! PROOFS. The link to the twin and what it carries (R380, R383 to R389, R392, R393). -/

namespace Sys2Proof.Machine
open Sys2Proof

namespace Chip

/-! ### Fields of the twin engine's row -/

/-- The fields of `l`, in row 0. -/
def inRow (l : List Fld) (f : Fld) (q : Nat) : Prop := f ∈ l ∧ q = 0
theorem inRow_clear {l : List Fld} {g : Fld} (h : (g.fits && l.all fun f => f.fits && f.apart g) = true) : Clears (inRow l) g 0 := by
  simp only [Bool.and_eq_true, List.all_eq_true] at h
  refine ⟨h.1, ?_⟩
  rintro f q ⟨hf, rfl⟩
  exact ⟨(h.2 f hf).1, .inl (h.2 f hf).2⟩
theorem inRow_far {l : List Fld} {g : Fld} {r : Nat} (h : (g.fits && l.all fun f => f.fits && f.addr 0 != g.addr r) = true) : Clears (inRow l) g r := by
  simp only [Bool.and_eq_true, List.all_eq_true, bne_iff_ne] at h
  refine ⟨h.1, ?_⟩
  rintro f q ⟨hf, rfl⟩
  exact ⟨(h.2 f hf).1, .inr (h.2 f hf).2⟩
theorem inRow_steady {l : List Fld} (h : l.all Fld.steady = true) : ∀ f q, inRow l f q → f.steady = true ∧ q < 4096 := by
  rintro f q ⟨hf, rfl⟩
  exact ⟨List.all_eq_true.mp h f hf, by decide⟩

theorem Reads.onTwin {P : Fld → Nat → Prop} {z c : Chip} (f : Twin → Twin) (h : Reads P z c) : Reads P z (c.onTwin f) := h.beside rfl
theorem Calm.syncTwin {z c : Chip} (k : Clock) (h : Calm z c) : Calm z (c.syncTwin k) := by
  unfold Chip.syncTwin
  extract_lets t pair c₁ c₂ c₃ c₄ c₅
  have h₁ : Calm z c₁ := .ite h (.disarm k h)
  exact .setCond k 277 _ (by decide) (.setCond k 276 _ (by decide) (.setCond k 274 _ (by decide) (.setCond k 273 _ (by decide)
    (.setCond k 272 _ (by decide) h₁))))

/-- A field takes a value, and its change sets a cause. -/
theorem st_setTwn {c : Chip} (k : Clock) {f : Fld} {v : Nat} (n : Nat) (hw : c.heath.status.wf = true) (hf : f.fits = true)
    (hc : f.apart TWIN.CAUSE = true) (hv : v < 2 ^ f.width) : (c.setTwn k f v n).st f 0 = v := by
  unfold setTwn
  split
  next h => exact h
  · refine (st_cause_orSt ..).trans ?_
    refine (st_setSt_other (g := TWIN.CAUSE) _ (setSt_wf _ _ _ _ hw) hf rfl (by decide) (by decide) (.inr (.inr hc))).trans ?_
    rw [st_setSt_same _ _ _ _ hw (Fld.fits_iff.mp hf).1, Nat.mod_eq_of_lt hv]
/-- The other fields stay. -/
theorem Reads.setTwn {P : Fld → Nat → Prop} {z c : Chip} (k : Clock) {f : Fld} (v n : Nat) (hf : Clears P f 0) (hc : Clears P TWIN.CAUSE 0)
    (h : Reads P z c) : Reads P z (c.setTwn k f v n) := by
  unfold Chip.setTwn
  split
  · exact h
  · exact (h.setSt v hf).cause (g := .twin) k _ hc
theorem setTwn_core (c : Chip) (k : Clock) (f : Fld) (v n : Nat) : (c.setTwn k f v n).twin = c.twin ∧ (c.setTwn k f v n).col = c.col ∧
    (c.setTwn k f v n).dpll = c.dpll := by
  unfold setTwn
  split
  · exact ⟨rfl, rfl, rfl⟩
  · exact ⟨by simp, by simp, by simp⟩

/-! ### A compatibility word -/

/-- The word matches the part's own (R384). -/
def matchesWord (c : Chip) (w : Word) : Prop := w.toNat / 2 ^ 16 = 0x0101 ∧ w.toNat % 2 ≠ c.twin.id
/-- The other fields of the row that the link is judged by. -/
def linkFields : List Fld := [TWIN.LINKUP, TWIN.PEERROLE]

/-- What a compatibility word leaves and writes. -/
structure Heard (w : Word) (z c : Chip) : Prop extends Keeps z c where
  twin : c.twin.still = { z.twin with heard := true, carry := true }.still
  compat : z.heath.status.wf = true → c.st TWIN.PEERCOMPAT 0 = w.toNat
  ok : z.heath.status.wf = true → (c.st TWIN.COMPATOK 0 = 1 ↔ z.matchesWord w) ∧ c.st TWIN.COMPATOK 0 < 2
  stat : z.heath.status.wf = true → ∀ f ∈ linkFields, c.st f 0 = z.st f 0

theorem heard_of (c : Chip) (k : Clock) (w : Word) : Heard w c (c.takeCompat k w) := by
  unfold takeCompat
  extract_lets new c₁ c₂
  have hk₂ : Keeps c c₂ := (((Keeps.refl c).onTwin _).setSt _ _ _).setTwn k _ _ _
  have hw₁ : c.heath.status.wf = true → c₁.heath.status.wf = true := setSt_wf _ _ _ _
  have htwin₁ : c₁.twin = { c.twin with heard := true, carry := true } := setSt_twin ..
  have hcompat₁ : c.heath.status.wf = true → c₁.st TWIN.PEERCOMPAT 0 = w.toNat := fun hw =>
    (st_setSt_same (c.onTwin _) TWIN.PEERCOMPAT 0 _ hw (by decide)).trans (Nat.mod_eq_of_lt w.isLt)
  have hstat₁ : Reads (inRow linkFields) c c₁ := ((Reads.refl c).onTwin _).setSt _ (inRow_clear rfl)
  clear_value c₁
  have hcomp : c.heath.status.wf = true → (c₁.compatible = true ↔ c.matchesWord w) := fun hw => by
    unfold compatible matchesWord
    rw [hcompat₁ hw, htwin₁]
    simp [ownCompat]
  have hcompat₂ : c.heath.status.wf = true → c₂.st TWIN.PEERCOMPAT 0 = w.toNat := fun hw =>
    ((Reads.setTwn (P := inRow [TWIN.PEERCOMPAT]) k _ _ (inRow_clear rfl) (inRow_clear rfl) (.refl c₁)).stat (hw₁ hw) _ 0
      ⟨List.mem_cons_self .., rfl⟩).trans (hcompat₁ hw)
  have hok₂ : c.heath.status.wf = true → c₂.st TWIN.COMPATOK 0 = bit c₁.compatible := fun hw =>
    st_setTwn k 2 (hw₁ hw) rfl rfl (by cases c₁.compatible <;> decide)
  have hstat₂ : Reads (inRow linkFields) c c₂ := hstat₁.setTwn k _ _ (inRow_clear rfl) (inRow_clear rfl)
  have htwin₂ : c₂.twin = c₁.twin := (setTwn_core ..).1
  have h₂ : Heard w c c₂ := by
    refine { hk₂ with
      twin := by rw [htwin₂, htwin₁], compat := hcompat₂, ok := fun hw => ?_, stat := fun hw f hf => hstat₂.stat hw f 0 ⟨hf, rfl⟩ }
    rw [hok₂ hw, ← hcomp hw]
    cases c₁.compatible <;> simp [bit]
  clear_value c₂
  split
  · have r : Rides c₂ (c₂.srcEvent k 278) := .srcEvent k 278 (by decide) (.refl _)
    have hsub : ∀ f ∈ linkFields, f ∈ seatFields := by decide
    exact { h₂.toKeeps.srcEvent k 278 with
      twin := r.twin.trans h₂.twin, compat := fun hw => (r.stat (h₂.wf hw) TWIN.PEERCOMPAT (by decide)).trans (h₂.compat hw)
      ok := fun hw => by rw [r.stat (h₂.wf hw) TWIN.COMPATOK (by decide)]; exact h₂.ok hw
      stat := fun hw f hf => (r.stat (h₂.wf hw) f (hsub f hf)).trans (h₂.stat hw f hf) }
  · exact h₂

theorem Heard.role {w : Word} {z c : Chip} (h : Heard w z c) : c.twin.role = z.twin.role := by
  have e := congrArg Twin.role h.twin
  exact e

/-! ### The link comes up, and goes down -/

/-- What follows where the link has come up. -/
theorem linked_seats (c : Chip) (k : Clock) : Seats c (((if c.mirrors then c.onTwin fun t => { t with backlog := fullBank } else c).tryAttach.refRole k).syncTwin k) ∧
    (((if c.mirrors then c.onTwin fun t => { t with backlog := fullBank } else c).tryAttach.refRole k).syncTwin k).office = c.office := by
  have h : ∀ d : Chip, Seats c d → d.office = c.office → Seats c ((d.tryAttach.refRole k).syncTwin k) ∧
      ((d.tryAttach.refRole k).syncTwin k).office = c.office := fun d hd ho => by
    have hr : Rides d.tryAttach ((d.tryAttach.refRole k).syncTwin k) := .syncTwin k (.refRole k (.refl _))
    exact ⟨hd.tryAttach.rides hr, hr.office.trans (d.tryAttach_office.trans ho)⟩
  split
  · exact h _ ((Seats.refl c).onTwin _) rfl
  · exact h _ (.refl c) rfl

/-- What a link that comes up leaves and writes. -/
structure LinkedUp (w : Word) (z c : Chip) : Prop where
  link : c.st TWIN.LINKUP 0 = 1
  compat : c.st TWIN.PEERCOMPAT 0 = w.toNat
  ok : c.st TWIN.COMPATOK 0 = 1 ↔ z.matchesWord w
  okBit : c.st TWIN.COMPATOK 0 < 2
  role : c.twin.role = z.twin.role
  cause : c.hasCause .twin 0 1

theorem linkedUp_of {c : Chip} (k : Clock) (w : Word) (hw : c.heath.status.wf = true) (hr : c.twin.role ≠ .solo) (hl : c.st TWIN.LINKUP 0 = 0) :
    LinkedUp w c (c.linkUp k w) := by
  have hheard := heard_of c k w
  unfold linkUp
  rw [if_neg (by simp [hr, hl])]
  dsimp only
  generalize c.takeCompat k w = d at hheard
  have hwd := hheard.wf hw
  have hld : d.st TWIN.LINKUP 0 = 0 := (hheard.stat hw _ (by decide)).trans hl
  obtain ⟨hok, hbit⟩ := hheard.ok hw
  have hset : d.setTwn k TWIN.LINKUP 1 1 = (d.setSt TWIN.LINKUP 0 1).cause k .twin 0 (2 ^ 1) := if_neg (by rw [hld]; decide)
  have hlink := st_setTwn k (f := TWIN.LINKUP) (v := 1) 1 hwd rfl rfl (by decide)
  have hrest : Reads (inRow [TWIN.PEERCOMPAT, TWIN.COMPATOK]) d (d.setTwn k TWIN.LINKUP 1 1) :=
    .setTwn k 1 1 (inRow_clear rfl) (inRow_clear rfl) (.refl d)
  have hcause : (d.setTwn k TWIN.LINKUP 1 1).hasCause .twin 0 1 := by
    rw [hset]
    exact hasCause_cause .twin 0 2 1 (setSt_wf _ _ _ _ hwd) rfl (by decide) rfl
  have htwin : (d.setTwn k TWIN.LINKUP 1 1).twin = d.twin := (setTwn_core ..).1
  generalize d.setTwn k TWIN.LINKUP 1 1 = e at hlink hrest hcause htwin
  have hwe := hrest.wf hwd
  obtain ⟨hseats, hoffice⟩ := linked_seats e k
  generalize ((if e.mirrors then e.onTwin fun t => { t with backlog := fullBank } else e).tryAttach.refRole k).syncTwin k = f at hseats hoffice
  have hcomp := (hseats.stat hwe TWIN.COMPATOK (by decide)).trans (hrest.stat hwd TWIN.COMPATOK 0 ⟨by decide, rfl⟩)
  refine ⟨(hseats.stat hwe TWIN.LINKUP (by decide)).trans hlink, ?_, by rw [hcomp]; exact hok, by rw [hcomp]; exact hbit, ?_, hseats.marks hwe 1 hcause⟩
  · exact (hseats.stat hwe TWIN.PEERCOMPAT (by decide)).trans ((hrest.stat hwd TWIN.PEERCOMPAT 0 ⟨by decide, rfl⟩).trans (hheard.compat hw))
  · exact (congrArg Office.role hoffice).trans ((congrArg Twin.role htwin).trans hheard.role)

/-- What a link that goes down leaves and writes. -/
structure LinkedDown (z c : Chip) : Prop extends Keeps z c where
  link : z.heath.status.wf = true → c.st TWIN.LINKUP 0 = 0
  peerRole : z.heath.status.wf = true → c.st TWIN.PEERROLE 0 = 0
  unarmed : z.heath.status.wf = true → c.st TWIN.ARMED 0 = 0
  peerArmed : c.twin.peerArmed = false
  attach : c.twin.attach = .none
  role : c.twin.role = z.twin.role

/-- Without the link a part is not armed. -/
theorem syncTwin_unarmed {c : Chip} (k : Clock) (hw : c.heath.status.wf = true) (hl : c.st TWIN.LINKUP 0 = 0) : (c.syncTwin k).st TWIN.ARMED 0 = 0 := by
  have ha : c.armable = false := by simp [armable, hl]
  unfold syncTwin
  extract_lets t pair c₁ c₂ c₃ c₄ c₅
  have hc₁ : c₁ = c.disarm k := if_neg (by simp [ha])
  have hd : Rides c (c.disarm k) := .disarm k (.refl c)
  have r : Rides c₁ (c₅.setCond k 277 (c₅.st TWIN.ARMED 0 == 1 && decide (8 ≤ t.farTicks.hi))) :=
    .setCond k 277 _ (by decide) (.setCond k 276 _ (by decide) (.setCond k 274 _ (by decide) (.setCond k 273 _ (by decide)
      (.setCond k 272 _ (by decide) (.refl c₁)))))
  refine r.armed (by rw [hc₁]; exact hd.wf hw) ?_
  rw [hc₁]
  exact disarm_unarmed k hw

theorem linkedDown_of (c : Chip) (k : Clock) : LinkedDown c (c.linkDown k) := by
  unfold linkDown
  extract_lets d e
  have hkd : Keeps c d := ((Keeps.refl c).setTwn k _ _ _).setTwn k _ _ _
  have hke : Keeps c e := (hkd.onTwin _).onTwin _
  have hlink : c.heath.status.wf = true → d.st TWIN.LINKUP 0 = 0 := fun hw => by
    have h₁ := st_setTwn k (f := TWIN.LINKUP) (v := 0) 1 hw rfl rfl (by decide)
    have hr : Reads (inRow [TWIN.LINKUP]) (c.setTwn k TWIN.LINKUP 0 1) d := .setTwn k _ _ (inRow_clear rfl) (inRow_clear rfl) (.refl _)
    exact (hr.stat (((Keeps.refl c).setTwn k _ _ _).wf hw) TWIN.LINKUP 0 ⟨by decide, rfl⟩).trans h₁
  have hrole : c.heath.status.wf = true → d.st TWIN.PEERROLE 0 = 0 := fun hw =>
    st_setTwn k 7 (((Keeps.refl c).setTwn k TWIN.LINKUP 0 1).wf hw) rfl rfl (by decide)
  have htwin : d.twin = c.twin := (setTwn_core ..).1.trans (setTwn_core ..).1
  have he : e.twin = { c.twin with attach := .none, fullCopy := false, peerArmed := false } :=
    congrArg (fun t : Twin => { t with attach := .none, fullCopy := false, peerArmed := false }) htwin
  have hlink' : c.heath.status.wf = true → e.st TWIN.LINKUP 0 = 0 := hlink
  have hrole' : c.heath.status.wf = true → e.st TWIN.PEERROLE 0 = 0 := hrole
  clear_value e
  have r₁ : Rides e (e.refRole k) := .refRole k (.refl e)
  have r : Rides e ((e.refRole k).syncTwin k) := .syncTwin k r₁
  have e₁ := congrArg Twin.peerArmed r.twin
  have e₂ := congrArg Twin.attach r.twin
  have e₃ : ((e.refRole k).syncTwin k).twin.role = e.twin.role := congrArg Office.role r.office
  refine { hke.trans r.toKeeps with
    link := fun hw => (r.stat (hke.wf hw) TWIN.LINKUP (by decide)).trans (hlink' hw)
    peerRole := fun hw => (r.stat (hke.wf hw) TWIN.PEERROLE (by decide)).trans (hrole' hw)
    unarmed := fun hw => syncTwin_unarmed k (r₁.wf (hke.wf hw)) ((r₁.stat (hke.wf hw) TWIN.LINKUP (by decide)).trans (hlink' hw))
    peerArmed := Eq.trans e₁ (congrArg Twin.peerArmed he), attach := Eq.trans e₂ (congrArg Twin.attach he)
    role := by rw [e₃, he] }

/-! ### A lane marker -/

/-- What the role that a marker reports leaves and writes. -/
structure PeerTaken (role : Nat) (armed : Bool) (z c : Chip) : Prop extends Keeps z c where
  peerRole : z.heath.status.wf = true → c.st TWIN.PEERROLE 0 = role
  peerArmed : c.twin.peerArmed = (armed && decide (role = 2))
  role : c.twin.role = z.twin.role

theorem peerTaken_of (c : Chip) (k : Clock) {role : Nat} (armed : Bool) (h : role < 4) : PeerTaken role armed c (c.takePeer k role armed) := by
  unfold takePeer
  extract_lets d
  have hkd : Keeps c d := ((Keeps.refl c).setTwn k _ _ _).onTwin _
  have htwin : d.twin = { c.twin with peerArmed := armed && decide (role = 2) } :=
    congrArg (fun t : Twin => { t with peerArmed := armed && decide (role = 2) }) (setTwn_core c k TWIN.PEERROLE role 7).1
  have hd : PeerTaken role armed c d := { hkd with
    peerRole := fun hw => st_setTwn k 7 hw rfl rfl h, peerArmed := by rw [htwin], role := by rw [htwin] }
  clear_value d
  have hon : ∀ f : Twin → Twin, (∀ t, (f t).peerArmed = t.peerArmed) → (∀ t, (f t).role = t.role) → PeerTaken role armed c (d.onTwin f) :=
    fun f hp hr => { hkd.onTwin f with peerRole := hd.peerRole, peerArmed := (hp _).trans hd.peerArmed, role := (hr _).trans hd.role }
  split
  · exact hon _ (fun _ => rfl) fun _ => rfl
  · rcases d.tryAttach_cases with e | e
    · rw [e]
      exact hd
    · rw [e]
      exact hon _ (fun _ => rfl) fun _ => rfl

/-- Fields that the delivery of a phase leaves. -/
def phaseFields : List Fld := [TWIN.PEERROLE, TWIN.LINKDLY]

/-- What the delivery of a phase leaves, and the monitor that it is kept in. -/
structure Delivered (r : Nat) (x : Int) (z c : Chip) : Prop where
  twin : c.twin = z.twin
  stat : Reads (inRow phaseFields) z c
  last : r < 8 → (c.mon r).last = x

theorem delivered_of (c : Chip) (r : Nat) (x : Int) : Delivered r x c (c.deliver r x) := by
  unfold deliver
  extract_lets d
  have hd : Delivered r x c d := ⟨rfl, (Reads.refl c).beside rfl, fun h => congrArg RefMon.last (vget_vupd_same c.dpll.ref r _ {} h)⟩
  clear_value d
  have hstep : ∀ a, Delivered r x c a → ∀ ch, Delivered r x c (let y := a.dp ch
      if y.target = some r then a.onCh ch (fun x => { x with build := x.build - 1 })
      else if y.sel ≠ some r then a
      else if ch = 1 ∧ a.tim.stepRem ≠ 0 then a.setSt DPLL.PHERR 1 (unsigned 32 (x - signed 32 (a.st DPLL.PBOFS 1)))
      else a.onCh ch (fun y => { y with meas := some x })) := fun a ha ch => by
    extract_lets y
    have hch : ∀ f, Delivered r x c (a.onCh ch f) := fun f => ⟨ha.twin, ha.stat.beside rfl, ha.last⟩
    split
    · exact hch _
    · split
      · exact ha
      · split
        · refine ⟨(setSt_twin ..).trans ha.twin, ha.stat.setSt _ (inRow_far rfl), fun h => ?_⟩
          unfold mon
          rw [setSt_dpll]
          exact ha.last h
        · exact hch _
  exact overN_keeps _ 2 _ (fun ch a ha => hstep a ha ch) d hd

/-- A field of a whole word takes its value. -/
theorem st_setSt_word32 {c : Chip} {f : Fld} {v : Nat} (hw : c.heath.status.wf = true) (hf : (f.lo == 0 && f.width == 32) = true) (hv : v < 2 ^ 32) :
    (c.setSt f 0 v).st f 0 = v := by
  simp only [Bool.and_eq_true, beq_iff_eq] at hf
  rw [st_setSt_same _ _ _ _ hw (by omega), hf.2, Nat.mod_eq_of_lt hv]
/-- The delay of the link that a marker gives (R385). -/
def markerDelay (c : Chip) (a t1 a' t2 : Int) : Int := ((a - t1) + (a' - t2)) / 2 + signed 32 (c.lv TWIN.DELAYTRIM 0)

/-- What a marker from a compatible peer leaves and writes at a shadow. -/
structure Marked (a t1 a' t2 : Int) (role : Nat) (armed : Bool) (z c : Chip) : Prop where
  peerRole : c.st TWIN.PEERROLE 0 = role
  delay : c.st TWIN.LINKDLY 0 = unsigned 32 (z.markerDelay a t1 a' t2)
  last : (c.mon 4).last = (a - t1) - z.markerDelay a t1 a' t2
  peerArmed : c.twin.peerArmed = (armed && decide (role = 2))

theorem marked_of {c : Chip} (k : Clock) (a t1 a' t2 : Int) {w : Word} {role : Nat} (armed : Bool) (hw : c.heath.status.wf = true) (hrole : role < 4)
    (hr : c.twin.role = .shadow) (hl : c.st TWIN.LINKUP 0 = 1) (hm : c.matchesWord w) :
    Marked a t1 a' t2 role armed c (c.laneMarker k a t1 a' t2 w role armed) := by
  have hheard := heard_of c k w
  unfold laneMarker
  rw [if_neg (by simp [hr])]
  extract_lets was d e delay f
  have hd : Heard w c d := hheard
  have he := peerTaken_of d k armed hrole
  have hwd := hd.wf hw
  have hshadow : e.twin.role = .shadow := he.role.trans (hd.role.trans hr)
  have hlive : e.heath.live = c.heath.live := he.live.trans hd.live
  have hlink : d.st TWIN.LINKUP 0 = 1 := (hd.stat hw _ (by decide)).trans hl
  have hok : d.st TWIN.COMPATOK 0 = 1 := (hd.ok hw).1.mpr hm
  rw [if_neg (by rw [hlink]; decide), if_neg (by rw [hok]; simp)]
  have hdelay : e.markerDelay a t1 a' t2 = c.markerDelay a t1 a' t2 := by
    unfold markerDelay lv
    rw [hlive]
  have hwe : e.heath.status.wf = true := he.wf hwd
  have hf : f = (e.setSt TWIN.LINKDLY 0 (unsigned 32 (e.markerDelay a t1 a' t2))).deliver 4 ((a - t1) - e.markerDelay a t1 a' t2) := if_pos hshadow
  have he : PeerTaken role armed d e := he
  clear_value e
  have hset := Reads.setSt (P := inRow [TWIN.PEERROLE]) (unsigned 32 (e.markerDelay a t1 a' t2)) (inRow_clear (g := TWIN.LINKDLY) rfl) (.refl e)
  have hdly : (e.setSt TWIN.LINKDLY 0 (unsigned 32 (e.markerDelay a t1 a' t2))).st TWIN.LINKDLY 0 = unsigned 32 (e.markerDelay a t1 a' t2) :=
    st_setSt_word32 hwe rfl (unsigned_lt 32 _)
  have htwin : (e.setSt TWIN.LINKDLY 0 (unsigned 32 (e.markerDelay a t1 a' t2))).twin = e.twin := setSt_twin ..
  generalize e.setSt TWIN.LINKDLY 0 (unsigned 32 (e.markerDelay a t1 a' t2)) = g at hf hset hdly htwin
  have hg := delivered_of g 4 ((a - t1) - e.markerDelay a t1 a' t2)
  rw [← hf] at hg
  clear_value f
  have hcalm : Calm f (f.syncTwin k) := .syncTwin k (.refl f)
  have hwg := hset.wf hwe
  have hall : Reads (inRow phaseFields) g (f.syncTwin k) := hg.stat.calm (inRow_steady rfl) hcalm
  rw [hdelay] at hdly hg
  refine ⟨?_, (hall.stat hwg TWIN.LINKDLY 0 ⟨by decide, rfl⟩).trans hdly, ?_, ?_⟩
  · exact (hall.stat hwg TWIN.PEERROLE 0 ⟨by decide, rfl⟩).trans ((hset.stat hwe TWIN.PEERROLE 0 ⟨by decide, rfl⟩).trans (he.peerRole hwd))
  · unfold mon
    rw [hcalm.dpll]
    exact hg.last (by decide)
  · have e₁ : (f.syncTwin k).twin.peerArmed = f.twin.peerArmed := by
      have e₁ := congrArg Twin.peerArmed hcalm.twin
      exact e₁
    rw [e₁, hg.twin, htwin]
    exact he.peerArmed

theorem laneMarker_mismatch {c : Chip} (k : Clock) (a t1 a' t2 : Int) {w : Word} (role : Nat) (armed : Bool) (hw : c.heath.status.wf = true)
    (hr : c.twin.role = .shadow) (hl : c.st TWIN.LINKUP 0 = 1) (hm : ¬ c.matchesWord w) (hok : c.st TWIN.COMPATOK 0 = 1) :
    (c.laneMarker k a t1 a' t2 w role armed).st TWIN.LINKUP 0 = 0 := by
  have hd := heard_of c k w
  have hlink : (c.takeCompat k w).st TWIN.LINKUP 0 = 1 := (hd.stat hw _ (by decide)).trans hl
  obtain ⟨hiff, hlt⟩ := hd.ok hw
  have hbad : (c.takeCompat k w).st TWIN.COMPATOK 0 = 0 := by
    have hne : (c.takeCompat k w).st TWIN.COMPATOK 0 ≠ 1 := fun e => hm (hiff.mp e)
    omega
  unfold laneMarker
  rw [if_neg (by simp [hr])]
  dsimp only
  rw [if_neg (by rw [hlink]; decide), if_pos ⟨hok, hbad⟩]
  exact (linkedDown_of _ k).link (hd.wf hw)

end Chip

theorem laneMarker_spec (a t1 a' t2 : Int) (w : Word) (r : Fin 3) (arm : Bool) (s : State) (hs : s.serving) (hr : s.chip.twin.role = .shadow)
    (hl : s.chip.st TWIN.LINKUP 0 = 1) :
    (w.toNat / 2 ^ 16 = 0x0101 → w.toNat % 2 ≠ s.chip.twin.id →
      ∃ t, exec (.laneMarker a t1 a' t2 w r arm) s = .next t ∧ s.Holds t ∧ t.chip.st TWIN.PEERROLE 0 = r.val ∧
        t.chip.st TWIN.LINKDLY 0 = unsigned 32 (((a - t1) + (a' - t2)) / 2 + signed 32 (s.chip.lv TWIN.DELAYTRIM 0)) ∧
        (t.chip.mon 4).last = (a - t1) - (((a - t1) + (a' - t2)) / 2 + signed 32 (s.chip.lv TWIN.DELAYTRIM 0)) ∧
        t.chip.twin.peerArmed = (arm && r == 2)) ∧
    (¬ (w.toNat / 2 ^ 16 = 0x0101 ∧ w.toNat % 2 ≠ s.chip.twin.id) → s.chip.st TWIN.COMPATOK 0 = 1 →
      ∃ t, exec (.laneMarker a t1 a' t2 w r arm) s = .next t ∧ s.Holds t ∧ t.chip.st TWIN.LINKUP 0 = 0) := by
  have hexec : exec (.laneMarker a t1 a' t2 w r arm) s = .next { s with chip := s.chip.laneMarker s.clk a t1 a' t2 w r.val arm } :=
    congrArg Host.Outcome.next (hs.act _)
  refine ⟨fun h₁ h₂ => ?_, fun hm hok => ?_⟩
  · have h := Chip.marked_of s.clk a t1 a' t2 arm hs.wf (by omega) hr hl ⟨h₁, h₂⟩ (role := r.val)
    generalize s.chip.laneMarker s.clk a t1 a' t2 w r.val arm = d at hexec h
    refine ⟨_, hexec, holds_of_coreEdge rfl hexec, h.peerRole, h.delay, h.last, h.peerArmed.trans (congrArg (arm && ·) ?_)⟩
    rw [Bool.eq_iff_iff, decide_eq_true_eq, beq_iff_eq, Fin.ext_iff]
    rfl
  · exact ⟨_, hexec, holds_of_coreEdge rfl hexec, Chip.laneMarker_mismatch s.clk a t1 a' t2 r.val arm hs.wf hr hl hm hok⟩

theorem linkUp_spec (w : Word) (s : State) (hs : s.serving) (hr : s.chip.twin.role ≠ .solo) (hl : s.chip.st TWIN.LINKUP 0 = 0) :
    ∃ t, exec (.linkUp w) s = .next t ∧ s.Holds t ∧ t.chip.st TWIN.LINKUP 0 = 1 ∧ t.chip.st TWIN.PEERCOMPAT 0 = w.toNat ∧
      t.chip.st TWIN.COMPATOK 0 = (if w.toNat / 2 ^ 16 = 0x0101 ∧ w.toNat % 2 ≠ s.chip.twin.id then 1 else 0) ∧
      t.chip.twin.role = s.chip.twin.role ∧ t.chip.hasCause .twin 0 1 := by
  have hexec : exec (.linkUp w) s = .next { s with chip := s.chip.linkUp s.clk w } := congrArg Host.Outcome.next (hs.act _)
  have h := Chip.linkedUp_of s.clk w hs.wf hr hl
  generalize s.chip.linkUp s.clk w = d at hexec h
  refine ⟨_, hexec, holds_of_coreEdge rfl hexec, h.link, h.compat, ?_, h.role, h.cause⟩
  have hok := h.ok
  have hbit := h.okBit
  unfold Chip.matchesWord at hok
  show d.st TWIN.COMPATOK 0 = _
  split
  next hm => exact hok.mpr hm
  next hm =>
    have hne : d.st TWIN.COMPATOK 0 ≠ 1 := fun e => hm (hok.mp e)
    omega

theorem linkDown_spec (s : State) (hs : s.serving) (hr : s.chip.twin.role ≠ .solo) :
    ∃ t, exec .linkDown s = .next t ∧ s.Holds t ∧ t.chip.st TWIN.LINKUP 0 = 0 ∧ t.chip.st TWIN.PEERROLE 0 = 0 ∧
      t.chip.st TWIN.ARMED 0 = 0 ∧ t.chip.twin.peerArmed = false ∧ t.chip.twin.attach = .none ∧ t.chip.twin.role = s.chip.twin.role := by
  have hexec : exec .linkDown s = .next { s with chip := (s.chip.onTwin fun t => { t with carry := false }).linkDown s.clk } := by
    refine congrArg Host.Outcome.next ((hs.act _).trans ?_)
    rw [if_neg hr]
  have h := (s.chip.onTwin fun t => { t with carry := false }).linkedDown_of s.clk
  generalize (s.chip.onTwin fun t => { t with carry := false }).linkDown s.clk = d at hexec h
  exact ⟨_, hexec, holds_of_coreEdge rfl hexec, h.link hs.wf, h.peerRole hs.wf, h.unarmed hs.wf, h.peerArmed, h.attach, h.role⟩

end Sys2Proof.Machine
end

section
/-! PROOFS. Tick records (R387 to R389, R392 to R394). -/

namespace Sys2Proof.Machine
open Sys2Proof

/-- Numbered items are taken in turn: what each makes true of its unit, and the others keep, is true of every unit. -/
theorem foldl_zipIdx_each {α β : Type} {P : Nat → α → β → Prop} {f : β → α × Nat → β} (top : Nat)
    (hat : ∀ x d a, d < top → P d x (f a (x, d))) (hkeep : ∀ x d y e a, d ≠ e → P d x a → P d x (f a (y, e))) :
    ∀ (l : List α) (n : Nat) (a : β), n + l.length ≤ top → ∀ i x, l[i]? = some x → P (n + i) x ((l.zipIdx n).foldl f a) := by
  have hrest : ∀ (l : List α) (n : Nat) (a : β) (x : α) (d : Nat), d < n → P d x a → P d x ((l.zipIdx n).foldl f a) := by
    intro l
    induction l with
    | nil => exact fun _ _ _ _ _ h => h
    | cons y l ih =>
      intro n a x d hd h
      rw [List.zipIdx_cons, List.foldl_cons]
      exact ih (n + 1) _ x d (by omega) (hkeep x d y n a (by omega) h)
  intro l
  induction l with
  | nil =>
    intro n a _ i x hx
    simp at hx
  | cons y l ih =>
    intro n a hn i x hx
    rw [List.length_cons] at hn
    rw [List.zipIdx_cons, List.foldl_cons]
    cases i with
    | zero =>
      obtain rfl : y = x := by simpa using hx
      exact hrest l (n + 1) _ y n (by omega) (hat y n a (by omega))
    | succ i =>
      have h := ih (n + 1) (f a (y, n)) (by omega) i x (by simpa using hx)
      rwa [show n + 1 + i = n + (i + 1) by omega] at h

namespace Chip

/-! ### The slot-map states that a record carries -/

/-- A drop follows the state that a record gives it. -/
def Follows (d : Nat) (x : Bool × Fin 4 × Nat × Nat) (c : Chip) : Prop :=
  (c.d d).genLive = x.2.2.1 ∧ (c.d d).genNext = x.2.2.2 ∧ (c.d d).inUse = bit x.1 ∧ (c.d d).sm.code = x.2.1.val

theorem syncSlot_drop (c : Chip) (d : Nat) : (c.syncSlot d).drop = c.drop := by
  unfold syncSlot
  simp
theorem follows_slot (c : Chip) (k : Clock) {d : Nat} (x : Bool × Fin 4 × Nat × Nat) (hd : d < 96) : Follows d x (c.followSlot k d x) := by
  obtain ⟨u, sm, live, nx⟩ := x
  unfold followSlot Follows
  dsimp only
  unfold Chip.d
  rw [syncSlot_drop]
  unfold onD
  dsimp only
  rw [vget_vupd_same _ _ _ _ hd]
  refine ⟨?_, rfl, rfl, ?_⟩
  · split
    next h => exact h
    · rfl
  · match sm with
    | 0 => rfl
    | 1 => rfl
    | 2 => rfl
    | 3 => rfl
theorem follows_other (c : Chip) (k : Clock) {d e : Nat} (x y : Bool × Fin 4 × Nat × Nat) (hde : d ≠ e) (h : Follows d x c) :
    Follows d x (c.followSlot k e y) := by
  obtain ⟨u, sm, live, nx⟩ := y
  have hd : (c.followSlot k e (u, sm, live, nx)).d d = c.d d := by
    unfold followSlot
    dsimp only
    unfold Chip.d
    rw [syncSlot_drop]
    exact vget_vupd_other _ _ _ _ _ hde
  unfold Follows at h ⊢
  rw [hd]
  exact h
theorem follows_all (c : Chip) (k : Clock) (l : List (Bool × Fin 4 × Nat × Nat)) :
    ∀ d < 96, ∀ x, l[d]? = some x → Follows d x (((l.take 96).zipIdx).foldl (fun c (x, d) => c.followSlot k d x) c) := fun d hd x hx => by
  have h := foldl_zipIdx_each (P := Follows) (f := fun c (p : (Bool × Fin 4 × Nat × Nat) × Nat) => c.followSlot k p.2 p.1) 96
    (fun x d a hd => a.follows_slot k x hd) (fun x d y e a hde ha => a.follows_other k x y hde ha) (l.take 96) 0 c
    (by rw [List.length_take]; omega) d x (by rw [List.getElem?_take, if_pos hd]; exact hx)
  rwa [Nat.zero_add] at h

/-! ### What the rest of a record leaves -/

/-- Of the twin engine what `m` shows, the drops, and the fields of `l` in TWIN's row stay. -/
structure Trails {β : Type} (m : Twin → β) (l : List Fld) (z c : Chip) : Prop where
  twin : m c.twin = m z.twin
  drop : c.drop = z.drop
  stat : Reads (inRow l) z c

namespace Trails
variable {β : Type} {m : Twin → β} {l : List Fld} {z c : Chip}

theorem refl (z : Chip) : Trails m l z z := ⟨rfl, rfl, .refl z⟩
theorem trans {d : Chip} (h : Trails m l z c) (g : Trails m l c d) : Trails m l z d := ⟨g.twin.trans h.twin, g.drop.trans h.drop, h.stat.trans g.stat⟩
theorem onTwin (f : Twin → Twin) (hf : ∀ t, m (f t) = m t) (h : Trails m l z c) : Trails m l z (c.onTwin f) :=
  ⟨(hf _).trans h.twin, h.drop, h.stat.onTwin f⟩
theorem onTime (f : TimeEng → TimeEng) (h : Trails m l z c) : Trails m l z (c.onTime f) := ⟨h.twin, h.drop, h.stat.beside rfl⟩
theorem onM (f : Meadow → Meadow) (h : Trails m l z c) : Trails m l z (c.onM f) := ⟨h.twin, h.drop, h.stat.beside rfl⟩
theorem onT (i : Nat) (f : Trib → Trib) (h : Trails m l z c) : Trails m l z (c.onT i f) := ⟨h.twin, h.drop, h.stat.beside rfl⟩
theorem draw (h : Trails m l z c) : Trails m l z c.draw.2 := ⟨h.twin, h.drop, h.stat.beside rfl⟩
theorem setSt {g : Fld} {r : Nat} (v : Nat) (hg : Clears (inRow l) g r) (h : Trails m l z c) : Trails m l z (c.setSt g r v) :=
  ⟨(congrArg m (setSt_twin ..)).trans h.twin, (setSt_drop ..).trans h.drop, h.stat.setSt v hg⟩
theorem cause {g : CauseReg} {r : Nat} (k : Clock) (b : Nat) (hg : Clears (inRow l) g.cause r) (h : Trails m l z c) : Trails m l z (c.cause k g r b) :=
  ⟨(congrArg m (cause_twin ..)).trans h.twin, (cause_drop ..).trans h.drop, h.stat.cause k b hg⟩
theorem calm {d : Chip} (hm : ∀ t, m t.still = m t) (hl : l.all Fld.steady = true) (h : Trails m l z c) (g : Calm c d) : Trails m l z d := by
  have hs : d.twin.still = c.twin.still := by
    have e := congrArg (fun t : Twin => { t with lossNow := false, nextSeq := 0 }) g.twin
    exact e
  exact ⟨(((hm _).symm.trans (congrArg m hs)).trans (hm _)).trans h.twin, g.drop.trans h.drop, h.stat.calm (inRow_steady hl) g⟩

end Trails

theorem inRow_tab {l : List Fld} {g : Fld} {r : Nat} (h : (g.fits && l.all fun f => f.fits && f.tab != g.tab) = true) (hr : r < 4096) :
    Clears (inRow l) g r := by
  simp only [Bool.and_eq_true, List.all_eq_true, bne_iff_ne] at h
  refine ⟨h.1, ?_⟩
  rintro f q ⟨hf, rfl⟩
  exact ⟨(h.2 f hf).1, .inr (Fld.addr_ne_of_tab (h.2 f hf).1 h.1 (by decide) hr (h.2 f hf).2)⟩
/-- What the twin engine shows to be kept by the end of an item, and the row's fields beside the counts of descriptors. -/
structure ItemSafe {β : Type} (m : Twin → β) (l : List Fld) : Prop where
  still : ∀ t, m t.still = m t
  loss : ∀ t : Twin, m { t with lossNow := true } = m t
  steady : l.all Fld.steady = true
  sent : Clears (inRow l) TWIN.DESCSENT 0
  lost : Clears (inRow l) TWIN.DESCLOST 0

namespace Trails
variable {β : Type} {m : Twin → β} {l : List Fld} {z c : Chip}

theorem sendDesc (hs : ItemSafe m l) (h : Trails m l z c) : Trails m l z c.sendDesc := by
  unfold Chip.sendDesc
  split
  next room y he =>
    have hy : Trails m l z y := by
      obtain rfl : c.draw.2 = y := congrArg Prod.snd he
      exact h.draw
    split
    · exact hy.setSt _ hs.sent
    · exact (hy.setSt _ hs.lost).onTwin _ hs.loss
theorem discardItem (hs : ItemSafe m l) (k : Clock) (it : Item) (h : Trails m l z c) : Trails m l z (c.discardItem k it cShade) := by
  unfold Chip.discardItem
  rw [if_neg (by decide)]
  have hfree : Trails m l z ((c.countDisc it.trib it.up cShade).freeCells k it.up it.cells) := by
    unfold Chip.freeCells Chip.syncPools
    exact ((h.onT _ _).onM _).calm hs.still hs.steady (.setCond k 211 _ (by decide) (.setCond k 210 _ (by decide) (.refl _)))
  unfold Chip.retire
  split
  · exact hfree.sendDesc hs
  · exact hfree
theorem foldl {α : Type} (xs : List α) {f : Chip → α → Chip} (h : Trails m l z c) (hf : ∀ a x, Trails m l z a → Trails m l z (f a x)) :
    Trails m l z (xs.foldl f c) := by
  induction xs generalizing c with
  | nil => exact h
  | cons x xs ih => exact ih (hf _ _ h)
theorem ite {a b : Chip} {p : Prop} [Decidable p] (ha : Trails m l z a) (hb : Trails m l z b) : Trails m l z (if p then a else b) := by
  split <;> assumption
theorem sweepCopies (hs : ItemSafe m l) (k : Clock) (h : Trails m l z c) : Trails m l z (c.sweepCopies k) := by
  unfold Chip.sweepCopies
  extract_lets old
  refine overN_keeps _ 256 _ (fun t a ha => .foldl _ ha fun b up hb => ?_) _ h
  extract_lets gone
  split
  · exact hb
  · exact .foldl _ (hb.onT _ _) fun _ it hd => hd.discardItem hs k it
theorem setHorizon (hs : ItemSafe m l) (hm : ∀ (t : Twin) (e : Nat), m { t with horizon := e } = m t) (k : Clock) (e : Nat) (h : Trails m l z c) :
    Trails m l z (c.setHorizon k e) := by
  unfold Chip.setHorizon
  split
  · exact (h.onTwin _ fun t => hm t _).sweepCopies hs k
  · exact h

end Trails
/-- What a record judges of the peer's bank. -/
def judged (t : Twin) : Bool × Bool := (t.digestBad, t.askCopy)
/-- It, and the gaps of descriptors. -/
def judgedGaps (t : Twin) : Bool × Bool × List Nat := (t.digestBad, t.askCopy, t.gaps)
theorem itemSafe_gaps : ItemSafe judgedGaps [TWIN.BANKLAG, TWIN.MIRLOSS] :=
  ⟨fun _ => rfl, fun _ => rfl, rfl, inRow_clear rfl, inRow_clear rfl⟩

/-- The slot maps and the step of a record leave what the record judges. -/
theorem followed_trails (c : Chip) (k : Clock) (r : TickRec) :
    Reads (inRow [TWIN.MIRTAG, TWIN.BANKLAG]) c ((((r.drops.take 96).zipIdx).foldl (fun c (x, d) => c.followSlot k d x) c).followStep r.step) ∧
      judged ((((r.drops.take 96).zipIdx).foldl (fun c (x, d) => c.followSlot k d x) c).followStep r.step).twin = judged c.twin ∧
      ((((r.drops.take 96).zipIdx).foldl (fun c (x, d) => c.followSlot k d x) c).followStep r.step).drop =
        (((r.drops.take 96).zipIdx).foldl (fun c (x, d) => c.followSlot k d x) c).drop := by
  have hslots : ∀ (xs : List ((Bool × Fin 4 × Nat × Nat) × Nat)) (a : Chip), (∀ p ∈ xs, p.2 < 96) →
      Reads (inRow [TWIN.MIRTAG, TWIN.BANKLAG]) a (xs.foldl (fun c (x, d) => c.followSlot k d x) a) ∧
        judged (xs.foldl (fun c (x, d) => c.followSlot k d x) a).twin = judged a.twin := by
    intro xs
    induction xs with
    | nil => exact fun a _ => ⟨.refl a, rfl⟩
    | cons p xs ih =>
      intro a hp
      obtain ⟨x, d⟩ := p
      have hd : d < 96 := hp (x, d) (List.mem_cons_self ..)
      have hone : Reads (inRow [TWIN.MIRTAG, TWIN.BANKLAG]) a (a.followSlot k d x) ∧ (a.followSlot k d x).twin = a.twin := by
        unfold followSlot syncSlot
        refine ⟨?_, by simp⟩
        have hbase : ∀ f, Reads (inRow [TWIN.MIRTAG, TWIN.BANKLAG]) a (a.onD d f) := fun f => (Reads.refl a).beside rfl
        exact ((((hbase _).setSt _ (inRow_tab rfl (by omega))).setSt _ (inRow_tab rfl (by omega))).setSt _ (inRow_tab rfl (by omega))).setSt _
          (inRow_tab rfl (by omega))
      obtain ⟨hr, ht⟩ := ih (a.followSlot k d x) fun q hq => hp q (List.mem_cons_of_mem _ hq)
      exact ⟨hone.1.trans hr, ht.trans (congrArg judged hone.2)⟩
  obtain ⟨hr, ht⟩ := hslots ((r.drops.take 96).zipIdx) c fun p hp => by
    have hlt := List.snd_lt_add_of_mem_zipIdx hp
    rw [List.length_take] at hlt
    omega
  generalize ((r.drops.take 96).zipIdx).foldl (fun c (x, d) => c.followSlot k d x) c = d at hr ht
  have hstep : Trails judged [TWIN.MIRTAG, TWIN.BANKLAG] d (d.followStep r.step) := by
    unfold followStep
    extract_lets b
    split
    · split
      · exact .refl d
      · exact ((Trails.refl d).onTime _).onTwin _ fun _ => rfl
    · exact (Trails.refl d).onTwin _ fun _ => rfl
  exact ⟨hr.trans hstep.stat, hstep.twin.trans ht, hstep.drop⟩

namespace Trails
variable {β : Type} {m : Twin → β} {l : List Fld} {z c : Chip}

theorem sawGap (hm : ∀ (t : Twin) (g : List Nat), m { t with gaps := g, lossNow := true } = m t) (hl : Clears (inRow l) TWIN.MIRLOSS 0)
    (hc : Clears (inRow l) TWIN.CAUSE 0) (k : Clock) (last : Nat) (h : Trails m l z c) : Trails m l z (c.sawGap k last) :=
  ((h.onTwin _ fun t => hm t _).setSt 1 hl).cause (g := .twin) k 16 hc
theorem followAttach (hm : ∀ (t : Twin) (a : AttachStep), m { t with attach := a } = m t) (hl : Clears (inRow l) TWIN.TNOFS 0) (k : Clock) (r : TickRec)
    (h : Trails m l z c) : Trails m l z (c.followAttach k r) := by
  unfold Chip.followAttach
  extract_lets e d
  have he : Trails m l z e := .ite (h.onTime _) h
  have hd : Trails m l z d := .ite (he.onTwin _ fun t => hm t _) h
  split
  · exact (hd.setSt _ hl).onTwin _ fun t => hm t _
  · exact hd

end Trails

/-- The lag of the bank is counted, or over. -/
structure LagOf (lag same : Bool) (z c : Chip) : Prop where
  wf : c.heath.status.wf = true
  judged : judged c.twin = (!same, z.twin.askCopy || !same)
  lag : c.st TWIN.BANKLAG 0 = if lag then satAdd TWIN.BANKLAG.width (z.st TWIN.BANKLAG 0) 1 else 0
  drop : c.drop = z.drop
theorem LagOf.of {lag same : Bool} {z d : Chip} (hw : d.heath.status.wf = true) (ht : d.twin = z.twin)
    (hl : d.st TWIN.BANKLAG 0 = if lag then satAdd TWIN.BANKLAG.width (z.st TWIN.BANKLAG 0) 1 else 0) (hd : d.drop = z.drop) :
    LagOf lag same z (d.onTwin fun t => { t with digestBad := !same, askCopy := t.askCopy || !same }) :=
  ⟨hw, congrArg (fun t : Twin => (!same, t.askCopy || !same)) ht, hl, hd⟩
theorem lagOf (c : Chip) (lag same : Bool) (hw : c.heath.status.wf = true) : LagOf lag same c
    ((if lag then c.satSt TWIN.BANKLAG 0 1 else c.setSt TWIN.BANKLAG 0 0).onTwin fun t => { t with digestBad := !same, askCopy := t.askCopy || !same }) := by
  have hst : ∀ v, v < 2 ^ TWIN.BANKLAG.width → (c.setSt TWIN.BANKLAG 0 v).st TWIN.BANKLAG 0 = v := fun v hv =>
    (st_setSt_same c TWIN.BANKLAG 0 v hw (by decide)).trans (Nat.mod_eq_of_lt hv)
  cases lag with
  | true =>
    refine .of (setSt_wf _ _ _ _ hw) (setSt_twin ..) ?_ (setSt_drop ..)
    exact hst (satAdd TWIN.BANKLAG.width (c.st TWIN.BANKLAG 0) 1) (lt_of_le_of_lt (Nat.min_le_left _ _) (by decide))
  | false => exact .of (setSt_wf _ _ _ _ hw) (setSt_twin ..) (hst 0 (by decide)) (setSt_drop ..)

/-- What a record leaves and writes. -/
structure Recorded (r : TickRec) (z c : Chip) : Prop where
  digest : c.twin.digestBad = !r.same
  lag : r.same = true → r.tag.toNat = z.st TWIN.MIRTAG 0 → c.st TWIN.BANKLAG 0 = 0
  behind : r.same = false → c.st TWIN.BANKLAG 0 = satAdd TWIN.BANKLAG.width (z.st TWIN.BANKLAG 0) 1 ∧ c.twin.askCopy = true
  gaps : r.oldest = none → c.twin.gaps = [] ∧ c.st TWIN.MIRLOSS 0 = 0
  drops : ∀ d < 96, ∀ x, r.drops[d]? = some x → Follows d x c

theorem recorded_of {c : Chip} (k : Clock) (r : TickRec) (hw : c.heath.status.wf = true) (hm : c.mirrored = true) : Recorded r c (c.tickRecord k r) := by
  obtain ⟨hr₂, ht₂, hd₂⟩ := c.followed_trails k r
  have hfollow := c.follows_all k r.drops
  unfold tickRecord
  rw [hm, if_neg (by decide)]
  extract_lets c₁ c₂ lag c₃ c₄ past c₅ c₆ c₇ c₈
  have hdrop₂ : ∀ d < 96, ∀ x, r.drops[d]? = some x → Follows d x c₂ := fun d hd x hx => by
    have h := hfollow d hd x hx
    unfold Follows Chip.d at h ⊢
    rw [hd₂]
    exact h
  have hr₂ : Reads (inRow [TWIN.MIRTAG, TWIN.BANKLAG]) c c₂ := hr₂
  have ht₂ : judged c₂.twin = judged c.twin := ht₂
  clear_value c₂
  have hw₂ := hr₂.wf hw
  have htag : c₂.st TWIN.MIRTAG 0 = c.st TWIN.MIRTAG 0 := hr₂.stat hw _ 0 ⟨by decide, rfl⟩
  have hlag : c₂.st TWIN.BANKLAG 0 = c.st TWIN.BANKLAG 0 := hr₂.stat hw _ 0 ⟨by decide, rfl⟩
  obtain ⟨hw₃, hj₃, hl₃, hd₃⟩ : LagOf lag r.same c₂ c₃ := lagOf c₂ lag r.same hw₂
  have hask₂ : c₂.twin.askCopy = c.twin.askCopy := congrArg Prod.snd ht₂
  rw [hask₂] at hj₃
  rw [hlag] at hl₃
  clear_value c₃
  have t₄ : Trails judged [TWIN.BANKLAG] c₃ c₄ := by
    unfold c₄
    split
    · split
      · exact ((Trails.refl c₃).sawGap (fun _ _ => rfl) (inRow_clear rfl) (inRow_clear rfl) k _).onTwin _ fun _ => rfl
      · exact .refl c₃
    · exact (Trails.refl c₃).onTwin _ fun _ => rfl
  clear_value c₄
  have t₅ : Trails judged [TWIN.BANKLAG] c₃ c₅ := by
    unfold c₅
    split
    · have hg : Trails judged [TWIN.BANKLAG] c₃ (c₄.onTwin fun t => { t with gaps := [] }) := t₄.onTwin _ fun _ => rfl
      exact hg.setSt _ (inRow_clear rfl)
    · exact t₄
  have hgap : r.oldest = none → c₅.twin.gaps = [] ∧ c₅.st TWIN.MIRLOSS 0 = 0 := fun ho => by
    have hpast : past = true := by
      unfold past
      rw [ho]
    have hc₅ : c₅ = (c₄.onTwin fun t => { t with gaps := [] }).setSt TWIN.MIRLOSS 0 0 := if_pos hpast
    have hst := st_setSt_same (c₄.onTwin fun t => { t with gaps := [] }) TWIN.MIRLOSS 0 0 (t₄.stat.wf hw₃) (by decide)
    have htw := setSt_twin (c₄.onTwin fun t => { t with gaps := [] }) TWIN.MIRLOSS 0 0
    rw [← hc₅] at hst htw
    exact ⟨congrArg Twin.gaps htw, hst.trans (Nat.zero_mod _)⟩
  clear_value c₅
  have t₆ : Trails judgedGaps [TWIN.BANKLAG, TWIN.MIRLOSS] c₅ c₆ := (Trails.refl c₅).setHorizon itemSafe_gaps (fun _ _ => rfl) k _
  clear_value c₆
  have t₇ : Trails judgedGaps [TWIN.BANKLAG, TWIN.MIRLOSS] c₅ c₇ := t₆.followAttach (fun _ _ => rfl) (inRow_clear rfl) k r
  clear_value c₇
  have t₈ : Trails judgedGaps [TWIN.BANKLAG, TWIN.MIRLOSS] c₅ c₈ := by
    unfold c₈
    split
    · exact t₇.onTwin _ fun _ => rfl
    · exact t₇.onTwin _ fun _ => rfl
    · exact t₇
  clear_value c₈
  have t : Trails judgedGaps [TWIN.BANKLAG, TWIN.MIRLOSS] c₅ (c₈.syncTwin k) := t₈.calm (fun _ => rfl) rfl (.syncTwin k (.refl _))
  generalize c₈.syncTwin k = e at t
  have hw₅ := t₅.stat.wf hw₃
  have hdigest : e.twin.digestBad = !r.same := by
    have e₁ := congrArg (fun p : Bool × Bool × List Nat => p.1) t.twin
    have e₂ := congrArg Prod.fst t₅.twin
    exact Eq.trans e₁ (Eq.trans e₂ (congrArg Prod.fst hj₃))
  have hask : e.twin.askCopy = (c.twin.askCopy || !r.same) := by
    have e₁ := congrArg (fun p : Bool × Bool × List Nat => p.2.1) t.twin
    have e₂ := congrArg Prod.snd t₅.twin
    exact Eq.trans e₁ (Eq.trans e₂ (congrArg Prod.snd hj₃))
  have hgaps : e.twin.gaps = c₅.twin.gaps := congrArg (fun p : Bool × Bool × List Nat => p.2.2) t.twin
  have hblag : e.st TWIN.BANKLAG 0 = if lag then satAdd TWIN.BANKLAG.width (c.st TWIN.BANKLAG 0) 1 else 0 :=
    (t.stat.stat hw₅ _ 0 ⟨by decide, rfl⟩).trans ((t₅.stat.stat hw₃ _ 0 ⟨by decide, rfl⟩).trans hl₃)
  refine ⟨hdigest, fun hs htg => ?_, fun hs => ⟨?_, by rw [hask, hs]; simp⟩, fun ho => ⟨hgaps.trans (hgap ho).1, ?_⟩, fun d hd x hx => ?_⟩
  · rw [hblag, if_neg]
    unfold lag
    simp [hs, htag, htg]
  · rw [hblag, if_pos]
    unfold lag
    simp [hs]
  · exact (t.stat.stat hw₅ TWIN.MIRLOSS 0 ⟨by decide, rfl⟩).trans (hgap ho).2
  · have h := hdrop₂ d hd x hx
    unfold Follows Chip.d at h ⊢
    rw [t.drop, t₅.drop, hd₃]
    exact h

end Chip
theorem tickRecord_spec (r : TickRec) (s : State) (hs : s.serving) (hm : s.chip.mirrored = true) :
    ∃ t, exec (.tickRecord r) s = .next t ∧ s.Holds t ∧ t.chip.twin.digestBad = !r.same ∧
      (r.same = true → r.tag.toNat = s.chip.st TWIN.MIRTAG 0 → t.chip.st TWIN.BANKLAG 0 = 0) ∧
      (r.same = false → t.chip.st TWIN.BANKLAG 0 = satAdd TWIN.BANKLAG.width (s.chip.st TWIN.BANKLAG 0) 1 ∧ t.chip.twin.askCopy = true) ∧
      (r.oldest = none → t.chip.twin.gaps = [] ∧ t.chip.st TWIN.MIRLOSS 0 = 0) ∧
      ∀ d < 96, ∀ u sm live nx, r.drops[d]? = some (u, sm, live, nx) →
        (t.chip.d d).genLive = live ∧ (t.chip.d d).genNext = nx ∧ (t.chip.d d).inUse = bit u ∧ (t.chip.d d).sm.code = sm.val := by
  have hexec : exec (.tickRecord r) s = .next { s with chip := s.chip.tickRecord s.clk r } := congrArg Host.Outcome.next (hs.act _)
  have h := Chip.recorded_of s.clk r hs.wf hm
  generalize s.chip.tickRecord s.clk r = d at hexec h
  exact ⟨_, hexec, holds_of_coreEdge rfl hexec, h.digest, h.lag, h.behind, h.gaps, fun e he u sm live nx hx => h.drops e he _ hx⟩

/-- Settles O54: the link, its markers and its records, each by what it leaves and writes. -/
theorem twinLink : Obligations.TwinLink := by
  unfold Obligations.TwinLink
  refine ⟨linkUp_spec, linkDown_spec, laneMarker_spec, tickRecord_spec, fun w r a t1 a' t2 p arm s hr => ⟨?_, ?_, ?_, ?_⟩⟩
  · refine congrArg Host.Outcome.next (State.act_same ?_)
    exact if_pos (.inl hr)
  · refine congrArg Host.Outcome.next (State.act_same ?_)
    exact if_pos hr
  · refine congrArg Host.Outcome.next (State.act_same ?_)
    exact if_pos (by simp [Chip.mirrored, hr])
  · refine congrArg Host.Outcome.next (State.act_same ?_)
    exact if_pos hr

end Sys2Proof.Machine
end

section
/-! PROOFS. Descriptors of items (R387, R391 to R393). -/

namespace Sys2Proof.Machine
open Sys2Proof

namespace Chip

/-! ### An ADD -/

/-- What the twin engine holds of descriptors. -/
def descriptors (t : Twin) : List Desc × Option Nat × List Nat := (t.adds, t.lastSeq, t.gaps)
theorem itemSafe_descriptors : ItemSafe descriptors [TWIN.MIRLOSS] := ⟨fun _ => rfl, fun _ => rfl, rfl, inRow_clear rfl, inRow_clear rfl⟩

theorem sawGap_trib (c : Chip) (k : Clock) (n : Nat) : (c.sawGap k n).trib = c.trib := by
  unfold sawGap
  rw [cause_trib, setSt_trib]
  rfl
theorem sawGap_twin (c : Chip) (k : Clock) (n : Nat) : (c.sawGap k n).twin = { c.twin with gaps := c.twin.gaps ++ [n], lossNow := true } := by
  unfold sawGap
  rw [cause_twin, setSt_twin]
  rfl
theorem sawGap_loss {c : Chip} (k : Clock) (n : Nat) (hw : c.heath.status.wf = true) :
    (c.sawGap k n).heath.status.wf = true ∧ (c.sawGap k n).st TWIN.MIRLOSS 0 = 1 := by
  have hw₁ : ((c.onTwin fun t => { t with gaps := t.gaps ++ [n], lossNow := true }).setSt TWIN.MIRLOSS 0 1).heath.status.wf = true :=
    setSt_wf _ _ _ _ hw
  refine ⟨cause_wf _ _ _ _ _ hw₁, (st_cause_orSt ..).trans ?_⟩
  exact (st_setSt_other (f := TWIN.MIRLOSS) _ hw₁ rfl rfl (by decide) (by decide) (.inr (.inr rfl))).trans
    (st_setSt_same (c.onTwin _) TWIN.MIRLOSS 0 1 hw (by decide))

/-- What the number of a descriptor leaves and writes. -/
structure SeqTaken (n : Nat) (z c : Chip) : Prop where
  trib : c.trib = z.trib
  adds : c.twin.adds = z.twin.adds
  last : c.twin.lastSeq = some n
  wf : z.heath.status.wf = true → c.heath.status.wf = true
  next : z.twin.lastSeq = none ∨ (∃ l, z.twin.lastSeq = some l ∧ n = (l + 1) % 2 ^ 32) → c.twin.gaps = z.twin.gaps
  gap : ∀ l, z.twin.lastSeq = some l → n ≠ (l + 1) % 2 ^ 32 → c.twin.gaps = z.twin.gaps ++ [(n + 2 ^ 32 - 1) % 2 ^ 32] ∧
    (z.heath.status.wf = true → c.st TWIN.MIRLOSS 0 = 1)

theorem seqTaken_of (c : Chip) (k : Clock) (n : Nat) : SeqTaken n c (c.takeSeq k n) := by
  unfold takeSeq
  cases hl : c.twin.lastSeq with
  | none => exact ⟨rfl, rfl, rfl, id, fun _ => rfl, fun l h => by rw [hl] at h; cases h⟩
  | some l =>
    dsimp only
    split
    next h => exact ⟨rfl, rfl, rfl, id, fun _ => rfl, fun l' h' hne => absurd h (by rw [hl] at h'; cases h'; exact hne)⟩
    next h =>
      have htwin := c.sawGap_twin k ((n + 2 ^ 32 - 1) % 2 ^ 32)
      have htrib := c.sawGap_trib k ((n + 2 ^ 32 - 1) % 2 ^ 32)
      have hloss := fun hw => c.sawGap_loss k ((n + 2 ^ 32 - 1) % 2 ^ 32) hw
      generalize c.sawGap k ((n + 2 ^ 32 - 1) % 2 ^ 32) = d at htwin htrib hloss
      have hadds : d.twin.adds = c.twin.adds := by rw [htwin]
      have hgaps : d.twin.gaps = c.twin.gaps ++ [(n + 2 ^ 32 - 1) % 2 ^ 32] := by rw [htwin]
      refine ⟨htrib, hadds, rfl, fun hw => (hloss hw).1, ?_, fun l' _ _ => ⟨hgaps, fun hw => (hloss hw).2⟩⟩
      rintro (h' | ⟨l', h', hn⟩)
      · rw [hl] at h'
        cases h'
      · rw [hl] at h'
        cases h'
        exact absurd hn h

/-- An ADD without a copy becomes the newest descriptor. -/
theorem addDesc_trails {c : Chip} (k : Clock) (x : Desc) (h : c.copyFor x = none) :
    Trails descriptors [TWIN.MIRLOSS] ((c.takeSeq k x.seq).onTwin fun t => { t with adds := t.adds ++ [x] }) (c.addDesc k x) := by
  have hcopy : (c.takeSeq k x.seq).copyFor x = none := by
    unfold copyFor items Chip.t at h ⊢
    rw [(c.seqTaken_of k x.seq).trib]
    exact h
  unfold addDesc
  dsimp only
  rw [hcopy]
  exact (Trails.refl _).setHorizon itemSafe_descriptors (fun _ _ => rfl) k _

end Chip

theorem add_spec (seq : Nat) (tr : Byte) (up : Bool) (len lt i cell : Nat) (st crc : Word) (s : State) (hs : s.serving) (hm : s.chip.mirrored = true)
    (hc : s.chip.copyFor { seq := seq % 2 ^ 32, trib := tr.toNat, up, len, crc, comAt := s.chip.lineEvc s.clk lt i, cell, stamp := st } = none) :
    ∃ t, exec (.add seq tr up len lt i cell st crc) s = .next t ∧ s.Holds t ∧
      t.chip.twin.adds = s.chip.twin.adds ++
        [{ seq := seq % 2 ^ 32, trib := tr.toNat, up, len, crc, comAt := s.chip.lineEvc s.clk lt i, cell, stamp := st }] ∧
      t.chip.twin.lastSeq = some (seq % 2 ^ 32) ∧
      (s.chip.twin.lastSeq = none ∨ (∃ l, s.chip.twin.lastSeq = some l ∧ seq % 2 ^ 32 = (l + 1) % 2 ^ 32) →
        t.chip.twin.gaps = s.chip.twin.gaps) ∧
      (∀ l, s.chip.twin.lastSeq = some l → seq % 2 ^ 32 ≠ (l + 1) % 2 ^ 32 →
        t.chip.twin.gaps = s.chip.twin.gaps ++ [(seq % 2 ^ 32 + 2 ^ 32 - 1) % 2 ^ 32] ∧ t.chip.st TWIN.MIRLOSS 0 = 1) := by
  generalize hx : ({ seq := seq % 2 ^ 32, trib := tr.toNat, up, len, crc, comAt := s.chip.lineEvc s.clk lt i, cell, stamp := st } : Desc) = x at hc
  have hexec : exec (.add seq tr up len lt i cell st crc) s = .next { s with chip := s.chip.addDesc s.clk x } := by
    refine congrArg Host.Outcome.next ((hs.act _).trans ?_)
    rw [if_pos hm, ← hx]
  have hseq : x.seq = seq % 2 ^ 32 := by rw [← hx]
  have h := Chip.addDesc_trails s.clk x hc
  have hn := s.chip.seqTaken_of s.clk x.seq
  rw [hseq] at h hn
  generalize s.chip.addDesc s.clk x = d at hexec h
  generalize s.chip.takeSeq s.clk (seq % 2 ^ 32) = e at h hn
  have hadds : d.twin.adds = e.twin.adds ++ [x] := congrArg (fun p : List Desc × Option Nat × List Nat => p.1) h.twin
  have hlast : d.twin.lastSeq = e.twin.lastSeq := congrArg (fun p : List Desc × Option Nat × List Nat => p.2.1) h.twin
  have hgaps : d.twin.gaps = e.twin.gaps := congrArg (fun p : List Desc × Option Nat × List Nat => p.2.2) h.twin
  refine ⟨_, hexec, holds_of_coreEdge rfl hexec, hadds.trans (by rw [hn.adds]), hlast.trans hn.last, fun hl => hgaps.trans (hn.next hl), fun l hl hne => ?_⟩
  obtain ⟨hg, hloss⟩ := hn.gap l hl hne
  exact ⟨hgaps.trans hg, (h.stat.stat (hn.wf hs.wf) TWIN.MIRLOSS 0 ⟨by decide, rfl⟩).trans (hloss hs.wf)⟩

/-! ### A CUT -/

namespace Chip

/-- The gaps of descriptors and the horizon. -/
def gapsHorizon (t : Twin) : List Nat × Nat := (t.gaps, t.horizon)
theorem itemSafe_horizon : ItemSafe gapsHorizon [TWIN.MIRLOSS] := ⟨fun _ => rfl, fun _ => rfl, rfl, inRow_clear rfl, inRow_clear rfl⟩

/-- The horizon moves on to `e`. -/
def reached (e : Nat) (t : Twin) : Twin := { t with horizon := max t.horizon e }
theorem gapsHorizon_reached (c : Chip) (e : Nat) : gapsHorizon (c.onTwin (reached e)).twin = (c.twin.gaps, max c.twin.horizon e) := rfl
theorem setHorizon_whole (c : Chip) (k : Clock) (e : Nat) (h : c.twin.gaps = []) :
    c.setHorizon k e = (c.onTwin (reached e)).sweepCopies k := if_pos h
theorem setHorizon_gap (c : Chip) (k : Clock) (f : Twin → Twin) (e : Nat) (h : (f c.twin).gaps ≠ []) :
    (c.onTwin f).setHorizon k e = c.onTwin f := if_neg h

end Chip

theorem cut_ahead (seq lt i l : Nat) (s : State) (hs : s.serving) (hm : s.chip.mirrored = true) (hl : s.chip.twin.lastSeq = some l)
    (ha : seqAfter seq l = true) :
    ∃ t, exec (.cut seq lt i) s = .next t ∧ s.Holds t ∧ t.chip.twin.gaps = s.chip.twin.gaps ++ [seq % 2 ^ 32] ∧
      t.chip.twin.lastSeq = some (seq % 2 ^ 32) ∧ t.chip.st TWIN.MIRLOSS 0 = 1 ∧ t.chip.twin.horizon = s.chip.twin.horizon := by
  have htwin := s.chip.sawGap_twin s.clk (seq % 2 ^ 32)
  obtain ⟨-, hloss⟩ := s.chip.sawGap_loss s.clk (seq % 2 ^ 32) hs.wf
  obtain ⟨d, hd⟩ : ∃ d, s.chip.sawGap s.clk (seq % 2 ^ 32) = d := ⟨_, rfl⟩
  rw [hd] at htwin hloss
  have hgaps : d.twin.gaps = s.chip.twin.gaps ++ [seq % 2 ^ 32] := by rw [htwin]
  have hhor : d.twin.horizon = s.chip.twin.horizon := by rw [htwin]
  have hexec : exec (.cut seq lt i) s = .next { s with chip := d.onTwin fun t => { t with lastSeq := some (seq % 2 ^ 32) } } := by
    refine congrArg Host.Outcome.next ((hs.act _).trans ?_)
    rw [if_pos hm, hl]
    dsimp only
    rw [if_pos ha, hd, Chip.setHorizon_gap]
    rw [hgaps]
    simp
  exact ⟨_, hexec, holds_of_coreEdge rfl hexec, hgaps, rfl, hloss, hhor⟩

theorem cut_behind (seq lt i l : Nat) (s : State) (hs : s.serving) (hm : s.chip.mirrored = true) (hl : s.chip.twin.lastSeq = some l)
    (ha : seqAfter seq l = false) (hg : s.chip.twin.gaps = []) :
    ∃ t, exec (.cut seq lt i) s = .next t ∧ s.Holds t ∧ t.chip.twin.gaps = [] ∧
      t.chip.twin.horizon = max s.chip.twin.horizon (s.chip.lineEvc s.clk lt i) := by
  have hexec : exec (.cut seq lt i) s = .next { s with
      chip := (s.chip.onTwin (Chip.reached (s.chip.lineEvc s.clk lt i))).sweepCopies s.clk } := by
    refine congrArg Host.Outcome.next ((hs.act _).trans ?_)
    rw [if_pos hm, hl]
    dsimp only
    rw [if_neg (by simp [ha]), Chip.setHorizon_whole _ _ _ hg]
  generalize s.chip.lineEvc s.clk lt i = e at hexec ⊢
  have h := (Chip.Trails.refl (s.chip.onTwin (Chip.reached e))).sweepCopies Chip.itemSafe_horizon s.clk
  have hgh := h.twin
  rw [Chip.gapsHorizon_reached] at hgh
  generalize Chip.sweepCopies _ s.clk = d at hexec hgh
  obtain ⟨hgaps, hhor⟩ := Prod.mk.inj hgh
  exact ⟨_, hexec, holds_of_coreEdge rfl hexec, hgaps.trans hg, hhor⟩

/-! ### A RETIRE -/

namespace Chip

/-- The items of a tributary are among those before. -/
def Sheds (z c : Chip) : Prop := ∀ t up, ∀ it ∈ c.items t up, it ∈ z.items t up
/-- No item of a tributary carries the number `n`. -/
def NoSeq (n : Nat) (t : Nat) (c : Chip) : Prop := ∀ up, ∀ it ∈ c.items t up, it.seq ≠ some n

theorem Sheds.noSeq {n t : Nat} {z c : Chip} (h : Sheds z c) (hz : NoSeq n t z) : NoSeq n t c := fun up it hit => hz up it (h t up it hit)

theorem items_onT (c : Chip) (i : Nat) (f : Trib → Trib) (hu : ∀ x, (f x).up = x.up) (hd : ∀ x, (f x).dn = x.dn) (t : Nat) (up : Bool) :
    (c.onT i f).items t up = c.items t up := by
  by_cases hti : t = i
  · subst hti
    by_cases ht : t < 256
    · unfold items
      rw [t_onT _ ht, hu, hd]
    · exact congrArg (fun x : Trib => if up then x.up else x.dn) (vupd_out _ _ _ _ _ (by omega))
  · unfold items
    rw [t_onT_other _ _ _ _ hti]
theorem items_discardItem (c : Chip) (k : Clock) (it : Item) (t : Nat) (up : Bool) : (c.discardItem k it cShade).items t up = c.items t up := by
  have hf := (c.discardItem_freed k it (cause := cShade) (by decide)).trib
  calc (c.discardItem k it cShade).items t up = (c.countDisc it.trib it.up cShade).items t up := by unfold items Chip.t; rw [hf]
    _ = c.items t up := items_onT _ _ _ (fun x => by split <;> rfl) (fun x => by split <;> rfl) t up
theorem items_discards (k : Clock) (its : List Item) (c : Chip) (t : Nat) (up : Bool) :
    (its.foldl (fun c it => c.discardItem k it cShade) c).items t up = c.items t up := by
  induction its generalizing c with
  | nil => rfl
  | cons it its ih => exact (ih _).trans (c.items_discardItem k it t up)

theorem items_setItems (c : Chip) {t : Nat} (ht : t < 256) (up : Bool) (l : List Item) : (c.setItems t up l).items t up = l := by
  cases up <;> simp [items, setItems, ht]
theorem items_setItems_other (c : Chip) (l : List Item) {t r : Nat} {up up' : Bool} (h : ¬ (r = t ∧ up' = up)) :
    (c.setItems t up l).items r up' = c.items r up' := by
  by_cases hr : r = t
  · subst hr
    by_cases ht : r < 256
    · cases up <;> cases up' <;> simp_all [items, setItems]
    · exact congrArg (fun x : Trib => if up' then x.up else x.dn) (vupd_out _ _ _ _ _ (by omega))
  · simp [items, setItems, t_onT_other _ _ _ _ hr]

/-- The copies of the number `n` leave one list. -/
def dropSeq (k : Clock) (n t : Nat) (c : Chip) (up : Bool) : Chip :=
  let gone := (c.items t up).filter (fun it => it.seq == some n)
  if gone = [] then c
  else gone.foldl (fun c it => c.discardItem k it cShade) (c.setItems t up ((c.items t up).filter (fun it => it.seq != some n)))

theorem retireDesc_eq (c : Chip) (k : Clock) (n : Nat) : c.retireDesc k n =
    overN 256 (fun t c => [false, true].foldl (dropSeq k n t) c) (c.onTwin fun t => { t with adds := t.adds.filter fun d => d.seq != n }) := rfl

/-- Of the list that sheds the copies none is left in it, and every other list stays. -/
theorem dropSeq_items {c : Chip} (k : Clock) (n : Nat) {t : Nat} (ht : t < 256) (up : Bool) :
    Sheds c (c.dropSeq k n t up) ∧ ∀ it ∈ (c.dropSeq k n t up).items t up, it.seq ≠ some n := by
  unfold dropSeq
  dsimp only
  split
  next h => exact ⟨fun _ _ _ h => h, fun it hit he => by simpa using List.filter_eq_nil_iff.mp h it hit (by simp [he])⟩
  next =>
    unfold Sheds
    simp only [items_discards]
    refine ⟨fun r up' it hit => ?_, fun it hit he => ?_⟩
    · by_cases hsame : r = t ∧ up' = up
      · obtain ⟨rfl, rfl⟩ := hsame
        rw [items_setItems _ ht] at hit
        exact List.mem_of_mem_filter hit
      · rw [items_setItems_other _ _ hsame] at hit
        exact hit
    · rw [items_setItems _ ht] at hit
      simp [he] at hit

theorem dropSeqs_items {c : Chip} (k : Clock) (n : Nat) {t : Nat} (ht : t < 256) :
    Sheds c ([false, true].foldl (dropSeq k n t) c) ∧ NoSeq n t ([false, true].foldl (dropSeq k n t) c) := by
  obtain ⟨hdn, hdn'⟩ := dropSeq_items (c := c) k n ht false
  obtain ⟨hup, hup'⟩ := dropSeq_items (c := c.dropSeq k n t false) k n ht true
  refine ⟨fun r up it hit => hdn r up it (hup r up it hit), fun up it hit => ?_⟩
  cases up with
  | true => exact hup' it hit
  | false => exact hdn' it (hup t false it hit)
theorem retireDesc_items (c : Chip) (k : Clock) (n : Nat) : ∀ t, NoSeq n t (c.retireDesc k n) := by
  rw [retireDesc_eq]
  obtain ⟨-, h⟩ := overN_each (P := NoSeq n) (fun _ => True) (n := 256) (f := fun t c => [false, true].foldl (dropSeq k n t) c)
    (a := c.onTwin fun t => { t with adds := t.adds.filter fun d => d.seq != n }) trivial (fun _ _ _ _ => trivial)
    (fun t ht c _ => (dropSeqs_items k n ht).2) fun _ t ht c _ hc => (dropSeqs_items k n ht).1.noSeq hc
  intro t
  by_cases ht : t < 256
  · exact h t ht
  · intro up it hit
    unfold items Chip.t vget at hit
    rw [Vector.getElem?_eq_none (by omega)] at hit
    cases up <;> cases hit

theorem itemSafe_adds : ItemSafe Twin.adds [] := ⟨fun _ => rfl, fun _ => rfl, rfl, inRow_clear rfl, inRow_clear rfl⟩
theorem Trails.dropSeq {z c : Chip} (k : Clock) (n t : Nat) (up : Bool) (h : Trails Twin.adds [] z c) : Trails Twin.adds [] z (c.dropSeq k n t up) := by
  unfold Chip.dropSeq
  exact .ite h (.foldl _ (h.onT _ _) fun _ it hd => hd.discardItem itemSafe_adds k it)
theorem retireDesc_adds (c : Chip) (k : Clock) (n : Nat) : (c.retireDesc k n).twin.adds = c.twin.adds.filter fun d => d.seq != n := by
  rw [retireDesc_eq]
  obtain ⟨h, -⟩ := overN_each (P := fun _ _ => True) (n := 256) (f := fun t c => [false, true].foldl (Chip.dropSeq k n t) c)
    (Trails Twin.adds [] (c.onTwin fun t => { t with adds := t.adds.filter fun d => d.seq != n })) (.refl _)
    (fun t _ c hc => Trails.foldl _ hc fun _ up hd => hd.dropSeq k n t up) (fun _ _ _ _ => trivial) fun _ _ _ _ _ _ => trivial
  exact h.twin

end Chip

theorem retire_spec (seq : Nat) (ok : Bool) (s : State) (hs : s.serving) (hm : s.chip.mirrored = true) :
    ∃ t, exec (.retire seq ok) s = .next t ∧ s.Holds t ∧ (∀ x ∈ t.chip.twin.adds, x.seq ≠ seq % 2 ^ 32) ∧
      (∀ x ∈ s.chip.twin.adds, x.seq ≠ seq % 2 ^ 32 → x ∈ t.chip.twin.adds) ∧
      ∀ r up, ∀ it ∈ t.chip.items r up, it.seq ≠ some (seq % 2 ^ 32) := by
  generalize hn : seq % 2 ^ 32 = n
  have hexec : exec (.retire seq ok) s = .next { s with chip := s.chip.retireDesc s.clk n } := by
    refine congrArg Host.Outcome.next ((hs.act _).trans ?_)
    rw [if_pos hm, hn]
  have hadds := s.chip.retireDesc_adds s.clk n
  have hitems := s.chip.retireDesc_items s.clk n
  generalize s.chip.retireDesc s.clk n = d at hexec hadds hitems
  have hmem : ∀ x, x ∈ d.twin.adds ↔ x ∈ s.chip.twin.adds ∧ x.seq ≠ n := fun x => by rw [hadds]; simp
  exact ⟨_, hexec, holds_of_coreEdge rfl hexec, fun x hx => ((hmem x).mp hx).2, fun x hx hne => (hmem x).mpr ⟨hx, hne⟩, hitems⟩

/-- Settles O56: an ADD without a copy becomes the newest descriptor, a RETIRE takes its descriptor and its copies, and a CUT beyond the
last number is a gap. -/
theorem mirrorDescriptors : Obligations.MirrorDescriptors :=
  ⟨fun seq tr up len lt i cell st crc s hs hm hc => add_spec seq tr up len lt i cell st crc s hs hm hc,
    fun seq ok s hs hm => retire_spec seq ok s hs hm,
    fun seq lt i l s hs hm hl => ⟨cut_ahead seq lt i l s hs hm hl, cut_behind seq lt i l s hs hm hl⟩,
    fun seq tr up ok len lt i cell st crc s hm =>
      ⟨congrArg Host.Outcome.next (State.act_same (if_neg (by simp [hm]))), congrArg Host.Outcome.next (State.act_same (if_neg (by simp [hm]))),
        congrArg Host.Outcome.next (State.act_same (if_neg (by simp [hm])))⟩⟩

end Sys2Proof.Machine
end

section
/-! PROOFS. Timed outputs and PTP messages (R301 to R310). -/

namespace Sys2Proof.Machine
open Sys2Proof

namespace Chip

/-! ### Status words around a cause -/

theorem st_cause_other {c : Chip} (k : Clock) (g : CauseReg) {f : Fld} {r q : Nat} (bits : Nat) (hw : c.heath.status.wf = true)
    (hf : f.fits = true) (hg : g.cause.fits = true) (hr : r < 4096) (hq : q < 4096) (h : f.tab ≠ g.cause.tab ∨ r ≠ q ∨ f.apart g.cause = true) :
    (c.cause k g q bits).st f r = c.st f r := (st_cause_orSt ..).trans (st_setSt_other _ hw hf hg hr hq h)
theorem hasCause_setSt {c : Chip} {g : CauseReg} {f : Fld} {r q n : Nat} (v : Nat) (hw : c.heath.status.wf = true) (hg : g.cause.fits = true)
    (hf : f.fits = true) (hr : r < 4096) (hq : q < 4096) (h : g.cause.tab ≠ f.tab ∨ r ≠ q ∨ g.cause.apart f = true)
    (hc : c.hasCause g r n) : (c.setSt f q v).hasCause g r n := (congrArg (Nat.testBit · n) (st_setSt_other v hw hg hf hr hq h)).trans hc

/-! ### An active edge -/

theorem out_onOut (c : Chip) {o : Nat} (ho : o < 9) (f : Output → Output) : (c.onOut o f).out o = f (c.out o) :=
  vget_vupd_same c.tim.out o f {} ho
theorem out_setSt (c : Chip) (f : Fld) (r v o : Nat) : (c.setSt f r v).out o = c.out o := by unfold out; rw [setSt_tim]
theorem out_addSt (c : Chip) (f : Fld) (r v o : Nat) : (c.addSt f r v).out o = c.out o := by unfold out; rw [addSt_tim]
theorem out_cause (c : Chip) (k : Clock) (g : CauseReg) (r b o : Nat) : (c.cause k g r b).out o = c.out o := by unfold out; rw [cause_tim]

theorem syncOut_out (c : Chip) (o : Nat) : (c.syncOut o).out o = c.out o := by
  unfold syncOut
  dsimp only
  split
  · exact out_setSt ..
  · rw [out_setSt, out_setSt]
theorem syncOut_row {c : Chip} {o : Nat} (ho : o < 8) : c.syncOut o =
    (c.setSt TIME.OUT_ACTIVE (6 + o) (bit (c.out o).active)).setSt TIME.OUT_ARMED (6 + o) (bit (c.out o).armed) := by
  unfold syncOut
  exact if_neg (by unfold ppsOut; omega)
theorem syncOut_pps (c : Chip) : c.syncOut 8 = c.setSt TIME.PPS_ACTIVE 14 (bit (c.out 8).active) := by
  unfold syncOut
  exact if_pos rfl
/-- ACTIVE of an output, and what is apart from ACTIVE and ARMED. -/
theorem syncOut_st {c : Chip} (hw : c.heath.status.wf = true) {o : Nat} (ho : o < 8) :
    (c.syncOut o).st TIME.OUT_ACTIVE (6 + o) = bit (c.out o).active ∧
      ∀ f : Fld, f.fits = true → f.apart TIME.OUT_ACTIVE = true → f.apart TIME.OUT_ARMED = true → (c.syncOut o).st f (6 + o) = c.st f (6 + o) := by
  have hr : 6 + o < 4096 := by omega
  have hw₁ := setSt_wf c TIME.OUT_ACTIVE (6 + o) (bit (c.out o).active) hw
  rw [syncOut_row ho]
  refine ⟨?_, fun f hf ha hd => ?_⟩
  · rw [st_setSt_other _ hw₁ rfl rfl hr hr (.inr (.inr rfl)), st_setSt_same _ _ _ _ hw (by decide)]
    cases (c.out o).active <;> rfl
  · rw [st_setSt_other _ hw₁ hf rfl hr hr (.inr (.inr hd)), st_setSt_other _ hw hf rfl hr hr (.inr (.inr ha))]

/-- What an active edge of output `o` leaves: the pulse, its stamp and its count. -/
structure EdgeMade (k : Clock) (o : Nat) (width : Fld) (last fires : Fld) (z c : Chip) : Prop where
  active : (c.out o).active = true
  ends : (c.out o).pulseEnd = k.evc + z.lv width (6 + o)
  stamp : c.st last (6 + o) = k.stamp.toNat
  count : c.st fires (6 + o) = wrapAdd fires.width (z.st fires (6 + o)) 1

theorem stamp_lt (k : Clock) : k.stamp.toNat % 2 ^ 32 = k.stamp.toNat := Nat.mod_eq_of_lt k.stamp.isLt

theorem edgeMade_of {c : Chip} (k : Clock) {o : Nat} (t : Nat) (hw : c.heath.status.wf = true) (ho : o < 8) :
    EdgeMade k o TIME.OUT_WIDTH TIME.OUT_LASTEDGE TIME.OUT_FIRES c (c.makeEdge k o t) ∧ (c.makeEdge k o t).st TIME.OUT_ACTIVE (6 + o) = 1 := by
  unfold makeEdge
  extract_lets x c₁ cp r one c₂ c₃
  rw [if_neg (by unfold ppsOut; omega)]
  have hr : 6 + o < 4096 := by omega
  have hw₂ : c₂.heath.status.wf = true := hw
  have hst₂ : c₂.st TIME.OUT_FIRES (6 + o) = c.st TIME.OUT_FIRES (6 + o) := rfl
  have hact : (c₂.out o).active = true := congrArg Output.active (c₁.out_onOut (by omega) _)
  have hend : (c₂.out o).pulseEnd = k.evc + c.lv TIME.OUT_WIDTH (6 + o) := congrArg Output.pulseEnd (c₁.out_onOut (by omega) _)
  clear_value c₂
  have hwf := addSt_wf c₂ TIME.OUT_FIRES r 1 hw₂
  have hw₃ : c₃.heath.status.wf = true := setSt_wf _ _ _ _ hwf
  have hout₃ : c₃.out o = c₂.out o := (out_setSt ..).trans (out_addSt ..)
  have hfires : c₃.st TIME.OUT_FIRES (6 + o) = wrapAdd 32 (c.st TIME.OUT_FIRES (6 + o)) 1 :=
    (st_setSt_other _ hwf rfl rfl hr hr (.inr (.inr rfl))).trans ((st_addSt_same c₂ _ _ _ hw₂ (by decide)).trans (by rw [hst₂]; rfl))
  have hlast : c₃.st TIME.OUT_LASTEDGE (6 + o) = k.stamp.toNat := (st_setSt_same _ _ _ _ hwf (by decide)).trans (stamp_lt k)
  clear_value c₃
  obtain ⟨d, hd⟩ : ∃ d, (if (one || x.first) = true then c₃.cause k .tout r 1 else c₃) = d := ⟨_, rfl⟩
  rw [hd]
  have hdout : d.out o = c₃.out o := by
    rw [← hd]
    split
    · exact out_cause ..
    · rfl
  have hdw : d.heath.status.wf = true := by
    rw [← hd]
    split
    · exact cause_wf _ _ _ _ _ hw₃
    · exact hw₃
  have hdst : ∀ f : Fld, f.fits = true → f.apart CauseReg.tout.cause = true → d.st f (6 + o) = c₃.st f (6 + o) := fun f hf ha => by
    rw [← hd]
    split
    · exact st_cause_other _ _ _ hw₃ hf rfl hr hr (.inr (.inr ha))
    · rfl
  obtain ⟨hA, hS⟩ := syncOut_st hdw ho
  have hout : (d.syncOut o).out o = c₂.out o := (syncOut_out ..).trans (hdout.trans hout₃)
  refine ⟨⟨by rw [hout, hact], by rw [hout, hend], ?_, ?_⟩, ?_⟩
  · rw [hS _ rfl rfl rfl, hdst _ rfl rfl, hlast]
  · rw [hS _ rfl rfl rfl, hdst _ rfl rfl, hfires]
    rfl
  · rw [hA, hdout, hout₃, hact]
    rfl

theorem ppsMade_of {c : Chip} (k : Clock) (t : Nat) (hw : c.heath.status.wf = true) :
    EdgeMade k 8 TIME.PPS_WIDTH TIME.PPS_LASTEDGE TIME.PPS_PULSES c (c.makeEdge k 8 t) ∧ (c.makeEdge k 8 t).hasCause .pps 14 0 := by
  unfold makeEdge
  extract_lets x c₁ c₂
  rw [if_pos (show (8 : Nat) = ppsOut from rfl)]
  have hw₂ : c₂.heath.status.wf = true := hw
  have hst₂ : c₂.st TIME.PPS_PULSES 14 = c.st TIME.PPS_PULSES 14 := rfl
  have hact : (c₂.out 8).active = true := congrArg Output.active (c₁.out_onOut (by omega) _)
  have hend : (c₂.out 8).pulseEnd = k.evc + c.lv TIME.PPS_WIDTH 14 := congrArg Output.pulseEnd (c₁.out_onOut (by omega) _)
  clear_value c₂
  have hwf := addSt_wf c₂ TIME.PPS_PULSES 14 1 hw₂
  generalize hd₃ : (c₂.addSt TIME.PPS_PULSES 14 1).setSt TIME.PPS_LASTEDGE 14 k.stamp.toNat = c₃
  have hw₃ : c₃.heath.status.wf = true := by rw [← hd₃]; exact setSt_wf _ _ _ _ hwf
  have hout₃ : c₃.out 8 = c₂.out 8 := by rw [← hd₃, out_setSt, out_addSt]
  have hfires : c₃.st TIME.PPS_PULSES 14 = wrapAdd 32 (c.st TIME.PPS_PULSES 14) 1 := by
    rw [← hd₃, st_setSt_other _ hwf rfl rfl (by decide) (by decide) (.inr (.inr rfl)), st_addSt_same c₂ _ _ _ hw₂ (by decide), hst₂]
    rfl
  have hlast : c₃.st TIME.PPS_LASTEDGE 14 = k.stamp.toNat := by
    rw [← hd₃, st_setSt_same _ _ _ _ hwf (by decide)]
    exact stamp_lt k
  have hw₄ := cause_wf c₃ k .pps 14 1 hw₃
  have hc₄ : (c₃.cause k .pps 14 1).hasCause .pps 14 0 := hasCause_cause .pps 14 1 0 hw₃ rfl (by decide) rfl
  have hst₄ : ∀ f : Fld, f.fits = true → f.apart CauseReg.pps.cause = true → (c₃.cause k .pps 14 1).st f 14 = c₃.st f 14 := fun f hf ha =>
    st_cause_other k .pps 1 hw₃ hf rfl (by decide) (by decide) (.inr (.inr ha))
  have hout₄ : (c₃.cause k .pps 14 1).out 8 = c₂.out 8 := (out_cause ..).trans hout₃
  generalize c₃.cause k .pps 14 1 = c₄ at hw₄ hc₄ hst₄ hout₄
  have hout : (c₄.syncOut 8).out 8 = c₂.out 8 := (syncOut_out ..).trans hout₄
  rw [syncOut_pps] at hout ⊢
  refine ⟨⟨by rw [hout, hact], by rw [hout, hend], ?_, ?_⟩, hasCause_setSt _ hw₄ rfl rfl (by decide) (by decide) (.inr (.inr rfl)) hc₄⟩
  · rw [st_setSt_other _ hw₄ rfl rfl (by decide) (by decide) (.inr (.inr rfl)), hst₄ _ rfl rfl, hlast]
  · rw [st_setSt_other _ hw₄ rfl rfl (by decide) (by decide) (.inr (.inr rfl)), hst₄ _ rfl rfl, hfires]
    rfl

end Chip

namespace State

/-- Edges within the tick move local time with them. -/
theorem elapse_time {s : State} (hs : s.boundaryDone = s) {n : Nat} (hn : n ≤ 124999 - s.clk.idx) :
    (s.elapse n).clk.time = s.clk.time + n := by
  by_cases h0 : n = 0
  · rw [h0, elapse_zero, Nat.add_zero]
  · rw [elapse_clk _ _ h0, depart_clk_of_done s hs, Clock.time, Clock.elapse_ns, Clock.elapse_sec, Clock.time, min_eq_left hn, Nat.add_assoc]

/-- An output that is not active makes its edge where that is due. -/
theorem edge_spec {s : State} (hs : s.serving) {o e : Nat} (he : s.chip.dueEdge s.clk o = some e) (ha : (s.chip.out o).active = false)
    (hin : e - s.clk.time ≤ 124999 - s.clk.idx) :
    ∃ u : State, s.Runs u ∧ s.Flows u ∧ u.clk.time = max s.clk.time e ∧ s.edge o = { u with chip := u.chip.makeEdge u.clk o e } := by
  obtain ⟨hrun, hwf, hset⟩ := hs
  have hdone := State.serving.boundaryDone ⟨hrun, hwf, hset⟩
  have hflow : s.Flows (s.elapse (e - s.clk.time)) := elapse_flows hdone _
  refine ⟨s.elapse (e - s.clk.time), (s.elapse_passes _).runs hset, hflow, (elapse_time hdone hin).trans (by omega), ?_⟩
  have ha' : ((s.elapse (e - s.clk.time)).chip.out o).active = false := by
    unfold Chip.out at ha ⊢
    rw [hflow.outs]
    exact ha
  unfold State.edge
  rw [if_neg (by simp [hrun])]
  dsimp only
  rw [hdone, he]
  dsimp only
  rw [if_neg (by show ¬ 124999 - s.clk.idx < _; omega)]
  generalize s.elapse (e - s.clk.time) = u at ha' ⊢
  have hidle : u.chip.endPulse u.clk o = u.chip := if_neg (by simp [ha'])
  rw [hidle, if_pos (by simp [ha'])]

end State

/-- A count of an output stays while edges pass. -/
theorem State.Flows.outStat {s u : State} (h : s.Flows u) (hs : s.serving) {f : Fld} (hf : f ∈ lastingFields) {r : Nat} (hr : 6 ≤ r ∧ r ≤ 14) :
    u.chip.st f r = s.chip.st f r := by
  have hst := Chip.Flow.stat h hs.wf f hf r ⟨by omega, fun _ => hr⟩
  exact hst

theorem activeEdge_spec (o : Fin 8) (e : Nat) (s : State) (hs : s.serving) (he : s.chip.dueEdge s.clk o.val = some e)
    (ha : (s.chip.out o.val).active = false) (hin : e - s.clk.time ≤ 124999 - s.clk.idx) :
    ∃ t, exec (.activeEdge o) s = .next t ∧ s.Runs t ∧ t.clk.time = max s.clk.time e ∧ (t.chip.out o.val).active = true ∧
      (t.chip.out o.val).pulseEnd = t.clk.evc + s.chip.lv TIME.OUT_WIDTH (6 + o.val) ∧
      t.chip.st TIME.OUT_LASTEDGE (6 + o.val) = t.clk.stamp.toNat ∧ t.chip.st TIME.OUT_ACTIVE (6 + o.val) = 1 ∧
      t.chip.st TIME.OUT_FIRES (6 + o.val) = wrapAdd TIME.OUT_FIRES.width (s.chip.st TIME.OUT_FIRES (6 + o.val)) 1 := by
  obtain ⟨u, hruns, hflow, htime, hedge⟩ := State.edge_spec hs he ha hin
  have hexec : exec (.activeEdge o) s = .next { u with chip := u.chip.makeEdge u.clk o.val e } := congrArg Host.Outcome.next hedge
  have hkeep : Chip.Keeps u.chip (u.chip.makeEdge u.clk o.val e) := .makeEdge _ _ _ (.refl _)
  obtain ⟨⟨hact, hend, hlast, hcount⟩, hA⟩ := Chip.edgeMade_of u.clk e (hflow.wf hs.wf) o.isLt
  have hst : u.chip.st TIME.OUT_FIRES (6 + o.val) = s.chip.st TIME.OUT_FIRES (6 + o.val) := hflow.outStat hs (by decide) (by omega)
  have hlv : u.chip.lv TIME.OUT_WIDTH (6 + o.val) = s.chip.lv TIME.OUT_WIDTH (6 + o.val) := Chip.Flow.lv hflow _ _
  rw [hst] at hcount
  rw [hlv] at hend
  generalize u.chip.makeEdge u.clk o.val e = d at *
  exact ⟨_, hexec, hruns.then_keeps hkeep, htime, hact, hend, hlast, hA, hcount⟩

theorem ppsPulse_spec (e : Nat) (s : State) (hs : s.serving) (he : s.chip.dueEdge s.clk 8 = some e)
    (ha : (s.chip.out 8).active = false) (hin : e - s.clk.time ≤ 124999 - s.clk.idx) :
    ∃ t, exec .ppsPulse s = .next t ∧ s.Runs t ∧ t.clk.time = max s.clk.time e ∧ (t.chip.out 8).active = true ∧
      (t.chip.out 8).pulseEnd = t.clk.evc + s.chip.lv TIME.PPS_WIDTH 14 ∧ t.chip.st TIME.PPS_LASTEDGE 14 = t.clk.stamp.toNat ∧
      t.chip.st TIME.PPS_PULSES 14 = wrapAdd TIME.PPS_PULSES.width (s.chip.st TIME.PPS_PULSES 14) 1 ∧ t.chip.hasCause .pps 14 0 := by
  obtain ⟨u, hruns, hflow, htime, hedge⟩ := State.edge_spec hs he ha hin
  have hexec : exec .ppsPulse s = .next { u with chip := u.chip.makeEdge u.clk 8 e } := congrArg Host.Outcome.next hedge
  have hkeep : Chip.Keeps u.chip (u.chip.makeEdge u.clk 8 e) := .makeEdge _ _ _ (.refl _)
  obtain ⟨⟨hact, hend, hlast, hcount⟩, hC⟩ := Chip.ppsMade_of u.clk e (hflow.wf hs.wf)
  have hst : u.chip.st TIME.PPS_PULSES 14 = s.chip.st TIME.PPS_PULSES 14 := hflow.outStat hs (by decide) (by omega)
  have hlv : u.chip.lv TIME.PPS_WIDTH 14 = s.chip.lv TIME.PPS_WIDTH 14 := Chip.Flow.lv hflow _ _
  rw [hst] at hcount
  rw [hlv] at hend
  generalize u.chip.makeEdge u.clk 8 e = d at *
  exact ⟨_, hexec, hruns.then_keeps hkeep, htime, hact, hend, hlast, hcount, hC⟩

/-! ### The end of a pulse -/

theorem pulseEnd_spec (o : Fin 9) (s : State) (hs : s.serving) (ha : (s.chip.out o.val).active = true)
    (he : (s.chip.out o.val).pulseEnd ≤ s.clk.evc + (124999 - s.clk.idx)) :
    ∃ t, exec (.pulseEnd o) s = .next t ∧ s.Runs t ∧ t.clk.evc = max s.clk.evc (s.chip.out o.val).pulseEnd ∧
      (t.chip.out o.val).active = false ∧ t.chip.st (if o.val = 8 then TIME.PPS_ACTIVE else TIME.OUT_ACTIVE) (6 + o.val) = 0 := by
  obtain ⟨hruns, hflow, hevc, hrun⟩ := State.toEvc_spec hs he
  have hout : (s.toEvc (s.chip.out o.val).pulseEnd).chip.out o.val = s.chip.out o.val :=
    congrArg (fun v => vget v o.val ({} : Output)) hflow.outs
  generalize hu : s.toEvc (s.chip.out o.val).pulseEnd = u at *
  have hd : u.chip.endPulse u.clk o.val = (u.chip.onOut o.val fun x => { x with active := false }).syncOut o.val :=
    if_pos ⟨by rw [hout, ha], by rw [hout]; omega⟩
  have hexec : exec (.pulseEnd o) s = .next { u with chip := u.chip.endPulse u.clk o.val } := by
    refine congrArg Host.Outcome.next ?_
    rw [if_pos (by rw [ha, hs.1]; rfl), hu, State.act_running u _ hrun]
  have hkeep : Chip.Keeps u.chip (u.chip.endPulse u.clk o.val) := .endPulse _ _ (.refl _)
  have hoff : ((u.chip.onOut o.val fun x => { x with active := false }).out o.val).active = false :=
    congrArg Output.active (u.chip.out_onOut o.isLt _)
  have hw : (u.chip.onOut o.val fun x => { x with active := false }).heath.status.wf = true := hflow.wf hs.wf
  rw [hd] at hexec hkeep
  generalize u.chip.onOut o.val (fun x => { x with active := false }) = d at hexec hkeep hoff hw
  have hact : ((d.syncOut o.val).out o.val).active = false := by rw [Chip.syncOut_out, hoff]
  refine ⟨_, hexec, hruns.then_keeps hkeep, hevc, hact, ?_⟩
  by_cases h8 : o.val = 8
  · rw [if_pos h8, h8]
    rw [h8] at hoff
    show (d.syncOut 8).st TIME.PPS_ACTIVE 14 = 0
    rw [Chip.syncOut_pps, hoff, Chip.st_setSt_same _ _ _ _ hw (by decide)]
    rfl
  · rw [if_neg h8]
    refine (Chip.syncOut_st hw (by omega)).1.trans ?_
    rw [hoff]
    rfl

/-! ### PTP messages -/

namespace Chip

/-- The consumer that takes the last byte takes the head item off its queue. -/
theorem qFinish_q (c : Chip) (k : Clock) {i : Nat} (hi : i < 12) :
    (c.qFinish k i).q i = { c.q i with begun := false, items := (c.q i).items.drop 1 } := by
  unfold qFinish
  rw [q_of_que (d := c.onQ i _) ((cause_que ..).trans (qSync_que ..)), q_onQ_same _ _ _ hi]
theorem qFinish_st {c : Chip} (k : Clock) {i : Nat} (hw : c.heath.status.wf = true) (hi : i < 12) {f : Fld} {r : Nat} (hf : f.fits = true)
    (hr : r < 4096) (ht : f.tab ≠ 0x38) : (c.qFinish k i).heath.status.wf = true ∧ (c.qFinish k i).st f r = c.st f r := by
  unfold qFinish qSync
  extract_lets x
  have hi : i < 4096 := by omega
  have hw₀ : (c.onQ i fun x => { x with begun := false, items := x.items.drop 1 }).heath.status.wf = true := hw
  have hst₀ : (c.onQ i fun x => { x with begun := false, items := x.items.drop 1 }).st f r = c.st f r := rfl
  generalize (c.onQ i fun x => { x with begun := false, items := x.items.drop 1 }) = d at hw₀ hst₀ ⊢
  have hw₁ := setSt_wf d QUEUE.USED i (if i < 8 then x.committed else x.held) hw₀
  have hst₁ : (d.setSt QUEUE.USED i (if i < 8 then x.committed else x.held)).st f r = d.st f r :=
    st_setSt_other _ hw₀ hf rfl hr hi (.inl ht)
  generalize d.setSt QUEUE.USED i (if i < 8 then x.committed else x.held) = d₁ at hw₁ hst₁ ⊢
  have hw₂ := setSt_wf d₁ QUEUE.ITEMS i x.items.length hw₁
  have hst₂ : (d₁.setSt QUEUE.ITEMS i x.items.length).st f r = d₁.st f r := st_setSt_other _ hw₁ hf rfl hr hi (.inl ht)
  generalize d₁.setSt QUEUE.ITEMS i x.items.length = d₂ at hw₂ hst₂ ⊢
  refine ⟨cause_wf _ _ _ _ _ hw₂, ?_⟩
  have htab : (qReg i).cause.tab = 0x38 := by unfold qReg; split <;> rfl
  have hfits : (qReg i).cause.fits = true := by unfold qReg; split <;> rfl
  rw [st_cause_other k (qReg i) 2 hw₂ hf hfits hr hi (.inl (by rw [htab]; exact ht)), hst₂, hst₁, hst₀]

/-- A record goes into its own queue alone. -/
theorem qRecord_q {c : Chip} (k : Clock) {i j : Nat} (kind unit : Nat) (bs : List Byte) (e : Nat) (h : j ≠ i) :
    (c.qRecord k i kind unit bs e).1.q j = c.q j := by
  unfold qRecord qDropped
  split
  · rfl
  · split
    · exact q_onQ_other _ _ _ _ h
    · rw [q_of_que (cause_que ..), q_onQ_other _ _ _ _ h, q_of_que (addSt_que ..)]
/-- TQU is none of the downward queues. -/
theorem tqRecord_q (c : Chip) (k : Clock) (unit : Nat) (bs : List Byte) {j : Nat} (hj : 8 ≤ j) : (c.tqRecord k unit bs).1.q j = c.q j := by
  have hne : j ≠ c.lv TIME.TQU 1 := by
    have := c.tqu_lt
    omega
  unfold tqRecord
  split
  · rfl
  · dsimp only
    split
    · refine Eq.trans (b := ((c.onM fun m => { m with brokeTime := false }).qDropped k (c.lv TIME.TQU 1)).q j) rfl ?_
      unfold qDropped
      rw [q_of_que (cause_que ..), q_onQ_other _ _ _ _ hne, q_of_que (addSt_que ..)]
      rfl
    · have hrec := qRecord_q (c := c) k 7 unit bs (k.evc + bs.length - 1) hne
      generalize c.qRecord k (c.lv TIME.TQU 1) 7 unit bs (k.evc + bs.length - 1) = p at hrec ⊢
      obtain ⟨d, ok⟩ := p
      dsimp only
      split <;> exact hrec

theorem lineSend_keeps (c : Chip) (k : Clock) (u : Nat) (bs : List Byte) :
    (c.lineSend k u bs).que = c.que ∧ (c.lineSend k u bs).heath = c.heath := by
  unfold lineSend
  split
  · exact ⟨rfl, rfl⟩
  · dsimp only
    split <;> split <;> exact ⟨rfl, rfl⟩

/-- The head item of a downward queue without errored bits is taken as it is. -/
theorem takeHead_good {c : Chip} (k : Clock) {i : Nat} {ws : List QWord} {l : List (List QWord)} (hq : (c.q i).items = ws :: l)
    (herr : ∀ w ∈ ws, w.err = 0) : c.takeHead k i = (some ws, c) := by
  have hany : ∀ n, n ≠ 0 → ws.any (fun w => w.err == n) = false := fun n hn =>
    List.any_eq_false.mpr fun w hw => by simp [herr w hw, Ne.symm hn]
  unfold takeHead
  rw [hq]
  dsimp only
  rw [hany 1 (by decide), hany 2 (by decide), if_neg Bool.false_ne_true, if_neg Bool.false_ne_true]

end Chip

/-- The head item of the PTP queue, where the part may begin it. -/
structure State.ptpWaits (s : State) (ws : List QWord) (l : List (List QWord)) : Prop where
  serving : s.serving
  on : s.chip.on TIME.PTPDEN 1 = true
  lit : s.chip.shaded = false
  en : s.chip.qEn (8 + s.chip.lv TIME.PTPQD 1) = true
  ready : (s.chip.q (8 + s.chip.lv TIME.PTPQD 1)).ready s.clk = true
  items : (s.chip.q (8 + s.chip.lv TIME.PTPQD 1)).items = ws :: l
  good : ∀ w ∈ ws, w.err = 0

namespace State.ptpWaits
variable {s : State} {ws : List QWord} {l : List (List QWord)}

/-- The control word of the item. -/
def ctl (ws : List QWord) : Nat := (ws.headD ⟨0#32, true, 0, 0⟩).data.toNat

theorem head (h : s.ptpWaits ws l) : s.chip.ptpHead s.clk = some (ctl ws / 2 ^ 28 % 4, ctl ws, itemBytes (ws.drop 1)) := by
  unfold Chip.ptpHead
  dsimp only
  rw [if_neg (by simp [h.on, h.lit, h.en, h.ready]), h.items]
  rfl
theorem inRange (c : Chip) : 8 + c.lv TIME.PTPQD 1 < 12 := by
  have hlt : c.lv TIME.PTPQD 1 < 4 := Fld.get_lt TIME.PTPQD _
  omega
/-- The item leaves its queue, and one count of uplink `u` moves. -/
theorem finish (h : s.ptpWaits ws l) {f : Fld} (hf : f.fits = true) (ht : f.tab = 0x50) :
    (((s.chip.qFinish s.clk (8 + s.chip.lv TIME.PTPQD 1)).addSt f 1 1).q (8 + s.chip.lv TIME.PTPQD 1)).items = l ∧
      ((s.chip.qFinish s.clk (8 + s.chip.lv TIME.PTPQD 1)).addSt f 1 1).st f 1 = wrapAdd f.width (s.chip.st f 1) 1 := by
  obtain ⟨hw, hst⟩ := Chip.qFinish_st (c := s.chip) s.clk h.serving.wf (inRange s.chip) (r := 1) hf (by decide) (by rw [ht]; decide)
  have hq := s.chip.qFinish_q s.clk (inRange s.chip)
  refine ⟨?_, (Chip.st_addSt_same _ _ _ _ hw (Fld.fits_iff.mp hf).1).trans (by rw [hst]; rfl)⟩
  rw [Chip.q_of_que (Chip.addSt_que ..), hq, h.items]
  rfl

theorem sent (h : s.ptpWaits ws l) {u : Nat} (hu : u = ctl ws / 2 ^ 28 % 4) (hm : (s.chip.lv TIME.PTPU 1).testBit u = true)
    (hlo : 60 ≤ (itemBytes (ws.drop 1)).length) (hhi : (itemBytes (ws.drop 1)).length ≤ 1518) (hsend : s.chip.sendsClient u = true) :
    ∃ t, exec .ptpTransmit s = .next t ∧ s.Holds t ∧ (t.chip.q (8 + s.chip.lv TIME.PTPQD 1)).items = l ∧
      t.chip.st { TIME.PTPTX with wrd := 12 + u } 1 =
        wrapAdd TIME.PTPTX.width (s.chip.st { TIME.PTPTX with wrd := 12 + u } 1) 1 := by
  have hfits : ∀ v < 4, ({ TIME.PTPTX with wrd := 12 + v } : Fld).fits = true := by decide
  obtain ⟨hitems, hst⟩ := h.finish (hfits u (by omega)) rfl
  have hexec : ∃ d, exec .ptpTransmit s = .next { s with chip := d } ∧
      (d.q (8 + s.chip.lv TIME.PTPQD 1)).items = l ∧ d.st { TIME.PTPTX with wrd := 12 + u } 1 =
        wrapAdd TIME.PTPTX.width (s.chip.st { TIME.PTPTX with wrd := 12 + u } 1) 1 := by
    refine ⟨_, congrArg Host.Outcome.next (h.serving.act _), ?_⟩
    unfold Chip.ptpTransmit
    rw [h.head]
    dsimp only
    rw [← hu, Chip.takeHead_good _ h.items h.good]
    dsimp only
    have hok : s.chip.ptpBad u (itemBytes (ws.drop 1)).length = false := by
      rw [Chip.ptpBad, hm, decide_eq_false (Nat.not_lt.mpr hlo), decide_eq_false (Nat.not_lt.mpr hhi)]
      rfl
    rw [hok, if_neg Bool.false_ne_true, if_neg (by simp [hsend])]
    generalize (s.chip.qFinish s.clk (8 + s.chip.lv TIME.PTPQD 1)).addSt { TIME.PTPTX with wrd := 12 + u } 1 1 = c₁ at hitems hst ⊢
    obtain ⟨hque, hheath⟩ := c₁.lineSend_keeps s.clk u (itemBytes (ws.drop 1) ++ etherFcs (itemBytes (ws.drop 1)))
    have hq₂ := Chip.q_of_que hque
    generalize c₁.lineSend s.clk u (itemBytes (ws.drop 1) ++ etherFcs (itemBytes (ws.drop 1))) = c₂ at hq₂ hheath ⊢
    have hst₂ : c₂.st { TIME.PTPTX with wrd := 12 + u } 1 = c₁.st { TIME.PTPTX with wrd := 12 + u } 1 := by
      unfold Chip.st
      rw [hheath]
    split
    · rw [Chip.tqRecord_q _ _ _ _ (by omega), hq₂, hitems]
      refine ⟨rfl, (Chip.st_tqRecord c₂ s.clk _ _ ?_).trans (hst₂.trans hst)⟩
      have hquiet : ∀ v < 4, quietTab (tabOf (({ TIME.PTPTX with wrd := 12 + v } : Fld).addr 1)) = true := by decide
      exact hquiet u (by omega)
    · rw [hq₂, hitems]
      exact ⟨rfl, hst₂.trans hst⟩
  obtain ⟨d, hexec, hq, hs⟩ := hexec
  exact ⟨_, hexec, holds_of_coreEdge rfl hexec, hq, hs⟩

theorem refused (h : s.ptpWaits ws l) {u : Nat} (hu : u = ctl ws / 2 ^ 28 % 4)
    (hbad : (s.chip.lv TIME.PTPU 1).testBit u = false ∨ (itemBytes (ws.drop 1)).length < 60 ∨ 1518 < (itemBytes (ws.drop 1)).length) :
    ∃ t, exec .ptpTransmit s = .next t ∧ s.Holds t ∧ (t.chip.q (8 + s.chip.lv TIME.PTPQD 1)).items = l ∧
      t.chip.st { TIME.PTPTXBAD with wrd := 12 + u } 1 =
        wrapAdd TIME.PTPTXBAD.width (s.chip.st { TIME.PTPTXBAD with wrd := 12 + u } 1) 1 := by
  have hfits : ∀ v < 4, ({ TIME.PTPTXBAD with wrd := 12 + v } : Fld).fits = true := by decide
  obtain ⟨hitems, hst⟩ := h.finish (hfits u (by omega)) rfl
  have hexec : exec .ptpTransmit s = .next { s with
      chip := (s.chip.qFinish s.clk (8 + s.chip.lv TIME.PTPQD 1)).addSt { TIME.PTPTXBAD with wrd := 12 + u } 1 1 } := by
    refine congrArg Host.Outcome.next ((h.serving.act _).trans ?_)
    unfold Chip.ptpTransmit
    rw [h.head]
    dsimp only
    rw [← hu, Chip.takeHead_good _ h.items h.good]
    dsimp only
    rw [if_pos (by simp only [Chip.ptpBad, Bool.or_eq_true, Bool.not_eq_true', decide_eq_true_eq]; tauto)]
  generalize (s.chip.qFinish s.clk (8 + s.chip.lv TIME.PTPQD 1)).addSt { TIME.PTPTXBAD with wrd := 12 + u } 1 1 = d at hexec hitems hst
  exact ⟨_, hexec, holds_of_coreEdge rfl hexec, hitems, hst⟩

end State.ptpWaits

/-- Settles O50: passing edges leave the outputs, so the edge due is made, and its pulse ends, as the present edge says; a PTP item that may
go leaves its queue, and one that may not is counted. -/
theorem timedOutputs : Obligations.TimedOutputs :=
  ⟨fun o e s hs he ha hin => activeEdge_spec o e s hs he ha hin, fun e s hs he ha hin => ppsPulse_spec e s hs he ha hin,
    fun o s hs ha he => pulseEnd_spec o s hs ha he,
    fun ws l s hs hon hlit hen hready hitems hgood u hu =>
      have h : s.ptpWaits ws l := ⟨hs, hon, hlit, hen, hready, hitems, hgood⟩
      ⟨h.sent hu, h.refused hu⟩,
    fun n srcs s hset hoff => by
      obtain ⟨-, hdone⟩ := hset
      refine congrArg Host.Outcome.next ?_
      rw [hdone]
      exact State.act_same (if_pos (by rw [hoff]; rfl))⟩

end Sys2Proof.Machine
end

section
/-! PROOFS. What the states of a channel and its switches leave (R328 to R334). -/

namespace Sys2Proof.Machine
open Sys2Proof

/-- Status fields that the states of a channel leave. -/
def loopFields : List Fld := [DPLL.PBOFS, DPLL.SWITCHES]
/-- A field apart from them, and from the causes of channels. -/
def Fld.loopFree (f : Fld) : Bool := f.fits && (DPLL.CAUSE :: loopFields).all fun g => g.tab != f.tab || g.apart f

namespace Chip

/-- From `z` to `c` what `m` shows of the channels stays, and so do the monitors, the heath's banks and the fields of `loopFields`. -/
structure Loops {β : Type} (m : Channel → β) (z c : Chip) : Prop where
  ref : c.dpll.ref = z.dpll.ref
  chan : ∀ ch, m (c.dp ch) = m (z.dp ch)
  heath : c.heath.core = z.heath.core
  stepRem : c.tim.stepRem = z.tim.stepRem
  wf : z.heath.status.wf = true → c.heath.status.wf = true
  stat : z.heath.status.wf = true → ∀ f ∈ loopFields, ∀ r < 4096, c.st f r = z.st f r
  causes : z.heath.status.wf = true → ∀ r < 4096, ∀ n, z.hasCause .dpll r n → c.hasCause .dpll r n

theorem dp_onCh (c : Chip) {ch : Nat} (h : ch < 2) (f : Channel → Channel) : (c.onCh ch f).dp ch = f (c.dp ch) := vget_vupd_same c.dpll.chan ch f {} h
theorem dp_onCh_other (c : Chip) {ch i : Nat} (h : i ≠ ch) (f : Channel → Channel) : (c.onCh ch f).dp i = c.dp i :=
  vget_vupd_other c.dpll.chan ch i f {} h
theorem mon_onRef (c : Chip) {r : Nat} (h : r < 8) (f : RefMon → RefMon) : (c.onRef r f).mon r = f (c.mon r) := vget_vupd_same c.dpll.ref r f {} h
theorem mon_onRef_other (c : Chip) {r i : Nat} (h : i ≠ r) (f : RefMon → RefMon) : (c.onRef r f).mon i = c.mon i :=
  vget_vupd_other c.dpll.ref r i f {} h

theorem loopFree_of {f : Fld} (h : f.loopFree = true) :
    f.fits = true ∧ ∀ g ∈ DPLL.CAUSE :: loopFields, g.tab ≠ f.tab ∨ g.apart f = true := by
  simp only [Fld.loopFree, Bool.and_eq_true, List.all_eq_true, Bool.or_eq_true, bne_iff_ne] at h
  exact h
theorem loopFields_fit : ∀ g ∈ DPLL.CAUSE :: loopFields, g.fits = true := by decide
theorem loopFields_steady : ∀ g ∈ DPLL.CAUSE :: loopFields, g.steady = true := by decide
theorem loopFields_cause : ∀ g ∈ loopFields, g.apart DPLL.CAUSE = true := by decide

namespace Loops
variable {β : Type} {m : Channel → β} {z c : Chip}

theorem refl (z : Chip) : Loops m z z := ⟨rfl, fun _ => rfl, rfl, rfl, id, fun _ _ _ _ _ => rfl, fun _ _ _ _ h => h⟩
theorem trans {d : Chip} (h : Loops m z c) (g : Loops m c d) : Loops m z d :=
  ⟨g.ref.trans h.ref, fun ch => (g.chan ch).trans (h.chan ch), g.heath.trans h.heath, g.stepRem.trans h.stepRem, g.wf ∘ h.wf,
    fun hw f hf r hr => (g.stat (h.wf hw) f hf r hr).trans (h.stat hw f hf r hr),
    fun hw r hr n hn => g.causes (h.wf hw) r hr n (h.causes hw r hr n hn)⟩
theorem ite {a b : Chip} {p : Prop} [Decidable p] (ha : Loops m z a) (hb : Loops m z b) : Loops m z (if p then a else b) := by
  split <;> assumption
theorem overN {n : Nat} {f : Nat → Chip → Chip} (h : Loops m z c) (hf : ∀ i < n, ∀ a, Loops m z a → Loops m z (f i a)) :
    Loops m z (Machine.overN n f c) :=
  (overN_each (P := fun _ _ => True) (Loops m z) h hf (fun _ _ _ _ => trivial) fun _ _ _ _ _ _ => trivial).1
theorem calm {d : Chip} (h : Loops m z c) (g : Calm c d) : Loops m z d :=
  h.trans ⟨congrArg Dpll.ref g.dpll, fun ch => congrArg (fun x : Dpll => m (vget x.chan ch {})) g.dpll, g.heath, congrArg TimeEng.stepRem g.tim, g.wf,
    fun hw f hf r hr => g.stat hw f r (loopFields_steady f (List.mem_cons_of_mem _ hf)) hr,
    fun hw r hr n hn => (congrArg (Nat.testBit · n) (g.stat hw DPLL.CAUSE r (by decide) hr)).trans hn⟩
theorem onCh (ch : Nat) (f : Channel → Channel) (hf : ∀ x, m (f x) = m x) (h : Loops m z c) : Loops m z (c.onCh ch f) := by
  refine h.trans ⟨rfl, fun i => ?_, rfl, rfl, id, fun _ _ _ _ _ => rfl, fun _ _ _ _ h => h⟩
  by_cases hi : i = ch
  · subst hi
    by_cases h2 : i < 2
    · rw [dp_onCh _ h2, hf]
    · exact congrArg m (vupd_out _ _ _ _ _ (by omega))
  · rw [dp_onCh_other _ hi]
theorem withStatus (b : Bank) (hw : c.heath.status.wf = true → (c.withStatus b).heath.status.wf = true)
    (hs : c.heath.status.wf = true → ∀ f ∈ loopFields, ∀ r < 4096, (c.withStatus b).st f r = c.st f r)
    (hc : c.heath.status.wf = true → ∀ r < 4096, ∀ n, c.hasCause .dpll r n → (c.withStatus b).hasCause .dpll r n) (h : Loops m z c) :
    Loops m z (c.withStatus b) := h.trans ⟨rfl, fun _ => rfl, rfl, rfl, hw, hs, hc⟩
theorem setSt {f : Fld} {r : Nat} (v : Nat) (hf : f.loopFree = true) (hr : r < 4096) (h : Loops m z c) : Loops m z (c.setSt f r v) := by
  obtain ⟨hfit, hall⟩ := loopFree_of hf
  have hstay : c.heath.status.wf = true → ∀ g ∈ DPLL.CAUSE :: loopFields, ∀ q < 4096, (c.setSt f r v).st g q = c.st g q := fun hw g hg q hq =>
    st_setSt_other v hw (loopFields_fit g hg) hfit hq hr ((hall g hg).imp_right .inr)
  exact withStatus _ (setSt_wf c f r v) (fun hw g hg q hq => hstay hw g (List.mem_cons_of_mem _ hg) q hq)
    (fun hw q hq n hn => (congrArg (Nat.testBit · n) (hstay hw _ (List.mem_cons_self ..) q hq)).trans hn) h
theorem addSt {f : Fld} {r : Nat} (n : Nat) (hf : f.loopFree = true) (hr : r < 4096) (h : Loops m z c) : Loops m z (c.addSt f r n) := by
  unfold Chip.addSt
  exact setSt _ hf hr h
theorem marked {d : Chip} (hd : d.dpll = c.dpll) (hh : d.heath.core = c.heath.core) (ht : d.tim = c.tim) (hw : c.heath.status.wf = true → d.heath.status.wf = true)
    (hs : c.heath.status.wf = true → ∀ f ∈ loopFields, ∀ r < 4096, d.st f r = c.st f r)
    (hc : c.heath.status.wf = true → ∀ r < 4096, ∀ n, c.hasCause .dpll r n → d.hasCause .dpll r n) (h : Loops m z c) : Loops m z d :=
  h.trans ⟨congrArg Dpll.ref hd, fun ch => congrArg (fun x : Dpll => m (vget x.chan ch {})) hd, hh, congrArg TimeEng.stepRem ht, hw, hs, hc⟩

theorem withStatus_core (c : Chip) (b : Bank) : (c.withStatus b).heath.core = c.heath.core := rfl
theorem markEvent_core (c : Chip) (a : Nat) (w : Word) : (c.markEvent a w).heath.core = c.heath.core := rfl
theorem cause_core (c : Chip) (k : Clock) (g : CauseReg) (r b : Nat) : (c.cause k g r b).heath.core = c.heath.core := by
  have hor : (c.orSt g.cause r b).heath.core = c.heath.core := (markEvent_core ..).trans (withStatus_core ..)
  unfold Chip.cause
  dsimp only
  split
  · exact hor
  · rw [icause_heath, hor]
/-- A cause of a channel. -/
theorem causeCh (k : Clock) {r : Nat} (bits : Nat) (hr : r < 4096) (h : Loops m z c) : Loops m z (c.cause k .dpll r bits) := by
  refine marked (cause_dpll ..) (cause_core ..) (cause_tim ..) (cause_wf c k _ _ _) (fun hw f hf q hq => ?_) (fun hw q hq n hn => ?_) h
  · exact st_cause_other k .dpll bits hw (loopFields_fit f (List.mem_cons_of_mem _ hf)) rfl hq hr (.inr (.inr (loopFields_cause f hf)))
  · by_cases hqr : q = r
    · subst hqr
      exact hasCause_mono k .dpll q bits hw rfl hn
    · exact (congrArg (Nat.testBit · n) (st_cause_other k .dpll bits hw rfl rfl hq hr (.inr (.inl hqr)))).trans hn
/-- A cause of a reference. -/
theorem causeRef (k : Clock) {r : Nat} (bits : Nat) (hr : r < 4096) (h : Loops m z c) : Loops m z (c.causeIf k .ref r bits) := by
  have htab : ∀ f ∈ DPLL.CAUSE :: loopFields, f.tab ≠ CauseReg.ref.cause.tab := by decide
  have hstay : c.heath.status.wf = true → ∀ f ∈ DPLL.CAUSE :: loopFields, ∀ q < 4096, (c.cause k .ref r bits).st f q = c.st f q :=
    fun hw f hf q hq => st_cause_other k .ref bits hw (loopFields_fit f hf) rfl hq hr (.inl (htab f hf))
  unfold Chip.causeIf
  exact ite h (marked (cause_dpll ..) (cause_core ..) (cause_tim ..) (cause_wf c k _ _ _)
    (fun hw f hf q hq => hstay hw f (List.mem_cons_of_mem _ hf) q hq)
    (fun hw q hq n hn => (congrArg (Nat.testBit · n) (hstay hw _ (List.mem_cons_self ..) q hq)).trans hn) h)
theorem markEvent (a : Nat) (w : Word) (h : Loops m z c) : Loops m z (c.markEvent a w) :=
  h.trans ⟨rfl, fun _ => rfl, rfl, rfl, id, fun _ _ _ _ _ => rfl, fun _ _ _ _ h => h⟩

/-- What follows a channel shows it, and leaves it. -/
theorem syncCh (k : Clock) {ch : Nat} (hch : ch < 2) (h : Loops m z c) : Loops m z (c.syncCh k ch) := by
  have hr : ch < 4096 := by omega
  unfold Chip.syncCh
  extract_lets x c₁ c₂ c₃ c₄
  have h₁ : Loops m z c₁ := .setSt _ rfl hr (.setSt _ rfl hr (.setSt _ rfl hr (.setSt _ rfl hr (.setSt _ rfl hr h))))
  clear_value c₁
  have h₂ : Loops m z c₂ := by
    show Loops m z (match x.sel with | some r => c₁.setSt DPLL.SELREF ch r | none => c₁)
    split
    · exact .setSt _ rfl hr h₁
    · exact h₁
  clear_value c₂
  have h₃ : Loops m z c₃ := by
    show Loops m z (match x.target with | some r => c₂.setSt DPLL.NEXTREF ch r | none => c₂)
    split
    · exact .setSt _ rfl hr h₂
    · exact h₂
  clear_value c₃
  have h₄ : Loops m z c₄ := h₃.overN fun r hr8 a ha => by
    split
    · exact .setSt _ rfl (by omega) ha
    · exact .setSt _ rfl (by omega) ha
  clear_value c₄
  exact h₄.calm (.setCond k _ _ (by omega) (.setCond k _ _ (by omega) (.setCond k _ _ (by omega) (.refl _))))

theorem enter (hm : ∀ (x : Channel) (st : DState), m { x with st := st, within := 0, beyond := 0, lockTicks := 0, hist := [] } = m x) (k : Clock)
    {ch : Nat} (hch : ch < 2) (st : DState) (h : Loops m z c) : Loops m z (c.enter k ch st) := by
  have hr : ch < 4096 := by omega
  unfold Chip.enter
  extract_lets x c₁ c₂
  have h₁ : Loops m z c₁ := ite (.addSt _ rfl hr h) h
  clear_value c₁
  have h₂ : Loops m z c₂ := h₁.onCh ch _ fun x => hm x st
  clear_value c₂
  refine ite h (.syncCh k hch (.causeCh k _ hr ?_))
  exact .markEvent _ _ (.setSt _ rfl hr h₂)
theorem beginSwitch (hm : ∀ (x : Channel) (r b : Nat) (f : Bool), m { x with target := some r, build := b, follow := f, wtr := none, recheck := false } = m x)
    (k : Clock) {ch : Nat} (hch : ch < 2) (r : Nat) (h : Loops m z c) : Loops m z (c.beginSwitch k ch r) := by
  unfold Chip.beginSwitch
  extract_lets b
  exact .syncCh k hch (.causeCh k _ (by omega) (h.onCh ch _ fun x => hm x r b _))

end Loops

/-! ### The output of a channel -/

/-- From `z` to `c` the outputs of the channels stay. -/
abbrev Steady (z c : Chip) : Prop := Loops Channel.out z c

namespace Loops
variable {z c : Chip}

theorem choose (k : Clock) {ch : Nat} (hch : ch < 2) (h : Steady z c) : Steady z (c.choose k ch) := by
  unfold Chip.choose
  refine ite h ?_
  split
  · exact h.beginSwitch (fun _ _ _ _ => rfl) k hch _
  · exact h
theorem setHist (k : Clock) {ch : Nat} (hch : ch < 2) (b : Bool) (h : Steady z c) : Steady z (c.setHist k ch b) := by
  unfold Chip.setHist
  exact ite h (.causeCh k _ (by omega) (.setSt _ rfl (by omega) (h.onCh ch _ fun _ => rfl)))
theorem loseSel (k : Clock) {ch : Nat} (hch : ch < 2) (h : Steady z c) : Steady z (c.loseSel k ch) := by
  unfold Chip.loseSel Chip.holdover
  extract_lets d
  have hd : Steady z d := h.onCh ch _ fun _ => rfl
  clear_value d
  exact .choose k hch (.syncCh k hch (ite hd (.enter (fun _ _ => rfl) k hch _ hd)))
theorem abandon (k : Clock) {ch : Nat} (hch : ch < 2) (h : Steady z c) : Steady z (c.abandon k ch) := by
  unfold Chip.abandon
  exact .choose k hch (.syncCh k hch (.causeCh k _ (by omega) (h.onCh ch _ fun _ => rfl)))
theorem chanLoses (k : Clock) (r : Nat) {ch : Nat} (hch : ch < 2) (h : Steady z c) : Steady z (c.chanLoses k r ch) := by
  unfold Chip.chanLoses
  extract_lets c₁ c₂ c₃
  have h₁ : Steady z c₁ := by
    show Steady z (match (c.dp ch).wtr with
      | some (w, _) => if w = r then c.onCh ch (fun x => { x with wtr := none }) else c
      | none => c)
    split
    · exact ite (h.onCh ch _ fun _ => rfl) h
    · exact h
  have h₂ : Steady z c₂ := ite (h₁.loseSel k hch) h₁
  have h₃ : Steady z c₃ := ite (h₂.abandon k hch) h₂
  exact .syncCh k hch h₃
theorem syncRef {r : Nat} (hr : r < 8) (h : Steady z c) : Steady z (c.syncRef r) := by
  unfold Chip.syncRef
  exact .setSt _ rfl (by omega) (.setSt _ rfl (by omega) (.setSt _ rfl (by omega) h))
theorem measure (k : Clock) {ch : Nat} (hch : ch < 2) (e : Int) (h : Steady z c) : Steady z (c.measure k ch e) := by
  unfold Chip.measure
  extract_lets d lim x d' y
  have hd : Steady z d := h.setSt _ rfl (by omega)
  clear_value d
  have hd' : Steady z d' := hd.onCh ch _ fun _ => rfl
  clear_value d'
  exact ite hd (ite (.enter (fun _ _ => rfl) k hch _ hd') (ite (.enter (fun _ _ => rfl) k hch _ hd') hd'))
theorem filterTick (ch : Nat) (e : Option Int) (h : Steady z c) : Steady z (c.filterTick ch e) := by
  unfold Chip.filterTick
  extract_lets x
  split
  · exact h
  · exact ite h (h.onCh ch _ fun _ => rfl)
theorem stateAim (ch : Nat) (h : Steady z c) : Steady z (c.stateAim ch) := by
  unfold Chip.stateAim
  split
  · exact h.onCh ch _ fun _ => rfl
  · exact h.onCh ch _ fun _ => rfl
  · exact h.onCh ch _ fun _ => rfl
  · exact h
  · exact h
theorem histTick (k : Clock) {ch : Nat} (hch : ch < 2) (h : Steady z c) : Steady z (c.histTick k ch) := by
  unfold Chip.histTick
  extract_lets need d
  have hd : Steady z d := h.onCh ch _ fun _ => rfl
  clear_value d
  exact ite (ite (.setHist k hch _ (.setSt _ rfl (by omega) hd)) hd) h
theorem clampTick (k : Clock) (b : Bool) (h : Steady z c) : Steady z (c.clampTick k b) := by
  unfold Chip.clampTick
  extract_lets was d d'
  have hd : Steady z d := h.onCh 0 _ fun _ => rfl
  clear_value d
  have hd' : Steady z d' := ite hd (.causeCh k _ (by decide) (.setSt _ rfl (by decide) hd))
  clear_value d'
  exact hd'.calm (.setCond k 185 _ (by decide) (.refl _))

end Loops
end Chip
end Sys2Proof.Machine
end

section
/-! PROOFS. The DPLL window, pulses, and switches (R322 to R336). -/

namespace Sys2Proof.Machine
open Sys2Proof

/-! ### Bits of a set of defects -/

theorem testBit_sub_two_pow {s n : Nat} (h : s.testBit n = true) (i : Nat) : (s - 2 ^ n).testBit i = if i = n then false else s.testBit i := by
  have hodd : s / 2 ^ n % 2 = 1 := by rw [Nat.testBit_eq_decide_div_mod_eq] at h; exact of_decide_eq_true h
  obtain ⟨p, hp⟩ : ∃ p, s / 2 ^ n = 2 * p + 1 := ⟨s / 2 ^ n / 2, by omega⟩
  have hr : s % 2 ^ n < 2 ^ n := Nat.mod_lt _ (Nat.two_pow_pos n)
  have hs : s = 2 ^ n * (2 * p + 1) + s % 2 ^ n := by rw [← hp, Nat.div_add_mod]
  have hd : s - 2 ^ n = 2 ^ n * (2 * p) + s % 2 ^ n := by rw [Nat.mul_add, Nat.mul_one] at hs; omega
  rw [hd]
  conv_rhs => rw [hs]
  rw [Nat.testBit_two_pow_mul_add _ hr, Nat.testBit_two_pow_mul_add _ hr]
  rcases Nat.lt_trichotomy i n with hlt | rfl | hgt
  · rw [if_pos hlt, if_neg (by omega), if_pos hlt]
  · simp
  · obtain ⟨j, hj⟩ : ∃ j, i - n = j + 1 := ⟨i - n - 1, by omega⟩
    rw [if_neg (by omega), if_neg (by omega), if_neg (by omega), hj, Nat.testBit_succ, Nat.testBit_succ]
    congr 1
    omega
theorem has_setBit (s n i : Nat) (b : Bool) : has (setBit s n b) i = if i = n then b else has s i := by
  unfold has setBit
  cases b with
  | true =>
    rw [if_pos rfl, Nat.testBit_or, Nat.testBit_two_pow]
    by_cases h : i = n
    · simp [h]
    · simp [h, Ne.symm h]
  | false =>
    rw [if_neg Bool.false_ne_true]
    split
    next h => exact testBit_sub_two_pow h i
    next h =>
      split
      next e => rw [e]; simpa using h
      next => rfl

namespace Chip

/-! ### The defects of a reference -/

/-- The defects of a reference become `new`: its monitor, and what may follow at the channels. -/
theorem setRefDefs_steady (c : Chip) (k : Clock) {r : Nat} (hr : r < 8) (new : Nat) :
    ∃ f : RefMon → RefMon, (∀ m, (f m).defs = new ∧ (f m).pulseAt = m.pulseAt) ∧ Steady (c.onRef r f) (c.setRefDefs k r new) := by
  have hr' : r < 4096 := by omega
  unfold setRefDefs
  extract_lets m diff lost d e f g
  refine ⟨_, ?hf, (?hs : Steady d _)⟩
  case hf => exact fun _ => ⟨rfl, rfl⟩
  have he : Steady d e := .ite (.setSt _ rfl hr' (.refl d)) (.refl d)
  have hf : Steady d f := .syncRef hr (.ite (he.addSt _ rfl hr') he)
  have hg : Steady d g := hf.causeRef k _ hr'
  exact .ite (.chanLoses k r (by decide) (.chanLoses k r (by decide) hg)) hg

/-- What is kept of the monitors where only the defects of `r` change. -/
structure Judged (r new : Nat) (z c : Chip) : Prop where
  out : ∀ ch, (c.dp ch).out = (z.dp ch).out
  heath : c.heath.core = z.heath.core
  stepRem : c.tim.stepRem = z.tim.stepRem
  defs : (c.mon r).defs = new
  pulseAt : (c.mon r).pulseAt = (z.mon r).pulseAt
  mon : ∀ i, i ≠ r → c.mon i = z.mon i

theorem judged_of (c : Chip) (k : Clock) {r : Nat} (hr : r < 8) (new : Nat) : Judged r new c (c.setRefDefs k r new) := by
  obtain ⟨f, hf, h⟩ := c.setRefDefs_steady k hr new
  generalize c.setRefDefs k r new = d at h ⊢
  have hmon : ∀ i, d.mon i = (c.onRef r f).mon i := fun i => congrArg (fun v => vget v i ({} : RefMon)) h.ref
  obtain ⟨hdefs, hpulse⟩ := hf (c.mon r)
  exact ⟨h.chan, h.heath, h.stepRem, by rw [hmon, mon_onRef _ hr, hdefs], by rw [hmon, mon_onRef _ hr, hpulse],
    fun i hi => by rw [hmon, mon_onRef_other _ hi]⟩

/-! ### A pulse -/

/-- What the delivery of a phase `e` of reference `r` leaves and gives. -/
structure PhaseTaken (r : Nat) (e : Int) (rem : Int) (z c : Chip) (n : Nat) : Prop where
  stepRem : c.tim.stepRem = rem
  last : (c.mon r).last = e
  defs : (c.mon r).defs = (z.mon r).defs
  pulseAt : (c.mon r).pulseAt = (z.mon r).pulseAt
  meas : ∀ ch < n, (c.dp ch).target ≠ some r → (c.dp ch).sel = some r → (ch = 1 → rem = 0) → (c.dp ch).meas = some e

/-- One channel takes the phase. -/
def takePhase (r : Nat) (e : Int) (ch : Nat) (c : Chip) : Chip :=
  if (c.dp ch).target = some r then c.onCh ch (fun x => { x with build := x.build - 1 })
  else if (c.dp ch).sel ≠ some r then c
  else if ch = 1 ∧ c.tim.stepRem ≠ 0 then c.setSt DPLL.PHERR 1 (unsigned 32 (e - signed 32 (c.st DPLL.PBOFS 1)))
  else c.onCh ch (fun x => { x with meas := some e })
theorem deliver_eq (c : Chip) (r : Nat) (e : Int) : c.deliver r e = takePhase r e 1 (takePhase r e 0 (c.onRef r fun m => { m with last := e })) := rfl

theorem PhaseTaken.onCh {r : Nat} {e rem : Int} {z c : Chip} {n : Nat} (h : PhaseTaken r e rem z c n) {ch : Nat} (hch : ch = n) (hn : ch < 2)
    (f : Channel → Channel) (hf : (f (c.dp ch)).target ≠ some r → (f (c.dp ch)).sel = some r → (ch = 1 → rem = 0) → (f (c.dp ch)).meas = some e) :
    PhaseTaken r e rem z (c.onCh ch f) (n + 1) :=
  ⟨h.stepRem, h.last, h.defs, h.pulseAt, fun i hi => by
    by_cases hin : i = ch
    · subst hin
      rw [dp_onCh _ hn]
      exact hf
    · rw [dp_onCh_other _ hin]
      exact h.meas i (by omega)⟩
theorem takePhase_taken {r : Nat} {e rem : Int} {z c : Chip} {ch : Nat} (hch : ch < 2) (h : PhaseTaken r e rem z c ch) :
    PhaseTaken r e rem z (takePhase r e ch c) (ch + 1) := by
  have hstay : ((c.dp ch).target ≠ some r → (c.dp ch).sel = some r → (ch = 1 → rem = 0) → (c.dp ch).meas = some e) → PhaseTaken r e rem z c (ch + 1) :=
    fun hn => ⟨h.stepRem, h.last, h.defs, h.pulseAt, fun i hi => by
      by_cases hin : i = ch
      · rw [hin]
        exact hn
      · exact h.meas i (by omega)⟩
  unfold takePhase
  split
  next ht => exact h.onCh rfl hch _ fun hne => absurd ht hne
  next ht =>
    split
    next hs => exact hstay fun _ hsel => absurd hsel hs
    next hs =>
      split
      next hrem =>
        have hst := hstay fun _ _ hz => absurd (hz hrem.1) (by rw [← h.stepRem]; exact hrem.2)
        have hd := setSt_dpll c DPLL.PHERR 1 (unsigned 32 (e - signed 32 (c.st DPLL.PBOFS 1)))
        have ht := setSt_tim c DPLL.PHERR 1 (unsigned 32 (e - signed 32 (c.st DPLL.PBOFS 1)))
        generalize c.setSt DPLL.PHERR 1 (unsigned 32 (e - signed 32 (c.st DPLL.PBOFS 1))) = d at hd ht ⊢
        have hdp : ∀ i, d.dp i = c.dp i := fun i => congrArg (fun x : Dpll => vget x.chan i ({} : Channel)) hd
        have hmon : d.mon r = c.mon r := congrArg (fun x : Dpll => vget x.ref r ({} : RefMon)) hd
        exact ⟨(congrArg TimeEng.stepRem ht).trans hst.stepRem, by rw [hmon, hst.last], by rw [hmon, hst.defs], by rw [hmon, hst.pulseAt],
          fun i hi => by rw [hdp]; exact hst.meas i hi⟩
      next => exact h.onCh rfl hch _ fun _ _ _ => rfl
theorem taken_of (c : Chip) {r : Nat} (hr : r < 8) (e : Int) : PhaseTaken r e c.tim.stepRem c (c.deliver r e) 2 := by
  have h₀ : PhaseTaken r e c.tim.stepRem c (c.onRef r fun m => { m with last := e }) 0 :=
    ⟨rfl, by rw [mon_onRef _ hr], by rw [mon_onRef _ hr], by rw [mon_onRef _ hr], fun _ h => absurd h (Nat.not_lt_zero _)⟩
  rw [deliver_eq]
  exact takePhase_taken (by decide) (takePhase_taken (by decide) h₀)

end Chip

/-- The phase of a pulse against the second (R323). -/
def pulsePhase (s : State) (ago r : Nat) : Int :=
  ((((s.clk.time : Int) - (ago : Int)) * 16 - signed 32 (s.chip.lv REF.PHOFS r) + 8000000000) % 16000000000) - 8000000000

theorem pulsePhase_spec (s : State) (ago r : Nat) : -8000000000 ≤ pulsePhase s ago r ∧ pulsePhase s ago r < 8000000000 ∧
    (pulsePhase s ago r - (((s.clk.time : Int) - (ago : Int)) * 16 - signed 32 (s.chip.lv REF.PHOFS r))) % 16000000000 = 0 := by
  unfold pulsePhase
  generalize ((s.clk.time : Int) - (ago : Int)) * 16 - signed 32 (s.chip.lv REF.PHOFS r) = x
  omega

theorem referencePulse_spec (r7 : Bool) (ago osc : Nat) (s : State) (r : Nat) (hs : s.serving) (hr : r = (if r7 then 7 else 5))
    (hp : s.chip.pulseRef r = true) :
    ∃ t e, exec (.referencePulse r7 ago osc) s = .next t ∧ s.Holds t ∧ (t.chip.mon r).last = e ∧
      (∀ ch < 2, (t.chip.dp ch).target ≠ some r → (t.chip.dp ch).sel = some r → (ch = 1 → s.chip.tim.stepRem = 0) → (t.chip.dp ch).meas = some e) ∧
      -8000000000 ≤ e ∧ e < 8000000000 ∧
      (e - (((s.clk.time : Int) - (ago : Int)) * 16 - signed 32 (s.chip.lv REF.PHOFS r))) % 16000000000 = 0 ∧
      (t.chip.mon r).pulseAt = s.clk.ticks ∧ has (t.chip.mon r).defs 0 = false ∧
      has (t.chip.mon r).defs 2 = decide (50000 < ((osc : Int) - 1000000000).natAbs) := by
  have hr8 : r < 8 := by cases r7 <;> simp_all
  obtain ⟨d, hd⟩ : ∃ d, d = s.chip.onRef r fun m => { m with pulseAt := s.clk.ticks } := ⟨_, rfl⟩
  have hdp : (d.mon r).pulseAt = s.clk.ticks := by rw [hd, Chip.mon_onRef _ hr8]
  have hdr : d.tim.stepRem = s.chip.tim.stepRem := by rw [hd]; rfl
  obtain ⟨new, hnew⟩ : ∃ new, new = setBit (setBit (d.mon r).defs 0 false) 2 (decide (50000 < ((osc : Int) - 1000000000).natAbs)) := ⟨_, rfl⟩
  have hj := d.judged_of s.clk hr8 new
  have ht := (d.setRefDefs s.clk r new).taken_of hr8 (pulsePhase s ago r)
  have hexec : exec (.referencePulse r7 ago osc) s = .next { s with chip := (d.setRefDefs s.clk r new).deliver r (pulsePhase s ago r) } := by
    refine congrArg Host.Outcome.next ((hs.act _).trans ?_)
    dsimp only
    rw [← hr, if_neg (by rw [hp]; decide), ← hd, ← hnew]
    rfl
  generalize d.setRefDefs s.clk r new = e at hj ht hexec
  generalize e.deliver r (pulsePhase s ago r) = f at ht hexec
  obtain ⟨hlo, hhi, hmod⟩ := pulsePhase_spec s ago r
  have hdefs : (f.mon r).defs = new := ht.defs.trans hj.defs
  refine ⟨_, _, hexec, holds_of_coreEdge rfl hexec, ht.last, ?_, hlo, hhi, hmod, ht.pulseAt.trans (hj.pulseAt.trans hdp), ?_, ?_⟩
  · have hrem : e.tim.stepRem = s.chip.tim.stepRem := hj.stepRem.trans hdr
    rw [← hrem]
    exact ht.meas
  · rw [hdefs, hnew, has_setBit, has_setBit]
    rfl
  · rw [hdefs, hnew, has_setBit]
    rfl

end Sys2Proof.Machine
end

section
/-! PROOFS. Switches of a channel, and the DPLL window. -/

namespace Sys2Proof.Machine
open Sys2Proof

namespace Chip

/-! ### A switch begins -/

/-- The field that tells of a switch in progress, in the channel's row. -/
def switchingOf (ch : Nat) (f : Fld) (q : Nat) : Prop := f = DPLL.SWITCHING ∧ q = ch
theorem switchingOf_clear {ch : Nat} {g : Fld} (h : (g.fits && DPLL.SWITCHING.apart g) = true) : Clears (switchingOf ch) g ch := by
  simp only [Bool.and_eq_true] at h
  refine ⟨h.1, ?_⟩
  rintro f q ⟨rfl, rfl⟩
  exact ⟨rfl, .inl h.2⟩
theorem switchingOf_far {ch : Nat} (hch : ch < 2) {g : Fld} {r : Nat} (hr : r < 8) (hg : g.fits = true) (ht : g.tab = 0x59) :
    Clears (switchingOf ch) g r := by
  refine ⟨hg, ?_⟩
  rintro f q ⟨rfl, rfl⟩
  exact ⟨rfl, .inr (Fld.addr_ne_of_tab rfl hg (by omega) (by omega) (by rw [ht]; decide))⟩
theorem switchingOf_steady {ch : Nat} (hch : ch < 2) : ∀ f q, switchingOf ch f q → f.steady = true ∧ q < 4096 := by
  rintro f q ⟨rfl, rfl⟩
  exact ⟨rfl, by omega⟩

theorem syncCh_switching {c : Chip} (k : Clock) {ch : Nat} (hch : ch < 2) (hw : c.heath.status.wf = true) :
    (c.syncCh k ch).st DPLL.SWITCHING ch = bit (c.dp ch).target.isSome := by
  unfold syncCh
  extract_lets x c₁ c₂ c₃ c₄
  have hw₀ := setSt_wf c DPLL.STATE ch x.st.code hw
  have h₀ : ((c.setSt DPLL.STATE ch x.st.code).setSt DPLL.SWITCHING ch (bit x.target.isSome)).st DPLL.SWITCHING ch = bit x.target.isSome := by
    rw [st_setSt_same _ _ _ _ hw₀ (by decide)]
    cases x.target.isSome <;> rfl
  have hw₁ := setSt_wf (c.setSt DPLL.STATE ch x.st.code) DPLL.SWITCHING ch (bit x.target.isSome) hw₀
  generalize hd : (c.setSt DPLL.STATE ch x.st.code).setSt DPLL.SWITCHING ch (bit x.target.isSome) = d at h₀ hw₁
  have h₁ : Reads (switchingOf ch) d c₁ := by
    unfold c₁
    rw [hd]
    exact (((Reads.refl d).setSt _ (switchingOf_clear rfl)).setSt _ (switchingOf_clear rfl)).setSt _ (switchingOf_clear rfl)
  clear_value c₁
  have h₂ : Reads (switchingOf ch) d c₂ := by
    show Reads (switchingOf ch) d (match x.sel with | some r => c₁.setSt DPLL.SELREF ch r | none => c₁)
    split
    · exact h₁.setSt _ (switchingOf_clear rfl)
    · exact h₁
  clear_value c₂
  have h₃ : Reads (switchingOf ch) d c₃ := by
    show Reads (switchingOf ch) d (match x.target with | some r => c₂.setSt DPLL.NEXTREF ch r | none => c₂)
    split
    · exact h₂.setSt _ (switchingOf_clear rfl)
    · exact h₂
  clear_value c₃
  have h₄ : Reads (switchingOf ch) d c₄ :=
    (overN_each (P := fun _ _ => True) (Reads (switchingOf ch) d) h₃ (fun r hr a ha => by
      split
      · exact ha.setSt _ (switchingOf_far hch hr rfl rfl)
      · exact ha.setSt _ (switchingOf_far hch hr rfl rfl)) (fun _ _ _ _ => trivial) fun _ _ _ _ _ _ => trivial).1
  clear_value c₄
  have h₅ := h₄.calm (switchingOf_steady hch) (.setCond k (182 + ch) (c₄.lv DPLL.MODE ch != 0 && !(List.range 8).any (c₄.eligible ch)) (by omega)
    (.setCond k (179 + 2 * ch) (x.st == .lost) (by omega) (.setCond k (178 + 2 * ch) (x.st == .hold) (by omega) (.refl _))))
  exact (h₅.stat hw₁ _ _ ⟨rfl, rfl⟩).trans h₀

/-- What a switch of channel `ch` to `r` begins with. -/
structure Begun (ch r : Nat) (z c : Chip) : Prop where
  target : (c.dp ch).target = some r
  wtr : (c.dp ch).wtr = none
  sel : (c.dp ch).sel = (z.dp ch).sel
  switching : c.st DPLL.SWITCHING ch = 1
  cause : c.hasCause .dpll ch 2

theorem begun_of {c : Chip} (k : Clock) {ch : Nat} (hch : ch < 2) (r : Nat) (hw : c.heath.status.wf = true) : Begun ch r c (c.beginSwitch k ch r) := by
  unfold beginSwitch
  extract_lets b
  generalize hd : (c.onCh ch fun x => { x with target := some r, build := b, follow := x.sel.isSome, wtr := none, recheck := false }) = d
  have hw₀ : d.heath.status.wf = true := by rw [← hd]; exact hw
  have hdp : d.dp ch = { c.dp ch with target := some r, build := b, follow := (c.dp ch).sel.isSome, wtr := none, recheck := false } := by
    rw [← hd, dp_onCh _ hch]
  have hw₁ := cause_wf d k .dpll ch 4 hw₀
  have hc₁ : (d.cause k .dpll ch 4).hasCause .dpll ch 2 := hasCause_cause .dpll ch 4 2 hw₀ rfl (by decide) rfl
  have hdp₁ : (d.cause k .dpll ch 4).dp ch = d.dp ch := congrArg (fun x : Dpll => vget x.chan ch ({} : Channel)) (cause_dpll ..)
  generalize d.cause k .dpll ch 4 = e at hw₁ hc₁ hdp₁
  have hsync : Loops (fun x => x) e (e.syncCh k ch) := .syncCh k hch (.refl e)
  have hsw := syncCh_switching k hch hw₁
  have hf : (e.syncCh k ch).dp ch = d.dp ch := (hsync.chan ch).trans hdp₁
  have hcause := hsync.causes hw₁ ch (by omega) 2 hc₁
  generalize e.syncCh k ch = g at hsw hf hcause
  refine ⟨by rw [hf, hdp], by rw [hf, hdp], by rw [hf, hdp], ?_, hcause⟩
  rw [hsw, hdp₁, hdp]
  rfl

end Chip

theorem dpllWaitToRestoreEnd_spec (c : Fin 2) (r x e : Nat) (s : State) (hs : s.serving) (hidx : s.clk.idx ≤ 511)
    (hwtr : (s.chip.dp c.val).wtr = some (r, e)) (hsel : (s.chip.dp c.val).sel = some x) (he : e ≤ s.clk.ticks)
    (ht : (s.chip.dp c.val).target = none) (hmay : s.chip.maySelect c.val r = true) (hrank : s.chip.ranksAbove c.val r x = true) :
    ∃ t, exec (.dpllWaitToRestoreEnd c) s = .next t ∧ s.Holds t ∧ (t.chip.dp c.val).target = some r ∧ (t.chip.dp c.val).wtr = none ∧
      (t.chip.dp c.val).sel = some x ∧ t.chip.st DPLL.SWITCHING c.val = 1 ∧ t.chip.hasCause .dpll c.val 2 := by
  have hdp : (s.chip.cause s.clk .dpll c.val 64).dp c.val = s.chip.dp c.val :=
    congrArg (fun x : Dpll => vget x.chan c.val ({} : Channel)) (Chip.cause_dpll ..)
  have hw := Chip.cause_wf s.chip s.clk .dpll c.val 64 hs.wf
  have hexec : exec (.dpllWaitToRestoreEnd c) s = .next { s with
      chip := (s.chip.cause s.clk .dpll c.val 64).beginSwitch s.clk c.val r } := by
    refine congrArg Host.Outcome.next ?_
    rw [if_neg (by omega)]
    refine (hs.act _).trans ?_
    rw [hwtr, hsel]
    dsimp only
    rw [if_neg (by simp [hmay, hrank]; omega), if_pos (by rw [hdp, ht])]
  generalize s.chip.cause s.clk .dpll c.val 64 = d at hdp hw hexec
  have h := Chip.begun_of s.clk c.isLt r hw
  generalize d.beginSwitch s.clk c.val r = g at h hexec
  exact ⟨_, hexec, holds_of_coreEdge rfl hexec, h.target, h.wtr, by rw [h.sel, hdp, hsel], h.switching, h.cause⟩

/-! ### A switch completes -/

namespace Chip

theorem enter_st (c : Chip) (k : Clock) {ch : Nat} (hch : ch < 2) (st : DState) : ((c.enter k ch st).dp ch).st = st := by
  unfold enter
  extract_lets x c₁ c₂
  split
  next h => exact h
  next =>
    have h₂ : (c₂.dp ch).st = st := congrArg Channel.st (c₁.dp_onCh hch _)
    clear_value c₂
    have h₃ : Loops Channel.st c₂ (((c₂.orSt DPLL.STK ch (2 ^ st.code)).cause k .dpll ch 1).syncCh k ch) :=
      .syncCh k hch (.causeCh k _ (by omega) (.markEvent _ _ (.setSt _ rfl (by omega) (.refl _))))
    exact (h₃.chan ch).trans h₂

/-- The state and the selection of a channel. -/
def standing (x : Channel) : DState × Option Nat := (x.st, x.sel)
theorem afterSwitch_loops {z c : Chip} (k : Clock) {ch : Nat} (hch : ch < 2) (b : Bool) (h : Loops standing z c) :
    Loops standing z (c.afterSwitch k ch b) := by
  unfold afterSwitch
  split
  · refine .ite (.ite (h.beginSwitch (fun _ _ _ _ => rfl) k hch _) (.ite ?_ h)) (h.onCh ch _ fun _ => rfl)
    split
    · exact .ite h (h.onCh ch _ fun _ => rfl)
    · exact h.onCh ch _ fun _ => rfl
  · exact h

/-- What a switch of channel `ch` to `r` ends with. -/
structure Switched (ch r : Nat) (pbo : Int) (z c : Chip) : Prop where
  sel : (c.dp ch).sel = some r
  st : (c.dp ch).st = .acq ∨ (c.dp ch).st = .lock
  cause : c.hasCause .dpll ch 1
  pbofs : c.st DPLL.PBOFS ch = unsigned 32 pbo
  count : c.st DPLL.SWITCHES ch = wrapAdd DPLL.SWITCHES.width (z.st DPLL.SWITCHES ch) 1

/-- The phase built out (R329). -/
def builtOut (c : Chip) (ch r : Nat) (phase : Int) : Int :=
  if ch = 0 then phase else if c.twin.role ≠ .shadow ∧ c.on DPLL.PBO 1 = true then (c.mon r).last else 0

theorem switched_of {c : Chip} (k : Clock) {ch : Nat} (hch : ch < 2) {r : Nat} (phase : Int) (hw : c.heath.status.wf = true)
    (ht : (c.dp ch).target = some r) : Switched ch r (c.builtOut ch r phase) c (c.completeSwitch k ch phase) := by
  have hr : ch < 4096 := by omega
  unfold completeSwitch
  rw [ht]
  dsimp -zeta only
  extract_lets x pbo c₁ c₂ c₃
  have hpbo : pbo = c.builtOut ch r phase := rfl
  clear_value pbo
  have hdp₁ : c₁.dp ch = { c.dp ch with
      sel := some r, selAt := k.ticks, target := none, follow := false, recheck := false, within := 0, beyond := 0, meas := none } :=
    c.dp_onCh hch _
  have hw₁ : c₁.heath.status.wf = true := hw
  have hst₁ : c₁.st DPLL.SWITCHES ch = c.st DPLL.SWITCHES ch := rfl
  clear_value c₁
  have hwa := setSt_wf c₁ DPLL.PBOFS ch (unsigned 32 pbo) hw₁
  have hpa : (c₁.setSt DPLL.PBOFS ch (unsigned 32 pbo)).st DPLL.PBOFS ch = unsigned 32 pbo :=
    (st_setSt_same _ _ _ _ hw₁ (by decide)).trans (Nat.mod_eq_of_lt (unsigned_lt 32 _))
  have hsa : (c₁.setSt DPLL.PBOFS ch (unsigned 32 pbo)).st DPLL.SWITCHES ch = c.st DPLL.SWITCHES ch :=
    (st_setSt_other _ hw₁ rfl rfl hr hr (.inr (.inr rfl))).trans hst₁
  have hda : (c₁.setSt DPLL.PBOFS ch (unsigned 32 pbo)).dp ch = c₁.dp ch := congrArg (fun x : Dpll => vget x.chan ch ({} : Channel)) (setSt_dpll ..)
  generalize hea : c₁.setSt DPLL.PBOFS ch (unsigned 32 pbo) = ca at hwa hpa hsa hda
  have hwb := addSt_wf ca DPLL.SWITCHES ch 1 hwa
  have hpb : (ca.addSt DPLL.SWITCHES ch 1).st DPLL.PBOFS ch = unsigned 32 pbo :=
    (st_setSt_other _ hwa rfl rfl hr hr (.inr (.inr rfl))).trans hpa
  have hsb : (ca.addSt DPLL.SWITCHES ch 1).st DPLL.SWITCHES ch = wrapAdd DPLL.SWITCHES.width (c.st DPLL.SWITCHES ch) 1 :=
    (st_addSt_same _ _ _ _ hwa (by decide)).trans (by rw [hsa]; rfl)
  have hdb : (ca.addSt DPLL.SWITCHES ch 1).dp ch = ca.dp ch := congrArg (fun x : Dpll => vget x.chan ch ({} : Channel)) (addSt_dpll ..)
  generalize heb : ca.addSt DPLL.SWITCHES ch 1 = cb at hwb hpb hsb hdb
  have hc₂ : c₂ = cb.cause k .dpll ch 2 := by rw [← heb, ← hea]
  have hw₂ : c₂.heath.status.wf = true := by rw [hc₂]; exact cause_wf cb k .dpll ch 2 hwb
  have hcause₂ : c₂.hasCause .dpll ch 1 := by rw [hc₂]; exact hasCause_cause .dpll ch 2 1 hwb rfl (by decide) rfl
  have hloop₂ : Loops (fun x => x) cb c₂ := by rw [hc₂]; exact .causeCh k 2 hr (.refl cb)
  clear_value c₂
  have hdp₂ : c₂.dp ch = c₁.dp ch := (hloop₂.chan ch).trans (hdb.trans hda)
  have hpb₂ := (hloop₂.stat hwb DPLL.PBOFS (by decide) ch hr).trans hpb
  have hsw₂ := (hloop₂.stat hwb DPLL.SWITCHES (by decide) ch hr).trans hsb
  have hst₂ : (c₂.dp ch).st = x.st := by rw [hdp₂, hdp₁]
  have hsel₂ : (c₂.dp ch).sel = some r := by rw [hdp₂, hdp₁]
  have hloop₃ : Loops Channel.sel c₂ c₃ := .ite (.refl _) (.enter (fun _ _ => rfl) k hch _ (.refl _))
  have hst₃ : (c₃.dp ch).st = .acq ∨ (c₃.dp ch).st = .lock := by
    unfold c₃
    split
    next h => rw [hst₂]; exact h
    next => exact .inl (enter_st c₂ k hch .acq)
  clear_value c₃
  have hw₃ := hloop₃.wf hw₂
  have hloop₄ : Loops standing c₃ ((c₃.afterSwitch k ch x.recheck).syncCh k ch) := .syncCh k hch (afterSwitch_loops k hch _ (.refl _))
  generalize (c₃.afterSwitch k ch x.recheck).syncCh k ch = d at hloop₄
  have hst₄ : (d.dp ch).st = (c₃.dp ch).st := congrArg Prod.fst (hloop₄.chan ch)
  have hsel₄ : (d.dp ch).sel = (c₃.dp ch).sel := congrArg Prod.snd (hloop₄.chan ch)
  refine ⟨hsel₄.trans ((hloop₃.chan ch).trans hsel₂), by rw [hst₄]; exact hst₃,
    hloop₄.causes hw₃ ch hr 1 (hloop₃.causes hw₂ ch hr 1 hcause₂), ?_, ?_⟩
  · rw [hloop₄.stat hw₃ _ (by decide) ch hr, hloop₃.stat hw₂ _ (by decide) ch hr, hpb₂, hpbo]
  · rw [hloop₄.stat hw₃ _ (by decide) ch hr, hloop₃.stat hw₂ _ (by decide) ch hr, hsw₂]

end Chip

theorem switchComplete_spec (c : Fin 2) (ph : Int) (r : Nat) (s : State) (hs : s.serving) (hidx : s.clk.idx ≤ 511)
    (ht : (s.chip.dp c.val).target = some r) (hready : s.chip.switchReady s.clk c.val = true) :
    ∃ t, exec (.switchComplete c ph) s = .next t ∧ s.Holds t ∧ (t.chip.dp c.val).sel = some r ∧
      ((t.chip.dp c.val).st = .acq ∨ (t.chip.dp c.val).st = .lock) ∧ t.chip.hasCause .dpll c.val 1 ∧
      t.chip.st DPLL.PBOFS c.val = unsigned 32 (if c.val = 0 then ph
        else if s.chip.twin.role ≠ .shadow ∧ s.chip.on DPLL.PBO 1 = true then (s.chip.mon r).last else 0) ∧
      t.chip.st DPLL.SWITCHES c.val = wrapAdd DPLL.SWITCHES.width (s.chip.st DPLL.SWITCHES c.val) 1 := by
  have hexec : exec (.switchComplete c ph) s = .next { s with chip := s.chip.completeSwitch s.clk c.val ph } := by
    refine congrArg Host.Outcome.next ?_
    rw [if_neg (by omega)]
    refine (hs.act _).trans ?_
    rw [if_pos hready]
  have h := Chip.switched_of s.clk c.isLt ph hs.wf ht
  generalize s.chip.completeSwitch s.clk c.val ph = d at h hexec
  exact ⟨_, hexec, holds_of_coreEdge rfl hexec, h.sel, h.st, h.cause, h.pbofs, h.count⟩

end Sys2Proof.Machine
end

section
/-! PROOFS. The DPLL window (R324 to R336), and what it leaves. -/

namespace Sys2Proof.Machine
open Sys2Proof

namespace Chip

theorem liveBad_of_core {z c : Chip} (h : c.heath.core = z.heath.core) (t r : Nat) : c.liveBad t r = z.liveBad t r := by
  have e := congrArg (fun x : Heath => x.upsets.any fun u => u.bank == 1 && u.bits == 2 && u.found && tabOf u.addr == t && rowOf u.addr == r) h
  exact e
/-- From `z` to `c` the banks and the output of SYS stay. -/
structure Tunes (z c : Chip) : Prop where
  heath : c.heath.core = z.heath.core
  out : (c.dp 0).out = (z.dp 0).out

namespace Tunes
variable {z c d : Chip}

theorem refl (z : Chip) : Tunes z z := ⟨rfl, rfl⟩
theorem trans (h : Tunes z c) (g : Tunes c d) : Tunes z d := ⟨g.heath.trans h.heath, g.out.trans h.out⟩
theorem steady (h : Tunes z c) (g : Steady c d) : Tunes z d := h.trans ⟨g.heath, g.chan 0⟩
theorem ite {p : Prop} [Decidable p] (hc : Tunes z c) (hd : Tunes z d) : Tunes z (if p then c else d) := by
  split <;> assumption
theorem overN {n : Nat} {f : Nat → Chip → Chip} (h : Tunes z c) (hf : ∀ i < n, ∀ a, Tunes z a → Tunes z (f i a)) :
    Tunes z (Machine.overN n f c) :=
  (overN_each (P := fun _ _ => True) (Tunes z) h hf (fun _ _ _ _ => trivial) fun _ _ _ _ _ _ => trivial).1
theorem lv (h : Tunes z c) (f : Fld) (r : Nat) : c.lv f r = z.lv f r := by
  have e := congrArg (fun x : Heath => x.live.fld f r) h.heath
  exact e
theorem liveBad (h : Tunes z c) (t r : Nat) : c.liveBad t r = z.liveBad t r := liveBad_of_core h.heath t r

end Tunes

theorem Loops.causeOfRef {β : Type} {m : Channel → β} {z c : Chip} (k : Clock) {r bits : Nat} (hb : bits ≠ 0) (hr : r < 4096) (h : Loops m z c) :
    Loops m z (c.cause k .ref r bits) := by
  have := h.causeRef k bits hr
  unfold causeIf at this
  rw [if_neg hb] at this
  exact this
theorem Tunes.qualify {z c : Chip} (k : Clock) {r : Nat} (hr : r < 8) (h : Tunes z c) : Tunes z (c.qualify k r) := by
  unfold Chip.qualify
  extract_lets d
  have hd : Tunes z d := Tunes.steady (c := c.onRef r fun m => { m with qual := true }) ⟨h.heath, h.out⟩
    (.causeOfRef k (by decide) (by omega) (.syncRef hr (.refl _)))
  clear_value d
  refine hd.overN fun ch hch a ha => ?_
  extract_lets x b e
  have hb : Tunes z b := ha.steady (.choose k hch (.refl a))
  clear_value b
  have he : Tunes z e := by
    show Tunes z (match x.sel with
      | some s => if x.target != some r && b.lv DPLL.MODE ch == 1 && b.on DPLL.REVERT ch && b.maySelect ch r && b.ranksAbove ch r s &&
            (match x.wtr with
             | some (w, _) => b.ranksAbove ch r w
             | none => true) then
          b.onCh ch (fun x => { x with wtr := some (r, k.ticks + b.lv DPLL.WTR ch * 8) })
        else b
      | none => b)
    split
    · exact .ite (hb.steady (.onCh ch _ (fun _ => rfl) (.refl b))) hb
    · exact hb
  exact he.steady (.syncCh k hch (.refl e))

/-! ### The defects that the window judges -/

/-- ACT of an uplink reference is judged absent or present with its uplink OFF or not (Table 13.2). -/
theorem judgeRef_act (c : Chip) (k : Clock) (t : LoopTick) {r : Nat} (hr : r < 4) : has (c.judgeRef k t r) 0 = decide (c.lv UPL.MODE r = 0) := by
  have hbeq : (c.lv UPL.MODE r == 0) = decide (c.lv UPL.MODE r = 0) := rfl
  unfold judgeRef
  extract_lets m d pulse d₁ d₂ d₃ f
  have h₁ : has d₁ 0 = decide (c.lv UPL.MODE r = 0) := by
    unfold d₁
    rw [if_pos hr, has_setBit, has_setBit, hbeq]
    rfl
  have h₃ : d₃ = d₁ := by
    unfold d₃ d₂
    rw [if_neg (by omega), if_neg (by omega)]
  rw [if_neg (by omega), h₃]
  clear_value f
  split
  · rw [has_setBit, h₁]
    rfl
  · exact h₁
theorem reportFmeas_steady (c : Chip) (t : LoopTick) {r : Nat} (hr : r < 8) : Steady c (c.reportFmeas t r) := by
  unfold reportFmeas
  extract_lets m f
  clear_value f
  refine .ite (.refl c) ?_
  split
  · exact .setSt _ rfl (by omega) (.refl c)
  · exact .refl c

/-- The judgement of reference `r` in the window. -/
def refTurn (k : Clock) (t : LoopTick) (r : Nat) (c : Chip) : Chip :=
  if c.liveBad 0x59 r then c else (c.setRefDefs k r (c.judgeRef k t r)).reportFmeas t r
/-- An uplink reference has ACT exactly while its uplink is OFF, where its row is sound. -/
def ActRead (z : Chip) (r : Nat) (c : Chip) : Prop :=
  r < 4 → z.liveBad 0x59 r = false → has (c.mon r).defs 0 = decide (z.lv UPL.MODE r = 0)

theorem refTurn_tunes {z c : Chip} (k : Clock) (t : LoopTick) {r : Nat} (hr : r < 8) (h : Tunes z c) : Tunes z (refTurn k t r c) := by
  have hj := c.judged_of k hr (c.judgeRef k t r)
  unfold refTurn
  refine .ite h ?_
  generalize c.setRefDefs k r (c.judgeRef k t r) = d at hj ⊢
  have hd : Tunes z d := h.trans ⟨hj.heath, hj.out 0⟩
  exact hd.steady (reportFmeas_steady d t hr)
theorem refTurn_mon {c : Chip} (k : Clock) (t : LoopTick) {r : Nat} (hr : r < 8) (hok : c.liveBad 0x59 r = false) :
    ((refTurn k t r c).mon r).defs = c.judgeRef k t r ∧ ∀ i, i ≠ r → (refTurn k t r c).mon i = c.mon i := by
  have hj := c.judged_of k hr (c.judgeRef k t r)
  unfold refTurn
  rw [hok, if_neg Bool.false_ne_true]
  generalize c.setRefDefs k r (c.judgeRef k t r) = d at hj ⊢
  have hmon : ∀ i, (d.reportFmeas t r).mon i = d.mon i := fun i => congrArg (fun v => vget v i ({} : RefMon)) (reportFmeas_steady d t hr).ref
  exact ⟨by rw [hmon, hj.defs], fun i hi => by rw [hmon, hj.mon i hi]⟩
theorem refTurn_bad {c : Chip} (k : Clock) (t : LoopTick) {r : Nat} (h : c.liveBad 0x59 r = true) : refTurn k t r c = c := if_pos h

theorem refTurns (z : Chip) {c : Chip} (k : Clock) (t : LoopTick) (h : Tunes z c) :
    Tunes z (overN 8 (refTurn k t) c) ∧ ∀ r < 8, ActRead z r (overN 8 (refTurn k t) c) := by
  have hat : ∀ r < 8, ∀ a, Tunes z a → ActRead z r (refTurn k t r a) := fun r hr a ha h4 hok => by
    rw [← ha.liveBad] at hok
    rw [(refTurn_mon k t hr hok).1, judgeRef_act _ _ _ h4, ha.lv]
  refine overN_each (Tunes z) h (fun r hr a ha => refTurn_tunes k t hr ha) hat fun i j hj a ha hP => ?_
  by_cases hij : i = j
  · subst hij
    exact hat i hj a ha
  · intro h4 hok
    cases hbad : a.liveBad 0x59 j with
    | true =>
      rw [refTurn_bad k t hbad]
      exact hP h4 hok
    | false =>
      rw [(refTurn_mon k t hj hbad).2 i hij]
      exact hP h4 hok

/-! ### The loops -/

/-- What the loop of channel `ch` does to what is kept here: its own output moves. -/
structure Turned (ch : Nat) (z c : Chip) : Prop where
  ref : c.dpll.ref = z.dpll.ref
  heath : c.heath.core = z.heath.core
  out : ∀ i, i ≠ ch → (c.dp i).out = (z.dp i).out

theorem Turned.steady {ch : Nat} {z c d : Chip} (h : Turned ch z c) (g : Steady c d) : Turned ch z d :=
  ⟨g.ref.trans h.ref, g.heath.trans h.heath, fun i hi => (g.chan i).trans (h.out i hi)⟩

/-- The limits of the output of SYS (R19). -/
theorem slopeSys_spec (out aim : Int) : -200000000 ≤ slopeSys out aim ∧ slopeSys out aim ≤ 200000000 ∧
    (-200000000 ≤ out → out ≤ 200000000 → (slopeSys out aim - out).natAbs ≤ 500000) := by
  unfold slopeSys
  omega

theorem moveOut_turned (c : Chip) (k : Clock) {ch : Nat} (hch : ch < 2) : Turned ch c (c.moveOut k ch) ∧
    (ch = 0 → ((c.moveOut k ch).dp 0).out = slopeSys (c.dp 0).out (c.dp 0).aim) := by
  unfold moveOut
  extract_lets x out d
  have hd : Turned ch c d ∧ (d.dp ch).out = out := by
    have h₀ : Turned ch c (c.onCh ch fun x => { x with out := out }) := ⟨rfl, rfl, fun i hi => by rw [dp_onCh_other _ hi]⟩
    have ho : ((c.onCh ch fun x => { x with out := out }).dp ch).out = out := congrArg Channel.out (c.dp_onCh hch _)
    unfold d
    generalize (c.onCh ch fun x => { x with out := out }) = e at h₀ ho
    have hs : Steady e (e.setSt DPLL.FOUT ch (unsigned 32 out)) := .setSt _ rfl (by omega) (.refl e)
    exact ⟨h₀.steady hs, (hs.chan ch).trans ho⟩
  clear_value d
  by_cases h0 : ch = 0
  · subst h0
    have hs : Steady d (d.clampTick k (out != x.aim)) := .clampTick k _ (.refl d)
    rw [if_pos rfl]
    exact ⟨hd.1.steady hs, fun _ => (hs.chan 0).trans hd.2⟩
  · rw [if_neg h0]
    exact ⟨hd.1, fun h => absurd h h0⟩

theorem loopTick_turned (c : Chip) (k : Clock) (t : LoopTick) {ch : Nat} (hch : ch < 2) : Turned ch c (c.loopTick k t ch) ∧
    (ch = 0 → ∃ aim, ((c.loopTick k t ch).dp 0).out = slopeSys (c.dp 0).out aim) := by
  unfold loopTick
  extract_lets e d d'
  clear_value e
  have hd : Steady c d := .onCh ch _ (fun _ => rfl) (.refl c)
  clear_value d
  have hd' : Steady c d' := by
    show Steady c (match e with | some e => d.measure k ch e | none => d)
    split
    · exact hd.measure k hch _
    · exact hd
  clear_value d'
  have ha : Steady c ((d'.filterTick ch e).stateAim ch) := (hd'.filterTick ch e).stateAim ch
  generalize (d'.filterTick ch e).stateAim ch = a at ha ⊢
  obtain ⟨hm, ho⟩ := a.moveOut_turned k hch
  generalize a.moveOut k ch = b at hm ho ⊢
  have hh : Steady b (b.histTick k ch) := .histTick k hch (.refl b)
  refine ⟨(show Turned ch c b from ⟨hm.ref.trans ha.ref, hm.heath.trans ha.heath, fun i hi => (hm.out i hi).trans (ha.chan i)⟩).steady hh, fun h0 => ?_⟩
  have ha0 : (a.dp 0).out = (c.dp 0).out := ha.chan 0
  exact ⟨_, (hh.chan 0).trans ((ho h0).trans (by rw [ha0]))⟩

/-- The turn of channel `ch` in the window. -/
def chanTurn (k : Clock) (t : LoopTick) (ch : Nat) (c : Chip) : Chip :=
  ((if c.liveBad 0x58 ch then c else c.choose k ch).loopTick k t ch).syncCh k ch
theorem chanTurn_turned (c : Chip) (k : Clock) (t : LoopTick) {ch : Nat} (hch : ch < 2) : Turned ch c (chanTurn k t ch c) ∧
    (ch = 0 → ∃ aim, ((chanTurn k t ch c).dp 0).out = slopeSys (c.dp 0).out aim) := by
  unfold chanTurn
  obtain ⟨d, hd⟩ : ∃ d, (if c.liveBad 0x58 ch then c else c.choose k ch) = d := ⟨_, rfl⟩
  have hsd : Steady c d := by
    rw [← hd]
    exact .ite (.refl c) (.choose k hch (.refl c))
  rw [hd]
  obtain ⟨hm, ho⟩ := d.loopTick_turned k t hch
  generalize d.loopTick k t ch = b at hm ho ⊢
  have hh : Steady b (b.syncCh k ch) := .syncCh k hch (.refl b)
  refine ⟨(show Turned ch c b from ⟨hm.ref.trans hsd.ref, hm.heath.trans hsd.heath, fun i hi => (hm.out i hi).trans (hsd.chan i)⟩).steady hh,
    fun h0 => ?_⟩
  obtain ⟨aim, haim⟩ := ho h0
  have ha0 : (d.dp 0).out = (c.dp 0).out := hsd.chan 0
  exact ⟨aim, (hh.chan 0).trans (haim.trans (by rw [ha0]))⟩

/-! ### The whole window -/

/-- What the window leaves and gives. -/
structure Windowed (x : LoopTick) (z c : Chip) : Prop where
  core : c.dir.coreOfs = unsigned 20 (max (-200000) (min 200000 (x.core / 1000)))
  out : ∃ aim, (c.dp 0).out = slopeSys (z.dp 0).out aim
  act : ∀ r < 4, c.liveBad 0x59 r = false → has (c.mon r).defs 0 = decide (z.lv UPL.MODE r = 0)

theorem coreTick_spec (c : Chip) (k : Clock) (v : Int) : (c.coreTick k v).dir.coreOfs = unsigned 20 (max (-200000) (min 200000 (v / 1000))) ∧
    (c.coreTick k v).dpll.ref = c.dpll.ref ∧ (c.coreTick k v).dpll.chan = c.dpll.chan ∧ (c.coreTick k v).heath.core = c.heath.core := by
  unfold coreTick
  extract_lets bad d
  have hd : Calm c d := .ite (.srcEvent k 176 (by decide) (.refl c)) (.refl c)
  clear_value d
  have href := congrArg Dpll.ref hd.dpll
  have hchan := congrArg Dpll.chan hd.dpll
  exact ⟨rfl, href, hchan, hd.heath⟩

/-- The qualification of reference `r` in the window. -/
def qualTurn (k : Clock) (t : LoopTick) (r : Nat) (c : Chip) : Chip :=
  if c.qualifyDue k r && c.judgeRef k t r == 0 && !c.liveBad 0x59 r then c.qualify k r else c
theorem overN_two (f : Nat → Chip → Chip) (c : Chip) : overN 2 f c = f 1 (f 0 c) := rfl
theorem loopUpdate_eq (c : Chip) (k : Clock) (t : LoopTick) : c.loopUpdate k t =
    (overN 2 (chanTurn k t) (overN 8 (refTurn k t) (overN 8 (qualTurn k t) c))).coreTick k t.core := rfl

theorem windowed_of (c : Chip) (k : Clock) (t : LoopTick) : Windowed t c (c.loopUpdate k t) := by
  rw [loopUpdate_eq, overN_two]
  have h₁ : Tunes c (overN 8 (qualTurn k t) c) := (Tunes.refl c).overN fun r hr a ha => .ite (ha.qualify k hr) ha
  generalize overN 8 (qualTurn k t) c = c₁ at h₁ ⊢
  obtain ⟨h₂, hact⟩ := refTurns c k t h₁
  generalize overN 8 (refTurn k t) c₁ = c₂ at h₂ hact ⊢
  obtain ⟨h₃, hout₃⟩ := c₂.chanTurn_turned k t (ch := 0) (by decide)
  generalize chanTurn k t 0 c₂ = c₃ at h₃ hout₃ ⊢
  obtain ⟨h₄, -⟩ := c₃.chanTurn_turned k t (ch := 1) (by decide)
  generalize chanTurn k t 1 c₃ = c₄ at h₄ ⊢
  obtain ⟨hcore, href, hchan, hheath⟩ := c₄.coreTick_spec k t.core
  generalize c₄.coreTick k t.core = c₅ at hcore href hchan hheath ⊢
  obtain ⟨aim, haim⟩ := hout₃ rfl
  have hall : c₅.heath.core = c.heath.core := hheath.trans (h₄.heath.trans (h₃.heath.trans h₂.heath))
  refine ⟨hcore, ⟨aim, ?_⟩, fun r hr hok => ?_⟩
  · have hdp : c₅.dp 0 = c₄.dp 0 := congrArg (fun v => vget v 0 ({} : Channel)) hchan
    rw [hdp, h₄.out 0 (by decide), haim, h₂.out]
  · have hmon : c₅.mon r = c₂.mon r := congrArg (fun v => vget v r ({} : RefMon)) (href.trans (h₄.ref.trans h₃.ref))
    have hbad : c₅.liveBad 0x59 r = c.liveBad 0x59 r := liveBad_of_core hall _ _
    rw [hmon]
    exact hact r (by omega) hr (hbad.symm.trans hok)

end Chip

theorem loopFilterUpdate_spec (x : LoopTick) (s : State) (hs : s.serving) (hidx : s.clk.idx ≤ 511) (hdone : s.chip.done.contains 6 = false) :
    ∃ t, exec (.loopFilterUpdate x) s = .next t ∧ s.Runs t ∧ t.clk.idx = 511 ∧ 6 ∈ t.chip.done ∧
      t.chip.dir.coreOfs = unsigned 20 (max (-200000) (min 200000 (x.core / 1000))) ∧
      -200000000 ≤ (t.chip.dp 0).out ∧ (t.chip.dp 0).out ≤ 200000000 ∧
      (-200000000 ≤ (s.chip.dp 0).out → (s.chip.dp 0).out ≤ 200000000 → ((t.chip.dp 0).out - (s.chip.dp 0).out).natAbs ≤ 500000) ∧
      ∀ r < 4, t.chip.liveBad 0x59 r = false → has (t.chip.mon r).defs 0 = decide (s.chip.lv UPL.MODE r = 0) := by
  obtain ⟨u, hruns, hflow, huidx, hwin⟩ := State.inWindow_spec hs (lo := 511) (hi := 511) (code := 6) (by decide) hidx hdone
    fun k c => c.loopUpdate k x
  have hexec : exec (.loopFilterUpdate x) s = .next { u with chip := { u.chip.loopUpdate u.clk x with done := 6 :: u.chip.done } } :=
    congrArg Host.Outcome.next hwin
  have hkeep : Chip.Keeps u.chip (u.chip.loopUpdate u.clk x) := .loopUpdate _ _ (.refl _)
  obtain ⟨hcore, ⟨aim, haim⟩, hact⟩ := u.chip.windowed_of u.clk x
  have hdp : u.chip.dp 0 = s.chip.dp 0 := congrArg (fun d : Dpll => vget d.chan 0 ({} : Channel)) hflow.dpll
  have hlv : ∀ r, u.chip.lv UPL.MODE r = s.chip.lv UPL.MODE r := fun r => Chip.Flow.lv hflow UPL.MODE r
  generalize u.chip.loopUpdate u.clk x = d at hexec hkeep hcore haim hact
  obtain ⟨hlo, hhi, hmove⟩ := Chip.slopeSys_spec (s.chip.dp 0).out aim
  rw [hdp] at haim
  rw [← haim] at hlo hhi hmove
  refine ⟨_, hexec, hruns.then_keeps (hkeep.withDone _), huidx.trans (max_eq_right hidx), List.mem_cons_self .., hcore, hlo, hhi, hmove,
    fun r hr hok => ?_⟩
  rw [← hlv r]
  exact hact r hr hok

/-- Settles O51: the window's judgements and loops, the phase that a pulse delivers, and the begin and end of a switch. -/
theorem referencesAndChannels : Obligations.ReferencesAndChannels :=
  ⟨fun x s hs hidx hdone => loopFilterUpdate_spec x s hs hidx hdone,
    fun r7 ago osc s r hs hr => ⟨fun hp => referencePulse_spec r7 ago osc s r hs hr hp, fun hp => by
      refine congrArg Host.Outcome.next (State.act_same ?_)
      dsimp only
      rw [← hr, if_pos (by rw [hp]; rfl)]⟩,
    fun c r x e s hs hidx hwtr hsel he ht hmay hrank => dpllWaitToRestoreEnd_spec c r x e s hs hidx hwtr hsel he ht hmay hrank,
    fun c ph r s hs hidx ht hready => switchComplete_spec c ph r s hs hidx ht hready⟩

end Sys2Proof.Machine
end

section
/-! PROOFS. Items in and out of the queues inside the part (R255 to R262, R267). -/

namespace Sys2Proof.Machine
open Sys2Proof

namespace Chip

/-! ### A commit -/

theorem qReg_cause (i : Nat) : (qReg i).cause = QUEUE.CAUSE := by unfold qReg; split <;> rfl
theorem hasCause_qReg {c : Chip} (k : Clock) {i : Nat} {bits n : Nat} (hw : c.heath.status.wf = true) (hn : n < QUEUE.CAUSE.width)
    (hb : bits.testBit n = true) : ((c.cause k (qReg i) i bits).st QUEUE.CAUSE i).testBit n = true := by
  have h := hasCause_cause (c := c) (k := k) (qReg i) i bits n hw (by rw [qReg_cause]; rfl) (by rw [qReg_cause]; exact hn) hb
  unfold hasCause at h
  rw [qReg_cause] at h
  exact h

/-- The oldest whole item of a producer becomes the last item of its queue. -/
theorem qCommit_spec {c : Chip} (k : Clock) {i kind unit : Nat} {o : OpenItem} (hi : i < 12) (ho : (c.q i).wholeOf kind unit = some o)
    (hw : c.heath.status.wf = true) :
    ((c.qCommit k i kind unit).q i).items = (c.q i).items ++ [itemOf (c.q i).gap k o] ∧ ((c.qCommit k i kind unit).q i).gap = 0 ∧
      ((c.qCommit k i kind unit).st QUEUE.CAUSE i).testBit 1 = true ∧ ∀ j, j ≠ i → (c.qCommit k i kind unit).q j = c.q j := by
  unfold qCommit
  rw [ho]
  dsimp only
  have hq : ∀ j, (((c.onQ i fun x => { (x.closeWhole kind unit).append k (itemOf x.gap k o) with gap := 0 }).qSync i).cause k (qReg i) i 2).q j =
      (c.onQ i fun x => { (x.closeWhole kind unit).append k (itemOf x.gap k o) with gap := 0 }).q j := fun j =>
    q_of_que ((cause_que ..).trans (qSync_que ..)) j
  have hwd : ((c.onQ i fun x => { (x.closeWhole kind unit).append k (itemOf x.gap k o) with gap := 0 }).qSync i).heath.status.wf = true := by
    unfold qSync
    exact setSt_wf _ _ _ _ (setSt_wf _ _ _ _ hw)
  refine ⟨by rw [hq, q_onQ_same _ _ _ hi]; rfl, by rw [hq, q_onQ_same _ _ _ hi], hasCause_qReg k hwd (by decide) rfl,
    fun j hj => by rw [hq, q_onQ_other _ _ _ _ hj]⟩

end Chip

theorem itemCommit_spec (q : Fin 8) (kind : Fin 16) (unit : Byte) (o : OpenItem) (e : Nat) (s : State) (hs : s.serving)
    (ho : (s.chip.q q.val).wholeOf kind.val unit.toNat = some o) (hd : o.doneAt = some e) :
    (e + 2 ≤ s.clk.evc + (124999 - s.clk.idx) →
      ∃ t, exec (.itemCommit q kind unit) s = .next t ∧ s.Runs t ∧ t.clk.evc = max s.clk.evc (e + 2)) ∧
    (e + 2 ≤ s.clk.evc → o.hurt = 0 →
     ∃ t, exec (.itemCommit q kind unit) s = .next t ∧ s.Holds t ∧
      (t.chip.q q.val).items = (s.chip.q q.val).items ++
        [⟨word (unit.toNat * 2 ^ 24 + kind.val * 2 ^ 20 + (s.chip.q q.val).gap * 2 ^ 16 + o.bytes.length), false, 0, 0⟩ ::
          ⟨t.clk.stamp, false, 0, 0⟩ :: packWords o.bytes] ∧
      (t.chip.q q.val).gap = 0 ∧ t.chip.hasCause .qup q.val 1 ∧ (∀ i, i ≠ q.val → t.chip.q i = s.chip.q i)) := by
  have hexec : exec (.itemCommit q kind unit) s = .next ((s.toEvc (e + 2)).act fun k c =>
      if e + 2 ≤ k.evc then c.qCommit k q.val kind.val unit.toNat else c) := by
    refine congrArg Host.Outcome.next ?_
    rw [ho]
    dsimp only
    rw [hd]
    dsimp only
    rw [if_pos hs.1]
  refine ⟨fun he => ?_, fun he hhurt => ?_⟩
  · obtain ⟨hruns, -, hevc, hrun⟩ := State.toEvc_spec hs he
    rw [State.act_running _ _ hrun] at hexec
    refine ⟨_, hexec, hruns.then_keeps ?_, hevc⟩
    exact .ite (.qCommit _ _ _ _ (.refl _)) (.refl _)
  · have hstay : s.toEvc (e + 2) = s := by
      unfold State.toEvc
      rw [Nat.sub_eq_zero_of_le he, State.elapse_zero]
    have hexec : exec (.itemCommit q kind unit) s = .next { s with chip := s.chip.qCommit s.clk q.val kind.val unit.toNat } := by
      rw [hexec, hstay]
      refine congrArg Host.Outcome.next ((hs.act _).trans ?_)
      rw [if_pos he]
    obtain ⟨hitems, hgap, hcause, hother⟩ := Chip.qCommit_spec s.clk (by omega) ho hs.wf
    have hkind : o.kind = kind.val ∧ o.unit = unit.toNat := by
      have h := List.find?_some ho
      simp only [Bool.and_eq_true, beq_iff_eq] at h
      exact h.1
    have hitem : Chip.itemOf (s.chip.q q.val).gap s.clk o =
        ⟨word (unit.toNat * 2 ^ 24 + kind.val * 2 ^ 20 + (s.chip.q q.val).gap * 2 ^ 16 + o.bytes.length), false, 0, 0⟩ ::
          ⟨s.clk.stamp, false, 0, 0⟩ :: packWords o.bytes := by
      unfold Chip.itemOf
      dsimp only
      rw [hkind.1, hkind.2, if_pos hhurt]
      rfl
    have hkeep : Chip.Keeps s.chip (s.chip.qCommit s.clk q.val kind.val unit.toNat) := .qCommit _ _ _ _ (.refl _)
    generalize s.chip.qCommit s.clk q.val kind.val unit.toNat = d at *
    exact ⟨_, hexec, ⟨rfl, rfl, hkeep⟩, by rw [hitems, hitem], hgap, hcause, hother⟩

/-! ### A consumer -/

namespace Chip

theorem setTx_que (c : Chip) (w : Consumer) (m : TxMsg) : (c.setTx w m).que = c.que := by cases w <;> rfl
theorem setTx_heath (c : Chip) (w : Consumer) (m : TxMsg) : (c.setTx w m).heath = c.heath := by cases w <;> rfl
/-- Only drops and uplinks hold messages being sent. -/
theorem setTx_only (c : Chip) (w : Consumer) (m : TxMsg) : c.setTx w m = { c with drop := (c.setTx w m).drop, upl := (c.setTx w m).upl } := by
  cases w <;> rfl
/-- The message that a consumer is sending becomes `m`. -/
theorem setTx_rest (c : Chip) (w : Consumer) (m : TxMsg) :
    (∀ d < 96, w = .mch d → ((c.setTx w m).d d).txMch = m) ∧ (∀ d < 96, w = .mbk d → ((c.setTx w m).d d).txMbk = m) ∧
      (∀ d < 96, w = .sns d → ((c.setTx w m).d d).txSns = m) ∧ (∀ u < 4, w = .gcc u → ((c.setTx w m).u u).gcc = m) := by
  refine ⟨?_, ?_, ?_, ?_⟩
  · rintro d hd rfl
    exact congrArg Drop.txMch (d_onD_same c d _ hd)
  · rintro d hd rfl
    exact congrArg Drop.txMbk (d_onD_same c d _ hd)
  · rintro d hd rfl
    exact congrArg Drop.txSns (d_onD_same c d _ hd)
  · rintro u hu rfl
    exact congrArg Uplink.gcc (u_onU_same c u _ hu)

end Chip

/-- A consumer's head item, all of its words good. -/
structure State.Offers (s : State) (q : Fin 4) (w : Consumer) (ws : List QWord) (l : List (List QWord)) : Prop where
  serving : s.serving
  consumer : s.chip.consumer q.val = some w
  able : s.chip.canSend w = true
  items : (s.chip.q (8 + q.val)).items = ws :: l
  good : ∀ x ∈ ws, x.err = 0

namespace State.Offers
variable {s : State} {q : Fin 4} {w : Consumer} {ws : List QWord} {l : List (List QWord)}

theorem any (h : s.Offers q w ws l) {n : Nat} (hn : n ≠ 0) : ws.any (fun x => x.err == n) = false :=
  List.any_eq_false.mpr fun x hx => by simp [h.good x hx, Ne.symm hn]

theorem waits (h : s.Offers q w ws l) (hseg : s.chip.segments w = true) : exec (.downwardItemConsume q false) s = .next s := by
  refine congrArg Host.Outcome.next (State.act_same ?_)
  rw [h.consumer]
  dsimp only
  rw [if_neg Bool.false_ne_true]
  unfold Chip.beginItem
  dsimp only
  rw [h.items]
  dsimp only
  rw [hseg, Bool.or_true, if_pos rfl]

theorem begins (h : s.Offers q w ws l) (hb : (s.chip.q (8 + q.val)).begun = false) (hr : (s.chip.q (8 + q.val)).ready s.clk = true)
    (hen : s.chip.qEn (8 + q.val) = true) (hseg : s.chip.segments w = false) :
    ∃ t, exec (.downwardItemConsume q false) s = .next t ∧
      t = { s with chip := { s.chip with que := t.chip.que, drop := t.chip.drop, upl := t.chip.upl } } ∧
      (t.chip.q (8 + q.val)).begun = true ∧ (t.chip.q (8 + q.val)).items = ws :: l ∧
      (∀ d < 96, w = .mch d → (t.chip.d d).txMch.rest = itemBytes ws) ∧ (∀ d < 96, w = .mbk d → (t.chip.d d).txMbk.rest = itemBytes ws) ∧
      (∀ d < 96, w = .sns d → (t.chip.d d).txSns.rest = itemBytes ws) ∧ (∀ u < 4, w = .gcc u → (t.chip.u u).gcc.rest = itemBytes ws) := by
  have hi : 8 + q.val < 12 := by omega
  have hgood : ws.takeWhile (fun x => x.err != 2) = ws := List.takeWhile_eq_self_iff.mpr fun x hx => by simp [h.good x hx]
  obtain ⟨m, hm⟩ : ∃ m : TxMsg, m = { rest := itemBytes ws, queue := q.val, busy := true, cut := ws.length != ws.length } := ⟨_, rfl⟩
  have hrest : m.rest = itemBytes ws := by rw [hm]
  obtain ⟨c, hc⟩ : ∃ c, c = s.chip.onQ (8 + q.val) fun x => { x with begun := true } := ⟨_, rfl⟩
  have hexec : exec (.downwardItemConsume q false) s = .next { s with chip := c.setTx w m } := by
    refine congrArg Host.Outcome.next ((h.serving.act _).trans ?_)
    rw [h.consumer]
    dsimp only
    rw [if_neg Bool.false_ne_true]
    unfold Chip.beginItem
    dsimp only
    rw [h.items]
    dsimp only
    rw [if_neg (by simp [hb, hr, hen, hseg, h.able]), hgood, hm, hc]
  have honly := c.setTx_only w m
  have hque := c.setTx_que w m
  obtain ⟨hmch, hmbk, hsns, hgcc⟩ := c.setTx_rest w m
  generalize c.setTx w m = d at hexec honly hque hmch hmbk hsns hgcc
  have hq : d.q (8 + q.val) = { s.chip.q (8 + q.val) with begun := true } := by
    rw [Chip.q_of_que hque, hc, Chip.q_onQ_same _ _ _ hi]
  refine ⟨_, hexec, ?_, by rw [hq], by rw [hq, h.items], ?_, ?_, ?_, ?_⟩
  · have hd : d = { s.chip with que := d.que, drop := d.drop, upl := d.upl } := by
      conv_lhs => rw [honly, hc]
      rw [hque, hc]
      rfl
    exact congrArg (fun x : Chip => { s with chip := x }) hd
  · exact fun i hi hw => by rw [hmch i hi hw, hrest]
  · exact fun i hi hw => by rw [hmbk i hi hw, hrest]
  · exact fun i hi hw => by rw [hsns i hi hw, hrest]
  · exact fun i hi hw => by rw [hgcc i hi hw, hrest]

theorem ends (h : s.Offers q w ws l) (hb : (s.chip.q (8 + q.val)).begun = true) (hrest : (s.chip.txOf w).rest = []) :
    ∃ t, exec (.downwardItemConsume q true) s = .next t ∧ s.Holds t ∧ (t.chip.q (8 + q.val)).items = l ∧
      (t.chip.q (8 + q.val)).begun = false ∧ t.chip.hasCause .qdn (8 + q.val) 1 := by
  have hi : 8 + q.val < 12 := by omega
  obtain ⟨c, hc⟩ : ∃ c, c = s.chip.setTx w {} := ⟨_, rfl⟩
  have hq : c.q (8 + q.val) = s.chip.q (8 + q.val) := by rw [hc]; exact Chip.q_of_que (Chip.setTx_que ..) _
  have hw : c.heath.status.wf = true := by rw [hc, Chip.setTx_heath]; exact h.serving.wf
  have hexec : exec (.downwardItemConsume q true) s = .next { s with chip := c.qFinish s.clk (8 + q.val) } := by
    refine congrArg Host.Outcome.next ((h.serving.act _).trans ?_)
    rw [h.consumer]
    dsimp only
    rw [if_pos rfl]
    unfold Chip.finishItem
    dsimp only
    have hhead : (s.chip.q (8 + q.val)).items.head?.getD [] = ws := by rw [h.items]; rfl
    rw [if_pos (by simp [hb, h.able, hrest]), hhead]
    rw [if_neg (Bool.eq_false_iff.mp (h.any (n := 2) (by decide))), if_neg (Bool.eq_false_iff.mp (h.any (n := 1) (by decide))), hc]
  have hfin := c.qFinish_q s.clk hi
  have hcause : ((c.qFinish s.clk (8 + q.val)).st QUEUE.CAUSE (8 + q.val)).testBit 1 = true := by
    unfold Chip.qFinish Chip.qSync
    exact Chip.hasCause_qReg s.clk (Chip.setSt_wf _ _ _ _ (Chip.setSt_wf _ _ _ _ hw)) (by decide) rfl
  generalize c.qFinish s.clk (8 + q.val) = d at hexec hfin hcause
  refine ⟨_, hexec, holds_of_coreEdge rfl hexec, ?_, by rw [hfin], hcause⟩
  rw [hfin, hq, h.items]
  rfl

end State.Offers

/-! ### LEVEL -/

namespace Chip

/-- What the judgement of one queue leaves of the others' grounds. -/
def Judges (z c : Chip) : Prop := c.que = z.que ∧ c.heath.live = z.heath.live ∧ c.heath.status.wf = true
theorem Judges.atLevel {z c : Chip} (h : Judges z c) (i : Nat) : c.atLevel i = z.atLevel i := by
  obtain ⟨hque, hlive, -⟩ := h
  have hlv : ∀ f r, c.lv f r = z.lv f r := fun f r => congrArg (fun b : Bank => b.fld f r) hlive
  have hon : ∀ f r, c.on f r = z.on f r := fun f r => congrArg (fun b : Bank => b.fld f r == 1) hlive
  unfold Chip.atLevel qLevel qFree qCap qEn
  rw [hlv, hlv, hon, q_of_que hque]

/-- A queue at its level sets its cause. -/
def levelTurn (k : Clock) (i : Nat) (c : Chip) : Chip := if c.atLevel i then c.cause k (qReg i) i 1 else c
theorem levelTurn_judges {z c : Chip} (k : Clock) (i : Nat) (h : Judges z c) : Judges z (levelTurn k i c) := by
  obtain ⟨hque, hlive, hw⟩ := h
  unfold levelTurn
  split
  · exact ⟨(cause_que ..).trans hque, ((Keeps.refl c).cause _ _ _ _).live.trans hlive, cause_wf _ _ _ _ _ hw⟩
  · exact ⟨hque, hlive, hw⟩
theorem levels (z : Chip) (k : Clock) (hw : z.heath.status.wf = true) : Judges z (overN 12 (levelTurn k) z) ∧
    ∀ i < 12, z.atLevel i = true → ((overN 12 (levelTurn k) z).st QUEUE.CAUSE i).testBit 0 = true := by
  have hat : ∀ i < 12, ∀ a, Judges z a → z.atLevel i = true → ((levelTurn k i a).st QUEUE.CAUSE i).testBit 0 = true := fun i _ a ha hl => by
    obtain ⟨-, -, hwa⟩ := id ha
    unfold levelTurn
    rw [if_pos (by rw [ha.atLevel]; exact hl)]
    exact hasCause_qReg k hwa (by decide) rfl
  obtain ⟨hj, hall⟩ := overN_each (P := fun i c => i < 12 → z.atLevel i = true → (c.st QUEUE.CAUSE i).testBit 0 = true) (Judges z) ⟨rfl, rfl, hw⟩
    (fun i _ a ha => levelTurn_judges k i ha) (fun i hi a ha _ => hat i hi a ha) fun i j hj a ha hP hi hl => by
      by_cases hij : i = j
      · subst hij
        exact hat i hj a ha hl
      · obtain ⟨-, -, hwa⟩ := ha
        unfold levelTurn
        split
        · rw [st_cause_other k (qReg j) 1 hwa rfl (by rw [qReg_cause]; rfl) (by omega) (by omega) (.inr (.inl hij))]
          exact hP hi hl
        · exact hP hi hl
  exact ⟨hj, fun i hi => hall i hi hi⟩

end Chip

theorem level_spec (s : State) (hs : s.serving) (hidx : s.clk.idx ≤ 7) (hdone : s.chip.done.contains 7 = false) :
    ∃ t, exec .level s = .next t ∧ s.Runs t ∧ t.clk.idx = 7 ∧ 7 ∈ t.chip.done ∧
      ∀ i < 12, t.chip.atLevel i = true → (t.chip.st QUEUE.CAUSE i).testBit 0 = true := by
  obtain ⟨u, hruns, hflow, huidx, hwin⟩ := State.inWindow_spec hs (lo := 7) (hi := 7) (code := 7) (by decide) hidx hdone
    fun k c => overN 12 (Chip.levelTurn k) c
  have hexec : exec .level s = .next { u with chip := { overN 12 (Chip.levelTurn u.clk) u.chip with done := 7 :: u.chip.done } } :=
    congrArg Host.Outcome.next hwin
  have hkeep : Chip.Keeps u.chip (overN 12 (Chip.levelTurn u.clk) u.chip) :=
    .overN 12 (.refl _) fun i a ha => by
      unfold Chip.levelTurn
      exact .ite (ha.cause _ _ _ _) ha
  obtain ⟨hj, hcause⟩ := u.chip.levels u.clk (hflow.wf hs.wf)
  generalize overN 12 (Chip.levelTurn u.clk) u.chip = d at hexec hkeep hj hcause
  exact ⟨_, hexec, hruns.then_keeps (hkeep.withDone _), huidx.trans (max_eq_right hidx), List.mem_cons_self ..,
    fun i hi hl => hcause i hi ((hj.atLevel i).symm.trans hl)⟩

/-- Settles O47: a whole item becomes the last of its queue, a consumer takes its head item, and a queue at its level sets its cause. -/
theorem queueItems : Obligations.QueueItems :=
  ⟨fun q kind unit o e s hs ho hd => itemCommit_spec q kind unit o e s hs ho hd,
    fun q w ws l s hs hc ha hi hg =>
      have h : s.Offers q w ws l := ⟨hs, hc, ha, hi, hg⟩
      ⟨h.waits, h.begins, h.ends⟩,
    fun s hs hidx hdone => level_spec s hs hidx hdone⟩

end Sys2Proof.Machine
end

section
/-! PROOFS. The meadow's scrubber, locks and default target, and the grooming moves (R229 to R243). -/

namespace Sys2Proof.Machine
open Sys2Proof

namespace Chip

/-! ### The scrubber -/

/-- Errored words of a cell that holds none, with `fresh` bits just found in word `w`. -/
def freshWords (w fresh : Nat) : List (Nat × Nat) := if fresh = 0 then [] else [(w, min 2 fresh)]

/-- The scrubber's counts, before its events. -/
structure Scrubbed (b n : Nat) (z c : Chip) : Prop where
  row : vget c.mead.scrubRow b 0 = (vget z.mead.scrubRow b 0 + 1) % 32768
  scrubs : c.mead.scrubs = if vget z.mead.scrubRow b 0 + 1 = 32768 then wrapAdd 32 z.mead.scrubs 1 else z.mead.scrubs
  cor : c.mead.eccCor = wrapAdd 32 z.mead.eccCor (if n = 1 then 1 else 0)
  unc : c.mead.eccUnc = wrapAdd 32 z.mead.eccUnc (if n = 2 then 1 else 0)
  trib : c.trib = z.trib
  only : n ≠ 2 → c = { z with mead := c.mead }

theorem freshWords_counts (w : Nat) {n : Nat} (hn : n < 3) : ((freshWords w n).filter fun x => x.2 == 1).length = (if n = 1 then 1 else 0) ∧
    ((freshWords w n).filter fun x => x.2 == 2).length = (if n = 2 then 1 else 0) := by
  rcases (by omega : n = 0 ∨ n = 1 ∨ n = 2) with rfl | rfl | rfl <;> exact ⟨rfl, rfl⟩

theorem scrubbed_of {c : Chip} (k : Clock) {b n : Nat} (w : Nat) (hb : b < 16) (hn : n < 3) (hclean : ∀ x ∈ c.mead.upsets, x.cell ≠ vget c.mead.scrubRow b 0 * 16 + b) :
    Scrubbed b n c (c.scrub k b w n) := by
  have hold : c.mead.upsets.filter (fun x => x.cell == vget c.mead.scrubRow b 0 * 16 + b) = [] :=
    List.filter_eq_nil_iff.mpr fun x hx => by simpa using hclean x hx
  obtain ⟨hone, htwo⟩ := freshWords_counts w hn
  unfold scrub
  extract_lets row cell old here words one two reserve keep d
  have hwords : words = freshWords w n := by
    unfold words here old cell row
    rw [hold]
    unfold freshWords
    simp
  have hone' : one = if n = 1 then 1 else 0 := by unfold one; rw [hwords, hone]
  have htwo' : two.length = if n = 2 then 1 else 0 := by unfold two; rw [hwords, htwo]
  have hd : Scrubbed b n c d :=
    ⟨vget_vupd_same _ _ _ _ hb, rfl, congrArg (wrapAdd 32 _) hone', congrArg (wrapAdd 32 _) htwo', rfl, fun _ => rfl⟩
  clear_value two d
  have hcalm : Calm d (two.foldl (fun c _ => let c := c.srcEvent k (224 + b); if reserve then c.srcEvent k 212 else c) d) :=
    Calm.foldl two (.refl d) fun a _ _ ha => by
      have hs : Calm d (a.srcEvent k (224 + b)) := .srcEvent k _ (by omega) ha
      exact .ite (.srcEvent k 212 (by decide) hs) hs
  refine ⟨by rw [hcalm.mead, hd.row], by rw [hcalm.mead, hd.scrubs], by rw [hcalm.mead, hd.cor], by rw [hcalm.mead, hd.unc],
    hcalm.trib.trans hd.trib, fun h2 => ?_⟩
  have hnil : two = [] := List.eq_nil_of_length_eq_zero (by rw [htwo', if_neg h2])
  rw [hnil]
  exact hd.only h2

end Chip

theorem scrubberRead_spec (b : Fin 16) (w : Fin 8) (n : Fin 3) (s : State) (hs : s.serving)
    (hclean : ∀ x ∈ s.chip.mead.upsets, x.cell ≠ vget s.chip.mead.scrubRow b.val 0 * 16 + b.val) :
    ∃ t, exec (.scrubberRead b w n) s = .next t ∧ s.Holds t ∧ (n ≠ 2 → s.OnlyMead t) ∧
      vget t.chip.mead.scrubRow b.val 0 = (vget s.chip.mead.scrubRow b.val 0 + 1) % 32768 ∧
      t.chip.mead.scrubs = (if vget s.chip.mead.scrubRow b.val 0 + 1 = 32768 then wrapAdd 32 s.chip.mead.scrubs 1 else s.chip.mead.scrubs) ∧
      t.chip.mead.eccCor = wrapAdd 32 s.chip.mead.eccCor (if n = 1 then 1 else 0) ∧
      t.chip.mead.eccUnc = wrapAdd 32 s.chip.mead.eccUnc (if n = 2 then 1 else 0) ∧ t.chip.trib = s.chip.trib := by
  have hexec : exec (.scrubberRead b w n) s = .next { s with chip := s.chip.scrub s.clk b.val w.val n.val } :=
    congrArg Host.Outcome.next (hs.act _)
  have h := Chip.scrubbed_of s.clk w.val b.isLt n.isLt hclean
  have hkeep : Chip.Keeps s.chip (s.chip.scrub s.clk b.val w.val n.val) := .scrub _ _ _ _ (.refl _)
  generalize s.chip.scrub s.clk b.val w.val n.val = d at hexec h hkeep
  have h1 : (n = 1) = (n.val = 1) := propext (Fin.ext_iff)
  have h2 : (n = 2) = (n.val = 2) := propext (Fin.ext_iff)
  simp only [ne_eq, h1, h2]
  refine ⟨_, hexec, ⟨rfl, rfl, hkeep⟩, fun hn => ?_, h.row, h.scrubs, h.cor, h.unc, h.trib⟩
  unfold State.OnlyMead
  exact congrArg (fun c : Chip => ({ s with chip := c } : State)) (h.only hn)

/-! ### A broken lock -/

namespace Chip

/-- What the break of a lock of master `m` on target `g` leaves and marks. -/
structure Broken (m g : Nat) (z c : Chip) : Prop where
  count : c.mead.lockBrk = wrapAdd 16 z.mead.lockBrk 1
  heath : c.mead.brokeHeath = (z.mead.brokeHeath || (m == 0 && g == 16))
  queue : c.mead.brokeQueue = (z.mead.brokeQueue || (m == 0 && g == 17))
  time : c.mead.brokeTime = (z.mead.brokeTime || m == 6)
  runs : m = 7 → z.twin.role = .shadow → c.twin.brokeRuns = true
  backlog : m = 7 → z.twin.role ≠ .shadow → c.mirrors = true → c.twin.backlog = fullBank

theorem broken_of {c : Chip} (k : Clock) {m g : Nat} (hm : m = 0 ∨ m = 6 ∨ m = 7) (h : c.locks m g = true) : Broken m g c (c.breakLock k m g) := by
  unfold breakLock
  rw [if_neg (by rw [h]; decide)]
  extract_lets d
  have hcalm : Calm (c.onM fun x => { x with lockBrk := wrapAdd 16 x.lockBrk 1 }) d := .srcEvent k 208 (by decide) (.refl _)
  have hmead : d.mead = { c.mead with lockBrk := wrapAdd 16 c.mead.lockBrk 1 } := hcalm.mead
  obtain ⟨hrole, -⟩ := hcalm.seat
  have hrole : d.twin.role = c.twin.role := hrole
  clear_value d
  rcases hm with rfl | rfl | rfl
  · rw [if_pos rfl]
    refine ⟨by rw [onM, hmead], by rw [onM, hmead]; rfl, by rw [onM, hmead]; rfl, ?_, fun h => absurd h (by decide), fun h => absurd h (by decide)⟩
    rw [onM, hmead]
    exact (Bool.or_false _).symm
  · rw [if_neg (by decide), if_pos rfl]
    refine ⟨by rw [onM, hmead], ?_, ?_, by rw [onM]; simp, fun h => absurd h (by decide), fun h => absurd h (by decide)⟩
    · rw [onM, hmead]
      exact (Bool.or_false _).symm
    · rw [onM, hmead]
      exact (Bool.or_false _).symm
  · rw [if_neg (by decide), if_neg (by decide)]
    have hmarks : ∀ e : Chip, e.mead = d.mead → (c.twin.role = .shadow → e.twin.brokeRuns = true) →
        (c.twin.role ≠ .shadow → e.mirrors = true → e.twin.backlog = fullBank) → Broken 7 g c e := fun e he hr hb =>
      ⟨by rw [he, hmead], by rw [he, hmead]; exact (Bool.or_false _).symm, by rw [he, hmead]; exact (Bool.or_false _).symm,
        by rw [he, hmead]; exact (Bool.or_false _).symm, fun _ => hr, fun _ => hb⟩
    split
    next hs => exact hmarks _ rfl (fun _ => rfl) fun hne => absurd (hrole.symm.trans hs) hne
    next hs =>
      split
      next => exact hmarks _ rfl (fun hsh => absurd (hrole.trans hsh) hs) fun _ _ => rfl
      next hno => exact hmarks _ rfl (fun hsh => absurd (hrole.trans hsh) hs) fun _ hmir => absurd hmir hno

end Chip

theorem fin_beq {n : Nat} (a b : Fin n) : (a == b) = (a.val == b.val) := by
  rw [Bool.eq_iff_iff, beq_iff_eq, beq_iff_eq, Fin.ext_iff]
theorem lockBreak_spec (m : Fin 8) (g : Fin 19) (s : State) (hs : s.serving) (hen : (s.chip.lv XBAR.LOCKEN 0).testBit m.val = true)
    (hp : (m = 0 ∧ (g = 16 ∨ g = 17)) ∨ (m = 6 ∧ g = 17) ∨ (m = 7 ∧ g = 16 ∧ s.chip.twin.role ≠ .solo)) :
    ∃ t, exec (.lockBreak m g) s = .next t ∧ s.Holds t ∧ t.chip.mead.lockBrk = wrapAdd 16 s.chip.mead.lockBrk 1 ∧
      t.chip.mead.brokeHeath = (s.chip.mead.brokeHeath || (m == 0 && g == 16)) ∧
      t.chip.mead.brokeQueue = (s.chip.mead.brokeQueue || (m == 0 && g == 17)) ∧
      t.chip.mead.brokeTime = (s.chip.mead.brokeTime || m == 6) ∧
      (m = 7 → s.chip.twin.role = .shadow → t.chip.twin.brokeRuns = true) ∧
      (m = 7 → s.chip.twin.role ≠ .shadow → t.chip.mirrors = true → t.chip.twin.backlog = fullBank) := by
  have hlock : s.chip.locks m.val g.val = true := by
    unfold Chip.locks
    rw [hen]
    rcases hp with ⟨rfl, rfl | rfl⟩ | ⟨rfl, rfl⟩ | ⟨rfl, rfl, hr⟩
    · rfl
    · rfl
    · rfl
    · simp [hr]
  have hm : m.val = 0 ∨ m.val = 6 ∨ m.val = 7 := by
    rcases hp with ⟨rfl, -⟩ | ⟨rfl, -⟩ | ⟨rfl, -⟩
    · exact .inl rfl
    · exact .inr (.inl rfl)
    · exact .inr (.inr rfl)
  have hexec : exec (.lockBreak m g) s = .next { s with chip := s.chip.breakLock s.clk m.val g.val } := congrArg Host.Outcome.next (hs.act _)
  have h := Chip.broken_of s.clk hm hlock
  have hkeep : Chip.Keeps s.chip (s.chip.breakLock s.clk m.val g.val) := .breakLock _ _ _ (.refl _)
  generalize s.chip.breakLock s.clk m.val g.val = d at hexec h hkeep
  simp only [fin_beq]
  exact ⟨_, hexec, ⟨rfl, rfl, hkeep⟩, h.count, h.heath, h.queue, h.time, fun hm => h.runs (congrArg Fin.val hm),
    fun hm => h.backlog (congrArg Fin.val hm)⟩
theorem lockBreak_none (m : Fin 8) (g : Fin 19) (s : State)
    (h : (s.chip.lv XBAR.LOCKEN 0).testBit m.val = false ∨
      ¬ ((m = 0 ∧ (g = 16 ∨ g = 17)) ∨ (m = 6 ∧ g = 17) ∨ (m = 7 ∧ g = 16 ∧ s.chip.twin.role ≠ .solo))) :
    exec (.lockBreak m g) s = .next s := by
  have hlock : s.chip.locks m.val g.val = false := by
    unfold Chip.locks
    rcases h with h | h
    · rw [h, Bool.false_and]
    · simp only [Fin.ext_iff, ne_eq] at h
      by_contra hc
      simp only [Bool.not_eq_false, Bool.and_eq_true, Bool.or_eq_true, beq_iff_eq, decide_eq_true_eq] at hc
      obtain ⟨-, hc⟩ := hc
      exact h (by rcases hc with (hc | hc) | ⟨⟨h7, h16⟩, hr⟩ <;> tauto)
  exact congrArg Host.Outcome.next (State.act_same (if_pos (by rw [hlock]; rfl)))

/-! ### The default target -/

theorem defaultTargetAccess_spec (m : Fin 8) (wr : Bool) (s : State) (hs : s.serving) :
    ∃ t, exec (.defaultTargetAccess m wr) s = .next t ∧ s.Holds t ∧ t.chip.mead.defTgt = wrapAdd 16 s.chip.mead.defTgt 1 ∧
      t.chip.mead.defLast = bit wr * 8 + m.val := by
  have hcalm : Chip.Calm (s.chip.onM fun x => { x with defTgt := wrapAdd 16 x.defTgt 1, defLast := bit wr * 8 + m.val })
      ((s.chip.onM fun x => { x with defTgt := wrapAdd 16 x.defTgt 1, defLast := bit wr * 8 + m.val }).srcEvent s.clk 209) :=
    .srcEvent s.clk 209 (by decide) (.refl _)
  have hexec : exec (.defaultTargetAccess m wr) s = .next { s with
      chip := (s.chip.onM fun x => { x with defTgt := wrapAdd 16 x.defTgt 1, defLast := bit wr * 8 + m.val }).srcEvent s.clk 209 } :=
    congrArg Host.Outcome.next (hs.act _)
  have hmead := hcalm.mead
  have hkeep : Chip.Keeps s.chip
      ((s.chip.onM fun x => { x with defTgt := wrapAdd 16 x.defTgt 1, defLast := bit wr * 8 + m.val }).srcEvent s.clk 209) :=
    .srcEvent _ _ (.onM _ (.refl _))
  generalize (s.chip.onM fun x => { x with defTgt := wrapAdd 16 x.defTgt 1, defLast := bit wr * 8 + m.val }).srcEvent s.clk 209 = d at hexec hmead hkeep
  exact ⟨_, hexec, ⟨rfl, rfl, hkeep⟩, by rw [hmead]; rfl, by rw [hmead]; rfl⟩

/-! ### Grooming moves -/

namespace Chip

/-- From `z` to `c` moves only add: the banks stay, and what is new in the next frame is of tick `n`. -/
structure Grooms (n : Nat) (z c : Chip) : Prop where
  heath : c.heath.core = z.heath.core
  out : ∀ g ∈ z.mead.outNext, g ∈ c.mead.outNext
  absent : ∀ x ∈ z.mead.absentNext, x ∈ c.mead.absentNext
  tick : ∀ g ∈ c.mead.outNext, g ∈ z.mead.outNext ∨ g.tick = n

namespace Grooms
variable {n : Nat} {z c d : Chip}

theorem refl (z : Chip) : Grooms n z z := ⟨rfl, fun _ h => h, fun _ h => h, fun _ h => .inl h⟩
theorem trans (h : Grooms n z c) (g : Grooms n c d) : Grooms n z d :=
  ⟨g.heath.trans h.heath, fun x hx => g.out x (h.out x hx), fun x hx => g.absent x (h.absent x hx), fun x hx =>
    (g.tick x hx).elim (h.tick x) .inr⟩
theorem beside (he : d.heath.core = c.heath.core) (ho : d.mead.outNext = c.mead.outNext) (ha : d.mead.absentNext = c.mead.absentNext) : Grooms n c d :=
  ⟨he, fun x hx => by rw [ho]; exact hx, fun x hx => by rw [ha]; exact hx, fun x hx => .inl (by rw [← ho]; exact hx)⟩
theorem lv (h : Grooms n z c) (f : Fld) (r : Nat) : c.lv f r = z.lv f r := by
  have e := congrArg (fun x : Heath => x.live.fld f r) h.heath
  exact e

end Grooms

theorem readHalf_heath (c : Chip) (k : Clock) (h : Nat × Nat) : (c.readHalf k h).2.heath.core = c.heath.core ∧
    (c.readHalf k h).2.mead.outNext = c.mead.outNext ∧ (c.readHalf k h).2.mead.absentNext = c.mead.absentNext := by
  unfold readHalf
  extract_lets hit one two d
  have hd : d.heath.core = c.heath.core ∧ d.mead.outNext = c.mead.outNext ∧ d.mead.absentNext = c.mead.absentNext := by
    unfold d
    split <;> exact ⟨rfl, rfl, rfl⟩
  clear_value d
  have hcalm : Calm d (two.foldl (fun c _ => (c.srcEvent k (224 + h.1 % 16)).srcEvent k 212) d) :=
    Calm.foldl two (.refl d) fun a _ _ ha => .srcEvent k 212 (by decide) (.srcEvent k _ (by omega) ha)
  obtain ⟨h₁, h₂, h₃⟩ := hd
  exact ⟨hcalm.heath.trans h₁, (congrArg Meadow.outNext hcalm.mead).trans h₂, (congrArg Meadow.absentNext hcalm.mead).trans h₃⟩
theorem sourceBlock_grooms (n : Nat) (c : Chip) (k : Clock) (up : Bool) (d b typ : Nat) : Grooms n c (c.sourceBlock k up d b typ).2 := by
  unfold sourceBlock
  extract_lets x got
  obtain ⟨h₁, h₂, h₃⟩ := c.readHalf_heath k (reserveHalf (srcBuf k.ticks up) d b)
  generalize c.readHalf k (reserveHalf (srcBuf k.ticks up) d b) = p at h₁ h₂ h₃ ⊢
  exact .beside h₁ h₂ h₃
theorem writeHalf_grooms (n : Nat) (c : Chip) (h : Nat × Nat) : Grooms n c (c.writeHalf h) := by
  unfold writeHalf
  split
  · exact .beside rfl rfl rfl
  · exact .refl c

/-- Block (`i`, `j`) of row `r` stands in the next frame, or is named as absent; the fields are those of `z`. -/
def Moved (z : Chip) (m : Nat × Nat × Nat) (c : Chip) : Prop :=
  (z.lv GROOM.DSTDROP m.1 + m.2.1, z.lv GROOM.DSTBLK m.1 + m.2.2) ∈ c.mead.absentNext ∨
    ∃ g ∈ c.mead.outNext, g.drop = z.lv GROOM.DSTDROP m.1 + m.2.1 ∧ g.blk = z.lv GROOM.DSTBLK m.1 + m.2.2 ∧ g.typ = z.lv GROOM.TYPE m.1

theorem Moved.grooms {n : Nat} {z c d : Chip} {m : Nat × Nat × Nat} (h : Moved z m c) (g : Grooms n c d) : Moved z m d :=
  h.imp (g.absent _) fun ⟨x, hx, hf⟩ => ⟨x, g.out x hx, hf⟩

theorem moveBlock_moved {z c : Chip} (k : Clock) (m : Nat × Nat × Nat) (h : Grooms (k.ticks + 1) z c) :
    Grooms (k.ticks + 1) z (c.moveBlock k m.1 m.2.1 m.2.2) ∧ Moved z m (c.moveBlock k m.1 m.2.1 m.2.2) := by
  unfold moveBlock
  extract_lets d b typ
  have hd : d = z.lv GROOM.DSTDROP m.1 + m.2.1 := by unfold d; rw [h.lv]
  have hb : b = z.lv GROOM.DSTBLK m.1 + m.2.2 := by unfold b; rw [h.lv]
  have ht : typ = z.lv GROOM.TYPE m.1 := h.lv _ _
  have hs := c.sourceBlock_grooms (k.ticks + 1) k (c.on GROOM.SRCDIR m.1) (c.lv GROOM.SRCDROP m.1 + m.2.1) (c.lv GROOM.SRCBLK m.1 + m.2.2) typ
  generalize c.sourceBlock k (c.on GROOM.SRCDIR m.1) (c.lv GROOM.SRCDROP m.1 + m.2.1) (c.lv GROOM.SRCBLK m.1 + m.2.2) typ = p at hs
  obtain ⟨src, e⟩ := p
  have he : Grooms (k.ticks + 1) z e := h.trans hs
  clear_value d b typ
  cases src with
  | none =>
    have hadd : Grooms (k.ticks + 1) e (e.onM fun x => { x with absentNext := (d, b) :: x.absentNext }) :=
      ⟨rfl, fun _ hx => hx, fun _ hx => List.mem_cons_of_mem _ hx, fun _ hx => .inl hx⟩
    exact ⟨he.trans hadd, .inl (by rw [← hd, ← hb]; exact List.mem_cons_self ..)⟩
  | some bs =>
    dsimp only
    generalize (if typ = tAudio then rewriteAudio (e.lineTick k + 1) bs else bs) = bytes
    have hw := e.writeHalf_grooms (k.ticks + 1) (reserveHalf (outBuf (k.ticks + 1)) d b)
    generalize e.writeHalf (reserveHalf (outBuf (k.ticks + 1)) d b) = f at hw ⊢
    have hadd : Grooms (k.ticks + 1) f (f.onM fun x => { x with outNext := ⟨d, b, typ, k.ticks + 1, bytes⟩ :: x.outNext }) :=
      ⟨rfl, fun _ hx => List.mem_cons_of_mem _ hx, fun _ hx => hx, fun _ hx => (List.mem_cons.mp hx).elim (fun hx => .inr (by rw [hx])) .inl⟩
    exact ⟨(he.trans hw).trans hadd, .inr ⟨_, List.mem_cons_self .., hd, hb, ht⟩⟩

theorem moves_moved {z : Chip} (k : Clock) (ms : List (Nat × Nat × Nat)) {c : Chip} (h : Grooms (k.ticks + 1) z c) :
    Grooms (k.ticks + 1) z (ms.foldl (fun c m => c.moveBlock k m.1 m.2.1 m.2.2) c) ∧
      (∀ m, Moved z m c → Moved z m (ms.foldl (fun c m => c.moveBlock k m.1 m.2.1 m.2.2) c)) ∧
      ∀ m ∈ ms, Moved z m (ms.foldl (fun c m => c.moveBlock k m.1 m.2.1 m.2.2) c) := by
  induction ms generalizing c with
  | nil => exact ⟨h, fun _ hm => hm, fun _ hm => absurd hm (List.not_mem_nil)⟩
  | cons x xs ih =>
    obtain ⟨hg, hm⟩ := moveBlock_moved k x h
    have hstep : ∀ m, Moved z m c → Moved z m (c.moveBlock k x.1 x.2.1 x.2.2) := fun m hmc =>
      hmc.grooms (moveBlock_moved k x (Grooms.refl c)).1
    obtain ⟨ih₁, ih₂, ih₃⟩ := ih hg
    exact ⟨ih₁, fun m hmc => ih₂ m (hstep m hmc), fun m hmem => (List.mem_cons.mp hmem).elim (fun e => ih₂ m (by rw [e]; exact hm)) (ih₃ m)⟩

theorem groomRows_of_core {z c : Chip} (h : c.heath.core = z.heath.core) : c.groomRows = z.groomRows := by
  have hon : ∀ f r, c.on f r = z.on f r := fun f r => by
    have e := congrArg (fun x : Heath => x.live.fld f r == 1) h
    exact e
  unfold groomRows
  simp only [hon, liveBad_of_core h]

theorem groom_moved (c : Chip) (k : Clock) : Grooms (k.ticks + 1) c (c.groom k) ∧
    ∀ r ∈ c.groomRows, ∀ i < c.lv GROOM.HEIGHT r, ∀ j < c.lv GROOM.WIDTH r, Moved c (r, i, j) (c.groom k) := by
  unfold groom
  extract_lets rows moves
  obtain ⟨h, -, hm⟩ := moves_moved k moves (Grooms.refl (n := k.ticks + 1) c)
  refine ⟨h, fun r hr i hi j hj => hm _ ?_⟩
  exact List.mem_flatMap.mpr ⟨r, hr, List.mem_flatMap.mpr ⟨i, List.mem_range.mpr hi, List.mem_map.mpr ⟨j, List.mem_range.mpr hj, rfl⟩⟩⟩

end Chip

theorem groomingMoves_spec (s : State) (hs : s.serving) (hidx : s.clk.idx ≤ 119999) (hdone : s.chip.done.contains 5 = false)
    (hnext : ∀ g ∈ s.chip.mead.outNext, g.tick = s.clk.ticks + 1) :
    ∃ t, exec .groomingMoves s = .next t ∧ s.Runs t ∧ t.clk.idx = max s.clk.idx 256 ∧ 5 ∈ t.chip.done ∧
      (∀ g ∈ t.chip.mead.outNext, g.tick = s.clk.ticks + 1) ∧
      ∀ r ∈ t.chip.groomRows, ∀ i < s.chip.lv GROOM.HEIGHT r, ∀ j < s.chip.lv GROOM.WIDTH r,
        (s.chip.lv GROOM.DSTDROP r + i, s.chip.lv GROOM.DSTBLK r + j) ∈ t.chip.mead.absentNext ∨
        ∃ g ∈ t.chip.mead.outNext, g.drop = s.chip.lv GROOM.DSTDROP r + i ∧ g.blk = s.chip.lv GROOM.DSTBLK r + j ∧
          g.typ = s.chip.lv GROOM.TYPE r := by
  obtain ⟨u, hruns, hflow, huidx, hwin⟩ := State.inWindow_spec hs (lo := 256) (hi := 119999) (code := 5) (by decide) hidx hdone
    fun k c => c.groom k
  have hexec : exec .groomingMoves s = .next { u with chip := { u.chip.groom u.clk with done := 5 :: u.chip.done } } :=
    congrArg Host.Outcome.next hwin
  have hkeep : Chip.Keeps u.chip (u.chip.groom u.clk) := .groom _ (.refl _)
  obtain ⟨hg, hm⟩ := u.chip.groom_moved u.clk
  have hout : u.chip.mead.outNext = s.chip.mead.outNext := hflow.outNext
  have hlv : ∀ f r, u.chip.lv f r = s.chip.lv f r := Chip.Flow.lv hflow
  obtain ⟨-, hticks, -⟩ := id hruns
  generalize u.chip.groom u.clk = d at hexec hkeep hg hm
  have hrows : d.groomRows = u.chip.groomRows := Chip.groomRows_of_core hg.heath
  refine ⟨_, hexec, hruns.then_keeps (hkeep.withDone _), huidx, List.mem_cons_self .., fun g hmem => ?_, fun r hr i hi j hj => ?_⟩
  · rcases hg.tick g hmem with h | h
    · exact hnext g (by rw [← hout]; exact h)
    · rw [h, hticks]
  · have h := hm r (by rw [← hrows]; exact hr) i (by rw [hlv]; exact hi) j (by rw [hlv]; exact hj)
    unfold Chip.Moved at h
    simp only [hlv] at h
    exact h

/-- Settles O46: the scrubber's row and counts, what a broken lock marks, and every block of a rectangle moved or named as absent. -/
theorem meadowCommands : Obligations.MeadowCommands :=
  ⟨fun b w n s hs hclean => scrubberRead_spec b w n s hs hclean,
    fun m g s hs => ⟨fun hen hp => lockBreak_spec m g s hs hen hp, fun h => lockBreak_none m g s h⟩,
    fun m wr s hs => defaultTargetAccess_spec m wr s hs,
    fun s hs hidx hdone hnext => groomingMoves_spec s hs hidx hdone hnext⟩

end Sys2Proof.Machine
end

section
/-! PROOFS. The audio exchange and the slave sides (R278 to R283). -/

namespace Sys2Proof.Machine
open Sys2Proof

namespace Chip

/-! ### Sides of the audio ports -/

theorem side_onSide (c : Chip) {p : Nat} (hp : p < 8) (rx : Bool) (f : ASide → ASide) : (c.onSide p rx f).side p rx = f (c.side p rx) := by
  cases rx
  · exact vget_vupd_same c.aud.tx p f {} hp
  · exact vget_vupd_same c.aud.rx p f {} hp
theorem side_onSide_other (c : Chip) {p q : Nat} {rx rx' : Bool} (f : ASide → ASide) (h : q ≠ p ∨ rx' = !rx) :
    (c.onSide p rx f).side q rx' = c.side q rx' := by
  cases rx <;> cases rx'
  · exact vget_vupd_other c.aud.tx p q f {} (h.resolve_right (by decide))
  · rfl
  · rfl
  · exact vget_vupd_other c.aud.rx p q f {} (h.resolve_right (by decide))
theorem side_of_aud {c d : Chip} (h : c.aud = d.aud) (p : Nat) (rx : Bool) : c.side p rx = d.side p rx := by
  unfold side
  rw [h]

/-- What the frame or the slip of one side leaves of the others. -/
structure OneSide (p : Nat) (rx : Bool) (z c : Chip) : Prop where
  other : ∀ q rx', (q ≠ p ∨ rx' = !rx) → c.side q rx' = z.side q rx'
  wf : z.heath.status.wf = true → c.heath.status.wf = true
  live : c.heath.live = z.heath.live

namespace OneSide
variable {p : Nat} {rx : Bool} {z c : Chip}

theorem refl (z : Chip) : OneSide p rx z z := ⟨fun _ _ _ => rfl, id, rfl⟩
theorem onSide (f : ASide → ASide) (h : OneSide p rx z c) : OneSide p rx z (c.onSide p rx f) :=
  ⟨fun q rx' hq => (side_onSide_other c f hq).trans (h.other q rx' hq), h.wf, h.live⟩
theorem setSt (f : Fld) (r v : Nat) (h : OneSide p rx z c) : OneSide p rx z (c.setSt f r v) :=
  ⟨fun q rx' hq => (side_of_aud (setSt_aud ..) q rx').trans (h.other q rx' hq), fun hw => setSt_wf _ _ _ _ (h.wf hw),
    (((Keeps.refl c).setSt f r v).live).trans h.live⟩
theorem syncSide (h : OneSide p rx z c) : OneSide p rx z (c.syncSide p rx) := by
  unfold Chip.syncSide
  dsimp only
  split
  · exact (h.setSt _ _ _).setSt _ _ _
  · exact (h.setSt _ _ _).setSt _ _ _

end OneSide

theorem syncSide_side (c : Chip) (p : Nat) (rx : Bool) : (c.syncSide p rx).side p rx = c.side p rx := by
  unfold syncSide
  dsimp only
  split <;> exact side_of_aud ((setSt_aud ..).trans (setSt_aud ..)) p rx

/-- A frame start on a side: its store and its run stay, and of a bad one BADFRM counts. -/
structure Started (p : Nat) (rx good : Bool) (z c : Chip) : Prop extends OneSide p rx z c where
  store : (c.side p rx).store = (z.side p rx).store
  run : (c.side p rx).run = (z.side p rx).run
  count : good = false → z.heath.status.wf = true → c.st AUDIO.BADFRM p = wrapAdd AUDIO.BADFRM.width (z.st AUDIO.BADFRM p) 1
  quiet : good = true → ∀ f r, c.st f r = z.st f r

theorem started_of (c : Chip) (k : Clock) {p : Nat} (hp : p < 8) (rx good : Bool) : Started p rx good c (c.sawStart k p rx good) := by
  unfold sawStart
  extract_lets d
  have hone : OneSide p rx c d := (OneSide.refl c).onSide _
  have hstore : (d.side p rx).store = (c.side p rx).store := by unfold d; rw [side_onSide _ hp]
  have hrun : (d.side p rx).run = (c.side p rx).run := by unfold d; rw [side_onSide _ hp]
  have hst : ∀ f r, d.st f r = c.st f r := fun _ _ => rfl
  clear_value d
  cases good with
  | true => exact ⟨hone, hstore, hrun, fun h => absurd h (by decide), fun _ => hst⟩
  | false =>
    have haud := addSt_aud d AUDIO.BADFRM p 1
    have hone' : OneSide p rx c (d.addSt AUDIO.BADFRM p 1) := hone.setSt _ _ _
    refine ⟨hone', ?_, ?_, fun _ hw => ?_, fun h => absurd h (by decide)⟩
    · exact (congrArg ASide.store (side_of_aud haud p rx)).trans hstore
    · exact (congrArg ASide.run (side_of_aud haud p rx)).trans hrun
    · exact (st_addSt_same d _ _ _ (hone.wf hw) (by decide)).trans (by rw [hst]; rfl)

theorem wrapAdd_eq (w a n : Nat) : wrapAdd w a n = (a + n) % 2 ^ w := rfl
theorem slip_eq (c : Chip) (p : Nat) (rx : Bool) (f : Fld) :
    c.slip p rx f 1 = (c.addSt f p 1).onSide p rx fun x => { x with slipNow := true } := by
  unfold slip
  rw [if_neg (by decide)]
theorem onSide_st (c : Chip) (p : Nat) (rx : Bool) (g : ASide → ASide) (f : Fld) (r : Nat) : (c.onSide p rx g).st f r = c.st f r := rfl
theorem slipped_store {c d : Chip} {p : Nat} (hp : p < 8) (rx : Bool) (h : d.aud = c.aud) :
    ((d.onSide p rx fun x => { x with slipNow := true }).side p rx).store = (c.side p rx).store := by
  rw [side_onSide _ hp, side_of_aud h]
/-- A slip of a side leaves its store. -/
theorem slip_store (c : Chip) {p : Nat} (hp : p < 8) (rx : Bool) (f : Fld) : ((c.slip p rx f 1).side p rx).store = (c.side p rx).store := by
  rw [slip_eq]
  exact slipped_store hp rx (addSt_aud c f p 1)
/-- A slip of a side counts. -/
theorem slip_count {c : Chip} (p : Nat) (rx : Bool) {f : Fld} (hf : f.lo + f.width ≤ 32) (hw : c.heath.status.wf = true) :
    (c.slip p rx f 1).st f p = wrapAdd f.width (c.st f p) 1 := by
  rw [slip_eq, onSide_st, st_addSt_same c f p 1 hw hf, wrapAdd_eq]

end Chip

/-! ### A frame of a slave receive side -/

namespace Chip
variable {c : Chip} {p n : Nat}

theorem slaveRx_bad (k : Clock) (f : List Bool) (hon : (c.side p true).on = true) (hs : c.master p true = false) (hn : n ≠ c.frameW p) :
    c.slaveRx k p n f = c.sawStart k p true false := by
  have hg : (n == c.frameW p) = false := beq_eq_false_iff_ne.mpr hn
  unfold slaveRx
  dsimp only
  rw [if_neg (by rw [hon, hs]; decide), hg, if_pos (by decide)]
theorem slaveRx_full (k : Clock) (f : List Bool) (hon : (c.side p true).on = true) (hs : c.master p true = false) (hn : n = c.frameW p)
    (hfull : 32 ≤ (c.side p true).store.length) (hrun : (c.side p true).run = true) :
    c.slaveRx k p n f = (c.sawStart k p true true).slip p true AUDIO.RXOVER 1 := by
  have hg : (n == c.frameW p) = true := beq_iff_eq.mpr hn
  unfold slaveRx
  dsimp only
  rw [if_neg (by rw [hon, hs]; decide), hg, if_neg (by decide), if_pos (show storeDepth ≤ _ from hfull), if_pos hrun]
theorem slaveRx_room (k : Clock) (f : List Bool) (hon : (c.side p true).on = true) (hs : c.master p true = false) (hn : n = c.frameW p)
    (hroom : (c.side p true).store.length < 32) :
    c.slaveRx k p n f = ((c.sawStart k p true true).onSide p true fun x => { x with
      store := x.store ++ [bitsFrame ((c.sawStart k p true true).lv AUDIO.FMT p) ((c.sawStart k p true true).on AUDIO.WLEN p) f] }).syncSide p true := by
  have hg : (n == c.frameW p) = true := beq_iff_eq.mpr hn
  unfold slaveRx
  dsimp only
  rw [if_neg (by rw [hon, hs]; decide), hg, if_neg (by decide), if_neg (show ¬ storeDepth ≤ _ from Nat.not_le.mpr hroom)]

end Chip

theorem slaveRxFrame_exec (p : Fin 8) (n : Nat) (f : List Bool) {s : State} (hs : s.serving) :
    exec (.slaveRxFrame p n f) s = .next { s with chip := s.chip.slaveRx s.clk p.val n f } := congrArg Host.Outcome.next (hs.act _)

/-- A slave receive side that is on. -/
structure State.Hears (s : State) (p : Fin 8) : Prop where
  serving : s.serving
  on : (s.chip.side p.val true).on = true
  slave : s.chip.master p.val true = false

namespace State.Hears
variable {s : State} {p : Fin 8}

theorem kept (h : s.Hears p) {n : Nat} (f : List Bool) (hn : n = s.chip.frameW p.val) (hroom : (s.chip.side p.val true).store.length < 32) :
    ∃ t, exec (.slaveRxFrame p n f) s = .next t ∧ s.Holds t ∧
      (t.chip.side p.val true).store = (s.chip.side p.val true).store ++ [bitsFrame (s.chip.lv AUDIO.FMT p.val) (s.chip.on AUDIO.WLEN p.val) f] ∧
      ∀ q rx, (q ≠ p.val ∨ rx = false) → t.chip.side q rx = s.chip.side q rx := by
  have hexec := slaveRxFrame_exec p n f h.serving
  have hkeep : Chip.Keeps s.chip (s.chip.slaveRx s.clk p.val n f) := .slaveRxFrame _ _ _ _ (.refl _)
  have hst := s.chip.started_of s.clk p.isLt true true
  have heq := Chip.slaveRx_room s.clk f h.on h.slave hn hroom
  generalize s.chip.sawStart s.clk p.val true true = c at hst heq
  have hone := (hst.toOneSide.onSide fun x => { x with
    store := x.store ++ [bitsFrame (c.lv AUDIO.FMT p.val) (c.on AUDIO.WLEN p.val) f] }).syncSide
  refine ⟨_, hexec, ⟨rfl, rfl, hkeep⟩, ?_, fun q rx hq => ?_⟩
  · show ((s.chip.slaveRx s.clk p.val n f).side p.val true).store = _
    have hfmt : c.lv AUDIO.FMT p.val = s.chip.lv AUDIO.FMT p.val := congrArg (fun b : Bank => b.fld AUDIO.FMT p.val) hst.live
    have hlen : c.on AUDIO.WLEN p.val = s.chip.on AUDIO.WLEN p.val := congrArg (fun b : Bank => b.fld AUDIO.WLEN p.val == 1) hst.live
    rw [heq, Chip.syncSide_side, Chip.side_onSide _ p.isLt, hst.store, hfmt, hlen]
  · show (s.chip.slaveRx s.clk p.val n f).side q rx = _
    rw [heq]
    exact hone.other q rx hq
theorem overruns (h : s.Hears p) {n : Nat} (f : List Bool) (hn : n = s.chip.frameW p.val) (hfull : 32 ≤ (s.chip.side p.val true).store.length)
    (hrun : (s.chip.side p.val true).run = true) :
    ∃ t, exec (.slaveRxFrame p n f) s = .next t ∧ s.Holds t ∧ (t.chip.side p.val true).store = (s.chip.side p.val true).store ∧
      t.chip.st AUDIO.RXOVER p.val = wrapAdd AUDIO.RXOVER.width (s.chip.st AUDIO.RXOVER p.val) 1 := by
  have hexec := slaveRxFrame_exec p n f h.serving
  have hkeep : Chip.Keeps s.chip (s.chip.slaveRx s.clk p.val n f) := .slaveRxFrame _ _ _ _ (.refl _)
  have hst := s.chip.started_of s.clk p.isLt true true
  have heq := Chip.slaveRx_full s.clk f h.on h.slave hn hfull hrun
  generalize s.chip.sawStart s.clk p.val true true = c at hst heq
  have hstore := c.slip_store p.isLt true AUDIO.RXOVER
  have hcount := Chip.slip_count (c := c) p.val true (f := AUDIO.RXOVER) (by decide) (hst.wf h.serving.wf)
  rw [← heq] at hstore hcount
  exact ⟨_, hexec, ⟨rfl, rfl, hkeep⟩, hstore.trans hst.store, hcount.trans (by rw [hst.quiet rfl])⟩
theorem bad (h : s.Hears p) {n : Nat} (f : List Bool) (hn : n ≠ s.chip.frameW p.val) :
    ∃ t, exec (.slaveRxFrame p n f) s = .next t ∧ s.Holds t ∧ (t.chip.side p.val true).store = (s.chip.side p.val true).store ∧
      t.chip.st AUDIO.BADFRM p.val = wrapAdd AUDIO.BADFRM.width (s.chip.st AUDIO.BADFRM p.val) 1 := by
  have hexec := slaveRxFrame_exec p n f h.serving
  have hkeep : Chip.Keeps s.chip (s.chip.slaveRx s.clk p.val n f) := .slaveRxFrame _ _ _ _ (.refl _)
  have hst := s.chip.started_of s.clk p.isLt true false
  rw [← Chip.slaveRx_bad s.clk f h.on h.slave hn] at hst
  exact ⟨_, hexec, ⟨rfl, rfl, hkeep⟩, hst.store, hst.count rfl h.serving.wf⟩

end State.Hears

/-! ### A frame start of a slave transmit side -/

theorem slaveTxFrameStart_exec (p : Fin 8) (n : Nat) {s : State} (hs : s.serving) :
    exec (.slaveTxFrameStart p n) s = .next { s with chip := s.chip.slaveTx s.clk p.val n } := congrArg Host.Outcome.next (hs.act _)

/-- A last frame of a transmit side ends. -/
def Chip.endTail (c : Chip) (p : Nat) : Chip := c.onSide p false fun x => { x with tail := false }

/-- A slave transmit side that runs. -/
structure State.Speaks (s : State) (p : Fin 8) (n : Nat) : Prop where
  serving : s.serving
  en : s.chip.sideEn p.val false = true
  slave : s.chip.master p.val false = false
  run : (s.chip.side p.val false).run = true
  frame : n = s.chip.frameW p.val

namespace State.Speaks
variable {s : State} {p : Fin 8} {n : Nat}

theorem tail_side (p : Fin 8) (c : Chip) : (c.endTail p.val).side p.val false = { c.side p.val false with tail := false } :=
  Chip.side_onSide c p.isLt false _

theorem tx_eq (h : s.Speaks p n) : s.chip.slaveTx s.clk p.val n =
    match (s.chip.side p.val false).store with
    | [] => ((s.chip.endTail p.val).sawStart s.clk p.val false true).slip p.val false AUDIO.TXUNDER 1
    | f :: r => (((s.chip.endTail p.val).sawStart s.clk p.val false true).onSide p.val false fun x =>
        { x with store := r, last := f }).syncSide p.val false := by
  have hside := tail_side p s.chip
  have hst := (s.chip.endTail p.val).started_of s.clk p.isLt false true
  unfold Chip.slaveTx
  extract_lets d x good e f
  have hd : d = s.chip.endTail p.val := rfl
  have hgood : good = true := beq_iff_eq.mpr h.frame
  have hen : d.sideEn p.val false = true := h.en
  have hslave : d.master p.val false = false := h.slave
  have hx : x = { s.chip.side p.val false with tail := false } := hside
  have hxrun : x.run = true := by rw [hx]; exact h.run
  have hxstore : x.store = (s.chip.side p.val false).store := by rw [hx]
  have he : e = (s.chip.endTail p.val).sawStart s.clk p.val false true := by
    unfold e
    rw [hgood, hd]
  have hf : f = e := if_neg (by rw [hxrun]; simp)
  have hrun : (f.side p.val false).run = true := by rw [hf, he, hst.run, hside]; exact h.run
  clear_value d x good e f
  rw [if_neg (by rw [hen, hslave]; decide), hgood, if_neg (by rw [hrun]; simp), hxstore, hf, he] <;> rfl

theorem takes (h : s.Speaks p n) (f : List Nat) (l : List (List Nat)) (hs : (s.chip.side p.val false).store = f :: l) :
    ∃ t, exec (.slaveTxFrameStart p n) s = .next t ∧ s.Holds t ∧ (t.chip.side p.val false).store = l ∧
      (t.chip.side p.val false).last = f ∧ ∀ q rx, (q ≠ p.val ∨ rx = true) → t.chip.side q rx = s.chip.side q rx := by
  have hexec := slaveTxFrameStart_exec p n h.serving
  have hkeep : Chip.Keeps s.chip (s.chip.slaveTx s.clk p.val n) := .slaveTx _ _ _ (.refl _)
  have hst := (s.chip.endTail p.val).started_of s.clk p.isLt false true
  have htail : Chip.OneSide p.val false s.chip (s.chip.endTail p.val) := (Chip.OneSide.refl _).onSide _
  have heq := h.tx_eq
  rw [hs] at heq
  dsimp only at heq
  generalize (s.chip.endTail p.val).sawStart s.clk p.val false true = c at hst heq
  have hone := ((Chip.OneSide.refl c).onSide (p := p.val) (rx := false) fun x => { x with store := l, last := f }).syncSide
  have hside : (s.chip.slaveTx s.clk p.val n).side p.val false = { c.side p.val false with store := l, last := f } := by
    rw [heq, Chip.syncSide_side, Chip.side_onSide _ p.isLt]
  refine ⟨_, hexec, ⟨rfl, rfl, hkeep⟩, congrArg ASide.store hside, congrArg ASide.last hside, fun q rx hq => ?_⟩
  show (s.chip.slaveTx s.clk p.val n).side q rx = _
  rw [heq, hone.other q rx hq, hst.other q rx hq, htail.other q rx hq]
theorem under (h : s.Speaks p n) (hs : (s.chip.side p.val false).store = []) :
    ∃ t, exec (.slaveTxFrameStart p n) s = .next t ∧ s.Holds t ∧ (t.chip.side p.val false).store = [] ∧
      t.chip.st AUDIO.TXUNDER p.val = wrapAdd AUDIO.TXUNDER.width (s.chip.st AUDIO.TXUNDER p.val) 1 := by
  have hexec := slaveTxFrameStart_exec p n h.serving
  have hkeep : Chip.Keeps s.chip (s.chip.slaveTx s.clk p.val n) := .slaveTx _ _ _ (.refl _)
  have hst := (s.chip.endTail p.val).started_of s.clk p.isLt false true
  have hw : (s.chip.endTail p.val).heath.status.wf = true := h.serving.wf
  have hdstore : ((s.chip.endTail p.val).side p.val false).store = [] := (congrArg ASide.store (tail_side p s.chip)).trans hs
  have hdst : (s.chip.endTail p.val).st AUDIO.TXUNDER p.val = s.chip.st AUDIO.TXUNDER p.val := rfl
  have heq := h.tx_eq
  rw [hs] at heq
  dsimp only at heq
  generalize s.chip.endTail p.val = d at hst heq hw hdstore hdst
  generalize d.sawStart s.clk p.val false true = c at hst heq
  have hstore := c.slip_store p.isLt false AUDIO.TXUNDER
  have hcount := Chip.slip_count (c := c) p.val false (f := AUDIO.TXUNDER) (by decide) (hst.wf hw)
  rw [← heq] at hstore hcount
  exact ⟨_, hexec, ⟨rfl, rfl, hkeep⟩, hstore.trans (hst.store.trans hdstore), hcount.trans (by rw [hst.quiet rfl, hdst])⟩

end State.Speaks

theorem slaveTx_off (p : Fin 8) (n : Nat) (s : State) (hs : s.serving) (h : s.chip.sideEn p.val false = false ∨ s.chip.master p.val false = true) :
    ∃ t, exec (.slaveTxFrameStart p n) s = .next t ∧ s.Holds t ∧ t.chip.side p.val false = { s.chip.side p.val false with tail := false } ∧
      ∀ q rx, (q ≠ p.val ∨ rx = true) → t.chip.side q rx = s.chip.side q rx := by
  have hexec := slaveTxFrameStart_exec p n hs
  have hkeep : Chip.Keeps s.chip (s.chip.slaveTx s.clk p.val n) := .slaveTx _ _ _ (.refl _)
  have heq : s.chip.slaveTx s.clk p.val n = s.chip.endTail p.val := by
    unfold Chip.slaveTx
    refine if_pos ?_
    show (!s.chip.sideEn p.val false || s.chip.master p.val false) = true
    rcases h with h | h <;> rw [h] <;> simp
  rw [heq] at hexec hkeep
  exact ⟨_, hexec, ⟨rfl, rfl, hkeep⟩, State.Speaks.tail_side p s.chip, fun q rx hq => Chip.side_onSide_other _ _ hq⟩

/-! ### The exchange -/

namespace Chip

/-- What the exchange's takings and givings leave: the feeds, the blocks and the live bank. -/
structure Airs (z c : Chip) : Prop where
  feeds : c.aud.feeds = z.aud.feeds
  blocks : c.aud.blocks = z.aud.blocks
  live : c.heath.live = z.heath.live

namespace Airs
variable {z c : Chip}

theorem refl (z : Chip) : Airs z z := ⟨rfl, rfl, rfl⟩
theorem trans {d : Chip} (h : Airs z c) (g : Airs c d) : Airs z d := ⟨g.feeds.trans h.feeds, g.blocks.trans h.blocks, g.live.trans h.live⟩
theorem ite {d : Chip} {p : Prop} [Decidable p] (hc : Airs z c) (hd : Airs z d) : Airs z (if p then c else d) := by
  split <;> assumption
theorem onSide (p : Nat) (rx : Bool) (f : ASide → ASide) (h : Airs z c) : Airs z (c.onSide p rx f) := by
  cases rx <;> exact ⟨h.feeds, h.blocks, h.live⟩
theorem beside {d : Chip} (h : Airs z c) (ha : d.aud = c.aud) (hl : d.heath.live = c.heath.live) : Airs z d :=
  h.trans ⟨congrArg Audio.feeds ha, congrArg Audio.blocks ha, hl⟩
theorem setSt (f : Fld) (r v : Nat) (h : Airs z c) : Airs z (c.setSt f r v) := h.beside (setSt_aud ..) ((Keeps.refl c).setSt f r v).live
theorem addSt (f : Fld) (r n : Nat) (h : Airs z c) : Airs z (c.addSt f r n) := h.beside (addSt_aud ..) ((Keeps.refl c).addSt f r n).live
theorem cause (k : Clock) (g : CauseReg) (r b : Nat) (h : Airs z c) : Airs z (c.cause k g r b) :=
  h.beside (cause_aud ..) (((Keeps.refl c).cause _ _ _ _).live)
theorem syncSide (p : Nat) (rx : Bool) (h : Airs z c) : Airs z (c.syncSide p rx) := by
  unfold Chip.syncSide
  exact .ite ((h.setSt _ _ _).setSt _ _ _) ((h.setSt _ _ _).setSt _ _ _)
theorem slip (p : Nat) (rx : Bool) (f : Fld) (n : Nat) (h : Airs z c) : Airs z (c.slip p rx f n) := by
  unfold Chip.slip
  exact .ite h ((h.addSt _ _ _).onSide _ _ _)
theorem setRun (k : Clock) (p : Nat) (rx b : Bool) (h : Airs z c) : Airs z (c.setRun k p rx b) := by
  unfold Chip.setRun
  extract_lets was d
  have hd : Airs z d := (h.onSide _ _ _).syncSide _ _
  clear_value d
  exact .ite hd (hd.cause _ _ _ _)
theorem foldl {α : Type} (l : List α) {f : Chip → α → Chip} (h : Airs z c) (hf : ∀ a x, Airs z a → Airs z (f a x)) : Airs z (l.foldl f c) := by
  induction l generalizing c with
  | nil => exact h
  | cons x xs ih => exact ih (hf _ _ h)

theorem exchangeTake (k : Clock) (p : Nat) (pin : List Bool) (h : Airs z c) : Airs z (c.exchangeTake k p pin).2 := by
  unfold Chip.exchangeTake
  extract_lets x zero fs n d
  have hd : Airs z d := .ite (h.setRun _ _ _ _) h
  clear_value d
  split
  · exact h.onSide _ _ _
  · split
    · exact h
    · split
      · split
        · exact (h.onSide _ _ _).setRun _ _ _ _
        · exact h
      · split
        · exact (((hd.onSide p true _).slip p true AUDIO.RXUNDER _).syncSide p true)
        · exact hd

theorem slotSamples (p drop chan echo : Nat) (h : Airs z c) : Airs z (c.slotSamples p drop chan echo).2 := by
  unfold Chip.slotSamples
  extract_lets fs n
  split
  · exact h
  · split
    · exact h.addSt _ _ _
    · split
      · exact h
      · split
        · exact h.addSt _ _ _
        · exact h
/-- A fold that carries the chip beside what it gathers. -/
theorem foldPair {α γ : Type} (l : List α) {f : γ × Chip → α → γ × Chip} (hf : ∀ g a x, Airs z a → Airs z (f (g, a) x).2) {g : γ} (h : Airs z c) :
    Airs z (l.foldl f (g, c)).2 := by
  induction l generalizing c g with
  | nil => exact h
  | cons x xs ih =>
    have hx := hf g c x h
    rw [List.foldl_cons]
    generalize f (g, c) x = p at hx ⊢
    obtain ⟨g', c'⟩ := p
    exact ih hx
theorem exchangeGive (p echo : Nat) (h : Airs z c) : Airs z (c.exchangeGive p echo) := by
  unfold Chip.exchangeGive
  extract_lets x n slots rts
  refine .ite h ?_
  generalize he : List.foldl (fun (acc : List (List Nat) × Chip) s => _) _ _ = e
  have hpair : Airs z e.2 := by
    rw [← he]
    refine foldPair _ (fun cols a s ha => ?_) h
    dsimp only
    split
    · split
      · exact ha.slotSamples _ _ _ _
      · exact ha
    · exact ha
  obtain ⟨cols, d⟩ := e
  exact hpair.foldl _ fun a i ha => .ite (.ite (ha.slip _ _ _ _) ha) ((ha.onSide _ _ _).syncSide _ _)
theorem setAudDef (k : Clock) {p : Nat} (hp : p < 8) (new : Nat) (h : Airs z c) : Airs z (c.setAudDef k p new) := by
  unfold Chip.setAudDef
  extract_lets was
  have hset : Airs z (c.setSt AUDIO.DEF p new) := h.setSt _ _ _
  have hcause : Airs z ((c.setSt AUDIO.DEF p new).causeIf k .audio p (changed was new)) := by
    unfold Chip.causeIf
    exact .ite hset (hset.cause _ _ _ _)
  generalize (c.setSt AUDIO.DEF p new).causeIf k .audio p (changed was new) = d at hcause ⊢
  have hcalm : Calm d (d.setCond k (160 + p) (new != 0)) := .setCond k _ _ (by omega) (.refl d)
  have hcore := hcalm.aud
  exact hcause.trans ⟨by have e := congrArg Audio.feeds hcore; exact e, by have e := congrArg Audio.blocks hcore; exact e,
    by have e := congrArg Heath.live hcalm.heath; exact e⟩
theorem judgeAudio (k : Clock) {p : Nat} (hp : p < 8) (h : Airs z c) : Airs z (c.judgeAudio k p) := by
  unfold Chip.judgeAudio
  extract_lets one
  have hone : ∀ (a : Chip) (n : Nat) (rx : Bool), Airs z a → Airs z (one (a, n) rx).1 := fun a n rx ha => by
    unfold one
    dsimp only
    split
    · exact ha
    · exact .ite ((ha.onSide _ _ _).setRun _ _ _ _) (ha.onSide _ _ _)
  have h₁ := hone c 0 true h
  generalize one (c, 0) true = e₁ at h₁ ⊢
  obtain ⟨a, n⟩ := e₁
  have h₂ := hone a n false h₁
  generalize one (a, n) false = e₂ at h₂ ⊢
  obtain ⟨b, m⟩ := e₂
  exact h₂.setAudDef k hp m

end Airs
/-- The tick that the blocks of the exchange echo (R283). -/
def echoTick (c : Chip) (k : Clock) : Nat := (k.ticks + c.st TWIN.TNOFS 0 + 2 ^ 32 - 2) % 2 ^ 32

theorem buildFeeds_chans (c : Chip) (taken : List (Option (Nat × List (List Nat)))) :
    (c.buildFeeds taken).map (·.chan) = (c.routes 0).map fun n => c.lv AROUTE.CHAN n := by
  unfold buildFeeds
  rw [List.map_map]
  refine List.map_congr_left fun n _ => ?_
  dsimp only [Function.comp]
  split
  · split <;> rfl
  · rfl
theorem routes_of_live {z c : Chip} (h : c.heath.live = z.heath.live) (d : Nat) : c.routes d = z.routes d := by
  unfold routes on lv
  rw [h]

theorem rememberValid_spec (c : Chip) (echo : Nat) : (c.rememberValid echo).aud.feeds = c.aud.feeds ∧
    (c.rememberValid echo).aud.blocks = c.aud.blocks.filter fun b => b.echo != echo := ⟨rfl, rfl⟩

theorem exchange_spec (c : Chip) (k : Clock) (pins : List (List Bool)) :
    (c.exchange k pins).aud.feeds.map (·.chan) = (c.routes 0).map (fun n => c.lv AROUTE.CHAN n) ∧
      ∀ b ∈ (c.exchange k pins).aud.blocks, b ∈ c.aud.blocks ∧ b.echo ≠ c.echoTick k := by
  unfold exchange
  extract_lets echo
  generalize he : List.foldl (fun (acc : List (Option (Nat × List (List Nat))) × Chip) p => _) _ _ = e
  have htake : Airs c e.2 := by
    rw [← he]
    exact Airs.foldPair _ (fun l a p ha => ha.exchangeTake k p _) (.refl c)
  obtain ⟨taken, d⟩ := e
  dsimp only at htake ⊢
  have hfeeds : (d.buildFeeds taken).map (·.chan) = (c.routes 0).map fun n => c.lv AROUTE.CHAN n := by
    rw [buildFeeds_chans, routes_of_live htake.live]
    unfold lv
    rw [htake.live]
  generalize d.buildFeeds taken = feeds at hfeeds ⊢
  obtain ⟨g, hg⟩ : ∃ g : Chip, g = { d with aud := { d.aud with feeds := feeds } } := ⟨_, rfl⟩
  have hgf : g.aud.feeds = feeds := by rw [hg]
  have hgb : g.aud.blocks = c.aud.blocks := by rw [hg]; exact htake.blocks
  rw [← hg]
  have hgive : Airs g (overN 8 (fun p c => c.exchangeGive p echo) g) :=
    overN_keeps (Airs g) 8 _ (fun p a ha => ha.exchangeGive p echo) g (.refl g)
  generalize overN 8 (fun p c => c.exchangeGive p echo) g = m at hgive ⊢
  obtain ⟨hrf, hrb⟩ := m.rememberValid_spec echo
  generalize m.rememberValid echo = n at hrf hrb ⊢
  have hjudge : Airs n (overN 8 (fun p c => c.judgeAudio k p) n) :=
    (overN_each (P := fun _ _ => True) (Airs n) (.refl n) (fun p hp a ha => ha.judgeAudio k hp) (fun _ _ _ _ => trivial)
      fun _ _ _ _ _ _ => trivial).1
  generalize overN 8 (fun p c => c.judgeAudio k p) n = r at hjudge ⊢
  refine ⟨?_, fun b hb => ?_⟩
  · rw [hjudge.feeds, hrf, hgive.feeds, hgf, hfeeds]
  · rw [hjudge.blocks, hrb, hgive.blocks, hgb] at hb
    obtain ⟨hmem, hne⟩ := List.mem_filter.mp hb
    exact ⟨hmem, bne_iff_ne.mp hne⟩

end Chip

theorem audioExchange_spec (pins : List (List Bool)) (s : State) (hs : s.serving) (hlo : 1 ≤ s.clk.idx) (hhi : s.clk.idx ≤ 1023)
    (hdone : s.chip.done.contains 9 = false) :
    ∃ t, exec (.audioExchange pins) s = .next t ∧ s.Holds t ∧ 9 ∈ t.chip.done ∧
      t.chip.aud.feeds.map (·.chan) = (s.chip.routes 0).map (fun n => s.chip.lv AROUTE.CHAN n) ∧
      ∀ b ∈ t.chip.aud.blocks, b ∈ s.chip.aud.blocks ∧ b.echo ≠ (s.clk.ticks + s.chip.st TWIN.TNOFS 0 + 2 ^ 32 - 2) % 2 ^ 32 := by
  have hexec : exec (.audioExchange pins) s = .next { s with chip := { s.chip.exchange s.clk pins with done := 9 :: s.chip.done } } := by
    refine congrArg Host.Outcome.next ?_
    unfold State.inWindow
    rw [if_neg (by omega), State.actAt_running _ _ _ hs.1, State.toIdx_self _ _ hlo]
    dsimp only
    rw [hdone, if_neg Bool.false_ne_true]
  have hkeep : Chip.Keeps s.chip (s.chip.exchange s.clk pins) := .exchange _ _ (.refl _)
  obtain ⟨hfeeds, hblocks⟩ := s.chip.exchange_spec s.clk pins
  generalize s.chip.exchange s.clk pins = d at hexec hkeep hfeeds hblocks
  exact ⟨_, hexec, ⟨rfl, rfl, hkeep.withDone _⟩, List.mem_cons_self .., hfeeds, hblocks⟩

/-- Settles O48: the exchange's feeds and blocks, and the frames that slave sides keep, take or count. -/
theorem audioCommands : Obligations.AudioCommands :=
  ⟨fun pins s hs hlo hhi hdone => audioExchange_spec pins s hs hlo hhi hdone,
    fun p n f s hs hon hslave =>
      have h : s.Hears p := ⟨hs, hon, hslave⟩
      ⟨h.kept f, h.overruns f, h.bad f⟩,
    fun p n s hs hen hslave hrun hn =>
      have h : s.Speaks p n := ⟨hs, hen, hslave, hrun, hn⟩
      ⟨h.takes, h.under⟩,
    fun p n f s => ⟨fun h => congrArg Host.Outcome.next (State.act_same (if_pos (by rcases h with h | h <;> rw [h] <;> simp))),
      slaveTx_off p n s⟩⟩

end Sys2Proof.Machine
end

section
/-! PROOFS. What the operations on one drop leave of it and of its status words (chapters 7 and 8). -/

namespace Sys2Proof.Machine
open Sys2Proof

/-- A status field of the drops' tables. -/
def Fld.dropWord (f : Fld) : Bool := f.steady && (f.tab == 0x21 || f.tab == 0x22)
/-- A write of `g` leaves the fields of `F`. -/
def leaves (F : List Fld) (g : Fld) : Bool := g.fits && F.all fun f => f.tab != g.tab || f.apart g
/-- The words that `F` names. -/
def dropWords (F : List Fld) (f : Fld) (q : Nat) : Prop := f ∈ F ∧ q < 4096

theorem dropWord_iff {f : Fld} : f.dropWord = true ↔ f.steady = true ∧ (f.tab = 0x21 ∨ f.tab = 0x22) := by
  simp [Fld.dropWord, Bool.and_eq_true]

/-- The drop in port state `ps`. -/
def Drop.inState (ps : PState) (x : Drop) : Drop :=
  { x with ps := ps, age := 0, train := if Chip.huntMode x.ps = Chip.huntMode ps then x.train else Chip.Training.fresh x.train }

namespace Chip

theorem clears_of_leaves {F : List Fld} {g : Fld} {r : Nat} (hF : F.all Fld.dropWord = true) (hg : leaves F g = true) (hr : r < 4096) :
    Clears (dropWords F) g r := by
  simp only [leaves, Bool.and_eq_true, List.all_eq_true, Bool.or_eq_true, bne_iff_ne] at hg
  obtain ⟨hfit, hall⟩ := hg
  refine ⟨hfit, fun f q ⟨hf, hq⟩ => ?_⟩
  have hff : f.fits = true := Calm.steady_fits (dropWord_iff.mp (List.all_eq_true.mp hF f hf)).1
  exact ⟨hff, (hall f hf).elim (fun ht => .inr (Fld.addr_ne_of_tab hff hfit hq hr ht)) .inl⟩

/-- From `z` to `c` what `m` shows of drop `d` stays, and so do the live bank and the status words that `F` names. -/
structure Guards {β : Type} (F : List Fld) (d : Nat) (m : Drop → β) (z c : Chip) : Prop extends Reads (dropWords F) z c where
  own : m (c.d d) = m (z.d d)
  live : c.heath.live = z.heath.live

namespace Guards
variable {β : Type} {F : List Fld} {d : Nat} {m : Drop → β} {z c : Chip}

theorem refl (z : Chip) : Guards F d m z z := { Reads.refl z with own := rfl, live := rfl }
theorem trans {a : Chip} (h : Guards F d m z c) (g : Guards F d m c a) : Guards F d m z a :=
  { h.toReads.trans g.toReads with own := g.own.trans h.own, live := g.live.trans h.live }
theorem ite {a b : Chip} {p : Prop} [Decidable p] (ha : Guards F d m z a) (hb : Guards F d m z b) : Guards F d m z (if p then a else b) := by
  split <;> assumption
theorem foldl {α : Type} (l : List α) {f : Chip → α → Chip} (h : Guards F d m z c) (hf : ∀ a x, Guards F d m z a → Guards F d m z (f a x)) :
    Guards F d m z (l.foldl f c) := by
  induction l generalizing c with
  | nil => exact h
  | cons x r ih => exact ih (hf c x h)
theorem overN (n : Nat) {f : Nat → Chip → Chip} (h : Guards F d m z c) (hf : ∀ i a, Guards F d m z a → Guards F d m z (f i a)) :
    Guards F d m z (Machine.overN n f c) := foldl _ h fun a x => hf x a
/-- A status word reads as before. -/
theorem st_eq (h : Guards F d m z c) (hw : z.heath.status.wf = true) {f : Fld} (hf : F.contains f = true) {r : Nat} (hr : r < 4096) :
    c.st f r = z.st f r := h.stat hw f r ⟨List.contains_iff_mem.mp hf, hr⟩
theorem lv_eq (h : Guards F d m z c) (f : Fld) (r : Nat) : c.lv f r = z.lv f r := by
  unfold lv
  rw [h.live]

/-! ### One rule for each operation on the state -/

/-- A change beside the heath and the drops. -/
theorem beside {a : Chip} (h : Guards F d m z c) (hh : a.heath = c.heath) (hd : a.drop = c.drop) : Guards F d m z a :=
  h.trans { (Reads.refl c).beside (congrArg Heath.status hh) with
    own := congrArg (fun v => m (vget v d ({} : Drop))) hd, live := congrArg Heath.live hh }
theorem onD {f : Drop → Drop} (hf : ∀ x, m (f x) = m x) (h : Guards F d m z c) : Guards F d m z (c.onD d f) := by
  refine h.trans { (Reads.refl c).beside rfl with own := ?_, live := rfl }
  by_cases hd : d < 96
  · rw [d_onD_same _ _ _ hd, hf]
  · exact congrArg m (vupd_out _ _ _ _ _ (by omega))
theorem setSt (hF : F.all Fld.dropWord = true) {g : Fld} {r : Nat} (v : Nat) (hg : leaves F g = true) (hr : r < 4096) (h : Guards F d m z c) :
    Guards F d m z (c.setSt g r v) :=
  h.trans { (Reads.refl c).setSt v (clears_of_leaves hF hg hr) with
    own := congrArg (fun v => m (vget v d ({} : Drop))) (setSt_drop c g r v), live := ((Keeps.refl c).setSt g r v).live }
theorem addSt (hF : F.all Fld.dropWord = true) {g : Fld} {r : Nat} (n : Nat) (hg : leaves F g = true) (hr : r < 4096) (h : Guards F d m z c) :
    Guards F d m z (c.addSt g r n) := by
  unfold Chip.addSt
  exact h.setSt hF _ hg hr
theorem cause (hF : F.all Fld.dropWord = true) (k : Clock) {g : CauseReg} {r : Nat} (bits : Nat) (hg : leaves F g.cause = true) (hr : r < 4096)
    (h : Guards F d m z c) : Guards F d m z (c.cause k g r bits) :=
  h.trans { (Reads.refl c).cause k bits (clears_of_leaves hF hg hr) with
    own := congrArg (fun v => m (vget v d ({} : Drop))) (cause_drop c k g r bits), live := ((Keeps.refl c).cause k g r bits).live }
theorem causeIf (hF : F.all Fld.dropWord = true) (k : Clock) {g : CauseReg} {r : Nat} (bits : Nat) (hg : leaves F g.cause = true) (hr : r < 4096)
    (h : Guards F d m z c) : Guards F d m z (c.causeIf k g r bits) := by
  unfold Chip.causeIf
  exact ite h (h.cause hF k bits hg hr)
/-- Events, and what they reach. -/
theorem calm {a : Chip} (hF : F.all Fld.dropWord = true) (h : Guards F d m z c) (g : Calm c a) : Guards F d m z a :=
  h.trans { (Reads.refl c).calm (fun f _ hf => ⟨(dropWord_iff.mp (List.all_eq_true.mp hF f hf.1)).1, hf.2⟩) g with
    own := congrArg (fun v => m (vget v d ({} : Drop))) g.drop, live := g.live }
/-- The fields of another table. -/
theorem leaves_other {g : Fld} (hF : F.all Fld.dropWord = true) (hfit : g.fits = true) (h1 : g.tab ≠ 0x21) (h2 : g.tab ≠ 0x22) : leaves F g = true := by
  simp only [leaves, Bool.and_eq_true, List.all_eq_true, Bool.or_eq_true, bne_iff_ne]
  refine ⟨hfit, fun f hf => .inl fun e => ?_⟩
  rcases (dropWord_iff.mp (List.all_eq_true.mp hF f hf)).2 with h | h <;> omega

/-! ### Queues and items -/

theorem qReturn (hF : F.all Fld.dropWord = true) (k : Clock) (i : Nat) (h : Guards F d m z c) : Guards F d m z (c.qReturn k i) := by
  by_cases hi : i < 12
  · exact h.calm hF (.qReturn k i (by omega) (.refl c))
  · have hq : c.q i = {} := by
      unfold q vget
      rw [Vector.getElem?_eq_none (by omega)]
      rfl
    rw [Chip.qReturn, hq]
    exact h
theorem qReg_leaves (hF : F.all Fld.dropWord = true) (i : Nat) : leaves F (qReg i).cause = true := by
  unfold qReg
  split <;> exact leaves_other hF rfl (by decide) (by decide)
theorem qDropped (hF : F.all Fld.dropWord = true) (k : Clock) {i : Nat} (hi : i < 4096) (h : Guards F d m z c) : Guards F d m z (c.qDropped k i) := by
  unfold Chip.qDropped
  exact .cause hF k _ (qReg_leaves hF i) hi (.beside (.addSt hF 1 (leaves_other hF rfl (by decide) (by decide)) hi h) rfl rfl)
theorem qRewind (hF : F.all Fld.dropWord = true) (k : Clock) {i : Nat} (kind unit : Nat) (hi : i < 4096) (h : Guards F d m z c) :
    Guards F d m z (c.qRewind k i kind unit) := by
  unfold Chip.qRewind
  split
  · have hq : Guards F d m z (c.onQ i fun x => (x.close kind unit).setSkip kind unit true) := h.beside rfl rfl
    exact hq.calm hF (.qRewound k i hi (.refl _))
  · exact h
theorem qRecord (hF : F.all Fld.dropWord = true) (k : Clock) {i : Nat} (kind unit : Nat) (bs : List Byte) (e : Nat) (hi : i < 4096)
    (h : Guards F d m z c) : Guards F d m z (c.qRecord k i kind unit bs e).1 := by
  unfold Chip.qRecord
  split
  · exact h
  · split
    · exact h.beside rfl rfl
    · exact h.qDropped hF k hi
theorem failRecord (hF : F.all Fld.dropWord = true) (k : Clock) (flag : Fld) (cause t : Nat) (up : Bool) (cell len : Nat) (stamp : Word) (e : Nat)
    (h : Guards F d m z c) : Guards F d m z (c.failRecord k flag cause t up cell len stamp e) := by
  unfold Chip.failRecord
  split
  next q hq =>
    have : q < 8 := List.mem_range.mp (List.mem_of_find?_eq_some hq)
    exact h.qRecord hF k 6 t _ e (by omega)
  next => exact h
theorem freed {a : Chip} (hF : F.all Fld.dropWord = true) (h : Guards F d m z c) (g : Freed c a) (hl : a.heath.live = c.heath.live) :
    Guards F d m z a :=
  h.trans { wf := g.wf
            stat := fun hw f q ⟨hf, hq⟩ => by
              obtain ⟨hs, ht⟩ := dropWord_iff.mp (List.all_eq_true.mp hF f hf)
              exact g.stat hw f q hs (by omega) hq
            own := congrArg (fun v => m (vget v d ({} : Drop))) g.drop, live := hl }
theorem discardItem (hF : F.all Fld.dropWord = true) (k : Clock) (it : Item) (cause : Nat) (h : Guards F d m z c) :
    Guards F d m z (c.discardItem k it cause) := by
  unfold Chip.discardItem
  have hcount : Guards F d m z (c.countDisc it.trib it.up cause) := h.beside rfl rfl
  have hfree := hcount.freed hF (((Freed.refl _).freeCells k it.up it.cells).retire it cause)
    (((Keeps.refl _).freeCells k it.up it.cells).retire it cause).live
  exact ite (hfree.failRecord hF k _ _ _ _ _ _ _ _) hfree

/-! ### Defects and the slot map's state -/

theorem syncDropSrc (hF : F.all Fld.dropWord = true) (k : Clock) {e : Nat} (he : e < 96) (h : Guards F d m z c) : Guards F d m z (c.syncDropSrc k e) := by
  unfold Chip.syncDropSrc
  exact h.calm hF (.setCond k _ _ (by omega) (.refl c))
theorem setDropDefs (hF : F.all Fld.dropWord = true) (hdef : leaves F DROPSTAT.DEF = true) (hcause : leaves F DROPSTAT.CAUSE = true) (k : Clock) {e : Nat}
    (he : e < 96) (new : Nat) (h : Guards F d m z c) : Guards F d m z (c.setDropDefs k e new) := by
  unfold Chip.setDropDefs
  exact ((h.setSt hF _ hdef (by omega)).causeIf hF k _ hcause (by omega)).syncDropSrc hF k he
theorem syncSlot (hF : F.all Fld.dropWord = true) (hs : [SLOTMAP.INUSE, SLOTMAP.STATE, SLOTMAP.GENLIVE, SLOTMAP.GENNEXT].all (leaves F) = true) {e : Nat}
    (he : e < 96) (h : Guards F d m z c) : Guards F d m z (c.syncSlot e) := by
  simp only [List.all_cons, List.all_nil, Bool.and_true, Bool.and_eq_true] at hs
  obtain ⟨h1, h2, h3, h4⟩ := hs
  unfold Chip.syncSlot
  exact (((h.setSt hF _ h1 (by omega)).setSt hF _ h2 (by omega)).setSt hF _ h3 (by omega)).setSt hF _ h4 (by omega)

end Guards

/-! ### The defects of a drop -/

theorem setDropDefs_drop (c : Chip) (k : Clock) {d : Nat} (hd : d < 96) (new : Nat) : (c.setDropDefs k d new).drop = c.drop := by
  unfold setDropDefs syncDropSrc causeIf
  have hcond : ∀ (a : Chip) b, (a.setCond k (64 + d) b).drop = a.drop := fun a b => (Calm.setCond k (64 + d) b (by omega) (.refl a)).drop
  dsimp only
  rw [hcond]
  split
  · exact setSt_drop ..
  · exact (cause_drop ..).trans (setSt_drop ..)
theorem setDropDefs_wf (c : Chip) (k : Clock) {d : Nat} (hd : d < 96) (new : Nat) (hw : c.heath.status.wf = true) :
    (c.setDropDefs k d new).heath.status.wf = true :=
  (Guards.setDropDefs (F := []) (d := d) (m := id) rfl rfl rfl k hd new (.refl c)).wf hw
/-- The defects read as they were set. -/
theorem setDropDefs_def (c : Chip) (k : Clock) {d : Nat} (hd : d < 96) (new : Nat) (hw : c.heath.status.wf = true) :
    (c.setDropDefs k d new).st DROPSTAT.DEF d = new % 2 ^ 16 := by
  unfold setDropDefs
  have hset : (c.setSt DROPSTAT.DEF d new).st DROPSTAT.DEF d = new % 2 ^ 16 := st_setSt_same c _ _ _ hw (by decide)
  have hg : Guards [DROPSTAT.DEF] d id (c.setSt DROPSTAT.DEF d new)
      (((c.setSt DROPSTAT.DEF d new).causeIf k .drop d (changed (c.st DROPSTAT.DEF d) new)).syncDropSrc k d) :=
    .syncDropSrc rfl k hd (.causeIf rfl k _ rfl (by omega) (.refl _))
  exact (hg.st_eq (setSt_wf _ _ _ _ hw) rfl (by omega)).trans hset
theorem dropDef_setDropDefs (c : Chip) (k : Clock) {d : Nat} (hd : d < 96) (new : Nat) (hw : c.heath.status.wf = true) {n : Nat} (hn : n < 16) :
    (c.setDropDefs k d new).dropDef d n = has new n := by
  unfold dropDef has
  rw [setDropDefs_def c k hd new hw, Nat.testBit_mod_two_pow]
  simp [hn]
theorem dropDef_setDropDef (c : Chip) (k : Clock) {d : Nat} (hd : d < 96) (n : Nat) (b : Bool) (hw : c.heath.status.wf = true) {i : Nat} (hi : i < 16) :
    (c.setDropDef k d n b).dropDef d i = if i = n then b else c.dropDef d i := by
  unfold setDropDef
  rw [dropDef_setDropDefs c k hd _ hw hi, has_setBit]
  rfl

/-! ### A change of port state -/

theorem setPs_eq (c : Chip) (k : Clock) (d : Nat) (ps : PState) : ∃ v, c.setPs k d ps =
    (((c.onD d (Drop.inState ps)).setSt DROPSTAT.PSTATE d ps.code).setSt DROPSTAT.RUNMODE d v).syncDropSrc k d := ⟨_, rfl⟩
theorem setPs_d (c : Chip) (k : Clock) {d : Nat} (hd : d < 96) (ps : PState) : (c.setPs k d ps).d d = (c.d d).inState ps := by
  obtain ⟨v, hv⟩ := setPs_eq c k d ps
  have hg : Guards [] d id (c.onD d (Drop.inState ps)) (c.setPs k d ps) := by
    rw [hv]
    exact .syncDropSrc rfl k hd (.setSt rfl _ rfl (by omega) (.setSt rfl _ rfl (by omega) (.refl _)))
  exact hg.own.trans (d_onD_same _ _ _ hd)
theorem Guards.setPs {β : Type} {F : List Fld} {d : Nat} {m : Drop → β} {z c : Chip} (hF : F.all Fld.dropWord = true)
    (hps : leaves F DROPSTAT.PSTATE = true) (hrun : leaves F DROPSTAT.RUNMODE = true) (k : Clock) (hd : d < 96) (ps : PState)
    (hm : ∀ x : Drop, m (x.inState ps) = m x) (h : Guards F d m z c) : Guards F d m z (c.setPs k d ps) := by
  obtain ⟨v, hv⟩ := setPs_eq c k d ps
  rw [hv]
  exact .syncDropSrc hF k hd (.setSt hF _ hrun (by omega) (.setSt hF _ hps (by omega) (h.onD hm)))
theorem setPs_pstate (c : Chip) (k : Clock) {d : Nat} (hd : d < 96) (ps : PState) (hw : c.heath.status.wf = true) :
    (c.setPs k d ps).st DROPSTAT.PSTATE d = ps.code := by
  obtain ⟨v, hv⟩ := setPs_eq c k d ps
  have hset : ((c.onD d (Drop.inState ps)).setSt DROPSTAT.PSTATE d ps.code).st DROPSTAT.PSTATE d = ps.code % 2 ^ 4 :=
    st_setSt_same _ _ _ _ hw (by decide)
  have hg : Guards [DROPSTAT.PSTATE] d (fun _ => ()) ((c.onD d (Drop.inState ps)).setSt DROPSTAT.PSTATE d ps.code) (c.setPs k d ps) := by
    rw [hv]
    exact .syncDropSrc rfl k hd (.setSt rfl _ rfl (by omega) (.refl _))
  rw [hg.st_eq (setSt_wf _ _ _ _ hw) rfl (by omega), hset]
  cases ps <;> rfl

end Chip
end Sys2Proof.Machine
end

section
/-! PROOFS. The steps of a training attempt (R204 to R209). -/

namespace Sys2Proof.Machine
open Sys2Proof Chip

/-- What a command does to one drop. -/
theorem State.onlyDrop_of_flow {s : State} {c : Chip} {d : Nat} (h : Chip.Flow (· = d) s.chip c) : s.OnlyDrop { s with chip := c } d :=
  ⟨⟨rfl, rfl, h.toKeeps⟩, fun e he => h.drops e he⟩

/-! ### Words with errored bits -/

theorem beField_lt (bs : List Byte) (lo hi : Nat) : beField bs lo hi < 256 ^ (hi + 1 - lo) := by
  have hfold : ∀ (l : List Byte) (a n : Nat), a < 256 ^ n → l.foldl (fun a b => a * 256 + b.toNat) a < 256 ^ (n + l.length) := by
    intro l
    induction l with
    | nil => exact fun a n h => h
    | cons b r ih =>
      intro a n h
      have hb := b.isLt
      have := ih (a * 256 + b.toNat) (n + 1) (by rw [pow_succ]; omega)
      rw [List.length_cons, show n + (r.length + 1) = n + 1 + r.length by omega]
      exact this
  unfold beField beVal
  refine (hfold _ 0 0 (by decide)).trans_le (Nat.pow_le_pow_right (by decide) ?_)
  rw [Nat.zero_add, List.length_take]
  omega
theorem ones_xor_eq_zero {n a b : Nat} (ha : a < 2 ^ n) (hb : b < 2 ^ n) : ones n (a ^^^ b) = 0 ↔ a = b := by
  unfold ones bitsIn
  rw [List.length_eq_zero_iff, List.filter_eq_nil_iff]
  constructor
  · intro h
    refine Nat.eq_of_testBit_eq fun i => ?_
    by_cases hi : i < n
    · have := h i (List.mem_range.mpr hi)
      rw [Nat.testBit_xor] at this
      simpa using this
    · have hp : 2 ^ n ≤ 2 ^ i := Nat.pow_le_pow_right (by decide) (by omega)
      rw [Nat.testBit_lt_two_pow (ha.trans_le hp), Nat.testBit_lt_two_pow (hb.trans_le hp)]
  · rintro rfl i -
    simp
/-- A word without errored bits. -/
theorem ones_word {bs : List Byte} {w : Nat} (hw : w < 2 ^ 64) : ones 64 (beField bs 0 7 ^^^ w) = 0 ↔ beField bs 0 7 = w :=
  ones_xor_eq_zero (beField_lt bs 0 7) hw
theorem beField_append {w m : List Byte} {hi : Nat} (h : w.length = hi + 1) : beField (w ++ m) 0 hi = beField w 0 hi := by
  unfold beField
  rw [List.drop_zero, List.drop_zero, Nat.sub_zero, ← h, List.take_left, List.take_length]
theorem byteAt_lt (bs : List Byte) (i : Nat) : byteAt bs i < 256 := by
  unfold byteAt
  cases bs[i]? with
  | none => decide
  | some b => exact b.isLt

/-! ### Steps on a boundary -/

theorem silentEnd_spec (d : Fin 96) (n : Byte) (s : State) (hs : s.serving) (hsh : s.chip.shaded = false) (hi : s.clk.idx = 0)
    (hps : (s.chip.d d.val).ps = .silent) (hage : 8 ≤ (s.chip.d d.val).age) :
    ∃ t, exec (.silentEnd d n) s = .next t ∧ s.OnlyDrop t d.val ∧ (t.chip.d d.val).ps = (if copper d.val then .quietec else .call) ∧
      (t.chip.d d.val).age = 0 ∧ t.chip.st DROPSTAT.NOISE d.val = n.toNat ∧ t.chip.st DROPSTAT.PSTATE d.val = (if copper d.val then 2 else 3) := by
  have hwf := hs.wf
  have hd := d.isLt
  obtain ⟨ps, hpse⟩ : ∃ ps : PState, ps = if copper d.val then .quietec else .call := ⟨_, rfl⟩
  have hexec : exec (.silentEnd d n) s = .next { s with chip := (s.chip.setSt DROPSTAT.NOISE d.val n.toNat).setPs s.clk d.val ps } := by
    refine congrArg Host.Outcome.next ((hs.actBoundary _ hi).trans ?_)
    rw [if_pos (by simp [hsh, hps, hage]), hpse]
  have hflow : Chip.Flow (· = d.val) s.chip ((s.chip.setSt DROPSTAT.NOISE d.val n.toNat).setPs s.clk d.val ps) :=
    .setPs _ _ _ rfl hd (.setSt _ _ _ rfl (by omega) (.refl _))
  have hnoise : (s.chip.setSt DROPSTAT.NOISE d.val n.toNat).st DROPSTAT.NOISE d.val = n.toNat % 2 ^ 8 := st_setSt_same _ _ _ _ hwf (by decide)
  have hw : (s.chip.setSt DROPSTAT.NOISE d.val n.toNat).heath.status.wf = true := setSt_wf _ _ _ _ hwf
  generalize s.chip.setSt DROPSTAT.NOISE d.val n.toNat = c at hexec hflow hnoise hw
  have hg : Guards [DROPSTAT.NOISE] d.val (fun _ => ()) c (c.setPs s.clk d.val ps) := .setPs rfl rfl rfl _ hd _ (fun _ => rfl) (.refl _)
  have hd' := c.setPs_d s.clk hd ps
  refine ⟨_, hexec, State.onlyDrop_of_flow hflow, ?_, ?_, ?_, ?_⟩
  · exact (congrArg Drop.ps hd').trans hpse
  · exact congrArg Drop.age hd'
  · rw [hg.st_eq hw rfl (by omega), hnoise, Nat.mod_eq_of_lt n.isLt]
  · rw [c.setPs_pstate s.clk hd ps hw, hpse]
    split <;> rfl

/-- A step that is a change of port state and nothing else. -/
theorem State.toPs {s : State} (hs : s.serving) {d : Nat} (hd : d < 96) (ps : PState) (hh : huntMode (s.chip.d d).ps ≠ huntMode ps) :
    s.OnlyDrop { s with chip := s.chip.setPs s.clk d ps } d ∧ (s.chip.setPs s.clk d ps).d d =
        { s.chip.d d with ps := ps, age := 0, train := Training.fresh (s.chip.d d).train } ∧
      (s.chip.setPs s.clk d ps).st DROPSTAT.PSTATE d = ps.code := by
  refine ⟨State.onlyDrop_of_flow (.setPs _ _ _ rfl hd (.refl _)), ?_, s.chip.setPs_pstate _ hd ps hs.wf⟩
  rw [s.chip.setPs_d _ hd, Drop.inState, if_neg hh]

theorem quietecEnd_spec (d : Fin 96) (s : State) (hs : s.serving) (hsh : s.chip.shaded = false) (hi : s.clk.idx = 0)
    (hps : (s.chip.d d.val).ps = .quietec) (hage : 16 ≤ (s.chip.d d.val).age) :
    ∃ t, exec (.quietecEnd d) s = .next t ∧ s.OnlyDrop t d.val ∧
      t.chip.d d.val = { s.chip.d d.val with ps := .call, age := 0, train := Training.fresh (s.chip.d d.val).train } ∧
      t.chip.st DROPSTAT.PSTATE d.val = 3 := by
  obtain ⟨honly, hdrop, hst⟩ := State.toPs hs d.isLt .call (by rw [hps]; decide)
  exact ⟨_, congrArg Host.Outcome.next ((hs.actBoundary _ hi).trans (by rw [if_pos (by simp [hsh, hps, hage])])), honly, hdrop, hst⟩
theorem prepEnd_spec (d : Fin 96) (s : State) (hs : s.serving) (hsh : s.chip.shaded = false) (hi : s.clk.idx = 0)
    (hps : (s.chip.d d.val).ps = .prep) (hage : 4 ≤ (s.chip.d d.val).age) :
    ∃ t, exec (.prepEnd d) s = .next t ∧ s.OnlyDrop t d.val ∧
      t.chip.d d.val = { s.chip.d d.val with ps := .probe, age := 0, train := Training.fresh (s.chip.d d.val).train } ∧
      t.chip.st DROPSTAT.PSTATE d.val = 5 := by
  obtain ⟨honly, hdrop, hst⟩ := State.toPs hs d.isLt .probe (by rw [hps]; decide)
  exact ⟨_, congrArg Host.Outcome.next ((hs.actBoundary _ hi).trans (by rw [if_pos (by simp [hsh, hps, hage])])), honly, hdrop, hst⟩
/-- A change of one drop's hidden state and nothing else. -/
theorem State.onlyDrop_onD (s : State) (d : Fin 96) (f : Drop → Drop) :
    s.OnlyDrop { s with chip := s.chip.onD d.val f } d.val ∧ (s.chip.onD d.val f).d d.val = f (s.chip.d d.val) :=
  ⟨State.onlyDrop_of_flow (.onD _ _ rfl (.refl _)), d_onD_same _ _ _ d.isLt⟩

theorem selectEnd_spec (d : Fin 96) (s : State) (hs : s.serving) (hsh : s.chip.shaded = false) (hi : s.clk.idx = 0) (hsf : s.clk.superframe = true)
    (hps : (s.chip.d d.val).ps = .select) (haw : (s.chip.d d.val).awaiting = false) (hage : 4 ≤ (s.chip.d d.val).age) :
    ∃ t, exec (.selectEnd d) s = .next t ∧ s.OnlyDrop t d.val ∧ (t.chip.d d.val).ps = .select ∧ (t.chip.d d.val).awaiting = true ∧
      (t.chip.d d.val).mode = (s.chip.d d.val).train.chosen ∧ (t.chip.d d.val).rx = .hunt ∧ (t.chip.d d.val).age = 0 := by
  obtain ⟨honly, hdrop⟩ := s.onlyDrop_onD d fun x => { x with
    awaiting := true, age := 0, mode := x.train.chosen, rx := .hunt, errRun := 0, txBip := 0, rei := 0 }
  refine ⟨_, congrArg Host.Outcome.next ((hs.actBoundary _ hi).trans (congrArg _ (if_pos (by simp [hsh, hsf, hps, haw, hage])))), honly, ?_⟩
  show ((s.chip.onD d.val _).d d.val).ps = _ ∧ ((s.chip.onD d.val _).d d.val).awaiting = _ ∧ ((s.chip.onD d.val _).d d.val).mode = _ ∧
    ((s.chip.onD d.val _).d d.val).rx = _ ∧ ((s.chip.onD d.val _).d d.val).age = _
  rw [hdrop]
  exact ⟨hps, rfl, rfl, rfl, rfl⟩

/-! ### The judgement of a probe -/

theorem probeJudgement_spec (d : Fin 96) (snr : Byte) (s : State) (hs : s.serving) (hps : (s.chip.d d.val).ps = .probe)
    (hage : (s.chip.d d.val).age = 15) (hj : (s.chip.d d.val).train.judged = false) (hi : s.clk.idx = 124999) :
    ∃ t, exec (.probeJudgement d snr) s = .next t ∧ s.OnlyDrop t d.val ∧
      t.chip.d d.val = { s.chip.d d.val with train := { (s.chip.d d.val).train with
        judged := true
        chosen := if s.chip.snrPass d.val (s.chip.d d.val).train.cand snr.toNat = true ∧
          s.chip.snrPass d.val (s.chip.d d.val).train.cand (s.chip.d d.val).train.probeSnr = true then
            (s.chip.d d.val).train.cand else 0 } } := by
  obtain ⟨hrun, -, -⟩ := id hs
  obtain ⟨honly, hdrop⟩ := s.onlyDrop_onD d fun x => { x with train := { x.train with
    judged := true
    chosen := if s.chip.snrPass d x.train.cand snr.toNat && s.chip.snrPass d x.train.cand x.train.probeSnr then x.train.cand else 0 } }
  refine ⟨_, congrArg Host.Outcome.next ((State.actAt_running s _ _ hrun).trans ?_), honly, hdrop.trans ?_⟩
  · rw [s.toIdx_self 124999 (by omega)]
    exact congrArg _ (if_pos (by simp [hps, hage, hj]))
  · simp only [Bool.and_eq_true]

theorem probeJudgement_waits (d : Fin 96) (snr : Byte) (s : State) (hs : s.serving) :
    (s.toIdx 124999).clk.idx = 124999 ∧ exec (.probeJudgement d snr) s = exec (.probeJudgement d snr) (s.toIdx 124999) := by
  obtain ⟨hrun, -, -⟩ := id hs
  have hidx : (s.toIdx 124999).clk.idx = 124999 := (s.toIdx_idx _ le_rfl).trans (max_eq_right s.clk.idx_le)
  obtain ⟨-, -, hset⟩ := id hs
  have hrun' := ((s.toIdx_passes 124999).runs hset).running hrun
  refine ⟨hidx, congrArg Host.Outcome.next ((State.actAt_running s _ _ hrun).trans ?_)⟩
  refine ((State.actAt_running (s.toIdx 124999) _ _ hrun').trans ?_).symm
  rw [(s.toIdx 124999).toIdx_self 124999 (by omega)]

/-! ### Answers -/

namespace Chip

/-- The training words of a message: the far end's identity and its SNR. -/
def heardWords (c : Chip) (d : Nat) (msg : List Byte) : Chip :=
  (List.range 4).foldl (fun c i => c.setSt (DROPSTAT.FEID.at i) d (beField msg (12 + 4 * i) (15 + 4 * i))) (c.setSt DROPSTAT.SNRDN d (byteAt msg 9))
/-- Training once an answer of the far end has counted. -/
def answered (msg : List Byte) (snr : Nat) (x : Drop) : Drop :=
  let next := x.train.answers = 1 ∧ beField msg 4 7 = (x.train.lastEcho + 1) % 2 ^ 32
  { x with train := { x.train with
    answers := if next then 2 else 1, lastEcho := beField msg 4 7, snrA := if next then x.train.snrB else 0xFF, snrB := byteAt msg 9,
    caps := byteAt msg 3, ownSnr := snr } }

theorem heardWords_drop (c : Chip) (d : Nat) (msg : List Byte) : (c.heardWords d msg).drop = c.drop := by
  simp only [heardWords, List.range, List.range.loop, List.foldl_cons, List.foldl_nil, setSt_drop]
theorem Flow.heardWords {D : Nat → Prop} {z c : Chip} {d : Nat} (hd : d < 96) (msg : List Byte) (h : Flow D z c) : Flow D z (c.heardWords d msg) := by
  have hmove : ∀ i < 4, (DROPSTAT.FEID.at i).moving = true := by decide
  exact foldl _ (h.setSt _ _ _ rfl (by omega)) fun a i hi ha => ha.setSt _ _ _ (hmove i (List.mem_range.mp hi)) (by omega)
theorem heardWords_snr (c : Chip) {d : Nat} (hd : d < 96) (msg : List Byte) (hw : c.heath.status.wf = true) :
    (c.heardWords d msg).st DROPSTAT.SNRDN d = byteAt msg 9 := by
  have hset : (c.setSt DROPSTAT.SNRDN d (byteAt msg 9)).st DROPSTAT.SNRDN d = byteAt msg 9 % 2 ^ 8 := st_setSt_same _ _ _ _ hw (by decide)
  have hg : Guards [DROPSTAT.SNRDN] d id (c.setSt DROPSTAT.SNRDN d (byteAt msg 9)) (c.heardWords d msg) := by
    unfold heardWords
    simp only [List.range, List.range.loop, List.foldl_cons, List.foldl_nil]
    exact .setSt rfl _ rfl (by omega) (.setSt rfl _ rfl (by omega) (.setSt rfl _ rfl (by omega) (.setSt rfl _ rfl (by omega) (.refl _))))
  exact (hg.st_eq (setSt_wf _ _ _ _ hw) rfl (by omega)).trans (hset.trans (Nat.mod_eq_of_lt (byteAt_lt _ _)))
theorem d_of_drop {a b : Chip} (h : a.drop = b.drop) (d : Nat) : a.d d = b.d d := congrArg (fun v => vget v d ({} : Drop)) h

/-- A good answer that is heard in CALL. -/
theorem trainMsg_answer (c : Chip) (k : Clock) {d : Nat} {msg : List Byte} (snr : Nat) (hcrc : beField msg 38 39 = crc16 (msg.take 38))
    (hst : byteAt msg 0 = 0x81) (hps : (c.d d).ps = .call) (hans : (c.d d).train.answers < 2) :
    c.trainMsg k d msg snr = (c.heardWords d msg).onD d (answered msg snr) := by
  unfold trainMsg
  extract_lets x state snrA echo a b
  have hb : b = c.heardWords d msg := rfl
  clear_value b
  rw [if_neg (by simp [hcrc, state, hst]), if_neg (by simp [state, hst]), if_pos hps, if_neg (Nat.not_le.mpr hans), hb]
  rfl

/-- A word while the hunt of the training word is in HUNT. -/
theorem trainWord_hunt (c : Chip) {d : Nat} (hd : d < 96) {w m : List Byte} (snr : Nat) (hw : w.length = 8) (hh : (c.d d).train.hunt = .hunt) :
    ((c.trainWord d (w ++ m) snr).d d).train = { (c.d d).train with
      hunt := if beField w 0 7 = upTrain then .presync else .hunt, errRun := 0
      pre := if beField w 0 7 = upTrain then some (m, snr) else none } := by
  unfold trainWord
  rw [d_onD_same _ _ _ hd, beField_append hw, hh, List.drop_left' hw]
  by_cases he : beField w 0 7 = upTrain
  · have hz : ones 64 (beField w 0 7 ^^^ upTrain) = 0 := (ones_word (by decide)).mpr he
    rw [if_pos he, if_pos he, hz]
    rfl
  · have hz : ¬ ones 64 (beField w 0 7 ^^^ upTrain) = 0 := fun h => he ((ones_word (by decide)).mp h)
    simp [Hunt.word, hz, he]
/-- A good word in SYNC. -/
theorem trainWord_sync (c : Chip) {d : Nat} (hd : d < 96) {w m : List Byte} (snr : Nat) (hw : w.length = 8) (hh : (c.d d).train.hunt = .sync)
    (he : beField w 0 7 = upTrain) :
    (c.trainWord d (w ++ m) snr).d d = { c.d d with train := { (c.d d).train with errRun := 0, pre := none } } := by
  have hz : ones 64 (beField w 0 7 ^^^ upTrain) = 0 := (ones_word (by decide)).mpr he
  unfold trainWord
  rw [d_onD_same _ _ _ hd, beField_append hw, hh, hz]
  simp [Hunt.word, ← hh]
  simp [hh]

end Chip

theorem answerRx_exec (d : Fin 96) {w m : List Byte} (snr : Byte) {s : State} (hs : s.serving) (hps : (s.chip.d d.val).ps = .call) (hw : w.length = 8)
    (hm : m.length = 40) : exec (.answerRx d (w ++ m) snr) s =
      .next { s with chip := (s.chip.trainWord d.val (w ++ m) snr.toNat).trainMsgs s.clk d.val (s.chip.d d.val).train.pre m snr.toNat } := by
  refine congrArg Host.Outcome.next ((hs.act _).trans ?_)
  unfold answerRx
  rw [if_neg (by simp [hearsTraining, hps, hw, hm]), List.drop_left' hw]
theorem trainWord_flow (c : Chip) (d : Nat) (bytes : List Byte) (snr : Nat) : Chip.Flow (· = d) c (c.trainWord d bytes snr) := .onD _ _ rfl (.refl _)

theorem answerRx_hunt (d : Fin 96) (w m : List Byte) (snr : Byte) (s : State) (hs : s.serving) (hps : (s.chip.d d.val).ps = .call) (hw : w.length = 8)
    (hm : m.length = 40) (hh : (s.chip.d d.val).train.hunt = .hunt) :
    ∃ t, exec (.answerRx d (w ++ m) snr) s = .next t ∧ s.OnlyDrop t d.val ∧ t.chip.heath = s.chip.heath ∧
      (t.chip.d d.val).train = { (s.chip.d d.val).train with
        hunt := if beField w 0 7 = upTrain then .presync else .hunt, errRun := 0,
        pre := if beField w 0 7 = upTrain then some (m, snr.toNat) else none } := by
  have hexec := answerRx_exec d snr hs hps hw hm
  have htrain := s.chip.trainWord_hunt d.isLt (m := m) snr.toNat hw hh
  have hnot : (((s.chip.trainWord d.val (w ++ m) snr.toNat).d d.val).train).hunt ≠ .sync := by
    rw [htrain]
    dsimp only
    split <;> decide
  unfold trainMsgs at hexec
  rw [if_pos hnot] at hexec
  exact ⟨_, hexec, State.onlyDrop_of_flow (trainWord_flow ..), rfl, htrain⟩

/-- A frame of SYNC without an older message before it gives its own message. -/
theorem answerRx_sync (d : Fin 96) {w m : List Byte} (snr : Byte) {s : State} (hs : s.serving) (hps : (s.chip.d d.val).ps = .call)
    (hw : w.length = 8) (hm : m.length = 40) (hh : (s.chip.d d.val).train.hunt = .sync) (he : beField w 0 7 = upTrain)
    (hpre : (s.chip.d d.val).train.pre = none) : exec (.answerRx d (w ++ m) snr) s =
      .next { s with chip := (s.chip.trainWord d.val (w ++ m) snr.toNat).trainMsg s.clk d.val m snr.toNat } := by
  rw [answerRx_exec d snr hs hps hw hm]
  unfold trainMsgs
  rw [if_neg (by rw [s.chip.trainWord_sync d.isLt snr.toNat hw hh he]; simp [hh]), hpre]

/-- An answer that counts. -/
theorem answerRx_counts (d : Fin 96) {w m : List Byte} (snr : Byte) {s : State} (hs : s.serving) (hps : (s.chip.d d.val).ps = .call)
    (hw : w.length = 8) (hm : m.length = 40) (hh : (s.chip.d d.val).train.hunt = .sync) (he : beField w 0 7 = upTrain)
    (hpre : (s.chip.d d.val).train.pre = none) (hcrc : beField m 38 39 = crc16 (m.take 38)) (hst : byteAt m 0 = 0x81)
    (hans : (s.chip.d d.val).train.answers < 2) :
    ∃ t, exec (.answerRx d (w ++ m) snr) s = .next t ∧ s.OnlyDrop t d.val ∧
      (t.chip.d d.val) = answered m snr.toNat { s.chip.d d.val with train := { (s.chip.d d.val).train with errRun := 0, pre := none } } ∧
      t.chip.st DROPSTAT.SNRDN d.val = byteAt m 9 := by
  have hexec := answerRx_sync d snr hs hps hw hm hh he hpre
  have hword := s.chip.trainWord_sync d.isLt (m := m) snr.toNat hw hh he
  have hflow := trainWord_flow s.chip d.val (w ++ m) snr.toNat
  have hwf : (s.chip.trainWord d.val (w ++ m) snr.toNat).heath.status.wf = true := hs.wf
  generalize s.chip.trainWord d.val (w ++ m) snr.toNat = c at hexec hword hflow hwf
  rw [trainMsg_answer c s.clk snr.toNat hcrc hst (by rw [hword]; exact hps) (by rw [hword]; exact hans)] at hexec
  refine ⟨_, hexec, State.onlyDrop_of_flow (.onD _ _ rfl (hflow.heardWords d.isLt m)), ?_, c.heardWords_snr d.isLt m hwf⟩
  exact (d_onD_same _ _ _ d.isLt).trans (congrArg _ ((d_of_drop (c.heardWords_drop d.val m) _).trans hword))

theorem answerRx_bad (d : Fin 96) (w m : List Byte) (snr : Byte) (s : State) (hs : s.serving) (hps : (s.chip.d d.val).ps = .call)
    (hw : w.length = 8) (hm : m.length = 40) (hh : (s.chip.d d.val).train.hunt = .sync) (he : beField w 0 7 = upTrain)
    (hpre : (s.chip.d d.val).train.pre = none) (hcrc : beField m 38 39 ≠ crc16 (m.take 38)) :
    ∃ t, exec (.answerRx d (w ++ m) snr) s = .next t ∧ s.OnlyDrop t d.val ∧ t.chip.heath = s.chip.heath ∧
      (t.chip.d d.val).train = { (s.chip.d d.val).train with errRun := 0 } := by
  have hexec := answerRx_sync d snr hs hps hw hm hh he hpre
  rw [trainMsg, if_pos (by simp [hcrc])] at hexec
  refine ⟨_, hexec, State.onlyDrop_of_flow (trainWord_flow ..), rfl, ?_⟩
  show ((s.chip.trainWord d.val (w ++ m) snr.toNat).d d.val).train = _
  rw [s.chip.trainWord_sync d.isLt snr.toNat hw hh he, ← hpre]

/-- Settles O43: port states change at their boundaries, and a training frame moves the hunt, the words it carries, and the answers. -/
theorem trainingSteps : Obligations.TrainingSteps := by
  refine ⟨fun d n s hs hsh hi hps => ⟨silentEnd_spec d n s hs hsh hi hps, fun hage => ?_⟩, fun d s hs hsh hi => ⟨quietecEnd_spec d s hs hsh hi,
    prepEnd_spec d s hs hsh hi, fun hage => ?_, fun hage => ?_, selectEnd_spec d s hs hsh hi⟩, fun d w m snr s hs hps hw hm =>
    ⟨answerRx_hunt d w m snr s hs hps hw hm, fun hh he => ⟨fun hcrc hst => ⟨fun hpre hans => ?_, fun hpre hans hecho => ?_⟩,
      answerRx_bad d w m snr s hs hps hw hm hh he⟩⟩, probeJudgement_spec, probeJudgement_waits⟩
  · exact congrArg Host.Outcome.next (State.actBoundary_same (if_neg (by simp [hage])))
  · exact congrArg Host.Outcome.next (State.actBoundary_same (if_neg (by simp [hage])))
  · exact congrArg Host.Outcome.next (State.actBoundary_same (if_neg (by simp [hage])))
  · obtain ⟨t, hexec, honly, hdrop, hsnr⟩ := answerRx_counts d snr hs hps hw hm hh he hpre hcrc hst (by omega)
    refine ⟨t, hexec, honly, ?_, ?_, ?_, ?_, hsnr⟩ <;> rw [hdrop]
    · exact if_neg (by simp [hans])
    · rfl
    · rfl
    · rfl
  · obtain ⟨t, hexec, honly, hdrop, -⟩ := answerRx_counts d snr hs hps hw hm hh he hpre hcrc hst (by omega)
    refine ⟨t, hexec, honly, ?_, ?_, ?_⟩ <;> rw [hdrop]
    · exact if_pos ⟨hans, hecho⟩
    · exact if_pos ⟨hans, hecho⟩
    · rfl

end Sys2Proof.Machine
end

section
/-! PROOFS. The defects of a drop judged on the tick just closed (R219, R220). -/

namespace Sys2Proof.Machine
open Sys2Proof Chip

theorem has_or (a b i : Nat) : has (a ||| b) i = (has a i || has b i) := Nat.testBit_or a b i
theorem has_zero (i : Nat) : has 0 i = false := Nat.zero_testBit i

namespace Chip

/-- What R220 makes of the defects `def1` of a drop that is UP. -/
theorem judged_up {def1 raw i : Nat} {los low : Bool} (hi : i = eMODELOW ∨ i = eLOS ∨ i = eISO ∨ los = true ∧ (i = eLOL ∨ i = eLFD ∨ i = eSNRLOW)) :
    has (setBit (setBit (clearBits def1 [eLOL, eLFD, eSNRLOW] ||| (if los then 0 else raw)) eLOS los) eMODELOW low) i =
      if i = eMODELOW then low else if i = eLOS then los else if i = eISO then has def1 eISO || (!los && has raw eISO) else false := by
  rw [has_setBit, has_setBit, has_or]
  rcases hi with rfl | rfl | rfl | ⟨rfl, rfl | rfl | rfl⟩
  · rfl
  · rfl
  · simp only [clearBits, List.foldl_cons, List.foldl_nil, has_setBit]
    cases los <;> simp [eMODELOW, eLOS, eISO, eLOL, eLFD, eSNRLOW, has_zero]
  all_goals
    simp only [clearBits, List.foldl_cons, List.foldl_nil, has_setBit, if_pos, has_zero]
    simp [eMODELOW, eLOS, eISO, eLOL, eLFD, eSNRLOW]

/-- What the judgement of drop `d` leaves. -/
structure DropJudged (d : Nat) (x : DropTick) (z c : Chip) : Prop extends Flow (· = d) z c where
  ps : (c.d d).ps = (z.d d).ps
  temp : z.heath.status.wf = true → c.st DROPSTAT.TEMP d = unsigned 16 x.temp
  iso : z.heath.status.wf = true → copper d = true → x.leak = true → c.dropDef d eISO = true
  low : z.heath.status.wf = true → (z.d d).ps = .up → 1 ≤ (z.d d).age → c.dropDef d eMODELOW = decide ((z.d d).mode < z.lv DROP.MODE d)
  los : z.heath.status.wf = true → (z.d d).ps = .up → 1 ≤ (z.d d).age → x.pwr < (if copper d = true then -4500 else -3000) →
    c.dropDef d eLOS = true ∧ c.dropDef d eLOL = false ∧ c.dropDef d eLFD = false ∧ c.dropDef d eSNRLOW = false

theorem judgeDrop_spec (c : Chip) (k : Clock) {d : Nat} (hd : d < 96) (x : DropTick) (hps : (c.d d).ps ≠ .off) :
    DropJudged d x c (c.judgeDrop k d x) := by
  unfold judgeDrop
  extract_lets y cop up sends c₁ c₂ snr c₃ def0 bad iso opt def1 los0 okCount los lol carries lfd thr low high run snrLow raw lof d2 def2 c₄
  rw [if_neg hps]
  have hset : c.heath.status.wf = true → c₁.st DROPSTAT.TEMP d = unsigned 16 x.temp := fun hw =>
    (st_setSt_same c _ _ _ hw (by decide)).trans (Nat.mod_eq_of_lt (unsigned_lt _ _))
  have hw₁ : c.heath.status.wf = true → c₁.heath.status.wf = true := setSt_wf _ _ _ _
  have h₁ : Guards [] d id c c₁ := .setSt rfl _ rfl (by omega) (.refl _)
  have f₁ : Flow (· = d) c c₁ := .setSt _ _ _ rfl (by omega) (.refl _)
  clear_value c₁
  have h₂ : Guards [DROPSTAT.TEMP] d id c₁ c₂ := .ite (.setSt rfl _ rfl (by omega) (.setSt rfl _ rfl (by omega) (.refl _)))
    (.setSt rfl _ rfl (by omega) (.setSt rfl _ rfl (by omega) (.setSt rfl _ rfl (by omega) (.refl _))))
  have f₂ : Flow (· = d) c c₂ := .ite (.setSt _ _ _ rfl (by omega) (.setSt _ _ _ rfl (by omega) f₁))
    (.setSt _ _ _ rfl (by omega) (.setSt _ _ _ rfl (by omega) (.setSt _ _ _ rfl (by omega) f₁)))
  clear_value c₂
  have h₃ : Guards [DROPSTAT.TEMP] d id c₁ c₃ := .ite (.setSt rfl _ rfl (by omega) h₂) h₂
  have f₃ : Flow (· = d) c c₃ := .ite (.setSt _ _ _ rfl (by omega) f₂) f₂
  have hown : c₃.d d = c.d d := h₃.own.trans h₁.own
  have hlv : c₃.lv DROP.MODE d = c.lv DROP.MODE d := f₃.lv ..
  have h₄ : Guards [DROPSTAT.TEMP] d Drop.ps c₁ (c₄.setDropDefs k d def2) :=
    .setDropDefs rfl rfl rfl k hd _ (.onD (fun _ => rfl) { h₃ with own := congrArg Drop.ps h₃.own })
  have f₄ : Flow (· = d) c (c₄.setDropDefs k d def2) := .setDropDefs k d _ rfl hd (.onD _ _ rfl f₃)
  have hdef : c.heath.status.wf = true → ∀ n < 16, (c₄.setDropDefs k d def2).dropDef d n = has def2 n := fun hw n hn =>
    dropDef_setDropDefs c₄ k hd def2 (f₃.wf hw) hn
  have hiso : copper d = true → x.leak = true → has def1 eISO = true := fun hc hl => by
    have : iso.judge 1 8 (has def0 eISO) = true := by
      simp [iso, bad, cop, hc, hl, Run.step, Run.judge]
    unfold def1
    rw [has_setBit, has_setBit, this]
    rfl
  have hup : (c.d d).ps = .up → 1 ≤ (c.d d).age → up = true := fun hu ha => by simp [up, y, hu, ha]
  have hdef2 : def2 = if !up then def1 else setBit (setBit (clearBits def1 [eLOL, eLFD, eSNRLOW] ||| (if los then 0 else raw)) eLOS los) eMODELOW
      (decide ((c.d d).mode < c.lv DROP.MODE d)) := by
    rw [← hlv]
  have hlos : x.pwr < (if copper d = true then -4500 else -3000) → los = true := fun hp => by
    have hok : okCount = 0 := if_neg (by unfold cop; split at hp <;> simp_all <;> omega)
    unfold los
    rw [hok]
    split
    · rfl
    · unfold cop
      exact decide_eq_true hp
  clear_value d2 def2 def1 los raw up c₄
  refine { f₄ with ps := h₄.own.trans (congrArg Drop.ps h₁.own), temp := fun hw => ?_, iso := fun hw hc hl => ?_, low := fun hw hu ha => ?_
                   los := fun hw hu ha hp => ?_ }
  · exact (h₄.st_eq (hw₁ hw) rfl (by omega)).trans (hset hw)
  · rw [hdef hw _ (by decide), hdef2]
    cases up with
    | false => exact hiso hc hl
    | true =>
      refine (judged_up (.inr (.inr (.inl rfl)))).trans ?_
      rw [hiso hc hl]
      rfl
  · rw [hdef hw _ (by decide), hdef2, hup hu ha]
    exact (judged_up (.inl rfl)).trans rfl
  · rw [hdef hw _ (by decide), hdef hw _ (by decide), hdef hw _ (by decide), hdef hw _ (by decide), hdef2, hup hu ha, hlos hp]
    exact ⟨(judged_up (.inr (.inl rfl))).trans rfl, (judged_up (.inr (.inr (.inr ⟨rfl, .inl rfl⟩)))).trans rfl,
      (judged_up (.inr (.inr (.inr ⟨rfl, .inr (.inl rfl)⟩)))).trans rfl, (judged_up (.inr (.inr (.inr ⟨rfl, .inr (.inr rfl)⟩)))).trans rfl⟩

end Chip

theorem dropDefectJudgement_exec (d : Fin 96) (x : DropTick) {s : State} (hs : s.serving) (hi : s.clk.idx ≤ 127 + bit s.clk.skip)
    (hdone : s.chip.done.contains (100 + d.val) = false) : exec (.dropDefectJudgement d x) s =
      .next { s with chip := { s.chip.judgeDrop s.clk d.val x with done := (100 + d.val) :: s.chip.done } } := by
  obtain ⟨hrun, -, -⟩ := id hs
  refine congrArg Host.Outcome.next ?_
  unfold State.inWindow
  rw [if_neg (by omega), State.actAt_running s 0 _ hrun, s.toIdx_self 0 (by omega)]
  dsimp only
  rw [hdone, if_neg (by decide)]

/-- Settles O45: the judgement writes its measurements, and then the defects as R220 gives them. -/
theorem dropDefects : Obligations.DropDefects := by
  refine ⟨fun d x s hs hi hdone hps => ?_, fun d x s hs hi hdone hps => ?_, fun d x s h => ?_⟩
  · have hj := s.chip.judgeDrop_spec s.clk d.isLt x hps
    have hw := hs.wf
    have hexec := dropDefectJudgement_exec d x hs hi hdone
    generalize s.chip.judgeDrop s.clk d.val x = c at hj hexec
    exact ⟨_, hexec, ⟨⟨rfl, rfl, hj.toKeeps.withDone _⟩, fun e he => hj.drops e he⟩, List.mem_cons_self .., hj.temp hw, hj.ps, hj.iso hw,
      fun hu ha => ⟨hj.low hw hu ha, hj.los hw hu ha⟩⟩
  · rw [dropDefectJudgement_exec d x hs hi hdone, judgeDrop]
    dsimp only
    rw [if_pos hps]
  · refine congrArg Host.Outcome.next ?_
    rcases h with h | h
    · exact State.inWindow_late h
    · unfold State.inWindow State.actAt
      rw [s.toIdx_self 0 (by omega)]
      dsimp only
      rw [if_pos h, ite_self, ite_self]

end Sys2Proof.Machine
end

section
/-! PROOFS. The steps of a slot-map generation (R188 to R191). -/

namespace Sys2Proof.Machine
open Sys2Proof Chip

namespace Chip

/-! ### What both tables report -/

theorem Guards.setSlotDef {β : Type} {F : List Fld} {d : Nat} {m : Drop → β} {z c : Chip} (hF : F.all Fld.dropWord = true) {f : Fld}
    (hl : [f, DROPSTAT.DEF, DROPSTAT.CAUSE, SLOTMAP.CAUSE].all (leaves F) = true) (k : Clock) {e : Nat} (he : e < 96) (n on off : Nat) (b : Bool)
    (h : Guards F d m z c) : Guards F d m z (c.setSlotDef k e n f on off b) := by
  simp only [List.all_cons, List.all_nil, Bool.and_true, Bool.and_eq_true] at hl
  obtain ⟨h1, h2, h3, h4⟩ := hl
  unfold Chip.setSlotDef
  exact ite h (.cause hF k _ h4 (by omega) (.setDropDefs hF h2 h3 k he _ (.setSt hF _ h1 (by omega) h)))
theorem Flow.setSlotDef {D : Nat → Prop} {z c : Chip} (k : Clock) {d : Nat} (hD : D d) (hd : d < 96) (n : Nat) {f : Fld} (hf : f.moving = true)
    (on off : Nat) (b : Bool) (h : Flow D z c) : Flow D z (c.setSlotDef k d n f on off b) := by
  unfold Chip.setSlotDef
  exact ite h (.cause k .slot _ _ rfl (by omega) (.setDropDef k d n b hD hd (.setSt _ _ _ hf (by omega) h)))
/-- The defect reads as it was set, and the others as before. -/
theorem dropDef_setSlotDef (c : Chip) (k : Clock) {d : Nat} (hd : d < 96) (n : Nat) {f : Fld} (hf : leaves [DROPSTAT.DEF] f = true) (on off : Nat) (b : Bool)
    (hw : c.heath.status.wf = true) {i : Nat} (hi : i < 16) :
    (c.setSlotDef k d n f on off b).dropDef d i = if i = n then b else c.dropDef d i := by
  unfold setSlotDef slotCause
  split
  next h =>
    split
    next e => rw [e, h]
    next => rfl
  next =>
    have hset : Guards [DROPSTAT.DEF] d id c (c.setSt f (2 * d) (bit b)) := .setSt rfl _ hf (by omega) (.refl c)
    have hsame : (c.setSt f (2 * d) (bit b)).dropDef d i = c.dropDef d i := congrArg (has · i) (hset.st_eq hw rfl (by omega))
    have hdef := dropDef_setDropDef (c.setSt f (2 * d) (bit b)) k hd n b (hset.wf hw) hi
    have hwd : ((c.setSt f (2 * d) (bit b)).setDropDef k d n b).heath.status.wf = true := setDropDefs_wf _ k hd _ (hset.wf hw)
    rw [hsame] at hdef
    generalize (c.setSt f (2 * d) (bit b)).setDropDef k d n b = e at hdef hwd
    have hg : Guards [DROPSTAT.DEF] d id e (e.cause k .slot (2 * d) (if b then on else off)) := .cause rfl k _ rfl (by omega) (.refl e)
    exact (congrArg (has · i) (hg.st_eq hwd rfl (by omega))).trans hdef

/-! ### The slot map's state -/

theorem syncSlot_own (c : Chip) {d : Nat} (hd : d < 96) : (c.syncSlot d).d d = c.d d :=
  (Guards.syncSlot (F := []) (m := id) rfl rfl hd (.refl c)).own
theorem syncSlot_wf (c : Chip) {d : Nat} (hd : d < 96) (hw : c.heath.status.wf = true) : (c.syncSlot d).heath.status.wf = true :=
  (Guards.syncSlot (F := []) (d := d) (m := id) rfl rfl hd (.refl c)).wf hw
theorem syncSlot_state (c : Chip) {d : Nat} (hd : d < 96) (hw : c.heath.status.wf = true) :
    (c.syncSlot d).st SLOTMAP.STATE (2 * d) = (c.d d).sm.code := by
  have hset : ((c.setSt SLOTMAP.INUSE (2 * d) (c.d d).inUse).setSt SLOTMAP.STATE (2 * d) (c.d d).sm.code).st SLOTMAP.STATE (2 * d) =
      (c.d d).sm.code % 2 ^ 3 := st_setSt_same _ _ _ _ (setSt_wf _ _ _ _ hw) (by decide)
  have hg : Guards [SLOTMAP.STATE] d id _ (c.syncSlot d) := .setSt rfl _ rfl (by omega) (.setSt rfl _ rfl (by omega) (.refl _))
  rw [hg.st_eq (setSt_wf _ _ _ _ (setSt_wf _ _ _ _ hw)) rfl (by omega), hset]
  cases (c.d d).sm <;> rfl

theorem syncSlot_que (c : Chip) (d : Nat) : (c.syncSlot d).que = c.que := by
  unfold syncSlot
  simp only [setSt_que]
theorem Flow.setSmflt {D : Nat → Prop} {z c : Chip} (k : Clock) {d : Nat} (hD : D d) (hd : d < 96) (b : Bool) (h : Flow D z c) :
    Flow D z (c.setSmflt k d b) := by
  unfold Chip.setSmflt
  exact h.setSlotDef k hD hd _ rfl _ _ _
theorem Guards.setSmflt {β : Type} {F : List Fld} {d : Nat} {m : Drop → β} {z c : Chip} (hF : F.all Fld.dropWord = true)
    (hl : [SLOTMAP.SMFLT, DROPSTAT.DEF, DROPSTAT.CAUSE, SLOTMAP.CAUSE].all (leaves F) = true) (k : Clock) {e : Nat} (he : e < 96) (b : Bool)
    (h : Guards F d m z c) : Guards F d m z (c.setSmflt k e b) := by
  unfold Chip.setSmflt
  exact h.setSlotDef hF hl k he _ _ _ _
theorem setSmflt_def (c : Chip) (k : Clock) {d : Nat} (hd : d < 96) (b : Bool) (hw : c.heath.status.wf = true) : (c.setSmflt k d b).dropDef d eSMFLT = b :=
  (dropDef_setSlotDef c k hd _ rfl _ _ _ hw (by decide)).trans (if_pos rfl)

/-! ### Messages that return to their queues -/

theorem qReturn_q (c : Chip) (k : Clock) (i : Nat) : ((c.qReturn k i).q i).begun = false := by
  unfold qReturn
  split
  next h =>
    have hi : i < 12 := by
      by_contra hn
      have hq : c.q i = {} := by
        unfold q vget
        rw [Vector.getElem?_eq_none (by omega)]
        rfl
      rw [hq] at h
      exact absurd h (by decide)
    have hque : ((c.onQ i fun x => { x with begun := false }).qRewound k i).que = (c.onQ i fun x => { x with begun := false }).que :=
      (cause_que ..).trans (setSt_que ..)
    rw [q_of_que hque, q_onQ_same _ _ _ hi]
  next h => exact Bool.eq_false_iff.mpr h

theorem Flow.haltMch {D : Nat → Prop} {z c : Chip} (k : Clock) {d : Nat} (hD : D d) (h : Flow D z c) : Flow D z (c.haltMch k d) := by
  unfold Chip.haltMch
  exact ite (.onD _ _ hD (h.qReturn k _)) h
theorem haltMch_own (c : Chip) (k : Clock) {d : Nat} (hd : d < 96) :
    (c.haltMch k d).d d = { c.d d with txMch := if midMch (c.d d) = true then {} else (c.d d).txMch } := by
  have hret : (c.qReturn k (8 + (c.d d).txMch.queue)).d d = c.d d := (Guards.qReturn (F := []) (m := id) rfl k _ (.refl c)).own
  unfold haltMch
  dsimp only
  split
  · rw [d_onD_same _ _ _ hd, hret]
  · rfl
theorem haltMch_begun (c : Chip) (k : Clock) (d : Nat) (hm : midMch (c.d d) = true) :
    ((c.haltMch k d).q (8 + (c.d d).txMch.queue)).begun = false := by
  unfold haltMch
  rw [if_pos hm]
  exact c.qReturn_q k _
theorem haltMch_wf (c : Chip) (k : Clock) (d : Nat) (hw : c.heath.status.wf = true) : (c.haltMch k d).heath.status.wf = true :=
  (Flow.haltMch (D := fun _ => True) k (d := d) trivial (.refl c)).wf hw

theorem Flow.haltGone {D : Nat → Prop} {z c : Chip} (k : Clock) {d : Nat} (hD : D d) (h : Flow D z c) : Flow D z (c.haltGone k d) := by
  unfold Chip.haltGone
  extract_lets gone x c₁
  have h₁ : Flow D z c₁ := ite (.onD _ _ hD (h.qReturn k _)) h
  exact ite (.onD _ _ hD (h₁.qReturn k _)) h₁
theorem Guards.haltGone {β : Type} {F : List Fld} {d : Nat} {m : Drop → β} {z c : Chip} (hF : F.all Fld.dropWord = true) (k : Clock)
    (hm : ∀ x : Drop, ∀ a b, m { x with txMbk := a, txSns := b } = m x) (h : Guards F d m z c) : Guards F d m z (c.haltGone k d) := by
  unfold Chip.haltGone
  extract_lets gone x c₁
  have h₁ : Guards F d m z c₁ := ite (.onD (fun x => hm x {} x.txSns) (h.qReturn hF k _)) h
  exact ite (.onD (fun x => hm x x.txMbk {}) (h₁.qReturn hF k _)) h₁

end Chip

/-! ### The steps of an offer -/

theorem Clock.idx_of_superframe {k : Clock} (h : k.superframe = true) : k.idx = 0 := by
  simp only [Clock.superframe, Bool.and_eq_true, beq_iff_eq] at h
  exact h.1

theorem slotMapOffer_spec (d : Fin 96) (s : State) (hs : s.serving) (hsf : s.clk.superframe = true) (hrole : s.chip.twin.role ≠ .shadow)
    (hsm : (s.chip.d d.val).sm = .waiting) (hrx : (s.chip.d d.val).rx = .sync) :
    ∃ t, exec (.slotMapOffer d) s = .next t ∧ s.OnlyDrop t d.val ∧ t.chip.st SLOTMAP.STATE (2 * d.val) = 2 ∧
      t.chip.d d.val = { s.chip.d d.val with
        txMch := if Chip.midMch (s.chip.d d.val) = true then {} else (s.chip.d d.val).txMch, sm := .offered, offerAge := 0, echoed := false } ∧
      (Chip.midMch (s.chip.d d.val) = true → (s.chip.d d.val).txMch.queue < 4 → (t.chip.q (8 + (s.chip.d d.val).txMch.queue)).begun = false) := by
  have hd := d.isLt
  have hexec : exec (.slotMapOffer d) s = .next { s with chip := ((s.chip.haltMch s.clk d.val).onD d.val fun x =>
      { x with sm := .offered, offerAge := 0, echoed := false }).syncSlot d.val } := by
    refine congrArg Host.Outcome.next ((hs.actBoundary _ (Clock.idx_of_superframe hsf)).trans (congrArg _ (if_pos ?_)))
    simp [hsf, hsm, hrx, hrole]
  have hflow := Flow.haltMch (D := (· = d.val)) s.clk rfl (.refl s.chip)
  have hown := s.chip.haltMch_own s.clk hd
  have hw := s.chip.haltMch_wf s.clk d.val hs.wf
  have hbegun := s.chip.haltMch_begun s.clk d.val
  generalize s.chip.haltMch s.clk d.val = c at hexec hflow hown hw hbegun
  have hset : (c.onD d.val fun x => { x with sm := .offered, offerAge := 0, echoed := false }).d d.val =
      { c.d d.val with sm := .offered, offerAge := 0, echoed := false } := d_onD_same _ _ _ hd
  have hflow' := Flow.onD (D := (· = d.val)) d.val (fun x => { x with sm := .offered, offerAge := 0, echoed := false }) rfl hflow
  have hq : ∀ i, (c.onD d.val fun x => { x with sm := .offered, offerAge := 0, echoed := false }).q i = c.q i := fun _ => rfl
  have hw' : (c.onD d.val fun x => { x with sm := .offered, offerAge := 0, echoed := false }).heath.status.wf = true := hw
  generalize c.onD d.val (fun x => { x with sm := .offered, offerAge := 0, echoed := false }) = e at hexec hset hflow' hq hw'
  have hstate := e.syncSlot_state hd hw'
  rw [hset] at hstate
  refine ⟨_, hexec, State.onlyDrop_of_flow (.syncSlot _ hd hflow'), hstate, ?_, fun hm _ => ?_⟩
  · rw [syncSlot_own _ hd, hset, hown]
  · rw [q_of_que (e.syncSlot_que _), hq]
    exact hbegun hm

theorem applyNext_spec (d : Fin 96) (s : State) (hs : s.serving) (hsf : s.clk.superframe = true) (hrole : s.chip.twin.role ≠ .shadow)
    (hsm : (s.chip.d d.val).sm = .offered) (he : echoedBefore s.clk (s.chip.d d.val) = true) :
    ∃ t, exec (.applyNext d) s = .next t ∧ s.OnlyDrop t d.val ∧ t.chip.st SLOTMAP.STATE (2 * d.val) = 3 ∧
      t.chip.d d.val = { s.chip.d d.val with sm := .applyNext, offerAge := 0 } := by
  have hd := d.isLt
  have hexec : exec (.applyNext d) s = .next { s with chip := (s.chip.onD d.val fun x => { x with sm := .applyNext, offerAge := 0 }).syncSlot d.val } := by
    refine congrArg Host.Outcome.next ((hs.actBoundary _ (Clock.idx_of_superframe hsf)).trans (congrArg _ (if_pos ?_)))
    simp [hsf, hsm, he, hrole]
  have hset : (s.chip.onD d.val fun x => { x with sm := .applyNext, offerAge := 0 }).d d.val =
      { s.chip.d d.val with sm := .applyNext, offerAge := 0 } := d_onD_same _ _ _ hd
  have hflow := Flow.onD (D := (· = d.val)) d.val (fun x => { x with sm := .applyNext, offerAge := 0 }) rfl (.refl s.chip)
  generalize s.chip.onD d.val (fun x => { x with sm := .applyNext, offerAge := 0 }) = e at hexec hset hflow
  have hstate := e.syncSlot_state hd (hflow.wf hs.wf)
  rw [hset] at hstate
  exact ⟨_, hexec, State.onlyDrop_of_flow (.syncSlot _ hd hflow), hstate, (syncSlot_own _ hd).trans hset⟩

/-- What the drop holds of its generations. -/
def Drop.generation (x : Drop) : SmState × Nat × Nat × List (Nat × Nat) × Nat × Nat := (x.sm, x.genLive, x.genBefore, x.gens, x.genTick, x.inUse)

theorem generationApply_spec (d : Fin 96) (s : State) (hs : s.serving) (hsf : s.clk.superframe = true)
    (hsm : (s.chip.d d.val).sm = .applyNext) (hage : 1 ≤ (s.chip.d d.val).offerAge) (hne : (s.chip.d d.val).genNext ≠ (s.chip.d d.val).genLive) :
    ∃ t, exec (.generationApply d) s = .next t ∧ s.OnlyDrop t d.val ∧ (t.chip.d d.val).sm = .idle ∧
      (t.chip.d d.val).genLive = (s.chip.d d.val).genNext ∧ (t.chip.d d.val).genBefore = (s.chip.d d.val).genLive ∧
      (t.chip.d d.val).gens = ((s.chip.d d.val).genTick, (s.chip.d d.val).genLive) :: (s.chip.d d.val).gens ∧
      (t.chip.d d.val).genTick = s.clk.ticks ∧ (t.chip.d d.val).inUse = 1 - (s.chip.d d.val).inUse ∧
      t.chip.st SLOTMAP.STATE (2 * d.val) = 0 ∧ t.chip.dropDef d.val eSMFLT = false ∧ t.chip.hasCause .slot (2 * d.val) 0 := by
  have hd := d.isLt
  obtain ⟨c, hc⟩ : ∃ c, c = s.chip.onD d.val fun x => { x with
    sm := .idle, echoed := false, inUse := 1 - x.inUse, gens := (x.genTick, x.genLive) :: x.gens, genBefore := x.genLive
    genLive := x.genNext, genTick := s.clk.ticks } := ⟨_, rfl⟩
  have hexec : exec (.generationApply d) s = .next { s with chip :=
      ((((c.syncSlot d.val).setSmflt s.clk d.val false).slotCause s.clk d.val 1).haltGone s.clk d.val) } := by
    refine congrArg Host.Outcome.next ((hs.actBoundary _ (Clock.idx_of_superframe hsf)).trans ?_)
    rw [if_pos (by simp [hsf, hsm, hage]), applyGen, if_neg hne, hc]
  have hown : c.d d.val = { s.chip.d d.val with
      sm := .idle, echoed := false, inUse := 1 - (s.chip.d d.val).inUse, gens := ((s.chip.d d.val).genTick, (s.chip.d d.val).genLive) :: (s.chip.d d.val).gens
      genBefore := (s.chip.d d.val).genLive, genLive := (s.chip.d d.val).genNext, genTick := s.clk.ticks } := by
    rw [hc]
    exact d_onD_same _ _ _ hd
  have hflow : Flow (· = d.val) s.chip c := by rw [hc]; exact .onD _ _ rfl (.refl _)
  have hw : c.heath.status.wf = true := hflow.wf hs.wf
  clear hc
  have hws := c.syncSlot_wf hd hw
  have hstate : (c.syncSlot d.val).st SLOTMAP.STATE (2 * d.val) = 0 := (c.syncSlot_state hd hw).trans (by rw [hown]; rfl)
  have hown' : (c.syncSlot d.val).d d.val = c.d d.val := c.syncSlot_own hd
  have hflow' : Flow (· = d.val) s.chip (c.syncSlot d.val) := hflow.syncSlot _ hd
  generalize c.syncSlot d.val = e at hexec hws hstate hown' hflow'
  have hdef : (e.setSmflt s.clk d.val false).dropDef d.val eSMFLT = false := e.setSmflt_def s.clk hd _ hws
  have hg : Guards [SLOTMAP.STATE] d.val Drop.generation e (e.setSmflt s.clk d.val false) := .setSmflt rfl rfl _ hd _ (.refl _)
  have hflow'' : Flow (· = d.val) s.chip (e.setSmflt s.clk d.val false) := .setSmflt (D := (· = d.val)) _ rfl hd _ hflow'
  have hwe := hg.wf hws
  generalize e.setSmflt s.clk d.val false = a at hexec hdef hg hflow'' hwe
  have hcause : (a.slotCause s.clk d.val 1).hasCause .slot (2 * d.val) 0 := hasCause_cause .slot _ _ _ hwe rfl (by decide) (by decide)
  have hg' : Guards [SLOTMAP.STATE, DROPSTAT.DEF] d.val Drop.generation a ((a.slotCause s.clk d.val 1).haltGone s.clk d.val) :=
    .haltGone rfl _ (fun _ _ _ => rfl) (.cause rfl _ _ rfl (by omega) (.refl _))
  have hgc : Guards [SLOTMAP.CAUSE] d.val Drop.generation (a.slotCause s.clk d.val 1) ((a.slotCause s.clk d.val 1).haltGone s.clk d.val) :=
    .haltGone rfl _ (fun _ _ _ => rfl) (.refl _)
  have hgen : Drop.generation (((a.slotCause s.clk d.val 1).haltGone s.clk d.val).d d.val) = Drop.generation (c.d d.val) :=
    hg'.own.trans (hg.own.trans (congrArg _ hown'))
  rw [hown] at hgen
  simp only [Drop.generation, Prod.mk.injEq] at hgen
  obtain ⟨h1, h2, h3, h4, h5, h6⟩ := hgen
  refine ⟨_, hexec, State.onlyDrop_of_flow (.haltGone _ rfl (.cause _ _ _ _ rfl (by omega) hflow'')), h1, h2, h3, h4, h5, h6, ?_, ?_, ?_⟩
  · exact (hg'.st_eq hwe rfl (by omega)).trans ((hg.st_eq hws rfl (by omega)).trans hstate)
  · exact (congrArg (has · eSMFLT) (hg'.st_eq hwe rfl (by omega))).trans hdef
  · exact (congrArg (Nat.testBit · 0) (hgc.st_eq (cause_wf _ _ _ _ _ hwe) rfl (by omega))).trans hcause

theorem smflt_spec (d : Fin 96) (s : State) (hs : s.serving) (hsf : s.clk.superframe = true) (hrole : s.chip.twin.role ≠ .shadow)
    (hsm : (s.chip.d d.val).sm = .offered) (he : echoedBefore s.clk (s.chip.d d.val) = false) (hage : 4 ≤ (s.chip.d d.val).offerAge) :
    ∃ t, exec (.smflt d) s = .next t ∧ s.OnlyDrop t d.val ∧ t.chip.dropDef d.val eSMFLT = true ∧ t.chip.d d.val = s.chip.d d.val := by
  have hd := d.isLt
  have hexec : exec (.smflt d) s = .next { s with chip := s.chip.setSmflt s.clk d.val true } := by
    refine congrArg Host.Outcome.next ((hs.actBoundary _ (Clock.idx_of_superframe hsf)).trans (congrArg _ (if_pos ?_)))
    simp [hsf, hsm, he, hrole, hage]
  exact ⟨_, hexec, State.onlyDrop_of_flow (.setSmflt (D := (· = d.val)) _ rfl hd _ (.refl _)), setSmflt_def _ _ hd _ hs.wf,
    (Guards.setSmflt (F := []) (m := id) rfl rfl _ hd _ (.refl _)).own⟩

/-- Settles O40: each step of a generation at a superframe boundary, and none elsewhere. -/
theorem slotMapSteps : Obligations.SlotMapSteps := by
  refine ⟨fun d s hs hsf => ⟨slotMapOffer_spec d s hs hsf, applyNext_spec d s hs hsf, generationApply_spec d s hs hsf, smflt_spec d s hs hsf⟩,
    fun d s h => ⟨?_, ?_, ?_, ?_⟩⟩
  all_goals exact congrArg Host.Outcome.next (State.actBoundary_same (if_neg (by simp [h])))

end Sys2Proof.Machine
end

section
/-! PROOFS. How a drop stops sending drop frames, and how it comes up, fails, tries again and goes off (R207, R213, R214, R223, R225). -/

namespace Sys2Proof.Machine
open Sys2Proof Chip

/-- A message of the kind is open on run `b`, or none is. -/
def Drop.withRx (kind : Nat) (b : Option Nat) (x : Drop) : Drop :=
  match kind with
  | 0 => { x with rxMch := b } | 1 => { x with rxMbk := b } | 2 => { x with rxSns := b } | _ => { x with rxTim := b }

namespace Chip
namespace Guards
variable {β : Type} {F : List Fld} {d : Nat} {m : Drop → β} {z c : Chip}

theorem setRxOpen (kind : Nat) (b : Option Nat) (hm : ∀ x : Drop, m (x.withRx kind b) = m x) (h : Guards F d m z c) : Guards F d m z (c.setRxOpen d kind b) :=
  h.onD hm
theorem loseRx (hF : F.all Fld.dropWord = true) (k : Clock) (kind : Nat) (hm : ∀ x : Drop, m (x.withRx kind none) = m x) (h : Guards F d m z c) :
    Guards F d m z (c.loseRx k d kind) := by
  unfold Chip.loseRx
  extract_lets a
  have ha : Guards F d m z a := h.setRxOpen kind none hm
  refine ite ?_ h
  split
  next q hq =>
    have hi : q < 4096 := Flow.rxQueue_row hq
    extract_lets had skip b
    have hb : Guards F d m z b := ite (ha.qRewind hF k kind d hi) (ite ha (ha.calm hF (.qRewound k q hi (.refl _))))
    exact hb.beside rfl rfl
  next => exact ha
theorem stopTx (hF : F.all Fld.dropWord = true) (k : Clock) (hm : ∀ (x : Drop) a b e, m { x with txMch := a, txMbk := b, txSns := e } = m x)
    (h : Guards F d m z c) : Guards F d m z (c.stopTx k d) := by
  unfold Chip.stopTx
  extract_lets x back
  have hback : ∀ a t, Guards F d m z a → Guards F d m z (back a t) := fun a t ha => ite (ha.qReturn hF k _) ha
  exact .onD (fun x => hm x {} {} {}) (hback _ _ (hback _ _ (hback _ _ h)))
theorem breakPacket (hm : ∀ (x : Drop) l i, m { x with pkt := l, pktItem := i } = m x) (h : Guards F d m z c) : Guards F d m z (c.breakPacket d) := by
  unfold Chip.breakPacket
  extract_lets a
  have ha : Guards F d m z a := by
    unfold a
    split
    · exact h.beside rfl rfl
    · exact h
  exact ha.onD fun x => hm x [] none
theorem endUp (hF : F.all Fld.dropWord = true) (k : Clock) (cause : Nat) (hm : ∀ (x : Drop) i, m { x with rxItem := i } = m x) (h : Guards F d m z c) :
    Guards F d m z (c.endUp k d cause) := by
  unfold Chip.endUp
  split
  · exact (h.onD fun x => hm x none).discardItem hF k _ cause
  · exact h

end Guards

/-- The words that the slot map's state is written to. -/
def slotWords : List Fld := [SLOTMAP.INUSE, SLOTMAP.STATE, SLOTMAP.GENLIVE, SLOTMAP.GENNEXT]

/-- The receiver that leaves SYNC leaves the words beside the slot map's state. -/
theorem Guards.leaveSync {F : List Fld} {d : Nat} {z c : Chip} (hF : F.all Fld.dropWord = true) (hl : slotWords.all (leaves F) = true) (k : Clock)
    (hd : d < 96) (h : Guards F d (fun _ => ()) z c) : Guards F d (fun _ => ()) z (c.leaveSync k d) := by
  unfold Chip.leaveSync
  extract_lets a b
  have ha : Guards F d (fun _ => ()) z a := .onD (fun _ => rfl) (.foldl _ h fun _ i hi => hi.loseRx hF k i fun _ => rfl)
  have hb : Guards F d (fun _ => ()) z b := .ite (ha.onD fun _ => rfl) ha
  exact hb.syncSlot hF hl hd

/-- The defects of a drop that no longer sends drop frames. -/
def endedDefs (n : Nat) : Nat := clearBits n [eLOS, eLOL, eLFD, eSNRLOW, eMODELOW]

/-- A drop that no longer sends drop frames. -/
structure LeftUp (F : List Fld) (d : Nat) (z c : Chip) : Prop extends Guards F d (fun _ => ()) z c where
  closing : (c.d d).closing = false
  defs : z.heath.status.wf = true → c.st DROPSTAT.DEF d = endedDefs (z.st DROPSTAT.DEF d) % 2 ^ 16

theorem leaveUp_spec (c : Chip) (k : Clock) {d : Nat} (hd : d < 96) {F : List Fld} (hF : F.all Fld.dropWord = true)
    (hl : (DROPSTAT.DEF :: DROPSTAT.CAUSE :: slotWords).all (leaves F) = true) : LeftUp F d c (c.leaveUp k d) := by
  simp only [List.all_cons, Bool.and_eq_true] at hl
  obtain ⟨hdef, hcause, hslot⟩ := hl
  have h₁ : ∀ {G : List Fld}, G.all Fld.dropWord = true → slotWords.all (leaves G) = true →
      Guards G d (fun _ => ()) c ((((c.stopTx k d).breakPacket d).endUp k d cNopath).leaveSync k d) := fun hG hlG =>
    .leaveSync hG hlG k hd (.endUp hG k _ (fun _ _ => rfl) (.breakPacket (fun _ _ _ => rfl) (.stopTx hG k (fun _ _ _ _ => rfl) (.refl c))))
  unfold leaveUp
  extract_lets a b
  have hclosing : (b.d d).closing = false := by
    unfold b
    rw [d_onD_same _ _ _ hd]
  have hstatus : b.heath = a.heath := rfl
  have ha : Guards F d (fun _ => ()) c a := h₁ hF hslot
  have hadef : Guards [DROPSTAT.DEF] d (fun _ => ()) c a := h₁ rfl rfl
  have hb : Guards F d (fun _ => ()) c b := ha.onD fun _ => rfl
  have hst : ∀ f r, b.st f r = a.st f r := fun _ _ => rfl
  clear_value b a
  refine { hb.setDropDefs hF hdef hcause k hd _ with closing := ?_, defs := fun hw => ?_ }
  · rw [d_of_drop (setDropDefs_drop b k hd _)]
    exact hclosing
  · rw [setDropDefs_def b k hd _ (hb.wf hw), hst, hadef.st_eq hw rfl (by omega)]
    rfl

/-! ### LOF -/

theorem Guards.raiseLof {β : Type} {F : List Fld} {d : Nat} {m : Drop → β} {z c : Chip} (hF : F.all Fld.dropWord = true)
    (hl : [DROPSTAT.LOFEVT, DROPSTAT.DEF, DROPSTAT.CAUSE].all (leaves F) = true) (k : Clock) (hd : d < 96)
    (hm : ∀ (x : Drop) a b e, m { x with lofSince := a, lofSec := b, errSec := e } = m x) (h : Guards F d m z c) :
    Guards F d m z (c.raiseLof k d) := by
  simp only [List.all_cons, List.all_nil, Bool.and_true, Bool.and_eq_true] at hl
  obtain ⟨hevt, hdef, hcause⟩ := hl
  unfold Chip.raiseLof
  have hcount : Guards F d m z (c.countUp DROPSTAT.LOFEVT d 1) := ite (h.addSt hF _ hevt (by omega)) h
  exact ite h ((hcount.onD fun x => hm x _ _ _).setDropDefs hF hdef hcause k hd _)
theorem raiseLof_def (c : Chip) (k : Clock) {d : Nat} (hd : d < 96) (hw : c.heath.status.wf = true) : (c.raiseLof k d).dropDef d eLOF = true := by
  unfold raiseLof
  split
  next h => exact h
  next =>
    have hcount : Guards [] d (fun _ => ()) c (c.countUp DROPSTAT.LOFEVT d 1) := .ite (.addSt rfl _ rfl (by omega) (.refl c)) (.refl c)
    have hwc := hcount.wf hw
    generalize c.countUp DROPSTAT.LOFEVT d 1 = a at hwc
    rw [dropDef_setDropDef _ k hd _ _ (by exact hwc) (by decide), if_pos rfl]

/-! ### Into WAIT and SILENT -/

/-- A failed attempt. -/
structure Failed (d : Nat) (z c : Chip) : Prop where
  ps : (c.d d).ps = .wait
  mode : (c.d d).mode = 0
  fail : c.dropDef d eTRFAIL = true
  fails : c.st DROPSTAT.TRFAILS d = wrapAdd DROPSTAT.TRFAILS.width (z.st DROPSTAT.TRFAILS d) 1

theorem trainFail_spec (c : Chip) (k : Clock) {d : Nat} (hd : d < 96) (hw : c.heath.status.wf = true) : Failed d c (c.trainFail k d) := by
  unfold trainFail
  extract_lets a
  have ha : Guards [DROPSTAT.TRFAILS] d (fun _ => ()) c a := (c.leaveUp_spec k hd rfl rfl).onD fun _ => rfl
  have hmode : (a.d d).mode = 0 := by
    unfold a
    rw [d_onD_same _ _ _ hd]
  clear_value a
  have hb : Guards [DROPSTAT.TRFAILS] d (fun _ => ()) c (a.setPs k d .wait) := ha.setPs rfl rfl rfl k hd _ fun _ => rfl
  have hown := a.setPs_d k hd .wait
  generalize a.setPs k d .wait = b at hb hown
  have hcount := st_addSt_same b DROPSTAT.TRFAILS d 1 (hb.wf hw) (by decide)
  have hwe : (b.addSt DROPSTAT.TRFAILS d 1).heath.status.wf = true := setSt_wf _ _ _ _ (hb.wf hw)
  have hdrop := addSt_drop b DROPSTAT.TRFAILS d 1
  generalize b.addSt DROPSTAT.TRFAILS d 1 = e at hcount hwe hdrop
  have hfin : (e.setDropDef k d eTRFAIL true).d d = (a.d d).inState .wait :=
    (d_of_drop ((setDropDefs_drop e k hd _).trans hdrop) d).trans hown
  have hg : Guards [DROPSTAT.TRFAILS] d (fun _ => ()) e (e.setDropDef k d eTRFAIL true) := .setDropDefs rfl rfl rfl k hd _ (.refl e)
  refine ⟨by rw [hfin]; rfl, by rw [hfin]; exact hmode, ?_, ?_⟩
  · exact (dropDef_setDropDef e k hd _ _ hwe (by decide)).trans (if_pos rfl)
  · rw [hg.st_eq hwe rfl (by omega), hcount, hb.st_eq hw rfl (by omega), wrapAdd_eq]

/-- A training attempt that begins. -/
structure Silenced (d : Nat) (z c : Chip) : Prop where
  ps : (c.d d).ps = .silent
  age : (c.d d).age = 0
  mode : (c.d d).mode = 0
  lof : c.dropDef d eLOF = true
  trains : c.st DROPSTAT.TRAINS d = wrapAdd DROPSTAT.TRAINS.width (z.st DROPSTAT.TRAINS d) 1

theorem enterSilent_spec (c : Chip) (k : Clock) {d : Nat} (hd : d < 96) (hw : c.heath.status.wf = true) : Silenced d c (c.enterSilent k d) := by
  unfold enterSilent
  extract_lets cap a e
  have ha : Guards [DROPSTAT.TRAINS] d (fun _ => ()) c a := (c.leaveUp_spec k hd rfl rfl).onD fun _ => rfl
  have hmode : (a.d d).mode = 0 := by
    unfold a
    rw [d_onD_same _ _ _ hd]
  clear_value a
  have hb : Guards [DROPSTAT.TRAINS] d (fun _ => ()) c (a.setPs k d .silent) := ha.setPs rfl rfl rfl k hd _ fun _ => rfl
  have hown := a.setPs_d k hd .silent
  unfold e
  generalize a.setPs k d .silent = b at hb hown
  have hcount := st_addSt_same b DROPSTAT.TRAINS d 1 (hb.wf hw) (by decide)
  have hwe : (b.addSt DROPSTAT.TRAINS d 1).heath.status.wf = true := setSt_wf _ _ _ _ (hb.wf hw)
  have hdrop := addSt_drop b DROPSTAT.TRAINS d 1
  generalize b.addSt DROPSTAT.TRAINS d 1 = f at hcount hwe hdrop
  have hg : Guards [DROPSTAT.TRAINS] d (fun x => (x.ps, x.age, x.mode)) f ((f.cause k .drop d (2 ^ 30)).raiseLof k d) :=
    .raiseLof rfl rfl k hd (fun _ _ _ _ => rfl) (.cause rfl k _ rfl (by omega) (.refl f))
  have hfin := hg.own
  rw [d_of_drop hdrop d, hown] at hfin
  simp only [Drop.inState, Prod.mk.injEq] at hfin
  obtain ⟨hps, hage, hm⟩ := hfin
  refine ⟨hps, hage, hm.trans hmode, raiseLof_def _ k hd (cause_wf _ _ _ _ _ hwe), ?_⟩
  rw [hg.st_eq hwe rfl (by omega), hcount, hb.st_eq hw rfl (by omega), wrapAdd_eq]

/-! ### Into UP -/

theorem setDropDefs_cause (c : Chip) (k : Clock) {d : Nat} (hd : d < 96) (new : Nat) {n : Nat} (hw : c.heath.status.wf = true)
    (h : c.hasCause .drop d n) : (c.setDropDefs k d new).hasCause .drop d n := by
  have hset : (c.setSt DROPSTAT.DEF d new).hasCause .drop d n := hasCause_setSt _ hw rfl rfl (by omega) (by omega) (.inr (.inr rfl)) h
  have hws : (c.setSt DROPSTAT.DEF d new).heath.status.wf = true := setSt_wf _ _ _ _ hw
  unfold setDropDefs
  generalize c.setSt DROPSTAT.DEF d new = a at hset hws
  dsimp only
  have hmark : (a.causeIf k .drop d (changed (c.st DROPSTAT.DEF d) new)).hasCause .drop d n := by
    unfold causeIf
    split
    · exact hset
    · exact hasCause_mono k .drop d _ hws rfl hset
  have hwm : (a.causeIf k .drop d (changed (c.st DROPSTAT.DEF d) new)).heath.status.wf = true :=
    (Guards.causeIf (F := []) (d := d) (m := id) rfl k _ rfl (by omega) (.refl a)).wf hws
  have hg : Guards [DROPSTAT.CAUSE] d id (a.causeIf k .drop d (changed (c.st DROPSTAT.DEF d) new))
      ((a.causeIf k .drop d (changed (c.st DROPSTAT.DEF d) new)).syncDropSrc k d) := .syncDropSrc rfl k hd (.refl _)
  exact (congrArg (Nat.testBit · n) (hg.st_eq hwm rfl (by omega))).trans hmark

/-- A drop that comes up. -/
structure CameUp (d : Nat) (z c : Chip) : Prop where
  ps : (c.d d).ps = .up
  age : (c.d d).age = 0
  mode : (c.d d).mode = (z.d d).mode
  pstate : c.st DROPSTAT.PSTATE d = 7
  cause : c.hasCause .drop d 31
  fail : c.dropDef d eTRFAIL = false
  low : c.dropDef d eMODELOW = decide ((z.d d).mode < z.lv DROP.MODE d)

theorem enterUp_spec (c : Chip) (k : Clock) {d : Nat} (hd : d < 96) (hw : c.heath.status.wf = true) : CameUp d c (c.enterUp k d) := by
  unfold enterUp
  extract_lets a e
  have ha : Guards [] d Drop.mode c a := (Guards.refl c).onD fun _ => rfl
  clear_value a
  have hb : Guards [] d Drop.mode c (a.setPs k d .up) := ha.setPs rfl rfl rfl k hd _ fun _ => rfl
  have hown := a.setPs_d k hd .up
  have hps := a.setPs_pstate k hd .up (ha.wf hw)
  have he : e = (a.setPs k d .up).cause k .drop d (2 ^ 31) := rfl
  clear_value e
  generalize a.setPs k d .up = b at hb hown hps he
  have hcause : e.hasCause .drop d 31 := by
    rw [he]
    exact hasCause_cause .drop _ _ _ (hb.wf hw) rfl (by decide) (by decide)
  have hgb : Guards [DROPSTAT.PSTATE] d id b e := by
    rw [he]
    exact .cause rfl k _ rfl (by omega) (.refl b)
  have hmode : (e.d d).mode = (c.d d).mode := (congrArg Drop.mode hgb.own).trans hb.own
  have hlv : e.lv DROP.MODE d = c.lv DROP.MODE d := (hgb.lv_eq _ _).trans (hb.lv_eq _ _)
  have hwe := hgb.wf (hb.wf hw)
  rw [hmode, hlv]
  generalize hnew : setBit (setBit (e.st DROPSTAT.DEF d) eTRFAIL false) eMODELOW (decide ((c.d d).mode < c.lv DROP.MODE d)) = new
  have hfin : (e.setDropDefs k d new).d d = (a.d d).inState .up :=
    (d_of_drop (setDropDefs_drop e k hd new) d).trans (hgb.own.trans hown)
  have hg : Guards [DROPSTAT.PSTATE] d id e (e.setDropDefs k d new) := .setDropDefs rfl rfl rfl k hd _ (.refl e)
  refine ⟨by rw [hfin]; rfl, by rw [hfin]; rfl, by rw [hfin]; exact ha.own, ?_, setDropDefs_cause e k hd _ hwe hcause, ?_, ?_⟩
  · exact (hg.st_eq hwe rfl (by omega)).trans ((hgb.st_eq (hb.wf hw) rfl (by omega)).trans hps)
  · rw [dropDef_setDropDefs e k hd _ hwe (by decide), ← hnew, has_setBit, has_setBit]
    rfl
  · rw [dropDef_setDropDefs e k hd _ hwe (by decide), ← hnew, has_setBit]
    exact if_pos rfl

/-! ### Into OFF -/

theorem has_endedDefs (n : Nat) : has (endedDefs n) eSMFLT = has n eSMFLT := by
  simp only [endedDefs, clearBits, List.foldl_cons, List.foldl_nil, has_setBit]
  rfl
theorem and_two_pow_of_has {a b n : Nat} (h : has a n = has b n) : a &&& 2 ^ n = b &&& 2 ^ n := by
  rw [Nat.and_two_pow, Nat.and_two_pow]
  exact congrArg (fun x : Bool => x.toNat * 2 ^ n) h

/-- The defects but SMFLT as the drop goes off. -/
structure SlotCleared (d : Nat) (z c : Chip) : Prop extends Guards [] d Drop.closing z c where
  smflt : z.heath.status.wf = true → c.dropDef d eSMFLT = z.dropDef d eSMFLT

theorem slotCleared (c : Chip) (k : Clock) {d : Nat} (hd : d < 96) :
    SlotCleared d c (((c.setSmmis k d false).setRange k d false).setXcon k d false) := by
  have h₁ : Guards [] d Drop.closing c (c.setSmmis k d false) := .setSlotDef rfl rfl k hd _ _ _ _ (.refl c)
  have e₁ := fun hw => dropDef_setSlotDef c k hd eSMMIS (f := SLOTMAP.SMMIS) rfl 32 32 false hw (i := eSMFLT) (by decide)
  unfold setSmmis at *
  generalize c.setSlotDef k d eSMMIS SLOTMAP.SMMIS 32 32 false = a at h₁ e₁
  have h₂ : Guards [] d Drop.closing c (a.setRange k d false) := .setSlotDef rfl rfl k hd _ _ _ _ h₁
  have e₂ := fun hw => dropDef_setSlotDef a k hd eRANGE (f := SLOTMAP.RANGE) rfl 128 128 false hw (i := eSMFLT) (by decide)
  unfold setRange at *
  generalize a.setSlotDef k d eRANGE SLOTMAP.RANGE 128 128 false = b at h₂ e₂
  have h₃ : Guards [] d Drop.closing c (b.setXcon k d false) := .setSlotDef rfl rfl k hd _ _ _ _ h₂
  have e₃ := fun hw => dropDef_setSlotDef b k hd eXCON (f := SLOTMAP.XCON) rfl 128 128 false hw (i := eSMFLT) (by decide)
  exact { h₃ with smflt := fun hw => (e₃ (h₂.wf hw)).trans ((e₂ (h₁.wf hw)).trans (e₁ hw)) }

/-- A drop that went off. -/
structure WentOff (d : Nat) (z c : Chip) : Prop where
  ps : (c.d d).ps = .off
  closing : (c.d d).closing = false
  pstate : c.st DROPSTAT.PSTATE d = 0
  defs : c.st DROPSTAT.DEF d = z.st DROPSTAT.DEF d &&& 2 ^ eSMFLT

theorem enterOff_spec (c : Chip) (k : Clock) {d : Nat} (hd : d < 96) (hw : c.heath.status.wf = true) : WentOff d c (c.enterOff k d) := by
  unfold enterOff
  extract_lets a b e f
  have hleft := c.leaveUp_spec (F := []) k hd rfl rfl
  have hclosing : (a.d d).closing = false := by
    unfold a
    rw [d_onD_same _ _ _ hd]
    exact hleft.closing
  have hsm : a.dropDef d eSMFLT = c.dropDef d eSMFLT := by
    refine (congrArg (has · eSMFLT) (hleft.defs hw)).trans ?_
    refine Eq.trans ?_ (has_endedDefs _)
    unfold has
    rw [Nat.testBit_mod_two_pow]
    rfl
  have hwa : a.heath.status.wf = true := hleft.wf hw
  clear_value a
  obtain ⟨hb, hbdef⟩ : SlotCleared d a b := slotCleared a k hd
  have hwb := hb.wf hwa
  replace hbdef := (hbdef hwa).trans hsm
  have hbclosing := hb.own.trans hclosing
  clear_value b
  have he : Guards [DROPSTAT.DEF] d Drop.closing b e := .setPs rfl rfl rfl k hd _ (fun _ => rfl) (.refl b)
  have hown : e.d d = (b.d d).inState .off := b.setPs_d k hd .off
  have hst : e.st DROPSTAT.PSTATE d = 0 := b.setPs_pstate k hd .off hwb
  have hwe := he.wf hwb
  clear_value e
  have hf : Guards [DROPSTAT.DEF, DROPSTAT.PSTATE] d id e f := .ite (.refl e) (.setSt rfl _ rfl (by omega) (.refl e))
  have hwf := hf.wf hwe
  have hdef : has (f.st DROPSTAT.DEF d) eSMFLT = has (c.st DROPSTAT.DEF d) eSMFLT :=
    (congrArg (has · eSMFLT) ((hf.st_eq hwe rfl (by omega)).trans (he.st_eq hwb rfl (by omega)))).trans hbdef
  rw [and_two_pow_of_has hdef]
  generalize hnew : c.st DROPSTAT.DEF d &&& 2 ^ eSMFLT = new
  have hlt : new < 2 ^ 16 := by
    rw [← hnew]
    exact lt_of_le_of_lt Nat.and_le_right (by decide)
  have hfin : (f.setDropDefs k d new).d d = (b.d d).inState .off := (d_of_drop (setDropDefs_drop f k hd new) d).trans (hf.own.trans hown)
  have hg : Guards [DROPSTAT.PSTATE] d id f (f.setDropDefs k d new) := .setDropDefs rfl rfl rfl k hd _ (.refl f)
  refine ⟨by rw [hfin]; rfl, by rw [hfin]; exact hbclosing, ?_, ?_⟩
  · exact (hg.st_eq hwf rfl (by omega)).trans ((hf.st_eq hwe rfl (by omega)).trans hst)
  · rw [setDropDefs_def f k hd new hwf, Nat.mod_eq_of_lt hlt, hnew]

/-! ### The items of a drop that goes off -/

/-- No item downstream in the part goes to drop `d`. -/
def NoneTo (d t : Nat) (c : Chip) : Prop := ∀ it ∈ (c.t t).dn, it.dest ≠ d

theorem qRecord_trib (c : Chip) (k : Clock) (i kind unit : Nat) (bs : List Byte) (e : Nat) : (c.qRecord k i kind unit bs e).1.trib = c.trib := by
  have hq : ∀ (a : Chip) f, (a.onQ i f).trib = a.trib := fun _ _ => rfl
  unfold qRecord
  split
  · rfl
  · split
    · rfl
    · unfold qDropped
      dsimp only
      rw [cause_trib, hq, addSt_trib]
theorem failRecord_trib (c : Chip) (k : Clock) (flag : Fld) (cause t : Nat) (up : Bool) (cell len : Nat) (stamp : Word) (e : Nat) :
    (c.failRecord k flag cause t up cell len stamp e).trib = c.trib := by
  unfold failRecord
  split
  · exact qRecord_trib ..
  · rfl
theorem discardItem_dn (c : Chip) (k : Clock) (it : Item) (cause t : Nat) : ((c.discardItem k it cause).t t).dn = (c.t t).dn := by
  have hcount : ((c.countDisc it.trib it.up cause).t t).dn = (c.t t).dn :=
    items_onT c it.trib _ (fun x => by split <;> rfl) (fun x => by split <;> rfl) t false
  have hfree := (((Freed.refl (c.countDisc it.trib it.up cause)).freeCells k it.up it.cells).retire it cause).trib
  have hall : (c.discardItem k it cause).trib = (c.countDisc it.trib it.up cause).trib := by
    unfold discardItem
    dsimp only
    split
    · exact (failRecord_trib ..).trans hfree
    · exact hfree
  exact (congrArg (fun v => (vget v t ({} : Trib)).dn) hall).trans hcount
theorem setItems_dn_other (c : Chip) {t r : Nat} (l : List Item) (h : r ≠ t) : ((c.setItems t false l).t r).dn = (c.t r).dn :=
  items_setItems_other c l (up' := false) fun e => h e.1
theorem disposeItems_dn (c : Chip) (k : Clock) (t r d : Nat) :
    ((c.disposeItems k t false fun it => it.dest == d).t r).dn = if r = t then (c.t r).dn.filter (fun it => !(it.dest == d)) else (c.t r).dn := by
  have hfold : ∀ (l : List Item) (a : Chip), ((l.foldl (fun c it => c.discardItem k it cDisabled) a).t r).dn = (a.t r).dn := by
    intro l
    induction l with
    | nil => exact fun _ => rfl
    | cons it l ih => exact fun a => (ih _).trans (a.discardItem_dn k it cDisabled r)
  have hitems : c.items t false = (c.t t).dn := rfl
  unfold disposeItems
  dsimp only
  rw [hitems]
  split
  next hnil =>
    split
    next e =>
      subst e
      refine (List.filter_eq_self.mpr fun it hit => ?_).symm
      simpa using List.filter_eq_nil_iff.mp hnil it hit
    next => rfl
  next =>
    rw [hfold]
    split
    next e =>
      subst e
      by_cases hr : r < 256
      · exact items_setItems c hr false _
      · have hout : c.t r = {} := by
          unfold t vget
          rw [Vector.getElem?_eq_none (by omega)]
          rfl
        have hout' : ∀ l, ((c.setItems r false l).t r).dn = (c.t r).dn := fun l => congrArg Trib.dn (vupd_out _ _ _ _ _ (by omega))
        rw [hout', hout]
        rfl
    next e => exact setItems_dn_other c _ e
theorem dropHeads_dn (k : Clock) (t r : Nat) (n : Nat) : ∀ c : Chip, ((c.dropHeads k t n).t r).dn <:+ (c.t r).dn := by
  induction n with
  | zero => exact fun c => List.suffix_rfl
  | succ n ih =>
    intro c
    unfold dropHeads
    split
    next it l hl =>
      split
      next cause _ =>
        refine (ih _).trans ?_
        rw [discardItem_dn]
        by_cases hr : r = t
        · subst hr
          by_cases h256 : r < 256
          · have hset : ((c.setItems r false l).t r).dn = l := items_setItems c h256 false l
            rw [hset, hl]
            exact List.suffix_cons ..
          · have hout : ((c.setItems r false l).t r).dn = (c.t r).dn := congrArg Trib.dn (vupd_out _ _ _ _ _ (by omega))
            rw [hout]
        · rw [setItems_dn_other c l hr]
      next => exact List.suffix_rfl
    next => exact List.suffix_rfl
theorem NoneTo.disposed (c : Chip) (k : Clock) (d : Nat) : ∀ r, NoneTo d r ((c.disposeDrop k d).dropAllHeads k) := by
  have hdisp : ∀ r < 256, NoneTo d r (c.disposeDrop k d) := by
    refine (overN_each (P := NoneTo d) (fun _ => True) trivial (fun _ _ _ _ => trivial) (fun i _ a _ it hit => ?_) (fun i j _ a _ ha it hit => ?_)).2
    · rw [disposeItems_dn, if_pos rfl] at hit
      simpa using (List.mem_filter.mp hit).2
    · rw [disposeItems_dn] at hit
      split at hit
      · exact ha it (List.mem_filter.mp hit).1
      · exact ha it hit
  have hheads : ∀ r (a b : Chip), (a.t r).dn <:+ (b.t r).dn → NoneTo d r b → NoneTo d r a := fun r a b hs hb it hit => hb it (hs.subset hit)
  intro r
  by_cases hr : r < 256
  · unfold dropAllHeads
    refine (overN_each (P := fun _ _ => True) (NoneTo d r) (hdisp r hr) (fun i _ a ha => ?_) (fun _ _ _ _ => trivial) fun _ _ _ _ _ _ => trivial).1
    exact hheads r _ a (dropHeads_dn k i r _ a) ha
  · intro it hit
    unfold t vget at hit
    rw [Vector.getElem?_eq_none (by omega)] at hit
    exact absurd hit List.not_mem_nil

namespace Guards
variable {β : Type} {F : List Fld} {d : Nat} {m : Drop → β} {z c : Chip}

theorem disposeDrop (hF : F.all Fld.dropWord = true) (k : Clock) (e : Nat) (h : Guards F d m z c) : Guards F d m z (c.disposeDrop k e) := by
  refine h.overN 256 fun t a ha => ?_
  unfold Chip.disposeItems
  exact ite ha (foldl _ (ha.beside rfl rfl) fun _ it hb => hb.discardItem hF k it _)
theorem dropHeads (hF : F.all Fld.dropWord = true) (k : Clock) (t n : Nat) : ∀ {c : Chip}, Guards F d m z c → Guards F d m z (c.dropHeads k t n) := by
  induction n with
  | zero => exact fun h => h
  | succ n ih =>
    intro c h
    unfold Chip.dropHeads
    split
    · split
      · exact ih (.discardItem hF k _ _ (h.beside rfl rfl))
      · exact h
    · exact h
theorem dropAllHeads (hF : F.all Fld.dropWord = true) (k : Clock) (h : Guards F d m z c) : Guards F d m z (c.dropAllHeads k) :=
  h.overN 256 fun _ _ ha => ha.dropHeads hF k _ _

end Guards

namespace Flow
variable {D : Nat → Prop} {z c : Chip} {d : Nat}

theorem dropAllHeads (k : Clock) (h : Flow D z c) : Flow D z (c.dropAllHeads k) := h.overN 256 fun _ _ _ ha => ha.dropHeads k _ _
theorem disposeDrop (k : Clock) (e : Nat) (h : Flow D z c) : Flow D z (c.disposeDrop k e) := by
  refine h.overN 256 fun t _ a ha => ?_
  unfold Chip.disposeItems
  exact ite ha (foldl _ (ha.setItems t false _) fun _ it _ hb => hb.discardItem k it _)
theorem enterUp (k : Clock) (hD : D d) (hd : d < 96) (h : Flow D z c) : Flow D z (c.enterUp k d) := by
  unfold Chip.enterUp
  exact .setDropDefs k d _ hD hd (.cause k .drop _ _ rfl (by omega) (.setPs k d _ hD hd (.onD d _ hD h)))
theorem enterOff (k : Clock) (hD : D d) (hd : d < 96) (h : Flow D z c) : Flow D z (c.enterOff k d) := by
  unfold Chip.enterOff
  extract_lets a b e f
  have hb : Flow D z b := .setSlotDef k hD hd _ rfl _ _ _ (.setSlotDef k hD hd _ rfl _ _ _ (.setSlotDef k hD hd _ rfl _ _ _
    (.onD d _ hD (h.leaveUp k d hD hd))))
  have he : Flow D z e := .setPs k d _ hD hd hb
  exact .setDropDefs k d _ hD hd (.ite he (.setSt _ _ _ rfl (by omega) he))

end Flow
end Chip

/-! ### The commands -/

theorem dropUp_spec (d : Fin 96) (s : State) (hs : s.serving) (hsh : s.chip.shaded = false) (hi : s.clk.idx = 0)
    (hps : (s.chip.d d.val).ps = .select) (haw : (s.chip.d d.val).awaiting = true) (hrx : (s.chip.d d.val).rx = .sync) :
    ∃ t, exec (.dropUp d) s = .next t ∧ s.OnlyDrop t d.val ∧ CameUp d.val s.chip t.chip := by
  have hexec : exec (.dropUp d) s = .next { s with chip := s.chip.enterUp s.clk d.val } :=
    congrArg Host.Outcome.next ((hs.actBoundary _ hi).trans (congrArg _ (if_pos (by simp [hsh, hps, haw, hrx]))))
  exact ⟨_, hexec, State.onlyDrop_of_flow (Flow.enterUp (D := (· = d.val)) _ rfl d.isLt (.refl _)), enterUp_spec _ _ d.isLt hs.wf⟩
theorem syncTimeout_spec (d : Fin 96) (s : State) (hs : s.serving) (hsh : s.chip.shaded = false) (hi : s.clk.idx = 0)
    (hps : (s.chip.d d.val).ps = .select) (haw : (s.chip.d d.val).awaiting = true) (hrx : (s.chip.d d.val).rx ≠ .sync)
    (hage : 64 ≤ (s.chip.d d.val).age) : ∃ t, exec (.syncTimeout d) s = .next t ∧ s.OnlyDrop t d.val ∧ Failed d.val s.chip t.chip := by
  have hexec : exec (.syncTimeout d) s = .next { s with chip := s.chip.trainFail s.clk d.val } :=
    congrArg Host.Outcome.next ((hs.actBoundary _ hi).trans (congrArg _ (if_pos (by simp [hsh, hps, haw, hrx, hage]))))
  exact ⟨_, hexec, State.onlyDrop_of_flow (.trainFail _ _ rfl d.isLt (.refl _)), trainFail_spec _ _ d.isLt hs.wf⟩
theorem callTimeout_spec (d : Fin 96) (s : State) (hs : s.serving) (hsh : s.chip.shaded = false) (hi : s.clk.idx = 0)
    (hps : (s.chip.d d.val).ps = .call) (hage : 64 ≤ (s.chip.d d.val).age) (hans : (s.chip.d d.val).train.answers < 2) :
    ∃ t, exec (.callTimeout d) s = .next t ∧ s.OnlyDrop t d.val ∧ Failed d.val s.chip t.chip := by
  have hexec : exec (.callTimeout d) s = .next { s with chip := s.chip.trainFail s.clk d.val } :=
    congrArg Host.Outcome.next ((hs.actBoundary _ hi).trans (congrArg _ (if_pos (by simp [hsh, hps, hage, hans]))))
  exact ⟨_, hexec, State.onlyDrop_of_flow (.trainFail _ _ rfl d.isLt (.refl _)), trainFail_spec _ _ d.isLt hs.wf⟩
theorem retry_spec (d : Fin 96) (s : State) (hs : s.serving) (hsh : s.chip.shaded = false) (hi : s.clk.idx = 0)
    (hps : (s.chip.d d.val).ps = .wait) (hage : s.chip.lv DROP.RETRYGAP d.val ≤ (s.chip.d d.val).age) :
    ∃ t, exec (.retry d) s = .next t ∧ s.OnlyDrop t d.val ∧ Silenced d.val s.chip t.chip := by
  have hexec : exec (.retry d) s = .next { s with chip := s.chip.enterSilent s.clk d.val } :=
    congrArg Host.Outcome.next ((hs.actBoundary _ hi).trans (congrArg _ (if_pos (by simp [hsh, hps, hage]))))
  exact ⟨_, hexec, State.onlyDrop_of_flow (.enterSilent _ _ rfl d.isLt (.refl _)), enterSilent_spec _ _ d.isLt hs.wf⟩

theorem retrain_spec (d : Fin 96) (e : Nat) (s : State) (hs : s.serving) (hsh : s.chip.shaded = false) (hi : s.clk.idx = 0)
    (hps : (s.chip.d d.val).ps = .up) (hcl : (s.chip.d d.val).closing = false)
    (hdue : (s.chip.d d.val).retrain = some e ∧ e < s.clk.ticks ∨
      (s.chip.d d.val).lofSince = some e ∧ s.chip.lv DROP.LOFRT d.val ≠ 0 ∧ e + s.chip.lv DROP.LOFRT d.val * 8 * 125000 ≤ s.clk.pos) :
    ∃ t, exec (.retrain d) s = .next t ∧ s.OnlyDrop t d.val ∧ (t.chip.d d.val).ps = .silent ∧ (t.chip.d d.val).mode = 0 ∧
      t.chip.dropDef d.val eLOF = true := by
  have hexec : exec (.retrain d) s = .next { s with chip := (s.chip.enterSilent s.clk d.val).dropAllHeads s.clk } := by
    refine congrArg Host.Outcome.next ((hs.actBoundary _ hi).trans (congrArg _ (if_pos ?_)))
    rw [hsh, hps, hcl]
    rcases hdue with ⟨hr, hlt⟩ | ⟨hl, hne, hle⟩
    · rw [hr]
      simp [hlt]
    · rw [hl]
      simp [hne, hle, Config.tickCycles]
  have hflow := Flow.enterSilent (D := (· = d.val)) s.clk d.val rfl d.isLt (.refl s.chip)
  obtain ⟨hsil, -, hmode, hlof, -⟩ := enterSilent_spec s.chip s.clk d.isLt hs.wf
  generalize s.chip.enterSilent s.clk d.val = c at hexec hflow hsil hmode hlof
  have hg : Guards [DROPSTAT.DEF] d.val id c (c.dropAllHeads s.clk) := .dropAllHeads rfl _ (.refl c)
  have hown : (c.dropAllHeads s.clk).d d.val = c.d d.val := hg.own
  have hst : (c.dropAllHeads s.clk).st DROPSTAT.DEF d.val = c.st DROPSTAT.DEF d.val := hg.st_eq (hflow.wf hs.wf) rfl (by omega)
  have hflow' : Flow (· = d.val) s.chip (c.dropAllHeads s.clk) := hflow.dropAllHeads _
  generalize c.dropAllHeads s.clk = e at hexec hg hown hst hflow'
  exact ⟨_, hexec, State.onlyDrop_of_flow hflow', (congrArg Drop.ps hown).trans hsil, (congrArg Drop.mode hown).trans hmode,
    (congrArg (has · eLOF) hst).trans hlof⟩

theorem dropOff_spec (d : Fin 96) (s : State) (hs : s.serving) (hi : s.clk.idx = 0) (hcl : (s.chip.d d.val).closing = true)
    (hage : 1 ≤ (s.chip.d d.val).age) :
    ∃ t, exec (.dropOff d) s = .next t ∧ s.OnlyDrop t d.val ∧ (t.chip.d d.val).ps = .off ∧ (t.chip.d d.val).closing = false ∧
      t.chip.st DROPSTAT.PSTATE d.val = 0 ∧ t.chip.st DROPSTAT.DEF d.val = s.chip.st DROPSTAT.DEF d.val &&& 2 ^ eSMFLT ∧
      ∀ r, ∀ it ∈ (t.chip.t r).dn, it.dest ≠ d.val := by
  have hexec : exec (.dropOff d) s = .next { s with chip := ((s.chip.enterOff s.clk d.val).disposeDrop s.clk d.val).dropAllHeads s.clk } :=
    congrArg Host.Outcome.next ((hs.actBoundary _ hi).trans (congrArg _ (if_pos (by simp [hcl, hage]))))
  have hflow := Flow.enterOff (D := (· = d.val)) s.clk rfl d.isLt (.refl s.chip)
  obtain ⟨hps, hclosing, hpst, hdefs⟩ := enterOff_spec s.chip s.clk d.isLt hs.wf
  generalize s.chip.enterOff s.clk d.val = c at hexec hflow hps hclosing hpst hdefs
  have hg : Guards [DROPSTAT.DEF, DROPSTAT.PSTATE] d.val id c ((c.disposeDrop s.clk d.val).dropAllHeads s.clk) :=
    .dropAllHeads rfl _ (.disposeDrop rfl _ _ (.refl c))
  have hown : ((c.disposeDrop s.clk d.val).dropAllHeads s.clk).d d.val = c.d d.val := hg.own
  have hwc := hflow.wf hs.wf
  have hst : ∀ f, [DROPSTAT.DEF, DROPSTAT.PSTATE].contains f = true → ((c.disposeDrop s.clk d.val).dropAllHeads s.clk).st f d.val = c.st f d.val :=
    fun f hf => hg.st_eq hwc hf (by omega)
  have hnone := NoneTo.disposed c s.clk d.val
  have hflow' : Flow (· = d.val) s.chip ((c.disposeDrop s.clk d.val).dropAllHeads s.clk) := (hflow.disposeDrop _ _).dropAllHeads _
  generalize (c.disposeDrop s.clk d.val).dropAllHeads s.clk = e at hexec hg hown hst hnone hflow'
  exact ⟨_, hexec, State.onlyDrop_of_flow hflow', (congrArg Drop.ps hown).trans hps, (congrArg Drop.closing hown).trans hclosing,
    (hst _ rfl).trans hpst, (hst _ rfl).trans hdefs, hnone⟩

/-- Settles O44: a drop comes up, fails, tries again or goes off at a boundary, with its defects and counters. -/
theorem trainingEnds : Obligations.TrainingEnds := by
  refine ⟨fun d s hs hsh hi hps haw => ⟨fun hrx => ?_, fun hrx hage => ?_⟩, fun d s hs hsh hi => ⟨fun hps hage hans => ?_, fun hps hage => ?_,
    fun hps hage => ?_, fun hps hage => ?_, fun e hps hcl hdue => retrain_spec d e s hs hsh hi hps hcl hdue, dropOff_spec d s hs hi⟩⟩
  · obtain ⟨t, hexec, honly, h⟩ := dropUp_spec d s hs hsh hi hps haw hrx
    exact ⟨t, hexec, honly, h.ps, h.age, h.mode, h.pstate, h.cause, h.fail, h.low⟩
  · obtain ⟨t, hexec, honly, h⟩ := syncTimeout_spec d s hs hsh hi hps haw hrx hage
    exact ⟨t, hexec, honly, h.ps, h.mode, h.fail, h.fails⟩
  · obtain ⟨t, hexec, honly, h⟩ := callTimeout_spec d s hs hsh hi hps hage hans
    exact ⟨t, hexec, honly, h.ps, h.fail, h.fails⟩
  · exact congrArg Host.Outcome.next (State.actBoundary_same (if_neg (by simp [hage])))
  · obtain ⟨t, hexec, honly, h⟩ := retry_spec d s hs hsh hi hps hage
    exact ⟨t, hexec, honly, h.ps, h.age, h.lof, h.trains⟩
  · exact congrArg Host.Outcome.next (State.actBoundary_same (if_neg (by simp [hage])))

end Sys2Proof.Machine
end

section
/-! PROOFS. The upstream header of a drop frame (R172 to R174, R177, R188, R192, R193, R199, R200). -/

namespace Sys2Proof.Machine
open Sys2Proof Chip

namespace Chip

/-! ### What the fields of a header leave -/

/-- From `z` to `c` only drop `d` moves; its alignment stays, and so do LOF and the words that `F` names. -/
structure Hears (F : List Fld) (d : Nat) (z c : Chip) : Prop extends Guards F d Drop.rx z c where
  flow : Flow (· = d) z c
  lof : z.heath.status.wf = true → c.dropDef d eLOF = z.dropDef d eLOF

namespace Hears
variable {F : List Fld} {d : Nat} {z c : Chip}

theorem refl (z : Chip) : Hears F d z z := { Guards.refl z with flow := .refl z, lof := fun _ => rfl }
theorem trans {a : Chip} (h : Hears F d z c) (g : Hears F d c a) : Hears F d z a :=
  { h.toGuards.trans g.toGuards with flow := h.flow.trans g.flow, lof := fun hw => (g.lof (h.wf hw)).trans (h.lof hw) }
theorem ite {a b : Chip} {p : Prop} [Decidable p] (ha : Hears F d z a) (hb : Hears F d z b) : Hears F d z (if p then a else b) := by
  split <;> assumption
theorem onD {f : Drop → Drop} (hf : ∀ x, (f x).rx = x.rx) (h : Hears F d z c) : Hears F d z (c.onD d f) :=
  { h.toGuards.onD hf with flow := h.flow.onD d f rfl, lof := h.lof }
/-- A step that leaves the defects. -/
theorem step {a : Chip} (h : Hears F d z c) (hg : ∀ G : List Fld, G = F ∨ G = [DROPSTAT.DEF] →
    Guards G d Drop.rx c a) (hflow : Flow (· = d) c a) (hd : d < 96) : Hears F d z a :=
  h.trans { hg F (.inl rfl) with
    flow := hflow, lof := fun hw => congrArg (has · eLOF) ((hg _ (.inr rfl)).st_eq hw rfl (by omega)) }
theorem setSt (hF : F.all Fld.dropWord = true) (hd : d < 96) {f : Fld} {r : Nat} (v : Nat) (hf : leaves F f = true) (hf' : leaves [DROPSTAT.DEF] f = true)
    (hm : f.moving = true) (hr : r < 4096) (h : Hears F d z c) : Hears F d z (c.setSt f r v) := by
  refine h.step (fun G hG => ?_) (.setSt _ _ _ hm hr (.refl c)) hd
  rcases hG with rfl | rfl
  · exact .setSt hF _ hf hr (.refl c)
  · exact .setSt rfl _ hf' hr (.refl c)
theorem countUp (hF : F.all Fld.dropWord = true) (hd : d < 96) {f : Fld} (n : Nat) (hf : leaves F f = true) (hf' : leaves [DROPSTAT.DEF] f = true)
    (hm : f.moving = true) (h : Hears F d z c) : Hears F d z (c.countUp f d n) := by
  unfold Chip.countUp Chip.addSt
  exact ite (h.setSt hF hd _ hf hf' hm (by omega)) h
theorem slotCause (hF : F.all Fld.dropWord = true) (hd : d < 96) (k : Clock) (bits : Nat) (hf : leaves F SLOTMAP.CAUSE = true) (h : Hears F d z c) :
    Hears F d z (c.slotCause k d bits) := by
  refine h.step (fun G hG => ?_) (.cause k .slot _ _ rfl (by omega) (.refl c)) hd
  rcases hG with rfl | rfl
  · exact .cause hF k _ hf (by omega) (.refl c)
  · exact .cause rfl k _ rfl (by omega) (.refl c)
theorem syncSlot (hF : F.all Fld.dropWord = true) (hd : d < 96) (hf : slotWords.all (leaves F) = true) (h : Hears F d z c) : Hears F d z (c.syncSlot d) := by
  refine h.step (fun G hG => ?_) (.syncSlot d hd (.refl c)) hd
  rcases hG with rfl | rfl
  · exact .syncSlot hF hf hd (.refl c)
  · exact .syncSlot rfl rfl hd (.refl c)
theorem loseRx (hF : F.all Fld.dropWord = true) (hd : d < 96) (k : Clock) (kind : Nat) (h : Hears F d z c) : Hears F d z (c.loseRx k d kind) := by
  have hrx : ∀ x : Drop, (x.withRx kind none).rx = x.rx := fun x => by unfold Drop.withRx; split <;> rfl
  refine h.step (fun G hG => ?_) (.loseRx k d kind rfl hd (.refl c)) hd
  rcases hG with rfl | rfl
  · exact .loseRx hF k kind hrx (.refl c)
  · exact .loseRx rfl k kind hrx (.refl c)
/-- A defect other than LOF. -/
theorem setDropDef (hF : F.all Fld.dropWord = true) (hd : d < 96) (k : Clock) {n : Nat} (b : Bool) (hn : eLOF ≠ n)
    (hf : [DROPSTAT.DEF, DROPSTAT.CAUSE].all (leaves F) = true) (h : Hears F d z c) : Hears F d z (c.setDropDef k d n b) := by
  simp only [List.all_cons, List.all_nil, Bool.and_true, Bool.and_eq_true] at hf
  exact h.trans { Guards.setDropDefs hF hf.1 hf.2 k hd _ (.refl c) with
    flow := .setDropDef k d n b rfl hd (.refl c), lof := fun hw => (dropDef_setDropDef c k hd n b hw (by decide)).trans (if_neg hn) }
theorem setSlotDef (hF : F.all Fld.dropWord = true) (hd : d < 96) (k : Clock) {n : Nat} {f : Fld} (on off : Nat) (b : Bool) (hn : eLOF ≠ n)
    (hl : [f, DROPSTAT.DEF, DROPSTAT.CAUSE, SLOTMAP.CAUSE].all (leaves F) = true) (hf : leaves [DROPSTAT.DEF] f = true) (hm : f.moving = true)
    (h : Hears F d z c) : Hears F d z (c.setSlotDef k d n f on off b) :=
  h.trans { Guards.setSlotDef hF hl k hd n on off b (.refl c) with
    flow := Flow.setSlotDef (D := (· = d)) k rfl hd n hm on off b (.refl c)
    lof := fun hw => (dropDef_setSlotDef c k hd n hf on off b hw (by decide)).trans (if_neg hn) }

end Hears

/-! ### The fields of a good header, one after the other -/

/-- What the far end tells of its generations. -/
def farWords : List Fld := [SLOTMAP.FELIVE, SLOTMAP.FEECHO, SLOTMAP.FESTORED]

/-- A header's own words: parity, counters, the far end's generations. -/
def headWords (c : Chip) (k : Clock) (d : Nat) (was : Hunt) (h : UpHeader) : Chip :=
  let b := h.bytes
  let echo := beField b 8 11
  let rei := reiOf (c.d d) was h
  let c := (c.loseGone k d echo).onD d (fun x => { x with
    rei := rei, errSec := x.errSec || rei != 0, rxDark := some (echo, beField b 28 35), rxEcho := some echo
    badEchos := x.badEchos.filter (fun e => e != echo) })
  let c := (c.countUp DROPSTAT.BIPERR d rei).countUp DROPSTAT.FEBIP d (byteAt b 27 % 32)
  c.countUp DROPSTAT.UPDARKR d (ones 64 (beField b 28 35))
/-- The far end's generations. -/
def farGens (c : Chip) (d : Nat) (b : List Byte) : Chip :=
  ((c.setSt SLOTMAP.FELIVE (2 * d) (byteAt b 24)).setSt SLOTMAP.FEECHO (2 * d + 1) (byteAt b 25)).setSt SLOTMAP.FESTORED (2 * d + 1) (bit (byteAt b 26 == 1))
/-- RDIRX (R173). -/
def headRdi (c : Chip) (k : Clock) (d : Nat) (b : List Byte) : Chip :=
  let r := runDef (c.d d).rdi (has (byteAt b 27) 7) 2 (c.dropDef d eRDIRX)
  (c.onD d (fun x => { x with rdi := r.1 })).setDropDef k d eRDIRX r.2
/-- XCON (Table 7.11). -/
def headXcon (c : Chip) (k : Clock) (d : Nat) (b : List Byte) : Chip :=
  let r := runDef (c.d d).xcon (byteAt b 69 != d) 3 (c.dropDef d eXCON)
  (c.onD d (fun x => { x with xcon := r.1 })).setXcon k d r.2
/-- The echo of an offer (R188). -/
def headEcho (c : Chip) (k : Clock) (d : Nat) (b : List Byte) : Chip :=
  let x := c.d d
  if c.twin.role ≠ .shadow ∧ x.sm = .offered ∧ x.echoed = false ∧ byteAt b 26 = 1 ∧ byteAt b 25 = x.genNext then
    (c.onD d (fun x => { x with echoed := true, echoAt := k.edges })).slotCause k d 2 else c

theorem useHeader_eq (c : Chip) (k : Clock) (d : Nat) (was : Hunt) (h : UpHeader) : c.useHeader k d was h =
    ((((((c.headWords k d was h).farGens d h.bytes).headRdi k d h.bytes).headXcon k d h.bytes).headEcho k d h.bytes).checkSmlive k d (byteAt h.bytes 24)
      (beField h.bytes 8 11)).rangeHeader k d (beField h.bytes 8 11) h.ago (signed 16 (beField h.bytes 12 13)) := rfl

namespace Hears
variable {F : List Fld} {d : Nat} {z c : Chip}

theorem headWords (hd : d < 96) (k : Clock) (was : Hunt) (g : UpHeader) (h : Hears [] d z c) : Hears [] d z (c.headWords k d was g) := by
  unfold Chip.headWords Chip.loseGone
  extract_lets b echo rei a e
  have ha : Hears [] d z a := by
    refine .onD (fun _ => rfl) ?_
    have hone : ∀ (x : Chip) i, Hears [] d z x → Hears [] d z (match rxRun (x.d d) i with
        | some r => if hasRun (x.runsAt k d echo) true (kindType i) r then x else x.loseRx k d i
        | none => x) := fun x i hx => by
      split
      · exact ite hx (hx.loseRx rfl hd k i)
      · exact hx
    exact hone _ _ (hone _ _ (hone _ _ h))
  have he : Hears [] d z e := .countUp rfl hd _ rfl rfl rfl (.countUp rfl hd _ rfl rfl rfl ha)
  exact .countUp rfl hd _ rfl rfl rfl he
theorem farGens (hd : d < 96) (b : List Byte) (h : Hears [] d z c) : Hears [] d z (c.farGens d b) :=
  .setSt rfl hd _ rfl rfl rfl (by omega) (.setSt rfl hd _ rfl rfl rfl (by omega) (.setSt rfl hd _ rfl rfl rfl (by omega) h))
theorem headRdi (hd : d < 96) (k : Clock) (b : List Byte) (h : Hears farWords d z c) : Hears farWords d z (c.headRdi k d b) := by
  unfold Chip.headRdi
  exact .setDropDef rfl hd k _ (by decide) rfl (h.onD fun _ => rfl)
theorem headXcon (hd : d < 96) (k : Clock) (b : List Byte) (h : Hears farWords d z c) : Hears farWords d z (c.headXcon k d b) := by
  unfold Chip.headXcon Chip.setXcon
  exact .setSlotDef rfl hd k _ _ _ (by decide) rfl rfl rfl (h.onD fun _ => rfl)
theorem headEcho (hd : d < 96) (k : Clock) (b : List Byte) (h : Hears farWords d z c) : Hears farWords d z (c.headEcho k d b) := by
  unfold Chip.headEcho
  exact ite (.slotCause rfl hd k _ rfl (h.onD fun _ => rfl)) h
theorem reOffer (hd : d < 96) (k : Clock) (h : Hears farWords d z c) : Hears farWords d z (c.reOffer k d) := by
  unfold Chip.reOffer
  exact .slotCause rfl hd k _ rfl (.syncSlot rfl hd rfl (h.onD fun _ => rfl))
theorem checkSmlive (hd : d < 96) (k : Clock) (live echo : Nat) (h : Hears farWords d z c) : Hears farWords d z (c.checkSmlive k d live echo) := by
  have hset : ∀ r now, Hears farWords d z ((c.onD d fun x => { x with smmis := r }).setSmmis k d now) := fun r now => by
    unfold Chip.setSmmis
    exact .setSlotDef rfl hd k _ _ _ (by decide) rfl rfl rfl (h.onD fun _ => rfl)
  unfold Chip.checkSmlive
  dsimp only
  exact ite (.reOffer hd k (hset _ _)) (hset _ _)
theorem rangeHeader (hd : d < 96) (k : Clock) (echo ago : Nat) (ofs : Int) (h : Hears farWords d z c) :
    Hears farWords d z (c.rangeHeader k d echo ago ofs) := by
  unfold Chip.rangeHeader
  extract_lets rtt valid asym one a b
  have ha : Hears farWords d z a := h.onD fun _ => rfl
  have hb : Hears farWords d z b := ite (.setSt rfl hd _ rfl rfl rfl (by omega) ha) ha
  unfold Chip.setRange
  exact .setSlotDef rfl hd k _ _ _ (by decide) rfl rfl rfl (hb.onD fun _ => rfl)

end Hears

theorem rangeHeader_delays (c : Chip) (k : Clock) {d : Nat} (hd : d < 96) (echo ago : Nat) (ofs : Int) :
    ((c.rangeHeader k d echo ago ofs).d d).delays.length ≤ 9 := by
  unfold rangeHeader
  extract_lets rtt valid asym one a b
  have ha : (a.d d).delays.length ≤ 9 := by
    unfold a
    rw [d_onD_same _ _ _ hd, List.length_cons, List.length_take]
    omega
  have hb : Guards [] d Drop.delays a b := .ite (.setSt rfl _ rfl (by omega) (.refl a)) (.refl a)
  unfold setRange
  have hfin : ∀ r now, Guards [] d Drop.delays a ((b.onD d fun x => { x with range := r }).setSlotDef k d eRANGE SLOTMAP.RANGE 128 128 now) :=
    fun r now => .setSlotDef rfl rfl k hd _ _ _ _ (hb.onD fun _ => rfl)
  dsimp only
  rw [(hfin _ _).own]
  exact ha
theorem farGens_st (c : Chip) {d : Nat} (hd : d < 96) (b : List Byte) (hw : c.heath.status.wf = true) :
    (c.farGens d b).st SLOTMAP.FELIVE (2 * d) = byteAt b 24 ∧ (c.farGens d b).st SLOTMAP.FEECHO (2 * d + 1) = byteAt b 25 ∧
      (c.farGens d b).st SLOTMAP.FESTORED (2 * d + 1) = bit (byteAt b 26 == 1) := by
  unfold farGens
  have h₁ := (st_setSt_same c SLOTMAP.FELIVE (2 * d) (byteAt b 24) hw (by decide)).trans (Nat.mod_eq_of_lt (byteAt_lt b 24))
  have hw₁ : (c.setSt SLOTMAP.FELIVE (2 * d) (byteAt b 24)).heath.status.wf = true := setSt_wf _ _ _ _ hw
  generalize c.setSt SLOTMAP.FELIVE (2 * d) (byteAt b 24) = x at h₁ hw₁
  have h₂ := (st_setSt_same x SLOTMAP.FEECHO (2 * d + 1) (byteAt b 25) hw₁ (by decide)).trans (Nat.mod_eq_of_lt (byteAt_lt b 25))
  have g₂ : Guards [SLOTMAP.FELIVE] d id x (x.setSt SLOTMAP.FEECHO (2 * d + 1) (byteAt b 25)) := .setSt rfl _ rfl (by omega) (.refl x)
  have hw₂ := g₂.wf hw₁
  generalize x.setSt SLOTMAP.FEECHO (2 * d + 1) (byteAt b 25) = y at h₂ g₂ hw₂
  have h₃ := (st_setSt_same y SLOTMAP.FESTORED (2 * d + 1) (bit (byteAt b 26 == 1)) hw₂ (by decide)).trans
    (Nat.mod_eq_of_lt (by unfold bit; split <;> decide))
  have g₃ : Guards [SLOTMAP.FELIVE, SLOTMAP.FEECHO] d id y (y.setSt SLOTMAP.FESTORED (2 * d + 1) (bit (byteAt b 26 == 1))) :=
    .setSt rfl _ rfl (by omega) (.refl y)
  exact ⟨(g₃.st_eq hw₂ rfl (by omega)).trans ((g₂.st_eq hw₁ rfl (by omega)).trans h₁), (g₃.st_eq hw₂ rfl (by omega)).trans h₂, h₃⟩

/-- What the use of a good header leaves. -/
structure Used (d : Nat) (b : List Byte) (z c : Chip) : Prop extends Hears [] d z c where
  felive : z.heath.status.wf = true → c.st SLOTMAP.FELIVE (2 * d) = byteAt b 24
  echo : z.heath.status.wf = true → c.st SLOTMAP.FEECHO (2 * d + 1) = byteAt b 25
  stored : z.heath.status.wf = true → c.st SLOTMAP.FESTORED (2 * d + 1) = bit (byteAt b 26 == 1)
  delays : (c.d d).delays.length ≤ 9

theorem Hears.weaken {F : List Fld} {d : Nat} {z c : Chip} (h : Hears F d z c) : Hears [] d z c :=
  { wf := h.wf, stat := fun _ _ _ hf => absurd hf.1 List.not_mem_nil, own := h.own, live := h.live, flow := h.flow, lof := h.lof }

theorem useHeader_spec (c : Chip) (k : Clock) {d : Nat} (hd : d < 96) (was : Hunt) (h : UpHeader) : Used d h.bytes c (c.useHeader k d was h) := by
  rw [useHeader_eq]
  have h₁ : Hears [] d c ((c.headWords k d was h).farGens d h.bytes) := .farGens hd _ (.headWords hd k was h (.refl c))
  have hst := fun hw => (c.headWords k d was h).farGens_st hd h.bytes hw
  have hwh := (Hears.headWords hd k was h (.refl c)).wf
  generalize (c.headWords k d was h).farGens d h.bytes = a at h₁ hst
  have h₂ : Hears farWords d a ((((a.headRdi k d h.bytes).headXcon k d h.bytes).headEcho k d h.bytes).checkSmlive k d (byteAt h.bytes 24)
      (beField h.bytes 8 11)) := .checkSmlive hd k _ _ (.headEcho hd k _ (.headXcon hd k _ (.headRdi hd k _ (.refl a))))
  generalize (((a.headRdi k d h.bytes).headXcon k d h.bytes).headEcho k d h.bytes).checkSmlive k d (byteAt h.bytes 24)
    (beField h.bytes 8 11) = b at h₂
  have h₃ : Hears farWords d a (b.rangeHeader k d (beField h.bytes 8 11) h.ago (signed 16 (beField h.bytes 12 13))) := .rangeHeader hd k _ _ _ h₂
  have hdel := b.rangeHeader_delays k hd (beField h.bytes 8 11) h.ago (signed 16 (beField h.bytes 12 13))
  generalize b.rangeHeader k d (beField h.bytes 8 11) h.ago (signed 16 (beField h.bytes 12 13)) = e at h₃ hdel
  exact { h₁.trans h₃.weaken with
    felive := fun hw => (h₃.st_eq (h₁.wf hw) rfl (by omega)).trans (hst (hwh hw)).1
    echo := fun hw => (h₃.st_eq (h₁.wf hw) rfl (by omega)).trans (hst (hwh hw)).2.1
    stored := fun hw => (h₃.st_eq (h₁.wf hw) rfl (by omega)).trans (hst (hwh hw)).2.2
    delays := hdel }

/-! ### The alignment word -/

/-- The receiver after a word that does not lose SYNC. -/
def moved (h : Hunt) (run : Nat) (x : Drop) : Drop := { x with rx := h, errRun := run, allSync := x.allSync && h == .sync }

theorem huntWord_moved {c : Chip} (k : Clock) {d errs run : Nat} {h : Hunt} (hword : (c.d d).rx.word (c.d d).errRun errs = (h, run, false))
    (hsync : ¬ ((c.d d).rx ≠ .sync ∧ h = .sync)) : c.huntWord k d errs = c.onD d (moved h run) := by
  unfold huntWord
  simp only [hword]
  rw [if_neg Bool.false_ne_true, if_neg hsync]
  rfl

/-- What the word that ends in SYNC, or that loses it, leaves. -/
structure Aligned (d : Nat) (h : Hunt) (lof : Bool) (z c : Chip) : Prop where
  flow : Flow (· = d) z c
  rx : (c.d d).rx = h
  lof : z.heath.status.wf = true → c.dropDef d eLOF = lof

theorem huntWord_found (c : Chip) (k : Clock) {d errs : Nat} (hd : d < 96) (hrx : (c.d d).rx = .presync) (he : errs ≤ 3) :
    Aligned d .sync false c (c.huntWord k d errs) := by
  have hword : (c.d d).rx.word (c.d d).errRun errs = (.sync, 0, false) := by
    rw [hrx]
    simp [Hunt.word, he]
  unfold huntWord
  simp only [hword]
  rw [if_neg Bool.false_ne_true, if_pos ⟨by rw [hrx]; decide, trivial⟩]
  have hflow : Flow (· = d) c ((c.onD d fun x => { x with rx := .sync, errRun := 0, allSync := x.allSync && Hunt.sync == .sync }).onD d fun x =>
      { x with lofSince := none, delays := [], rdi := {}, xcon := {}, smmis := {}, range := {} }) := .onD d _ rfl (.onD d _ rfl (.refl c))
  have hrx' : (((c.onD d fun x => { x with rx := .sync, errRun := 0, allSync := x.allSync && Hunt.sync == .sync }).onD d fun x =>
      { x with lofSince := none, delays := [], rdi := {}, xcon := {}, smmis := {}, range := {} }).d d).rx = .sync := by
    rw [d_onD_same _ _ _ hd, d_onD_same _ _ _ hd]
  generalize ((c.onD d fun x => { x with rx := .sync, errRun := 0, allSync := x.allSync && Hunt.sync == .sync }).onD d fun x =>
      { x with lofSince := none, delays := [], rdi := {}, xcon := {}, smmis := {}, range := {} }) = a at hflow hrx'
  refine ⟨.setDropDef k d _ _ rfl hd hflow, ?_, fun hw => (dropDef_setDropDef a k hd _ _ (hflow.wf hw) (by decide)).trans (if_pos rfl)⟩
  exact (congrArg Drop.rx (d_of_drop (setDropDefs_drop a k hd _) d)).trans hrx'
theorem leaveSync_rx (c : Chip) (k : Clock) {d : Nat} (hd : d < 96) : ((c.leaveSync k d).d d).rx = .hunt := by
  unfold leaveSync
  extract_lets a b
  have ha : (a.d d).rx = .hunt := by
    unfold a
    rw [d_onD_same _ _ _ hd]
  have hb : Guards [] d Drop.rx a b := .ite (.onD (fun _ => rfl) (.refl a)) (.refl a)
  exact ((hb.syncSlot rfl rfl hd).own).trans ha
theorem huntWord_lost (c : Chip) (k : Clock) {d errs : Nat} (hd : d < 96) (hrx : (c.d d).rx = .sync) (hrun : (c.d d).errRun = 3) (he : 3 < errs) :
    Aligned d .hunt true c (c.huntWord k d errs) := by
  have hword : (c.d d).rx.word (c.d d).errRun errs = (.hunt, 0, true) := by
    rw [hrx, hrun]
    simp [Hunt.word, Nat.not_le.mpr he]
  unfold huntWord
  simp only [hword]
  rw [if_pos trivial]
  have hflow : Flow (· = d) c (c.leaveSync k d) := .leaveSync k d rfl hd (.refl c)
  have hrx' := c.leaveSync_rx k hd
  generalize c.leaveSync k d = a at hflow hrx'
  have hg : Guards [] d Drop.rx a (a.raiseLof k d) := .raiseLof rfl rfl k hd (fun _ _ _ _ => rfl) (.refl a)
  exact ⟨.raiseLof k d rfl hd hflow, hg.own.trans hrx', fun hw => a.raiseLof_def k hd (hflow.wf hw)⟩

end Chip

/-! ### The command -/

/-- A good word in SYNC. -/
theorem huntWord_sync {d : Fin 96} {h : UpHeader} {s : State} (hrx : (s.chip.d d.val).rx = .sync) (he : ones 64 (beField h.bytes 0 7 ^^^ upFaw) ≤ 3) :
    s.chip.huntWord s.clk d.val (ones 64 (beField h.bytes 0 7 ^^^ upFaw)) = s.chip.onD d.val (moved .sync 0) := by
  refine huntWord_moved s.clk ?_ fun e => e.1 hrx
  rw [hrx]
  simp [Hunt.word, he]

section
variable {d : Fin 96} {h : UpHeader} {s : State} (hs : s.serving)
include hs

/-- A drop that receives frames. -/
theorem upstreamHeaderRx_exec (hh : s.chip.hearsFrames d.val = true) (hl : ¬ ((s.chip.d d.val).ps = .listen ∧ copper d.val = true)) :
    exec (.upstreamHeaderRx d h) s = .next { s with chip :=
      (let c := s.chip.huntWord s.clk d.val (ones 64 (beField h.bytes 0 7 ^^^ upFaw))
       if (c.d d.val).rx ≠ .sync then c
       else if goodHeader h.bytes then c.useHeader s.clk d.val (s.chip.d d.val).rx h
       else (c.countUp DROPSTAT.BADHDR d.val 1).onD d.val (badFrame (c.lineTick s.clk))) } := by
  refine congrArg Host.Outcome.next ((hs.act _).trans ?_)
  rw [headerRx, if_neg hl, frameHeader, if_neg (by rw [hh]; decide)]
/-- One whose receiver is not in SYNC after the word. -/
theorem upstreamHeaderRx_unaligned (hh : s.chip.hearsFrames d.val = true) (hl : ¬ ((s.chip.d d.val).ps = .listen ∧ copper d.val = true))
    (hrx : ((s.chip.huntWord s.clk d.val (ones 64 (beField h.bytes 0 7 ^^^ upFaw))).d d.val).rx ≠ .sync) :
    exec (.upstreamHeaderRx d h) s = .next { s with chip := s.chip.huntWord s.clk d.val (ones 64 (beField h.bytes 0 7 ^^^ upFaw)) } := by
  rw [upstreamHeaderRx_exec hs hh hl]
  dsimp only
  rw [if_pos hrx]
theorem upstreamHeaderRx_moved {a : Hunt} {run : Nat} (hh : s.chip.hearsFrames d.val = true)
    (hl : ¬ ((s.chip.d d.val).ps = .listen ∧ copper d.val = true)) (ha : a ≠ .sync)
    (hword : (s.chip.d d.val).rx.word (s.chip.d d.val).errRun (ones 64 (beField h.bytes 0 7 ^^^ upFaw)) = (a, run, false)) :
    ∃ t, exec (.upstreamHeaderRx d h) s = .next t ∧ s.OnlyDrop t d.val ∧ (t.chip.d d.val).rx = a := by
  have hmoved := huntWord_moved s.clk hword fun e => ha e.2
  obtain ⟨honly, hown⟩ := s.onlyDrop_onD d (moved a run)
  have hrx : ((s.chip.onD d.val (moved a run)).d d.val).rx = a := by rw [hown]; rfl
  have hexec := upstreamHeaderRx_unaligned (h := h) hs hh hl (by rw [hmoved, hrx]; exact ha)
  rw [hmoved] at hexec
  exact ⟨_, hexec, honly, hrx⟩
theorem upstreamHeaderRx_found (hh : s.chip.hearsFrames d.val = true) (hl : ¬ ((s.chip.d d.val).ps = .listen ∧ copper d.val = true))
    (hrx : (s.chip.d d.val).rx = .presync) (he : ones 64 (beField h.bytes 0 7 ^^^ upFaw) ≤ 3) :
    ∃ t, exec (.upstreamHeaderRx d h) s = .next t ∧ s.OnlyDrop t d.val ∧ (t.chip.d d.val).rx = .sync ∧ t.chip.dropDef d.val eLOF = false := by
  have hd := d.isLt
  have hexec := upstreamHeaderRx_exec (h := h) hs hh hl
  obtain ⟨hflow, hsync, hlof⟩ := s.chip.huntWord_found s.clk hd hrx he
  generalize s.chip.huntWord s.clk d.val (ones 64 (beField h.bytes 0 7 ^^^ upFaw)) = c at hexec hflow hsync hlof
  have hw := hflow.wf hs.wf
  replace hlof := hlof hs.wf
  dsimp only at hexec
  rw [if_neg (by rw [hsync]; decide)] at hexec
  split at hexec
  · have hu := c.useHeader_spec s.clk hd (s.chip.d d.val).rx h
    generalize c.useHeader s.clk d.val (s.chip.d d.val).rx h = e at hexec hu
    exact ⟨_, hexec, State.onlyDrop_of_flow (hflow.trans hu.flow), hu.own.trans hsync, (hu.lof hw).trans hlof⟩
  · have hu : Hears [] d.val c ((c.countUp DROPSTAT.BADHDR d.val 1).onD d.val (badFrame (c.lineTick s.clk))) :=
      .onD (fun _ => rfl) (.countUp rfl hd _ rfl rfl rfl (.refl c))
    generalize (c.countUp DROPSTAT.BADHDR d.val 1).onD d.val (badFrame (c.lineTick s.clk)) = e at hexec hu
    exact ⟨_, hexec, State.onlyDrop_of_flow (hflow.trans hu.flow), hu.own.trans hsync, (hu.lof hw).trans hlof⟩
theorem upstreamHeaderRx_lost (hh : s.chip.hearsFrames d.val = true) (hl : ¬ ((s.chip.d d.val).ps = .listen ∧ copper d.val = true))
    (hrx : (s.chip.d d.val).rx = .sync) (hrun : (s.chip.d d.val).errRun = 3) (he : 3 < ones 64 (beField h.bytes 0 7 ^^^ upFaw)) :
    ∃ t, exec (.upstreamHeaderRx d h) s = .next t ∧ s.OnlyDrop t d.val ∧ (t.chip.d d.val).rx = .hunt ∧ t.chip.dropDef d.val eLOF = true := by
  obtain ⟨hflow, hhunt, hlof⟩ := s.chip.huntWord_lost s.clk d.isLt hrx hrun he
  have hexec := upstreamHeaderRx_unaligned (h := h) hs hh hl (by rw [hhunt]; decide)
  generalize s.chip.huntWord s.clk d.val (ones 64 (beField h.bytes 0 7 ^^^ upFaw)) = c at hexec hflow hhunt hlof
  exact ⟨_, hexec, State.onlyDrop_of_flow hflow, hhunt, hlof hs.wf⟩
theorem upstreamHeaderRx_good (hh : s.chip.hearsFrames d.val = true) (hl : ¬ ((s.chip.d d.val).ps = .listen ∧ copper d.val = true))
    (hrx : (s.chip.d d.val).rx = .sync) (he : ones 64 (beField h.bytes 0 7 ^^^ upFaw) ≤ 3) (hg : goodHeader h.bytes = true) :
    ∃ t, exec (.upstreamHeaderRx d h) s = .next t ∧ s.OnlyDrop t d.val ∧ (t.chip.d d.val).rx = .sync ∧
      t.chip.st SLOTMAP.FELIVE (2 * d.val) = byteAt h.bytes 24 ∧ t.chip.st SLOTMAP.FEECHO (2 * d.val + 1) = byteAt h.bytes 25 ∧
      t.chip.st SLOTMAP.FESTORED (2 * d.val + 1) = bit (byteAt h.bytes 26 == 1) ∧ (t.chip.d d.val).delays.length ≤ 9 := by
  have hexec := upstreamHeaderRx_exec (h := h) hs hh hl
  have hsync : ((s.chip.onD d.val (moved .sync 0)).d d.val).rx = .sync := by rw [d_onD_same _ _ _ d.isLt]; rfl
  rw [huntWord_sync hrx he] at hexec
  dsimp only at hexec
  rw [if_neg (by rw [hsync]; decide), if_pos hg] at hexec
  have hflow : Flow (· = d.val) s.chip (s.chip.onD d.val (moved .sync 0)) := .onD _ _ rfl (.refl _)
  generalize s.chip.onD d.val (moved .sync 0) = c at hexec hsync hflow
  have hu := c.useHeader_spec s.clk d.isLt (s.chip.d d.val).rx h
  have hw := hflow.wf hs.wf
  generalize c.useHeader s.clk d.val (s.chip.d d.val).rx h = e at hexec hu
  exact ⟨_, hexec, State.onlyDrop_of_flow (hflow.trans hu.flow), hu.own.trans hsync, hu.felive hw, hu.echo hw, hu.stored hw, hu.delays⟩
theorem upstreamHeaderRx_bad (hh : s.chip.hearsFrames d.val = true) (hl : ¬ ((s.chip.d d.val).ps = .listen ∧ copper d.val = true))
    (hrx : (s.chip.d d.val).rx = .sync) (he : ones 64 (beField h.bytes 0 7 ^^^ upFaw) ≤ 3) (hg : goodHeader h.bytes = false) :
    ∃ t, exec (.upstreamHeaderRx d h) s = .next t ∧ s.OnlyDrop t d.val ∧
      t.chip.d d.val = badFrame (s.chip.lineTick s.clk) { s.chip.d d.val with errRun := 0 } ∧
      ((s.chip.d d.val).ps = .up → t.chip.st DROPSTAT.BADHDR d.val = wrapAdd DROPSTAT.BADHDR.width (s.chip.st DROPSTAT.BADHDR d.val) 1) := by
  have hd := d.isLt
  have hexec := upstreamHeaderRx_exec (h := h) hs hh hl
  have hown : (s.chip.onD d.val (moved .sync 0)).d d.val = { s.chip.d d.val with errRun := 0 } := by
    rw [d_onD_same _ _ _ hd, moved, ← hrx]
    simp [hrx]
  rw [huntWord_sync hrx he] at hexec
  dsimp only at hexec
  rw [if_neg (by rw [hown]; simp [hrx]), if_neg (by rw [hg]; decide)] at hexec
  have hflow : Flow (· = d.val) s.chip (s.chip.onD d.val (moved .sync 0)) := .onD _ _ rfl (.refl _)
  have hst : ∀ f r, (s.chip.onD d.val (moved .sync 0)).st f r = s.chip.st f r := fun _ _ => rfl
  have htick : (s.chip.onD d.val (moved .sync 0)).lineTick s.clk = s.chip.lineTick s.clk := rfl
  rw [htick] at hexec
  generalize s.chip.onD d.val (moved .sync 0) = c at hexec hown hflow hst
  have hcount : Guards [] d.val id c (c.countUp DROPSTAT.BADHDR d.val 1) := .ite (.addSt rfl _ rfl (by omega) (.refl c)) (.refl c)
  have hfl : Flow (· = d.val) s.chip (c.countUp DROPSTAT.BADHDR d.val 1) := hflow.countUp _ _ _ rfl hd
  have hbad : (s.chip.d d.val).ps = .up → (c.countUp DROPSTAT.BADHDR d.val 1).st DROPSTAT.BADHDR d.val =
      wrapAdd DROPSTAT.BADHDR.width (s.chip.st DROPSTAT.BADHDR d.val) 1 := fun hup => by
    have hup' : (c.d d.val).ps = .up := by rw [hown]; exact hup
    unfold countUp
    rw [if_pos hup', st_addSt_same _ _ _ _ (hflow.wf hs.wf) (by decide), hst, wrapAdd_eq]
  generalize c.countUp DROPSTAT.BADHDR d.val 1 = e at hexec hcount hfl hbad
  refine ⟨_, hexec, State.onlyDrop_of_flow (.onD _ _ rfl hfl), (d_onD_same _ _ _ hd).trans ?_, hbad⟩
  exact congrArg _ (hcount.own.trans hown)

theorem upstreamHeaderRx_listens (hps : (s.chip.d d.val).ps = .listen) (hc : copper d.val = true) (hm : (s.chip.d d.val).mode = 0)
    (hrx : (s.chip.d d.val).downRx = .hunt) :
    ∃ t, exec (.upstreamHeaderRx d h) s = .next t ∧ s.OnlyDrop t d.val ∧
      t.chip.d d.val = (if beField h.down 0 7 = 0x5E1CA39B71D40B6E then { s.chip.d d.val with downRx := .presync, downErr := 0 }
        else { s.chip.d d.val with downErr := 0, trying := (s.chip.d d.val).trying % 3 + 1 }) := by
  obtain ⟨a, ha⟩ : ∃ a : Hunt, a = if beField h.down 0 7 = 0x5E1CA39B71D40B6E then .presync else .hunt := ⟨_, rfl⟩
  have hword : (s.chip.d d.val).downRx.word (s.chip.d d.val).downErr (ones 64 (beField h.down 0 7 ^^^ 0x5E1CA39B71D40B6E)) = (a, 0, false) := by
    rw [hrx, ha]
    simp only [Hunt.word, ones_word (bs := h.down) (w := 0x5E1CA39B71D40B6E) (by decide)]
  have hsync : ¬ (a = .sync ∧ goodHeader h.down = true ∧ byteAt h.down 68 = (s.chip.d d.val).trying) := by
    rw [ha]
    split <;> simp
  obtain ⟨honly, hown⟩ := s.onlyDrop_onD d fun x => { x with
    downRx := a, downErr := 0, trying := if a = .hunt then x.trying % 3 + 1 else x.trying }
  have htwin : s.chip.twinHeader s.clk d.val h.down = s.chip.onD d.val fun x => { x with
      downRx := a, downErr := 0, trying := if a = .hunt then x.trying % 3 + 1 else x.trying } := by
    unfold twinHeader
    simp only [hword]
    rw [if_neg Bool.false_ne_true, if_neg hsync]
  refine ⟨_, congrArg Host.Outcome.next ((hs.act _).trans ?_), honly, hown.trans ?_⟩
  · rw [headerRx, if_pos ⟨hps, hc⟩, htwin, frameHeader, if_pos]
    unfold hearsFrames
    rw [hown]
    simp [hps, hm]
  · rw [ha]
    split
    · simp
    · simp [hrx]

end

/-- Settles O41: the alignment word moves the receiver, and in SYNC a good header's fields are used, those of a bad one are not. -/
theorem upstreamHeaders : Obligations.UpstreamHeaders := by
  refine ⟨fun d h s hs hh hl => ⟨fun hrx he => ?_, fun hrx he => ?_, upstreamHeaderRx_found hs hh hl, fun hrx he => ?_, upstreamHeaderRx_lost hs hh hl,
    upstreamHeaderRx_good hs hh hl, upstreamHeaderRx_bad hs hh hl⟩, fun d h s hs hps hc hm hrx => upstreamHeaderRx_listens hs hps hc hm hrx,
    fun d h s hh hl => congrArg Host.Outcome.next (State.act_same ?_)⟩
  · refine upstreamHeaderRx_moved hs hh hl (run := 0) (by decide) ?_
    rw [hrx, (ones_word (by decide)).mpr he]
    rfl
  · refine upstreamHeaderRx_moved hs hh hl (run := 0) (by decide) ?_
    rw [hrx]
    simp [Hunt.word, he]
  · refine upstreamHeaderRx_moved hs hh hl (run := 0) (by decide) ?_
    rw [hrx]
    simp [Hunt.word, Nat.not_le.mpr he]
  · rw [headerRx, if_neg hl, frameHeader, if_pos (by rw [hh]; rfl)]

end Sys2Proof.Machine
end

section
/-! PROOFS. Upstream blocks and messages of a drop (R183, R184, R200, R239, R263). -/

namespace Sys2Proof.Machine
open Sys2Proof Chip

/-- No bad block of the run has cost it a message. -/
def Drop.found (kind run : Nat) (x : Drop) : Drop := { x with rxLost := x.rxLost.filter (fun l => l != (kind, run)) }

namespace Chip

/-! ### A captured block -/

theorem captureUp_eq (c : Chip) (k : Clock) (d b typ echo : Nat) (bs : List Byte) : ∃ m, c.captureUp k d b typ echo bs = { c with mead := m } := by
  have hself : ∃ m, c = { c with mead := m } := ⟨c.mead, rfl⟩
  unfold captureUp
  dsimp only
  split
  · unfold takeSource writeHalf
    split
    · split
      · exact ⟨_, rfl⟩
      · exact ⟨_, rfl⟩
    · exact ⟨_, rfl⟩
  · exact hself
theorem Flow.captureUp {D : Nat → Prop} {z c : Chip} (k : Clock) (d b typ echo : Nat) (bs : List Byte) (h : Flow D z c) :
    Flow D z (c.captureUp k d b typ echo bs) := by
  unfold Chip.captureUp
  dsimp only
  exact ite (.onM _ (fun _ => ⟨rfl, rfl⟩) (h.takeSource _ _ _ _)) h

/-! ### An audio block -/

/-- The block passes into the frame's receiver: none of the tests that ignore it holds. -/
structure BlockHeard (c : Chip) (k : Clock) (d b echo : Nat) (e : RunEnt) : Prop where
  takes : c.takesBlocks d = true
  seen : c.ignored d echo b = false
  inFrame : b < blocksOf (c.d d).mode
  recent : c.ticksAgo k echo ≤ 3
  run : runAt (c.runsAt k d echo) true b = some e
  clear : c.dropDef d eXCON = false

section
variable {c : Chip} {k : Clock} {d b echo : Nat} {e : RunEnt} (h : BlockHeard c k d b echo e)
include h

theorem BlockHeard.passes : ¬ (!c.takesBlocks d || decide (blocksOf (c.d d).mode ≤ b) || decide (3 < c.ticksAgo k echo) || c.ignored d echo b) = true := by
  rw [h.takes, h.seen, decide_eq_false (Nat.not_le.mpr h.inFrame), decide_eq_false (Nat.not_lt.mpr h.recent)]
  decide

/-- The audio block as it is kept. -/
def keptBlock (c : Chip) (d b echo : Nat) (e : RunEnt) (bs : List Byte) : UpAudio :=
  { drop := d, chan := e.chan + (b - e.start), echo := echo
    rate := if (c.d d).badEchos.contains echo then 5
      else if bs.length = 20 ∧ (bs.drop 19).head? = some (crc8 (bs.take 19)) ∧ byteAt bs 18 % 64 = echo % 64 then byteAt bs 18 / 64 else 4
    samples := (List.range (framesOf (byteAt bs 18 / 64))).map (fun i => beField bs (3 * i) (3 * i + 2)) }

theorem BlockHeard.audioRx (bs : List Byte) (ht : e.typ = tAudio) : ∃ (m : Meadow) (l : List UpAudio),
    c.audioRx k d b echo bs = { c with mead := m, aud := { c.aud with blocks := l ++ [keptBlock c d b echo e bs] } } := by
  obtain ⟨m, hm⟩ := c.captureUp_eq k d b tAudio echo bs
  have hdef : ({ c with mead := m } : Chip).dropDef d eXCON = false := h.clear
  unfold Chip.audioRx
  rw [if_neg h.passes, h.run]
  dsimp only
  rw [if_neg (not_not.mpr ht), hm, hdef, if_neg Bool.false_ne_true]
  exact ⟨m, _, rfl⟩

end

end Chip

theorem audioBlockRx_spec (d : Fin 96) (b echo : Nat) (bs : List Byte) (e : RunEnt) (s : State) (hs : s.serving) (h : BlockHeard s.chip s.clk d.val b echo e)
    (ht : e.typ = tAudio) :
    ∃ t, exec (.audioBlockRx d b echo bs) s = .next t ∧ t = { s with chip := { s.chip with aud := t.chip.aud, mead := t.chip.mead } } ∧
      ∃ x ∈ t.chip.aud.blocks, x.drop = d.val ∧ x.chan = e.chan + (b - e.start) ∧ x.echo = echo ∧
        ((s.chip.d d.val).badEchos.contains echo = true → x.rate = 5) ∧
        ((s.chip.d d.val).badEchos.contains echo = false →
          bs.length = 20 ∧ (bs.drop 19).head? = some (crc8 (bs.take 19)) ∧ byteAt bs 18 % 64 = echo % 64 → x.rate = byteAt bs 18 / 64) ∧
        ((s.chip.d d.val).badEchos.contains echo = false → ¬ (bs.length = 20 ∧ (bs.drop 19).head? = some (crc8 (bs.take 19)) ∧
          byteAt bs 18 % 64 = echo % 64) → x.rate = 4) := by
  obtain ⟨m, l, hl⟩ := h.audioRx bs ht
  have hexec : exec (.audioBlockRx d b echo bs) s = .next { s with chip :=
      { s.chip with mead := m, aud := { s.chip.aud with blocks := l ++ [keptBlock s.chip d.val b echo e bs] } } } :=
    congrArg Host.Outcome.next ((hs.act _).trans (by rw [hl]))
  refine ⟨_, hexec, rfl, keptBlock s.chip d.val b echo e bs, List.mem_append_right _ (List.mem_cons_self ..), rfl, rfl, rfl, fun hb => ?_, fun hb hg => ?_,
    fun hb hg => ?_⟩
  · exact if_pos hb
  · exact (if_neg (by rw [hb]; decide)).trans (if_pos hg)
  · exact (if_neg (by rw [hb]; decide)).trans (if_neg hg)

namespace Chip

/-! ### A whole message in one piece -/

theorem skipping_setSkip (q : Queue) (kind unit : Nat) : (q.setSkip kind unit false).skipping kind unit = false := by
  simp [Queue.setSkip, Queue.skipping]
theorem close_of_openOf {q : Queue} {kind unit : Nat} (h : q.openOf kind unit = none) : q.close kind unit = q := by
  have hno : ∀ o ∈ q.opens, ¬ (o.kind == kind && o.unit == unit && o.doneAt.isNone) = true := by
    simpa [Queue.openOf, List.find?_eq_none] using h
  unfold Queue.close
  rw [List.eraseP_of_forall_not hno]
/-- A queue takes a producer's whole message. -/
structure Room (c : Chip) (q kind unit : Nat) (bs : List Byte) : Prop where
  inRange : q < 12
  en : c.qEn q = true
  fresh : (c.q q).openOf kind unit = none
  room : c.qRoom q bs.length = true
  some : bs ≠ []
  short : bs.length ≤ 65535

theorem qBegin_q {c : Chip} {q kind unit : Nat} (hq : q < 12) (h : (c.q q).openOf kind unit = none) (k : Clock) :
    (c.qBegin k q kind unit).q q = (c.q q).setSkip kind unit false := by
  unfold qBegin qRewind
  rw [h]
  exact q_onQ_same _ _ _ hq
theorem Room.pushed {c : Chip} {q kind unit : Nat} {bs : List Byte} (h : Room c q kind unit bs) (hs : (c.q q).skipping kind unit = false) (k : Clock) :
    c.qPush k q kind unit bs = c.onQ q fun _ => { c.q q with
      opens := (c.q q).opens ++ [{ kind := kind, unit := unit, bytes := bs, words := itemWords bs.length }] } := by
  have hroom : (c.q q).held + itemWords bs.length ≤ c.qCap q := of_decide_eq_true h.room
  unfold qPush
  rw [hs, h.en, h.fresh, close_of_openOf h.fresh, if_neg (by simp [h.some]), if_neg (by decide)]
  exact if_pos ⟨h.short, hroom⟩
theorem qEnd_opens {c : Chip} {q kind unit : Nat} {l : List OpenItem} {o : OpenItem} (hq : q < 12) (e : Nat)
    (hl : (c.q q).opens = l ++ [o]) (hno : l.find? (fun o => o.kind == kind && o.unit == unit && o.doneAt.isNone) = none)
    (ho : (o.kind == kind && o.unit == unit && o.doneAt.isNone) = true) :
    ((c.qEnd q kind unit e).q q).opens = l ++ [{ o with doneAt := some e }] := by
  have hmap : l.map (fun o => if o.kind == kind && o.unit == unit && o.doneAt.isNone then { o with doneAt := some e } else o) = l := by
    refine (List.map_congr_left fun o ho => if_neg ?_).trans (List.map_id' l)
    exact List.find?_eq_none.mp hno o ho
  unfold qEnd
  rw [q_onQ_same _ _ _ hq]
  show (c.q q).opens.map _ = _
  rw [hl, List.map_append, hmap, List.map_cons, List.map_nil, if_pos ho]

theorem rxRun_withRx (kind : Nat) (b : Option Nat) (x : Drop) : rxRun (x.withRx kind b) kind = b :=
  match kind with
  | 0 | 1 | 2 | _ + 3 => rfl
theorem setRxOpen_run (c : Chip) {d : Nat} (hd : d < 96) (kind : Nat) (b : Option Nat) : rxRun ((c.setRxOpen d kind b).d d) kind = b := by
  have h : (c.setRxOpen d kind b).d d = (c.d d).withRx kind b := d_onD_same _ _ _ hd
  rw [h, rxRun_withRx]
theorem rxQueue_of_live {a c : Chip} (h : a.heath.live = c.heath.live) (d kind : Nat) : a.rxQueue d kind = c.rxQueue d kind := by
  unfold rxQueue on lv
  rw [h]
theorem loseRx_closed {c : Chip} {d kind : Nat} (h : rxOpen (c.d d) kind = false) (k : Clock) : c.loseRx k d kind = c := by
  unfold loseRx
  rw [h, if_neg Bool.false_ne_true]
theorem rxRun_none {x : Drop} {kind : Nat} (h : rxOpen x kind = false) : rxRun x kind = none := by
  unfold rxOpen at h
  simpa using h

theorem Room.of_que {a c : Chip} {q kind unit : Nat} {bs : List Byte} (h : Room c q kind unit bs) (hq : a.que = c.que)
    (hl : a.heath.live = c.heath.live) : Room a q kind unit bs := by
  obtain ⟨hin, hen, hfresh, hroom, hsome, hshort⟩ := h
  refine ⟨hin, ?_, by rw [q_of_que hq]; exact hfresh, ?_, hsome, hshort⟩
  · unfold qEn on lv
    rw [hl]
    exact hen
  · unfold qRoom qCap lv
    rw [q_of_que hq, hl]
    exact hroom
/-- The message of a kind is lost: none is open. -/
theorem loseRx_run (c : Chip) (k : Clock) {d : Nat} (hd : d < 96) (kind : Nat) : rxRun ((c.loseRx k d kind).d d) kind = none := by
  cases ho : rxOpen (c.d d) kind with
  | false =>
    rw [loseRx_closed ho]
    exact rxRun_none ho
  | true =>
    have hset := c.setRxOpen_run hd kind none
    unfold loseRx
    rw [if_pos ho]
    generalize c.setRxOpen d kind none = a at hset
    dsimp only
    split
    next q hq =>
      have hi : q < 4096 := Flow.rxQueue_row hq
      have hg : ∀ b, Guards [] d id a b → rxRun (b.d d) kind = none := fun b hb => (congrArg (rxRun · kind) hb.own).trans hset
      exact hg _ (.beside (.ite (.qRewind rfl k kind d hi (.refl a)) (.ite (.refl a) (.calm rfl (.refl a) (.qRewound k q hi (.refl a))))) rfl rfl)
    next => exact hset
/-- A bad block of a run without an open message. -/
theorem loseFirst_own (c : Chip) (k : Clock) {d : Nat} (hd : d < 96) (kind run : Nat) (sop : Bool) : (c.loseFirst k d kind run sop).d d =
    if sop = true ∧ (c.d d).rxLost.contains (kind, run) = false then { c.d d with rxLost := (kind, run) :: (c.d d).rxLost } else c.d d := by
  have hset : (c.onD d fun x => { x with rxLost := (kind, run) :: x.rxLost }).d d = { c.d d with rxLost := (kind, run) :: (c.d d).rxLost } :=
    d_onD_same _ _ _ hd
  unfold loseFirst
  generalize (c.onD d fun x => { x with rxLost := (kind, run) :: x.rxLost }) = a at hset
  by_cases h : sop = true ∧ (c.d d).rxLost.contains (kind, run) = false
  · rw [if_pos h, if_neg (by rw [h.1, h.2]; decide)]
    dsimp only
    split
    next q hq => exact (Guards.calm (F := []) (m := id) rfl (.refl a) (.qRewound k q (Flow.rxQueue_row hq) (.refl a))).own.trans hset
    next => exact hset
  · rw [if_neg h, if_pos]
    cases sop with
    | false => rfl
    | true => simpa using h

/-- What a queue's taking of a whole message leaves. -/
structure TookWhole (q kind unit run : Nat) (bs : List Byte) (z c : Chip) : Prop where
  item : ∃ e, (c.q q).opens = (z.q q).opens ++ [{ kind := kind, unit := unit, bytes := bs, words := itemWords bs.length, doneAt := some e }]
  closed : rxOpen (c.d unit) kind = false

theorem rxPiece_whole {c : Chip} (k : Clock) {d kind run q : Nat} {bs : List Byte} (hd : d < 96) (ho : rxOpen (c.d d) kind = false)
    (hq : c.rxQueue d kind = some q) (h : Room c q kind d bs) : TookWhole q kind d run bs c (c.rxPiece k d kind run true true bs) := by
  obtain ⟨hin, hen, hfresh, hroom, hsome, hshort⟩ := h
  have hq₁ : (c.setRxOpen d kind (some run)).rxQueue d kind = some q := hq
  have hval : ((c.setRxOpen d kind (some run)).qBegin k q kind d).q q = (c.q q).setSkip kind d false :=
    qBegin_q (c := c.setRxOpen d kind (some run)) hin hfresh k
  have hlive : ((c.setRxOpen d kind (some run)).qBegin k q kind d).heath.live = c.heath.live :=
    ((Keeps.refl c).setRxOpen d kind (some run) |>.qBegin k q kind d).live
  have hg : Guards [] d (fun x => rxRun x kind) (c.setRxOpen d kind (some run)) ((c.setRxOpen d kind (some run)).qBegin k q kind d) := by
    unfold qBegin
    exact .beside (.qRewind rfl k kind d (by omega) (.refl _)) rfl rfl
  have hrun := hg.own.trans (c.setRxOpen_run hd kind (some run))
  unfold rxPiece
  extract_lets b a
  have hb : b = c.setRxOpen d kind (some run) := by
    unfold b
    rw [loseRx_closed ho]
  have ha : a = (c.setRxOpen d kind (some run)).qBegin k q kind d := by
    unfold a
    rw [if_pos (by rw [rxRun_none ho]; simp), hb, hq₁]
  clear_value a b
  subst ha
  generalize (c.setRxOpen d kind (some run)).qBegin k q kind d = a at hval hlive hrun
  rw [if_neg (by simp [hrun]), (rxQueue_of_live hlive d kind).trans hq]
  dsimp only
  have hroom' : Room a q kind d bs := by
    refine ⟨hin, ?_, by rw [hval]; exact hfresh, ?_, hsome, hshort⟩
    · unfold qEn on lv
      rw [hlive]
      exact hen
    · unfold qRoom qCap lv
      rw [hval, hlive]
      exact hroom
  rw [hroom'.pushed (by rw [hval]; exact skipping_setSkip _ _ _), if_pos rfl]
  have hb : (a.onQ q fun _ => { a.q q with
      opens := (a.q q).opens ++ [{ kind := kind, unit := d, bytes := bs, words := itemWords bs.length }] }).q q =
      { a.q q with opens := (a.q q).opens ++ [{ kind := kind, unit := d, bytes := bs, words := itemWords bs.length }] } := q_onQ_same _ _ _ hin
  generalize (a.onQ q fun _ => { a.q q with
      opens := (a.q q).opens ++ [{ kind := kind, unit := d, bytes := bs, words := itemWords bs.length }] }) = b at hb
  have hend := qEnd_opens (c := b) (kind := kind) (unit := d) (l := (c.q q).opens)
    (o := { kind := kind, unit := d, bytes := bs, words := itemWords bs.length }) hin k.evc (by rw [hb, hval]; rfl) hfresh (by simp)
  have hfin := (b.qEnd q kind d k.evc).setRxOpen_run hd kind none
  have hque : ((b.qEnd q kind d k.evc).setRxOpen d kind none).q q = (b.qEnd q kind d k.evc).q q := rfl
  generalize (b.qEnd q kind d k.evc).setRxOpen d kind none = e at hfin hque
  have hdone : TookWhole q kind d run bs c e := ⟨⟨k.evc, by rw [hque, hend]⟩, by rw [rxOpen, hfin]; rfl⟩
  have hcount : ∀ f, TookWhole q kind d run bs c (e.addSt f 15 1) := fun f => by
    obtain ⟨⟨x, hx⟩, hc⟩ := hdone
    exact ⟨⟨x, by rw [q_of_que (addSt_que ..)]; exact hx⟩, by rw [d_of_drop (addSt_drop ..)]; exact hc⟩
  split
  · split
    · exact hcount _
    · split
      · exact hcount _
      · exact hdone
  · exact hdone

/-! ### Only the drop and the queues move -/

namespace Flow
variable {D : Nat → Prop} {z c : Chip} {d : Nat}

theorem qBegin (k : Clock) {q : Nat} (kind unit : Nat) (hq : q < 4096) (h : Flow D z c) : Flow D z (c.qBegin k q kind unit) :=
  (h.qRewind k q kind unit hq).onQ _ _
theorem qPush (k : Clock) {q : Nat} (kind unit : Nat) (bs : List Byte) (hq : q < 4096) (h : Flow D z c) : Flow D z (c.qPush k q kind unit bs) := by
  unfold Chip.qPush
  exact ite h (ite (h.onQ _ _) (ite (h.onQ _ _) ((h.onQ _ _).qDropped k q hq)))
theorem rxPiece (k : Clock) (kind run : Nat) (sop eop : Bool) (bs : List Byte) (hD : D d) (hd : d < 96) (h : Flow D z c) :
    Flow D z (c.rxPiece k d kind run sop eop bs) := by
  unfold Chip.rxPiece
  extract_lets b a
  have hb : Flow D z b := .setRxOpen d kind _ hD hd (h.loseRx k d kind hD hd)
  have ha : Flow D z a := by
    refine ite ?_ h
    split
    next q hq => exact hb.qBegin k kind d (rxQueue_row hq)
    next => exact hb
  clear_value a
  refine ite ha ?_
  split
  next => exact ite (.setRxOpen d kind _ hD hd ha) ha
  next q hq =>
    have hp := ha.qPush k kind d bs (rxQueue_row hq)
    generalize a.qPush k q kind d bs = p at hp
    have he : Flow D z ((p.qEnd q kind d k.evc).setRxOpen d kind none) := .setRxOpen d kind _ hD hd (hp.onQ _ _)
    dsimp only
    exact ite (ite (ite (he.addSt_row _ _ _ rfl rfl (by omega)) (ite (he.addSt_row _ _ _ rfl rfl (by omega)) he)) he) hp
theorem loseFirst (k : Clock) (kind run : Nat) (sop : Bool) (hD : D d) (h : Flow D z c) : Flow D z (c.loseFirst k d kind run sop) := by
  unfold Chip.loseFirst
  refine ite h ?_
  have ha : Flow D z (c.onD d fun x => { x with rxLost := (kind, run) :: x.rxLost }) := .onD d _ hD h
  dsimp only
  split
  next q hq => exact ha.qRewound k q (rxQueue_row hq)
  next => exact ha
theorem smallPiece (k : Clock) (kind run : Nat) (bs : List Byte) (hD : D d) (hd : d < 96) (h : Flow D z c) : Flow D z (c.smallPiece k d kind run bs) := by
  unfold Chip.smallPiece
  exact ite (ite (h.loseRx k d kind hD hd) (h.loseFirst k kind run _ hD)) (.rxPiece k kind run _ _ _ hD hd (h.onD d _ hD))

end Flow

/-- What the block of a run does, once it is captured. -/
theorem BlockHeard.smallRx {c : Chip} {k : Clock} {d b echo : Nat} {e : RunEnt} (h : BlockHeard c k d b echo e) (sk : SmallKind) (bs : List Byte)
    (ht : e.typ = (kindOf sk).2) : ∃ m, c.smallRx k d sk echo b bs = ({ c with mead := m } : Chip).smallPiece k d (kindOf sk).1 e.start bs ∧
      ∀ D : Nat → Prop, Flow D c { c with mead := m } := by
  obtain ⟨m, hm⟩ := c.captureUp_eq k d b (kindOf sk).2 echo bs
  have hflow : ∀ D : Nat → Prop, Flow D c { c with mead := m } := fun D => by
    rw [← hm]
    exact .captureUp k d b _ echo bs (.refl c)
  have hdef : ({ c with mead := m } : Chip).dropDef d eXCON = false := h.clear
  unfold Chip.smallRx
  rw [if_neg h.passes, h.run]
  dsimp only
  rw [if_neg (not_not.mpr ht), hm, hdef, if_neg Bool.false_ne_true]
  exact ⟨m, rfl, hflow⟩

end Chip

/-! ### The messages of a drop -/

section
variable {d : Fin 96} {s : State} (hs : s.serving)
include hs

theorem smallBlockMessage_exec {sk : SmallKind} {echo b : Nat} {bs : List Byte} {e : RunEnt} (h : BlockHeard s.chip s.clk d.val b echo e)
    (ht : e.typ = (kindOf sk).2) : ∃ c : Chip, Flow (· = d.val) s.chip c ∧ c.que = s.chip.que ∧ c.drop = s.chip.drop ∧
      exec (.smallBlockMessage d sk echo [(b, bs)]) s = .next { s with chip := c.smallPiece s.clk d.val (kindOf sk).1 e.start bs } := by
  obtain ⟨m, hm, hflow⟩ := h.smallRx sk bs ht
  exact ⟨_, hflow _, rfl, rfl, congrArg Host.Outcome.next ((hs.act _).trans (by rw [List.foldl_cons, List.foldl_nil, hm]))⟩

/-- A message of one whole block. -/
theorem smallBlockMessage_whole {sk : SmallKind} {echo b q : Nat} {bs : List Byte} {e : RunEnt} (h : BlockHeard s.chip s.clk d.val b echo e)
    (ht : e.typ = (kindOf sk).2) (hl : bs.length = 20) (hcrc : (bs.drop 19).head? = some (crc8 (bs.take 19))) (hsop : has (byteAt bs 0) 7 = true)
    (heop : has (byteAt bs 0) 6 = true) (hn : byteAt bs 0 % 32 ≠ 0) (ho : rxOpen (s.chip.d d.val) (kindOf sk).1 = false)
    (hq : s.chip.rxQueue d.val (kindOf sk).1 = some q) (hin : q < 12) (hen : s.chip.qEn q = true)
    (hfresh : (s.chip.q q).openOf (kindOf sk).1 d.val = none) (hroom : s.chip.qRoom q (min 18 (byteAt bs 0 % 32)) = true) :
    ∃ t, exec (.smallBlockMessage d sk echo [(b, bs)]) s = .next t ∧ s.OnlyDrop t d.val ∧
      s.Queued t q (kindOf sk).1 d.val ((bs.drop 1).take (min 18 (byteAt bs 0 % 32))) ∧ rxOpen (t.chip.d d.val) (kindOf sk).1 = false := by
  have hd := d.isLt
  obtain ⟨c, hflow, hque, hdrop, hexec⟩ := smallBlockMessage_exec hs (bs := bs) h ht
  have hlen : ((bs.drop 1).take (min 18 (byteAt bs 0 % 32))).length = min 18 (byteAt bs 0 % 32) := by
    rw [List.length_take, List.length_drop, hl]
    omega
  have hgood : c.smallPiece s.clk d.val (kindOf sk).1 e.start bs =
      (c.onD d.val (Drop.found (kindOf sk).1 e.start)).rxPiece s.clk d.val (kindOf sk).1 e.start true true ((bs.drop 1).take (min 18 (byteAt bs 0 % 32))) := by
    unfold smallPiece
    rw [if_neg (by simp [hl, hcrc]), hsop, heop]
    rfl
  rw [hgood] at hexec
  generalize (bs.drop 1).take (min 18 (byteAt bs 0 % 32)) = data at hlen hexec
  have hflow' : Flow (· = d.val) s.chip (c.onD d.val (Drop.found (kindOf sk).1 e.start)) := .onD _ _ rfl hflow
  have hown : (c.onD d.val (Drop.found (kindOf sk).1 e.start)).d d.val = (s.chip.d d.val).found (kindOf sk).1 e.start :=
    (d_onD_same _ _ _ hd).trans (congrArg _ (d_of_drop hdrop _))
  have hque' : (c.onD d.val (Drop.found (kindOf sk).1 e.start)).que = s.chip.que := hque
  generalize c.onD d.val (Drop.found (kindOf sk).1 e.start) = a at hexec hflow' hown hque'
  have hopen : rxOpen (a.d d.val) (kindOf sk).1 = false := by rw [hown]; exact ho
  have hroom' : Room s.chip q (kindOf sk).1 d.val data :=
    ⟨hin, hen, hfresh, by rw [hlen]; exact hroom, by rintro rfl; rw [List.length_nil] at hlen; omega, by omega⟩
  obtain ⟨⟨x, hx⟩, hclosed⟩ := rxPiece_whole (run := e.start) s.clk hd hopen ((rxQueue_of_live hflow'.live _ _).trans hq) (hroom'.of_que hque' hflow'.live)
  exact ⟨_, hexec, State.onlyDrop_of_flow (.rxPiece s.clk _ _ _ _ _ rfl hd hflow'), ⟨x, hx.trans (by rw [q_of_que hque'])⟩, hclosed⟩

/-- A block whose CRC fails. -/
theorem smallBlockMessage_bad {sk : SmallKind} {echo b : Nat} {bs : List Byte} {e : RunEnt} (h : BlockHeard s.chip s.clk d.val b echo e)
    (ht : e.typ = (kindOf sk).2) (hcrc : (bs.drop 19).head? ≠ some (crc8 (bs.take 19))) :
    ∃ t, exec (.smallBlockMessage d sk echo [(b, bs)]) s = .next t ∧ s.OnlyDrop t d.val ∧
      rxRun (t.chip.d d.val) (kindOf sk).1 ≠ some e.start ∧
      (rxRun (s.chip.d d.val) (kindOf sk).1 ≠ some e.start → t.chip.d d.val =
        (if has (byteAt bs 0) 7 = true ∧ (s.chip.d d.val).rxLost.contains ((kindOf sk).1, e.start) = false then
          { s.chip.d d.val with rxLost := ((kindOf sk).1, e.start) :: (s.chip.d d.val).rxLost } else s.chip.d d.val)) := by
  have hd := d.isLt
  obtain ⟨c, hflow, -, hdrop, hexec⟩ := smallBlockMessage_exec hs (bs := bs) h ht
  have hown : c.d d.val = s.chip.d d.val := d_of_drop hdrop _
  have hflow' : Flow (· = d.val) s.chip (c.smallPiece s.clk d.val (kindOf sk).1 e.start bs) := .smallPiece s.clk _ _ _ rfl hd hflow
  refine ⟨_, hexec, State.onlyDrop_of_flow hflow', ?_⟩
  show rxRun ((c.smallPiece s.clk d.val (kindOf sk).1 e.start bs).d d.val) _ ≠ _ ∧
    (_ → (c.smallPiece s.clk d.val (kindOf sk).1 e.start bs).d d.val = _)
  unfold smallPiece
  rw [if_pos (.inr hcrc), hown]
  by_cases hr : rxRun (s.chip.d d.val) (kindOf sk).1 = some e.start
  · rw [if_pos hr]
    refine ⟨?_, fun hn => absurd hr hn⟩
    rw [c.loseRx_run s.clk hd]
    simp
  · rw [if_neg hr, c.loseFirst_own s.clk hd, hown]
    refine ⟨?_, fun _ => rfl⟩
    split
    · exact hr
    · exact hr

/-- A message of one whole field. -/
theorem managementMessage_whole {q : Nat} {bs : List Byte} (htakes : s.chip.takesBlocks d.val = true) (hl : bs.length = 31)
    (hsop : has (byteAt bs 0) 7 = true) (heop : has (byteAt bs 0) 6 = true) (hn : byteAt bs 0 % 32 ≠ 0) (ho : rxOpen (s.chip.d d.val) 0 = false)
    (hq : s.chip.rxQueue d.val 0 = some q) (hin : q < 12) (hen : s.chip.qEn q = true) (hfresh : (s.chip.q q).openOf 0 d.val = none)
    (hroom : s.chip.qRoom q (min 30 (byteAt bs 0 % 32)) = true) :
    ∃ t, exec (.managementMessage d [bs]) s = .next t ∧ s.OnlyDrop t d.val ∧
      s.Queued t q 0 d.val ((bs.drop 1).take (min 30 (byteAt bs 0 % 32))) ∧ rxOpen (t.chip.d d.val) 0 = false := by
  have hd := d.isLt
  have hlen : ((bs.drop 1).take (min 30 (byteAt bs 0 % 32))).length = min 30 (byteAt bs 0 % 32) := by
    rw [List.length_take, List.length_drop, hl]
    omega
  have hexec : exec (.managementMessage d [bs]) s =
      .next { s with chip := s.chip.rxPiece s.clk d.val 0 0 true true ((bs.drop 1).take (min 30 (byteAt bs 0 % 32))) } := by
    refine congrArg Host.Outcome.next ((hs.act _).trans ?_)
    rw [if_pos htakes, List.foldl_cons, List.foldl_nil]
    unfold mgmtRx
    dsimp only
    rw [hsop, heop]
  generalize (bs.drop 1).take (min 30 (byteAt bs 0 % 32)) = data at hlen hexec
  have hroom' : Room s.chip q 0 d.val data :=
    ⟨hin, hen, hfresh, by rw [hlen]; exact hroom, by rintro rfl; rw [List.length_nil] at hlen; omega, by omega⟩
  obtain ⟨hitem, hclosed⟩ := rxPiece_whole (run := 0) s.clk hd ho hq hroom'
  exact ⟨_, hexec, State.onlyDrop_of_flow (.rxPiece s.clk _ _ _ _ _ rfl hd (.refl _)), hitem, hclosed⟩

end

/-- Settles O42: blocks pass the tests of the frame's receiver, and a message in one piece is its queue's newest item, or is lost. -/
theorem dropBlocks : Obligations.DropBlocks := by
  refine ⟨fun d b echo bs e s hs htk hig hb hec hrun ht hx => audioBlockRx_spec d b echo bs e s hs ⟨htk, hig, hb, hec, hrun, hx⟩ ht,
    fun d sk echo b bs q e s hs htk hig hb hec hrun ht hx hl => ?_, fun d bs q s hs htk hl hsop heop hn ho hq hin hen hfresh hroom =>
    managementMessage_whole hs htk hl hsop heop hn ho hq hin hen hfresh hroom, fun d b echo sk bs l m s => ⟨fun htk => ⟨?_, ?_, ?_⟩, fun hig => ⟨?_, ?_⟩⟩⟩
  · have h : BlockHeard s.chip s.clk d.val b echo e := ⟨htk, hig, hb, hec, hrun, hx⟩
    exact ⟨fun hcrc hsop heop hn ho hq hin hen hfresh hroom => smallBlockMessage_whole hs h ht hl hcrc hsop heop hn ho hq hin hen hfresh hroom,
      fun hcrc => smallBlockMessage_bad hs h ht hcrc⟩
  · refine congrArg Host.Outcome.next (State.act_same ?_)
    rw [audioRx, if_pos (by simp [htk])]
  · refine congrArg Host.Outcome.next (State.act_same ?_)
    induction m with
    | nil => rfl
    | cons x r ih =>
      have hx : s.chip.smallRx s.clk d.val sk echo x.1 x.2 = s.chip := by rw [smallRx, if_pos (by simp [htk])]
      rw [List.foldl_cons, hx]
      exact ih
  · exact congrArg Host.Outcome.next (State.act_same (if_neg (by simp [htk])))
  · refine congrArg Host.Outcome.next (State.act_same ?_)
    rw [audioRx, if_pos (by simp [hig])]
  · refine congrArg Host.Outcome.next (State.act_same ?_)
    rw [List.foldl_cons, List.foldl_nil, smallRx, if_pos (by simp [hig])]

end Sys2Proof.Machine
end

section
/-! PROOFS. What follows the defects of an uplink leaves of them and of its status words (R120 to R123, R129, R133). -/

namespace Sys2Proof.Machine
open Sys2Proof Chip

/-- A status field of the uplinks' table. -/
def Fld.uplWord (f : Fld) : Bool := f.steady && f.tab == 0x11

namespace Chip

theorem uplWord_iff {f : Fld} : f.uplWord = true ↔ f.steady = true ∧ f.tab = 0x11 := by simp [Fld.uplWord]
theorem clears_of_uplWord {F : List Fld} {g : Fld} {r : Nat} (hF : F.all Fld.uplWord = true) (hg : leaves F g = true) (hr : r < 4096) :
    Clears (dropWords F) g r := by
  simp only [leaves, Bool.and_eq_true, List.all_eq_true, Bool.or_eq_true, bne_iff_ne] at hg
  obtain ⟨hfit, hall⟩ := hg
  refine ⟨hfit, fun f q ⟨hf, hq⟩ => ?_⟩
  have hff : f.fits = true := Calm.steady_fits (uplWord_iff.mp (List.all_eq_true.mp hF f hf)).1
  exact ⟨hff, (hall f hf).elim (fun ht => .inr (Fld.addr_ne_of_tab hff hfit hq hr ht)) .inl⟩

/-- From `z` to `c` the unmasked defects of uplink `u` stay, and so do the live bank and the status words that `F` names. -/
structure Lines (F : List Fld) (u : Nat) (z c : Chip) : Prop extends Reads (dropWords F) z c where
  defs : (c.u u).defs = (z.u u).defs
  live : c.heath.live = z.heath.live

namespace Lines
variable {F : List Fld} {u : Nat} {z c : Chip}

theorem refl (z : Chip) : Lines F u z z := { Reads.refl z with defs := rfl, live := rfl }
theorem trans {a : Chip} (h : Lines F u z c) (g : Lines F u c a) : Lines F u z a :=
  { h.toReads.trans g.toReads with defs := g.defs.trans h.defs, live := g.live.trans h.live }
theorem ite {a b : Chip} {p : Prop} [Decidable p] (ha : Lines F u z a) (hb : Lines F u z b) : Lines F u z (if p then a else b) := by
  split <;> assumption
theorem foldl {α : Type} (l : List α) {f : Chip → α → Chip} (h : Lines F u z c) (hf : ∀ a x, Lines F u z a → Lines F u z (f a x)) :
    Lines F u z (l.foldl f c) := by
  induction l generalizing c with
  | nil => exact h
  | cons x r ih => exact ih (hf c x h)
theorem overN (n : Nat) {f : Nat → Chip → Chip} (h : Lines F u z c) (hf : ∀ i < n, ∀ a, Lines F u z a → Lines F u z (f i a)) :
    Lines F u z (Machine.overN n f c) :=
  (overN_each (P := fun _ _ => True) (Lines F u z) h hf (fun _ _ _ _ => trivial) fun _ _ _ _ _ _ => trivial).1
theorem st_eq (h : Lines F u z c) (hw : z.heath.status.wf = true) {f : Fld} (hf : F.contains f = true) {r : Nat} (hr : r < 4096) :
    c.st f r = z.st f r := h.stat hw f r ⟨List.contains_iff_mem.mp hf, hr⟩
theorem lv_eq (h : Lines F u z c) (f : Fld) (r : Nat) : c.lv f r = z.lv f r := by
  unfold lv
  rw [h.live]

/-! ### One rule for each operation on the state -/

/-- A change beside the heath and the uplinks. -/
theorem beside {a : Chip} (h : Lines F u z c) (hh : a.heath = c.heath) (hu : a.upl = c.upl) : Lines F u z a :=
  h.trans { (Reads.refl c).beside (congrArg Heath.status hh) with
    defs := congrArg (fun v => (vget v u ({} : Uplink)).defs) hu, live := congrArg Heath.live hh }
theorem onU {f : Uplink → Uplink} (i : Nat) (hf : ∀ x, (f x).defs = x.defs) (h : Lines F u z c) : Lines F u z (c.onU i f) := by
  refine h.trans { (Reads.refl c).beside rfl with defs := ?_, live := rfl }
  by_cases hi : u = i
  · subst hi
    by_cases hu : u < 4
    · rw [u_onU_same _ _ _ hu, hf]
    · exact congrArg Uplink.defs (vupd_out _ _ _ _ _ (by omega))
  · rw [u_onU_other _ _ _ _ hi]
theorem setSt (hF : F.all Fld.uplWord = true) {g : Fld} {r : Nat} (v : Nat) (hg : leaves F g = true) (hr : r < 4096) (h : Lines F u z c) :
    Lines F u z (c.setSt g r v) :=
  h.trans { (Reads.refl c).setSt v (clears_of_uplWord hF hg hr) with
    defs := congrArg (fun v => (vget v u ({} : Uplink)).defs) (setSt_upl c g r v), live := ((Keeps.refl c).setSt g r v).live }
theorem addSt (hF : F.all Fld.uplWord = true) {g : Fld} {r : Nat} (n : Nat) (hg : leaves F g = true) (hr : r < 4096) (h : Lines F u z c) :
    Lines F u z (c.addSt g r n) := by
  unfold Chip.addSt
  exact h.setSt hF _ hg hr
theorem cause (hF : F.all Fld.uplWord = true) (k : Clock) {g : CauseReg} {r : Nat} (bits : Nat) (hg : leaves F g.cause = true) (hr : r < 4096)
    (h : Lines F u z c) : Lines F u z (c.cause k g r bits) :=
  h.trans { (Reads.refl c).cause k bits (clears_of_uplWord hF hg hr) with
    defs := congrArg (fun v => (vget v u ({} : Uplink)).defs) (cause_upl c k g r bits), live := ((Keeps.refl c).cause k g r bits).live }
theorem causeIf (hF : F.all Fld.uplWord = true) (k : Clock) {g : CauseReg} {r : Nat} (bits : Nat) (hg : leaves F g.cause = true) (hr : r < 4096)
    (h : Lines F u z c) : Lines F u z (c.causeIf k g r bits) := by
  unfold Chip.causeIf
  exact ite h (h.cause hF k bits hg hr)
theorem calm {a : Chip} (hF : F.all Fld.uplWord = true) (h : Lines F u z c) (g : Calm c a) : Lines F u z a :=
  h.trans { (Reads.refl c).calm (fun f _ hf => ⟨(uplWord_iff.mp (List.all_eq_true.mp hF f hf.1)).1, hf.2⟩) g with
    defs := by have e := congrArg Uplink.defs (g.upl u); exact e
    live := g.live }
theorem markEvent (a : Nat) (w : Word) (h : Lines F u z c) : Lines F u z (c.markEvent a w) :=
  h.trans { (Reads.refl c).beside rfl with defs := rfl, live := rfl }
/-- The fields of another table. -/
theorem leaves_other {g : Fld} (hF : F.all Fld.uplWord = true) (h : (g.fits && g.tab != 0x11) = true) : leaves F g = true := by
  simp only [Bool.and_eq_true, bne_iff_ne] at h
  simp only [leaves, Bool.and_eq_true, List.all_eq_true, Bool.or_eq_true, bne_iff_ne]
  refine ⟨h.1, fun f hf => .inl fun e => ?_⟩
  have := (uplWord_iff.mp (List.all_eq_true.mp hF f hf)).2
  omega

variable (hF : F.all Fld.uplWord = true)
include hF

/-- A status word of another table. -/
theorem setOther {g : Fld} {r : Nat} (v : Nat) (hg : (g.fits && g.tab != 0x11) = true) (hr : r < 4096) (h : Lines F u z c) : Lines F u z (c.setSt g r v) :=
  h.setSt hF v (leaves_other hF hg) hr
theorem addOther {g : Fld} {r : Nat} (n : Nat) (hg : (g.fits && g.tab != 0x11) = true) (hr : r < 4096) (h : Lines F u z c) : Lines F u z (c.addSt g r n) :=
  h.addSt hF n (leaves_other hF hg) hr
theorem causeOther (k : Clock) {g : CauseReg} {r : Nat} (bits : Nat) (hg : (g.cause.fits && g.cause.tab != 0x11) = true) (hr : r < 4096)
    (h : Lines F u z c) : Lines F u z (c.cause k g r bits) := h.cause hF k bits (leaves_other hF hg) hr

/-! ### Queues and items -/

theorem qDropped (k : Clock) {i : Nat} (hi : i < 4096) (h : Lines F u z c) : Lines F u z (c.qDropped k i) := by
  have hq : ((qReg i).cause.fits && (qReg i).cause.tab != 0x11) = true := by unfold qReg; split <;> rfl
  unfold Chip.qDropped
  exact .causeOther hF k _ hq hi (.beside (.addOther hF 1 rfl hi h) rfl rfl)
theorem qRewind (k : Clock) {i : Nat} (kind unit : Nat) (hi : i < 4096) (h : Lines F u z c) : Lines F u z (c.qRewind k i kind unit) := by
  unfold Chip.qRewind
  split
  · have hq : Lines F u z (c.onQ i fun x => (x.close kind unit).setSkip kind unit true) := h.beside rfl rfl
    exact hq.calm hF (.qRewound k i hi (.refl _))
  · exact h
theorem qPush (k : Clock) {i : Nat} (kind unit : Nat) (bs : List Byte) (hi : i < 4096) (h : Lines F u z c) : Lines F u z (c.qPush k i kind unit bs) := by
  unfold Chip.qPush
  refine ite h (ite (h.beside rfl rfl) (ite (h.beside rfl rfl) (.qDropped hF k hi (h.beside rfl rfl))))
theorem sendDesc (h : Lines F u z c) : Lines F u z c.sendDesc := by
  unfold Chip.sendDesc
  split
  next room y he =>
    have hy : Lines F u z y := by
      obtain rfl : c.draw.2 = y := congrArg Prod.snd he
      exact h.beside rfl rfl
    have hon : ∀ (a : Chip) f, Lines F u z a → Lines F u z (a.onTwin f) := fun _ _ ha => ha.beside rfl rfl
    split
    · exact hy.setOther hF _ rfl (by decide)
    · exact hon _ _ (hy.addOther hF 1 rfl (by decide))
theorem discardItem (k : Clock) (it : Item) {cause : Nat} (hc : cause ≠ cDisabled) (h : Lines F u z c) : Lines F u z (c.discardItem k it cause) := by
  unfold Chip.discardItem
  rw [if_neg hc]
  have hcount : Lines F u z (c.countDisc it.trib it.up cause) := h.beside rfl rfl
  have hfree : Lines F u z ((c.countDisc it.trib it.up cause).freeCells k it.up it.cells) := by
    unfold Chip.freeCells Chip.syncPools
    have hmead : ∀ f, Lines F u z ((c.countDisc it.trib it.up cause).onM f) := fun f => hcount.beside rfl rfl
    exact (hmead _).calm hF (.setCond k 211 _ (by decide) (.setCond k 210 _ (by decide) (.refl _)))
  unfold Chip.retire
  exact ite (hfree.sendDesc hF) hfree
theorem endRx (k : Clock) (i : Nat) (h : Lines F u z c) : Lines F u z (c.endRx k i cNopath) := by
  unfold Chip.endRx
  split
  · exact .discardItem hF k _ (by decide) (h.onU i fun _ => rfl)
  · exact h
theorem gccRewind (k : Clock) (i : Nat) {q : Nat} (hq : q < 4096) (h : Lines F u z c) : Lines F u z (c.gccRewind k i q) :=
  .onU i (fun _ => rfl) (h.qRewind hF k 3 i hq)

/-! ### References and channels -/

theorem syncCh (k : Clock) {ch : Nat} (hch : ch < 2) (h : Lines F u z c) : Lines F u z (c.syncCh k ch) := by
  have hr : ch < 4096 := by omega
  unfold Chip.syncCh
  extract_lets x c₁ c₂ c₃ c₄
  have h₁ : Lines F u z c₁ := .setOther hF _ rfl hr (.setOther hF _ rfl hr (.setOther hF _ rfl hr (.setOther hF _ rfl hr (.setOther hF _ rfl hr h))))
  clear_value c₁
  have h₂ : Lines F u z c₂ := by
    show Lines F u z (match x.sel with | some r => c₁.setSt DPLL.SELREF ch r | none => c₁)
    split
    · exact .setOther hF _ rfl hr h₁
    · exact h₁
  clear_value c₂
  have h₃ : Lines F u z c₃ := by
    show Lines F u z (match x.target with | some r => c₂.setSt DPLL.NEXTREF ch r | none => c₂)
    split
    · exact .setOther hF _ rfl hr h₂
    · exact h₂
  clear_value c₃
  have h₄ : Lines F u z c₄ := h₃.overN 8 fun r hr8 a ha => by
    split
    · exact .setOther hF _ rfl (by omega) ha
    · exact .setOther hF _ rfl (by omega) ha
  clear_value c₄
  exact h₄.calm hF (.setCond k _ _ (by omega) (.setCond k _ _ (by omega) (.setCond k _ _ (by omega) (.refl _))))
theorem enter (k : Clock) {ch : Nat} (hch : ch < 2) (st : DState) (h : Lines F u z c) : Lines F u z (c.enter k ch st) := by
  have hr : ch < 4096 := by omega
  unfold Chip.enter
  extract_lets x c₁ c₂
  have h₁ : Lines F u z c₁ := ite (.addOther hF _ rfl hr h) h
  clear_value c₁
  have h₂ : Lines F u z c₂ := h₁.beside rfl rfl
  clear_value c₂
  refine ite h (.syncCh hF k hch (.causeOther hF k _ rfl hr ?_))
  exact .markEvent _ _ (.setOther hF _ rfl hr h₂)
theorem beginSwitch (k : Clock) {ch : Nat} (hch : ch < 2) (r : Nat) (h : Lines F u z c) : Lines F u z (c.beginSwitch k ch r) := by
  unfold Chip.beginSwitch
  extract_lets b
  exact .syncCh hF k hch (.causeOther hF k _ rfl (by omega) (.beside h rfl rfl))
theorem choose (k : Clock) {ch : Nat} (hch : ch < 2) (h : Lines F u z c) : Lines F u z (c.choose k ch) := by
  unfold Chip.choose
  refine ite h ?_
  split
  · exact h.beginSwitch hF k hch _
  · exact h
theorem loseSel (k : Clock) {ch : Nat} (hch : ch < 2) (h : Lines F u z c) : Lines F u z (c.loseSel k ch) := by
  unfold Chip.loseSel Chip.holdover
  extract_lets d
  have hd : Lines F u z d := h.beside rfl rfl
  clear_value d
  exact .choose hF k hch (.syncCh hF k hch (ite hd (.enter hF k hch _ hd)))
theorem abandon (k : Clock) {ch : Nat} (hch : ch < 2) (h : Lines F u z c) : Lines F u z (c.abandon k ch) := by
  unfold Chip.abandon
  exact .choose hF k hch (.syncCh hF k hch (.causeOther hF k _ rfl (by omega) (.beside h rfl rfl)))
theorem chanLoses (k : Clock) (r : Nat) {ch : Nat} (hch : ch < 2) (h : Lines F u z c) : Lines F u z (c.chanLoses k r ch) := by
  unfold Chip.chanLoses
  extract_lets c₁ c₂ c₃
  have h₁ : Lines F u z c₁ := by
    show Lines F u z (match (c.dp ch).wtr with
      | some (w, _) => if w = r then c.onCh ch (fun x => { x with wtr := none }) else c
      | none => c)
    split
    · exact ite (h.beside rfl rfl) h
    · exact h
  have h₂ : Lines F u z c₂ := ite (h₁.loseSel hF k hch) h₁
  have h₃ : Lines F u z c₃ := ite (h₂.abandon hF k hch) h₂
  exact .syncCh hF k hch h₃
theorem setRefDef (k : Clock) {r : Nat} (hr : r < 8) (n : Nat) (b : Bool) (h : Lines F u z c) : Lines F u z (c.setRefDef k r n b) := by
  have hr' : r < 4096 := by omega
  unfold Chip.setRefDef Chip.setRefDefs
  extract_lets m diff lost d e f g
  have hd : Lines F u z d := h.beside rfl rfl
  have he : Lines F u z e := ite (.setOther hF _ rfl hr' hd) hd
  have hcount : Lines F u z (if lost = true then e.addSt REF.DISQ r 1 else e) := ite (he.addOther hF 1 rfl hr') he
  have hf : Lines F u z f := by
    unfold f Chip.syncRef
    exact .setOther hF _ rfl hr' (.setOther hF _ rfl hr' (.setOther hF _ rfl hr' hcount))
  have hg : Lines F u z g := hf.causeIf hF k _ (leaves_other hF rfl) hr'
  exact ite (.chanLoses hF k r (by decide) (.chanLoses hF k r (by decide) hg)) hg

/-! ### Protection -/

omit hF in
theorem apsHold (k : Clock) (p : Nat) (b : Bool) (h : Lines F u z c) : Lines F u z (c.apsHold k p b) :=
  h.overN 4 fun _ _ _ ha => ha.beside rfl rfl
theorem apsSync (k : Clock) {p : Nat} (hp : p < 4096) (h : Lines F u z c) : Lines F u z (c.apsSync k p) := by
  unfold Chip.apsSync Chip.apsAim
  extract_lets a c₁ run c₂ differs c₃
  have h₁ : Lines F u z c₁ := by
    have hset : ∀ v w, Lines F u z ((c.setSt APS.LREQ p v).setSt APS.RREQ p w) := fun v w => .setOther hF _ rfl hp (.setOther hF _ rfl hp h)
    exact (hset _ _).beside rfl rfl
  clear_value c₁
  have h₂ : Lines F u z c₂ := .setOther hF _ rfl hp (.setOther hF _ rfl hp (.setOther hF _ rfl hp h₁))
  clear_value c₂
  have h₃ : Lines F u z c₃ := h₂.beside rfl rfl
  exact ite (.causeOther hF k _ rfl hp (.setOther hF _ rfl hp h₃)) h₃
theorem apsEval (k : Clock) {p : Nat} (hp : p < 4096) (h : Lines F u z c) : Lines F u z (c.apsEval k p) := by
  unfold Chip.apsEval
  extract_lets wasW c₁ a higher c₂ higher' clearedW c₃
  have h₁ : Lines F u z c₁ := h.apsHold k p false
  have h₂ : Lines F u z c₂ := ite (.causeOther hF k _ rfl hp (.beside h₁ rfl rfl)) h₁
  have h₃ : Lines F u z c₃ := h₂.beside rfl rfl
  exact ite h (h₃.apsSync hF k hp)
theorem apsLfd (k : Clock) {p : Nat} (hp : p < 4096) (h : Lines F u z c) : Lines F u z (c.apsLfd k p) := by
  unfold Chip.apsLfd
  extract_lets lfd one
  have hone : ∀ (a : Chip) (f : Fld) i n, (f.fits && f.tab != 0x11) = true → Lines F u z a → Lines F u z (one a f i n) := fun a f i n hf ha =>
    ite ha (.causeOther hF k _ rfl hp (.setOther hF _ hf hp ha))
  exact ite h (hone _ _ _ _ rfl (hone _ _ _ _ rfl h))
theorem apsReceive (k : Clock) {p : Nat} (hp : p < 4096) (v : Word) (h : Lines F u z c) : Lines F u z (c.apsReceive k p v) := by
  unfold Chip.apsReceive
  extract_lets c₁ new c₂ bad flip
  have h₁ : Lines F u z c₁ := h.beside rfl rfl
  have h₂ : Lines F u z c₂ := by
    have htaken : Lines F u z (c₁.onP p fun a => { a with rxTaken := true }) := h₁.beside rfl rfl
    exact htaken.setOther hF _ rfl hp
  exact ite (h.beside rfl rfl) (ite h₁ (.apsEval hF k hp (.causeIf hF k _ (leaves_other hF rfl) hp (.setOther hF _ rfl hp h₂))))

omit hF in
/-- The consequent actions in the transmitted signal. -/
theorem consequent (i d : Nat) (h : Lines F u z c) : Lines F u z (c.consequent i d) := h.onU i fun _ => rfl

end Lines
end Chip
end Sys2Proof.Machine
end

section
/-! PROOFS. The defects of an uplink: their sets, their masks, and what an edge makes of them (R112 to R127). -/

namespace Sys2Proof.Machine
open Sys2Proof Chip

/-! ### Sets of defects -/

theorem setBit_lt {s n w : Nat} (b : Bool) (hs : s < 2 ^ w) (hn : n < w) : setBit s n b < 2 ^ w := by
  have hbit : (2 : Nat) ^ n < 2 ^ w := Nat.pow_lt_pow_right (by omega) hn
  unfold setBit
  split
  · exact Nat.or_lt_two_pow hs hbit
  · split
    · exact lt_of_le_of_lt (Nat.sub_le _ _) hs
    · exact hs
theorem setBit_absent {s n : Nat} (h : has s n = false) : setBit s n false = s := by
  unfold setBit
  rw [if_neg Bool.false_ne_true]
  exact if_neg (by rw [show s.testBit n = false from h]; decide)
theorem ite_lt {p : Prop} [Decidable p] {a b w : Nat} (ha : a < 2 ^ w) (hb : b < 2 ^ w) : (if p then a else b) < 2 ^ w := by
  split <;> assumption
theorem has_ite {p : Prop} [Decidable p] {a b i : Nat} {v : Bool} (ha : has a i = v) (hb : has b i = v) : has (if p then a else b) i = v := by
  split <;> assumption
theorem foldl_lt {w : Nat} {f : Nat → Nat → Nat} (l : List Nat) {s : Nat} (hs : s < 2 ^ w) (hf : ∀ a n, n ∈ l → a < 2 ^ w → f a n < 2 ^ w) :
    l.foldl f s < 2 ^ w := by
  induction l generalizing s with
  | nil => exact hs
  | cons n r ih =>
    exact ih (hf s n (List.mem_cons_self ..) hs) fun a m hm => hf a m (List.mem_cons_of_mem _ hm)
theorem clearBits_lt {s w : Nat} (l : List Nat) (hs : s < 2 ^ w) (hl : ∀ n ∈ l, n < w) : clearBits s l < 2 ^ w :=
  foldl_lt l hs fun _ n hn ha => setBit_lt false ha (hl n hn)
theorem setBits_lt {s w : Nat} (l : List Nat) (hs : s < 2 ^ w) (hl : ∀ n ∈ l, n < w) : setBits s l < 2 ^ w :=
  foldl_lt l hs fun _ n hn ha => setBit_lt true ha (hl n hn)
theorem keepBits_lt {w : Nat} (s : Nat) (l : List Nat) (hl : ∀ n ∈ l, n < w) : keepBits s l < 2 ^ w :=
  foldl_lt l (Nat.two_pow_pos w) fun _ n hn ha => by
    split
    · exact Nat.or_lt_two_pow ha (Nat.pow_lt_pow_right (by omega) (hl n hn))
    · exact ha
theorem has_clearBits (l : List Nat) (s i : Nat) : has (clearBits s l) i = (!l.contains i && has s i) := by
  induction l generalizing s with
  | nil => rfl
  | cons n r ih =>
    refine (ih (setBit s n false)).trans ?_
    rw [has_setBit, List.contains_cons]
    by_cases h : i = n
    · simp [h]
    · rw [if_neg h, beq_false_of_ne h, Bool.false_or]
theorem has_setBits (l : List Nat) (s i : Nat) : has (setBits s l) i = (l.contains i || has s i) := by
  induction l generalizing s with
  | nil => rfl
  | cons n r ih =>
    refine (ih (setBit s n true)).trans ?_
    rw [has_setBit, List.contains_cons]
    by_cases h : i = n
    · simp [h]
    · rw [if_neg h, beq_false_of_ne h, Bool.false_or]
theorem has_two_pow (n i : Nat) : has (2 ^ n) i = decide (n = i) := Nat.testBit_two_pow
theorem has_keepBits (s : Nat) (l : List Nat) (i : Nat) : has (keepBits s l) i = (l.contains i && has s i) := by
  have hfold : ∀ a, has (l.foldl (fun a n => if has s n then a ||| 2 ^ n else a) a) i = (has a i || l.contains i && has s i) := by
    induction l with
    | nil => simp
    | cons n r ih =>
      intro a
      rw [List.foldl_cons, ih, List.contains_cons]
      by_cases h : i = n
      · subst h
        cases hs : has s i <;> simp [has_or, has_two_pow]
      · rw [beq_false_of_ne h, Bool.false_or]
        split <;> simp [has_or, has_two_pow, Ne.symm h]
  rw [keepBits, hfold, has_zero, Bool.false_or]

/-- A set of the 27 defects of an uplink in which LOS is present or absent. -/
structure Flagged (los : Bool) (raw : Nat) : Prop where
  lt : raw < 2 ^ 27
  los : has raw dLOS = los

namespace Flagged
variable {los : Bool} {raw : Nat}

theorem of_lt (h : raw < 2 ^ 27) : Flagged (has raw dLOS) raw := ⟨h, rfl⟩
theorem setBit {n : Nat} (b : Bool) (hn : 0 < n ∧ n < 27) (h : Flagged los raw) : Flagged los (setBit raw n b) :=
  ⟨setBit_lt b h.lt hn.2, by
    have hne : dLOS ≠ n := Nat.ne_of_lt hn.1
    rw [has_setBit, if_neg hne]
    exact h.los⟩

end Flagged

namespace Chip

theorem holdDefs_lt (c : Chip) (u : Nat) {raw : Nat} (h : raw < 2 ^ 27) : c.holdDefs u raw < 2 ^ 27 := by
  unfold holdDefs
  extract_lets m r₁ r₂ base r₃ r₄ r₅ r₆ r₇
  have h₁ : r₁ < 2 ^ 27 := ite_lt (setBit_lt _ h (by decide)) h
  have h₂ : r₂ < 2 ^ 27 := ite_lt (setBit_lt _ h₁ (by decide)) h₁
  have h₃ : r₃ < 2 ^ 27 := ite_lt (setBits_lt _ h₂ (by decide)) h₂
  have h₄ : r₄ < 2 ^ 27 := ite_lt (clearBits_lt _ h₃ (by decide)) h₃
  have h₅ : r₅ < 2 ^ 27 := ite_lt (clearBits_lt _ h₄ (by decide)) h₄
  have h₆ : r₆ < 2 ^ 27 := ite_lt (clearBits_lt _ h₅ (by decide)) h₅
  have h₇ : r₇ < 2 ^ 27 := ite_lt h₆ (setBit_lt _ h₆ (by decide))
  exact ite_lt (clearBits_lt _ h₇ (by decide)) h₇
theorem maskDefs_lt (c : Chip) (u : Nat) {raw : Nat} (h : raw < 2 ^ 27) : c.maskDefs u raw < 2 ^ 27 := by
  unfold maskDefs
  extract_lets m r₁
  have h₁ : r₁ < 2 ^ 27 := clearBits_lt _ h (by decide)
  have heth : (if has raw dNOBLK then 2 ^ dNOBLK else keepBits raw [dHIBER, dLFRX, dRFRX, dFECNOAL, dEDEG]) < 2 ^ 27 :=
    ite_lt (by decide) (keepBits_lt _ _ (by decide))
  have hotn : (if anyBit r₁ statBits then clearBits r₁ [dPMTIM, dPMBDI, dPMDEG, dPLM, dTCMLTC, dTCMBDI, dTCMDEG] else r₁) < 2 ^ 27 :=
    ite_lt (clearBits_lt _ h₁ (by decide)) h₁
  exact ite_lt (by decide) (ite_lt (by decide) (ite_lt (by decide) (ite_lt (by decide)
    (ite_lt heth (ite_lt (keepBits_lt _ _ (by decide)) (ite_lt (keepBits_lt _ _ (by decide)) hotn))))))

/-! ### The masks read the live bank alone -/

theorem maskDefs_congr {a c : Chip} (h : ∀ f r, a.lv f r = c.lv f r) (u raw : Nat) : a.maskDefs u raw = c.maskDefs u raw := by
  unfold maskDefs on
  simp only [h]
theorem sfOf_congr {a c : Chip} (h : ∀ f r, a.lv f r = c.lv f r) (u d : Nat) : a.sfOf u d = c.sfOf u d := by
  unfold sfOf on
  simp only [h]
theorem sdOf_congr {a c : Chip} (h : ∀ f r, a.lv f r = c.lv f r) (u d : Nat) : a.sdOf u d = c.sdOf u d := by
  unfold sdOf
  simp only [h, sfOf_congr h]

/-! ### What holds in the sets that the masks give -/

/-- Loss of signal is held but in loopback. -/
theorem has_holdDefs_los (c : Chip) (u raw : Nat) (hl : c.on UPL.LOOPNE u = false) : has (c.holdDefs u raw) dLOS = has raw dLOS := by
  unfold holdDefs
  rw [hl]
  extract_lets m r₁ r₂ base r₃ r₄ r₅ r₆ r₇
  have h₂ : has r₂ dLOS = has raw dLOS := has_ite (has_setBit ..) rfl
  have h₃ : has r₃ dLOS = has raw dLOS := has_ite ((has_setBits ..).trans h₂) h₂
  have h₄ : has r₄ dLOS = has raw dLOS := has_ite ((has_clearBits ..).trans h₃) h₃
  have h₅ : has r₅ dLOS = has raw dLOS := has_ite ((has_clearBits ..).trans h₄) h₄
  have h₆ : has r₆ dLOS = has raw dLOS := has_ite ((has_clearBits ..).trans h₅) h₅
  have h₇ : has r₇ dLOS = has raw dLOS := has_ite h₆ ((has_setBit ..).trans h₆)
  exact has_ite ((has_clearBits ..).trans h₇) h₇
/-- On a line that is up, the line defects and the block lock are held as they are, and local fault while block lock stands. -/
theorem has_holdDefs_up (c : Chip) (u raw : Nat) (hup : c.lineDown u raw = false) {i : Nat}
    (hi : i = dLOS ∨ i = dLOL ∨ i = dNOBLK ∨ i = dLFRX ∧ has raw dNOBLK = false) : has (c.holdDefs u raw) i = has raw i := by
  have hlos : has raw dLOS = false := by simp_all [lineDown, anyBit]
  unfold holdDefs
  extract_lets m r₁ r₂ base r₃ r₄ r₅ r₆ r₇
  have h₁ : r₁ = raw := by
    show (if c.on UPL.LOOPNE u then setBit raw dLOS false else raw) = raw
    rw [setBit_absent hlos, ite_self]
  have h₂ : r₂ = raw := by
    show (if has r₁ dLOS then setBit r₁ dLOL false else r₁) = raw
    rw [h₁, hlos]
    rfl
  have hbase : base = false := (congrArg (c.lineDown u) h₂).trans hup
  clear_value r₂ base
  subst h₂ hbase
  have h₇ : ∀ j, [dLOS, dLOL, dNOBLK, dLFRX].contains j = true → has r₇ j = has r₂ j := fun j hj => by
    have clear : ∀ (l : List Nat) {s : Nat}, (l.all fun n => !List.contains [dLOS, dLOL, dNOBLK, dLFRX] n) = true → has s j = has r₂ j →
        has (clearBits s l) j = has r₂ j := fun l s hl hs => by
      have hout : l.contains j = false := by
        rw [← Bool.not_eq_true, List.contains_iff_mem]
        intro hm
        have hno := List.all_eq_true.mp hl j hm
        rw [hj] at hno
        cases hno
      rw [has_clearBits, hs, hout]
      rfl
    have h₄ : has r₄ j = has r₂ j := has_ite (clear _ rfl rfl) rfl
    have h₅ : has r₅ j = has r₂ j := has_ite (clear _ rfl h₄) h₄
    have h₆ : has r₆ j = has r₂ j := has_ite (clear _ rfl h₅) h₅
    exact has_ite h₆ (clear [dFECNOAL] rfl h₆)
  rcases hi with rfl | rfl | rfl | ⟨rfl, hlock⟩
  · exact has_ite ((has_clearBits ..).trans (h₇ _ rfl)) (h₇ _ rfl)
  · exact has_ite ((has_clearBits ..).trans (h₇ _ rfl)) (h₇ _ rfl)
  · exact has_ite ((has_clearBits ..).trans (h₇ _ rfl)) (h₇ _ rfl)
  · rw [h₇ dNOBLK rfl, hlock]
    exact h₇ _ rfl

end Chip
end Sys2Proof.Machine
end

section
/-! PROOFS. The defects of an uplink become others: DEF, SF and SD, and all that follows them (R120 to R122). -/

namespace Sys2Proof.Machine
open Sys2Proof
namespace Chip

/-- Measurements and counts of an uplink that stand apart from its defects. -/
def uplMeasured : List Fld := [UPLSTAT.TEMP, UPLSTAT.RXPWR, UPLSTAT.FECCOR, UPLSTAT.FECUNC]
/-- What of the status of an uplink stays while the consequences of its defects take effect. -/
def uplKept : List Fld := UPLSTAT.DEF :: UPLSTAT.SF :: UPLSTAT.SD :: uplMeasured

/-- The uplink's defects become `raw`, and DEF, SF and SD read them. -/
def writeDefs (c : Chip) (u raw : Nat) : Chip :=
  let raw := c.holdDefs u raw
  let d := c.maskDefs u raw
  (((c.onU u fun x => { x with defs := raw }).setSt UPLSTAT.DEF u d).setSt UPLSTAT.SF u (bit (c.sfOf u d))).setSt UPLSTAT.SD u (bit (c.sdOf u d))

theorem gccQu_lt (c : Chip) (u : Nat) : c.lv UPL.GCCQU u < 4096 := lt_of_lt_of_le (Fld.get_lt UPL.GCCQU _) (by decide)
theorem uplKept_words : uplKept.all Fld.uplWord = true := rfl
theorem uplMeasured_words : uplMeasured.all Fld.uplWord = true := rfl
theorem uplMeasured_kept (f : Fld) (q : Nat) (h : dropWords uplMeasured f q) : dropWords uplKept f q :=
  ⟨List.mem_cons_of_mem _ (List.mem_cons_of_mem _ (List.mem_cons_of_mem _ h.1)), h.2⟩

/-! ### The words written -/

theorem writeDefs_reads (c : Chip) {u : Nat} (raw : Nat) (hu : u < 4) :
    Reads (dropWords uplMeasured) c (c.writeDefs u raw) := by
  have hr : u < 4096 := by omega
  have hF := uplMeasured_words
  unfold writeDefs
  exact .setSt _ (clears_of_uplWord hF rfl hr) (.setSt _ (clears_of_uplWord hF rfl hr) (.setSt _ (clears_of_uplWord hF rfl hr)
    ((Reads.refl c).beside rfl)))
theorem writeDefs_lv (c : Chip) (u raw : Nat) (f : Fld) (r : Nat) : (c.writeDefs u raw).lv f r = c.lv f r := by
  unfold writeDefs
  rw [lv_setSt, lv_setSt, lv_setSt]
  rfl
theorem writeDefs_wf {c : Chip} (u raw : Nat) (hw : c.heath.status.wf = true) : (c.writeDefs u raw).heath.status.wf = true := by
  unfold writeDefs
  exact setSt_wf _ _ _ _ (setSt_wf _ _ _ _ (setSt_wf _ _ _ _ hw))
theorem writeDefs_defs (c : Chip) {u : Nat} (raw : Nat) (hu : u < 4) : ((c.writeDefs u raw).u u).defs = c.holdDefs u raw := by
  unfold writeDefs
  rw [Chip.u, setSt_upl, setSt_upl, setSt_upl]
  exact congrArg Uplink.defs (u_onU_same c u (fun x => { x with defs := c.holdDefs u raw }) hu)
theorem writeDefs_st {c : Chip} {u raw : Nat} (hu : u < 4) (hw : c.heath.status.wf = true) (hraw : raw < 2 ^ 27) :
    (c.writeDefs u raw).st UPLSTAT.DEF u = c.maskDefs u (c.holdDefs u raw) ∧
      (c.writeDefs u raw).st UPLSTAT.SF u = bit (c.sfOf u (c.maskDefs u (c.holdDefs u raw))) ∧
      (c.writeDefs u raw).st UPLSTAT.SD u = bit (c.sdOf u (c.maskDefs u (c.holdDefs u raw))) := by
  have hr : u < 4096 := by omega
  have hd := maskDefs_lt c u (holdDefs_lt c u hraw)
  have hbit : ∀ b : Bool, bit b % 2 = bit b := by decide
  unfold writeDefs
  dsimp only
  generalize c.maskDefs u (c.holdDefs u raw) = d at hd ⊢
  have hw₀ : (c.onU u fun x => { x with defs := c.holdDefs u raw }).heath.status.wf = true := hw
  generalize (c.onU u fun x => { x with defs := c.holdDefs u raw }) = a at hw₀
  have hw₁ := setSt_wf a UPLSTAT.DEF u d hw₀
  have hw₂ := setSt_wf _ UPLSTAT.SF u (bit (c.sfOf u d)) hw₁
  refine ⟨?_, ?_, ?_⟩
  · rw [st_setSt_other _ hw₂ rfl rfl hr hr (.inr (.inr rfl)), st_setSt_other _ hw₁ rfl rfl hr hr (.inr (.inr rfl)),
      st_setSt_same _ _ _ _ hw₀ (by decide)]
    exact Nat.mod_eq_of_lt hd
  · rw [st_setSt_other _ hw₂ rfl rfl hr hr (.inr (.inr rfl)), st_setSt_same _ _ _ _ hw₁ (by decide)]
    exact hbit _
  · rw [st_setSt_same _ _ _ _ hw₂ (by decide)]
    exact hbit _

/-! ### What follows them -/

/-- After the words are written, all that follows leaves them, and the uplink's measurements. -/
theorem setDefs_lines (c : Chip) (k : Clock) {u : Nat} (raw extra : Nat) (hu : u < 4) :
    Lines uplKept u (c.writeDefs u raw) (c.setDefs k u raw extra) := by
  have hr : u < 4096 := by omega
  have hF := uplKept_words
  unfold setDefs
  extract_lets hraw d sf sd was wasSf wasSd c₁ rise c₂ c₃ c₄ src c₅ c₆ c₇ c₈ c₉ c₁₀ c₁₁ c₁₂
  have h₁ : Lines uplKept u (c.writeDefs u raw) c₁ := .refl _
  clear_value c₁
  have h₂ : Lines uplKept u (c.writeDefs u raw) c₂ := .ite (.addSt hF 1 rfl hr h₁) h₁
  clear_value c₂
  have h₃ : Lines uplKept u (c.writeDefs u raw) c₃ := .causeIf hF k _ rfl hr h₂
  clear_value c₃
  have h₄ : Lines uplKept u (c.writeDefs u raw) c₄ := h₃.consequent u d
  clear_value c₄
  have hsrc : ∀ {a : Chip} {n : Nat} (b : Bool), n < 16 → Lines uplKept u (c.writeDefs u raw) a → Lines uplKept u (c.writeDefs u raw) (src a n b) :=
    fun b hn ha => ha.calm hF (.setCond k _ _ (by omega) (.refl _))
  have h₅ : Lines uplKept u (c.writeDefs u raw) c₅ := hsrc _ (by decide) (hsrc _ (by decide) (hsrc _ (by decide) (hsrc _ (by decide) h₄)))
  clear_value c₅
  have h₆ : Lines uplKept u (c.writeDefs u raw) c₆ := hsrc _ (by decide) (hsrc _ (by decide) (hsrc _ (by decide) (hsrc _ (by decide) h₅)))
  clear_value c₆
  have h₇ : Lines uplKept u (c.writeDefs u raw) c₇ := hsrc _ (by decide) (hsrc _ (by decide) (hsrc _ (by decide) (hsrc _ (by decide) h₆)))
  clear_value c₇
  have h₈ : Lines uplKept u (c.writeDefs u raw) c₈ := hsrc _ (by decide) (hsrc _ (by decide) h₇)
  clear_value c₈
  have h₉ : Lines uplKept u (c.writeDefs u raw) c₉ := .ite (.setRefDef hF k (by omega) 4 true h₈) h₈
  clear_value c₉
  have h₁₀ : Lines uplKept u (c.writeDefs u raw) c₁₀ := .ite (.beside h₉ rfl rfl) h₉
  clear_value c₁₀
  have h₁₁ : Lines uplKept u (c.writeDefs u raw) c₁₁ := .ite (.endRx hF k u (.gccRewind hF k u (gccQu_lt _ u) h₁₀)) h₁₀
  clear_value c₁₁
  have h₁₂ : Lines uplKept u (c.writeDefs u raw) c₁₂ := .ite (.apsLfd hF k (by omega) h₁₁) h₁₁
  exact .ite (.apsEval hF k (by omega) h₁₂) h₁₂

/-- What an uplink's defects, become `raw`, leave: DEF, SF and SD read them, and what else of its status is kept is as `z` has it. -/
structure DefsSet (u raw : Nat) (z c : Chip) : Prop where
  reads : Reads (dropWords uplMeasured) z c
  lv : ∀ f r, c.lv f r = z.lv f r
  defs : (c.u u).defs = z.holdDefs u raw
  masked : z.heath.status.wf = true → c.st UPLSTAT.DEF u = z.maskDefs u (z.holdDefs u raw)
  sf : z.heath.status.wf = true → c.st UPLSTAT.SF u = bit (z.sfOf u (z.maskDefs u (z.holdDefs u raw)))
  sd : z.heath.status.wf = true → c.st UPLSTAT.SD u = bit (z.sdOf u (z.maskDefs u (z.holdDefs u raw)))

theorem setDefs_spec (c : Chip) (k : Clock) {u raw : Nat} (extra : Nat) (hu : u < 4) (hraw : raw < 2 ^ 27) :
    DefsSet u raw c (c.setDefs k u raw extra) := by
  have h := setDefs_lines c k raw extra hu
  have hr : u < 4096 := by omega
  exact {
    reads := (writeDefs_reads c raw hu).trans (h.toReads.mono uplMeasured_kept)
    lv := fun f r => (h.lv_eq f r).trans (writeDefs_lv c u raw f r)
    defs := h.defs.trans (writeDefs_defs c raw hu)
    masked := fun hw => (h.st_eq (writeDefs_wf u raw hw) rfl hr).trans (writeDefs_st hu hw hraw).1
    sf := fun hw => (h.st_eq (writeDefs_wf u raw hw) rfl hr).trans (writeDefs_st hu hw hraw).2.1
    sd := fun hw => (h.st_eq (writeDefs_wf u raw hw) rfl hr).trans (writeDefs_st hu hw hraw).2.2 }

theorem DefsSet.lines {u raw : Nat} {z c a : Chip} (h : DefsSet u raw z c) (hu : u < 4)
    (g : Lines uplKept u c a) : DefsSet u raw z a where
  reads := h.reads.trans (g.toReads.mono uplMeasured_kept)
  lv f r := (g.lv_eq f r).trans (h.lv f r)
  defs := g.defs.trans h.defs
  masked hw := (g.st_eq (h.reads.wf hw) rfl (by omega)).trans (h.masked hw)
  sf hw := (g.st_eq (h.reads.wf hw) rfl (by omega)).trans (h.sf hw)
  sd hw := (g.st_eq (h.reads.wf hw) rfl (by omega)).trans (h.sd hw)
theorem DefsSet.defsRead {u raw : Nat} {z c : Chip} (h : DefsSet u raw z c) (hw : z.heath.status.wf = true) : c.defsRead u := by
  unfold Chip.defsRead
  rw [maskDefs_congr h.lv, sfOf_congr h.lv, sdOf_congr h.lv, h.defs, h.masked hw]
  exact ⟨rfl, h.sf hw, h.sd hw⟩

end Chip
end Sys2Proof.Machine
end

section
/-! PROOFS. A received OTU2 frame, an event of the PCS, and the integration window, up to the defects that they give (R112 to R119, R123). -/

namespace Sys2Proof.Machine
open Sys2Proof

theorem Flagged.of_ite {los : Bool} {α : Type} {p : Prop} [Decidable p] {x y : α × Nat} {a : α} {b : Nat}
    (e : (if p then x else y) = (a, b)) (hx : Flagged los x.2) (hy : Flagged los y.2) : Flagged los b := by
  obtain rfl : (if p then x else y).2 = b := congrArg Prod.snd e
  split <;> assumption
theorem Flagged.ite {los : Bool} {p : Prop} [Decidable p] {a b : Nat} (ha : Flagged los a) (hb : Flagged los b) : Flagged los (if p then a else b) := by
  split <;> assumption

namespace Chip
namespace Lines
variable {F : List Fld} {u : Nat} {z c : Chip}

theorem of_ite {a : Chip} {α : Type} {p : Prop} [Decidable p] {x y : Chip × α} {b : α}
    (e : (if p then x else y) = (a, b)) (hx : Lines F u z x.1) (hy : Lines F u z y.1) : Lines F u z a := by
  obtain rfl : (if p then x else y).1 = a := congrArg Prod.fst e
  split <;> assumption

/-! ### Communication channels -/

theorem qBegin (hF : F.all Fld.uplWord = true) (k : Clock) {i : Nat} (kind unit : Nat) (hi : i < 4096) (h : Lines F u z c) :
    Lines F u z (c.qBegin k i kind unit) :=
  have hq := h.qRewind hF k kind unit hi
  hq.beside rfl rfl
theorem gccByte (hF : F.all Fld.uplWord = true) (hd : leaves F UPLSTAT.GCCDROP = true) (k : Clock) {i q : Nat} (b : Byte) (hi : i < 4096) (hq : q < 4096)
    (h : Lines F u z c) : Lines F u z (c.gccByte k i q b) := by
  unfold Chip.gccByte
  extract_lets all
  exact ite h (ite (.onU i (fun _ => rfl) (h.addSt hF 1 hd hi)) (h.qPush hF k 3 i [b] hq))
theorem gccFrame (hF : F.all Fld.uplWord = true) (hd : leaves F UPLSTAT.GCCDROP = true) (k : Clock) {i : Nat} (f : OtnRx) (hi : i < 4096)
    (h : Lines F u z c) : Lines F u z (c.gccFrame k i f) := by
  have hq := gccQu_lt c i
  unfold Chip.gccFrame
  extract_lets q c₁ c₂ c₃
  have h₁ : Lines F u z c₁ := ite (.onU i (fun _ => rfl) (h.qBegin hF k 3 i hq)) h
  clear_value c₁
  have h₂ : Lines F u z c₂ := h₁.foldl _ fun a b ha => ha.gccByte hF hd k b hi hq
  clear_value c₂
  have h₃ : Lines F u z c₃ := ite (h₂.beside rfl rfl) (ite (.qDropped hF k hq (h₂.beside rfl rfl)) (h₂.beside rfl rfl))
  exact ite h (ite h₁ (ite (h₃.onU i fun _ => rfl) h₂))

/-! ### A frame -/

/-- The FEC counts stand apart from the values that a frame offers. -/
theorem takeTti (i : Nat) {rx : Fld} (bs : List Byte) (hF : F.all Fld.uplWord = true) (hrx : ∀ j < 16, leaves F (rx.at j) = true) (hi : i < 4096)
    (h : Lines F u z c) : Lines F u z (c.takeTti i rx bs).1 := by
  unfold Chip.takeTti
  split
  · exact h
  · have hwrite : Lines F u z (Machine.overN 16 (fun j c => c.setSt (rx.at j) i (beVal ((bs.drop (4 * j)).take 4))) c) :=
      h.overN 16 fun j hj a ha => ha.setSt hF _ (hrx j hj) hi
    exact hwrite

end Lines

/-- The FEC counts of an uplink. -/
def fecCounts : List Fld := [UPLSTAT.FECCOR, UPLSTAT.FECUNC]
theorem fecCounts_words : fecCounts.all Fld.uplWord = true := rfl

theorem alignFrame_lines {F : List Fld} (c : Chip) (u raw : Nat) (f : OtnRx) : Lines F u c (c.alignFrame u raw f).1 := .onU u (fun _ => rfl) (.refl c)
theorem alignFrame_flagged {los : Bool} {raw : Nat} (c : Chip) (u : Nat) (f : OtnRx) (h : Flagged los raw) : Flagged los (c.alignFrame u raw f).2 :=
  .setBit _ (by decide) (.setBit _ (by decide) h)
theorem overheadFrame_lines {F : List Fld} (c : Chip) (u raw : Nat) (f : OtnRx) : Lines F u c (c.overheadFrame u raw f).1 := .onU u (fun _ => rfl) (.refl c)
theorem overheadFrame_flagged {los : Bool} {raw : Nat} (c : Chip) (u : Nat) (f : OtnRx) (h : Flagged los raw) : Flagged los (c.overheadFrame u raw f).2 :=
  .setBit _ (by decide) (.setBit _ (by decide) (.setBit _ (by decide) (.setBit _ (by decide) (.setBit _ (by decide) h))))
theorem acceptFrame_spec {los : Bool} {raw : Nat} (c : Chip) {u : Nat} (f : OtnRx) (hu : u < 4) (h : Flagged los raw) :
    Lines fecCounts u c (c.acceptFrame u raw f).1 ∧ Flagged los (c.acceptFrame u raw f).2.1 := by
  have hr : u < 4096 := by omega
  have hF := fecCounts_words
  unfold acceptFrame
  extract_lets m x pt st src ts
  split
  · exact ⟨.onU u (fun _ => rfl) (.refl c), h⟩
  · split
    next sm smOk _ =>
    split
    next pm pmOk _ =>
    extract_lets c₁
    have h₁ : Lines fecCounts u c c₁ := .onU u (fun _ => rfl) (.refl c)
    clear_value c₁ pt st ts
    split
    next c₂ smNew e₂ =>
    have h₂ : Lines fecCounts u c c₂ := .of_ite e₂ (h₁.takeTti u _ hF (by decide) hr) h₁
    split
    next c₃ pmNew e₃ =>
    have h₃ : Lines fecCounts u c c₃ := .of_ite e₃ (h₂.takeTti u _ hF (by decide) hr) h₂
    extract_lets r₁ r₂
    have f₂ : Flagged los r₂ := .ite (.setBit _ (by decide) (.ite (.setBit _ (by decide) h) h)) (.ite (.setBit _ (by decide) h) h)
    clear_value r₂
    split
    next c₄ r₃ e₄ =>
    have h₄ : Lines fecCounts u c c₄ := .of_ite e₄ (h₃.setSt hF _ rfl hr) h₃
    have f₃ : Flagged los r₃ := .of_ite e₄ (f₂.setBit _ (by decide)) f₂
    split
    next c₅ r₄ e₅ =>
    have h₅ : Lines fecCounts u c c₅ := .of_ite e₅ (h₄.setSt hF _ rfl hr) h₄
    have f₄ : Flagged los r₄ := .of_ite e₅ (.setBit _ (by decide) (.setBit _ (by decide) (.setBit _ (by decide) f₃))) f₃
    split
    next c₆ r₅ e₆ =>
    exact ⟨.of_ite e₆ (h₅.setSt hF _ rfl hr) h₅, .of_ite e₆ (f₄.setBit _ (by decide)) f₄⟩

theorem countLayer_lines {c z : Chip} {F : List Fld} {u : Nat} {bipF beiF : Fld} (bip bei : Nat) (hF : F.all Fld.uplWord = true)
    (hbip : leaves F bipF = true) (hbei : leaves F beiF = true) (hu : u < 4) (h : Lines F u z c) : Lines F u z (c.countLayer u bipF beiF bip bei) :=
  .addSt hF _ hbei (by omega) (h.addSt hF _ hbip (by omega))
/-- The FEC figures of a frame count, whatever the layers count. -/
theorem countFrame_spec (c : Chip) {u : Nat} (raw : Nat) (f : OtnRx) (hu : u < 4) :
    Lines [] u c (c.countFrame u raw f) ∧ (c.heath.status.wf = true →
      (c.countFrame u raw f).st UPLSTAT.FECCOR u = wrapAdd UPLSTAT.FECCOR.width (c.st UPLSTAT.FECCOR u) f.fecCor ∧
      (c.countFrame u raw f).st UPLSTAT.FECUNC u = wrapAdd UPLSTAT.FECUNC.width (c.st UPLSTAT.FECUNC u) f.fecUnc) := by
  have hr : u < 4096 := by omega
  have hF := fecCounts_words
  unfold countFrame
  extract_lets c₁ stat tcm c₂ c₃ c₄
  have h₁ : Lines [] u c c₁ := .addSt rfl _ rfl hr (.addSt rfl _ rfl hr (.addSt rfl _ rfl hr (.refl c)))
  have hst : c.heath.status.wf = true →
      c₁.st UPLSTAT.FECCOR u = wrapAdd UPLSTAT.FECCOR.width (c.st UPLSTAT.FECCOR u) f.fecCor ∧
      c₁.st UPLSTAT.FECUNC u = wrapAdd UPLSTAT.FECUNC.width (c.st UPLSTAT.FECUNC u) f.fecUnc := fun hw => by
    have hcor := st_addSt_same c UPLSTAT.FECCOR u f.fecCor hw (by decide)
    have kunc : Lines [UPLSTAT.FECUNC] u c ((c.addSt UPLSTAT.FECCOR u f.fecCor).addSt UPLSTAT.FECCW u f.fecCw) :=
      .addSt rfl _ rfl hr (.addSt rfl _ rfl hr (.refl c))
    have kcor : Lines [UPLSTAT.FECCOR] u (c.addSt UPLSTAT.FECCOR u f.fecCor) c₁ := .addSt rfl _ rfl hr (.addSt rfl _ rfl hr (.refl _))
    refine ⟨(kcor.st_eq (addSt_wf _ _ _ _ hw) rfl hr).trans hcor, ?_⟩
    refine (st_addSt_same _ UPLSTAT.FECUNC u f.fecUnc (kunc.wf hw) (by decide)).trans ?_
    rw [kunc.st_eq hw rfl hr, wrapAdd_eq]
  clear_value c₁
  have rest : ∀ {F z}, F.all Fld.uplWord = true → ([UPLSTAT.SMBIP, UPLSTAT.SMBEI, UPLSTAT.PMBIP, UPLSTAT.PMBEI, UPLSTAT.TCMBIP, UPLSTAT.TCMBEI].all (leaves F)) = true →
      Lines F u z c₁ → Lines F u z (c₄.onU u fun x => { x with
        lastBip := f.smBip
        lastPm := f.pmBip
        lastTcm := f.tcmBip
        smDeg := { x.smDeg with count := x.smDeg.count + bit (f.smBip != 0) }
        pmDeg := { x.pmDeg with count := x.pmDeg.count + bit (!stat && f.pmBip != 0) }
        tcmDeg := { x.tcmDeg with count := x.tcmDeg.count + bit (tcm && f.tcmBip != 0) } }) := fun {F z} hF hl h => by
    simp only [List.all_cons, List.all_nil, Bool.and_eq_true] at hl
    obtain ⟨l₁, l₂, l₃, l₄, l₅, l₆, -⟩ := hl
    have k₂ : Lines F u z c₂ := countLayer_lines _ _ hF l₁ l₂ hu h
    have k₃ : Lines F u z c₃ := .ite k₂ (countLayer_lines _ _ hF l₃ l₄ hu k₂)
    have k₄ : Lines F u z c₄ := .ite (countLayer_lines _ _ hF l₅ l₆ hu k₃) k₃
    exact k₄.onU u fun _ => rfl
  split
  · exact ⟨h₁, hst⟩
  · have k := rest hF rfl (.refl c₁)
    refine ⟨rest rfl rfl h₁, fun hw => ?_⟩
    rw [k.st_eq (h₁.wf hw) rfl hr, k.st_eq (h₁.wf hw) rfl hr]
    exact hst hw

/-! ### The frame as a whole -/

theorem readOtn_fecCor (c : Chip) (u : Nat) (f : OtnFrame) : (c.readOtn u (c.loopFrame u f)).fecCor = f.fecCor := by
  unfold loopFrame
  split <;> rfl
theorem readOtn_fecUnc (c : Chip) (u : Nat) (f : OtnFrame) : (c.readOtn u (c.loopFrame u f)).fecUnc = f.fecUnc := by
  unfold loopFrame
  split <;> rfl

/-- What a received frame leaves of its uplink. -/
structure FrameTaken (u : Nat) (f : OtnFrame) (z c : Chip) : Prop where
  read : z.heath.status.wf = true → c.defsRead u
  cor : z.heath.status.wf = true → c.st UPLSTAT.FECCOR u = wrapAdd UPLSTAT.FECCOR.width (z.st UPLSTAT.FECCOR u) f.fecCor
  unc : z.heath.status.wf = true → c.st UPLSTAT.FECUNC u = wrapAdd UPLSTAT.FECUNC.width (z.st UPLSTAT.FECUNC u) f.fecUnc

theorem otnFrame_spec (c : Chip) (k : Clock) {u : Nat} (f : OtnFrame) (hu : u < 4) (hotn : RuleCtx.otn (c.lv UPL.MODE u) = true)
    (hup : c.lineDown u (c.u u).defs = false) (hloop : c.loopDead u = false) (hlt : (c.u u).defs < 2 ^ 27) :
    FrameTaken u f c (c.otnFrame k u f) := by
  have hr : u < 4096 := by omega
  have hF := fecCounts_words
  have hcor := readOtn_fecCor c u f
  have hunc := readOtn_fecUnc c u f
  unfold otnFrame
  extract_lets raw g
  rw [hotn, hup, hloop, if_neg (by decide)]
  have f₀ : Flagged (has raw dLOS) raw := .of_lt hlt
  change g.fecCor = f.fecCor at hcor
  change g.fecUnc = f.fecUnc at hunc
  clear_value g
  have h₁ := alignFrame_lines (F := fecCounts) c u raw g
  have f₁ := alignFrame_flagged c u g f₀
  generalize c.alignFrame u raw g = p₁ at h₁ f₁
  obtain ⟨c₁, r₁⟩ := p₁
  have h₂ := acceptFrame_spec c₁ g hu f₁
  dsimp only
  generalize c₁.acceptFrame u r₁ g = p₂ at h₂
  obtain ⟨c₂, r₂, extra⟩ := p₂
  obtain ⟨h₂, f₂⟩ := h₂
  dsimp only
  generalize e₃ : (if anyBit r₂ [dLOF, dLOM] then (c₂.overheadHeld u, r₂) else c₂.overheadFrame u r₂ g) = p₃
  obtain ⟨c₃, r₃⟩ := p₃
  have h₃ : Lines fecCounts u c c₃ := (h₁.trans h₂).trans (.of_ite e₃ (.onU u (fun _ => rfl) (.refl c₂)) (overheadFrame_lines c₂ u r₂ g))
  have f₃ : Flagged (has raw dLOS) r₃ := .of_ite e₃ f₂ (overheadFrame_flagged c₂ u g f₂)
  dsimp only
  obtain ⟨h₄, hfec⟩ := countFrame_spec c₃ r₃ g hu
  generalize c₃.countFrame u r₃ g = c₄ at h₄ hfec
  have d₅ : DefsSet u r₃ c₄ ((c₄.setDefs k u r₃ extra).gccFrame k u g) :=
    (setDefs_spec c₄ k extra hu f₃.lt).lines hu (.gccFrame uplKept_words rfl k g hr (.refl _))
  generalize (c₄.setDefs k u r₃ extra).gccFrame k u g = c₅ at d₅
  have hd : DefsSet u r₃ c₄ (if g.mfas.toNat % 8 = 0 ∧ u % 2 = 1 then c₅.apsReceive k (u / 2) g.aps else c₅) :=
    d₅.lines hu (.ite (.apsReceive uplKept_words k (by omega) _ (.refl c₅)) (.refl c₅))
  generalize (if g.mfas.toNat % 8 = 0 ∧ u % 2 = 1 then c₅.apsReceive k (u / 2) g.aps else c₅) = t at hd
  have kept : ∀ {fld : Fld}, fld ∈ uplMeasured → c.heath.status.wf = true → t.st fld u = c₄.st fld u := fun hm hw =>
    hd.reads.stat (h₄.wf (h₃.wf hw)) _ _ ⟨hm, hr⟩
  exact {
    read := fun hw => hd.defsRead (h₄.wf (h₃.wf hw))
    cor := fun hw => by rw [kept (by simp [uplMeasured]) hw, (hfec (h₃.wf hw)).1, h₃.st_eq hw rfl hr, hcor]
    unc := fun hw => by rw [kept (by simp [uplMeasured]) hw, (hfec (h₃.wf hw)).2, h₃.st_eq hw rfl hr, hunc] }

end Chip
end Sys2Proof.Machine
end

section
/-! PROOFS. The defects of an uplink (O36): its integration window, received OTU2 frames, and block-level events (R112 to R127). -/

namespace Sys2Proof.Machine
open Sys2Proof
namespace Chip

/-! ### Block-level events of the PCS -/

theorem eth_iff {m : Nat} : RuleCtx.eth m = true ↔ m = 3 ∨ m = 4 := by simp [RuleCtx.eth]

/-- DEF of an Ethernet uplink whose line is up and checks no pattern. -/
theorem maskDefs_eth {c : Chip} {u d : Nat} (heth : RuleCtx.eth (c.lv UPL.MODE u) = true) (hpat : c.on UPL.PRBSC u = false)
    (hlos : has d dLOS = false) (hlol : has d dLOL = false) :
    c.maskDefs u d = if has d dNOBLK then 2 ^ dNOBLK else keepBits d [dHIBER, dLFRX, dRFRX, dFECNOAL, dEDEG] := by
  have hm : c.lv UPL.MODE u ≠ 0 := by rcases eth_iff.mp heth with h | h <;> omega
  unfold maskDefs
  dsimp only
  rw [if_neg hm, hlos, hlol, hpat, heth]
  rfl
/-- No block lock is a signal fail. -/
theorem sfOf_noblk {c : Chip} {u : Nat} (heth : RuleCtx.eth (c.lv UPL.MODE u) = true) : c.sfOf u (2 ^ dNOBLK) = true := by
  have hm : c.lv UPL.MODE u ≠ 0 := by rcases eth_iff.mp heth with h | h <;> omega
  unfold sfOf
  dsimp only
  rw [if_neg hm, heth]
  split
  · rfl
  · rfl

/-- An event makes the defects others, and touches the uplink's own state besides. -/
theorem pcsEvent_eq (c : Chip) (k : Clock) (u : Nat) (e : PcsEvent) (heth : RuleCtx.eth (c.lv UPL.MODE u) = true)
    (hloop : c.loopDead u = false) (hlt : (c.u u).defs < 2 ^ 27) :
    ∃ x raw, c.pcsEvent k u e = (c.onU u fun _ => x).setDefs k u raw 0 ∧ raw < 2 ^ 27 ∧
      (∀ g, e = .blockLock g → raw = setBit (c.u u).defs dNOBLK (!g)) ∧ (∀ p, e = .localFault p → raw = setBit (c.u u).defs dLFRX p) := by
  unfold pcsEvent
  rw [heth, hloop, if_neg (by decide)]
  extract_lets x raw fec
  have hraw : raw < 2 ^ 27 := hlt
  have bound : ∀ {n : Nat} (b : Bool) {s : Nat}, n < 27 → s < 2 ^ 27 → setBit s n b < 2 ^ 27 := fun b _ hn hs => setBit_lt b hs hn
  cases e with
  | blockLock g => exact ⟨_, _, rfl, bound _ (by decide) hraw, fun _ h => by cases h; rfl, (fun _ h => nomatch h)⟩
  | localFault p => exact ⟨_, _, rfl, bound _ (by decide) hraw, (fun _ h => nomatch h), fun _ h => by cases h; rfl⟩
  | remoteFault p => exact ⟨_, _, rfl, bound _ (by decide) hraw, (fun _ h => nomatch h), (fun _ h => nomatch h)⟩
  | fecAlign g => exact ⟨_, _, rfl, ite_lt (bound _ (by decide) hraw) hraw, (fun _ h => nomatch h), (fun _ h => nomatch h)⟩
  | headers l =>
    dsimp only
    split
    · exact ⟨_, _, rfl, hraw, (fun _ h => nomatch h), (fun _ h => nomatch h)⟩
    · exact ⟨_, _, rfl, bound _ (by decide) hraw, (fun _ h => nomatch h), (fun _ h => nomatch h)⟩
  | columns n seq =>
    dsimp only
    split
    · exact ⟨_, _, rfl, hraw, (fun _ h => nomatch h), (fun _ h => nomatch h)⟩
    · exact ⟨_, _, rfl, bound _ (by decide) (bound _ (by decide) hraw), (fun _ h => nomatch h), (fun _ h => nomatch h)⟩
  | codewords l =>
    dsimp only
    split
    · exact ⟨_, _, rfl, hraw, (fun _ h => nomatch h), (fun _ h => nomatch h)⟩
    · exact ⟨_, _, rfl, ite_lt (bound _ (by decide) hraw) hraw, (fun _ h => nomatch h), (fun _ h => nomatch h)⟩

/-- What an event leaves of its uplink. -/
structure EventTaken (u : Nat) (e : PcsEvent) (z c : Chip) : Prop where
  read : z.heath.status.wf = true → c.defsRead u
  lock : z.heath.status.wf = true → e = .blockLock false → c.st UPLSTAT.DEF u = 2 ^ 21 ∧ c.st UPLSTAT.SF u = 1
  fault : z.heath.status.wf = true → ∀ p, e = .localFault p → has (z.u u).defs 21 = false → has (c.st UPLSTAT.DEF u) 23 = p

theorem lineDown_setBit (c : Chip) (u raw : Nat) {n : Nat} (b : Bool) (h0 : dLOS ≠ n) (h1 : dLOL ≠ n) : c.lineDown u (setBit raw n b) = c.lineDown u raw := by
  unfold lineDown anyBit
  rw [List.any_cons, List.any_cons, List.any_cons, List.any_cons, has_setBit, has_setBit, if_neg h0, if_neg h1]
  rfl
theorem lineDown_iff {c : Chip} {u raw : Nat} :
    c.lineDown u raw = false ↔ has raw dLOS = false ∧ has raw dLOL = false ∧ c.on UPL.PRBSC u = false := by
  simp [lineDown, anyBit, and_assoc]

theorem pcsEvent_spec (c : Chip) (k : Clock) {u : Nat} (e : PcsEvent) (hu : u < 4) (heth : RuleCtx.eth (c.lv UPL.MODE u) = true)
    (hup : c.lineDown u (c.u u).defs = false) (hloop : c.loopDead u = false) (hlt : (c.u u).defs < 2 ^ 27) :
    EventTaken u e c (c.pcsEvent k u e) := by
  obtain ⟨x, raw, heq, hraw, hlock, hfault⟩ := c.pcsEvent_eq k u e heth hloop hlt
  rw [heq]
  have hd : DefsSet u raw (c.onU u fun _ => x) _ := setDefs_spec (c.onU u fun _ => x) k 0 hu hraw
  generalize (c.onU u fun _ => x).setDefs k u raw 0 = t at hd
  have hzw : c.heath.status.wf = true → (c.onU u fun _ => x).heath.status.wf = true := id
  have hzeth : RuleCtx.eth ((c.onU u fun _ => x).lv UPL.MODE u) = true := heth
  have hzup : ∀ {n b}, dLOS ≠ n → dLOL ≠ n → raw = setBit (c.u u).defs n b → (c.onU u fun _ => x).lineDown u raw = false := by
    rintro n b h0 h1 rfl
    exact (lineDown_setBit c u _ b h0 h1).trans hup
  generalize (c.onU u fun _ => x) = z at hd hzw hzeth hzup
  have masked : z.lineDown u raw = false → z.maskDefs u (z.holdDefs u raw) = if has (z.holdDefs u raw) dNOBLK then 2 ^ dNOBLK
      else keepBits (z.holdDefs u raw) [dHIBER, dLFRX, dRFRX, dFECNOAL, dEDEG] := fun h => by
    obtain ⟨h0, h1, hp⟩ := lineDown_iff.mp h
    exact maskDefs_eth hzeth hp ((has_holdDefs_up z u raw h (.inl rfl)).trans h0) ((has_holdDefs_up z u raw h (.inr (.inl rfl))).trans h1)
  refine ⟨fun hw => hd.defsRead (hzw hw), fun hw he => ?_, fun hw p he h21 => ?_⟩
  · have hr := hlock false he
    have hline := hzup (by decide) (by decide) hr
    have hno : has (z.holdDefs u raw) dNOBLK = true := by
      rw [has_holdDefs_up z u raw hline (.inr (.inr (.inl rfl))), hr, has_setBit, if_pos rfl]
      rfl
    have hdef : z.maskDefs u (z.holdDefs u raw) = 2 ^ dNOBLK := by rw [masked hline, hno, if_pos rfl]
    refine ⟨(hd.masked (hzw hw)).trans hdef, (hd.sf (hzw hw)).trans ?_⟩
    rw [hdef, sfOf_noblk hzeth]
    rfl
  · have hr := hfault p he
    have hline := hzup (by decide) (by decide) hr
    have hraw21 : has raw dNOBLK = false := by
      rw [hr, has_setBit, if_neg (by decide)]
      exact h21
    rw [hd.masked (hzw hw), masked hline, has_holdDefs_up z u raw hline (.inr (.inr (.inl rfl))), hraw21, if_neg (by decide)]
    refine (has_keepBits ..).trans ?_
    refine (has_holdDefs_up z u raw hline (.inr (.inr (.inr ⟨rfl, hraw21⟩)))).trans ?_
    rw [hr, has_setBit, if_pos rfl]

end Chip
end Sys2Proof.Machine
end

section
/-! PROOFS. The integration window of an uplink, and O36 (R118, R119, R126). -/

namespace Sys2Proof.Machine
open Sys2Proof
namespace Chip

/-! ### The measurements of the window -/

/-- The measurements that an uplink reports in its window. -/
def uplOptics : List Fld := [UPLSTAT.TEMP, UPLSTAT.RXPWR]
theorem uplOptics_words : uplOptics.all Fld.uplWord = true := rfl

theorem refreshOptics_lines (c : Chip) {u : Nat} (t : UplinkTick) (hu : u < 4) : Lines [] u c (c.refreshOptics u t) := by
  have hr : u < 4096 := by omega
  unfold refreshOptics
  exact .setSt rfl _ rfl hr (.setSt rfl _ rfl hr (.setSt rfl _ rfl hr (.setSt rfl _ rfl hr (.setSt rfl _ rfl hr (.refl c)))))
theorem refreshOptics_u (c : Chip) (u : Nat) (t : UplinkTick) : (c.refreshOptics u t).u u = c.u u := by
  unfold refreshOptics
  rw [Chip.u, setSt_upl, setSt_upl, setSt_upl, setSt_upl, setSt_upl]
  rfl
theorem refreshOptics_st {c : Chip} {u : Nat} (t : UplinkTick) (hu : u < 4) (hw : c.heath.status.wf = true) (hm : c.lv UPL.MODE u ≠ 0) :
    (c.refreshOptics u t).st UPLSTAT.TEMP u = unsigned 16 t.temp ∧
      (c.refreshOptics u t).st UPLSTAT.RXPWR u = if t.rxPwr < -4000 then 0x8000 else unsigned 16 t.rxPwr := by
  have hr : u < 4096 := by omega
  have hoff : (c.lv UPL.MODE u == 0) = false := beq_false_of_ne hm
  unfold refreshOptics
  rw [hoff]
  dsimp only
  generalize (if (c.u u).laser then unsigned 16 t.txPwr else 0x8000) = tx
  have hpwr : (if (false || decide (t.rxPwr < -4000)) = true then 0x8000 else unsigned 16 t.rxPwr) = if t.rxPwr < -4000 then 0x8000 else unsigned 16 t.rxPwr := by
    simp only [Bool.false_or, decide_eq_true_eq]
  have hlt : (if t.rxPwr < -4000 then 0x8000 else unsigned 16 t.rxPwr) < 2 ^ 16 := by
    split
    · decide
    · exact unsigned_lt _ _
  rw [hpwr]
  generalize (if t.rxPwr < -4000 then 0x8000 else unsigned 16 t.rxPwr) = rx at hlt
  have hw₁ := setSt_wf c UPLSTAT.TXPWR u tx hw
  generalize c.setSt UPLSTAT.TXPWR u tx = a at hw₁
  have hw₂ := setSt_wf a UPLSTAT.RXPWR u rx hw₁
  have hw₃ := setSt_wf _ UPLSTAT.TEMP u (unsigned 16 t.temp) hw₂
  have after : ∀ {F z}, F.all Fld.uplWord = true → leaves F UPLSTAT.LASBIAS = true → leaves F UPLSTAT.RXPPM = true → ∀ v w,
      Lines F u z ((z.setSt UPLSTAT.LASBIAS u v).setSt UPLSTAT.RXPPM u w) := fun hF h₁ h₂ _ _ => .setSt hF _ h₂ hr (.setSt hF _ h₁ hr (.refl _))
  have k := after (F := uplOptics) (z := (a.setSt UPLSTAT.RXPWR u rx).setSt UPLSTAT.TEMP u (unsigned 16 t.temp)) rfl rfl rfl
  refine ⟨((k _ _).st_eq hw₃ rfl hr).trans ?_, ((k _ _).st_eq hw₃ rfl hr).trans ?_⟩
  · exact (st_setSt_same _ _ _ _ hw₂ (by decide)).trans (Nat.mod_eq_of_lt (unsigned_lt _ _))
  · refine (st_setSt_other _ hw₂ rfl rfl hr hr (.inr (.inr rfl))).trans ?_
    exact (st_setSt_same _ _ _ _ hw₁ (by decide)).trans (Nat.mod_eq_of_lt hlt)

/-! ### The judgements -/

variable {F : List Fld}

theorem judgeLine_lines (c : Chip) (u raw : Nat) (t : UplinkTick) : Lines F u c (c.judgeLine u raw t).1 := .onU u (fun _ => rfl) (.refl c)
theorem judgeLine_lt (c : Chip) (u : Nat) {raw : Nat} (t : UplinkTick) (h : raw < 2 ^ 27) : (c.judgeLine u raw t).2 < 2 ^ 27 :=
  setBit_lt _ (setBit_lt _ h (by decide)) (by decide)
/-- Power below LOSSET is loss of signal at once, but in loopback. -/
theorem judgeLine_los (c : Chip) (u raw : Nat) {t : UplinkTick} (hlow : t.rxPwr < signed 16 (c.lv UPL.LOSSET u)) (hl : c.on UPL.LOOPNE u = false) :
    has (c.judgeLine u raw t).2 dLOS = true := by
  unfold judgeLine
  dsimp only
  rw [has_setBit, if_neg (by decide), has_setBit, if_pos rfl, hl, decide_eq_true hlow]
  rfl
theorem countTick_lines (c : Chip) {u : Nat} (raw : Nat) (t : UplinkTick) (hu : u < 4) : Lines uplOptics u c (c.countTick u raw t) := by
  have hr : u < 4096 := by omega
  have hF := uplOptics_words
  unfold countTick
  extract_lets m down prbs c₁ c₂
  have h₁ : Lines uplOptics u c c₁ := .ite (.addSt hF _ rfl hr (.refl c)) (.refl c)
  clear_value c₁
  have h₂ : Lines uplOptics u c c₂ := .onU u (fun _ => rfl) (.addSt hF _ rfl hr (.addSt hF _ rfl hr h₁))
  exact .ite (.ite (.addSt hF _ rfl hr (.addSt hF _ rfl hr (.addSt hF _ rfl hr h₂))) h₂) h₁
theorem judgeAlign_lines (c : Chip) (u raw : Nat) : Lines F u c (c.judgeAlign u raw).1 := .onU u (fun _ => rfl) (.refl c)
theorem judgeAlign_flagged {los : Bool} {raw : Nat} (c : Chip) (u : Nat) (h : Flagged los raw) : Flagged los (c.judgeAlign u raw).2 :=
  .setBit _ (by decide) (.setBit _ (by decide) h)
theorem judgeBer_lines (c : Chip) (u raw : Nat) (t : UplinkTick) : Lines F u c (c.judgeBer u raw t).1 := .onU u (fun _ => rfl) (.refl c)
theorem judgeBer_flagged {los : Bool} {raw : Nat} (c : Chip) (u : Nat) (t : UplinkTick) (h : Flagged los raw) : Flagged los (c.judgeBer u raw t).2 :=
  .setBit _ (by decide) h
theorem judgeDeg_lines (c : Chip) (u raw : Nat) (sf : Bool) : Lines F u c (c.judgeDeg u raw sf).1 := .onU u (fun _ => rfl) (.refl c)
theorem judgeDeg_flagged {los : Bool} {raw : Nat} (c : Chip) (u : Nat) (sf : Bool) (h : Flagged los raw) : Flagged los (c.judgeDeg u raw sf).2 :=
  .setBit _ (by decide) (.setBit _ (by decide) (.setBit _ (by decide) (.setBit _ (by decide) h)))
theorem judgeOptics_lines (c : Chip) (k : Clock) {u : Nat} (t : UplinkTick) (hu : u < 4) : Lines uplOptics u c (c.judgeOptics k u t).1 := by
  have hF := uplOptics_words
  unfold judgeOptics
  extract_lets x bad judged mon was now c₁
  have h₁ : Lines uplOptics u c c₁ := .onU u (fun _ => rfl) (.refl c)
  clear_value c₁
  exact (h₁.setSt hF (bit now) rfl (by omega)).calm hF (.setCond k _ _ (by omega) (.refl _))

/-! ### The window as a whole -/

/-- What the window leaves of its uplink. -/
structure Integrated (u : Nat) (t : UplinkTick) (z c : Chip) : Prop where
  read : z.heath.status.wf = true → c.defsRead u
  temp : z.heath.status.wf = true → c.st UPLSTAT.TEMP u = unsigned 16 t.temp
  pwr : z.heath.status.wf = true → c.st UPLSTAT.RXPWR u = if t.rxPwr < -4000 then 0x8000 else unsigned 16 t.rxPwr
  los : z.heath.status.wf = true → t.rxPwr < signed 16 (z.lv UPL.LOSSET u) → z.on UPL.LOOPNE u = false → c.st UPLSTAT.DEF u = 1

/-- Up to its defects the window keeps the measurements, and judges LOS once. -/
theorem integrate_defs (c : Chip) (k : Clock) {u : Nat} (t : UplinkTick) (hu : u < 4) (hm : c.lv UPL.MODE u ≠ 0) (hstart : (c.u u).start < k.ticks)
    (hlt : (c.u u).defs < 2 ^ 27) :
    ∃ z raw, Lines uplOptics u (c.refreshOptics u t) z ∧ DefsSet u raw z (c.integrate k u t) ∧
      Flagged (has ((c.refreshOptics u t).judgeLine u (c.u u).defs t).2 dLOS) raw := by
  have hr : u < 4096 := by omega
  have hu₀ := refreshOptics_u c u t
  have hm₀ : (c.refreshOptics u t).lv UPL.MODE u ≠ 0 := by rwa [(refreshOptics_lines c t hu).lv_eq]
  unfold integrate
  generalize c.refreshOptics u t = a at hu₀ hm₀
  dsimp only
  rw [hu₀, if_neg (not_or.mpr ⟨hm₀, by omega⟩)]
  have h₁ := judgeLine_lines (F := uplOptics) a u (c.u u).defs t
  have f₁ := judgeLine_lt a u t hlt
  generalize a.judgeLine u (c.u u).defs t = p₁ at h₁ f₁
  obtain ⟨c₁, r₁⟩ := p₁
  have f₁ : Flagged (has r₁ dLOS) r₁ := .of_lt f₁
  dsimp only at h₁ ⊢
  have h₂ := h₁.trans (countTick_lines c₁ r₁ t hu)
  generalize c₁.countTick u r₁ t = c₂ at h₂
  generalize e₃ : (if RuleCtx.otn (a.lv UPL.MODE u) = true then c₂.judgeAlign u r₁ else (c₂, r₁)) = p₃
  obtain ⟨c₃, r₃⟩ := p₃
  have h₃ : Lines uplOptics u a c₃ := .of_ite e₃ (h₂.trans (judgeAlign_lines c₂ u r₁)) h₂
  have f₃ : Flagged (has r₁ dLOS) r₃ := .of_ite e₃ (judgeAlign_flagged c₂ u f₁) f₁
  dsimp only
  generalize e₄ : (if (RuleCtx.eth (a.lv UPL.MODE u) && !c₃.lineDown u r₃ && !(c₃.u u).prbs && !has r₃ dNOBLK) = true then c₃.judgeBer u r₃ t
      else (c₃.onU u (fun x => { x with badSh := 0, berTicks := 0 }), r₃)) = p₄
  obtain ⟨c₄, r₄⟩ := p₄
  have h₄ : Lines uplOptics u a c₄ := .of_ite e₄ (h₃.trans (judgeBer_lines c₃ u r₃ t)) (h₃.onU u fun _ => rfl)
  have f₄ : Flagged (has r₁ dLOS) r₄ := .of_ite e₄ (judgeBer_flagged c₃ u t f₃) f₃
  dsimp only
  generalize c₄.sfOf u (c₄.maskDefs u (c₄.holdDefs u r₄)) = sf
  generalize e₅ : (if k.tickSec = 0 then c₄.judgeDeg u r₄ sf else (c₄.onU u (fun x => { x with sfSec := x.sfSec || sf }), r₄)) = p₅
  obtain ⟨c₅, r₅⟩ := p₅
  have h₅ : Lines uplOptics u a c₅ := .of_ite e₅ (h₄.trans (judgeDeg_lines c₄ u r₄ sf)) (h₄.onU u fun _ => rfl)
  have f₅ : Flagged (has r₁ dLOS) r₅ := .of_ite e₅ (judgeDeg_flagged c₄ u sf f₄) f₄
  dsimp only
  have h₆ := h₅.trans (judgeOptics_lines c₅ k t hu)
  generalize c₅.judgeOptics k u t = p₆ at h₆
  obtain ⟨c₆, alarm⟩ := p₆
  dsimp only at h₆ ⊢
  have hset : DefsSet u r₅ c₆ (c₆.setDefs k u r₅ (bit alarm * 2 ^ 28)) := setDefs_spec c₆ k _ hu f₅.lt
  generalize c₆.setDefs k u r₅ (bit alarm * 2 ^ 28) = c₇ at hset
  have hprbs : Lines uplKept u c₇ (c₇.onU u fun x => { x with prbs := c₆.on UPL.PRBSC u }) := .onU u (fun _ => rfl) (.refl c₇)
  refine ⟨c₆, r₅, h₆, hset.lines hu (.addSt uplKept_words _ rfl hr (.addSt uplKept_words _ rfl hr hprbs)), f₅⟩

theorem integrate_spec (c : Chip) (k : Clock) {u : Nat} (t : UplinkTick) (hu : u < 4) (hm : c.lv UPL.MODE u ≠ 0) (hstart : (c.u u).start < k.ticks)
    (hlt : (c.u u).defs < 2 ^ 27) : Integrated u t c (c.integrate k u t) := by
  have hr : u < 4096 := by omega
  obtain ⟨z, raw, hl, hd, hraw⟩ := integrate_defs c k t hu hm hstart hlt
  have h₀ := refreshOptics_lines c t hu
  have lv : ∀ f r, z.lv f r = c.lv f r := fun f r => (hl.lv_eq f r).trans (h₀.lv_eq f r)
  have kept : ∀ {f : Fld}, f ∈ uplMeasured → uplOptics.contains f = true → c.heath.status.wf = true →
      (c.integrate k u t).st f u = (c.refreshOptics u t).st f u := fun hm hc hw =>
    (hd.reads.stat (hl.wf (h₀.wf hw)) _ _ ⟨hm, hr⟩).trans (hl.st_eq (h₀.wf hw) hc hr)
  refine ⟨fun hw => hd.defsRead (hl.wf (h₀.wf hw)), fun hw => ?_, fun hw => ?_, fun hw hlow hloop => ?_⟩
  · exact (kept (by simp [uplMeasured]) rfl hw).trans (refreshOptics_st t hu hw hm).1
  · exact (kept (by simp [uplMeasured]) rfl hw).trans (refreshOptics_st t hu hw hm).2
  · have hloop₀ : (c.refreshOptics u t).on UPL.LOOPNE u = false := by rwa [on, h₀.lv_eq, ← on]
    have hloopz : z.on UPL.LOOPNE u = false := by rwa [on, lv, ← on]
    have hmz : z.lv UPL.MODE u ≠ 0 := by rwa [lv]
    have hlos : has (z.holdDefs u raw) dLOS = true := by
      rw [has_holdDefs_los z u raw hloopz, hraw.los]
      exact judgeLine_los _ u _ (by rwa [h₀.lv_eq]) hloop₀
    rw [hd.masked (hl.wf (h₀.wf hw))]
    unfold maskDefs
    dsimp only
    rw [if_neg hmz, if_pos hlos]
    rfl

end Chip

theorem uplinkIntegration_exec (u : Fin 4) (x : UplinkTick) {s : State} (hs : s.serving) (hi : s.clk.idx ≤ 15) (hdone : s.chip.done.contains u.val = false) :
    exec (.uplinkIntegration u x) s = .next { s with chip := { s.chip.integrate s.clk u.val x with done := u.val :: s.chip.done } } := by
  obtain ⟨hrun, -, -⟩ := id hs
  refine congrArg Host.Outcome.next ?_
  unfold State.inWindow
  rw [if_neg (by omega), State.actAt_running s 0 _ hrun, s.toIdx_self 0 (by omega)]
  dsimp only
  rw [hdone, if_neg (by decide)]

/-- Settles O36: each edge computes a raw set of defects, which R120's hold and mask turn into DEF, SF and SD, and all that follows leaves them. -/
theorem uplinkDefects : Obligations.UplinkDefects := by
  refine ⟨fun u x s hs hi hdone hm hstart hlt => ?_, fun u f s hs hotn hup hloop hlt => ?_, fun u e s hs heth hup hloop hlt => ?_,
    fun u f e s hm => ?_, fun u x s h => ?_⟩
  · have hj := Chip.integrate_spec s.chip s.clk x u.isLt hm hstart hlt
    have hkeep := (Chip.Keeps.refl s.chip).integrate s.clk u.val x
    have hw := hs.wf
    have hexec := uplinkIntegration_exec u x hs hi hdone
    generalize s.chip.integrate s.clk u.val x = c at hj hkeep hexec
    exact ⟨_, hexec, ⟨rfl, rfl, hkeep.withDone _⟩, List.mem_cons_self .., hj.read hw, hj.temp hw, hj.pwr hw, hj.los hw⟩
  · have hj := Chip.otnFrame_spec s.chip s.clk f u.isLt hotn hup hloop hlt
    have hkeep := (Chip.Keeps.refl s.chip).otnFrame s.clk u.val f
    have hexec : exec (.otnFrame u f) s = .next { s with chip := s.chip.otnFrame s.clk u.val f } :=
      congrArg Host.Outcome.next (State.act_running s _ hs.1)
    generalize s.chip.otnFrame s.clk u.val f = c at hj hkeep hexec
    exact ⟨_, hexec, ⟨rfl, rfl, hkeep⟩, hj.read hs.wf, hj.cor hs.wf, hj.unc hs.wf⟩
  · have hj := Chip.pcsEvent_spec s.chip s.clk e u.isLt heth hup hloop hlt
    have hkeep := (Chip.Keeps.refl s.chip).pcsEvent s.clk u.val e
    have hexec : exec (.blockLockChange u e) s = .next { s with chip := s.chip.pcsEvent s.clk u.val e } :=
      congrArg Host.Outcome.next (State.act_running s _ hs.1)
    generalize s.chip.pcsEvent s.clk u.val e = c at hj hkeep hexec
    exact ⟨_, hexec, ⟨rfl, rfl, hkeep⟩, hj.read hs.wf, hj.lock hs.wf, hj.fault hs.wf⟩
  · refine ⟨congrArg Host.Outcome.next (State.act_same ?_), congrArg Host.Outcome.next (State.act_same ?_)⟩
    · unfold Chip.otnFrame
      dsimp only
      rw [hm]
      rfl
    · unfold Chip.pcsEvent
      rw [hm]
      rfl
  · refine congrArg Host.Outcome.next ?_
    rcases h with h | h
    · exact State.inWindow_late h
    · unfold State.inWindow State.actAt
      rw [s.toIdx_self 0 (by omega)]
      dsimp only
      rw [if_pos h, ite_self, ite_self]

end Sys2Proof.Machine
end
